-- ==== Sys2Proof/Word.lean ====
section
/-! DEFINITION. The word types of the QPF-3 model: bytes and 64-bit register words (R5, R6), 16-bit
status codes (R15), and the sparse table that holds like things by number. -/

namespace Sys2Proof

/-- A byte of a memory-resident structure (R5). -/
abbrev Byte := BitVec 8

/-- A register word (R6: registers are 64 bits wide). -/
abbrev Word := BitVec 64

/-- A status code (R15: 16 bits, subject in bits [15:8], case in bits [7:0]). -/
abbrev Code := BitVec 16

/-- A requester number (R422). -/
abbrev Requester := BitVec 8

/-- A sparse table: like things held by number, in ONE canonical form, numbers strictly rising and
no entry equal to what an unlisted number reads as. `tabGet` and `tabSet` (Machine/Ops.lean) read
and write it. -/
abbrev Tab (α : Type) := List (Nat × α)

end Sys2Proof
end

