-- ==== Sys2Proof/Syntax.lean ====
section
/-! DEFINITION. The commands of the QPF-3: one constructor of `Instr` per row of spec/opcode_table.json.
A command is either an access at a register port (a register write, read or doorbell), an event on a port
or pin (a response, an acknowledgement, a frame, a reset), or an event that the block's own clocks bring
about (a tick boundary, a phase instant, a timer). Its operands are what that access or event carries. -/

namespace Sys2Proof

/-- How an access reaches the 64 MiB space (R422): the host target channel (R93, R96), firmware on a
control core, or the TAP instruction DBG_REG (R412). -/
inductive Access where
  /-- hp_t_func, hp_t_bar, hp_t_addr, hp_t_be, and hp_t_tag, which a read's answer returns (R96). -/
  | host (func bar : Nat) (addr : Nat) (be : BitVec 8) (tag : Nat)
  /-- Control core 0 to 3, offset in the 64 MiB space, byte enables (R422). -/
  | firmware (core : Nat) (off : Nat) (be : BitVec 8)
  /-- DBG_REG's offset field (R412); always a whole 64-bit access. -/
  | tap (off : Nat)
  deriving DecidableEq, Repr

/-- The answer of the host bus to a read of a buffer: its bytes, or a failed read (R69, R143). -/
inductive HostRead where
  | bytes (bs : List Byte)
  | failed
  deriving DecidableEq, Repr

/-- hp_c_status of a completion (R96): every other value is taken as Completer Abort. -/
inductive HostStatus where
  | ok | unsupported | abort | poisoned
  deriving DecidableEq, Repr

/-- mc_rsp_ecc (R105); 0b11 is taken as uncorrectable. -/
inductive Ecc where
  | clean | corrected | uncorrectable
  deriving DecidableEq, Repr

/-- A Translation Completion (R363): granted with the permissions R and W, the U bit and the translated
address bits [63:12], or a failed completion. -/
inductive AtsReply where
  | granted (r w u : Bool) (page : Nat)
  | failed
  deriving DecidableEq, Repr

/-- What phase 2 meets on rot_lc, the xSPI pins and the flash (R126 to R129). -/
structure RootInputs where
  /-- rot_lc (R113). -/
  lc : BitVec 3
  /-- Step 1 of R122: bit i of `drive1` and of `drive0` is what io[i] reads back while 1, and then 0, is driven. -/
  drive1 : BitVec 8
  drive0 : BitVec 8
  /-- Step 2 of R122: the SFDP signature was read in 1S-1S-1S mode. -/
  signature : Bool
  /-- Step 3 of R122: lines that followed the pull instead of the data, bit i for io[i], bit 8 for xspi_dqs. -/
  pulled : BitVec 9
  /-- SFDP advertises Profile 1.0 octal DDR (R120). -/
  octal : Bool
  /-- log2 of the flash size, from SFDP (R83). -/
  sizeLog2 : Nat
  /-- The 64 KiB of helper data at flash offset 0 (R384). -/
  helper : List Byte
  /-- Settings copies A and B, the first 512 B of each (R78). -/
  copyA : List Byte
  copyB : List Byte
  deriving DecidableEq, Repr

/-- What the end of phase 3 meets on the 20 memory-controller ports (R130). -/
structure MemoryInputs where
  /-- mc_rd_lat per stack. -/
  rdLat : List Nat
  /-- Pseudo-channels whose mc_pch_fail is 1, ascending. -/
  failed : List Nat
  deriving DecidableEq, Repr

/-- The level of the input wires that a calendar phase reads (R153, R164, R197). Where a wire is read once for each
of the 16 sub-slots of the phase, the list holds its value for sub-slot 0, 1 and so on; the last holds on. -/
structure PhaseWires where
  /-- (core, cp_urgency 4 cclk before each sub-slot) for each core whose urgency is not 0. -/
  cpUrgency : List (Nat × List Nat)
  /-- hp_urgency 4 cclk before each sub-slot. -/
  hpUrgency : List Nat
  /-- Pseudo-channels whose mc_train_req is 1. -/
  trainReq : List Nat
  /-- In a tick whose cclk is not the same phase-locked multiple of ref_clk throughout (R535): the count of cclk edges
  from the tick boundary to the first edge at or after the instant of each sub-slot; empty otherwise. -/
  edges : List Nat
  /-- Cores that hold cp_ib_ready at 0 (R101, R103). -/
  ibHeld : List Nat
  deriving DecidableEq, Repr

/-- What the block sampled on the core ports over the tick a boundary closes (R335, R344). -/
structure TickWires where
  /-- (core, samples): the four bytes of cp_zg_rows in each cclk in which a pass of the core was issued and not ended
  (R101, R344). -/
  zgRows : List (Nat × List Nat)
  /-- cclk per ref_clk period from this boundary on, when phase-locked (R153, R161); 0 when not. -/
  lock : Nat
  deriving DecidableEq, Repr

/-- A core memory request on cp_m (R101); the core sends no context (R102). -/
structure CoreReq where
  write : Bool
  addr : Nat
  cls : Nat
  tag : Nat
  data : List Byte
  be : BitVec 256
  /-- cp_drained after this request (R101). -/
  drained : Bool
  deriving DecidableEq, Repr

/-- An inbound fabric request on fi_ (R109). -/
structure FabricReq where
  chip : Nat
  addr : Nat
  write : Bool
  ctx : Nat
  gen : Nat
  cls : Nat
  tag : Nat
  data : List Byte
  be : BitVec 256
  deriving DecidableEq, Repr

/-- A reply message on rot_a (R401): its header fields and payload. -/
structure RotMsg where
  type : Nat
  seq : Nat
  origin : Nat
  status : Code
  payload : List Byte
  deriving DecidableEq, Repr

/-- The part of a received Trail frame that every type carries (R506, R508): source chip, destination field, and the age field as
it arrives, in 1/16 ns. -/
structure FrameHead where
  src : Nat
  dst : BitVec 16
  age : Nat
  deriving DecidableEq, Repr

/-- Why a lane is retired, as TRL_LANE.fault (R519). -/
inductive LaneFault where
  | shortGround | shortSupply | openPair | codeErrors | omitted
  deriving DecidableEq, Repr

/-- What training found on one lane (R504, R519), with the code errors seen on it. -/
structure LaneResult where
  fault : Option LaneFault
  inverted : Bool
  logical : Nat
  errors : Nat
  deriving DecidableEq, Repr

/-- The exception of a control core (R447, R471). -/
structure FwTrap where
  core : Nat
  mcause : Word
  mepc : Word
  mtval : Word
  deriving DecidableEq, Repr

/-- The commands, one constructor per row of the table. `q` is the requester of an access, `n` the
clearing window through which it is written, `w` the 64-bit word written; a command register's row
fixes the op field of `w`. -/
inductive Instr where
  -- resets and start-up
  /-- POWER_ON_RESET (R90): por_n is asserted. -/
  | powerOnReset
  /-- WARM_RESET (R90): warm_rst_n is asserted. -/
  | warmReset
  /-- RESET_DEASSERTED (R123): the reset is released; `puf` is the PUF SRAM's power-up state. -/
  | resetDeasserted (puf : List Bool)
  /-- ROM_PHASE_END (R123). -/
  | romPhaseEnd
  /-- ROT_LC_VALID (R126). -/
  | rotLcValid (inp : RootInputs)
  /-- ROT_LC_TIMEOUT (R126). -/
  | rotLcTimeout
  /-- MEMORY_PHASE_END (R130). -/
  | memoryPhaseEnd (inp : MemoryInputs)
  /-- MEMORY_PHASE_TIMEOUT (R130): a bit of mc_hold of `stack` is still 1 at 500 ms. -/
  | memoryPhaseTimeout (stack : Nat)
  /-- FLASH_IMAGE_READ_DONE (R133): the bytes the flash gave. -/
  | flashImageReadDone (bs : List Byte)
  /-- IMAGE_READ_TIMEOUT (R145). -/
  | imageReadTimeout
  /-- STARTUP_SCRUB_DONE (R124). -/
  | startupScrubDone
  /-- POWER_PHASE_END (R135). -/
  | powerPhaseEnd
  /-- PHASE_TIMEOUT (R145). -/
  | phaseTimeout
  /-- STARTUP_BOUNDARY (R132). -/
  | startupBoundary
  /-- TRAIL_TRAINING_TIMEOUT (R136). -/
  | trailTrainingTimeout
  /-- LAUNCH_WAIT_TIMEOUT (R136). -/
  | launchWaitTimeout
  /-- FIRST_TICK (R138). -/
  | firstTick
  /-- BOOT_IMAGE (R143). -/
  | bootImage
  /-- BOOT_SETTINGS (R143). -/
  | bootSettings
  /-- BOOT_DELIVERY_DONE (R143): the host read of a boot message ends. -/
  | bootDeliveryDone (r : HostRead)
  -- time
  /-- TICK_BOUNDARY (R150). -/
  | tickBoundary (wires : TickWires)
  /-- CALENDAR_PHASE (R157). -/
  | calendarPhase (wires : PhaseWires)
  -- register accesses
  /-- REGISTER_WRITE (R13); `r` is what the host answers where the write is a SETTINGS command of IMG_CMD,
  as in `imgSettings`. -/
  | registerWrite (a : Access) (w : Word) (r : HostRead)
  /-- REGISTER_READ (R9). -/
  | registerRead (a : Access)
  -- clearings and contexts
  /-- OPEN (R32, R42). -/
  | clrOpen (q : Requester) (w : Word)
  /-- QUIESCE (R32, R42). -/
  | clrQuiesce (q : Requester) (w : Word)
  /-- CLOSE (R32, R42). -/
  | clrClose (q : Requester) (w : Word)
  /-- RESET (R32, R42). -/
  | clrReset (q : Requester) (w : Word)
  /-- QUIESCE_TIMER_EXPIRE (R32). -/
  | quiesceTimerExpire (n : Nat)
  /-- FENCE_DRAINED (R455). -/
  | fenceDrained (n : Nat)
  /-- CLEARING_RESET_DONE (R463). -/
  | clearingResetDone (n : Nat)
  /-- MANIFEST_ISSUE_DONE (R39). -/
  | manifestIssueDone (n : Nat)
  /-- CLR_NONCE1_WRITE (R38). -/
  | clrNonce1Write (q : Requester) (n : Nat) (w : Word)
  /-- CREATE (R28, R46). -/
  | ctxCreate (q : Requester) (n : Nat) (w : Word)
  /-- DESTROY (R28, R46). -/
  | ctxDestroy (q : Requester) (n : Nat) (w : Word)
  /-- TEARDOWN (R464, R46). -/
  | ctxTeardown (q : Requester) (n : Nat) (w : Word)
  /-- CONTEXT_DRAINED (R28). -/
  | contextDrained (c : Nat)
  -- image
  /-- LOAD (R69). -/
  | imgLoad (q : Requester) (w : Word)
  /-- LOAD_DONE (R69). -/
  | imgLoadDone (r : HostRead)
  /-- APPLY (R71). -/
  | imgApply (q : Requester) (w : Word)
  /-- COMMIT (R73). -/
  | imgCommit (q : Requester) (w : Word)
  /-- DISCARD (R74). -/
  | imgDiscard (q : Requester) (w : Word)
  /-- FLASH (R74). -/
  | imgFlash (q : Requester) (w : Word)
  /-- SETTINGS (R79): the record read from IMG_SRC. -/
  | imgSettings (q : Requester) (w : Word) (r : HostRead)
  /-- FLASH_WRITE_DONE (R80). -/
  | flashWriteDone
  /-- FLASH_OP_TIMEOUT (R80). -/
  | flashOpTimeout
  /-- PLOT_SCRUB_DONE (R72). -/
  | plotScrubDone (plot : Nat)
  -- function resets
  /-- FUNCTION_LEVEL_RESET (R98): hp_flr bit `f`, 1 to 64. -/
  | functionLevelReset (f : Nat)
  /-- PF_FUNCTION_LEVEL_RESET (R99): hp_flr bit 0. -/
  | pfFunctionLevelReset
  /-- HOT_RESET (R99): hp_link_rst. -/
  | hotReset
  /-- VF_ENABLE_CHANGE (R92): the host sets VF Enable with NumVFs = `numVfs`, or clears it (0). -/
  | vfEnableChange (numVfs : Nat)
  /-- RESET_SLOW (R472). -/
  | resetSlow (n : Nat)
  -- queues and streams
  /-- DOORBELL (R219). -/
  | doorbell (a : Access) (w : Word)
  /-- DOORBELL_APPLY (R221): the descriptor of queue `queue` arrives. -/
  | doorbellApply (queue : Nat)
  /-- CONFIG (R217). -/
  | queConfig (q : Requester) (n : Nat) (w : Word)
  /-- ENABLE (R217). -/
  | queEnable (q : Requester) (n : Nat) (w : Word)
  /-- DISABLE (R217). -/
  | queDisable (q : Requester) (n : Nat) (w : Word)
  /-- READ (R217). -/
  | queRead (q : Requester) (n : Nat) (w : Word)
  /-- ENVELOPE_FETCH (R228): envelopes, 64 B each, arrive from the ring of `queue`, or the read fails. -/
  | envelopeFetch (queue : Nat) (r : HostRead)
  /-- BATCH_ADMIT (R232): the batch at the head of `queue`. -/
  | batchAdmit (queue : Nat)
  /-- TASK_DEADLINE (R237). -/
  | taskDeadline (task : Nat)
  /-- TASK_END (R239). -/
  | taskEnd (task : Nat)
  /-- COALESCE_TIMEOUT (R231). -/
  | coalesceTimeout (queue : Nat)
  /-- NOP (R226): envelope `env` of task `task`; so for every envelope command below. -/
  | nop (task env : Nat)
  /-- FENCE (R226). -/
  | fence (task env : Nat)
  /-- STM_QUOTA_WRITE (R243): STM_QUOTA(n). -/
  | stmQuotaWrite (q : Requester) (n : Nat) (w : Word)
  -- gather-pool engines
  /-- GATHER_POOL (R260). -/
  | gatherPool (task env : Nat)
  /-- GATHER (R260). -/
  | gather (task env : Nat)
  /-- REDUCE (R259). -/
  | reduce (task env : Nat)
  /-- ENVELOPE_ASSIGN (R263). -/
  | envelopeAssign (task env : Nat)
  /-- ENGINE_INTERNAL_FAULT (R466): `kind` 1 granule buffer, 2 accumulator lanes, 3 stage queues. -/
  | engineInternalFault (e kind : Nat)
  /-- ENGINE_RESET_ACK (R466). -/
  | engineResetAck (e : Nat)
  -- live tables
  /-- UPDATE (R292). -/
  | update (task env : Nat)
  /-- PUBLISH (R294). -/
  | publish (task env : Nat)
  /-- REFRESH_BEGIN (R298). -/
  | refreshBegin (task env : Nat)
  /-- REFRESH_ROWS (R299). -/
  | refreshRows (task env : Nat)
  /-- REFRESH_ABORT (R301). -/
  | refreshAbort (task env : Nat)
  /-- CHANGE_ENTRY_RETIRE (R296): the entry of `row` of table `desc`. -/
  | changeEntryRetire (desc row : Nat)
  /-- REFRESH_HELD_CLEAR (R296). -/
  | refreshHeldClear (desc : Nat)
  /-- TABLE_WRITE (R251): op WRITE through window `n`, or through TBL_CMD when `n` is none. -/
  | tableWrite (q : Requester) (n : Option Nat) (w : Word)
  /-- INVALIDATE (R304). -/
  | tableInvalidate (q : Requester) (n : Option Nat) (w : Word)
  /-- TABLE_READ (R303). -/
  | tableRead (q : Requester) (n : Option Nat) (w : Word)
  /-- INVALIDATE_DONE (R304). -/
  | invalidateDone (desc : Nat)
  -- jobs, cores, canopy
  /-- JOB (R319). -/
  | job (task env : Nat)
  /-- JOB_WAIT (R320). -/
  | jobWait (task env : Nat)
  /-- MODEL_LOAD (R339). -/
  | modelLoad (task env : Nat)
  /-- MODEL_LOAD_DONE (R339). -/
  | modelLoadDone (task env : Nat)
  /-- MODEL_EVICT (R341). -/
  | modelEvict (task env : Nat)
  /-- PASS_ISSUE (R329): a transfer on cp_pass of `core`. -/
  | passIssue (core : Nat)
  /-- PASS_DONE (R327): cp_done with its tag and status; `drained` is cp_drained. -/
  | passDone (core tag status : Nat) (drained : Bool)
  /-- PASS_WATCHDOG (R334). -/
  | passWatchdog (core : Nat)
  /-- CORE_FROZEN (R454): cp_frozen rises. -/
  | coreFrozen (core : Nat)
  /-- CORE_RESET_ACK (R332): cp_rst_ack rises. -/
  | coreResetAck (core : Nat)
  /-- RESET_HANG (R467): of a core or of an engine. -/
  | resetHang (isCore : Bool) (unit : Nat)
  /-- CORE_MEMORY_REQUEST (R354). -/
  | coreMemoryRequest (core : Nat) (r : CoreReq)
  /-- CORE_ERROR_REPORT (R335). -/
  | coreErrorReport (core : Nat) (code : BitVec 16)
  /-- SPARE_MAP_CHANGE (R104). -/
  | spareMapChange (core : Nat) (map : BitVec 32)
  /-- SCH_WEIGHT_WRITE (R326): SCH_WEIGHT(c). -/
  | schWeightWrite (q : Requester) (c : Nat) (w : Word)
  /-- SCH_WCANOPY_WRITE (R338). -/
  | schWcanopyWrite (q : Requester) (n : Nat) (w : Word)
  /-- SCH_WACCT_WRITE (R348): SCH_WACCT, or SCH_WACCTPTR when `ptr`. -/
  | schWacctWrite (q : Requester) (n : Nat) (ptr : Bool) (w : Word)
  -- memory controllers and the calendar
  /-- MEMORY_RESPONSE (R107): mc_rsp of `lane` of `stack`. -/
  | memoryResponse (stack lane tag : Nat) (ecc : Ecc) (data : List Byte)
  /-- MEMORY_RESPONSE_TIMEOUT (R458): of mc_cmd_tag `tag` on `lane` of `stack`. -/
  | memoryResponseTimeout (stack lane tag : Nat)
  /-- HOLD_BEGIN (R166): a bit of mc_hold rises. -/
  | holdBegin (p : Nat)
  /-- HOLD_END (R166). -/
  | holdEnd (p : Nat)
  /-- HOLD_LIMIT (R167). -/
  | holdLimit (p : Nat)
  /-- PCH_FAIL (R171): mc_pch_fail takes the level `level`; remapping begins when it rises. -/
  | pchFail (p : Nat) (level : Bool)
  /-- REMAP (R171, R175). -/
  | remap (q : Requester) (w : Word)
  /-- RESTORE (R175). -/
  | restore (q : Requester) (w : Word)
  /-- MARGINING_REQUEST (R165). -/
  | marginingRequest (q : Requester) (w : Word)
  /-- MARGINING_RESPONSE (R165). -/
  | marginingResponse (stack : Nat) (rsp : BitVec 32)
  /-- ELA_CLASS_WRITE (R206): ELA_CLASS(n, c). -/
  | elaClassWrite (q : Requester) (n c : Nat) (w : Word)
  /-- ELA_CTRL_WRITE (R206): ELA_CTRL(n). -/
  | elaCtrlWrite (q : Requester) (n : Nat) (w : Word)
  -- host and fabric
  /-- HOST_READ_COMPLETION (R364): hp_c of `tag`. -/
  | hostReadCompletion (tag : Nat) (st : HostStatus) (data : List Byte)
  /-- TRANSLATION_COMPLETION (R363): of the ATS request with this tag. -/
  | translationCompletion (tag : Nat) (r : AtsReply)
  /-- ATS_INVALIDATE (R378): function, PASID (none: the whole function) and ITag. -/
  | atsInvalidate (func : Nat) (pasid : Option Nat) (itag : Nat)
  /-- INVALIDATE_DRAINED (R379). -/
  | invalidateDrained (func itag : Nat)
  /-- PRG_RESPONSE (R367). -/
  | prgResponse (func pasid index code : Nat)
  /-- PAGE_REQUEST_TIMEOUT (R368). -/
  | pageRequestTimeout (func index : Nat)
  /-- PAGE_REQUEST_INTERFACE_RESET (R367). -/
  | pageRequestInterfaceReset (func : Nat)
  /-- COPY (R372). -/
  | copy (task env : Nat)
  /-- COPY_2D (R372). -/
  | copy2d (task env : Nat)
  /-- PREFETCH (R376). -/
  | prefetch (task env : Nat)
  /-- ADVISE (R377). -/
  | advise (task env : Nat)
  /-- BIND (R360). -/
  | peerBind (q : Requester) (w : Word)
  /-- UNBIND (R360). -/
  | peerUnbind (q : Requester) (w : Word)
  /-- FABRIC_INBOUND_REQUEST (R361). -/
  | fabricInboundRequest (r : FabricReq)
  /-- FABRIC_RESPONSE (R359): fr_ of `tag`. -/
  | fabricResponse (tag status : Nat) (data : List Byte)
  -- keys and trust
  /-- KEY_WRITE (R393). -/
  | keyWrite (q : Requester) (w : Word)
  /-- KEY_ERASE (R393). -/
  | keyErase (q : Requester) (w : Word)
  /-- ENROL (R386). -/
  | keyEnrol (q : Requester) (w : Word)
  /-- SETPASS (R415). -/
  | keySetpass (q : Requester) (w : Word)
  /-- LC_ADVANCE (R390). -/
  | keyLcAdvance (q : Requester) (w : Word)
  /-- CHALLENGE (R413). -/
  | keyChallenge (q : Requester) (w : Word)
  /-- DBG_AUTH (R417). -/
  | keyDbgAuth (q : Requester) (w : Word)
  /-- DBG_PASS (R417). -/
  | keyDbgPass (q : Requester) (w : Word)
  /-- DBG_CLOSE (R417). -/
  | keyDbgClose (q : Requester) (w : Word)
  /-- SPDM (R406): through window `n`, or through KEY_XCMD when `n` is none. -/
  | keySpdm (q : Requester) (n : Option Nat) (w : Word)
  /-- UNWRAP (R408). -/
  | keyUnwrap (q : Requester) (n : Nat) (w : Word)
  /-- UNSEAL (R397). -/
  | unsealData (task env : Nat)
  /-- ROT_REPLY (R401). -/
  | rotReply (m : RotMsg)
  /-- ROT_KEY_RELEASE (R403): a transfer on rot_k. -/
  | rotKeyRelease (slot : Nat) (key : List Byte) (attr : BitVec 32)
  /-- ROT_TIMEOUT (R401): of the message outstanding for `origin`. -/
  | rotTimeout (origin : Nat)
  /-- ROT_LC_CHANGE (R387): rot_lc takes the value `lc`. -/
  | rotLcChange (lc : BitVec 3)
  -- the TAP
  /-- IDCODE (R116). -/
  | tapIdcode
  /-- BYPASS (R116): the instruction register takes `ir`, 0xFF or any value without an instruction. -/
  | tapBypass (ir : BitVec 8)
  /-- SAMPLE/PRELOAD (R116): the levels of the Trail and xSPI pins that the scan captures, and the vector shifted in. -/
  | tapSamplePreload (pins cells : List Bool)
  /-- EXTEST (R116): the same, and the cells drive their pins. -/
  | tapExtest (pins cells : List Bool)
  /-- DBG_REG (R412). -/
  | tapDbgReg (write : Bool) (off : Nat) (data : Word) (r : HostRead)
  /-- DBG_DMI (R412): the 41 bits shifted in. -/
  | tapDbgDmi (dmi : BitVec 41)
  /-- DBG_STATUS (R412). -/
  | tapDbgStatus
  /-- TEST_LOGIC_RESET (R116). -/
  | tapTestLogicReset
  -- mailboxes and power
  /-- MBX_LOCK_ACQUIRE (R424): `q` reads MBX_LOCK of mailbox `m`. -/
  | mbxLockAcquire (q : Requester) (m : Nat)
  /-- MBX_RELEASE (R425). -/
  | mbxRelease (q : Requester) (m : Nat) (w : Word)
  /-- MBX_BREAK (R425). -/
  | mbxBreak (q : Requester) (m : Nat) (w : Word)
  /-- MBX_DATA_WRITE (R426): word `k`. -/
  | mbxDataWrite (q : Requester) (m k : Nat) (w : Word)
  /-- MBX_POST (R426). -/
  | mbxPost (q : Requester) (m : Nat) (w : Word)
  /-- MBX_TAKE (R427). -/
  | mbxTake (q : Requester) (m : Nat) (w : Word)
  /-- MBX_ACK_TAKEN (R427): which = 0. -/
  | mbxAckTaken (q : Requester) (m : Nat) (w : Word)
  /-- MBX_ACK_POSTED (R427): which = 1. -/
  | mbxAckPosted (q : Requester) (m : Nat) (w : Word)
  /-- MBX_RECV_WRITE (R428). -/
  | mbxRecvWrite (q : Requester) (m : Nat) (w : Word)
  /-- PWR_CMD (R437). -/
  | pwrCmd (q : Requester) (w : Word)
  /-- POWER_ACK (R112). -/
  | powerAck (d : Nat)
  /-- POWER_FAULT (R438): pwr_fault of `d` rises, or pwr_state of `d` reads 0b11 (`state3`). -/
  | powerFault (d : Nat) (state3 : Bool)
  /-- POWER_ACK_TIMEOUT (R112). -/
  | powerAckTimeout (d : Nat)
  /-- CONTROL_CORE_WFI (R437): control core `core`, 2 or 3, executes WFI. -/
  | controlCoreWfi (core : Nat)
  -- faults and recovery
  /-- DUMP (R479). -/
  | errDump (q : Requester) (w : Word)
  /-- DUMP_COPY (R482). -/
  | errDumpCopy (q : Requester) (w : Word)
  /-- DUMP_COPY_DONE (R482): `ok` when every host write was accepted. -/
  | errDumpCopyDone (ok : Bool)
  /-- DUMP_RELEASE (R482). -/
  | errDumpRelease (q : Requester) (w : Word)
  /-- CRASH_DUMP_DONE (R479): the bytes of the control-core SRAM, and the types of the sections whose state the cause has
  lost. -/
  | crashDumpDone (sram : List Byte) (lost : List Nat)
  /-- FAIL_CORE (R468). -/
  | errFailCore (q : Requester) (w : Word)
  /-- FAIL_ENGINE (R468). -/
  | errFailEngine (q : Requester) (w : Word)
  /-- ABORT (R477). -/
  | errAbort (q : Requester) (w : Word)
  /-- ERR_WABORT (R477). -/
  | errWabort (q : Requester) (n : Nat) (w : Word)
  /-- ABORT_RECEIVED (R478). -/
  | abortReceived (h : FrameHead) (group postmark : Nat)
  /-- FENCE_TIMEOUT (R459): of the fence of clearing `n`. -/
  | fenceTimeout (n : Nat)
  /-- FW_EXCEPTION (R471). -/
  | fwException (t : FwTrap)
  /-- RING_HEAD_WRITE (R486): ERR_GPTR when `n` is none, else ERR_WPTR of window `n`. -/
  | ringHeadWrite (q : Requester) (n : Option Nat) (w : Word)
  -- determinism
  /-- START (R497). -/
  | lsStart (q : Requester) (w : Word)
  /-- STOP (R500). -/
  | lsStop (q : Requester) (w : Word)
  /-- DET_LSCFG_WRITE (R522): DET_LSCFG(n). -/
  | detLscfgWrite (q : Requester) (n : Nat) (w : Word)
  /-- DIGEST (R499). -/
  | trlDigest (h : FrameHead) (n s : Nat) (d : BitVec 128)
  /-- LS_FREEZE (R499). -/
  | trlLsFreeze (h : FrameHead) (n cause postmark : Nat)
  /-- LOCKSTEP_TIMEOUT (R499). -/
  | lockstepTimeout (n : Nat)
  -- the Trail link
  /-- RETRAIN (R504). -/
  | trlRetrain (q : Requester) (w : Word)
  /-- SOLO (R136). -/
  | trlSolo (q : Requester) (w : Word)
  /-- TRAINING_DONE (R504): what it found on the eight lanes, 0 to 3 transmit, 4 to 7 receive; the rx_ok mask that the partner
  reported within 10 ms, zero where it reported none; and the round trips of the 256 echoes, in 1/16 ns, none where the link could
  not be measured. -/
  | trlTrainingDone (lanes : List LaneResult) (rxOk : BitVec 4) (echoes : List Nat)
  /-- LANE_FAULT (R505), with the code errors seen on the lane since it was last reported. -/
  | trlLaneFault (lane : Nat) (f : LaneFault) (errors : Nat)
  /-- LINK_STATE (R505): the partner's rx_ok mask. -/
  | trlLinkState (h : FrameHead) (mask : BitVec 8)
  /-- RETRAIN_TIMER (R505). -/
  | trlRetrainTimer
  /-- HELLO_TIMER (R509). -/
  | trlHelloTimer
  /-- HELLO (R509). -/
  | trlHello (h : FrameHead) (firstPm state tickUs : Nat)
  /-- LAUNCH_MASTER_TIMEOUT (R509). -/
  | trlLaunchMasterTimeout
  /-- LAUNCH (R509). -/
  | trlLaunch (h : FrameHead) (pm leadUs tickUs : Nat)
  /-- HEARTBEAT (R511). -/
  | trlHeartbeat (h : FrameHead) (pm tickUs : Nat)
  /-- PEER_LOST (R512). -/
  | trlPeerLost (chip : Nat)
  /-- ARRIVE (R515). -/
  | trlArrive (h : FrameHead) (group epoch : Nat)
  /-- TRL_WBARCMD (R514). -/
  | trlWbarcmd (q : Requester) (n : Nat) (w : Word)
  /-- BARRIER_RELEASE (R515). -/
  | barrierRelease (n : Nat)
  /-- TRL_BARCFG_WRITE (R520): TRL_BARCFG(n). -/
  | trlBarcfgWrite (q : Requester) (n : Nat) (w : Word)
  /-- TRAIL_FRAME_DROPPED (R507): the 34 bytes between SOF and EOF of a frame, payload and CRC. -/
  | trailFrameDropped (frame : List Byte)
  deriving DecidableEq, Repr

end Sys2Proof
end

