-- ==== Sys2Proof/Decode.lean ====
section
/-! DEFINITION. The decoder of the table's words. No row of spec/opcode_table.json gives bits: a command reaches the block
as an access or an event and is spelt by no word, so no word spells one. -/

namespace Sys2Proof

/-- The command that a word of `nbits` bits spells by the table: none, for no row gives bits. -/
def decodeTableWord (_nbits _w : Nat) : Option Instr := none

end Sys2Proof
end

