-- ==== Sys2Proof/Machine/Bytes.lean ====
section
/-! DEFINITION. Bytes, fields and bits: the little-endian readers and writers of memory-resident
structures (R5), the field extraction of register words (R6), and bit masks over small numbers. -/

namespace Sys2Proof

/-- The byte at offset `o`; zero past the end. -/
def byteAt (bs : List Byte) (o : Nat) : Nat := ((bs[o]?).getD 0).toNat

/-- The `n`-byte little-endian number at offset `o` (R5). -/
def leAt (bs : List Byte) (o : Nat) : Nat → Nat
  | 0 => 0
  | n + 1 => byteAt bs o + 256 * leAt bs (o + 1) n

/-- The `n` bytes from offset `o`. -/
def sliceAt (bs : List Byte) (o n : Nat) : List Byte := (bs.drop o).take n

/-- The `n` bytes from offset `o` are all zero. -/
def zeroAt (bs : List Byte) (o n : Nat) : Bool := (sliceAt bs o n).all (· == 0)

/-- `v` as `n` bytes, least significant first (R5). -/
def leBytes (n v : Nat) : List Byte :=
  (List.range n).map fun i => BitVec.ofNat 8 (v / 256 ^ i)

/-- `n` zero bytes. -/
def zeroBytes (n : Nat) : List Byte := List.replicate n 0

/-- `v` as `n` bytes, most significant first. -/
def beBytes (n v : Nat) : List Byte := (leBytes n v).reverse

/-- The bytes of an ASCII text. -/
def asciiBytes (t : String) : List Byte := t.toList.map fun c => BitVec.ofNat 8 c.toNat

/-- The 48 bytes of a digest, in the order its producer emits them: most significant first. -/
def digestBytes (d : BitVec 384) : List Byte := beBytes 48 d.toNat

/-- The two's-complement reading of a `bits`-wide number. -/
def signedOf (bits v : Nat) : Int := if v < 2 ^ (bits - 1) then (v : Int) else (v : Int) - (2 : Int) ^ bits

/-- The `len`-bit field of a word at bit `lo`. -/
def field (w : Word) (lo len : Nat) : Nat := (w.toNat / 2 ^ lo) % 2 ^ len

/-- Bit `i` of a word. -/
def wbit (w : Word) (i : Nat) : Bool := w.getLsbD i

/-- A number as a word. -/
def word (n : Nat) : Word := BitVec.ofNat 64 n

/-- A Bool as a bit. -/
def bit (b : Bool) : Nat := if b then 1 else 0

/-- A register word from its fields, each (lowest bit, width, value); a value is cut to its width. -/
def pack (fs : List (Nat × Nat × Nat)) : Word :=
  word (fs.foldl (fun a f => a + (f.2.2 % 2 ^ f.2.1) * 2 ^ f.1) 0)

/-- A counter of `bits` bits that holds at its greatest value. -/
def holdAt (bits n : Nat) : Nat := min n (2 ^ bits - 1)

/-- The bits set in a mask below `n`, ascending. -/
def maskBits {w : Nat} (m : BitVec w) : List Nat := (List.range w).filter fun i => m.getLsbD i

/-- A mask with bit `i` set for every `i` of the list. -/
def maskOf (w : Nat) (is : List Nat) : BitVec w :=
  is.foldl (fun m i => m ||| BitVec.ofNat w (2 ^ i)) 0

/-- `m` with bit `i` at `b`. -/
def setBit {w : Nat} (m : BitVec w) (i : Nat) (b : Bool) : BitVec w :=
  if b then m ||| BitVec.ofNat w (2 ^ i) else m &&& ~~~ (BitVec.ofNat w (2 ^ i))

/-- The first element of a list that fails, as its reason. -/
def firstBad {α : Type} : List (Bool × α) → Option α
  | [] => none
  | (true, _) :: r => firstBad r
  | (false, a) :: _ => some a

end Sys2Proof
end

