-- ==== Sys2Proof/Machine/Codes.lean ====
section
/-! DEFINITION. The status codes, each at the value its chapter's table gives it (R530). -/

namespace Sys2Proof

/-- QS_OK (R16): Done as asked -/
abbrev qsOk : Code := 0x0000
/-- QS_ILLEGAL_VALUE (R16): A field holds a value outside its encoding or range, and the owning chapter names no more specific code -/
abbrev qsIllegalValue : Code := 0x0001
/-- QS_RESERVED_NONZERO (R16): A reserved bit was written as one -/
abbrev qsReservedNonzero : Code := 0x0002
/-- QS_NOT_OWNER (R16): The requester does not own the resource, or the action is reserved to privileged software -/
abbrev qsNotOwner : Code := 0x0003
/-- QS_BAD_ACCESS (R16): Access of the wrong width or alignment, or to an offset that holds no register -/
abbrev qsBadAccess : Code := 0x0004
/-- QS_IMG_FORMAT (R84): Wrong magic or format, a QPF-2 image included -/
abbrev qsImgFormat : Code := 0x0101
/-- QS_IMG_LENGTH (R84): IMG_LEN or total_len is illegal, or they differ -/
abbrev qsImgLength : Code := 0x0102
/-- QS_IMG_TARGET (R84): The image does not target this block or revision -/
abbrev qsImgTarget : Code := 0x0103
/-- QS_IMG_SIGNER (R84): The signer digest is not trusted -/
abbrev qsImgSigner : Code := 0x0104
/-- QS_IMG_SIGNATURE (R84): The signature does not verify -/
abbrev qsImgSignature : Code := 0x0105
/-- QS_IMG_ROLLBACK (R84): svn is below min_svn -/
abbrev qsImgRollback : Code := 0x0106
/-- QS_IMG_SECTION (R84): The section table or the section placement is malformed -/
abbrev qsImgSection : Code := 0x0107
/-- QS_IMG_RANGE (R84): An image field is out of its encoding or range, or a reserved byte is non-zero -/
abbrev qsImgRange : Code := 0x0108
/-- QS_IMG_ZERO_SIZE (R84): A structural size in the image is zero -/
abbrev qsImgZeroSize : Code := 0x0109
/-- QS_IMG_OVERLAP (R84): A resource is granted twice or over-committed -/
abbrev qsImgOverlap : Code := 0x010A
/-- QS_IMG_CALENDAR (R84): The phase map breaks R54 -/
abbrev qsImgCalendar : Code := 0x010B
/-- QS_IMG_FIT (R84): A WORK figure breaks R60 -/
abbrev qsImgFit : Code := 0x010C
/-- QS_IMG_BUSY (R84): Another image command is under way -/
abbrev qsImgBusy : Code := 0x010D
/-- QS_IMG_NONE_STAGED (R84): No image is staged -/
abbrev qsImgNoneStaged : Code := 0x010E
/-- QS_IMG_MIXED (R84): Not allowed while the device runs mixed -/
abbrev qsImgMixed : Code := 0x010F
/-- QS_IMG_DEVICE_DIFFERS (R84): The staged device-level content differs from that in force -/
abbrev qsImgDeviceDiffers : Code := 0x0110
/-- QS_IMG_RESOURCE_HELD (R84): A resource of the section is held by another clearing or awaits scrub -/
abbrev qsImgResourceHeld : Code := 0x0111
/-- QS_IMG_PENDING (R84): COMMIT while a changed clearing has not been applied -/
abbrev qsImgPending : Code := 0x0112
/-- QS_IMG_FLASH (R84): No flash is present, or a flash write failed -/
abbrev qsImgFlash : Code := 0x0113
/-- QS_IMG_SETTINGS (R84): The persistent settings record is refused -/
abbrev qsImgSettings : Code := 0x0114
/-- QS_IMG_TUNE_RANGE (R84): A tunable value lies outside its image bounds -/
abbrev qsImgTuneRange : Code := 0x0115
/-- QS_IMG_NOT_TUNABLE (R84): The parameter is not tunable in this clearing -/
abbrev qsImgNotTunable : Code := 0x0116
/-- QS_IMG_HOST_READ (R84): The read of the source buffer failed on the host bus -/
abbrev qsImgHostRead : Code := 0x0117
/-- QS_IMG_NOT_RUNNING (R149): The command needs a running device; the first tick has not come -/
abbrev qsImgNotRunning : Code := 0x0118
/-- QS_CLR_ABSENT (R47): The named clearing is not defined by the image in force -/
abbrev qsClrAbsent : Code := 0x0180
/-- QS_CLR_BAD_STATE (R47): The command is not allowed in the clearing's present state -/
abbrev qsClrBadState : Code := 0x0181
/-- QS_DB_TAIL (R246): A doorbell word fails the check of R219 -/
abbrev qsDbTail : Code := 0x0201
/-- QS_Q_DISABLED (R246): The queue is Disabled, or its fetched envelope was returned by DISABLE -/
abbrev qsQDisabled : Code := 0x0202
/-- QS_Q_BAD_STATE (R246): The queue command is not allowed in the queue's state -/
abbrev qsQBadState : Code := 0x0203
/-- QS_Q_DEPTH (R246): A ring depth is zero, not a power of two, or out of range -/
abbrev qsQDepth : Code := 0x0204
/-- QS_Q_ADDR (R246): A ring base is misaligned, or it is a host address without a PASID -/
abbrev qsQAddr : Code := 0x0205
/-- QS_Q_RING_READ (R246): An envelope ring could not be read -/
abbrev qsQRingRead : Code := 0x0206
/-- QS_Q_CPL_WRITE (R246): A completion or accounting ring could not be written -/
abbrev qsQCplWrite : Code := 0x0207
/-- QS_ENV_OPCODE (R246): The opcode is illegal -/
abbrev qsEnvOpcode : Code := 0x0210
/-- QS_ENV_SEQUENCE (R246): Stream flags, classes or stream fields break R224 or R225 -/
abbrev qsEnvSequence : Code := 0x0211
/-- QS_ENV_BATCH (R246): The batch breaks R227 -/
abbrev qsEnvBatch : Code := 0x0212
/-- QS_ENV_CTX_DEAD (R246): The queue's context is Free or Draining -/
abbrev qsEnvCtxDead : Code := 0x0213
/-- QS_STM_TOO_BIG (R246): The batch can never fit the clearing's quotas or the completion ring -/
abbrev qsStmTooBig : Code := 0x0214
/-- QS_STM_BATCH_REFUSED (R246): Another envelope of the batch was refused -/
abbrev qsStmBatchRefused : Code := 0x0215
/-- QS_STM_DEADLINE (R246): The task's deadline fell before the envelope completed -/
abbrev qsStmDeadline : Code := 0x0216
/-- QS_STM_QUOTA_RANGE (R246): STM_QUOTA(n) written above plots_total × 256 -/
abbrev qsStmQuotaRange : Code := 0x0217
/-- QS_GPE_NO_TABLE (R279): The image in force declares no such table descriptor -/
abbrev qsGpeNoTable : Code := 0x0301
/-- QS_GPE_TABLE_INVALID (R279): The table descriptor is not valid -/
abbrev qsGpeTableInvalid : Code := 0x0302
/-- QS_GPE_OPERAND (R279): The gather operands combine in a way that R254, R255 or R259 does not allow -/
abbrev qsGpeOperand : Code := 0x0303
/-- QS_GPE_ADDR (R279): src or dst is misaligned, names another chip, or is a host address without a PASID -/
abbrev qsGpeAddr : Code := 0x0304
/-- QS_GPE_CORE_NOT_HELD (R279): No job of the envelope's context holds the destination core, or the job ended before the output was delivered -/
abbrev qsGpeCoreNotHeld : Code := 0x0305
/-- QS_GPE_DST_RANGE (R279): The output runs past the end of the core's input-buffer offsets -/
abbrev qsGpeDstRange : Code := 0x0306
/-- QS_GPE_BAG_SUM (R279): The bag lengths do not sum to indices -/
abbrev qsGpeBagSum : Code := 0x0307
/-- QS_GPE_INDEX_RANGE (R279): An index is negative or not below rows -/
abbrev qsGpeIndexRange : Code := 0x0308
/-- QS_GPE_SRC_POISONED (R279): The lookup block or a REDUCE part was read with uncorrectable ECC -/
abbrev qsGpeSrcPoisoned : Code := 0x0309
/-- QS_GPE_ENGINE_NONE (R279): The clearing has no gather-pool engine in service -/
abbrev qsGpeEngineNone : Code := 0x030A
/-- QS_GPE_DESC_SIZE (R279): A descriptor size field is zero, out of range or inconsistent -/
abbrev qsGpeDescSize : Code := 0x030B
/-- QS_GPE_DESC_ADDR (R279): A descriptor address is misaligned, misplaced, outside the table's plots or overlapping -/
abbrev qsGpeDescAddr : Code := 0x030C
/-- QS_GPE_DESC_BUSY (R279): The descriptor is valid or still in use by a running envelope -/
abbrev qsGpeDescBusy : Code := 0x030D
/-- QS_TBL_OPERAND (R312): A table envelope's operands are out of range, or a reserved operand is non-zero -/
abbrev qsTblOperand : Code := 0x0320
/-- QS_TBL_NOT_LIVE (R312): The table is not live -/
abbrev qsTblNotLive : Code := 0x0321
/-- QS_TBL_REFRESHING (R312): REFRESH_BEGIN while the table is already Refreshing -/
abbrev qsTblRefreshing : Code := 0x0322
/-- QS_TBL_NO_REFRESH (R312): REFRESH_ROWS or REFRESH_ABORT while the table is not Refreshing -/
abbrev qsTblNoRefresh : Code := 0x0323
/-- QS_TBL_CHUNK (R312): A REFRESH_ROWS range is not whole chunks, runs past rows, or names a chunk covered or being written -/
abbrev qsTblChunk : Code := 0x0324
/-- QS_TBL_REFRESH_INCOMPLETE (R312): PUBLISH of a refresh with a chunk not covered -/
abbrev qsTblRefreshIncomplete : Code := 0x0325
/-- QS_TBL_PUBLISH_MISSED (R312): The boundary of at_postmark passed before the PUBLISH was ready -/
abbrev qsTblPublishMissed : Code := 0x0326
/-- QS_TBL_PIN_EXPIRED (R312): The task's pin lies below the table's horizon -/
abbrev qsTblPinExpired : Code := 0x0327
/-- QS_TBL_BUSY (R312): INVALIDATE while a table envelope of the table is admitted -/
abbrev qsTblBusy : Code := 0x0328
/-- QS_SCH_OPERAND (R349): Job operands out of range, a reserved operand non-zero, or a load source overlapping the canopy -/
abbrev qsSchOperand : Code := 0x0401
/-- QS_SCH_MODEL_ABSENT (R349): The model is not Resident, or not in the canopy at all -/
abbrev qsSchModelAbsent : Code := 0x0402
/-- QS_SCH_MODEL_FORMAT (R349): The loaded image breaks the model, pass-table or pass-header layout -/
abbrev qsSchModelFormat : Code := 0x0403
/-- QS_SCH_MODEL_TOO_BIG (R349): The model does not fit the canopy region, or there is no region -/
abbrev qsSchModelTooBig : Code := 0x0404
/-- QS_SCH_MODEL_HELD (R349): MODEL_EVICT of a held model -/
abbrev qsSchModelHeld : Code := 0x0405
/-- QS_SCH_SRC_POISONED (R349): The load source was read with uncorrectable ECC -/
abbrev qsSchSrcPoisoned : Code := 0x0406
/-- QS_SCH_PASS_RANGE (R349): first + count exceeds pass_count -/
abbrev qsSchPassRange : Code := 0x0407
/-- QS_SCH_CORES (R349): The job needs more cores than its mask allows in service -/
abbrev qsSchCores : Code := 0x0408
/-- QS_SCH_NO_JOB (R349): JOB_WAIT with no JOB before it in its stream -/
abbrev qsSchNoJob : Code := 0x0409
/-- QS_SCH_PASS_FAULT (R349): A pass reported an array fault or ended unexpectedly -/
abbrev qsSchPassFault : Code := 0x040A
/-- QS_SCH_PASS_POISONED (R349): A pass reported a memory error -/
abbrev qsSchPassPoisoned : Code := 0x040B
/-- QS_SCH_PASS_TIMEOUT (R349): A pass passed the watchdog of SCH_PASSWD -/
abbrev qsSchPassTimeout : Code := 0x040C
/-- QS_SCH_CORE_LOST (R349): A core of the started job was fenced as failed -/
abbrev qsSchCoreLost : Code := 0x040D
/-- QS_SCH_CANOPY_BUSY (R349): SCH_WCANOPY written while models are Loading or Resident -/
abbrev qsSchCanopyBusy : Code := 0x040E
/-- QS_SCH_CANOPY_RANGE (R349): The canopy region lies outside the clearing's own plots -/
abbrev qsSchCanopyRange : Code := 0x040F
/-- QS_SCH_ACCT_RANGE (R349): The accounting ring or its head pointer is out of range -/
abbrev qsSchAcctRange : Code := 0x0410
/-- QS_CTX_NONE_FREE (R47): No Free context remains in the clearing's range -/
abbrev qsCtxNoneFree : Code := 0x0480
/-- QS_CTX_BUSY (R47): The context is in use, not idle, or Draining -/
abbrev qsCtxBusy : Code := 0x0481
/-- QS_CTX_NOT_LIVE (R47): The context is Free -/
abbrev qsCtxNotLive : Code := 0x0482
/-- QS_CTX_TEARDOWN_OFF (R47): Context-only teardown is not enabled for the clearing -/
abbrev qsCtxTeardownOff : Code := 0x0483
/-- QS_CLASS_DISABLED (R213): The task's postage class is not enabled in the clearing's class mask in force -/
abbrev qsClassDisabled : Code := 0x0490
/-- QS_XLT_ADDR_FORM (R383): A reserved address bit is set, the form is not allowed for the request, or both sides of a transfer are host memory -/
abbrev qsXltAddrForm : Code := 0x0501
/-- QS_XLT_NO_PASID (R383): A host address from a context without a PASID -/
abbrev qsXltNoPasid : Code := 0x0502
/-- QS_XLT_PAGE_REFUSED (R383): The host answered Invalid Request, or the page faulted again after Success -/
abbrev qsXltPageRefused : Code := 0x0503
/-- QS_XLT_PRI_STOPPED (R383): Page requests of the function are disabled or stopped -/
abbrev qsXltPriStopped : Code := 0x0504
/-- QS_XLT_PAGE_TIMEOUT (R383): No PRG Response within XLT_PRITO -/
abbrev qsXltPageTimeout : Code := 0x0505
/-- QS_XLT_ATS_FAILED (R383): A Translation Completion failed -/
abbrev qsXltAtsFailed : Code := 0x0506
/-- QS_XLT_HOST_ERROR (R383): A host data read failed with Unsupported Request or Completer Abort -/
abbrev qsXltHostError : Code := 0x0507
/-- QS_XLT_GATE_REFUSED (R383): The memory gate refused a request of the envelope -/
abbrev qsXltGateRefused : Code := 0x0508
/-- QS_XLT_REMOTE_REFUSED (R383): The target chip refused a remote request -/
abbrev qsXltRemoteRefused : Code := 0x0509
/-- QS_XLT_TILE_TOO_BIG (R383): A COPY_2D tile touches more than 512 pages on one side -/
abbrev qsXltTileTooBig : Code := 0x050A
/-- QS_XLT_OVERLAP (R383): Local source and destination extents overlap -/
abbrev qsXltOverlap : Code := 0x050B
/-- QS_XLT_PEER_RANGE (R383): A binding's plots are empty or outside the local clearing -/
abbrev qsXltPeerRange : Code := 0x050C
/-- QS_XLT_PEER_DUP (R383): Another binding already admits that remote context -/
abbrev qsXltPeerDup : Code := 0x050D
/-- QS_XLT_KEEP_LIMIT (R383): KEEP passed the sticky-entry limit -/
abbrev qsXltKeepLimit : Code := 0x050E
/-- QS_XLT_SRC_POISONED (R383): A host or remote source arrived poisoned -/
abbrev qsXltSrcPoisoned : Code := 0x050F
/-- QS_XLT_OPERAND (R383): Transfer operands are out of range or reserved operands are non-zero -/
abbrev qsXltOperand : Code := 0x0510
/-- QS_XLT_WRITE_FAILED (R383): A write of the envelope was answered as failed by memory, under R534 -/
abbrev qsXltWriteFailed : Code := 0x0511
/-- QS_PASID_IN_USE (R47): The PASID is already bound in this clearing, or in another clearing served through the physical function -/
abbrev qsPasidInUse : Code := 0x0580
/-- QS_KEY_TAG (R421): The slot's integrity tag fails, or the slot is unusable -/
abbrev qsKeyTag : Code := 0x0601
/-- QS_KEY_ATTR (R421): Illegal attributes, or a use that the attributes forbid -/
abbrev qsKeyAttr : Code := 0x0602
/-- QS_KEY_EMPTY (R421): The slot is empty -/
abbrev qsKeyEmpty : Code := 0x0603
/-- QS_KEY_GEN (R421): gen_expect differs from the current generation -/
abbrev qsKeyGen : Code := 0x0604
/-- QS_KEY_ROTATE_BUSY (R421): The slot's old generation is still held -/
abbrev qsKeyRotateBusy : Code := 0x0605
/-- QS_KEY_CHUNK_AUTH (R421): A chunk's GCM tag does not verify -/
abbrev qsKeyChunkAuth : Code := 0x0606
/-- QS_KEY_CHUNK_FORMAT (R421): A chunk header is malformed or out of sequence -/
abbrev qsKeyChunkFormat : Code := 0x0607
/-- QS_KEY_SRC_POISONED (R421): A local chunk record was read with uncorrectable ECC -/
abbrev qsKeySrcPoisoned : Code := 0x0608
/-- QS_KEY_OPERAND (R421): UNSEAL or exchange operands out of range, or reserved operands non-zero -/
abbrev qsKeyOperand : Code := 0x0609
/-- QS_KEY_LC (R421): Not allowed in this life-cycle state, or an illegal transition -/
abbrev qsKeyLc : Code := 0x060A
/-- QS_KEY_ROOT_ABSENT (R421): The device runs without a device root -/
abbrev qsKeyRootAbsent : Code := 0x060B
/-- QS_KEY_CLEARINGS_OPEN (R421): A clearing is not Closed or Absent -/
abbrev qsKeyClearingsOpen : Code := 0x060C
/-- QS_KEY_AUTH (R421): A Lievexel authorisation is invalid for a transition -/
abbrev qsKeyAuth : Code := 0x060D
/-- QS_KEY_LOCKED (R421): Unlock attempts are locked out until por_n -/
abbrev qsKeyLocked : Code := 0x060E
/-- QS_KEY_DEBUG_AUTH (R421): An unlock authorisation or passphrase failed -/
abbrev qsKeyDebugAuth : Code := 0x060F
/-- QS_KEY_XBUSY (R421): An exchange or key command is under way -/
abbrev qsKeyXbusy : Code := 0x0610
/-- QS_KEY_ROT_TIMEOUT (R421): The RoT did not reply within 100 ms -/
abbrev qsKeyRotTimeout : Code := 0x0611
/-- QS_KEY_ROT_REFUSED (R421): The RoT refused the unwrap or the transition -/
abbrev qsKeyRotRefused : Code := 0x0612
/-- QS_KEY_UNSOLICITED (R421): A rot_k release with no matching UNWRAP -/
abbrev qsKeyUnsolicited : Code := 0x0613
/-- QS_MBX_NOT_LOCKER (R443): The writer does not hold the mailbox lock, or the lock is free -/
abbrev qsMbxNotLocker : Code := 0x0701
/-- QS_MBX_FULL (R443): A message is posted and not taken, or one is already taken -/
abbrev qsMbxFull : Code := 0x0702
/-- QS_MBX_NOT_RECEIVER (R443): TAKE or ACK from a requester that is not the receiver -/
abbrev qsMbxNotReceiver : Code := 0x0703
/-- QS_MBX_NO_MESSAGE (R443): No message of the kind named is present -/
abbrev qsMbxNoMessage : Code := 0x0704
/-- QS_MBX_RECV_HELD (R443): Another requester is registered as receiver -/
abbrev qsMbxRecvHeld : Code := 0x0705
/-- QS_MBX_WAKE_DOMAIN (R443): The wake domain is not one the receiver may wake -/
abbrev qsMbxWakeDomain : Code := 0x0706
/-- QS_MBX_RECEIVER_GONE (R443): Written as the return code when the receiver's registration was removed -/
abbrev qsMbxReceiverGone : Code := 0x0707
/-- QS_PWR_DOMAIN_FIXED (R443): The domain's state is not under software command, or not that state -/
abbrev qsPwrDomainFixed : Code := 0x0710
/-- QS_PWR_FAULT (R443): The domain has faulted and its PWR_FAULT bit is set -/
abbrev qsPwrFault : Code := 0x0711
/-- QS_ERR_FENCED (R487): A clearing fence began -/
abbrev qsErrFenced : Code := 0x0801
/-- QS_ERR_CTX_TORN (R487): The envelope's context was torn down -/
abbrev qsErrCtxTorn : Code := 0x0802
/-- QS_ERR_ABORTED (R487): The task was ended by an abort of its group -/
abbrev qsErrAborted : Code := 0x0803
/-- QS_ERR_ENGINE_FAULT (R487): The envelope's engine reported an internal fault -/
abbrev qsErrEngineFault : Code := 0x0804
/-- QS_ERR_ENGINE_FAILED (R487): An engine was fenced as failed; it also ends an envelope in progress on that engine, under R268 -/
abbrev qsErrEngineFailed : Code := 0x0805
/-- QS_ERR_CORE_FAILED (R487): A core was fenced as failed -/
abbrev qsErrCoreFailed : Code := 0x0806
/-- QS_ERR_RESET_HANG (R487): A unit did not acknowledge its reset within two ticks -/
abbrev qsErrResetHang : Code := 0x0807
/-- QS_ERR_RESET_SLOW (R487): A clearing was not Closed 100 ms after its Function Level Reset -/
abbrev qsErrResetSlow : Code := 0x0808
/-- QS_ERR_RESET_DONE (R487): A clearing reached Closed from Resetting -/
abbrev qsErrResetDone : Code := 0x0809
/-- QS_ERR_FENCE_TIMEOUT (R487): A fence stopped waiting for host or fabric answers -/
abbrev qsErrFenceTimeout : Code := 0x080A
/-- QS_ERR_HALTED (R487): The device halted or has a device fault; OPEN refused -/
abbrev qsErrHalted : Code := 0x080B
/-- QS_ERR_LATE_TICK (R487): A tick was late -/
abbrev qsErrLateTick : Code := 0x080C
/-- QS_ERR_MEM_LATENCY (R487): A memory response came at a wrong latency or not at all -/
abbrev qsErrMemLatency : Code := 0x080D
/-- QS_ERR_MEM_UNCORRECTABLE (R487): A response carried uncorrectable ECC -/
abbrev qsErrMemUncorrectable : Code := 0x080E
/-- QS_ERR_MEM_CORRECTED (R487): Corrected ECC reached its threshold -/
abbrev qsErrMemCorrected : Code := 0x080F
/-- QS_ERR_PCH_REMAP (R487): Remapping began or ended -/
abbrev qsErrPchRemap : Code := 0x0810
/-- QS_ERR_PCH_UNREACHABLE (R487): A pseudo-channel became unreachable -/
abbrev qsErrPchUnreachable : Code := 0x0811
/-- QS_ERR_COMMONS_POISON (R487): A commons row was poisoned -/
abbrev qsErrCommonsPoison : Code := 0x0812
/-- QS_ERR_POWER_FAULT (R487): A power domain faulted -/
abbrev qsErrPowerFault : Code := 0x0813
/-- QS_ERR_SPARE_MAP (R487): A core's spare-row map changed -/
abbrev qsErrSpareMap : Code := 0x0814
/-- QS_ERR_CORE_REPORT (R487): A core reported an error -/
abbrev qsErrCoreReport : Code := 0x0815
/-- QS_ERR_OVERRUN (R487): A Fixed pass or pass count exceeded its bound -/
abbrev qsErrOverrun : Code := 0x0816
/-- QS_ERR_FW_FAULT (R487): A control core took an exception -/
abbrev qsErrFwFault : Code := 0x0817
/-- QS_ERR_ROT_EVENT (R487): A Juvel RoT event -/
abbrev qsErrRotEvent : Code := 0x0818
/-- QS_ERR_STARTUP (R487): A start-up event held under R139 -/
abbrev qsErrStartup : Code := 0x0819
/-- QS_ERR_DUMP (R487): A crash dump was written -/
abbrev qsErrDump : Code := 0x081A
/-- QS_ERR_DUMP_HELD (R487): A dump is valid or busy -/
abbrev qsErrDumpHeld : Code := 0x081B
/-- QS_ERR_DUMP_NONE (R487): No dump is valid -/
abbrev qsErrDumpNone : Code := 0x081C
/-- QS_ERR_RING_RANGE (R487): A ring head moved back or past tail -/
abbrev qsErrRingRange : Code := 0x081D
/-- QS_ERR_NO_GROUP (R487): The clearing has no abort group -/
abbrev qsErrNoGroup : Code := 0x081E
/-- QS_ERR_UNIT_FAILED (R487): The unit is already fenced as failed -/
abbrev qsErrUnitFailed : Code := 0x081F
/-- QS_DET_VARIANT_REFUSED (R524): An envelope has V = 1 and the clearing refuses variant operations -/
abbrev qsDetVariantRefused : Code := 0x0901
/-- QS_DET_LS_MISMATCH (R524): Lock-step digests differ -/
abbrev qsDetLsMismatch : Code := 0x0902
/-- QS_DET_LS_MISSING (R524): A lock-step digest did not arrive in time or could not be compared -/
abbrev qsDetLsMissing : Code := 0x0903
/-- QS_DET_LS_CONFIG (R524): Lock-step is not enabled, or the partner names this chip -/
abbrev qsDetLsConfig : Code := 0x0904
/-- QS_DET_LS_STATE (R524): The lock-step command is not allowed in its state -/
abbrev qsDetLsState : Code := 0x0905
/-- QS_TRL_NO_LINK (R524): The chip is solitary or its link is down -/
abbrev qsTrlNoLink : Code := 0x0906
/-- QS_TRL_LANE_FAULT (R524): A Trail lane was retired -/
abbrev qsTrlLaneFault : Code := 0x0910
/-- QS_TRL_LINK_DOWN (R524): No lane works in one direction -/
abbrev qsTrlLinkDown : Code := 0x0911
/-- QS_TRL_PEER_LOST (R524): A peer has not been heard for 4 heartbeat intervals -/
abbrev qsTrlPeerLost : Code := 0x0912
/-- QS_TRL_DUP_CHIP (R524): Another chip uses this chip_number -/
abbrev qsTrlDupChip : Code := 0x0913
/-- QS_TRL_DRIFT (R524): A peer's tick boundary differs by more than 100 ns -/
abbrev qsTrlDrift : Code := 0x0914
/-- QS_TRL_TICK_DIFFERS (R524): A peer uses another tick length -/
abbrev qsTrlTickDiffers : Code := 0x0915
/-- QS_TRL_LAUNCHED (R524): The chip launched or joined a domain -/
abbrev qsTrlLaunched : Code := 0x0916
/-- QS_TRL_BAR_LATE (R524): A barrier released late -/
abbrev qsTrlBarLate : Code := 0x0917
/-- QS_TRL_BAR_CFG (R524): The clearing has no valid barrier group -/
abbrev qsTrlBarCfg : Code := 0x0918
/-- QS_TRL_BAR_BUSY (R524): The clearing's barrier is waiting -/
abbrev qsTrlBarBusy : Code := 0x0919
/-- QS_TRL_BUSY (R524): The link is training -/
abbrev qsTrlBusy : Code := 0x091A
/-- QS_TRL_ABORT_UNSENT (R524): An abort could not be sent -/
abbrev qsTrlAbortUnsent : Code := 0x091B
/-- QS_TRL_NOT_WAITING (R524): TRL_CMD SOLO outside phase 7 of the start-up -/
abbrev qsTrlNotWaiting : Code := 0x091C
/-- QS_CAL_MG_BUSY (R188): A margining request of the same stack is outstanding -/
abbrev qsCalMgBusy : Code := 0x0980
/-- QS_CAL_PCH_FAILED (R188): The pseudo-channel is remapped, or became remapped while its margining was outstanding -/
abbrev qsCalPchFailed : Code := 0x0981
/-- QS_CAL_STILL_FAILED (R188): RESTORE found mc_pch_fail still at 1 at the boundary -/
abbrev qsCalStillFailed : Code := 0x0982
/-- QS_CAL_GUEST_UNAVAILABLE (R188): REMAP of a remapped or unreachable pseudo-channel, or to a guest that is remapped, unreachable or already hosting -/
abbrev qsCalGuestUnavailable : Code := 0x0983
/-- QS_CAL_NOT_REMAPPED (R188): RESTORE of a pseudo-channel that is not remapped, an unreachable one included -/
abbrev qsCalNotRemapped : Code := 0x0984
/-- QS_CAL_BUSY (R188): An earlier CAL_GUEST_CMD is still pending -/
abbrev qsCalBusy : Code := 0x0985

end Sys2Proof
end

