-- ==== Sys2Proof/Config.lean ====
section
/-! DEFINITION. What an implementation fixes, and what the spec names but does not compute: the block
revision, the ROM contents, and the published standards (SHA-384, HMAC, HKDF, ECDSA P-384, AES-256-GCM)
that the spec cites by name. Each is an OPAQUE constant: no proof can see its value. -/

namespace Sys2Proof.Config

/-- SHA-384 (R51, R385, R388): the standard is cited by name; uninterpreted here (log entry 3). -/
opaque sha384 : List Byte → BitVec 384

/-- HMAC-SHA-384 of a key and a message (R78, R391, R415); uninterpreted (log entry 3). -/
opaque hmac384 : List Byte → List Byte → BitVec 384

/-- HKDF-Extract with SHA-384 of a salt and keying material (R385, R387); uninterpreted (log entry 3). -/
opaque hkdfExtract : List Byte → List Byte → BitVec 384

/-- HKDF-Expand with SHA-384 of a key, an info string and a length in bytes (R385, R387);
uninterpreted (log entry 3). -/
opaque hkdfExpand : List Byte → List Byte → Nat → List Byte

/-- ECDSA P-384 verification of (X, Y, digest, r, s), each as the 48 stored bytes (R51, R414);
uninterpreted (log entry 3). -/
opaque ecdsaVerify : List Byte → List Byte → BitVec 384 → List Byte → List Byte → Bool

/-- The ECDSA P-384 public key X then Y, 96 bytes big-endian, of a private key (R388); uninterpreted
(log entry 3). -/
opaque ecdsaPublic : List Byte → List Byte

/-- An ECDSA P-384 signature r then s, each 48 bytes least significant byte first, of a digest under a
private key; the natural number is the issue's own count, for the signer's nonce is drawn afresh
(R37); uninterpreted, so the signature's value is a free value (log entry 4). -/
opaque ecdsaSign : List Byte → BitVec 384 → Nat → List Byte

/-- AES-256-GCM decryption of (key, iv, additional data, ciphertext, tag): the plaintext, or none
where the tag does not verify (R396, R398); uninterpreted (log entry 3). -/
opaque gcmOpen : List Byte → List Byte → List Byte → List Byte → List Byte → Option (List Byte)

/-- The signer digest of Lievexel's image key, held in ROM (R63); its value is not in the spec. -/
opaque romSignerDigest : BitVec 384

/-- The digest of Lievexel's authorisation key, held in ROM (R414); its value is not in the spec. -/
opaque romAuthDigest : BitVec 384

/-- SHA-384 of the ROM firmware (R405, measurement 1); its value is not in the spec. -/
opaque romFirmwareDigest : BitVec 384

/-- Revision of this block (R83: IMG_REV.block_rev resets to 1). -/
def blockRev : Nat := 1

/-- What the debug module of the control cores answers to a DMI access (R412): the standard is cited by name,
and the answer is a free value of the access's number (log entry 14). -/
opaque dmiAnswer : Nat → BitVec 41

/-- The cause in the header of a dump that ERR_CMD DUMP takes: R480 names the QS_ code of the trigger, and a command has
none; a free value (log entry 15). -/
opaque commandedDumpCause : BitVec 16

/-- Offset of the 64 KiB key region in the 1 MiB of control-core SRAM (R480): the spec names the region and not its place
(log entry 135). -/
opaque sramKeyBase : Nat

/-- Byte `o` of a granule that no response brought, of a READ that an unreachable pseudo-channel answers (R176) or whose
response is missing (R458), by the entry number of the READ; a free value (log entry 16). -/
opaque poisonByte (entry o : Nat) : Byte

/-- jtag_mfr, tied off by the integrator (R115); its value is the integrator's. -/
opaque jtagMfr : BitVec 11

/-- The dst field of a LINK_STATE frame, which goes to the link alone: R507 gives no value for it (log entry 152). -/
opaque linkStateDst : BitVec 16

/-- The physical-function vector of the clearing-event interrupt: R43 names the interrupt and gives no
vector; a free value (log entry 5). -/
opaque clearingEventVector : Nat

end Sys2Proof.Config
end

