-- ==== Sys2Proof/Machine/ImageParts.lean ====
section
/-! DEFINITION. The clearing image as data: what its sections say once they are read (R48 to R59). -/

namespace Sys2Proof.Machine

/-- An entry of the TABLES section (R55). -/
structure TableDecl where
  desc : Nat
  /-- The owning clearing, or none for a commons (0xFF). -/
  owner : Option Nat
  /-- The one clearing that may write it, or none: privileged software alone (0xFF). -/
  writer : Option Nat
  /-- Row format 0 to 6 (R55). -/
  format : Nat
  live : Bool
  /-- Exponent of the lowest bit of the accumulator window, −320 to 32. -/
  floor : Int
  deriving DecidableEq, Repr, Inhabited

/-- A WORK section (R59). -/
structure WorkCfg where
  slotsPeak : Nat
  coreCclkPeak : Nat
  engineCclkPeak : Nat
  passesPeak : Nat
  deriving DecidableEq, Repr, Inhabited

/-- A bounded tunable value: its initial value, least and greatest (R57). -/
structure Tunable where
  initial : Nat
  least : Nat
  most : Nat
  deriving DecidableEq, Repr, Inhabited

/-- A CLEARING section (R57) with what counts as part of it (R70): its WORK section and its tables. -/
structure ClearingCfg where
  number : Nat
  fixed : Bool
  ctxTeardown : Bool
  refuseVariant : Bool
  phases : Nat
  pairs : BitVec 64
  engines : BitVec 64
  dbBase : Nat
  dbCount : Nat
  ctxBase : Nat
  ctxCount : Nat
  keyBase : Nat
  keyCount : Nat
  streamQuota : Nat
  canopyModels : Nat
  tunable : BitVec 8
  classMask : BitVec 8
  classMaskMax : BitVec 8
  /-- Thresholds of urgency levels 1, 2 and 3. -/
  urgency : List Nat
  weightMin : Nat
  weightMax : Nat
  /-- Latency targets of classes 0 to 7, in µs. -/
  latency : List Tunable
  /-- Budgets of classes 0 to 7. -/
  budget : List Tunable
  /-- (first plot, plot count). -/
  plots : List (Nat × Nat)
  work : Option WorkCfg
  tables : List TableDecl
  /-- The bytes of the CLEARING section, compared under R70. -/
  bytes : List Byte
  /-- The bytes of the WORK section, compared under R70. -/
  workBytes : List Byte
  deriving DecidableEq, Repr, Inhabited

/-- A validated image. -/
structure Image where
  /-- SHA-384 of the signed bytes (R51). -/
  digest : BitVec 384
  svn : Nat
  tickUs : Nat
  cclkMin : Nat
  /-- Channel number of each pseudo-channel's guest, 1,280 of them (R52). -/
  guest : List Nat
  /-- The phase map: 1,024 owners, encoded as R53 states. -/
  map : List Nat
  /-- commons_ranges and commons_plot, as stored (R68). -/
  commonsField : List Byte
  /-- The valid commons plot ranges (first, count). -/
  commonsPlots : List (Nat × Nat)
  commons : List TableDecl
  /-- Ascending clearing number. -/
  clearings : List ClearingCfg
  /-- The image itself, which FLASH writes (R74). -/
  bytes : List Byte
  deriving DecidableEq, Repr, Inhabited

/-- Why an image was refused: the code of R62 and the place of R64. -/
structure ImageFault where
  code : Code
  sect : Nat
  offset : Nat
  deriving DecidableEq, Repr

/-- A persistent settings record (R78). -/
structure Settings where
  sequence : Nat
  minSvn : Nat
  chip : Nat
  /-- Trusted signer digests, 48 stored bytes each. -/
  signers : List (List Byte)
  deriving DecidableEq, Repr, Inhabited

end Sys2Proof.Machine
end

