-- ==== Sys2Proof/Machine/ImageCheck.lean ====
section
/-! DEFINITION. Reading and validating a clearing image: the twelve steps of R62, the place of the
first failing field (R64), the slots a phase map guarantees (R160) and the settings record (R78, R79). -/

namespace Sys2Proof.Machine

/-- Phases in a tick of `us` µs (R152). -/
def phasesOfTick (us : Nat) : Nat := us * 3125 / 32

/-- Owner code of the Elastic pool in a phase map (R53). -/
def elasticOwner : Nat := 0x40

/-- Owner code of refresh and maintenance (R53). -/
def maintOwner : Nat := 0x41

/-- Entry of the map that pseudo-channel `p` uses in phase `j` (R156). -/
def mapEntry (j p : Nat) : Nat := (j + 16 * (p % 64)) % 1024

/-- Owner of phase `j` on pseudo-channel `p` (R156). -/
def mapOwner (map : List Nat) (j p : Nat) : Nat := map.getD (mapEntry j p) elasticOwner

/-- Entries of the map that name owner `n`. -/
def mapCount (map : List Nat) (n : Nat) : Nat := (map.filter (· == n)).length

/-- Slots that owner `n` has on pseudo-channel `p` in a tick of `ph` phases (R160). -/
def ownSlots (map : List Nat) (ph n p : Nat) : Nat :=
  ph / 1024 * mapCount map n +
    ((List.range (ph % 1024)).filter fun j => mapOwner map j p == n).length

/-- Least of a list; zero for an empty one. -/
def leastOf : List Nat → Nat
  | [] => 0
  | a :: r => r.foldl min a

/-- The guaranteed slot count of R60 and R160: the least over the 64 channels. -/
def guaranteedSlots (map : List Nat) (ph n : Nat) : Nat :=
  leastOf ((List.range 64).map (ownSlots map ph n))

/-- An entry of the section table (R49). -/
structure SectionEntry where
  index : Nat
  type : Nat
  number : Nat
  offset : Nat
  length : Nat
  deriving DecidableEq, Repr

/-- The section table's entries (R49). -/
def sectionTable (bs : List Byte) : List SectionEntry :=
  (List.range (leAt bs 0x00A 2)).map fun i =>
    let e := 0x80 + 16 * i
    ⟨i, leAt bs e 1, leAt bs (e + 1) 1, leAt bs (e + 4) 4, leAt bs (e + 8) 4⟩

/-- The length that R50 requires of a section. -/
def sectionLength (bs : List Byte) (e : SectionEntry) : Nat :=
  match e.type with
  | 0x01 => 0x540
  | 0x02 => 0x400
  | 0x03 => 0x90 + 16 * leAt bs e.offset 4
  | 0x04 => (0x100 + 8 * leAt bs (e.offset + 6) 2 + 15) / 16 * 16
  | _ => 0x40

/-- Step 7 of R62 at one entry: its type, index, place in the order, offset and length. `prev` is the
entry before it, `next` the offset where the section must begin. -/
def sectionEntryChecks (bs : List Byte) (limit : Nat) (prev : Option SectionEntry) (start : Nat)
    (e : SectionEntry) : List (Bool × Nat) :=
  let o := 0x80 + 16 * e.index
  let rising := match prev with
    | none => true
    | some p => p.type < e.type || (p.type == e.type && e.type ≥ 4)
  let later := match prev with
    | none => true
    | some p => p.type < e.type || p.number < e.number
  [(1 ≤ e.type && e.type ≤ 5 && rising, o),
   ((if e.type ≤ 3 then e.number == 0 else e.number < 64) && later, o + 1),
   (e.offset == start, o + 4),
   (e.offset + e.length ≤ limit && e.length == sectionLength bs e, o + 8)]

/-- Step 7 of R62 over the table, from the entry `prev` on: the offset of the first bad field. Where the last section
does not end where the trailer begins, section_count is named (log entry 136). -/
def sectionTableFault (bs : List Byte) (limit : Nat) :
    Option SectionEntry → Nat → List SectionEntry → Option Nat
  | _, start, [] => if start == limit then none else some 0x00A
  | prev, start, e :: r =>
    match firstBad (sectionEntryChecks bs limit prev start e) with
    | some o => some o
    | none => sectionTableFault bs limit (some e) (start + e.length) r

/-- Step 7 of R62: the whole section table. The counts of R50 that no one entry breaks are placed at
section_count (log entry 12). -/
def step7 (bs : List Byte) : Option Nat :=
  let n := leAt bs 0x00A 2
  let es := sectionTable bs
  let types := es.map (·.type)
  let fixed := (es.filter fun e => e.type == 4 && leAt bs (e.offset + 1) 1 == 0).map (·.number)
  let works := (es.filter (·.type == 5)).map (·.number)
  if n < 3 || n > 131 then some 0x00A
  else match sectionTableFault bs (leAt bs 0x00C 4 - 192) none (0x80 + 16 * n) es with
    | some o => some o
    | none =>
      if [1, 2, 3].any (fun t => types.count t != 1) then some 0x00A
      else match es.find? (fun e => e.type == 5 && !fixed.contains e.number) with
        | some e => some (0x80 + 16 * e.index)
        | none => if fixed.all works.contains then none else some 0x00A

/-- Ordered, in-range, non-overlapping plot ranges (R57): each check with its offset. -/
def plotRangeChecks (sec o : Nat) : Nat → List (Nat × Nat) → List (Bool × Nat × Nat)
  | _, [] => []
  | low, (f, c) :: r =>
    (f ≥ 8 && f + c ≤ 6400 && f ≥ low, sec, o) :: plotRangeChecks sec (o + 8) (f + c) r

/-- The plot ranges stored at `o` (R55, R57). -/
def readRanges (bs : List Byte) (o n : Nat) : List (Nat × Nat) :=
  (List.range n).map fun i => (leAt bs (o + 8 * i) 2, leAt bs (o + 8 * i + 2) 2)

/-- The reserved halves of `n` stored plot ranges. -/
def rangeReserved (bs : List Byte) (sec base o n : Nat) : List (Bool × Nat × Nat) :=
  (List.range n).map fun i => (zeroAt bs (base + o + 8 * i + 4) 4, sec, base + o + 8 * i + 4)

/-- The checks of the ranges and of their reserved halves, range by range: the first that fails is the first offending
field (R64). -/
def eachRange : List (Bool × Nat × Nat) → List (Bool × Nat × Nat) → List (Bool × Nat × Nat)
  | [], h => h
  | c, [] => c
  | x :: c, y :: h => x :: y :: eachRange c h

/-- Step 8 at the DEVICE section (R52). -/
def deviceChecks (bs : List Byte) (e : SectionEntry) : List (Bool × Nat × Nat) :=
  let o := e.offset
  let t := leAt bs o 2
  let m := leAt bs (o + 2) 2
  [(50 ≤ t && t ≤ 1000 && t % 10 == 0, e.index, o),
   (1600 ≤ m && m ≤ 2200, e.index, o + 2), (zeroAt bs (o + 4) 60, e.index, o + 4)] ++
  (List.range 1280).map fun p =>
    (byteAt bs (o + 0x40 + p) < 64 && byteAt bs (o + 0x40 + p) != p % 64, e.index, o + 0x40 + p)

/-- Step 8 at the CALENDAR section (R53). -/
def calendarChecks (bs : List Byte) (e : SectionEntry) : List (Bool × Nat × Nat) :=
  (List.range 1024).map fun i => (byteAt bs (e.offset + i) ≤ 0x41, e.index, e.offset + i)

/-- The clearings that the section table defines. -/
def definedBy (es : List SectionEntry) : List Nat := (es.filter (·.type == 4)).map (·.number)

/-- Step 8 at one table entry (R55). `prev` is the descriptor before it. -/
def tableEntryChecks (bs : List Byte) (defined : List Nat) (sec o : Nat) (prev : Option Nat) :
    List (Bool × Nat × Nat) :=
  let owner := byteAt bs (o + 2)
  let writer := byteAt bs (o + 3)
  let floor := signedOf 16 (leAt bs (o + 6) 2)
  [((match prev with | none => true | some d => d < leAt bs o 2), sec, o),
   (owner == 0xFF || defined.contains owner, sec, o + 2),
   ((if owner == 0xFF then writer < 64 || writer == 0xFF else writer == owner), sec, o + 3),
   (byteAt bs (o + 4) ≤ 6, sec, o + 4), (byteAt bs (o + 5) ≤ 1, sec, o + 5),
   (-320 ≤ floor && floor ≤ 32, sec, o + 6), (zeroAt bs (o + 8) 8, sec, o + 8)]

/-- Step 8 at the TABLES section (R55, and the 256 commons of R26). -/
def tablesChecks (bs : List Byte) (es : List SectionEntry) (e : SectionEntry) :
    List (Bool × Nat × Nat) :=
  let o := e.offset
  let n := leAt bs o 4
  let ranges := leAt bs (o + 4) 2
  let at' := fun i => o + 0x90 + 16 * i
  let commons := (List.range n).filter fun i => byteAt bs (at' i + 2) == 0xFF
  [(decide (n ≤ 65536), e.index, o),
   (ranges ≤ 16 && (ranges ≥ 1 || commons.isEmpty), e.index, o + 4),
   (zeroAt bs (o + 6) 10, e.index, o + 6)] ++
  eachRange ((readRanges bs (o + 0x10) (min ranges 16)).zipIdx.map fun ri =>
    (ri.1.1 ≥ 8 && ri.1.1 + ri.1.2 ≤ 6400, e.index, o + 0x10 + 8 * ri.2)) (rangeReserved bs e.index o 0x10 16) ++
  ((List.range n).flatMap fun i => tableEntryChecks bs (definedBy es) e.index (at' i)
    (if i == 0 then none else some (leAt bs (at' (i - 1)) 2))) ++
  (match commons[256]? with | none => [] | some i => [(false, e.index, at' i + 2)])

/-- A stored tunable of three `n`-byte numbers (R57). -/
def readTunable (bs : List Byte) (o n : Nat) : Tunable :=
  ⟨leAt bs o n, leAt bs (o + n) n, leAt bs (o + 2 * n) n⟩

/-- The checks of R57 and R58 on a tunable parameter at offset `o`, its fields `w` bytes wide: each with the field that it
names, the range of each field before what joins them. -/
def tunableChecks (t : Tunable) (idx o w top : Nat) (free : Bool) : List (Bool × Nat × Nat) :=
  [(1 ≤ t.initial && t.initial ≤ top, idx, o), (1 ≤ t.least && t.least ≤ top, idx, o + w),
   (1 ≤ t.most && t.most ≤ top, idx, o + 2 * w), (t.least ≤ t.initial && t.initial ≤ t.most, idx, o),
   (free || (t.least == t.initial && t.initial == t.most), idx, o)]

/-- Step 8 at a CLEARING section (R57, R58). The zeros of step 9 pass here. -/
def clearingChecks (bs : List Byte) (e : SectionEntry) : List (Bool × Nat × Nat) :=
  let o := e.offset
  let b := fun k => byteAt bs (o + k)
  let h := fun k => leAt bs (o + k) 2
  let tun := BitVec.ofNat 8 (b 0x30)
  let mask := BitVec.ofNat 8 (b 0x31)
  let maskMax := BitVec.ofNat 8 (b 0x33)
  let n := h 6
  [(b 0 == e.number, e.index, o), (b 1 ≤ 1, e.index, o + 1), (h 2 ≤ 3, e.index, o + 2),
   ((if b 1 == 0 then h 4 ≤ 896 else h 4 == 0), e.index, o + 4),
   (n ≤ 256, e.index, o + 6),
   (h 0x18 + h 0x1A ≤ 2048, e.index, o + 0x18), (h 0x1C + h 0x1E ≤ 4096, e.index, o + 0x1C),
   (h 0x20 + h 0x22 ≤ 1024, e.index, o + 0x20), (h 0x24 ≤ 32768, e.index, o + 0x24),
   (h 0x26 ≤ 256, e.index, o + 0x26), (zeroAt bs (o + 0x28) 8, e.index, o + 0x28),
   (tun.toNat < 32, e.index, o + 0x30), (mask != 0, e.index, o + 0x31),
   (b 0x32 == 0, e.index, o + 0x32),
   (mask &&& maskMax == mask && (tun.getLsbD 2 || mask == maskMax), e.index, o + 0x33),
   (1 ≤ b 0x34 && b 0x34 < b 0x35 && b 0x35 < b 0x36, e.index, o + 0x34),
   (b 0x37 == 0, e.index, o + 0x37),
   (1 ≤ h 0x38 && h 0x38 ≤ h 0x3A && (tun.getLsbD 4 || h 0x38 == h 0x3A), e.index, o + 0x38),
   (zeroAt bs (o + 0x3C) 4, e.index, o + 0x3C)] ++
  ((List.range 8).flatMap fun c =>
    tunableChecks (readTunable bs (o + 0x40 + 12 * c) 4) e.index (o + 0x40 + 12 * c) 4 1000000 (tun.getLsbD 0)) ++
  ((List.range 8).flatMap fun c =>
    tunableChecks (readTunable bs (o + 0xA0 + 6 * c) 2) e.index (o + 0xA0 + 6 * c) 2 65535 (tun.getLsbD 1)) ++
  [(zeroAt bs (o + 0xD0) 48, e.index, o + 0xD0)] ++
  eachRange (plotRangeChecks e.index (o + 0x100) 0 (readRanges bs (o + 0x100) n)) (rangeReserved bs e.index o 0x100 n) ++
  [(zeroAt bs (o + 0x100 + 8 * n) (e.length - (0x100 + 8 * n)), e.index, o + 0x100 + 8 * n)]

/-- Step 8 of R62: header and section-table reserved bytes, then every section in order. -/
def step8 (bs : List Byte) : Option (Nat × Nat) :=
  let es := sectionTable bs
  firstBad ([(zeroAt bs 0x24 92, 0xFF, 0x24)] ++
    (es.flatMap fun e =>
      [(zeroAt bs (0x80 + 16 * e.index + 2) 2, 0xFF, 0x80 + 16 * e.index + 2),
       (zeroAt bs (0x80 + 16 * e.index + 12) 4, 0xFF, 0x80 + 16 * e.index + 12)]) ++
    (es.flatMap fun e => match e.type with
      | 0x01 => deviceChecks bs e
      | 0x02 => calendarChecks bs e
      | 0x03 => tablesChecks bs es e
      | 0x04 => clearingChecks bs e
      | _ => []))

/-- The entries of the TABLES section (R55). -/
def readTables (bs : List Byte) (o : Nat) : List TableDecl :=
  (List.range (leAt bs o 4)).map fun i =>
    let a := o + 0x90 + 16 * i
    let who := fun k => if byteAt bs (a + k) == 0xFF then none else some (byteAt bs (a + k))
    ⟨leAt bs a 2, who 2, who 3, byteAt bs (a + 4), byteAt bs (a + 5) % 2 == 1,
     signedOf 16 (leAt bs (a + 6) 2)⟩

/-- A WORK section's figures (R59). -/
def readWork (bs : List Byte) (o : Nat) : WorkCfg :=
  ⟨leAt bs o 4, leAt bs (o + 4) 4, leAt bs (o + 8) 4, leAt bs (o + 12) 4⟩

/-- A CLEARING section with its WORK section and its tables (R57, R70). -/
def readClearing (bs : List Byte) (tables : List TableDecl) (works : List SectionEntry)
    (e : SectionEntry) : ClearingCfg :=
  let o := e.offset
  let h := fun k => leAt bs (o + k) 2
  let b := fun k => byteAt bs (o + k)
  let w := works.find? (·.number == e.number)
  { number := e.number, fixed := b 1 == 0, ctxTeardown := h 2 % 2 == 1, refuseVariant := h 2 / 2 % 2 == 1
    phases := h 4
    pairs := BitVec.ofNat 64 (leAt bs (o + 8) 8), engines := BitVec.ofNat 64 (leAt bs (o + 0x10) 8)
    dbBase := h 0x18, dbCount := h 0x1A, ctxBase := h 0x1C, ctxCount := h 0x1E
    keyBase := h 0x20, keyCount := h 0x22, streamQuota := h 0x24, canopyModels := h 0x26
    tunable := BitVec.ofNat 8 (b 0x30), classMask := BitVec.ofNat 8 (b 0x31)
    classMaskMax := BitVec.ofNat 8 (b 0x33), urgency := [b 0x34, b 0x35, b 0x36]
    weightMin := h 0x38, weightMax := h 0x3A
    latency := (List.range 8).map fun c => readTunable bs (o + 0x40 + 12 * c) 4
    budget := (List.range 8).map fun c => readTunable bs (o + 0xA0 + 6 * c) 2
    plots := readRanges bs (o + 0x100) (h 6)
    work := w.map fun x => readWork bs x.offset
    tables := tables.filter fun t => t.owner == some e.number
    bytes := sliceAt bs o e.length
    workBytes := match w with | none => [] | some x => sliceAt bs x.offset x.length }

/-- The image as data, once its section table is sound. -/
def readImage (bs : List Byte) : Image :=
  let es := sectionTable bs
  let at' := fun t => ((es.find? (·.type == t)).map (·.offset)).getD 0
  let tables := readTables bs (at' 3)
  { digest := Config.sha384 (sliceAt bs 0 (leAt bs 0x00C 4 - 96))
    svn := leAt bs 0x010 4, tickUs := leAt bs (at' 1) 2, cclkMin := leAt bs (at' 1 + 2) 2
    guest := (List.range 1280).map fun p => byteAt bs (at' 1 + 0x40 + p)
    map := (List.range 1024).map fun i => byteAt bs (at' 2 + i)
    commonsField := sliceAt bs (at' 3 + 4) 2 ++ sliceAt bs (at' 3 + 0x10) 128
    commonsPlots := readRanges bs (at' 3 + 0x10) (leAt bs (at' 3 + 4) 2)
    commons := tables.filter fun t => t.owner.isNone
    clearings := (es.filter (·.type == 4)).map (readClearing bs tables (es.filter (·.type == 5)))
    bytes := bs }

/-- Step 9 of R62: the structural sizes that are zero. -/
def step9 (bs : List Byte) : Option (Nat × Nat) :=
  firstBad ((sectionTable bs).flatMap fun e =>
    let o := e.offset
    let h := fun k => leAt bs (o + k) 2
    match e.type with
    | 0x03 => (readRanges bs (o + 0x10) (h 4)).zipIdx.map fun ri =>
        (ri.1.2 != 0, e.index, o + 0x10 + 8 * ri.2 + 2)
    | 0x04 =>
      [(byteAt bs (o + 1) != 0 || h 4 != 0, e.index, o + 4), (h 6 != 0, e.index, o + 6),
       (leAt bs (o + 8) 8 != 0, e.index, o + 8), (leAt bs (o + 0x10) 8 != 0, e.index, o + 0x10),
       (h 0x1A != 0, e.index, o + 0x1A), (h 0x1E != 0, e.index, o + 0x1E),
       (h 0x22 != 0, e.index, o + 0x22), (h 0x24 != 0, e.index, o + 0x24),
       (h 0x26 != 0, e.index, o + 0x26)] ++
      (readRanges bs (o + 0x100) (h 6)).zipIdx.map fun ri =>
        (ri.1.2 != 0, e.index, o + 0x100 + 8 * ri.2 + 2)
    | _ => [])

/-- Two ranges (first, count) share a member. -/
def rangesMeet (a b : Nat × Nat) : Bool := a.1 < b.1 + b.2 && b.1 < a.1 + a.2

/-- Step 10 of R62 at one clearing, against the clearings before it and the commons. -/
def overlapChecks (commons : List (Nat × Nat)) (before : List ClearingCfg) (sec o : Nat)
    (c : ClearingCfg) : List (Bool × Nat × Nat) :=
  let apart := fun (f : ClearingCfg → Nat × Nat) => before.all fun b => !rangesMeet (f b) (f c)
  [(before.all fun b => b.pairs &&& c.pairs == 0, sec, o + 8),
   (before.all fun b => b.engines &&& c.engines == 0, sec, o + 0x10),
   (apart fun x => (x.dbBase, x.dbCount), sec, o + 0x18),
   (apart fun x => (x.ctxBase, x.ctxCount), sec, o + 0x1C),
   (apart fun x => (x.keyBase, x.keyCount), sec, o + 0x20),
   ((before.map (·.streamQuota)).sum + c.streamQuota ≤ 32768, sec, o + 0x24)] ++
  c.plots.zipIdx.map fun ri =>
    (commons.all (fun r => !rangesMeet r ri.1) &&
      before.all (fun b => b.plots.all fun r => !rangesMeet r ri.1), sec, o + 0x100 + 8 * ri.2)

/-- Step 10 of R62. -/
def step10 (bs : List Byte) (im : Image) : Option (Nat × Nat) :=
  let es := sectionTable bs
  let tsec := ((es.find? (·.type == 3)).map fun e => (e.index, e.offset)).getD (0, 0)
  firstBad ((im.commonsPlots.zipIdx.map fun ri =>
      ((im.commonsPlots.take ri.2).all fun r => !rangesMeet r ri.1, tsec.1, tsec.2 + 0x10 + 8 * ri.2)) ++
    (((es.filter (·.type == 4)).zip im.clearings).zipIdx.flatMap fun ec =>
      overlapChecks im.commonsPlots (im.clearings.take ec.2) ec.1.1.index ec.1.1.offset ec.1.2))

/-- The maintenance entries of a map, ascending. -/
def maintEntries (map : List Nat) : List Nat :=
  (List.range 1024).filter fun i => map.getD i 0 == maintOwner

/-- Step 11 of R62: the conditions of R54 on the phase map at offset `o` of section `sec`. -/
def step11 (im : Image) (sec o : Nat) : Option (Nat × Nat) :=
  let ms := maintEntries im.map
  let gaps := (ms.zip (ms.drop 1 ++ (ms.take 1).map (· + 1024))).map fun ab => (decide (ab.2 - ab.1 ≤ 32), sec, o + ab.2 % 1024)
  let isFixed := fun n => im.clearings.any fun c => c.number == n && c.fixed
  firstBad ([(ms.length == 64, sec, o)] ++ gaps ++
    [(decide ((im.map.filter (· < 64)).length ≤ 896), sec, o)] ++
    (im.map.zipIdx.map fun ni => (ni.1 ≥ 64 || isFixed ni.1, sec, o + ni.2)) ++
    (im.clearings.map fun c => (mapCount im.map c.number == c.phases, sec, o)))

/-- Step 12 of R62: the WORK figures against R60. -/
def step12 (bs : List Byte) (im : Image) : Option (Nat × Nat) :=
  let ph := phasesOfTick im.tickUs
  let most := im.tickUs * im.cclkMin
  firstBad (((sectionTable bs).filter (·.type == 5)).flatMap fun e =>
    let w := readWork bs e.offset
    [(w.slotsPeak ≤ guaranteedSlots im.map ph e.number, e.index, e.offset),
     (w.coreCclkPeak ≤ most && 2 * w.passesPeak ≤ w.coreCclkPeak, e.index, e.offset + 4),
     (w.engineCclkPeak ≤ most, e.index, e.offset + 8)])

/-- The signer digests trusted in a life-cycle state (R63); 0 Raw, 1 Provisioned, 2 Deployed,
3 Returned, others as Retired (R114). -/
def signerTrusted (lc : Nat) (signers : List (List Byte)) (d : BitVec 384) : Bool :=
  match lc with
  | 0 | 3 => d == Config.romSignerDigest
  | 1 | 2 => d == Config.romSignerDigest || signers.contains (digestBytes d)
  | _ => false

/-- Steps 1 to 6 of R62: the first that fails, with its code and offset. `len` is IMG_LEN, or none at
start-up (R133). -/
def headerFault (bs : List Byte) (len : Option Nat) (lc minSvn : Nat) (signers : List (List Byte)) :
    Option ImageFault :=
  let total := leAt bs 0x00C 4
  let tr := total - 192
  firstBad
    [(2880 ≤ total && total ≤ 16777216 && total % 16 == 0 && (len.getD total == total),
      ⟨qsImgLength, 0xFF, 0x00C⟩),
     (sliceAt bs 0 8 == asciiBytes "QPFIMG03", ⟨qsImgFormat, 0xFF, 0⟩),
     (leAt bs 8 2 == 1, ⟨qsImgFormat, 0xFF, 8⟩),
     (leAt bs 0x014 2 == 3, ⟨qsImgTarget, 0xFF, 0x014⟩),
     (byteAt bs 0x016 ≤ Config.blockRev, ⟨qsImgTarget, 0xFF, 0x016⟩),
     (Config.blockRev ≤ byteAt bs 0x017, ⟨qsImgTarget, 0xFF, 0x017⟩),
     (signerTrusted lc signers (Config.sha384 (sliceAt bs tr 96)), ⟨qsImgSigner, 0xFF, tr⟩),
     (Config.ecdsaVerify (sliceAt bs tr 48) (sliceAt bs (tr + 0x30) 48)
        (Config.sha384 (sliceAt bs 0 (total - 96))) (sliceAt bs (tr + 0x60) 48) (sliceAt bs (tr + 0x90) 48),
      ⟨qsImgSignature, 0xFF, tr + 0x60⟩),
     (minSvn ≤ leAt bs 0x010 4, ⟨qsImgRollback, 0xFF, 0x010⟩)]

/-- R62: validate an image, in the order of its steps; the image as data, or the first failure. -/
def validateImage (bs : List Byte) (len : Option Nat) (lc minSvn : Nat) (signers : List (List Byte)) :
    Except ImageFault Image :=
  let im := readImage bs
  let cal := ((sectionTable bs).find? (·.type == 2)).map fun e => (e.index, e.offset)
  match headerFault bs len lc minSvn signers with
  | some f => .error f
  | none =>
    match step7 bs with
    | some o => .error ⟨qsImgSection, 0xFF, o⟩
    | none =>
      match step8 bs with
      | some (s, o) => .error ⟨qsImgRange, s, o⟩
      | none =>
        match step9 bs with
        | some (s, o) => .error ⟨qsImgZeroSize, s, o⟩
        | none =>
          match step10 bs im with
          | some (s, o) => .error ⟨qsImgOverlap, s, o⟩
          | none =>
            match step11 im (cal.getD (0, 0)).1 (cal.getD (0, 0)).2 with
            | some (s, o) => .error ⟨qsImgCalendar, s, o⟩
            | none =>
              match step12 bs im with
              | some (s, o) => .error ⟨qsImgFit, s, o⟩
              | none => .ok im

/-- The device-level content of two images is the same (R68). -/
def sameDevice (a b : Image) : Bool :=
  a.tickUs == b.tickUs && a.cclkMin == b.cclkMin && a.guest == b.guest &&
    maintEntries a.map == maintEntries b.map && a.commonsField == b.commonsField && a.commons == b.commons

/-- The section of a clearing in an image (R57). -/
def imageClearing (im : Image) (n : Nat) : Option ClearingCfg := im.clearings.find? (·.number == n)

/-- The positions of clearing `n`'s entries in a map. -/
def mapPositions (map : List Nat) (n : Nat) : List Nat := (List.range 1024).filter fun i => map.getD i 0x40 == n

/-- The default settings of R129. -/
def defaultSettings : Settings := ⟨0, 0, 0, []⟩

/-- Read a settings record (R78). -/
def readSettings (bs : List Byte) : Settings :=
  ⟨leAt bs 0x00C 4, leAt bs 0x010 4, leAt bs 0x014 2,
   (List.range (leAt bs 0x016 2)).map fun i => sliceAt bs (0x20 + 48 * i) 48⟩

/-- The fields of a settings record are well formed, its mac and sequence apart (R78). -/
def settingsForm (bs : List Byte) : Bool :=
  sliceAt bs 0 8 == asciiBytes "QPFSET03" && leAt bs 8 2 == 1 && zeroAt bs 0x00A 2 &&
    leAt bs 0x014 2 ≤ 1023 && leAt bs 0x016 2 ≤ 4 && zeroAt bs 0x018 8 && zeroAt bs 0x0E0 240 &&
    zeroAt bs (0x20 + 48 * leAt bs 0x016 2) (192 - 48 * leAt bs 0x016 2)

/-- A stored settings record verifies under the settings key (R78). -/
def settingsVerify (key bs : List Byte) : Bool :=
  settingsForm bs && sliceAt bs 0x1D0 48 == digestBytes (Config.hmac384 key (sliceAt bs 0 0x1D0))

/-- The bytes of a settings record, MACed under `key` (R78). -/
def settingsBytes (key : List Byte) (t : Settings) : List Byte :=
  let body := asciiBytes "QPFSET03" ++ leBytes 2 1 ++ zeroBytes 2 ++ leBytes 4 t.sequence ++
    leBytes 4 t.minSvn ++ leBytes 2 t.chip ++ leBytes 2 t.signers.length ++ zeroBytes 8 ++
    sliceAt (t.signers.flatten ++ zeroBytes 192) 0 192 ++ zeroBytes 240
  body ++ digestBytes (Config.hmac384 key body)

end Sys2Proof.Machine
end

