-- ==== Sys2Proof/Machine/PartsA.lean ====
section
/-! DEFINITION. Parts of the state: clocks and start-up, the image machinery, clearings and contexts,
error records and rings, the memory calendar and elastic regulation. -/

namespace Sys2Proof.Machine

/-- IMG_BOOT.phase (R123). -/
inductive BootPhase where
  | reset | rom | root | memory | image | scrub | power | trail | running | bare | stopped
  deriving DecidableEq, Repr, Inhabited

/-- How the flash is read (R120, R122): there is none, in 1S-1S-1S mode, or in 8D-8D-8D mode. -/
inductive FlashMode where
  | none | single | octal
  deriving DecidableEq, Repr, Inhabited

/-- The start-up fields (R147, R148) and what a start-up holds on its way (R123 to R146). -/
structure Boot where
  phase : BootPhase
  cause : Nat
  settingsDefault : Bool
  solitary : Bool
  warm : Bool
  rootAbsent : Bool
  detail : Code
  where' : Nat
  /-- µs to the first tick, IMG_BOOT_TIME (R148). -/
  bootUs : Nat
  /-- The life-cycle state read on rot_lc (R113). -/
  lc : Nat
  /-- The PUF SRAM's power-up state, captured in phase 1 (R123). -/
  puf : List Bool
  /-- The device root (R385), none while root_absent or not yet regenerated. -/
  root : Option (List Byte)
  /-- flash discovered, and its size (R83). -/
  flashPresent : Bool
  flashLog2 : Nat
  /-- The mode that SFDP and the pin test settle. -/
  flashMode : FlashMode
  /-- xspi_io lines found shorted, bit i for io[i]: they are never driven (R122). -/
  shorted : BitVec 8
  /-- The owner passphrase's salt and verifier, where one is set (R384). -/
  pass : Option (List Byte × List Byte)
  setAValid : Bool
  setBValid : Bool
  /-- The settings in use (R129) and those a run-time SETTINGS has written. -/
  settings : Settings
  /-- chip_number in use (R79: a written one takes effect at the next start-up). -/
  chip : Nat
  /-- The settings copy in use is B (R78). -/
  copyB : Bool
  /-- The postmark agreed over the Trail for the first tick (R136, R509). -/
  launch : Option Nat
  /-- Pseudo-channels that have failed since the end of phase 3, and the cause of R186: they are remapped from phase 5
  onward (R131). -/
  failed : List (Nat × Nat)
  /-- mc_rd_lat per stack (R105). -/
  rdLat : List Nat
  /-- A boot message is being handled (R143): op 1 IMAGE or 2 SETTINGS, its flash bit and length. -/
  delivery : Option (Nat × Bool × Nat)
  /-- Next row of granules that the start-up scrub zeroes, by home (R124). -/
  scrubPos : Tab Nat
  /-- The start-up wheel runs (R132). -/
  wheelOn : Bool
  /-- Reset asserted: 0 none, 1 warm, 2 power-on (R90). -/
  resetHeld : Nat
  deriving DecidableEq, Repr, Inhabited

/-- Time (R89, R150 to R153). -/
structure Clk where
  postmark : Nat
  /-- The last postmark, kept across warm_rst_n (R137); none after por_n. -/
  lastPostmark : Option Nat
  /-- cclk since the tick boundary. -/
  cclk : Nat
  /-- cclk from the reset to the tick boundary. -/
  tickStart : Nat
  /-- ref_clk periods from the reset to the tick boundary. -/
  refTick : Nat
  /-- cclk per ref_clk when phase-locked (R153), 0 when not. -/
  lock : Nat
  /-- The next phase of the tick (R152). -/
  phase : Nat
  /-- Upper halves latched by 32-bit reads of the postmark, by requester and register (R151). -/
  halves : Tab (Option Nat)
  deriving DecidableEq, Repr, Inhabited

/-- What an image command under way writes to flash (R80). -/
inductive FlashJob where
  /-- The bytes of the image region, whether a COMMIT ordered it, and whether it is that in force. -/
  | image (bs : List Byte)
  /-- A settings record: the new settings and their bytes. -/
  | settings (t : Settings) (bs : List Byte)
  deriving DecidableEq, Repr

/-- The image machinery (R69 to R83). -/
structure Img where
  force : Option Image
  staged : Option Image
  /-- The staged image's device-level content differs (R68). -/
  differs : Bool
  pending : BitVec 64
  mixed : Bool
  src : Word
  len : Nat
  code : Code
  busy : Bool
  errSection : Nat
  errOffset : Nat
  /-- The image that the flash holds, where it is known (R80). -/
  flashImage : Option (List Byte)
  /-- The command under way: LOAD's length, or a flash write. -/
  loading : Option Nat
  flashing : Option FlashJob
  /-- A deferred physical-function reset waits for the command under way (R99). -/
  resetAfter : Bool
  /-- Released plots still to be zeroed, in order of release (R72), and the bytes done of the first. -/
  scrub : List Nat
  scrubNext : Nat
  /-- WRITEs of the first plot's scrub not yet answered. -/
  scrubOut : Nat
  deriving DecidableEq, Repr, Inhabited

/-- The life cycle (R31). -/
inductive ClrState where
  | absent | closed | opened | quiescing | quiet | fenced | resetting
  deriving DecidableEq, Repr, Inhabited

/-- The tunable parameters of one clearing (R65), the share weights apart. -/
structure Tunables where
  target : List Nat
  budget : List Nat
  mask : BitVec 8
  urgency : List Nat
  deriving DecidableEq, Repr, Inhabited

/-- Latency measurement and regulation of one class of one clearing (R198 to R200, R212). -/
structure ClassMeas where
  /-- M(n, c). -/
  measured : Nat
  /-- L(n, c). -/
  level : Nat
  doneMax : Nat
  /-- O(n, c). -/
  outstanding : Nat
  atTarget : Bool
  atTargetTicks : Nat
  demotedTicks : Nat
  /-- A request was presented at priority 0 in this tick. -/
  demotedNow : Bool
  /-- What O(n, c) was, latest first: (absolute cclk since which, value); R200 reads it 4 cclk back. -/
  history : List (Nat × Nat)
  deriving DecidableEq, Repr, Inhabited

/-- A fence or reset under way (R454 to R463). -/
structure FenceInfo where
  /-- ref_clk periods at which it began. -/
  start : Nat
  /-- Step 2 of R454 has been taken. -/
  stopped : Bool
  /-- Next row of granules to zero on each pseudo-channel, in Resetting (R463). -/
  zeroPos : Tab Nat
  deriving DecidableEq, Repr, Inhabited

/-- A manifest issue under way (R39): the signed bytes with the postmark still to come. -/
structure IssueJob where
  body : List Byte
  deriving DecidableEq, Repr, Inhabited

/-- A clearing: its partition entry and life cycle (R21, R31). -/
structure Clearing where
  st : ClrState
  cfg : ClearingCfg
  /-- Digest of the image whose section it runs under (R51). -/
  digest : BitVec 384
  /-- It runs under a section of the staged image (R82, mixed). -/
  fromStaged : Bool
  degraded : Bool
  quiesceLeft : Nat
  /-- First postmark at which doorbells are accepted (R32). -/
  serveFrom : Nat
  tun : Tunables
  /-- Accepted values that await their boundary (R207). -/
  tunNext : Option Tunables
  classes : List ClassMeas
  /-- Number of the latest manifest issue begun (R36). -/
  issues : Nat
  /-- The manifest now in the page (R39); empty: the page reads zero. -/
  page : List Byte
  issuing : Option IssueJob
  /-- A further cause arrived during the issue (R39). -/
  issueAgain : Bool
  fence : Option FenceInfo
  /-- Requests served under another class (R191). -/
  classFixups : Nat
  ageTurns : Nat
  lateTicks : Nat
  lateCause : Nat
  latePostmark : Nat
  deriving DecidableEq, Repr, Inhabited

/-- The registers of a clearing window that no other part holds (R44, R45, R485). -/
structure Window where
  code : Code
  refused : Nat
  nonce0 : Word
  nonce1 : Word
  ctxArg : Word
  ctxCode : Code
  ctxNum : Nat
  ctxGen : Nat
  ctxDone : Bool
  /-- ERR_WCTRL. -/
  errCtrl : Word
  /-- ERR_WFENCE. -/
  fenceCause : Nat
  fencePostmark : Nat
  deriving DecidableEq, Repr, Inhabited

/-- A context's state (R28). -/
inductive CtxState where
  | free | live | draining
  deriving DecidableEq, Repr, Inhabited

/-- A context (R27, R28). -/
structure Ctx where
  st : CtxState
  gen : Nat
  pasid : Nat
  pasidValid : Bool
  weight : Nat
  /-- A tuned weight that awaits its boundary (R66). -/
  weightNext : Option Nat
  /-- Virtual time of its share (R324). -/
  vtime : Nat
  /-- CLR_CTX_RESULT waits for this TEARDOWN to end (R45). -/
  tearing : Bool
  deriving DecidableEq, Repr, Inhabited

/-- An error record (R444), its place in the ring apart. -/
structure ErrRec where
  code : Code
  severity : Nat
  source : Nat
  unit : Nat
  clearing : Option Nat
  ctx : Option Nat
  generation : Nat
  coalesced : Bool
  lostBefore : Bool
  startup : Bool
  copy : Bool
  count : Nat
  postmark : Nat
  cclk : Nat
  detail0 : Nat
  detail1 : Nat
  detail2 : Nat
  tag : Nat
  queue : Option Nat
  deriving DecidableEq, Repr, Inhabited

/-- An error ring (R449 to R453). -/
structure ErrRing where
  head : Nat
  tail : Nat
  lost : Nat
  coalesced : Nat
  lostFlag : Bool
  /-- Records that have reached the ring and are still to be staged: of one cclk, in ascending order of source and then
  unit (R451). -/
  arrivals : List ErrRec
  /-- Staged records, oldest first, not yet issued (R451). -/
  staged : List ErrRec
  /-- The record whose WRITE is not yet answered (R450). -/
  issued : Option ErrRec
  /-- The issued record's ring was emptied by an APPLY: it commits and is then zeroed (R453). -/
  emptying : Bool
  /-- Committed records by ring entry. -/
  entries : Tab (Option ErrRec)
  /-- The ring's interrupt was raised in this tick (R452). -/
  raised : Bool
  deriving DecidableEq, Repr, Inhabited

/-- Halt, device fault and the crash dump (R473, R474, R479 to R483). -/
structure ErrUnit where
  halted : Bool
  deviceFault : Bool
  dumpValid : Bool
  dumpBusy : Bool
  cause : Code
  fences : Nat
  ctrl : Word
  fenceTo : Nat
  corrected : Nat
  uncorrectable : Nat
  resCode : Code
  resBusy : Bool
  resDone : Bool
  /-- A DUMP_COPY is under way. -/
  copying : Bool
  dumpDst : Word
  dumpCause : Code
  /-- Cause and postmark of the dump under way. -/
  dumpPostmark : Nat
  missed : Nat
  /-- The dump that the dump area holds (R480). -/
  dump : List Byte
  /-- ERR_AGROUP(n), as written (R476). -/
  group : Tab Word
  /-- Cores and engines fenced as failed (R468). -/
  failedCores : BitVec 128
  failedEngines : BitVec 64
  /-- Start-up events held for the first tick (R139). -/
  held : List ErrRec
  /-- Functions whose hp_flr_done waits (R98, R99, R472): (function, clearing or none for all). -/
  flrWait : List (Nat × Option Nat)
  /-- Bit n: clearing n is in a reset of R98 or R99 for which no QS_ERR_RESET_SLOW has been written (R472). -/
  slowDue : BitVec 64
  deriving DecidableEq, Repr, Inhabited

/-- Where a memory request comes from (R158, R190), and what its response serves. -/
inductive MemSrc where
  /-- cp_m of a core, with its tag. -/
  | core (c tag : Nat)
  /-- An access of the block (Machine/PartsB.lean); `hp`: it entered through the host port (R197). -/
  | acc (id : Nat) (hp : Bool)
  /-- fi_ of a chip, with its tag. -/
  | fabric (chip tag : Nat)
  /-- An error ring: 64 the global ring, else a clearing's. -/
  | errRing (ring : Nat)
  /-- Own traffic: the descriptor of queue `op` − 1, or other when 0. -/
  | own (op : Nat)
  /-- Scrub of a released plot. -/
  | scrub (plot : Nat)
  /-- Zeroing of a clearing in Resetting (R463). -/
  | zero (n : Nat)
  deriving DecidableEq, Repr, Inhabited

/-- A request in a pseudo-channel store. -/
structure MemReq where
  src : MemSrc
  write : Bool
  /-- Local plot address of the granule. -/
  addr : Nat
  data : List Byte
  be : BitVec 256
  /-- The clearing it is served for; none for own traffic and scrub. -/
  clearing : Option Nat
  ctx : Nat
  gen : Nat
  cls : Nat
  /-- Absolute cclk of entry (R158). -/
  entered : Nat
  /-- Postmark of entry (R169 cause 4). -/
  tick : Nat
  /-- Its place in the source order of R158: core c, 128 + engine, 192 fabric, 193 host port, 194 + queue. -/
  rank : Nat
  /-- Entry number: the order of entry from one source. -/
  order : Nat
  /-- Home pseudo-channel and granule index (R154). -/
  home : Nat
  gidx : Nat
  /-- It holds a reserved entry of its clearing (R193). -/
  reserved : Bool
  /-- It is presented again after a remapping began (R171). -/
  again : Bool
  deriving DecidableEq, Repr, Inhabited

/-- A command presented to a memory controller whose response is awaited. -/
structure InFlight where
  req : MemReq
  /-- Absolute cclk of presentation. -/
  at' : Nat
  /-- Its response is to be discarded (R171, R458). -/
  dead : Bool
  /-- A hold of its pseudo-channel keeps its response back (R107, R108). -/
  held : Bool
  deriving DecidableEq, Repr, Inhabited

/-- CAL_PCH.state (R186). -/
inductive PchState where
  | normal | remapped | hosting | unreachable
  deriving DecidableEq, Repr, Inhabited

/-- A pseudo-channel (R159, R166, R171, R186, R202). -/
structure Pch where
  st : PchState
  cause : Nat
  partner : Nat
  /-- mc_hold and mc_pch_fail levels. -/
  hold : Bool
  failLevel : Bool
  /-- Phases that passed in the present hold. -/
  holdPhases : Nat
  /-- The present hold has been counted: a remapping ended it (R167). -/
  holdCounted : Bool
  /-- ref_clk periods at which recent holds began (R167). -/
  holdStarts : List Nat
  /-- D(n, p), by clearing. -/
  deficit : Tab Nat
  /-- Clearing after which catch-up's turn goes on. -/
  catchTurn : Nat
  /-- turn[p] of R202. -/
  turn : Nat
  /-- Phases owned by each Fixed clearing since the tick or the remapping began (R172). -/
  favour : Tab Nat
  fixed : Tab (List MemReq)
  elastic : List MemReq
  own : List MemReq
  scrub : List MemReq
  deriving DecidableEq, Repr, Inhabited

/-- Margining of one stack (R165, R184). -/
structure Margin where
  rsp : Nat
  busy : Bool
  done : Bool
  pch : Nat
  op : Nat
  code : Code
  /-- Remapping of the pseudo-channel began while outstanding. -/
  failed : Bool
  deriving DecidableEq, Repr, Inhabited

/-- The calendar (R150 to R188). -/
structure Cal where
  map : List Nat
  /-- The map that takes effect at the next boundary (R71). -/
  mapNext : Option (List Nat)
  pch : Tab Pch
  late : BitVec 64
  /-- Channel-wide causes of the tick now open (R169). -/
  lateNow : Nat
  overcommit : BitVec 64
  /-- A pending CAL_GUEST_CMD: op and pseudo-channel (R175). -/
  guestCmd : Option (Nat × Nat)
  guestCode : Code
  guestPch : Nat
  guestDone : Bool
  margin : Tab Margin
  holds : Nat
  longest : Nat
  /-- By (stack × 4 + lane) × 65,536 + mc_cmd_tag. -/
  inflight : Tab (Option InFlight)
  /-- The next entry number. -/
  order : Nat
  /-- Corrected granules of this tick by pseudo-channel (R448). -/
  corrected : Tab Nat
  /-- Accesses answered without a slot (R176), oldest first. -/
  poisoned : List InFlight
  deriving DecidableEq, Repr, Inhabited

/-- The global registers without a part of their own. -/
structure Glob where
  /-- CLR_GSTATUS (R527). -/
  code : Code
  refused : Nat
  requester : Nat
  /-- CLR_EVENT (R43). -/
  event : BitVec 64
  /-- NumVFs while VF Enable is set (R91). -/
  numVfs : Nat
  /-- The model's own: manifests signed so far, the argument of the free signature (log entry 4). -/
  signs : Nat
  deriving DecidableEq, Repr, Inhabited

end Sys2Proof.Machine
end

