-- ==== Sys2Proof/Machine/PartsB.lean ====
section
/-! DEFINITION. Parts of the state: queues, doorbells, tasks and their envelopes, the block's accesses to
memory, host and fabric, and address translation (R214 to R246, R350 to R383). -/

namespace Sys2Proof.Machine

/-- What a piece of an envelope's traffic brought back. -/
structure Got where
  op : Nat
  poisoned : Bool
  data : List Byte
  deriving DecidableEq, Repr, Inhabited

/-- A completion or dead letter to be written (R229), with the task's accounting record where one goes
before it (R230). -/
structure CplItem where
  status : Code
  /-- It has a completion entry reserved (R234); a dead letter of an envelope never admitted has none. -/
  kept : Bool
  dead : Bool
  last : Bool
  late : Bool
  saturated : Bool
  poisoned : Bool
  zeroBag : Bool
  expired : Bool
  tag : Nat
  /-- Admission postmark, or that in which a dead letter was returned. -/
  postmark : Nat
  /-- The 32 bytes of the accounting record; empty: none. -/
  acct : List Byte
  /-- The task and envelope that it completes; the last of a task ends it as it is written (R239). -/
  env : Option (Nat × Nat)
  deriving DecidableEq, Repr, Inhabited

/-- A queue's state, qflags [1:0] (R215). -/
inductive QState where
  | disabled | enabled | disabling | error
  deriving DecidableEq, Repr, Inhabited

/-- A queue: its descriptor (R215) and its working state (R221 to R235). -/
structure Queue where
  ringBase : Nat
  cplBase : Nat
  acctBase : Nat
  depth : Nat
  cplDepth : Nat
  ctx : Nat
  vector : Nat
  irq : Bool
  coalesceCount : Nat
  coalesceUs : Nat
  st : QState
  tail : Nat
  head : Nat
  cplTail : Nat
  cplHead : Nat
  dbWord : Word
  /-- Its bit of the pending map (R222). -/
  spilled : Bool
  /-- Fetched envelopes, 64 bytes each, from head on (R228). -/
  buffered : List (List Byte)
  /-- Envelopes asked for by the fetch under way, and what has come of it. -/
  fetch : Option Nat
  fetchGot : List Got
  /-- A batch has been admitted since the queue entered the cache (R223). -/
  served : Bool
  /-- Completions owed to envelopes admitted or returned (R234). -/
  owed : Nat
  /-- Completions produced and not yet written, in order. -/
  items : List CplItem
  /-- The accounting record of the first item has been written. -/
  acctDone : Bool
  /-- A write of the first item is under way. -/
  writing : Bool
  /-- Completion writes have failed: what remains is discarded (R241). -/
  cplLost : Bool
  /-- Completions since the last interrupt, and the reference time of the first (R231). -/
  irqCount : Nat
  irqSince : Option Nat
  /-- Its head batch waits under step 12 of R232. -/
  waiting : Bool
  /-- What the last attempt under step 12 saw: the postmark and both counts of releases (R233). -/
  tried : List Nat
  /-- Times completion entries of the queue have been released. -/
  freed : Nat
  /-- Tick boundaries through which its head batch has waited for scratch, and since when (R235). -/
  claimTicks : Nat
  claimOrder : Nat
  /-- The scratch it waits for. -/
  claimScratch : Nat
  /-- A DISABLE of a window waits for Disabled (R245). -/
  disableSeen : Bool
  deriving DecidableEq, Repr, Inhabited

/-- The queue unit (R221 to R223, R233, R242). -/
structure QueUnit where
  /-- Cached queues, least recently used first. -/
  hot : List Nat
  /-- The doorbell FIFO, oldest first, and its queues whose descriptors have arrived (R221). -/
  fifo : List (Nat × Word)
  arrived : List Nat
  /-- Per clearing: tasks that have left the stream table (R233). -/
  releases : Tab Nat
  hits : Nat
  misses : Nat
  /-- Admission turns (R233): the clearing served last, and its queue served last. -/
  lastClr : Nat
  lastQueue : Tab Nat
  /-- The next order of claims, and of admitted tasks. -/
  claims : Nat
  admitted : Nat
  /-- Absolute cclk of the latest admission, for at most one falls in a cclk (R233). -/
  admitAt : Option Nat
  /-- Admission gates closed by barriers (R514). -/
  gate : BitVec 64
  /-- STM_QUOTA (R242). -/
  quota : Tab Nat
  /-- Own requests that have not yet found an entry (R159). -/
  ownWait : List MemReq
  deriving DecidableEq, Repr, Inhabited

/-- Where an envelope of an admitted task stands. -/
inductive EnvSt where
  /-- Not started. -/
  | waiting
  /-- Started, its checks passed; it waits for an engine (R263). -/
  | unassigned
  /-- Running on its engine, or without one. -/
  | running
  /-- It issues nothing more and ends with a code once its issued requests are answered (R262). -/
  | draining
  | done
  deriving DecidableEq, Repr, Inhabited

/-- A position that a lookup has resolved and not yet pooled (R264, R284). -/
structure RowRun where
  pos : Nat
  row : Nat
  bag : Nat
  ver : Bool
  /-- It counts as poisoned whatever its bytes (R286, R307). -/
  bad : Bool
  /-- Its version is unknown: it is not read (R286). -/
  lost : Bool
  deriving DecidableEq, Repr, Inhabited

/-- A bag that is not finished: its number, its length, and its pooled rows, each with its bytes, its position and
whether it is poisoned. -/
structure BagRun where
  num : Nat
  len : Nat
  rows : List (List Byte × Nat × Bool)
  deriving DecidableEq, Repr, Inhabited

/-- A finished vector: its lanes' bytes and its flags (R257). -/
structure OutVec where
  bytes : List Byte
  zeroBag : Bool
  saturated : Bool
  poisoned : Bool
  deriving DecidableEq, Repr, Inhabited

/-- How far a lookup has come in its engine's stages (R264). -/
structure LookRun where
  /-- Bags whose lengths have been read, indices of the latest still to be resolved, and the next position. -/
  bag : Nat
  left : Nat
  pos : Nat
  /-- Rows resolved and not pooled, in order of position, and how many of them have asked for their granules. -/
  rows : List RowRun
  asked : Nat
  bags : List BagRun
  /-- Finished vectors, in order; output pieces formed or beats sent; vectors written. -/
  outs : List OutVec
  formed : Nat
  counted : Nat
  /-- Granules held for it in the granule buffer (R266), by number. -/
  grans : List Got
  deriving DecidableEq, Repr, Inhabited

/-- An envelope of an admitted task (R224) and how far it has come. -/
structure EnvRun where
  /-- Its 64 bytes. -/
  bytes : List Byte
  st : EnvSt
  engine : Option Nat
  /-- Order of assignment on its engine (R264). -/
  assigned : Nat
  /-- cclk since reset at which it started. -/
  started : Nat
  /-- The part of its work it is in, and the row, tile, record or page within it. -/
  phase : Nat
  step : Nat
  /-- What has come of the lookup block, or what the phase before read. -/
  block : List Byte
  /-- Of a row that is written: the version chosen; of a tile that moves: page × 2^52 + frame, or that the
  page answered U = 1 and goes untranslated (R363). -/
  picks : List (Nat × Bool)
  /-- Answers of the phase under way, latest first. -/
  got : List Got
  /-- Key copy of an UNSEAL (R397): key bytes and slot generation. -/
  key : Option (List Byte × Nat)
  code : Code
  /-- Position of a failure (R278), 0xFFFFFFFF where no index locates it. -/
  pos : Nat
  saturated : Bool
  poisoned : Bool
  zeroBag : Bool
  expired : Bool
  /-- It is switched out on a page request (R369). -/
  out : Bool
  look : LookRun
  /-- It has started (R296). -/
  begun : Bool
  /-- Its completion has been written, or discarded (R296). -/
  written : Bool
  /-- The engine on which it ended (R296). -/
  ran : Option Nat
  /-- The job that held its core as it started (R262). -/
  coreJob : Option Nat
  deriving DecidableEq, Repr, Inhabited

/-- An entry of the stream table (R236). -/
structure Task where
  queue : Nat
  n : Nat
  ctx : Nat
  gen : Nat
  cls : Nat
  seed : Word
  /-- Admission postmark: the pin (R283). -/
  pin : Nat
  /-- ref_clk periods at admission. -/
  ref : Nat
  deadline : Nat
  scratch : Nat
  /-- Order of admission over the device. -/
  order : Nat
  envs : List EnvRun
  lateTicks : Nat
  hbm : Nat
  host : Nat
  /-- First non-zero status among its completions (R230). -/
  status : Code
  expired : Bool
  /-- A deadline, a teardown or an abort has answered it: its code (R237, R464, R478). -/
  cut : Option Code
  /-- Its latency in µs, once a deadline or an abort has ended it (R198). -/
  endAge : Option Nat
  /-- Its end completion, held until TASK_END (R239). -/
  held : Option CplItem
  /-- A clearing fence has ended it (R461): it stands only for requests and engines still to be answered. -/
  fenced : Bool
  deriving DecidableEq, Repr, Inhabited

/-- Whom an access of the block is for. -/
inductive Client where
  | env (task env : Nat)
  | fetch (queue : Nat)
  | cpl (queue : Nat)
  /-- Bitmap rewrites that R295 finishes after their PUBLISH, by granule. -/
  | bitmap (desc : Nat)
  /-- An accounting record of R343. -/
  | acct (n : Nat)
  deriving DecidableEq, Repr, Inhabited

/-- What an access does: a page translated alone (R373, R376), a read, or a write. -/
inductive AccOp where
  | translate (write : Bool)
  | read
  | write
  deriving DecidableEq, Repr, Inhabited

/-- Where an access stands. -/
inductive AccSt where
  /-- Formed, not yet issued. -/
  | ready
  /-- Waits for the Translation Completion of this hp_i tag (R363). -/
  | xlt (tag : Nat)
  /-- Faulted, and every PRG index of its function is in use (R366). -/
  | noIndex
  /-- Waits on a page request: function × 512 + PRG index (R366). -/
  | fault (key : Nat)
  /-- In a store or at a memory controller. -/
  | mem
  /-- A read on hp_i with this tag. -/
  | host (tag : Nat)
  /-- A request on fo_ with this tag. -/
  | fab (tag : Nat)
  deriving DecidableEq, Repr, Inhabited

/-- One access: within a granule of a plot, or within a 4 KiB page of host memory. -/
structure Acc where
  client : Client
  /-- The client's number for it. -/
  op : Nat
  kind : AccOp
  /-- Device address and bytes. -/
  addr : Nat
  len : Nat
  data : List Byte
  n : Nat
  ctx : Nat
  gen : Nat
  cls : Nat
  st : AccSt
  /-- Its page has been asked for once already (R367). -/
  asked : Bool
  /-- Issues for its function untranslated: U = 1 (R363, step 5). -/
  plain : Bool
  /-- The translated page that this access alone may use (R379). -/
  frame : Option Nat
  /-- Byte enables of a write that skips bytes of its granule (R291). -/
  mask : Option (BitVec 256) := none
  deriving DecidableEq, Repr, Inhabited

/-- An entry of a translation unit (R362). -/
structure XltEntry where
  func : Nat
  pasid : Nat
  page : Nat
  frame : Nat
  r : Bool
  w : Bool
  sticky : Bool
  /-- The clearing it counts against. -/
  n : Nat
  deriving DecidableEq, Repr, Inhabited

/-- What an hp_i tag is in use for. -/
inductive HostUse where
  | acc (id : Nat)
  | ats (page : Nat) (write : Bool) (n : Nat) (fill : Bool)
  /-- A translation request whose context has left Live (R380): its completion is discarded. -/
  | lost (page n : Nat)
  /-- Quarantined under R459, or no one waits for it any more. -/
  | dead
  deriving DecidableEq, Repr, Inhabited

/-- An outstanding read or translation request on hp_i. -/
structure HostOut where
  use : HostUse
  func : Nat
  pasid : Option Nat
  n : Nat
  ctx : Nat
  gen : Nat
  /-- It was issued with a translation. -/
  translated : Bool
  deriving DecidableEq, Repr, Inhabited

/-- A page request (R366, R368). -/
structure PageReq where
  func : Nat
  pasid : Nat
  page : Nat
  write : Bool
  /-- Tick boundaries since it was sent. -/
  ticks : Nat
  /-- It timed out: a response only frees the index (R368). -/
  late : Bool
  deriving DecidableEq, Repr, Inhabited

/-- An Invalidate Request that waits to drain (R379): hp_i tags that are old, accesses that will issue under
an old translation, and tiles that were moving: task, envelope and tile. -/
structure Inval where
  func : Nat
  itag : Nat
  tags : List Nat
  accs : List Nat
  tiles : List (Nat × Nat × Nat)
  deriving DecidableEq, Repr, Inhabited

/-- A peer binding (R360). -/
structure Binding where
  srcChip : Nat
  srcCtx : Nat
  srcGen : Nat
  write : Bool
  ctx : Nat
  plot : Nat
  count : Nat
  gen : Nat
  valid : Bool
  deriving DecidableEq, Repr, Inhabited

/-- An outbound fabric request (R359). -/
structure FabOut where
  /-- A core and its tag, or an access; none: no one waits for it any more. -/
  core : Option (Nat × Nat)
  acc : Option Nat
  ctx : Nat
  gen : Nat
  n : Nat
  write : Bool
  /-- Device address that its source gave. -/
  addr : Nat
  deriving DecidableEq, Repr, Inhabited

/-- Translation, host tags, the fabric port and peer bindings (R359 to R382). -/
structure XltUnit where
  /-- Entries, least recently used first; the unit of each follows from its page and PASID. -/
  entries : List XltEntry
  hostOut : Tab (Option HostOut)
  pri : Tab (Option PageReq)
  inval : List Inval
  /-- Translation Completions that wait for an entry to be taken (R362): tag, R, W and frame. -/
  heldFills : List (Nat × Bool × Bool × Nat)
  /-- XLT_PRISTOP, by function. -/
  stopped : BitVec 65
  /-- Functions whose ATS Enable or PRI Enable bit the host has cleared (R363, R366). -/
  atsOff : BitVec 65
  priOff : BitVec 65
  timeout : Nat
  invalDone : Nat
  prgDropped : Nat
  stage0 : Word
  stage1 : Word
  peerCode : Code
  peerIndex : Nat
  bindings : Tab Binding
  fabOut : Tab (Option FabOut)
  deriving DecidableEq, Repr, Inhabited

/-- Window registers of queues and streams (R244, R245). -/
structure QueWin where
  code : Code
  queue : Nat
  st : QState
  done : Bool
  desc : List Word
  dbRefused : Nat
  lost : Nat
  dbCode : Code
  dbQueue : Nat
  waits : Nat
  deadLetters : Nat
  expired : Nat
  /-- DET_WSTAT (R494). -/
  variantRefused : Nat
  variantAdmitted : Nat
  deriving DecidableEq, Repr, Inhabited

/-- Window registers of translation (R382). -/
structure XltWin where
  code : Code
  queue : Nat
  addr : Word
  tag : Nat
  tile : Nat
  pageRequests : Nat
  gateRefused : Nat
  misses : Nat
  deriving DecidableEq, Repr, Inhabited

end Sys2Proof.Machine
end

