-- ==== Sys2Proof/Machine/PartsC.lean ====
section
/-! DEFINITION. Parts of the state: table descriptors and generations, gather-pool engines, cores, jobs,
the canopy and accounting (R247 to R349). -/

namespace Sys2Proof.Machine

/-- The mode of a table (R280). -/
inductive TblMode where
  | idle | refreshing | invalidating
  deriving DecidableEq, Repr, Inhabited

/-- A table descriptor's software and QPF-3 fields (R248) and a live table's state (R280); its image
fields are those of its declaration (R247). -/
structure Tbl where
  base0 : Nat
  base1 : Nat
  vbitmap : Nat
  rows : Nat
  dim : Nat
  stride32 : Nat
  valid : Bool
  generation : Nat
  pubPostmark : Nat
  polarity : Bool
  refreshHeld : Bool
  refreshPub : Nat
  horizon : Nat
  mode : TblMode
  /-- Covered refresh chunks (R299, R301). -/
  covered : List Nat
  deriving DecidableEq, Repr, Inhabited

/-- A change entry (R281). -/
structure Chg where
  desc : Nat
  row : Nat
  v : Bool
  published : Bool
  pub : Nat
  bitDone : Bool
  bitCclk : Nat
  /-- A rewrite of its granule that takes it in is under way (R291). -/
  sent : Bool
  /-- The clearing it counts against. -/
  n : Nat
  deriving DecidableEq, Repr, Inhabited

/-- A poison entry (R306). -/
structure Poison where
  desc : Nat
  row : Nat
  version : Bool
  deriving DecidableEq, Repr, Inhabited

/-- The staging and result registers of a table-descriptor command (R303, R310, R311). -/
structure TblPort where
  words : List Word
  code : Code
  desc : Nat
  done : Bool
  /-- An accepted INVALIDATE waits for its table's mode to be Idle. -/
  waits : Bool
  state : Word
  horizon : Word
  refresh : Word
  deriving DecidableEq, Repr, Inhabited

/-- A gather-pool engine (R263 to R268, R466, R467). -/
structure Engine where
  /-- Its reset is under way. -/
  resetting : Bool
  /-- Tick boundaries since the reset began. -/
  resetTicks : Nat
  /-- Boundaries, counted from reset, of its recent internal faults (R468). -/
  faults : List Nat
  /-- cclk in which it last issued a row READ, and an output write (R276). -/
  readAt : Option Nat
  writeAt : Option Nat
  /-- The cclk from which its pooling stage is free (R276). -/
  poolFree : Nat
  /-- Its granule buffer, most recently used first: order of assignment of the envelope, granule (R266). -/
  buffer : List (Nat × Nat)
  deriving DecidableEq, Repr, Inhabited

/-- Live-table and gather-pool state of the device. -/
structure TblUnit where
  tbl : Tab Tbl
  chg : List Chg
  poison : Tab (Option Poison)
  poisonFull : Bool
  hold : Nat
  /-- TBL_HOLD as it stood before the write of this cclk, and the cclk (R311). -/
  holdWas : Option (Nat × Nat)
  /-- TBL_PRIVQ. -/
  privQ : Word
  port : TblPort
  engines : Tab Engine
  saturatedBags : Nat
  poisonedRows : Nat
  /-- Order of the next engine assignment (R264). -/
  assigns : Nat
  deriving DecidableEq, Repr, Inhabited

/-- Window registers of the gather-pool engines (R278). -/
structure GpeWin where
  rows : Nat
  reads : Nat
  hits : Nat
  saturatedBags : Nat
  zeroBags : Nat
  poisonedBags : Nat
  failed : Nat
  code : Code
  queue : Nat
  tag : Nat
  pos : Nat
  deriving DecidableEq, Repr, Inhabited

/-- Window registers of live tables (R310). -/
structure TblWin where
  port : TblPort
  rowsWritten : Nat
  publications : Nat
  lookups : Nat
  event : Bool
  pendingLost : Nat
  expired : Nat
  deriving DecidableEq, Repr, Inhabited

/-- A pass of a model (R315, R316). -/
structure PassInfo where
  offset : Nat
  fence : Bool
  barrier : Bool
  preload : Nat
  wcet : Nat
  length : Nat
  deriving DecidableEq, Repr, Inhabited

/-- A model in a canopy (R339, R340). -/
structure Model where
  id : Word
  /-- Resident; else Loading. -/
  resident : Bool
  first : Nat
  blocks : Nat
  passes : List PassInfo
  /-- Larger: used more recently. -/
  used : Nat
  deriving DecidableEq, Repr, Inhabited

/-- A pass on a core: issued and not ended, or ended (R327 to R329). -/
structure PassRun where
  pos : Nat
  /-- cclk since reset of its issue and of its end. -/
  issued : Nat
  ended : Option Nat
  /-- Tick boundaries it has been issued through, its core not frozen (R334). -/
  ticks : Nat
  deriving DecidableEq, Repr, Inhabited

/-- A core (R101, R323, R331 to R335, R346). -/
structure Core where
  freeze : Bool
  frozen : Bool
  rst : Bool
  /-- A reset follows when cp_frozen rises (R332, R454). -/
  wantReset : Bool
  /-- Its job has been stopped: cp_freeze rises in the next cclk (R322). -/
  stopNext : Bool
  resetTicks : Nat
  faults : List Nat
  spareMap : BitVec 32
  /-- cp_drained as last seen. -/
  drained : Bool
  /-- The job that holds or claims it: task × 1,024 + envelope. -/
  job : Option Nat
  /-- Passes of that job here, latest first. -/
  passes : List PassRun
  /-- Core memory requests outstanding: tag, and write. -/
  reqs : List (Nat × Bool)
  /-- Job passes started in this tick (R336). -/
  started : Nat
  /-- cp_urg_thr as driven (R196). -/
  urgThr : List Nat
  /-- It holds cp_ib_ready at 0 (R103). -/
  ibHeld : Bool
  /-- The contexts whose jobs had passes issued here in this tick, in order, each with their cclk (R344). -/
  rowsBy : List (Nat × Nat)
  deriving DecidableEq, Repr, Inhabited

/-- Where a job stands (R319 to R325). -/
inductive JobSt where
  | loading | waiting | claimant | started | ending | ended
  deriving DecidableEq, Repr, Inhabited

/-- A job (R319 to R322). -/
structure Job where
  task : Nat
  env : Nat
  n : Nat
  ctx : Nat
  gen : Nat
  model : Word
  mask : BitVec 128
  first : Nat
  count : Nat
  cores : Nat
  st : JobSt
  order : Nat
  /-- Cores it holds, ascending. -/
  held : List Nat
  /-- Its status, once known to fail (R322, R333). -/
  code : Code
  expired : Bool
  /-- Core on which it ended. -/
  core : Nat
  /-- Core-cclk since the latest charge (R324), counted up to `counted`. -/
  accrued : Nat
  counted : Nat
  deriving DecidableEq, Repr, Inhabited

/-- What a context is charged in a tick (R342). -/
structure CtxAcct where
  core : Nat
  engine : Nat
  passes : Nat
  rowsOn : Nat
  read : Nat
  write : Nat
  host : Nat
  remote : Nat
  /-- It left or became Live within the tick (R343). -/
  partial' : Bool
  /-- Its generation during the tick. -/
  gen : Nat
  leftLive : Bool
  deriving DecidableEq, Repr, Inhabited

/-- A clearing's canopy and accounting (R338 to R348). -/
structure SchWin where
  canopy : Word
  models : Tab (Option Model)
  sel : Nat
  /-- Next value of `Model.used`. -/
  uses : Nat
  acct : Word
  head : Nat
  tail : Nat
  lost : Nat
  lostFlag : Bool
  /-- Records of R343 still to be written, oldest first. -/
  records : List (List Byte)
  writing : Bool
  total : Nat
  energy : Nat
  jobs : Nat
  overruns : Nat
  code : Code
  core : Nat
  ctx : Nat
  deriving DecidableEq, Repr, Inhabited

/-- Cores, jobs and accounting of the device (R313 to R349). -/
structure SchUnit where
  cores : Tab Core
  jobs : Tab (Option Job)
  passwd : Nat
  acct : Tab CtxAcct
  /-- Energy residual of each context, in fJ (R344). -/
  residual : Tab Nat
  /-- Tick boundaries since reset. -/
  ticks : Nat
  /-- Clearings in which a core has been released, a job has begun to wait or a weight has taken effect in this cclk
  (R325). -/
  due : BitVec 64
  deriving DecidableEq, Repr, Inhabited

end Sys2Proof.Machine
end

