-- ==== Sys2Proof/Machine/PartsD.lean ====
section
/-! DEFINITION. Parts of the state: power domains and mailboxes (R111, R112, R422 to R442). -/

namespace Sys2Proof.Machine

/-- A power state, in the encoding of R111. -/
inductive PowerSt where
  | off | retain | on
  deriving DecidableEq, Repr, Inhabited

/-- A power domain (R23, R111, R432 to R441). -/
structure Domain where
  st : PowerSt
  /-- The request outstanding (R112). -/
  req : Option PowerSt
  /-- Its bit of PWR_FAULT. -/
  fault : Bool
  /-- Tick boundaries since it was last demanded (R435). -/
  idle : Nat
  /-- Postmark through whose end a wake demands it (R429). -/
  woken : Option Nat
  /-- The target that PWR_CMD, or a post to a control core, has set for domain 77 or 79 (R437). -/
  target : PowerSt
  /-- PWR_CMD's target, which a wake of domain 77 overrides. -/
  cmd : PowerSt
  /-- The higher of the states in a tick with a transition (R440). -/
  top : PowerSt
  /-- Activity of this tick, in fJ, the residual, and the energy so far in µJ. -/
  act : Nat
  residual : Nat
  energy : Nat
  /-- It is cycled through Off (R471). -/
  cycle : Bool := false
  /-- PWR_POLICY. -/
  park : Nat
  closed : Nat
  idleTicks : Nat
  deriving DecidableEq, Repr, Inhabited

/-- PWR_ registers and the coefficients of R439. -/
structure Power where
  domains : Tab Domain
  code : Code
  domain : Nat
  done : Bool
  /-- A PWR_CMD has been accepted whose domain has not reached the commanded state (R441, R533). -/
  cmdOpen : Bool
  wakes : Nat
  demandWaits : Nat
  /-- k_hold, k_row, k_eng, k_rd, k_wr, k_host, k_rem, in force and as written. -/
  coef : List Nat
  coefNext : List Nat
  /-- Control cores that have executed WFI. -/
  wfi : BitVec 4
  deriving DecidableEq, Repr, Inhabited

/-- PWR_WSTAT.waits and PWR_WENERGY (R442). -/
structure PwrWin where
  waits : Nat
  energy : Nat
  deriving DecidableEq, Repr, Inhabited

/-- A message in flight or acknowledged, by seq mod 2 (R423, R426). -/
structure MbxMsg where
  code : Code
  seq : Nat
  done : Bool
  sender : Requester
  ackIrq : Bool
  vector : Nat
  deriving DecidableEq, Repr, Inhabited

/-- A mailbox (R423 to R431). -/
structure Mailbox where
  data : List Word
  holder : Requester
  posted : Bool
  taken : Bool
  /-- Sequence number of the latest post, and of the taken message. -/
  seq : Nat
  takenSeq : Nat
  /-- MBX_FRANK.sender, .seq and .postmark. -/
  frankSender : Requester
  frankSeq : Nat
  frankPostmark : Nat
  even : MbxMsg
  odd : MbxMsg
  /-- The taken message as it was posted: its sender and the interrupt of its acknowledgement. -/
  takenMsg : MbxMsg
  receiver : Requester
  irq : Bool
  vector : Nat
  wakeValid : Bool
  wakeDomain : Nat
  deriving DecidableEq, Repr, Inhabited

end Sys2Proof.Machine
end

