-- ==== Sys2Proof/Machine/PartsE.lean ====
section
/-! DEFINITION. Parts of the state: key slots, exchanges with the RoT and field access (R384 to R420), the
TAP (R115, R116), lock-step, barriers and the Trail link (R488 to R523). -/

namespace Sys2Proof.Machine

/-- A key slot (R391, R392). Who holds its current or old generation follows from the running UNSEALs. -/
structure KeySlot where
  /-- The 32 key bytes; empty: none. -/
  key : List Byte
  attr : BitVec 32
  gen : Nat
  /-- The stored integrity tag, 8 bytes. -/
  tag : List Byte
  /-- A check of the tag has failed. -/
  unusable : Bool
  deriving DecidableEq, Repr, Inhabited

/-- What a RANDOM request serves. -/
inductive RandomUse where
  | enrol
  /-- SETPASS, with the passphrase. -/
  | setpass (pass : List Byte)
  /-- CHALLENGE: 1 debug, 2 life cycle. -/
  | challenge (purpose : Nat)
  deriving DecidableEq, Repr, Inhabited

/-- What a message to the RoT serves (R402). -/
inductive RotUse where
  | spdm
  | unwrap (slot : Nat)
  | lcAdvance (target : Nat)
  | measure (index : Nat)
  | akCert
  | random (use : RandomUse) (count : Nat)
  deriving DecidableEq, Repr, Inhabited

/-- A message to the RoT: what it serves, and its payload (R401). -/
structure RotReq where
  use : RotUse
  payload : List Byte
  deriving DecidableEq, Repr, Inhabited

/-- The messages of one origin (R401, R407): the one outstanding with its seq, the next seq, and those that
wait behind it. -/
structure RotPort where
  out : Option (Nat × RotReq)
  /-- The next seq. -/
  seq : Nat
  queue : List RotReq
  deriving DecidableEq, Repr, Inhabited

/-- The registers of an exchange: KEY_XBUF, KEY_XRESULT, or a window's (R419, R420). -/
structure Exchange where
  /-- Words of the buffer. -/
  buf : Tab Word
  code : Code
  rspLen : Nat
  busy : Bool
  done : Bool
  chunks : Nat
  authFail : Nat
  deriving DecidableEq, Repr, Inhabited

/-- A flash write that a key command has ordered (R386, R415). -/
inductive KeyFlash where
  | enrol
  /-- The salt and the verifier. -/
  | pass (salt verifier : List Byte)
  deriving DecidableEq, Repr, Inhabited

/-- Keys, trust and field access of the device. -/
structure KeyUnit where
  slots : Tab KeySlot
  stage : List Word
  stageAttr : BitVec 32
  /-- KEY_STAGE is zeroised in the next cclk (R393). -/
  wipe : Bool
  code : Code
  busy : Bool
  done : Bool
  /-- A helper-region write under way. -/
  flash : Option KeyFlash
  debugOpen : Bool
  tainted : Bool
  /-- Kept by warm_rst_n (R416). -/
  failures : Nat
  lockedOut : Bool
  rotFault : Bool
  /-- Nonces of the latest CHALLENGE of each purpose, not yet consumed (R413). -/
  nonceDebug : Option (List Byte)
  nonceLc : Option (List Byte)
  /-- By origin; 64 stands for 0xFFFF. -/
  rot : Tab RotPort
  /-- KEY_XCMD's exchange, at 64, and the windows'. -/
  xch : Tab Exchange
  deriving DecidableEq, Repr, Inhabited

/-- The states of the IEEE 1149.1 TAP controller (R115). -/
inductive TapCtl where
  | testLogicReset | runTestIdle
  | selectDr | captureDr | shiftDr | exit1Dr | pauseDr | exit2Dr | updateDr
  | selectIr | captureIr | shiftIr | exit1Ir | pauseIr | exit2Ir | updateIr
  deriving DecidableEq, Repr, Inhabited

/-- The TAP (R115, R116, R412). -/
structure Tap where
  /-- The state in which the latest scan left the controller. -/
  ctl : TapCtl
  ir : BitVec 8
  /-- Boundary-scan cells. -/
  cells : List Bool
  /-- DBG_REG's read data at the next Capture-DR. -/
  capture : Word
  /-- DMI accesses so far: the argument of the free answer. -/
  dmiCount : Nat
  deriving DecidableEq, Repr, Inhabited

/-- DET_LSTAT.state (R521). -/
inductive LsState where
  | off | comparing | frozen
  deriving DecidableEq, Repr, Inhabited

/-- Lock-step of a clearing (R497 to R500, R521). -/
structure Lockstep where
  partner : Nat
  enable : Bool
  timeout : Nat
  st : LsState
  cause : Nat
  postmark : Nat
  start : Nat
  /-- Sum of wh over the writes attributed to each admission postmark. -/
  sums : Tab Nat
  /-- Ticks since the last DIGEST, and the latest s compared. -/
  since : Nat
  compared : Nat
  /-- Digests held until their tick is sealed, oldest first. -/
  held : List (Nat × Nat)
  /-- Boundary at which the clearing freezes, and the cause. -/
  freezeAt : Option (Nat × Nat)
  deriving DecidableEq, Repr, Inhabited

/-- A clearing's barrier (R514 to R516, R519, R523). -/
structure Barrier where
  group : Nat
  members : Nat
  valid : Bool
  lead : Nat
  epoch : Nat
  waiting : Bool
  late : Bool
  /-- Arrivals of this epoch and of the next: chip, and sent time in 1/16 ns since the reset. -/
  arrived : List (Nat × Nat)
  early : List (Nat × Nat)
  deriving DecidableEq, Repr, Inhabited

/-- A clearing's generator registers (R523). -/
structure DetWin where
  seed : Word
  site : Nat
  ctr : Word
  deriving DecidableEq, Repr, Inhabited

/-- A Trail lane (R504, R519): 0 to 3 transmit, 4 to 7 receive. -/
structure TrlLane where
  /-- 0 working, 1 retired, 2 untrained. -/
  st : Nat
  fault : Nat
  inverted : Bool
  logical : Nat
  errors : Nat
  deriving DecidableEq, Repr, Inhabited

/-- A waiting chip heard in phase 7 (R509): its first_pm, and when, in 1/16 ns since the reset. -/
structure Heard where
  firstPm : Nat
  time : Nat
  deriving DecidableEq, Repr, Inhabited

/-- A peer of a running chip (R512): tick boundaries at its last frame, and when its drift was last
recorded. -/
structure Peer where
  tick : Nat
  drift : Option Nat
  deriving DecidableEq, Repr, Inhabited

/-- The Trail link (R502 to R513, R519). -/
structure Trail where
  training : Bool
  up : Bool
  /-- The link has come up in this start-up: the wait of R136 for a launch or a join runs. -/
  cameUp : Bool
  lanes : Tab TrlLane
  delay : Nat
  master : Bool
  drift : Bool
  /-- TRL_CTRL.solo_next; kept by warm_rst_n. -/
  soloNext : Bool
  /-- This start-up began its first tick solitary by solo_next: nothing is trained until the next (R510). -/
  solo : Bool
  /-- The link was up as the training under way began (R513). -/
  lost : Bool
  /-- When the first tick that a launch or a join has agreed begins, in 1/16 ns since the reset (R509, R511). -/
  startAt : Option Nat
  hb : Nat
  dropped : Nat
  unsent : Nat
  heard : Tab (Option Heard)
  /-- When a new waiting chip was last heard. -/
  newAt : Nat
  peers : Tab (Option Peer)
  /-- A HELLO with state 1 was heard: it waits for a HEARTBEAT (R511). -/
  joining : Bool
  /-- How the first tick is to come (R518): 0 launch, 1 join, 2 solitary after the wait bound, 3 by SOLO; 4 solitary
  for another reason. And through whom. -/
  how : Nat
  who : Nat
  deriving DecidableEq, Repr, Inhabited

/-- The model's own: what one cclk needs of its start and of its events, for R10 and R11. The units that hold RC fields,
as the cclk found them, less what reads of this cclk have cleared; and the W1C bits that the cclk has set. -/
structure CclkView where
  clr : Tab Clearing
  win : Tab Window
  glob : Glob
  cal : Cal
  err : ErrUnit
  rings : Tab ErrRing
  que : QueUnit
  xlt : XltUnit
  tbl : TblUnit
  pwr : Power
  key : KeyUnit
  trl : Trail
  qwin : Tab QueWin
  xwin : Tab XltWin
  gwin : Tab GpeWin
  twin : Tab TblWin
  swin : Tab SchWin
  pwin : Tab PwrWin
  /-- Bits of CLR_EVENT, CAL_LATE, TBL_WPOISON.event by window, and PWR_FAULT by domain, set in this cclk (R10). -/
  eventSet : BitVec 64
  lateSet : BitVec 64
  poisonSet : BitVec 64
  faultSet : BitVec 80
  /-- The longest length that CAL_HOLDSTAT.longest has taken in this cclk (R11). -/
  holdLongest : Nat
  deriving DecidableEq, Repr, Inhabited

end Sys2Proof.Machine
end

