-- ==== Sys2Proof/Machine/Defaults.lean ====
section
/-! DEFINITION. What an unlisted number of each sparse table reads as, and the parts of the state at
power-on (R526). -/

namespace Sys2Proof.Machine

/-- An undefined clearing's section. -/
def cfg0 : ClearingCfg :=
  { number := 0, fixed := false, ctxTeardown := false, refuseVariant := false, phases := 0, pairs := 0
    engines := 0, dbBase := 0, dbCount := 0, ctxBase := 0, ctxCount := 0, keyBase := 0, keyCount := 0
    streamQuota := 0, canopyModels := 0, tunable := 0, classMask := 0, classMaskMax := 0, urgency := []
    weightMin := 0, weightMax := 0, latency := [], budget := [], plots := [], work := none, tables := []
    bytes := [], workBytes := [] }

/-- M and L at 0, nothing outstanding (R199). -/
def meas0 : ClassMeas := ⟨0, 0, 0, 0, false, 0, 0, false, []⟩

/-- No tunable value. -/
def tun0 : Tunables := ⟨[], [], 0, []⟩

/-- An Absent clearing (R31). -/
def clr0 : Clearing :=
  { st := .absent, cfg := cfg0, digest := 0, fromStaged := false, degraded := false, quiesceLeft := 0
    serveFrom := 0, tun := tun0, tunNext := none, classes := [], issues := 0, page := [], issuing := none
    issueAgain := false, fence := none, classFixups := 0, ageTurns := 0, lateTicks := 0, lateCause := 0
    latePostmark := 0 }

/-- A window at reset: CLR_CTX_ARG.weight is 1 (R526), everything else 0. -/
def win0 : Window :=
  { code := 0, refused := 0, nonce0 := 0, nonce1 := 0, ctxArg := 0x0000000100000000, ctxCode := 0
    ctxNum := 0, ctxGen := 0, ctxDone := false, errCtrl := 0, fenceCause := 0, fencePostmark := 0 }

/-- A Free context of generation 1 (R27). -/
def ctx0 : Ctx := ⟨.free, 1, 0, false, 0, none, 0, false⟩

/-- An empty ring (R453). -/
def ring0 : ErrRing := ⟨0, 0, 0, 0, false, [], [], none, false, [], false⟩

/-- A normal pseudo-channel with empty stores. -/
def pch0 : Pch :=
  { st := .normal, cause := 0, partner := 0, hold := false, failLevel := false, holdPhases := 0, holdCounted := false
    holdStarts := [], deficit := [], catchTurn := 0, turn := 0, favour := [], fixed := [], elastic := []
    own := [], scrub := [] }

/-- No margining (R184). -/
def margin0 : Margin := ⟨0, false, false, 0, 0, 0, false⟩

/-- Time at power-on. -/
def clk0 : Clk := ⟨0, none, 0, 0, 0, 0, 0, []⟩

/-- The start-up fields at power-on: phase 0, the reset asserted (R123, R147). -/
def boot0 : Boot :=
  { phase := .reset, cause := 0, settingsDefault := false, solitary := false, warm := false
    rootAbsent := false, detail := 0, where' := 0, bootUs := 0, lc := 0, puf := [], root := none
    flashPresent := false, flashLog2 := 0, flashMode := .none, shorted := 0, pass := none, setAValid := false, setBValid := false
    settings := defaultSettings, chip := 0, copyB := false, launch := none, failed := [], rdLat := []
    delivery := none, scrubPos := [], wheelOn := false, resetHeld := 2 }

/-- The image machinery with nothing in force (R81 to R83). -/
def img0 : Img :=
  { force := none, staged := none, differs := false, pending := 0, mixed := false, src := 0, len := 0
    code := 0, busy := false, errSection := 0, errOffset := 0, flashImage := none, loading := none
    flashing := none, resetAfter := false, scrub := [], scrubNext := 0, scrubOut := 0 }

/-- A phase map in which every entry reads 0, as CAL_MAP does before an image (R185). -/
def map0 : List Nat := []

/-- The calendar with nothing in it. -/
def cal0 : Cal :=
  { map := map0, mapNext := none, pch := [], late := 0, lateNow := 0, overcommit := 0
    guestCmd := none, guestCode := 0, guestPch := 0, guestDone := false, margin := [], holds := 0
    longest := 0, inflight := [], order := 0, corrected := [], poisoned := [] }

/-- ERR_ registers at reset: ERR_FENCETO is 20,000 µs (R526). -/
def err0 : ErrUnit :=
  { halted := false, deviceFault := false, dumpValid := false, dumpBusy := false, cause := 0, fences := 0
    ctrl := 0, fenceTo := 20000, corrected := 0, uncorrectable := 0, resCode := 0, resBusy := false
    resDone := false, copying := false, dumpDst := 0, dumpCause := 0, dumpPostmark := 0, missed := 0, dump := []
    group := [], failedCores := 0, failedEngines := 0, held := [], flrWait := [], slowDue := 0 }

/-- CLR_GSTATUS and CLR_EVENT at reset; no virtual function. -/
def glob0 : Glob := ⟨0, 0, 0, 0, 0, 0⟩

/-- A Disabled queue whose descriptor is zero (R217). -/
def queue0 : Queue :=
  { ringBase := 0, cplBase := 0, acctBase := 0, depth := 0, cplDepth := 0, ctx := 0, vector := 0, irq := false
    coalesceCount := 0, coalesceUs := 0, st := .disabled, tail := 0, head := 0, cplTail := 0, cplHead := 0
    dbWord := 0, spilled := false, buffered := [], fetch := none, fetchGot := [], served := false, owed := 0, items := []
    acctDone := false, writing := false, cplLost := false, irqCount := 0, irqSince := none, waiting := false, tried := [], freed := 0
    claimTicks := 0, claimOrder := 0, claimScratch := 0, disableSeen := false }

/-- The queue unit with nothing cached. -/
def que0 : QueUnit := ⟨[], [], [], [], 0, 0, 63, [], 0, 0, none, 0, [], []⟩

/-- A lookup of which nothing has been done. -/
def look0 : LookRun := ⟨0, 0, 0, [], 0, [], [], 0, 0, []⟩

/-- An envelope not yet started. -/
def envRun0 (bs : List Byte) : EnvRun :=
  { bytes := bs, st := .waiting, engine := none, assigned := 0, started := 0, phase := 0, step := 0, block := []
    picks := [], got := [], key := none, code := 0, pos := 0xFFFFFFFF, saturated := false, poisoned := false
    zeroBag := false, expired := false, out := false, look := look0, begun := false, written := false
    ran := none, coreJob := none }

/-- No binding (R360). -/
def binding0 : Binding := ⟨0, 0, 0, false, 0, 0, 0, 0, false⟩

/-- Translation with nothing held: XLT_PRITO is 10,000 (R526); the host has every ATS and PRI Enable bit
set. -/
def xlt0 : XltUnit :=
  { entries := [], hostOut := [], pri := [], inval := [], heldFills := [], stopped := 0, atsOff := 0, priOff := 0
    timeout := 10000, invalDone := 0, prgDropped := 0, stage0 := 0, stage1 := 0, peerCode := 0, peerIndex := 0
    bindings := [], fabOut := [] }

/-- QUE_ and STM_ window registers at reset. -/
def queWin0 : QueWin := ⟨0, 0, .disabled, false, List.replicate 8 0, 0, 0, 0, 0, 0, 0, 0, 0, 0⟩

/-- XLT_ window registers at reset. -/
def xltWin0 : XltWin := ⟨0, 0, 0, 0, 0, 0, 0, 0⟩

/-- A descriptor that is not valid, and the state of R280 at its reset values. -/
def tbl0 : Tbl :=
  { base0 := 0, base1 := 0, vbitmap := 0, rows := 0, dim := 0, stride32 := 0, valid := false, generation := 0
    pubPostmark := 0, polarity := false, refreshHeld := false, refreshPub := 0, horizon := 0, mode := .idle
    covered := [] }

/-- Table-command registers at reset. -/
def tblPort0 : TblPort := ⟨List.replicate 8 0, 0, 0, false, false, 0, 0, 0⟩

/-- An idle engine. -/
def engine0 : Engine := ⟨false, 0, [], none, none, 0, []⟩

/-- No table valid; TBL_HOLD is 100 (R526). -/
def tblUnit0 : TblUnit := ⟨[], [], [], false, 100, none, 0, tblPort0, [], 0, 0, 0⟩

/-- GPE_ window registers at reset. -/
def gpeWin0 : GpeWin := ⟨0, 0, 0, 0, 0, 0, 0, 0, 0, 0, 0⟩

/-- TBL_ window registers at reset. -/
def tblWin0 : TblWin := ⟨tblPort0, 0, 0, 0, false, 0, 0⟩

/-- A core that runs nothing. -/
def core0 : Core :=
  { freeze := false, frozen := false, rst := false, wantReset := false, stopNext := false, resetTicks := 0, faults := []
    spareMap := 0, drained := true, job := none, passes := [], reqs := [], started := 0, urgThr := [], ibHeld := false, rowsBy := [] }

/-- Nothing charged. -/
def ctxAcct0 : CtxAcct := ⟨0, 0, 0, 0, 0, 0, 0, 0, false, 0, false⟩

/-- SCH_ window registers at reset. -/
def schWin0 : SchWin := ⟨0, [], 0, 0, 0, 0, 0, 0, false, [], false, 0, 0, 0, 0, 0, 0, 0⟩

/-- No job; SCH_PASSWD is 10 (R526). -/
def sch0 : SchUnit := ⟨[], [], 10, [], [], 0, 0⟩

/-- A domain that is Off, with the policy of R526: park Retain, closed Off, 10 ticks. -/
def domain0 : Domain :=
  { st := .off, req := none, fault := false, idle := 0, woken := none, target := .on, cmd := .on, top := .off, act := 0
    residual := 0, energy := 0, park := 1, closed := 0, idleTicks := 10 }

/-- The coefficients of R439 at reset. -/
def coef0 : List Nat := [700000, 7800, 700000, 12000, 14000, 10000, 8000]

/-- Power at reset: nothing requested. -/
def power0 : Power := ⟨[], 0, 0, false, false, 0, 0, coef0, coef0, 0⟩

/-- PWR_ window registers at reset. -/
def pwrWin0 : PwrWin := ⟨0, 0⟩

/-- No message. -/
def msg0 : MbxMsg := ⟨0, 0, false, 0, false, 0⟩

/-- An empty mailbox. -/
def mailbox0 : Mailbox :=
  { data := List.replicate 16 0, holder := 0, posted := false, taken := false, seq := 0, takenSeq := 0, frankSender := 0
    frankSeq := 0, frankPostmark := 0, even := msg0, odd := msg0, takenMsg := msg0, receiver := 0, irq := false, vector := 0
    wakeValid := false, wakeDomain := 0 }

/-- An empty slot of generation 1 (R392). -/
def keySlot0 : KeySlot := ⟨[], 0, 1, [], false⟩

/-- No message to the RoT. -/
def rotPort0 : RotPort := ⟨none, 0, []⟩

/-- Exchange registers at reset. -/
def exchange0 : Exchange := ⟨[], 0, 0, false, false, 0, 0⟩

/-- KEY_ registers at reset. -/
def key0 : KeyUnit :=
  { slots := [], stage := List.replicate 4 0, stageAttr := 0, wipe := false, code := 0, busy := false, done := false
    flash := none, debugOpen := false, tainted := false, failures := 0, lockedOut := false, rotFault := false
    nonceDebug := none, nonceLc := none, rot := [], xch := [] }

/-- Test-Logic-Reset selects IDCODE (R116). -/
def tap0 : Tap := ⟨.testLogicReset, 0x01, [], 0, 0⟩

/-- Lock-step off; DET_LSCFG.timeout is 100 (R526). -/
def lockstep0 : Lockstep :=
  { partner := 0, enable := false, timeout := 100, st := .off, cause := 0, postmark := 0, start := 0, sums := [], since := 0
    compared := 0, held := [], freezeAt := none }

/-- No barrier. -/
def barrier0 : Barrier := ⟨0, 0, false, 0, 0, false, false, [], []⟩

/-- The generator's registers at reset. -/
def detWin0 : DetWin := ⟨0, 0, 0⟩

/-- An untrained lane. -/
def trlLane0 : TrlLane := ⟨2, 0, false, 0, 0⟩

/-- The link before training; TRL_CTRL.hb is 10 (R526). -/
def trail0 : Trail :=
  { training := false, up := false, cameUp := false, lanes := [], delay := 0, master := false, drift := false, soloNext := false, solo := false, lost := false, startAt := none, hb := 10
    dropped := 0, unsent := 0, heard := [], newAt := 0, peers := [], joining := false, how := 0, who := 0 }

/-- The cclk at power-on: nothing counted, no bit set. -/
def cclkView0 : CclkView :=
  { clr := [], win := [], glob := glob0, cal := cal0, err := err0, rings := [], que := que0, xlt := xlt0, tbl := tblUnit0
    pwr := power0, key := key0, trl := trail0, qwin := [], xwin := [], gwin := [], twin := [], swin := [], pwin := []
    eventSet := 0, lateSet := 0, poisonSet := 0, faultSet := 0, holdLongest := 0 }

end Sys2Proof.Machine
end

