-- ==== Sys2Proof/Machine/Output.lean ====
section
/-! DEFINITION. What the block drives on its ports: one constructor per kind of transfer or pulse. The
model's own trace `State.out` lists them, newest first (log entry 2). -/

namespace Sys2Proof.Machine

/-- A character of a Trail lane (R504, R506): the comma K28.5, SOF K27.7, EOF K29.7, or a data character. -/
inductive TrlChar where
  | comma | sof | eof
  | data (b : Byte)
  deriving DecidableEq, Repr, Inhabited

/-- A transfer or pulse on an output port. -/
inductive Output where
  /-- hp_r, the internal port or DBG_REG: the answer of a register read, on hp_r with the tag of its request (R96). -/
  | regRead (data : Word) (tag : Option Nat := none)
  /-- The same of a 32-bit read: the half that address bit 2 selects. -/
  | regReadHalf (high : Bool) (data : BitVec 32) (tag : Option Nat := none)
  /-- mc_cmd of `lane` of `stack`: op 0 READ, 1 WRITE, 2 REFRESH, 3 MAINT (R106). -/
  | memCmd (stack lane op pch gidx tag : Nat) (wdata : List Byte) (wbe : BitVec 256)
  /-- mc_mg (R165). -/
  | margin (stack pch op arg : Nat)
  /-- hp_msix (R96). -/
  | msix (func vec : Nat)
  /-- hp_flr_done bit `f` (R98). -/
  | flrDone (f : Nat)
  /-- A read on hp_i: function, PASID, hp_i_at, address, length and tag. -/
  | hostRead (func : Nat) (pasid : Option Nat) (at' addr len tag : Nat)
  /-- A write on hp_i. -/
  | hostWrite (func : Nat) (pasid : Option Nat) (at' addr : Nat) (data : List Byte)
  /-- An ATS Translation Request on hp_i (hp_i_at 0b01). -/
  | atsRequest (func pasid page tag : Nat) (write : Bool)
  /-- A Page Request Message on hp_n. -/
  | pageRequest (func pasid page index : Nat) (write : Bool)
  /-- An Invalidate Completion on hp_n. -/
  | invalidateCompletion (func itag : Nat)
  /-- cp_freeze and cp_rst levels. -/
  | coreFreeze (core : Nat) (level : Bool)
  | coreReset (core : Nat) (level : Bool)
  /-- cp_pass. -/
  | pass (core tag addr : Nat) (fence : Bool)
  /-- cp_mr. -/
  | coreResp (core tag status : Nat) (data : List Byte)
  /-- cp_ib. -/
  | coreIb (core addr : Nat) (data : List Byte) (flag : Nat)
  /-- cp_urg_thr. -/
  | urgThr (core : Nat) (thr : List Nat)
  /-- fo_. -/
  | fabricReq (chip addr : Nat) (write : Bool) (ctx gen cls tag : Nat) (data : List Byte) (be : BitVec 256)
  /-- fs_. -/
  | fabricResp (tag status : Nat) (data : List Byte)
  /-- pwr_req of domain `d`. -/
  | powerReq (d state : Nat)
  /-- rot_q: a message (R401). -/
  | rotMsg (type seq origin : Nat) (payload : List Byte)
  /-- rot_k_done with rot_k_status. -/
  | rotKeyDone (status : Code)
  /-- A frame on the Trail: its 32-byte payload, and the characters of each working transmit lane (R506). -/
  | trail (payload : List Byte) (lanes : List (Nat × List TrlChar))
  /-- A training set on a transmit lane of the Trail, repeated while training runs (R504). -/
  | trainingSet (lane : Nat) (chars : List TrlChar)
  /-- A write of the serial flash (R77). -/
  | flashWrite (offset : Nat) (bytes : List Byte)
  /-- An erase of a region of the serial flash (R79). -/
  | flashErase (offset len : Nat)
  /-- tdo of a TAP data register scan: width and value. -/
  | tapShift (width value : Nat)
  /-- A firmware event of a control core (R427). -/
  | firmwareEvent (core : Nat)
  /-- Levels driven on the Trail and xSPI pins by EXTEST, by pin (R116, R122). -/
  | boundary (levels : List (Nat × Bool))
  /-- An access on the debug module interface (R412): the 41 bits. -/
  | dmi (bits : Nat)
  deriving DecidableEq, Repr, Inhabited

end Sys2Proof.Machine
end

