-- ==== Sys2Proof/Machine/State.lean ====
section
/-! DEFINITION. The state of the QPF-3 as plain data, its reset value, and the reasons a step can stop. -/

namespace Sys2Proof.Machine

/-- Why a step stops with a fault. -/
inductive Fault where
  /-- No command raises it: every command of the block has an effect the spec gives (safe). -/
  | none
  deriving DecidableEq, Repr

/-- Why a command is refused by the model. -/
inductive Refusal where
  /-- The model gives the command no meaning (safe); raised only by an arm of `exec`. -/
  | notModelled (mnemonic : String)
  deriving DecidableEq, Repr

/-- The state of the block. -/
structure State where
  clk : Clk
  boot : Boot
  img : Img
  glob : Glob
  clr : Tab Clearing
  win : Tab Window
  ctx : Tab Ctx
  cal : Cal
  err : ErrUnit
  /-- Error rings: 0 to 63 the clearings', 64 the global ring. -/
  rings : Tab ErrRing
  que : QueUnit
  queues : Tab Queue
  tasks : Tab (Option Task)
  /-- Accesses of the block, and the number of the next. -/
  acc : Tab (Option Acc)
  accNext : Nat
  xlt : XltUnit
  tbl : TblUnit
  sch : SchUnit
  pwr : Power
  mbx : Tab Mailbox
  key : KeyUnit
  tap : Tap
  trl : Trail
  ls : Tab Lockstep
  bar : Tab Barrier
  det : Tab DetWin
  /-- Window registers of queues, translation, engines, tables and cores. -/
  qwin : Tab QueWin
  xwin : Tab XltWin
  gwin : Tab GpeWin
  twin : Tab TblWin
  swin : Tab SchWin
  pwin : Tab PwrWin
  /-- The model's own: the cclk's start and its events (R10, R11). -/
  cc : CclkView
  /-- The model's own: transfers on the output ports, newest first (log entry 2). -/
  out : List Output
  /-- The model's own: commands that wait, first in, first out. -/
  pending : List Instr
  deriving DecidableEq, Repr

/-- The block right after power-on: every field at the value R526 gives, nothing in force. -/
def State.reset : State :=
  { clk := clk0, boot := boot0, img := img0, glob := glob0, clr := [], win := [], ctx := [], cal := cal0
    err := err0, rings := [], que := que0, queues := [], tasks := [], acc := [], accNext := 0, xlt := xlt0
    tbl := tblUnit0, sch := sch0, pwr := power0, mbx := [], key := key0, tap := tap0, trl := trail0, ls := [], bar := [], det := []
    qwin := [], xwin := [], gwin := [], twin := [], swin := [], pwin := [], cc := cclkView0, out := [], pending := [] }

end Sys2Proof.Machine
end

