-- ==== Sys2Proof/Machine/Ops.lean ====
section
/-! DEFINITION. Named operations over the state: sparse tables, accessors of each part, ownership,
time, the interleave hash, interrupts and the status registers of the windows. -/

namespace Sys2Proof.Machine

/-! Sparse tables. -/

/-- What a table holds at `i`; `d` where it lists nothing. -/
def tabGet {α : Type} (d : α) : Tab α → Nat → α
  | [], _ => d
  | (k, v) :: r, i => if k = i then v else tabGet d r i

/-- The table with an entry `v` at `i`, by rising number. -/
def tabPut {α : Type} : Tab α → Nat → α → Tab α
  | [], i, v => [(i, v)]
  | (k, w) :: r, i, v => if i < k then (i, v) :: (k, w) :: r else if i = k then (i, v) :: r else (k, w) :: tabPut r i v

/-- The table with `v` at `i`: it lists no entry equal to `d`. -/
def tabSet {α : Type} [DecidableEq α] (d : α) (t : Tab α) (i : Nat) (v : α) : Tab α :=
  if v = d then t.filter fun kv => kv.1 != i else tabPut t i v

/-- The table with `f` applied at `i`. -/
def tabUpd {α : Type} [DecidableEq α] (d : α) (t : Tab α) (i : Nat) (f : α → α) : Tab α :=
  tabSet d t i (f (tabGet d t i))

/-- The table with `f` applied to every entry; `f` leaves the default as it is. -/
def tabMap {α : Type} [DecidableEq α] (d : α) (f : α → α) (t : Tab α) : Tab α :=
  t.foldr (fun kv r => tabSet d r kv.1 (f kv.2)) []

/-- A table's canonical form: numbers strictly rising from `low`, no default entry. -/
def tabWfFrom {α : Type} [DecidableEq α] (d : α) (low : Nat) : Tab α → Bool
  | [] => true
  | (k, v) :: r => low ≤ k && !(v = d) && tabWfFrom d (k + 1) r

/-- A table is in canonical form. -/
def tabWf {α : Type} [DecidableEq α] (d : α) (t : Tab α) : Bool := tabWfFrom d 0 t

/-- `f` over a list of numbers, in order. -/
def forEach {α : Type} (xs : List α) (s : State) (f : State → α → State) : State := xs.foldl f s

/-! Accessors. -/

/-- Clearing `n`. -/
def getClr (s : State) (n : Nat) : Clearing := tabGet clr0 s.clr n

/-- `s` with clearing `n` at `c`. -/
def setClr (s : State) (n : Nat) (c : Clearing) : State := { s with clr := tabSet clr0 s.clr n c }

/-- `s` with `f` applied to clearing `n`. -/
def updClr (s : State) (n : Nat) (f : Clearing → Clearing) : State := setClr s n (f (getClr s n))

/-- Window `n`. -/
def getWin (s : State) (n : Nat) : Window := tabGet win0 s.win n

/-- `s` with `f` applied to window `n`. -/
def updWin (s : State) (n : Nat) (f : Window → Window) : State :=
  { s with win := tabSet win0 s.win n (f (getWin s n)) }

/-- Context `c`. -/
def getCtx (s : State) (c : Nat) : Ctx := tabGet ctx0 s.ctx c

/-- `s` with `f` applied to context `c`. -/
def updCtx (s : State) (c : Nat) (f : Ctx → Ctx) : State :=
  { s with ctx := tabSet ctx0 s.ctx c (f (getCtx s c)) }

/-- Pseudo-channel `p`. -/
def getPch (s : State) (p : Nat) : Pch := tabGet pch0 s.cal.pch p

/-- `s` with `f` applied to pseudo-channel `p`. -/
def updPch (s : State) (p : Nat) (f : Pch → Pch) : State :=
  { s with cal := { s.cal with pch := tabSet pch0 s.cal.pch p (f (getPch s p)) } }

/-- Error ring `r`, 64 the global one. -/
def getRing (s : State) (r : Nat) : ErrRing := tabGet ring0 s.rings r

/-- `s` with `f` applied to error ring `r`. -/
def updRing (s : State) (r : Nat) (f : ErrRing → ErrRing) : State :=
  { s with rings := tabSet ring0 s.rings r (f (getRing s r)) }

/-- `s` with `f` applied to the calendar. -/
def updCal (s : State) (f : Cal → Cal) : State := { s with cal := f s.cal }

/-- Queue `q`. -/
def getQueue (s : State) (q : Nat) : Queue := tabGet queue0 s.queues q

/-- `s` with `f` applied to queue `q`. -/
def updQueue (s : State) (q : Nat) (f : Queue → Queue) : State :=
  { s with queues := tabUpd queue0 s.queues q f }

/-- `s` with `f` applied to the queue unit. -/
def updQue (s : State) (f : QueUnit → QueUnit) : State := { s with que := f s.que }

/-- Task `t`. -/
def getTask (s : State) (t : Nat) : Option Task := tabGet none s.tasks t

/-- `s` with `f` applied to task `t`, where it is admitted. -/
def updTask (s : State) (t : Nat) (f : Task → Task) : State :=
  { s with tasks := tabUpd none s.tasks t fun x => x.map f }

/-- Envelope `e` of task `t`. -/
def getEnv (s : State) (t e : Nat) : Option EnvRun := (getTask s t).bind fun x => x.envs[e]?

/-- `s` with `f` applied to envelope `e` of task `t`. -/
def updEnv (s : State) (t e : Nat) (f : EnvRun → EnvRun) : State :=
  updTask s t fun x => { x with envs := x.envs.modify e f }

/-- Access `a`. -/
def getAcc (s : State) (a : Nat) : Option Acc := tabGet none s.acc a

/-- `s` with `f` applied to access `a`. -/
def updAcc (s : State) (a : Nat) (f : Acc → Acc) : State :=
  { s with acc := tabUpd none s.acc a fun x => x.map f }

/-- `s` without access `a`. -/
def dropAcc (s : State) (a : Nat) : State := { s with acc := tabSet none s.acc a none }

/-- Every access with its number. -/
def accList (s : State) : List (Nat × Acc) := s.acc.filterMap fun kv => kv.2.map fun a => (kv.1, a)

/-- Every admitted task with its number. -/
def taskList (s : State) : List (Nat × Task) := s.tasks.filterMap fun kv => kv.2.map fun t => (kv.1, t)

/-- `s` with `f` applied to translation. -/
def updXlt (s : State) (f : XltUnit → XltUnit) : State := { s with xlt := f s.xlt }

/-- `s` with `f` applied to the table and engine unit. -/
def updTbl (s : State) (f : TblUnit → TblUnit) : State := { s with tbl := f s.tbl }

/-- Descriptor `d`. -/
def getDesc (s : State) (d : Nat) : Tbl := tabGet tbl0 s.tbl.tbl d

/-- `s` with `f` applied to descriptor `d`. -/
def updDesc (s : State) (d : Nat) (f : Tbl → Tbl) : State := updTbl s fun u => { u with tbl := tabUpd tbl0 u.tbl d f }

/-- Engine `e`. -/
def getEngine (s : State) (e : Nat) : Engine := tabGet engine0 s.tbl.engines e

/-- `s` with `f` applied to engine `e`. -/
def updEngine (s : State) (e : Nat) (f : Engine → Engine) : State :=
  updTbl s fun u => { u with engines := tabUpd engine0 u.engines e f }

/-- `s` with `f` applied to the cores and jobs. -/
def updSch (s : State) (f : SchUnit → SchUnit) : State := { s with sch := f s.sch }

/-- Core `c`. -/
def getCore (s : State) (c : Nat) : Core := tabGet core0 s.sch.cores c

/-- `s` with `f` applied to core `c`. -/
def updCore (s : State) (c : Nat) (f : Core → Core) : State := updSch s fun u => { u with cores := tabUpd core0 u.cores c f }

/-- Job `j`: task × 1,024 + envelope. -/
def getJob (s : State) (j : Nat) : Option Job := tabGet none s.sch.jobs j

/-- `s` with `f` applied to job `j`. -/
def updJob (s : State) (j : Nat) (f : Job → Job) : State :=
  updSch s fun u => { u with jobs := tabUpd none u.jobs j fun x => x.map f }

/-- Every job with its number. -/
def jobList (s : State) : List (Nat × Job) := s.sch.jobs.filterMap fun kv => kv.2.map fun j => (kv.1, j)

/-- What context `c` has been charged in this tick. -/
def updAcct (s : State) (c : Nat) (f : CtxAcct → CtxAcct) : State := updSch s fun u => { u with acct := tabUpd ctxAcct0 u.acct c f }

/-- `s` with `f` applied to the queue registers of window `n`. -/
def updQwin (s : State) (n : Nat) (f : QueWin → QueWin) : State := { s with qwin := tabUpd queWin0 s.qwin n f }

/-- `s` with `f` applied to the translation registers of window `n`. -/
def updXwin (s : State) (n : Nat) (f : XltWin → XltWin) : State := { s with xwin := tabUpd xltWin0 s.xwin n f }

/-- `s` with `f` applied to the engine registers of window `n`. -/
def updGwin (s : State) (n : Nat) (f : GpeWin → GpeWin) : State := { s with gwin := tabUpd gpeWin0 s.gwin n f }

/-- `s` with `f` applied to the table registers of window `n`. -/
def updTwin (s : State) (n : Nat) (f : TblWin → TblWin) : State := { s with twin := tabUpd tblWin0 s.twin n f }

/-- `s` with `f` applied to the core registers of window `n`. -/
def updSwin (s : State) (n : Nat) (f : SchWin → SchWin) : State := { s with swin := tabUpd schWin0 s.swin n f }

/-- Power domain `d`. -/
def getDom (s : State) (d : Nat) : Domain := tabGet domain0 s.pwr.domains d

/-- Domain `d` is On and not on its way to Retain or Off: what works on it works at once (R112, R435). -/
def domainOn (s : State) (d : Nat) : Bool := (getDom s d).st == .on && ((getDom s d).req.all (· == .on))

/-- `s` with `f` applied to the power unit. -/
def updPwr (s : State) (f : Power → Power) : State := { s with pwr := f s.pwr }

/-- `s` with `f` applied to power domain `d`. -/
def updDom (s : State) (d : Nat) (f : Domain → Domain) : State :=
  updPwr s fun u => { u with domains := tabUpd domain0 u.domains d f }

/-- `s` with `f` applied to the power registers of window `n`. -/
def updPwin (s : State) (n : Nat) (f : PwrWin → PwrWin) : State := { s with pwin := tabUpd pwrWin0 s.pwin n f }

/-- Mailbox `m`. -/
def getMbx (s : State) (m : Nat) : Mailbox := tabGet mailbox0 s.mbx m

/-- `s` with `f` applied to mailbox `m`. -/
def updMbx (s : State) (m : Nat) (f : Mailbox → Mailbox) : State := { s with mbx := tabUpd mailbox0 s.mbx m f }

/-- `s` with `f` applied to keys and trust. -/
def updKey (s : State) (f : KeyUnit → KeyUnit) : State := { s with key := f s.key }

/-- Key slot `k`. -/
def getSlot (s : State) (k : Nat) : KeySlot := tabGet keySlot0 s.key.slots k

/-- `s` with `f` applied to key slot `k`. -/
def updSlot (s : State) (k : Nat) (f : KeySlot → KeySlot) : State := updKey s fun u => { u with slots := tabUpd keySlot0 u.slots k f }

/-- Exchange registers `x`: a window's, or KEY_XCMD's at 64. -/
def getXch (s : State) (x : Nat) : Exchange := tabGet exchange0 s.key.xch x

/-- `s` with `f` applied to exchange registers `x`. -/
def updXch (s : State) (x : Nat) (f : Exchange → Exchange) : State := updKey s fun u => { u with xch := tabUpd exchange0 u.xch x f }

/-- `s` with `f` applied to the Trail. -/
def updTrl (s : State) (f : Trail → Trail) : State := { s with trl := f s.trl }

/-- Lock-step of clearing `n`. -/
def getLs (s : State) (n : Nat) : Lockstep := tabGet lockstep0 s.ls n

/-- `s` with `f` applied to lock-step of clearing `n`. -/
def updLs (s : State) (n : Nat) (f : Lockstep → Lockstep) : State := { s with ls := tabUpd lockstep0 s.ls n f }

/-- Clearing `n` is frozen (R500). -/
def lsFrozen (s : State) (n : Nat) : Bool := (getLs s n).st == .frozen

/-- The barrier of clearing `n`. -/
def getBar (s : State) (n : Nat) : Barrier := tabGet barrier0 s.bar n

/-- `s` with `f` applied to the barrier of clearing `n`. -/
def updBar (s : State) (n : Nat) (f : Barrier → Barrier) : State := { s with bar := tabUpd barrier0 s.bar n f }

/-- Window `n`'s registers of each chapter. -/
def getQwin (s : State) (n : Nat) : QueWin := tabGet queWin0 s.qwin n
/-- As `getQwin`, of translation. -/
def getXwin (s : State) (n : Nat) : XltWin := tabGet xltWin0 s.xwin n
/-- As `getQwin`, of engines. -/
def getGwin (s : State) (n : Nat) : GpeWin := tabGet gpeWin0 s.gwin n
/-- As `getQwin`, of tables. -/
def getTwin (s : State) (n : Nat) : TblWin := tabGet tblWin0 s.twin n
/-- As `getQwin`, of cores. -/
def getSwin (s : State) (n : Nat) : SchWin := tabGet schWin0 s.swin n
/-- As `getQwin`, of power. -/
def getPwin (s : State) (n : Nat) : PwrWin := tabGet pwrWin0 s.pwin n

/-! One cclk (R10, R11). -/

/-- `s` with `f` applied to what the model holds of the cclk. -/
def updCc (s : State) (f : CclkView → CclkView) : State := { s with cc := f s.cc }

/-- A cclk opens: its start is the state as it stands, and no W1C bit has been set in it. -/
def openCclk (s : State) : State :=
  { s with cc := { clr := s.clr, win := s.win, glob := s.glob, cal := s.cal, err := s.err, rings := s.rings, que := s.que
                   xlt := s.xlt, tbl := s.tbl, pwr := s.pwr, key := s.key, trl := s.trl, qwin := s.qwin, xwin := s.xwin
                   gwin := s.gwin, twin := s.twin, swin := s.swin, pwin := s.pwin
                   eventSet := 0, lateSet := 0, poisonSet := 0, faultSet := 0, holdLongest := 0 } }

/-- The state whose RC fields are those of the cclk's start, less what reads of this cclk have cleared; only its RC
fields mean anything (R11). -/
def cclkStart (s : State) : State :=
  let v := s.cc
  { s with
    clr := v.clr, win := v.win, glob := v.glob, cal := v.cal, err := v.err, rings := v.rings, que := v.que, xlt := v.xlt
    tbl := v.tbl, pwr := v.pwr, key := v.key, trl := v.trl, qwin := v.qwin, xwin := v.xwin, gwin := v.gwin, twin := v.twin
    swin := v.swin, pwin := v.pwin, cc := { v with holdLongest := 0 } }

/-- `s`, whose cclk's start now reads as in `t`. -/
def keepStart (s t : State) : State :=
  updCc s fun v => { v with
    clr := t.clr, win := t.win, glob := t.glob, cal := t.cal, err := t.err, rings := t.rings, que := t.que, xlt := t.xlt
    tbl := t.tbl, pwr := t.pwr, key := t.key, trl := t.trl, qwin := t.qwin, xwin := t.xwin, gwin := t.gwin, twin := t.twin
    swin := t.swin, pwin := t.pwin }

/-- A transfer on an output port. -/
def emit (s : State) (o : Output) : State := { s with out := o :: s.out }

/-- The clearings of the device. -/
def allClearings : List Nat := List.range 64

/-- Clearing `n` is defined (R31: not Absent). -/
def defined (s : State) (n : Nat) : Bool := (getClr s n).st != .absent

/-- The defined clearings, ascending. -/
def definedClearings (s : State) : List Nat := allClearings.filter (defined s)

/-- Clearing `n` is a defined Fixed clearing. -/
def isFixed (s : State) (n : Nat) : Bool := defined s n && (getClr s n).cfg.fixed

/-- Clearing `n` is a defined Elastic clearing. -/
def isElastic (s : State) (n : Nat) : Bool := defined s n && !(getClr s n).cfg.fixed

/-! Ownership (R21, R23, R24). -/

/-- `x` lies in the range of `count` from `base`. -/
def inRange (base count x : Nat) : Bool := base ≤ x && x < base + count

/-- The defined clearing that satisfies `f`. -/
def ownerWhere (s : State) (f : ClearingCfg → Bool) : Option Nat :=
  (definedClearings s).find? fun n => f (getClr s n).cfg

/-- The clearing whose context range holds `c`. -/
def ctxOwner (s : State) (c : Nat) : Option Nat := ownerWhere s fun g => inRange g.ctxBase g.ctxCount c

/-- The clearing that owns plot `p`. -/
def plotOwner (s : State) (p : Nat) : Option Nat :=
  ownerWhere s fun g => g.plots.any fun r => inRange r.1 r.2 p

/-- The clearing that holds core pair `k`. -/
def pairOwner (s : State) (k : Nat) : Option Nat := ownerWhere s fun g => k < 64 && g.pairs.getLsbD k

/-- The clearing that holds core `c`: pair n holds cores 2n and 2n + 1 (R21). -/
def coreOwner (s : State) (c : Nat) : Option Nat := pairOwner s (c / 2)

/-- The clearing that holds engine `e`. -/
def engineOwner (s : State) (e : Nat) : Option Nat := ownerWhere s fun g => e < 64 && g.engines.getLsbD e

/-- The clearing that owns doorbell page `p`. -/
def dbPageOwner (s : State) (p : Nat) : Option Nat := ownerWhere s fun g => inRange g.dbBase g.dbCount p

/-- The clearing that owns queue `q`: 512 to a page (R21). -/
def queueOwner (s : State) (q : Nat) : Option Nat := dbPageOwner s (q / 512)

/-- The clearing that owns key slot `k`. -/
def keyOwner (s : State) (k : Nat) : Option Nat := ownerWhere s fun g => inRange g.keyBase g.keyCount k

/-- The contexts of clearing `n`. -/
def ctxsOf (s : State) (n : Nat) : List Nat :=
  (List.range (getClr s n).cfg.ctxCount).map (· + (getClr s n).cfg.ctxBase)

/-- The cores of clearing `n`. -/
def coresOf (s : State) (n : Nat) : List Nat :=
  (maskBits (getClr s n).cfg.pairs).flatMap fun p => [2 * p, 2 * p + 1]

/-- The engines of clearing `n`. -/
def enginesOf (s : State) (n : Nat) : List Nat := maskBits (getClr s n).cfg.engines

/-- Plots of clearing `n` in all (plots_total of R36). -/
def plotsTotal (g : ClearingCfg) : Nat := (g.plots.map (·.2)).sum

/-- The plots of a section, ascending. -/
def plotList (g : ClearingCfg) : List Nat := g.plots.flatMap fun r => (List.range r.2).map (· + r.1)

/-- The function that serves clearing `n` (R91, R92). -/
def servingFunc (s : State) (n : Nat) : Nat := if n < s.glob.numVfs then n + 1 else 0

/-- A table's declaration in force (R56): a commons of the image in force, or a clearing's own. -/
def declOf (s : State) (d : Nat) : Option TableDecl :=
  match (match s.img.force with | none => none | some im => im.commons.find? (·.desc == d)) with
  | some t => some t
  | none => (definedClearings s).findSome? fun n => (getClr s n).cfg.tables.find? (·.desc == d)

/-- Plot `p` holds commons rows (R55). -/
def commonsPlot (s : State) (p : Nat) : Bool :=
  match s.img.force with
  | none => false
  | some im => im.commonsPlots.any fun r => inRange r.1 r.2 p

/-! Requesters (R1, R422). -/

/-- The physical function's requester number. -/
def reqRanger : Requester := 0x01

/-- Clearing `n`'s tenant, on its virtual function. -/
def reqTenant (n : Nat) : Requester := BitVec.ofNat 8 (n + 2)

/-- The requester that writes through function `f`. -/
def funcRequester (f : Nat) : Requester := if f = 0 then reqRanger else reqTenant (f - 1)

/-- DBG_REG's requester number (R1). -/
def reqTap : Requester := 0xFE

/-- Privileged software: the Ranger, firmware, or DBG_REG while debug access is open (R1). -/
def privileged (s : State) (q : Requester) : Bool :=
  q == 0x01 || (q == 0xFE && s.key.debugOpen) || q == 0x80 || q == 0x81 || q == 0x82 || q == 0x83

/-- `q` reaches window `n`: its tenant driver, or privileged software (R2, R44). -/
def reachesWindow (s : State) (q : Requester) (n : Nat) : Bool := privileged s q || q == reqTenant n

/-! Time (R89, R150). -/

/-- cclk since the reset. -/
def nowCclk (s : State) : Nat := s.clk.tickStart + s.clk.cclk

/-- cclk since the reset of the cclk that a boundary opens: the one after this (R150). -/
def nextCclk (s : State) : Nat := nowCclk s + 1

/-- Before the first tick and after a failure the outputs of the ports that nothing drives stand at their reset values: in
phase 0, and in Stopped, which does nothing; inputs are then ignored (R86, R123, R146). -/
def inert (s : State) : Bool := s.boot.phase == .reset || s.boot.phase == .stopped

/-- The effect of an input of a port whose outputs the QPF-3 drives: ignored while they stand at their reset values (R86). -/
def heard (s : State) (f : State → State) : State := if inert s then s else f s

/-- cclk per ref_clk: the locked multiple, else the nominal 20 of R3 (log entry 6). -/
def cclkPerRef (s : State) : Nat := if s.clk.lock = 0 then 20 else s.clk.lock

/-- ref_clk periods since the reset. -/
def nowRef (s : State) : Nat := s.clk.refTick + s.clk.cclk / cclkPerRef s

/-- The tick length in force, in µs. -/
def tickUs (s : State) : Nat := match s.img.force with | none => 0 | some im => im.tickUs

/-- The first tick has come (R123, phase 8). -/
def running (s : State) : Bool := s.boot.phase == .running

/-! The interleave hash (R154). -/

/-- mix of R154. -/
def mix32 (x : BitVec 32) : BitVec 32 :=
  let x := x ^^^ (x >>> 16)
  let x := x * 0x9E2D63A7
  let x := x ^^^ (x >>> 15)
  let x := x * 0xC14F3B2D
  x ^^^ (x >>> 16)

/-- The home pseudo-channel of local plot address `a` (R154). -/
def homePch (a : Nat) : Nat :=
  let g := a / 256
  let h := (mix32 (BitVec.ofNat 32 (g / 1280))).toNat
  let t := (g % 1280 + h % 1280) % 1280
  t / 256 % 8 * 256 + Nat.xor (t % 256) (h / 65536 % 256)

/-- The granule index on the home (R154). -/
def homeGidx (a : Nat) : Nat := a / 256 / 1280

/-! Status registers (R14, R527, R528). -/

/-- Record a checked write's status in the window's status register, or the global one. -/
def recordStatus (s : State) (win : Option Nat) (q : Requester) (c : Code) : State :=
  let more := if c = qsOk then 0 else 1
  match win with
  | some n => updWin s n fun w => { w with code := c, refused := w.refused + more }
  | none =>
    { s with glob := { s.glob with
        code := c, refused := s.glob.refused + more, requester := q.toNat } }

/-- Record the status of a refused read: its code alone, for the register counts and names writes (R6, R14, R527, R528). -/
def recordRead (s : State) (win : Option Nat) (c : Code) : State :=
  match win with
  | some n => updWin s n fun w => { w with code := c }
  | none => { s with glob := { s.glob with code := c } }

/-! Interrupts (R43, R96). -/

/-- An MSI-X request. -/
def msix (s : State) (func vec : Nat) : State := emit s (.msix func vec)

/-- Clearing `n` changed state or was reissued its manifest (R43): one interrupt request for each event, and none again after
a write that leaves bits set (log entry 134). -/
def clrEvent (s : State) (n : Nat) : State :=
  let s := updCc s fun v => { v with eventSet := setBit v.eventSet n true }
  msix { s with glob := { s.glob with event := setBit s.glob.event n true } } 0 Config.clearingEventVector

end Sys2Proof.Machine
end

