-- ==== Sys2Proof/Machine/LockBase.lean ====
section
/-! DEFINITION. The counter-based generator (R495, R496) and the digest of a clearing's writes in lock-step
(R498). -/

namespace Sys2Proof.Machine

/-- K0 of R495. -/
def detK0 : Word := 0x9C5B3E27A1D46F8B
/-- K1 of R495. -/
def detK1 : Word := 0xE3A716C95B0DF275
/-- KW of R495. -/
def detKW : Word := 0x6A3D9F15C2B74E81

/-- mix of R495. -/
def detMix (x : Word) : Word :=
  let x := (x ^^^ (x >>> 31)) * detK0
  let x := (x ^^^ (x >>> 29)) * detK1
  x ^^^ (x >>> 32)

/-- det_gen of R495. -/
def detGen (seed : Word) (site : Nat) (ctr : Word) : Word :=
  ((List.range 4).foldl (fun (a : Word × Word) _ => (a.1 + detKW, detMix (a.2 ^^^ (a.1 + detKW))))
    (detMix seed ^^^ (word (site % 2 ^ 32) * detKW), ctr)).2

/-- wh of R498: the address of the granule, its 32 data words and the 4 words of byte enables. -/
def writeHash (a : Nat) (ws : List Word) : Nat :=
  let r := ws.foldl (fun (h : Word × Word) w => (detMix (h.1 ^^^ w), detMix (h.2.rotateLeft 17 + w)))
    (detMix (word a ^^^ detK0), detMix (word a ^^^ detK1))
  r.2.toNat * 2 ^ 64 + r.1.toNat

/-- The 36 words that a granule write is hashed over: disabled bytes as zero. -/
def hashWords (data : List Byte) (be : BitVec 256) : List Word :=
  let bs := (List.range 256).map fun i => if be.getLsbD i then (data[i]?).getD 0 else 0
  ((List.range 32).map fun k => word (leAt bs (8 * k) 8)) ++ (List.range 4).map fun k => word (be.toNat / 2 ^ (64 * k))

/-- A granule write at device address `a`, of a task admitted in postmark `pin`, is folded into the digest of
clearing `n` (R498). -/
def foldGranule (s : State) (n pin a : Nat) (data : List Byte) (be : BitVec 256) : State :=
  let l := getLs s n
  if l.st = .off || pin < l.start then s
  else updLs s n fun l => { l with sums := tabUpd 0 l.sums pin fun x => (x + writeHash a (hashWords data be)) % 2 ^ 128 }

/-- Split a run of bytes at 256-byte boundaries: granule address, offset and bytes. -/
def granuleRuns : Nat → Nat → List Byte → List (Nat × Nat × List Byte)
  | 0, _, _ => []
  | fuel + 1, a, bs =>
    if bs = [] then []
    else
      let k := min bs.length (256 - a % 256)
      (a / 256 * 256, a % 256, bs.take k) :: granuleRuns fuel (a + k) (bs.drop k)

/-- A write that `foldGranule` has folded and that is refused after all leaves the sum again (R356, R498). -/
def unfoldGranule (s : State) (n pin a : Nat) (data : List Byte) (be : BitVec 256) : State :=
  let l := getLs s n
  if l.st = .off || pin < l.start then s
  else updLs s n fun l =>
    { l with sums := tabUpd 0 l.sums pin fun x => (x + (2 ^ 128 - writeHash a (hashWords data be) % 2 ^ 128)) % 2 ^ 128 }

/-- A write of a run of bytes at device address `a` is folded granule by granule. -/
def foldRun (s : State) (n pin a : Nat) (bs : List Byte) : State :=
  if (getLs s n).st = .off then s
  else forEach (granuleRuns (bs.length / 256 + 2) a bs) s fun s r =>
    foldGranule s n pin r.1 (zeroBytes r.2.1 ++ r.2.2) (maskOf 256 ((List.range r.2.2.length).map (· + r.2.1)))

end Sys2Proof.Machine
end

