-- ==== Sys2Proof/Machine/CalStore.lean ====
section
/-! DEFINITION. The request stores of the pseudo-channels (R158, R159, R193, R194): which store a
request enters, whether an entry is free, and the outstanding count of R200. -/

namespace Sys2Proof.Machine

/-- The guest that the DEVICE section in force names for `p` (R52, R171). -/
def guestOf (s : State) (p : Nat) : Nat :=
  match s.img.force with
  | none => p
  | some im => p / 64 * 64 + im.guest.getD p (p % 64)

/-- mc_rd_lat of a stack (R105). -/
def readLatency (s : State) (stack : Nat) : Nat := s.boot.rdLat.getD stack 0

/-- `a` entered before `b`: in an earlier cclk, or in the same one and earlier in the source order (R158). -/
def older (a b : MemReq) : Bool :=
  a.entered < b.entered || (a.entered == b.entered && (a.rank < b.rank || (a.rank == b.rank && a.order < b.order)))

/-- The pseudo-channel whose stores hold the requests homed on `p`: its guest while it is remapped
(R171). -/
def storePch (s : State) (p : Nat) : Nat :=
  if (getPch s p).st = .remapped then (getPch s p).partner else p

/-- Every request in the stores of a pseudo-channel. -/
def pchRequests (c : Pch) : List MemReq :=
  c.fixed.flatMap (·.2) ++ c.elastic ++ c.own ++ c.scrub

/-- The stores of `p` hold twice their entries: while it hosts, and until every request of a restored
pseudo-channel has left them (R159). -/
def doubled (p : Nat) (c : Pch) : Nat :=
  if c.st = .hosting || (pchRequests c).any (fun r => r.home != p) then 2 else 1

/-- M, L and O of class `c` of clearing `n`. -/
def getMeas (s : State) (n c : Nat) : ClassMeas := ((getClr s n).classes[c]?).getD meas0

/-- `s` with `f` applied to class `c` of clearing `n`. -/
def updMeas (s : State) (n c : Nat) (f : ClassMeas → ClassMeas) : State :=
  updClr s n fun k => { k with classes := k.classes.modify c f }

/-- B(n, c) in force. -/
def budgetOf (s : State) (n c : Nat) : Nat := ((getClr s n).tun.budget[c]?).getD 0

/-- Clearing `n` is over budget in class `c` (R200). -/
def overBudget (s : State) (n c : Nat) : Bool := (getMeas s n c).outstanding > budgetOf s n c

/-- O as it stood in absolute cclk `t` (R200). -/
def outstandingAt (m : ClassMeas) (t : Nat) : Nat :=
  if m.history = [] then m.outstanding else ((m.history.find? fun e => e.1 ≤ t).map (·.2)).getD 0

/-- Clearing `n` is over budget in class `c` at an arbitration for a presentation in absolute cclk `at'` (R200). -/
def overBudgetAt (s : State) (n c at' : Nat) : Bool := outstandingAt (getMeas s n c) (at' - 4) > budgetOf s n c

/-- The history of O once it is `v` from cclk `now` on; entries that no arbitration still to come reads are dropped. -/
def noteHistory (now v : Nat) (h : List (Nat × Nat)) : List (Nat × Nat) :=
  let h := h.filter fun e => e.1 != now
  (now, v) :: (h.takeWhile (fun e => now < e.1 + 64) ++ (h.dropWhile fun e => now < e.1 + 64).take 1)

/-- Elastic clearings that the image in force defines (R193). -/
def elasticClearings (s : State) : List Nat := (definedClearings s).filter (isElastic s)

/-- The entry that a request of Elastic clearing `n` finds in the store of `p`: a reserved one (true), a shared one
(false) where `mayShare`, or none (R193, R194). -/
def elasticRoom (s : State) (p n : Nat) (mayShare : Bool) : Option Bool :=
  let k := getPch s p
  let d := doubled p k
  let mine := (k.elastic.filter fun r => r.reserved && r.clearing == some n).length
  let shared := (k.elastic.filter fun r => !r.reserved).length
  if mine < 4 * d then some true
  else if mayShare && shared < 256 * d - 4 * d * (elasticClearings s).length then some false
  else none

/-- How an Elastic request of clearing `n` may enter the store of `p` (R193, R194). -/
def elasticEntry (s : State) (p n c : Nat) : Option Bool := elasticRoom s p n (!overBudget s n c)

/-- Whether the store of `p` for a request has a free entry, and whether it would be a reserved one; `mayShare`: an
Elastic request may take a shared one. -/
def storeRoom (s : State) (p : Nat) (r : MemReq) (mayShare : Bool) : Option Bool :=
  let k := getPch s p
  let d := doubled p k
  match r.src, r.clearing with
  | .scrub _, _ | .acc _ _, none => if k.scrub.length < 4 * d then some false else none
  | _, none => if k.own.length < 16 * d then some false else none
  | _, some n =>
    if isFixed s n then
      if (tabGet [] k.fixed n).length < 16 * d then some false else none
    else elasticRoom s p n mayShare

/-- Whether the store that `r` enters has a free entry, and whether it would be a reserved one. -/
def storeEntry (s : State) (r : MemReq) : Option Bool :=
  storeRoom s (storePch s r.home) r (match r.clearing with
    | none => false
    | some n => !overBudget s n r.cls)

/-- Put a request into the store of its kind on `p`. R159 names no store for the accounting records of R343; they go
into the scrub store (log entry 124). -/
def pushStore (s : State) (p : Nat) (r : MemReq) : State :=
  match r.src, r.clearing with
  | .scrub _, _ | .acc _ _, none => updPch s p fun k => { k with scrub := k.scrub ++ [r] }
  | _, none => updPch s p fun k => { k with own := k.own ++ [r] }
  | _, some n =>
    if isFixed s n then updPch s p fun k => { k with fixed := tabUpd [] k.fixed n (· ++ [r]) }
    else updPch s p fun k => { k with elastic := k.elastic ++ [r] }

/-- Count a request in or out of O(n, c) (R200). -/
def countOutstanding (s : State) (r : MemReq) (up : Bool) : State :=
  match r.clearing with
  | none => s
  | some n =>
    if isElastic s n then
      updMeas s n r.cls fun m =>
        let o := if up then m.outstanding + 1 else m.outstanding - 1
        { m with outstanding := o, history := noteHistory (nowCclk s) o m.history }
    else s

/-- The request enters its home's store in this cclk; none while no entry is open to it, and ready
then stays 0 toward its source (R159, R193). -/
def enterStore (s : State) (r : MemReq) : Option State :=
  let r := { r with
    home := homePch r.addr, gidx := homeGidx r.addr, entered := nowCclk s, tick := s.clk.postmark
    order := s.cal.order }
  match storeEntry s r with
  | none => none
  | some res =>
    let s := updCal s fun c => { c with order := c.order + 1 }
    some (countOutstanding (pushStore s (storePch s r.home) { r with reserved := res }) r true)

/-- A request of the block's own traffic to plots 0 to 7, of `data` at `addr` (R157, R529). -/
def ownReq (src : MemSrc) (write : Bool) (addr : Nat) (data : List Byte) : MemReq :=
  let o := addr % 256
  { src := src, write := write, addr := addr / 256 * 256, data := zeroBytes o ++ data
    be := maskOf 256 ((List.range data.length).map (· + o)), clearing := none, ctx := 0, gen := 0, cls := 0
    entered := 0, tick := 0, rank := 0, order := 0, home := 0, gidx := 0, reserved := false, again := false }

end Sys2Proof.Machine
end

