-- ==== Sys2Proof/Machine/ErrorOps.lean ====
section
/-! DEFINITION. Error records: their staging, coalescing and issue (R444 to R453), and the bytes of a
record. -/

namespace Sys2Proof.Machine

/-- The global ring's number in `State.rings`. -/
def globalRing : Nat := 64

/-- Records a ring holds (R449). -/
def ringSize (r : Nat) : Nat := if r = globalRing then 4096 else 256

/-- Staging entries of a ring (R451). -/
def ringStage (r : Nat) : Nat := if r = globalRing then 64 else 16

/-- Local plot address of a ring (R449). -/
def ringBase (r : Nat) : Nat := if r = globalRing then 0x7BEC0000 else 0x7BF00000 + 0x4000 * r

/-- A record of an event now: code, severity, source, unit and details (R444, R447). -/
def newRec (s : State) (code : Code) (sev src unit d0 d1 d2 : Nat) : ErrRec :=
  { code := code, severity := sev, source := src, unit := unit, clearing := none, ctx := none
    generation := 0, coalesced := false, lostBefore := false, startup := false, copy := false, count := 1
    postmark := s.clk.postmark, cclk := s.clk.cclk, detail0 := d0, detail1 := d1, detail2 := d2, tag := 0
    queue := none }

/-- Two records have the same key (R451). -/
def sameKey (a b : ErrRec) : Bool :=
  a.code == b.code && a.source == b.source && a.unit == b.unit && a.clearing == b.clearing && a.ctx == b.ctx

/-- Merge `r` into the youngest staged record of its key (R451). -/
def mergeYoungest (r : ErrRec) (es : List ErrRec) : List ErrRec :=
  let rec go : List ErrRec → List ErrRec
    | [] => []
    | y :: rest =>
      if sameKey y r then
        { r with count := holdAt 32 (y.count + r.count), coalesced := true, lostBefore := y.lostBefore } :: rest
      else y :: go rest
  (go es.reverse).reverse

/-- Records of one cclk are staged in ascending order of source and then unit (R451): `r` goes behind the
records of earlier cclk and the records of this cclk that come before it. -/
def insertRec (r : ErrRec) (es : List ErrRec) : List ErrRec :=
  let later := fun (e : ErrRec) => !r.startup && !e.startup && e.postmark == r.postmark && e.cclk == r.cclk &&
    (r.source < e.source || (r.source == e.source && r.unit < e.unit))
  let tail := (es.reverse.takeWhile later).reverse
  es.take (es.length - tail.length) ++ r :: tail

/-- Stage a record in a ring's buffer (R451). -/
def stageRec (cap : Nat) (g : ErrRing) (r : ErrRec) : ErrRing :=
  if 2 ≤ (g.staged.filter (sameKey r)).length then
    { g with staged := mergeYoungest r g.staged, coalesced := g.coalesced + r.count }
  else if cap ≤ g.staged.length + (if g.issued.isSome then 1 else 0) then
    { g with lost := g.lost + r.count, lostFlag := true }
  else
    { g with staged := g.staged ++ [{ r with lostBefore := g.lostFlag }], lostFlag := false }

/-- A record reaches ring `k`, to be staged with the others of its cclk. -/
def stageIn (s : State) (k : Nat) (r : ErrRec) : State := updRing s k fun g => { g with arrivals := insertRec r g.arrivals }

/-- What has reached a ring is staged, before it issues (R451). -/
def settleRing (cap : Nat) (g : ErrRing) : ErrRing := g.arrivals.foldl (stageRec cap) { g with arrivals := [] }

/-- A start-up event is held for the first tick, at most 32 of them (R139). -/
def holdRec (s : State) (r : ErrRec) : State :=
  if s.err.held.length < 32 then
    { s with err := { s.err with held := s.err.held ++ [{ r with startup := true }] } }
  else updRing s globalRing fun g => { g with lost := g.lost + r.count }

/-- A record reaches its rings: the global one, and its clearing's (R446). -/
def raise (s : State) (r : ErrRec) : State :=
  if !running s then holdRec s r
  else
    let s := stageIn s globalRing r
    match r.clearing with
    | none => s
    | some n => stageIn s n r

/-- The copy of a device-wide record for clearing `n`: without context, tag and queue, but where the record names `n` as the
clearing whose request caused it (R446). -/
def copyRec (r : ErrRec) (n : Nat) : ErrRec :=
  if r.clearing = some n then { r with copy := true }
  else { r with clearing := some n, copy := true, ctx := none, generation := 0, tag := 0, queue := none }

/-- A device-wide record: once to the global ring, with clearing 0xFF, and a copy to each affected clearing (R446). Until then its
clearing field names the one whose request caused it, where there is one. -/
def raiseWide (s : State) (r : ErrRec) (affected : List Nat) : State :=
  if !running s then holdRec s r
  else forEach affected (stageIn s globalRing { r with clearing := none }) fun s n => stageIn s n (copyRec r n)

/-- The 64 bytes of a record with its place `seq` in its ring (R444). -/
def recBytes (r : ErrRec) (seq : Nat) : List Byte :=
  let flags := bit r.ctx.isSome + 2 * bit r.coalesced + 4 * bit r.lostBefore + 8 * bit r.startup + 16 * bit r.copy
  leBytes 2 r.code.toNat ++ leBytes 1 r.severity ++ leBytes 1 r.source ++ leBytes 2 r.unit ++
    leBytes 1 (r.clearing.getD 0xFF) ++ leBytes 1 flags ++ leBytes 2 (r.ctx.getD 0) ++
    leBytes 2 r.generation ++ leBytes 4 r.count ++ leBytes 8 r.postmark ++ leBytes 4 r.cclk ++
    leBytes 4 seq ++ leBytes 8 r.detail0 ++ leBytes 8 r.detail1 ++ leBytes 8 r.detail2 ++
    leBytes 4 r.tag ++ leBytes 4 (match r.queue with | none => 0 | some q => q + 2 ^ 31)

/-- u32 difference of free-running pointers. -/
def ringUsed (g : ErrRing) : Nat := (2 ^ 32 - g.head + g.tail) % 2 ^ 32

/-- Ring `k` stages what has reached it, and issues its next record when none is at the memory and the ring is not
full (R450, R451). -/
def ringIssue (s : State) (k : Nat) : State :=
  let s := updRing s k (settleRing (ringStage k))
  let g := getRing s k
  match g.issued, g.staged with
  | none, r :: rest =>
    if ringUsed g = ringSize k then s
    else
      match enterStore s (ownReq (.errRing k) true (ringBase k + 64 * (g.tail % ringSize k)) (recBytes r g.tail)) with
      | none => s
      | some s => updRing s k fun g => { g with staged := rest, issued := some r }
  | _, _ => s

/-- Every ring that has a record waiting issues it: at the end of a cclk, after all that the cclk
staged (R451). -/
def ringIssueAll (s : State) : State := forEach (s.rings.map (·.1)) s ringIssue

/-- The function and vector of a ring's interrupt, where it has one (R452). -/
def ringVector (s : State) (k : Nat) : Option (Nat × Nat × Nat) :=
  if k = globalRing then
    if wbit s.err.ctrl 0 then some (0, field s.err.ctrl 1 6, field s.err.ctrl 7 2) else none
  else
    let w := (getWin s k).errCtrl
    if wbit w 0 && k < s.glob.numVfs then some (k + 1, field w 1 4, field w 5 2) else none

/-- Nothing is left of a ring, but for whether its interrupt was raised in this tick (R452, R453). -/
def emptied (g : ErrRing) : ErrRing := { ring0 with raised := g.raised }

/-- RECORD_COMMIT: the WRITE of ring `k`'s issued record is answered (R450, R452); a ring that an APPLY is emptying is then
emptied (R453). -/
def ringCommit (s : State) (k : Nat) : State :=
  let g := getRing s k
  match g.issued with
  | none => s
  | some r =>
    let s := updRing s k fun g =>
      { g with
        issued := none, tail := (g.tail + 1) % 2 ^ 32
        entries := tabSet none g.entries (g.tail % ringSize k) (some r) }
    let s := match ringVector s k with
      | some (f, v, least) =>
        if least ≤ r.severity && !g.raised then
          msix (updRing s k fun g => { g with raised := true }) f v
        else s
      | none => s
    if g.emptying then updRing s k emptied else s

/-- A run-time APPLY empties ring `n`: a record already issued commits first; then staged records are dropped, and its entries,
pointers and counters zeroed (R453). -/
def emptyRing (s : State) (n : Nat) : State :=
  updRing s n fun g => if g.issued.isSome then { g with emptying := true } else emptied g

/-- The word `w` of ring `k`'s entry `i` (R484): zero where nothing has been written (log entry 7). The
seq of an entry is the latest position that falls on it. -/
def ringWord (s : State) (k i w : Nat) : Word :=
  let g := getRing s k
  match tabGet none g.entries i with
  | none => 0
  | some r =>
    let size := ringSize k
    let back := (g.tail + 2 ^ 32 - 1 - i) % size
    word (leAt (recBytes r ((g.tail + 2 ^ 32 - 1 - back) % 2 ^ 32)) (8 * w) 8)

end Sys2Proof.Machine
end

