-- ==== Sys2Proof/Machine/KeyDerive.lean ====
section
/-! DEFINITION. The keys of the root of trust: the BCH code and root regeneration (R385), enrolment's
helper data (R386), and the keys derived from the life-cycle root (R387, R388). -/

namespace Sys2Proof.Machine

/-! GF(2^8) with x^8 + x^4 + x^3 + x^2 + 1, elements as numbers below 256 (R385). -/

/-- Multiply by x. -/
def gfX (a : Nat) : Nat := if a < 128 then 2 * a else Nat.xor (2 * a) 0x11D

/-- The product. -/
def gfMul (a b : Nat) : Nat :=
  ((List.range 8).foldl (fun (acc, x) i => (if b.testBit i then Nat.xor acc x else acc, gfX x)) (0, a)).1

/-- a to the n. -/
def gfPow (a n : Nat) : Nat := (List.range n).foldl (fun acc _ => gfMul acc a) 1

/-- The inverse, a^254. -/
def gfInv (a : Nat) : Nat := gfPow a 254

/-- x^n, the n-th power of the primitive element. -/
def gfAlpha (n : Nat) : Nat := (List.range (n % 255)).foldl (fun acc _ => gfX acc) 1

/-- Value at `z` of a polynomial, lowest coefficient first. -/
def gfEval (p : List Nat) (z : Nat) : Nat := p.foldr (fun c acc => Nat.xor c (gfMul acc z)) 0

/-- Sum of two polynomials, lowest coefficient first. -/
def gfAdd : List Nat → List Nat → List Nat
  | [], q => q
  | p, [] => p
  | a :: p, b :: q => Nat.xor a b :: gfAdd p q

/-- A polynomial times `c` x^n. -/
def gfShift (p : List Nat) (c n : Nat) : List Nat := List.replicate n 0 ++ p.map (gfMul c)

/-- The product of two polynomials. -/
def gfPolyMul (p : List Nat) : List Nat → List Nat
  | [] => []
  | c :: q => gfAdd (p.map (gfMul c)) (0 :: gfPolyMul p q)

/-- The cyclotomic coset of `j` modulo 255. -/
def bchCoset (j : Nat) : List Nat := ((List.range 8).map fun i => j * 2 ^ i % 255).dedup

/-- Generator of the narrow-sense code of designed distance 37: roots at powers 1 to 36 (R385). -/
def bchGenerator : List Nat :=
  (((List.range 36).flatMap fun i => bchCoset (i + 1)).dedup).foldl
    (fun g e => gfPolyMul g [gfAlpha e, 1]) [1]

/-- A code word's polynomial: its first bit is the coefficient of x^254 (log entry 8). -/
def bchPoly (c : List Bool) : List Nat := (c.map bit).reverse

/-- Remainder of a binary polynomial, highest coefficient first, by the generator of degree `d`. -/
def bchReduce (g : List Nat) : Nat → List Nat → List Nat
  | 0, p => p
  | n + 1, p =>
    match p with
    | [] => []
    | c :: r => bchReduce g n (if c = 0 then r else gfAdd r (g.reverse.drop 1))

/-- The 255-bit systematic code word of 131 message bits, message first (R385). -/
def bchEncode (m : List Bool) : List Bool :=
  m ++ (bchReduce bchGenerator m.length (m.map bit ++ List.replicate 124 0)).map (· != 0)

/-- The 36 syndromes of a word. -/
def bchSyndromes (c : List Bool) : List Nat := (List.range 36).map fun j => gfEval (bchPoly c) (gfAlpha (j + 1))

/-- Berlekamp and Massey's recursion: the locator so far, the last one before a length change, the
length, the gap and the last discrepancy. -/
structure BmState where
  loc : List Nat
  old : List Nat
  len : Nat
  gap : Nat
  disc : Nat
  deriving DecidableEq, Repr

/-- One step of the recursion, at syndrome `n`. -/
def bmStep (syn : List Nat) (t : BmState) (n : Nat) : BmState :=
  let d := (List.range (t.len + 1)).foldl
    (fun acc i => Nat.xor acc (gfMul (t.loc.getD i 0) (syn.getD (n - i) 0))) 0
  if d = 0 then { t with gap := t.gap + 1 }
  else
    let loc := gfAdd t.loc (gfShift t.old (gfMul d (gfInv t.disc)) t.gap)
    if 2 * t.len ≤ n then ⟨loc, t.loc, n + 1 - t.len, 1, d⟩ else { t with loc := loc, gap := t.gap + 1 }

/-- Bounded-distance decoding: the message of the code word within 18 errors, or none (R385). -/
def bchDecode (c : List Bool) : Option (List Bool) :=
  let t := (List.range 36).foldl (bmStep (bchSyndromes c)) ⟨[1], [1], 0, 1, 1⟩
  let wrong := (List.range 255).filter fun i => gfEval t.loc (gfAlpha (255 - (254 - i))) = 0
  let fixed := c.zipIdx.map fun bi => if wrong.contains bi.2 then !bi.1 else bi.1
  if wrong.length ≤ 18 && (bchSyndromes fixed).all (· == 0) then some (fixed.take 131) else none

/-! Bits and bytes. -/

/-- Bits of bytes, bit i in bit i mod 8 of byte i div 8. -/
def bitsOf (bs : List Byte) : List Bool := bs.flatMap fun b => (List.range 8).map b.getLsbD

/-- Bytes of bits, likewise. -/
def bytesOf (n : Nat) (bits : List Bool) : List Byte :=
  (List.range n).map fun i => BitVec.ofNat 8
    ((List.range 8).foldl (fun a k => a + (if bits.getD (8 * i + k) false then 2 ^ k else 0)) 0)

/-- Majority of five bits. -/
def majority (bs : List Bool) : Bool := 3 ≤ (bs.filter id).length

/-- The device root of a 64-byte seed, and its check value (R385). -/
def rootOfSeed (seed : List Byte) : List Byte :=
  (digestBytes (Config.hkdfExtract (asciiBytes "QPF3-PUF") seed)).take 32

/-- The check value of R385. -/
def rootCheck (root : List Byte) : List Byte := Config.hkdfExpand root (asciiBytes "QPF3-CHK") 32

/-- Regenerate the root from the PUF's bits and the helper region (R385); none: the check fails. -/
def regenRoot (puf : List Bool) (helper : List Byte) : Option (List Byte) :=
  let n := ((puf.take 5100).zip (bitsOf (sliceAt helper 0x30 640))).map fun ab => xor ab.1 ab.2
  let c := (List.range 1020).map fun i => majority ((n.drop (5 * i)).take 5)
  match ((List.range 4).map fun b => bchDecode ((c.drop (255 * b)).take 255)).mapM id with
  | none => none
  | some ms =>
    let m := ms.flatten
    let root := rootOfSeed (bytesOf 64 m)
    if sliceAt helper 0 8 == asciiBytes "QPFHLP03" && leAt helper 8 2 == 1 &&
        (m.drop 512).all (! ·) && rootCheck root == sliceAt helper 0x10 32
    then some root else none

/-- Bytes 0x0000 to 0x7FFF of the helper region for a seed, and pass_valid 0 (R386). -/
def enrolBytes (puf : List Bool) (seed : List Byte) : List Byte :=
  let m := bitsOf seed ++ List.replicate 12 false
  let c := (List.range 4).flatMap fun b => bchEncode ((m.drop (131 * b)).take 131)
  let rep := c.flatMap fun x => List.replicate 5 x
  let syn := (rep.zip (puf.take 5100)).map fun ab => xor ab.1 ab.2
  asciiBytes "QPFHLP03" ++ leBytes 2 1 ++ zeroBytes 6 ++ rootCheck (rootOfSeed seed) ++
    bytesOf 640 syn ++ zeroBytes 32080 ++ [0]

/-! Keys (R387). -/

/-- root_lc(s) of R387. -/
def lcRoot (root : List Byte) (lc : Nat) : List Byte :=
  Config.hkdfExpand (digestBytes (Config.hkdfExtract (zeroBytes 48) root))
    (asciiBytes "QPF3-LC" ++ leBytes 1 lc) 48

/-- A key derived from root_lc (R387). -/
def lcKey (root : List Byte) (lc : Nat) (info : String) : List Byte :=
  Config.hkdfExpand (lcRoot root lc) (asciiBytes info) 48

/-- The order n of the P-384 group, which R387 names. PRESUMED: the standard's value (log entry 9). -/
def p384Order : Nat :=
  0xffffffffffffffffffffffffffffffffffffffffffffffffc7634d81f4372ddf581a0db248b0a77aecec196accc52973

/-- The attestation private scalar of R387, 48 bytes big-endian. -/
def attestKey (root : List Byte) (lc : Nat) : List Byte :=
  beBytes 48 (leAt (lcKey root lc "QPF3-AK").reverse 0 48 % (p384Order - 1) + 1)

/-- key_id of R388: SHA-384 of the attestation public key. -/
def keyId (root : List Byte) (lc : Nat) : List Byte :=
  digestBytes (Config.sha384 (Config.ecdsaPublic (attestKey root lc)))

end Sys2Proof.Machine
end

