-- ==== Sys2Proof/Machine/Manifest.lean ====
section
/-! DEFINITION. The manifest: its contents (R36), its issue (R38, R39, R45) and its replacement. -/

namespace Sys2Proof.Machine

/-- The power domains that a section owns (R23). -/
def domainsOwned (g : ClearingCfg) : List Nat :=
  maskBits g.pairs ++ ((List.range 8).filter fun k =>
    (List.range 8).all fun i => g.engines.getLsbD (8 * k + i)).map (· + 64)

/-- Pseudo-channels in a state. -/
def pchsIn (s : State) (st : PchState) : List Nat := (s.cal.pch.filter fun kv => kv.2.st == st).map (·.1)

/-- The phase map as it stands once accepted APPLYs have met their boundary (R71). -/
def mapAhead (s : State) : List Nat := s.cal.mapNext.getD s.cal.map

/-- min_slots of Fixed clearing `n` (R160). -/
def minSlots (s : State) (map : List Nat) (n : Nat) : Nat :=
  let ph := phasesOfTick (tickUs s)
  let own := ownSlots map ph n
  if pchsIn s .unreachable ≠ [] then 0
  else
    let guests := (pchsIn s .hosting).map fun g => own g / 2
    let skip := pchsIn s .remapped ++ pchsIn s .hosting
    let chans := (List.range 64).filter fun c => (List.range 20).any fun k => !skip.contains (64 * k + c)
    leastOf (guests ++ chans.map own)

/-- Word of a manifest's commons list: the descriptor, and bit 16 where `n` may write it (R36). -/
def commonsWord (n : Nat) (t : TableDecl) : Nat := t.desc + 65536 * bit (t.writer == some n)

/-- Bytes 0x000 to 0xF9F of clearing `n`'s manifest, with sequence `seq` (R36). -/
def manifestBody (s : State) (n seq : Nat) : List Byte :=
  let c := getClr s n
  let g := c.cfg
  let w := getWin s n
  let root := s.boot.root.getD []
  let cores := (coresOf s n).filter fun k => !s.err.failedCores.getLsbD k
  let engines := (enginesOf s n).filter fun e => !s.err.failedEngines.getLsbD e
  let commons := match s.img.force with | none => [] | some im => im.commons
  asciiBytes "QPFMANI3" ++ leBytes 2 1 ++ leBytes 2 0x0FA0 ++ leBytes 1 n ++ leBytes 1 (bit (!g.fixed)) ++
    leBytes 2 (bit g.ctxTeardown + 2 * bit g.refuseVariant + 4 * bit c.degraded) ++ leBytes 8 seq ++
    leBytes 8 s.clk.postmark ++ leBytes 8 w.nonce0.toNat ++ leBytes 8 w.nonce1.toNat ++
    digestBytes c.digest ++ keyId root s.boot.lc ++ leBytes 8 g.pairs.toNat ++
    leBytes 16 (maskOf 128 cores).toNat ++ leBytes 8 g.engines.toNat ++
    leBytes 8 (maskOf 64 engines).toNat ++ leBytes 16 (maskOf 128 (domainsOwned g)).toNat ++
    leBytes 2 g.dbBase ++ leBytes 2 g.dbCount ++ leBytes 4 (g.dbBase * 512) ++ leBytes 4 (g.dbCount * 512) ++
    leBytes 2 g.ctxBase ++ leBytes 2 g.ctxCount ++ leBytes 2 g.keyBase ++ leBytes 2 g.keyCount ++
    leBytes 2 g.streamQuota ++ leBytes 2 g.canopyModels ++ leBytes 2 g.phases ++
    leBytes 2 (pchsIn s .remapped).length ++ leBytes 4 (if g.fixed then minSlots s (mapAhead s) n else 0) ++
    leBytes 2 (tickUs s) ++ leBytes 2 g.plots.length ++ leBytes 4 (plotsTotal g) ++
    (c.tun.target.flatMap (leBytes 4)) ++ (c.tun.budget.flatMap (leBytes 2)) ++
    leBytes 2 commons.length ++ zeroBytes 14 ++
    sliceAt ((g.plots.flatMap fun r => leBytes 2 r.1 ++ leBytes 2 r.2 ++ zeroBytes 4) ++ zeroBytes 2048) 0 2048 ++
    sliceAt ((commons.flatMap fun t => leBytes 4 (commonsWord n t)) ++ zeroBytes 1024) 0 1024 ++ zeroBytes 624

/-- A manifest issue begins (R39): it carries every change so far and the nonce as it now stands. -/
def beginIssue (s : State) (n : Nat) : State :=
  let seq := (getClr s n).issues + 1
  updClr s n fun c => { c with issues := seq, issuing := some ⟨manifestBody s n seq⟩, issueAgain := false }

/-- A cause of R38 for clearing `n`: an issue begins, or one more follows the issue under way (R39).
While root_absent is 1 no manifest is signed (R128),
and the first issue comes in the first tick (R138). -/
def issueManifest (s : State) (n : Nat) : State :=
  if !defined s n || s.boot.rootAbsent || !running s then s
  else if (getClr s n).issuing.isSome then updClr s n fun c => { c with issueAgain := true }
  else beginIssue s n

/-- Clearing `n`'s degraded flag is set (R36). -/
def degrade (s : State) (n : Nat) : State := updClr s n fun c => { c with degraded := true }

/-- The manifests of every defined clearing are reissued. -/
def issueAll (s : State) : State := forEach (definedClearings s) s issueManifest

/-- The signed bytes with the postmark of signing (R36). -/
def stampBody (body : List Byte) (pm : Nat) : List Byte :=
  sliceAt body 0 0x18 ++ leBytes 8 pm ++ body.drop 0x20

/-- The page of an issue: the signed bytes, and the signature's r and s (R37). -/
def signedPage (s : State) (body : List Byte) : List Byte :=
  let b := stampBody body s.clk.postmark
  b ++ sliceAt (Config.ecdsaSign (attestKey (s.boot.root.getD []) s.boot.lc) (Config.sha384 b) s.glob.signs ++
    zeroBytes 96) 0 96

/-- CLR_MSEQ: the sequence of the manifest in the page (R45). -/
def pageSeq (c : Clearing) : Nat := leAt c.page 0x010 8

/-- An issue is complete: the page is replaced in one cclk, and one more issue follows where a cause
came in between (R39). -/
def finishIssue (s : State) (n : Nat) : State :=
  match (getClr s n).issuing with
  | none => s
  | some j =>
    let again := (getClr s n).issueAgain
    let page := signedPage s j.body
    let s := updClr s n fun c => { c with page := page, issuing := none, issueAgain := false }
    let s := clrEvent { s with glob := { s.glob with signs := s.glob.signs + 1 } } n
    if again then issueManifest s n else s

end Sys2Proof.Machine
end

