-- ==== Sys2Proof/Machine/Calendar.lean ====
section
/-! DEFINITION. The calendar: what each phase serves (R152 to R166, R171, R172, R176) and the elastic
choice (R195 to R204). -/

namespace Sys2Proof.Machine

/-- present_cclk of R153, `n` cclk per ref_clk. -/
def presentCclk (j p n : Nat) : Nat := ((1024 * j + 64 * (p % 16)) * n + 999) / 1000

/-- Command lane of a slot of pseudo-channel `p`, counted over all stacks (R153). -/
def laneOf (p : Nat) : Nat := p / 64 * 4 + p % 64 / 16

/-- A number below `n` that `used` does not list, the least; `n` when all are used. -/
def leastFree (used : List Nat) (n : Nat) : Nat := ((List.range (used.length + 1)).find? fun i => !used.contains i && i < n).getD n

/-- The mc_cmd_tag values in use on a lane, quarantined ones included (R458). -/
def tagsInUse (s : State) (lane : Nat) : List Nat :=
  (s.cal.inflight.filter fun kv => kv.1 / 65536 == lane).map (·.1 % 65536)

/-- Bytes of HBM that a request moves: a READ's granule, a WRITE's enabled bytes (R269, R342). -/
def hbmBytes (r : MemReq) : Nat := if r.write then (maskBits r.be).length else 256

/-- A presentation is charged to its context (R342); the block's own traffic to none. -/
def chargeHbm (s : State) (r : MemReq) : State :=
  let k := hbmBytes r
  match r.src, r.clearing with
  | .core _ _, some _ | .fabric _ _, some _ | .acc _ _, some _ =>
    updAcct s r.ctx fun c => if r.write then { c with write := c.write + k } else { c with read := c.read + k }
  | _, _ => s

/-- A request that has been issued counts for its task and, a READ of an engine, for its clearing (R230, R269, R278): once,
however often it is presented. -/
def countHbm (s : State) (r : MemReq) : State :=
  match r.src, r.clearing, r.again with
  | .acc id _, some n, false =>
    (match getAcc s id with
      | some a =>
        (match a.client with
          | .env t e =>
            let s := updTask s t fun x => { x with hbm := x.hbm + hbmBytes r }
            (match getEnv s t e with
              | some v =>
                if v.engine.isSome && !r.write then updGwin s n fun w => { w with reads := w.reads + 1 } else s
              | none => s)
          | _ => s)
      | none => s)
  | _, _, _ => s

/-- Present a READ or WRITE in a slot of `p` (R105, R153, R172): the least free tag of the lane names it
(log entry 10). What is presented again has been counted (R171). -/
def presentReq (s : State) (p at' : Nat) (r : MemReq) : State :=
  let lane := laneOf p
  let tag := leastFree (tagsInUse s lane) 65536
  let s := updCal s fun c => { c with
    order := c.order + 1, inflight := tabSet none c.inflight (lane * 65536 + tag) (some ⟨r, at', false, false⟩) }
  emit (chargeHbm (countHbm s r) r)
    (.memCmd (p / 64) (lane % 4) (bit r.write) (r.home % 64) r.gidx tag (if r.write then r.data else []) r.be)

/-- A request eligible at a presentation in absolute cclk `at'` (R158). -/
def eligible (at' : Nat) (r : MemReq) : Bool := r.entered + 4 ≤ at'

/-- The oldest request of a list (R158). -/
def oldestReq : List MemReq → Option MemReq
  | [] => none
  | r :: rest =>
    match oldestReq rest with
    | none => some r
    | some q => if older q r then some q else some r

/-- Requests presented again go first among their clearing's (R171). -/
def againFirst (rs : List MemReq) : List MemReq :=
  rs.filter fun r => r.again || !rs.any fun q => q.again && q.clearing == r.clearing

/-- A list without the request of this entry number. -/
def dropReq (r : MemReq) (rs : List MemReq) : List MemReq := rs.filter fun q => q.order != r.order

/-- An Elastic request waits behind an older one of its clearing to its granule in any store (R195): that of its own
home, or of the guest from which requests still move back (R175). -/
def heldBehind (s : State) (rs : List MemReq) (r : MemReq) : Bool :=
  (rs ++ (getPch s (guestOf s r.home)).elastic).any fun q => q.clearing == r.clearing && q.addr == r.addr && older q r

/-- The value of a wire at a sub-slot: the last one listed holds on. -/
def subValue (l : List Nat) (k : Nat) : Nat := (l[k]?).getD (l.getLast?.getD 0)

/-- Urgency of a request in the sub-slot of `p`: its core's wire, ignored where no clearing holds the core's pair, or the
host port's (R196, R197). -/
def urgencyOf (s : State) (w : PhaseWires) (p : Nat) (r : MemReq) : Nat :=
  match r.src with
  | .core c _ => if (coreOwner s c).isSome then subValue (tabGet [] w.cpUrgency c) (p % 16) else 0
  | .acc _ true => subValue w.hpUrgency (p % 16)
  | _ => 0

/-- prio of R201 in the slot of `p` at `at'`; the zeroing of R463 has 28 and is never demoted. -/
def prioOf (s : State) (w : PhaseWires) (p at' : Nat) (r : MemReq) : Nat :=
  match r.src, r.clearing with
  | .zero _, _ => 28
  | _, some n =>
    if overBudgetAt s n r.cls at' then 0 else 1 + (getMeas s n r.cls).level + 4 * urgencyOf s w p r
  | _, none => 0

/-- Highest priority, then oldest (R202). -/
def bestReq (prio : MemReq → Nat) : List MemReq → Option MemReq
  | [] => none
  | r :: rest =>
    match bestReq prio rest with
    | none => some r
    | some q => if prio q > prio r || (prio q == prio r && older q r) then some q else some r

/-! Zeroing (R72, R124, R463). -/

/-- The granule of row `q` whose home is `p`: the inverse of R154 in one row. -/
def granuleOn (p q : Nat) : Nat :=
  let h := (mix32 (BitVec.ofNat 32 q)).toNat
  let t := p / 256 * 256 + Nat.xor (p % 256) (h / 65536 % 256)
  q * 1280 + (t + 1280 - h % 1280) % 1280

/-- The first row from `pos` on whose granule on `p` lies in plot `x`. -/
def rowInPlot (p pos x : Nat) : Option Nat :=
  let a := max pos (x * 1048576 / 1280)
  [a, a + 1].find? fun q => granuleOn p q / 1048576 == x

/-- The next row that zeroes a granule of `p` in the plots listed. -/
def rowInPlots (p pos : Nat) (plots : List Nat) : Option Nat := plots.findSome? (rowInPlot p pos)

/-- A zeroing WRITE of the granule of row `q` on `p`, which becomes eligible at `at'` (log entry 125). -/
def zeroReq (s : State) (src : MemSrc) (n : Option Nat) (p q at' : Nat) : MemReq :=
  { src := src, write := true, addr := granuleOn p q * 256, data := [], be := BitVec.allOnes 256
    clearing := n, ctx := 0, gen := 0, cls := 0, entered := at' - 4, tick := s.clk.postmark, rank := 255, order := s.cal.order
    home := p, gidx := q, reserved := false, again := false }

/-- The zeroing WRITE that a Resetting clearing has next on home `h` (R463). -/
def zeroNext (s : State) (n h at' : Nat) : Option MemReq :=
  let c := getClr s n
  match c.st, c.fence with
  | .resetting, some f =>
    (rowInPlots h (tabGet 0 f.zeroPos h) (plotList c.cfg)).map fun q => zeroReq s (.zero n) (some n) h q at'
  | _, _ => none

/-- The homes whose requests the slots of `p` serve (R172, R175): its own, and one that it hosts. -/
def homesOf (s : State) (p : Nat) : List Nat :=
  if (getPch s p).st = .hosting then [p, (getPch s p).partner] else [p]

/-- The zeroing WRITEs that a Resetting clearing offers in the slots of `p`. -/
def zeroOffers (s : State) (p n at' : Nat) : List MemReq := (homesOf s p).filterMap fun h => zeroNext s n h at'

/-- Requests of a store of `p` that its slots serve at `at'`: eligible, and homed on it or on what it hosts (R158, R175). -/
def servable (s : State) (p at' : Nat) (rs : List MemReq) : List MemReq :=
  rs.filter fun r => eligible at' r && (homesOf s p).contains r.home

/-- A zeroing WRITE has been presented: the next row follows; one presented again (R171) moves nothing back. -/
def zeroTaken (s : State) (r : MemReq) : State :=
  match r.src with
  | .zero n => updClr s n fun c =>
      { c with fence := c.fence.map fun f => { f with zeroPos := tabSet 0 f.zeroPos r.home (max (tabGet 0 f.zeroPos r.home) (r.gidx + 1)) } }
  | _ => s

/-! Choosing (R157). -/

/-- Clearing `n`'s requests that the slots of `p` serve at `at'`: those of its store, and while Resetting its zeroing;
those presented again first. -/
def fixedOf (s : State) (p n at' : Nat) : List MemReq :=
  againFirst (servable s p at' (tabGet [] (getPch s p).fixed n) ++ zeroOffers s p n at')

/-- The Fixed step of R157 and R172: clearing `n`'s oldest eligible request, the favoured home's first
on a hosting pseudo-channel. -/
def pickFixed (s : State) (p n at' : Nat) : Option MemReq :=
  let k := getPch s p
  let rs := fixedOf s p n at'
  if k.st = .hosting then
    let even := tabGet 0 k.favour n % 2 == 0
    let first := rs.filter fun r => (r.home == p) == even
    match oldestReq first with
    | some r => some r
    | none => oldestReq rs
  else oldestReq rs

/-- The eligible Elastic requests of the slot of `p` at `at'` (R202): those not held (R195), and the zeroing of Elastic
clearings. -/
def elasticSet (s : State) (p at' : Nat) : List MemReq :=
  let k := getPch s p
  let zero := (elasticClearings s).flatMap fun n => zeroOffers s p n at'
  againFirst ((servable s p at' k.elastic).filter (fun r => !heldBehind s k.elastic r) ++ zero)

/-- The elastic choice of R202. -/
def pickElastic (s : State) (w : PhaseWires) (p at' : Nat) : Option MemReq :=
  if (getPch s p).turn = 15 then oldestReq (elasticSet s p at') else bestReq (prioOf s w p at') (elasticSet s p at')

/-- The Fixed clearing that catch-up serves next on `p`: in turn, ascending from the one served last
(R166). -/
def pickCatchUp (s : State) (p at' : Nat) : Option (Nat × MemReq) :=
  let k := getPch s p
  let order := (List.range 64).map fun i => (k.catchTurn + i) % 64
  order.findSome? fun n =>
    if tabGet 0 k.deficit n = 0 then none
    else (oldestReq (againFirst (servable s p at' (tabGet [] k.fixed n)))).map fun r => (n, r)

/-- Remove a chosen request from the stores of `p`. -/
def takeReq (s : State) (p : Nat) (r : MemReq) : State :=
  zeroTaken (updPch s p fun k =>
    { k with
      fixed := match r.clearing with
        | none => k.fixed
        | some n => tabUpd [] k.fixed n (dropReq r)
      elastic := dropReq r k.elastic, own := dropReq r k.own, scrub := dropReq r k.scrub }) r

/-- A chosen request leaves its store: it is presented, or on an unreachable pseudo-channel counted and answered
without a slot (R176). -/
def serveReq (s : State) (p at' : Nat) (r : MemReq) : State :=
  let s := takeReq s p r
  if (getPch s r.home).st = .unreachable then
    updCal (countHbm s r) fun c => { c with poisoned := c.poisoned ++ [⟨r, at', false, false⟩] }
  else presentReq s p at' r

/-- Serve an elastic request: the turn advances, and what R212 counts is counted. -/
def serveElastic (s : State) (w : PhaseWires) (p at' : Nat) (r : MemReq) : State :=
  let aged := (getPch s p).turn = 15
  let prio := prioOf s w p at' r
  let s := updPch s p fun k => { k with turn := (k.turn + 1) % 16 }
  let s := match r.clearing with
    | none => s
    | some n =>
      let s := if aged then updClr s n fun c => { c with ageTurns := c.ageTurns + 1 } else s
      if prio = 0 then updMeas s n r.cls fun m => { m with demotedNow := true } else s
  serveReq s p at' r

/-- Steps 2 to 4 of R157: own traffic, the elastic choice, scrub. -/
def serveShared (s : State) (w : PhaseWires) (p at' : Nat) : State :=
  let k := getPch s p
  match oldestReq (servable s p at' k.own) with
  | some r => serveReq s p at' r
  | none =>
    match pickElastic s w p at' with
    | some r => serveElastic s w p at' r
    | none =>
      match oldestReq (servable s p at' k.scrub) with
      | some r => serveReq s p at' r
      | none => s

/-- A phase of Fixed clearing `n` (R157, R166, R172). -/
def phaseFixed (s : State) (w : PhaseWires) (p at' n : Nat) : State :=
  let pick := pickFixed s p n at'
  let s := updPch s p fun k =>
    { k with
      favour := if k.st = .hosting then tabUpd 0 k.favour n (· + 1) else k.favour
      deficit := if pick.isNone then tabSet 0 k.deficit n 0 else k.deficit }
  match pick with
  | some r => serveReq s p at' r
  | none => serveShared s w p at'

/-- A phase of the Elastic pool (R157, R166). -/
def phaseElastic (s : State) (w : PhaseWires) (p at' : Nat) : State :=
  match pickCatchUp s p at' with
  | some (n, r) =>
    serveReq (updPch s p fun k =>
      { k with deficit := tabUpd 0 k.deficit n (· - 1), catchTurn := (n + 1) % 64 }) p at' r
  | none => serveShared s w p at'

/-- Present REFRESH or MAINT in the slot of `p`, naming `h` (R106, R162). -/
def presentMaint (s : State) (p h op : Nat) : State :=
  emit s (.memCmd (p / 64) (laneOf p % 4) op (h % 64) 0 0 [] 0)

/-- Margining of `p` is outstanding and not cut off (R165). -/
def marginWaits (s : State) (p : Nat) : Bool :=
  let m := tabGet margin0 s.cal.margin (p / 64)
  m.busy && !m.failed && m.pch == p % 64

/-- A maintenance phase of `p` with this ordinal (R162, R164). -/
def phaseMaint (s : State) (w : PhaseWires) (p ordinal : Nat) : State :=
  let k := getPch s p
  if ordinal % 2 = 0 then
    if k.st = .hosting && ordinal % 4 = 2 then presentMaint s p k.partner 2 else presentMaint s p p 2
  else if w.trainReq.contains p || marginWaits s p then presentMaint s p p 3 else s

/-- A phase that passes while `p` is held: the deficits of R166, the hold's length, and on a hosting pseudo-channel the
count of the owner's phases (R172). -/
def phaseHeld (s : State) (p owner : Nat) : State :=
  updPch s p fun k =>
    { k with
      holdPhases := k.holdPhases + 1
      favour := if k.st = .hosting && owner < 64 then tabUpd 0 k.favour owner (· + 1) else k.favour
      deficit := if owner < 64 && tabGet [] k.fixed owner ≠ [] then tabUpd 0 k.deficit owner (· + 1) else k.deficit }

/-- Phase `j` on pseudo-channel `p` under the map in force (R156, R157). An unreachable one keeps its maintenance (R162),
and its requests are answered whether it is held or not (R176). -/
def phaseOn (w : PhaseWires) (j at' : Nat) (s : State) (p : Nat) : State :=
  let k := getPch s p
  let owner := mapOwner s.cal.map j p
  let s := if k.hold && k.st = .unreachable then updPch s p fun k => { k with holdPhases := k.holdPhases + 1 } else s
  if k.st = .remapped then s
  else if k.hold && k.st != .unreachable then phaseHeld s p owner
  else if owner = maintOwner then
    if k.hold then s else phaseMaint s w p ((maintEntries s.cal.map).idxOf (mapEntry j p))
  else if owner = elasticOwner then phaseElastic s w p at'
  else phaseFixed s w p at' owner

/-- The next row of home `h` that the start-up scrub zeroes: plots 8 to 6,399 (R124); none once they are done, or where
`h` is unreachable. -/
def startupNext (s : State) (h : Nat) : Option Nat :=
  if (getPch s h).st = .unreachable then none
  else
    let pos := max 6553 (tabGet 0 s.boot.scrubPos h)
    [pos, pos + 1].find? fun q => q < 5242880 && granuleOn h q ≥ 8388608

/-- The next start-up scrub WRITE in the slot of `p`: its own bucket, then that of the pseudo-channel
it hosts (R124). -/
def startupScrub (s : State) (p at' : Nat) : State :=
  match (homesOf s p).findSome? fun h => (startupNext s h).map fun q => (h, q) with
  | none => s
  | some (h, q) =>
    presentReq { s with boot := { s.boot with scrubPos := tabSet 0 s.boot.scrubPos h (q + 1) } } p at'
      (zeroReq s (.scrub 0) none h q at')

/-- A scrub WRITE waits in a store or for its response. -/
def scrubWaits (s : State) : Bool :=
  let scrub := fun (r : MemReq) => match r.src with
    | .scrub _ => true
    | _ => false
  s.cal.pch.any (fun kv => kv.2.scrub.any scrub) ||
    s.cal.inflight.any (fun kv => match kv.2 with
      | some f => !f.dead && scrub f.req
      | none => false) ||
    s.cal.poisoned.any fun f => scrub f.req

/-- Every granule of plots 8 to 6,399 has been zeroed (R123, phase 5). -/
def scrubComplete (s : State) : Bool := !scrubWaits s && (List.range 1280).all fun h => (startupNext s h).isNone

/-- A phase of the start-up wheel on `p` (R132): maintenance, own traffic, and scrub, what R171 presents again first. A
pseudo-channel that has failed before an image names its guest is not used (R108). -/
def phaseStartup (w : PhaseWires) (j at' : Nat) (s : State) (p : Nat) : State :=
  let k := getPch s p
  let e := mapEntry j p
  if k.st = .remapped || (s.img.force.isNone && s.boot.failed.any fun f => f.1 == p) then s
  else if k.hold && k.st != .unreachable then updPch s p fun k => { k with holdPhases := k.holdPhases + 1 }
  else if e % 16 = 0 then if k.hold then s else phaseMaint s w p (e / 16)
  else
    match oldestReq (servable s p at' k.own) with
    | some r => serveReq s p at' r
    | none =>
      match oldestReq (servable s p at' k.scrub) with
      | some r => serveReq s p at' r
      | none => if s.boot.phase = .scrub then startupScrub s p at' else s

/-- Offer released plots' zero WRITEs, granule by granule in ascending address (R72), while the home's
scrub store has room; at most `fuel` of them. -/
def scrubFill : Nat → State → State
  | 0, s => s
  | fuel + 1, s =>
    match s.img.scrub with
    | [] => s
    | x :: _ =>
      if s.img.scrubNext ≥ 1048576 then s
      else
        let r := { zeroReq s (.scrub x) none 0 0 0 with addr := (x * 1048576 + s.img.scrubNext) * 256 }
        match enterStore s r with
        | none => s
        | some s =>
          scrubFill fuel { s with img := { s.img with scrubNext := s.img.scrubNext + 1, scrubOut := s.img.scrubOut + 1 } }

end Sys2Proof.Machine
end

