-- ==== Sys2Proof/Machine/Addr.lean ====
section
/-! DEFINITION. Device addresses, the plot table and the memory gate (R350 to R356, R249). -/

namespace Sys2Proof.Machine

/-- Where a device address points (R350, R351). -/
inductive Place where
  | host (va : Nat)
  | plot (a : Nat)
  | remote (chip a : Nat)
  /-- A reserved bit is set. -/
  | bad
  deriving DecidableEq, Repr, Inhabited

/-- The place of a device address on this chip (R350, R351). -/
def placeOf (s : State) (a : Nat) : Place :=
  if 2 ^ 63 ≤ a then (if a / 2 ^ 57 % 64 = 0 then .host (a % 2 ^ 57) else .bad)
  else if a / 2 ^ 60 ≠ 0 || a / 2 ^ 41 % 512 ≠ 0 then .bad
  else if a / 2 ^ 50 = s.boot.chip then .plot (a % 2 ^ 41)
  else .remote (a / 2 ^ 50) (a % 2 ^ 50)

/-- A host-form address. -/
def isHost (a : Nat) : Bool := 2 ^ 63 ≤ a

/-- Bits [59:50] of an address with bit 63 clear name this chip, and no reserved bit is set (R260 step 7,
R351). -/
def hostOrLocal (s : State) (a : Nat) : Bool :=
  match placeOf s a with
  | .host _ | .plot _ => true
  | _ => false

/-- A local address. -/
def isLocal (s : State) (a : Nat) : Bool :=
  match placeOf s a with
  | .plot _ => true
  | _ => false

/-- The plots that `len` bytes from local plot address `a` lie in. -/
def plotSpan (a len : Nat) : List Nat :=
  if len = 0 then [] else (List.range ((a + len - 1) / 2 ^ 28 - a / 2 ^ 28 + 1)).map (· + a / 2 ^ 28)

/-- Plot `p` is clearing `n`'s own, outside commons plots and plots 0 to 7. -/
def ownPlot (s : State) (n p : Nat) : Bool := 8 ≤ p && p < 6400 && plotOwner s p == some n && !commonsPlot s p

/-- `len` bytes from local plot address `a` lie in clearing `n`'s own plots. -/
def ownExtent (s : State) (n a len : Nat) : Bool := (plotSpan a len).all (ownPlot s n)

/-- As `ownExtent`, commons plots included (R372 step 5). -/
def readExtent (s : State) (n a len : Nat) : Bool :=
  (plotSpan a len).all fun p => ownPlot s n p || (8 ≤ p && commonsPlot s p)

/-- A device extent in local form lies in clearing `n`'s own plots; any other form passes (R260 step 8). -/
def ownIfLocal (s : State) (n a len : Nat) : Bool :=
  match placeOf s a with
  | .plot p => p + len ≤ 2 ^ 41 && ownExtent s n p len
  | _ => true

/-- A host form needs a PASID (R352). -/
def pasidIfHost (s : State) (ctx a : Nat) : Bool := !isHost a || (getCtx s ctx).pasidValid

/-! Tables (R249). -/

/-- Element width of a row format, in bits (R250). -/
def elemBits (fmt : Nat) : Nat := if fmt = 0 then 4 else if fmt ≤ 3 then 8 else if fmt ≤ 5 then 16 else 32

/-- row_bytes (R249). -/
def rowBytes (fmt dim : Nat) : Nat := dim * elemBits fmt / 8

/-- Row format of table `d`. -/
def formatOf (s : State) (d : Nat) : Nat := match declOf s d with | none => 0 | some t => t.format

/-- row_bytes of table `d`. -/
def rowBytesOf (s : State) (d : Nat) : Nat := rowBytes (formatOf s d) (getDesc s d).dim

/-- Address of row `r` of version `v` (R249). -/
def rowAddr (t : Tbl) (v : Bool) (r : Nat) : Nat := (if v then t.base1 else t.base0) + r * (32 * t.stride32)

/-- The bytes of a row array: from its first row to the end of its last. -/
def arraySpan (t : Tbl) (rb : Nat) : Nat := (t.rows - 1) * (32 * t.stride32) + rb

/-- The arrays of table `d`, (address, length): rows, and for a live table version 1 and the bitmap. -/
def arraysOf (s : State) (d : Nat) (t : Tbl) : List (Nat × Nat) :=
  let live := match declOf s d with | none => false | some x => x.live
  let rows := arraySpan t (rowBytes (formatOf s d) t.dim)
  if live then [(t.base0, rows), (t.base1, rows), (t.vbitmap, (t.rows + 7) / 8)] else [(t.base0, rows)]

/-! The gate (R354, R355). -/

/-- TBL_PRIVQ names queue `q`. -/
def privQueue (s : State) (q : Nat) : Bool := wbit s.tbl.privQ 20 && field s.tbl.privQ 0 20 == q

/-- The context of the queue that TBL_PRIVQ names. -/
def privCtx (s : State) : Option Nat :=
  if wbit s.tbl.privQ 20 then some (getQueue s (field s.tbl.privQ 0 20)).ctx else none

/-- commons_writer (R355). -/
def commonsWriter (s : State) (p c : Nat) : Bool :=
  s.tbl.tbl.any fun kv =>
    kv.2.valid && (match declOf s kv.1 with
      | none => false
      | some d => d.owner.isNone &&
          (match d.writer with
            | some w => ctxOwner s c == some w
            | none => privCtx s == some c) &&
          (arraysOf s kv.1 kv.2).any fun a => (plotSpan a.1 a.2).contains p)

/-- The memory gate's answer to a request that carries a context (R354, R356). -/
def gate (s : State) (write : Bool) (a ctx gen : Nat) : Bool :=
  let p := a / 2 ^ 28
  gen != 0 && gen == (getCtx s ctx).gen && 8 ≤ p && p < 6400 &&
    ((match ctxOwner s ctx, plotOwner s p with
      | some n, some m => n == m
      | _, _ => false) || (commonsPlot s p && (!write || commonsWriter s p ctx)))

/-- The generation check before hp_i and fo_ (R356, R457). -/
def genOk (s : State) (ctx gen : Nat) : Bool := gen == (getCtx s ctx).gen

end Sys2Proof.Machine
end

