-- ==== Sys2Proof/Machine/QueueBase.lean ====
section
/-! DEFINITION. Envelopes, completions and interrupts: the fields of an envelope (R224), the writing of
completions and accounting records (R229, R230, R234, R241), interrupts (R231), and a task's outcome. -/

namespace Sys2Proof.Machine

/-! The fields of an envelope (R224). -/

/-- opcode. -/
def envOpcode (bs : List Byte) : Nat := byteAt bs 0
/-- Bit `i` of flags: 0 first, 1 last, 2 in_stream, 3 head, 4 V. -/
def envFlag (bs : List Byte) (i : Nat) : Bool := byteAt bs 1 / 2 ^ i % 2 == 1
/-- class [2:0]. -/
def envClass (bs : List Byte) : Nat := byteAt bs 2 % 8
/-- tag. -/
def envTag (bs : List Byte) : Nat := leAt bs 4 4
/-- batch_len. -/
def envBatchLen (bs : List Byte) : Nat := leAt bs 8 2
/-- scratch_mib. -/
def envScratch (bs : List Byte) : Nat := leAt bs 10 2
/-- deadline_us. -/
def envDeadline (bs : List Byte) : Nat := leAt bs 12 4
/-- seed. -/
def envSeed (bs : List Byte) : Word := word (leAt bs 16 8)
/-- not_before. -/
def envNotBefore (bs : List Byte) : Nat := leAt bs 24 8
/-- It is solo or the first envelope of a stream. -/
def envBegins (bs : List Byte) : Bool := !envFlag bs 2 || envFlag bs 0

/-! Queues. -/

/-- u32 difference of free-running pointers. -/
def u32sub (a b : Nat) : Nat := (2 ^ 32 - b % 2 ^ 32 + a) % 2 ^ 32

/-- Completion entries free for admission (R234); none when the ring is overfull. -/
def cplFree (k : Queue) : Nat := k.cplDepth - u32sub k.cplTail k.cplHead - k.owed

/-- Completion entries free for a dead letter that has none reserved. -/
def cplSpare (k : Queue) : Nat := k.cplDepth - u32sub k.cplTail k.cplHead - (k.owed - (k.items.filter fun i => !i.kept).length)

/-- A dead letter of queue `q` that has no entry reserved yet waits for one (R234). -/
def deadWaits (k : Queue) : Bool := k.items.any fun i => !i.kept

/-- The queues of clearing `n` that State lists. -/
def queuesOf (s : State) (n : Nat) : List Nat := (s.queues.map (·.1)).filter fun q => queueOwner s q == some n

/-- The tasks of queue `q`. -/
def tasksOfQueue (s : State) (q : Nat) : List (Nat × Task) := (taskList s).filter fun t => t.2.queue == q && !t.2.fenced

/-- The tasks of clearing `n`. -/
def tasksOf (s : State) (n : Nat) : List (Nat × Task) := (taskList s).filter fun t => t.2.n == n && !t.2.fenced

/-- The tasks of context `c`. -/
def tasksOfCtx (s : State) (c : Nat) : List (Nat × Task) := (taskList s).filter fun t => t.2.ctx == c && !t.2.fenced

/-- The DISABLE of queue `q` that its window waits for is done (R245). -/
def disableDone (s : State) (q : Nat) : State :=
  match queueOwner s q with
  | some n => updQwin s n fun w => if w.queue = q && !w.done then { w with done := true, st := .disabled } else w
  | none => s

/-- A Disabling queue becomes Disabled once every admitted task has ended and every completion is written
or discarded (R217); a DISABLE that waited is done (R245). -/
def queueSettle (s : State) (q : Nat) : State :=
  let k := getQueue s q
  if k.st == .disabling && tasksOfQueue s q == [] && k.items == [] && !k.writing then
    let s := updQueue s q fun k => { k with st := .disabled, disableSeen := false }
    if k.disableSeen then disableDone s q else s
  else s

/-- Count completions and records of queue `q` as lost (R241, R245). -/
def countLost (s : State) (q k : Nat) : State :=
  match queueOwner s q with
  | some n => updQwin s n fun w => { w with lost := w.lost + k }
  | none => s

/-! The end of a task and its clearing's state (R32, R198, R239). -/

/-- What starts afresh as clearing `n` reaches Closed: its totals and its count of barriers (R347, R442, R523). -/
def reachClosed (s : State) (n : Nat) : State :=
  let s := updSwin s n fun w => { w with total := 0, energy := 0 }
  updBar (updPwin s n fun w => { w with energy := 0 }) n fun b => { b with epoch := 0 }

/-- Clearing `n` takes a state, and CLR_EVENT says so (R43). -/
def setClrState (s : State) (n : Nat) (st : ClrState) : State :=
  let s := if st = .closed then reachClosed s n else s
  clrEvent (updClr s n fun c => { c with st := st }) n

/-- Quiescing to Quiet when no admitted task remains (R32). -/
def quiesceCheck (s : State) (n : Nat) : State :=
  if (getClr s n).st == .quiescing && tasksOf s n == [] then
    setClrState (updClr s n fun c => { c with quiesceLeft := 0 }) n .quiet
  else s

/-- µs since a task's admission (R198). -/
def taskAge (s : State) (t : Task) : Nat := holdAt 32 ((nowRef s - t.ref) / 100)

/-- A task of class `k.cls` has ended with a latency in µs (R198). -/
def measureTask (s : State) (k : Task) (us : Nat) : State := updMeas s k.n k.cls fun m => { m with doneMax := max m.doneMax us }

/-- Task `t` has left the stream table (R239): its entry, its jobs and its scratch are free. -/
def releaseTask (s : State) (t : Nat) : State :=
  let n := match getTask s t with
    | some k => k.n
    | none => 0
  let s := updSch s fun u => { u with jobs := u.jobs.filter fun kv => match kv.2 with
      | none => false
      | some x => x.task != t }
  updQue { s with tasks := tabSet none s.tasks t none } fun u => { u with releases := tabSet 0 u.releases n (tabGet 0 u.releases n + 1) }

/-- A completion has been written, or discarded: its envelope runs no longer (R296). -/
def envWritten (s : State) (i : CplItem) : State :=
  match i.env with
  | none => s
  | some (t, e) => updEnv s t e fun v => { v with written := true }

/-- The same, and the task whose last completion it is ends (R198, R239); a clearing that waits for it is Quiet
(R32, R240). -/
def endOf (s : State) (i : CplItem) : State :=
  let s := envWritten s i
  match i.last, i.env with
  | true, some (t, _) => match getTask s t with
    | some k => quiesceCheck (releaseTask (if k.endAge.isNone then measureTask s k (taskAge s k) else s) t) k.n
    | none => s
  | _, _ => s

/-- Completions and records that an item stands for. -/
def itemSize (i : CplItem) : Nat := if i.acct = [] then 1 else 2

/-- A completion of queue `q` that ends no task is produced: it waits for its write, or is discarded once the ring has
failed (R241). -/
def addItem (s : State) (q : Nat) (i : CplItem) : State :=
  if (getQueue s q).cplLost then
    envWritten (countLost (updQueue s q fun k => { k with owed := k.owed - 1 }) q (itemSize i)) i
  else updQueue s q fun k => { k with items := k.items ++ [i] }

/-- The last completion of a task is produced: once the ring has failed it is discarded, and the task ends (R239,
R241). -/
def addLast (s : State) (q : Nat) (i : CplItem) : State :=
  if (getQueue s q).cplLost then
    endOf (countLost (updQueue s q fun k => { k with owed := k.owed - 1 }) q (itemSize i)) i
  else updQueue s q fun k => { k with items := k.items ++ [i] }

/-- A dead letter of an envelope that is not admitted (R229). -/
def deadItem (s : State) (code : Code) (tag : Nat) (last : Bool) : CplItem :=
  { status := code, kept := false, dead := true, last := last, late := false, saturated := false, poisoned := false
    zeroBag := false, expired := false, tag := tag, postmark := s.clk.postmark, acct := [], env := none }

/-- Return envelopes of queue `q` as dead letters, each with its code and end flag. -/
def returnDead (s : State) (q : Nat) (ds : List (Code × Nat × Bool)) : State :=
  forEach ds s fun s d =>
    addItem (updQueue s q fun k => { k with owed := k.owed + 1 }) q (deadItem s d.1 d.2.1 d.2.2)

/-- The 16 bytes of completion number `k` of a queue (R229). -/
def cplBytes (x : Queue) (i : CplItem) : List Byte :=
  let phase := if x.cplDepth = 0 then 0 else 1 - x.cplTail / x.cplDepth % 2
  let flags := phase + 2 * bit i.dead + 4 * bit i.last + 8 * bit i.late + 16 * bit i.saturated +
    32 * bit i.poisoned + 64 * bit i.zeroBag + 128 * bit i.expired
  leBytes 2 i.status.toNat ++ leBytes 2 flags ++ leBytes 4 i.tag ++ leBytes 2 x.head ++ leBytes 6 i.postmark

/-- The vector of queue `q` is raised on its virtual function, where the clearing has one (R92, R231). -/
def queueInterrupt (s : State) (q : Nat) : State :=
  let k := getQueue s q
  let s := updQueue s q fun k => { k with irqCount := 0, irqSince := none }
  match queueOwner s q with
  | some n => if n < s.glob.numVfs then msix s (n + 1) k.vector else s
  | none => s

/-- A completion has been written: the interrupt rules of R231. -/
def countInterrupt (s : State) (q : Nat) (i : CplItem) : State :=
  if (getQueue s q).irq then
    let s := updQueue s q fun k => { k with irqCount := k.irqCount + 1, irqSince := some (k.irqSince.getD (nowRef s)) }
    let k := getQueue s q
    if (i.last && i.expired) || k.coalesceCount ≤ k.irqCount then queueInterrupt s q else s
  else s

/-- The write of the first item of queue `q` has been made: its record, or the completion itself. -/
def itemWritten (s : State) (q : Nat) (isAcct : Bool) : State :=
  let k := getQueue s q
  if isAcct then updQueue s q fun k => { k with acctDone := true, writing := false }
  else
    match k.items with
    | [] => updQueue s q fun k => { k with writing := false }
    | i :: rest =>
      let s := updQueue s q fun k =>
        { k with items := rest, acctDone := false, writing := false, cplTail := (k.cplTail + 1) % 2 ^ 32, owed := k.owed - 1 }
      let s := match queueOwner s q with
        | some n => if i.dead then updQwin s n fun w => { w with deadLetters := w.deadLetters + 1 } else s
        | none => s
      queueSettle (countInterrupt (endOf s i) q i) q

/-- The record of a ring failure (R241, R447). -/
def ringRec (s : State) (code : Code) (q addr : Nat) : State :=
  let k := getQueue s q
  raise s { newRec s code 2 7 0 addr 0 0 with
    clearing := queueOwner s q, ctx := some k.ctx, generation := (getCtx s k.ctx).gen, queue := some q }

/-- Queue `q`'s head batch no longer waits under step 12 (R235, R245). -/
def stopWaiting (s : State) (q : Nat) : State :=
  updQueue s q fun k => { k with waiting := false, tried := [], claimOrder := 0, claimTicks := 0, claimScratch := 0 }

/-- A completion or accounting write cannot be made (R241): what remains is discarded, and the tasks whose last
completions those were have ended. -/
def cplFailed (s : State) (q addr : Nat) : State :=
  let k := getQueue s q
  let lost := (k.items.map itemSize).sum - (if k.acctDone then 1 else 0)
  let s := updQueue (stopWaiting s q) q fun k =>
    { k with
      st := if k.st == .enabled then .error else k.st
      items := [], acctDone := false, writing := false, cplLost := true, owed := k.owed - k.items.length }
  queueSettle (forEach k.items (ringRec (countLost s q lost) qsQCplWrite q addr) endOf) q

/-- An envelope read fails (R241): no further fetch, and one dead letter with tag 0. -/
def fetchFailed (s : State) (q addr : Nat) : State :=
  let k := getQueue s q
  let s := updQueue s q fun k => { k with fetch := none, fetchGot := [] }
  if k.st == .enabled then
    let s := updQueue (stopWaiting s q) q fun k => { k with st := .error }
    returnDead (ringRec s qsQRingRead q addr) q [(qsQRingRead, 0, false)]
  else s

/-! Tasks. -/

/-- Latency of a task in µs: up to now, or to the deadline or abort that ended it (R198). -/
def taskLatency (s : State) (t : Task) : Nat := t.endAge.getD (taskAge s t)

/-- The 32 bytes of a task's accounting record (R230). -/
def taskRecord (s : State) (t : Task) : List Byte :=
  let tag := match t.envs with | [] => 0 | e :: _ => envTag e.bytes
  leBytes 4 tag ++ leBytes 2 t.status.toNat ++ leBytes 2 t.envs.length ++ leBytes 4 (taskLatency s t) ++
    leBytes 4 t.lateTicks ++ leBytes 8 t.hbm ++ leBytes 8 t.host

/-- Every envelope of a task has its outcome. -/
def allDone (t : Task) : Bool := t.envs.all fun e => e.st == .done

/-- The completion of envelope `e` of admitted task `t`. -/
def envItem (s : State) (t e : Nat) (k : Task) (v : EnvRun) (code : Code) (dead expired : Bool) : CplItem :=
  { status := code, kept := true, dead := dead, last := false, late := k.lateTicks != 0, saturated := v.saturated
    poisoned := v.poisoned, zeroBag := v.zeroBag, expired := expired, tag := envTag v.bytes
    postmark := if dead then s.clk.postmark else k.pin, acct := [], env := some (t, e) }

/-- Envelope `e` of task `t` completes with a code; the task's last completion is held for TASK_END
(R229, R230, R239). -/
def completeEnv (s : State) (t e : Nat) (code : Code) (dead expired : Bool) : State :=
  match getTask s t with
  | none => s
  | some k =>
    match k.envs[e]? with
    | none => s
    | some v =>
      if v.st == .done then s
      else
        let item := envItem s t e k v code dead expired
        let s := updTask s t fun k =>
          { k with
            status := if k.status = qsOk then code else k.status
            envs := k.envs.modify e fun v => { v with st := .done, code := code, ran := v.engine, engine := none, got := [], block := [], picks := [], key := none, look := look0 } }
        match getTask s t with
        | none => s
        | some k => if k.fenced then s else if allDone k then updTask s t fun k => { k with held := some item } else addItem s k.queue item

end Sys2Proof.Machine
end

