-- ==== Sys2Proof/Machine/AccBase.lean ====
section
/-! DEFINITION. Accesses of the block: their forming, their answers, and what an answer does to the
envelope, queue or ring it is for (R241, R262, R357, R364, R534). -/

namespace Sys2Proof.Machine

/-- The pieces of `len` bytes from a device address, within units of `unit` bytes. -/
def piecesFrom (unit : Nat) : Nat → Nat → Nat → List (Nat × Nat)
  | 0, _, _ => []
  | fuel + 1, a, len =>
    if len = 0 then []
    else
      let k := min len (unit - a % unit)
      (a, k) :: piecesFrom unit fuel (a + k) (len - k)

/-- The pieces of an extent: within 4 KiB pages of host memory (R96), within 256-byte granules elsewhere. -/
def pieces (a len : Nat) : List (Nat × Nat) := piecesFrom (if isHost a then 4096 else 256) (len / 256 + 2) a len

/-- The granules of an extent, of host memory too (R264, R276). -/
def granulePieces (a len : Nat) : List (Nat × Nat) := piecesFrom 256 (len / 256 + 2) a len

/-- The number of the next access: past every access there is. -/
def freshAcc (s : State) : Nat := s.acc.foldl (fun m kv => max m (kv.1 + 1)) s.accNext

/-- Form an access. -/
def newAcc (s : State) (a : Acc) : State :=
  { s with acc := tabSet none s.acc (freshAcc s) (some a), accNext := freshAcc s + 1 }

/-- An access of an envelope, carrying its task's context, generation and class (R190, R265). -/
def envAcc (k : Task) (t e op : Nat) (kind : AccOp) (addr len : Nat) (data : List Byte) : Acc :=
  { client := .env t e, op := op, kind := kind, addr := addr, len := len, data := data, n := k.n, ctx := k.ctx
    gen := k.gen, cls := k.cls, st := .ready, asked := false, plain := false, frame := none }

/-- An access of a queue's ring (R465): its context's, whose generation is taken when it issues. R190's table gives such
accesses no class: they carry class 0 and, entering by no port, urgency 0 (DESIGN CHOICE, log entry 138). -/
def ringAcc (s : State) (q : Nat) (client : Client) (op : Nat) (kind : AccOp) (addr len : Nat) (data : List Byte) : Acc :=
  { client := client, op := op, kind := kind, addr := addr, len := len, data := data, n := (queueOwner s q).getD 0
    ctx := (getQueue s q).ctx, gen := 0, cls := 0, st := .ready, asked := false, plain := false, frame := none }

/-- Form reads of an extent for envelope `e` of task `t`, numbered from `op`. -/
def readExtentFor (s : State) (t e op addr len : Nat) : State :=
  match getTask s t with
  | none => s
  | some k => forEach ((pieces addr len).zipIdx op) s fun s p => newAcc s (envAcc k t e p.2 .read p.1.1 p.1.2 [])

/-- Form writes of bytes at a device address for envelope `e` of task `t`, numbered from `op`. -/
def writeExtentFor (s : State) (t e op addr : Nat) (bs : List Byte) : State :=
  match getTask s t with
  | none => s
  | some k => forEach ((pieces addr bs.length).zipIdx op) s fun s p =>
      newAcc s (envAcc k t e p.2 .write p.1.1 p.1.2 (sliceAt bs (p.1.1 - addr) p.1.2))

/-- The bytes that the answers of a phase brought, in order of their numbers. -/
def gotBytes (g : List Got) : List Byte :=
  ((g.mergeSort fun a b => a.op ≤ b.op).flatMap fun x => x.data)

/-- A granule among the answers was poisoned. -/
def gotPoison (g : List Got) : Bool := g.any fun x => x.poisoned

/-- The answer numbered `op`. -/
def gotAt (g : List Got) (op : Nat) : Option Got := g.find? fun x => x.op == op

/-- An access is an envelope's. -/
def accOfEnv (t e : Nat) (a : Acc) : Bool := a.client == .env t e

/-- An access has not been issued: it can be dropped (R262). -/
def unissued (a : Acc) : Bool :=
  match a.st with
  | .ready | .xlt _ | .noIndex | .fault _ => true
  | .mem | .host _ | .fab _ => false

/-- Issued accesses of an envelope are still unanswered. -/
def envBusy (s : State) (t e : Nat) : Bool := (accList s).any fun a => accOfEnv t e a.2

/-- Drop every access of an envelope that is not issued. -/
def dropUnissued (s : State) (t e : Nat) : State :=
  { s with acc := s.acc.filter fun kv => match kv.2 with
      | none => false
      | some a => !(accOfEnv t e a && unissued a) }

/-- A transfer opcode (R370). -/
def isTransfer (op : Nat) : Bool := 0x40 ≤ op && op ≤ 0x43

/-- GPE_WFAULT and its position (R262, R278). -/
def gpeFault (s : State) (k : Task) (v : EnvRun) (code : Code) (pos : Nat) : State :=
  updGwin s k.n fun w =>
    { w with failed := w.failed + 1, code := code, queue := k.queue, tag := envTag v.bytes, pos := pos }

/-- XLT_WFAULT, its address and its position (R382). -/
def xltFault (s : State) (k : Task) (v : EnvRun) (code : Code) (addr : Nat) : State :=
  updXwin s k.n fun w =>
    { w with
      code := code, queue := k.queue, addr := word addr, tag := envTag v.bytes
      tile := if isTransfer (envOpcode v.bytes) then v.step else 0xFFFFFFFF }

/-- It is an UNSEAL that writes a record. -/
def unsealWrites (s : State) (t e : Nat) : Bool :=
  match getEnv s t e with
  | some v => envOpcode v.bytes == 0x50 && v.phase == 3
  | none => false

/-- Envelope `e` of task `t` issues nothing more and ends with a code once its issued requests are
answered. -/
def stopEnv (s : State) (t e : Nat) (code : Code) (expired : Bool) : State :=
  dropUnissued (updEnv s t e fun v => { v with st := .draining, code := code, expired := expired, out := false }) t e

/-- A started envelope fails (R262, R374): with its code, the position of the index and the address. -/
def failEnv (s : State) (t e : Nat) (code : Code) (pos addr : Nat) : State :=
  match getTask s t, getEnv s t e with
  | some k, some v =>
    if v.st == .running || v.st == .unassigned then
      let s := if 0x10 ≤ envOpcode v.bytes && envOpcode v.bytes ≤ 0x2F then gpeFault s k v code pos else s
      let s := if code.toNat / 256 = 5 then xltFault s k v code addr else s
      stopEnv s t e code false
    else s
  | _, _ => s

/-- How an access ended. -/
inductive AccRes where
  | ok (data : List Byte)
  /-- Uncorrectable ECC of a granule. -/
  | spoiled (data : List Byte)
  /-- Refused by the gate or the generation check (R357): 1 generation, 2 plot. -/
  | refused (why : Nat)
  /-- Ended with a code of its own: the host's, the fabric's or translation's. -/
  | failed (code : Code)
  deriving DecidableEq, Repr, Inhabited

/-- Bytes moved over the host port for an access (R230, R342). -/
def countHost (s : State) (a : Acc) (k : Nat) : State :=
  match a.client with
  | .env t _ => updAcct (updTask s t fun x => { x with host := x.host + k }) a.ctx fun c => { c with host := c.host + k }
  | .fetch _ | .cpl _ => updAcct s a.ctx fun c => { c with host := c.host + k }
  | _ => s

/-- Bytes carried over the fabric port for a context (R342). -/
def countRemote (s : State) (ctx k : Nat) : State := updAcct s ctx fun c => { c with remote := c.remote + k }

/-- A refusal of R357: counted, and recorded with its context. -/
def refusalRec (s : State) (src unit addr why n ctx gen tag : Nat) (queue : Option Nat) : State :=
  let s := updXwin s n fun w => { w with gateRefused := w.gateRefused + 1 }
  raise s { newRec s qsXltGateRefused 2 src unit addr why 0 with
    clearing := some n, ctx := some ctx, generation := gen, tag := tag, queue := queue }

/-- The code that a failed access gives its envelope (R357, R364, R534). -/
def resCode : AccRes → Code
  | .refused _ => qsXltGateRefused
  | .failed c => c
  | _ => qsOk

/-- A write of bitmap granule `g` of table `d` is answered (R291): the rows whose bits it took in are done. -/
def bitsWritten (s : State) (d g : Nat) : State :=
  let t := getDesc s d
  updTbl s fun u => { u with chg := u.chg.map fun c =>
    if c.desc = d && c.sent && !c.bitDone && (t.vbitmap + c.row / 8) / 256 == g then
      { c with bitDone := true, bitCclk := nowCclk s } else c }

/-- What R291 makes of the bytes of bitmap granule `g` of table `d`: every published row's bit at v ^ polarity. -/
def bitmapBytes (s : State) (d g : Nat) (bs : List Byte) : List Byte :=
  let t := getDesc s d
  let mine := s.tbl.chg.filter fun c => c.desc == d && c.published && (t.vbitmap + c.row / 8) / 256 == g
  mine.foldl (fun bs c => bs.modify ((t.vbitmap + c.row / 8) % 256) fun b => setBit b (c.row % 8) (xor c.v t.polarity)) bs

/-- The rewrite of bitmap granule `g`, read as `bs`, takes in every published row of it: only the bytes that changed are
written. -/
def bitmapWrite (s : State) (d g : Nat) (bs : List Byte) (a : Acc) : State :=
  let old := (bs ++ zeroBytes 256).take 256
  let new := bitmapBytes s d g old
  let changed := (List.range 256).filter fun i => byteAt old i != byteAt new i
  let vb := (getDesc s d).vbitmap
  let s := updTbl s fun u => { u with chg := u.chg.map fun c =>
    if c.desc = d && c.published && (vb + c.row / 8) / 256 == g then { c with sent := true } else c }
  if changed = [] then bitsWritten s d g
  else newAcc s { a with op := g, kind := .write, st := .ready, len := 256, data := new, mask := some (maskOf 256 changed) }

/-- A granule of a lookup block or of a REDUCE part (R262): such accesses have numbers divisible by 4. -/
def sourceRead (a : Acc) (v : EnvRun) : Bool := 0x10 ≤ envOpcode v.bytes && envOpcode v.bytes ≤ 0x12 && a.kind == .read && a.op % 4 == 0

/-- An envelope's access is answered. -/
def answerEnv (s : State) (a : Acc) (t e : Nat) (r : AccRes) : State :=
  match getTask s t, getEnv s t e with
  | some k, some v =>
    let put := fun (p : Bool) (bs : List Byte) =>
      if v.st == .running || v.st == .draining then updEnv s t e fun v => { v with got := ⟨a.op, p, bs⟩ :: v.got } else s
    match r with
    | .ok bs => if envOpcode v.bytes = 0x21 && a.kind == .write then bitsWritten s (leAt v.bytes 0x30 2) a.op else put false bs
    | .spoiled bs => if sourceRead a v then failEnv s t e qsGpeSrcPoisoned 0xFFFFFFFF a.addr else put true bs
    | .refused why =>
      let s := match v.engine with
        | some g => refusalRec s 2 g a.addr why a.n a.ctx a.gen (envTag v.bytes) (some k.queue)
        | none => refusalRec s 7 0 a.addr why a.n a.ctx a.gen (envTag v.bytes) (some k.queue)
      failEnv s t e qsXltGateRefused 0xFFFFFFFF a.addr
    | .failed c => failEnv s t e c 0xFFFFFFFF a.addr
  | _, _ => s

/-- Drop the accesses of a client. -/
def dropClient (s : State) (c : Client) : State :=
  { s with acc := s.acc.filter fun kv => match kv.2 with
      | none => false
      | some a => a.client != c }

/-- A ring read of queue `q` is answered. -/
def answerFetch (s : State) (a : Acc) (q : Nat) (r : AccRes) : State :=
  match r with
  | .ok bs => updQueue s q fun k => { k with fetchGot := ⟨a.op, false, bs⟩ :: k.fetchGot }
  | .refused why =>
    fetchFailed (dropClient (refusalRec s 7 0 a.addr why a.n a.ctx a.gen 0 (some q)) (.fetch q)) q a.addr
  | _ => fetchFailed (dropClient s (.fetch q)) q a.addr

/-- A completion or record write of queue `q` is answered: op 0 the record, 1 the completion. -/
def answerCpl (s : State) (a : Acc) (q : Nat) (r : AccRes) : State :=
  match r with
  | .ok _ => itemWritten s q (a.op == 0)
  | .refused why => cplFailed (refusalRec s 7 0 a.addr why a.n a.ctx a.gen 0 (some q)) q a.addr
  | _ => cplFailed s q a.addr

/-- A rewrite that R295 finishes, of granule `op`: read, then written. -/
def answerBitmap (s : State) (a : Acc) (d : Nat) (r : AccRes) : State :=
  match a.kind, r with
  | .read, .ok bs | .read, .spoiled bs => bitmapWrite s d a.op bs a
  | _, _ => bitsWritten s d a.op

/-- A record of R343 has been written; one that the gate refuses is discarded as R345 discards one (log entry 75). -/
def answerAcct (s : State) (n : Nat) (r : AccRes) : State :=
  updSwin s n fun w => match r with
    | .refused _ => { w with records := w.records.drop 1, writing := false, lost := w.lost + 1, lostFlag := true }
    | .ok _ | .spoiled _ | .failed _ => { w with records := w.records.drop 1, writing := false, tail := (w.tail + 1) % 2 ^ 32 }

/-- An access is answered: it is gone, and its client has the answer. -/
def answerAcc (s : State) (id : Nat) (r : AccRes) : State :=
  match getAcc s id with
  | none => s
  | some a =>
    let s := dropAcc s id
    match a.client with
    | .env t e => answerEnv s a t e r
    | .fetch q => answerFetch s a q r
    | .cpl q => answerCpl s a q r
    | .bitmap d => answerBitmap s a d r
    | .acct n => answerAcct s n r

end Sys2Proof.Machine
end

