-- ==== Sys2Proof/Machine/Xlt.lean ====
section
/-! DEFINITION. Address translation: units, misses, Translation Completions, page requests and
invalidation (R362 to R369, R378 to R380). -/

namespace Sys2Proof.Machine

/-- The unit of a page (R362). -/
def xltUnitOf (page pasid : Nat) : Nat := Nat.xor page pasid % 8

/-- The unit that an entry lives in. -/
def entryUnit (e : XltEntry) : Nat := xltUnitOf e.page e.pasid

/-- An entry maps this page for this function and PASID. -/
def entryFor (f pasid page : Nat) (e : XltEntry) : Bool := e.func == f && e.pasid == pasid && e.page == page

/-- The PASID of an access's context. -/
def accPasid (s : State) (a : Acc) : Nat := (getCtx s a.ctx).pasid

/-- The page of a host-form address. -/
def pageOf (a : Nat) : Nat := a % 2 ^ 57 / 4096

/-- An access needs write permission. -/
def needsWrite (a : Acc) : Bool :=
  match a.kind with
  | .write => true
  | .translate w => w
  | .read => false

/-- An entry gives an access the permission it needs. -/
def permits (e : XltEntry) (a : Acc) : Bool := if needsWrite a then e.w else e.r

/-- The last request of the tile that envelope `e` of task `t` moves has been issued (R373). -/
def tileIssued (s : State) (t e : Nat) (v : EnvRun) : Bool :=
  v.phase == 3 && !(accList s).any fun a => a.2.client == .env t e && unissued a.2

/-- An entry is pinned by a tile that has been translated and not yet moved (R362, R373): the answers of
its translation phase name its pages, until its last request has been issued. -/
def pinnedEntry (s : State) (e : XltEntry) : Bool :=
  (taskList s).any fun t => servingFunc s t.2.n == e.func && (getCtx s t.2.ctx).pasid == e.pasid &&
    t.2.envs.zipIdx.any fun v => v.1.st == .running && isTransfer (envOpcode v.1.bytes) && !v.1.out &&
      ((v.1.phase == 1 && v.1.got.any fun g => g.op == e.page) ||
        v.1.picks.any fun p => p.1 / 2 ^ 52 == e.page && !p.2 && !tileIssued s t.1 v.2 v.1)

/-- Entries of clearing `n` in unit `u`. -/
def entriesOf (s : State) (u n : Nat) : List XltEntry := s.xlt.entries.filter fun e => entryUnit e == u && e.n == n

/-- Entries in use in unit `u`. -/
def unitUsed (s : State) (u : Nat) : Nat := (s.xlt.entries.filter fun e => entryUnit e == u).length

/-- An entry of unit `u` is open to clearing `n` without replacement: of its 8,192, 64 are reserved to each defined
clearing, the rest shared (R362). -/
def roomInUnit (s : State) (u n : Nat) : Bool :=
  let beyond := (definedClearings s).map fun m => (entriesOf s u m).length - 64
  unitUsed s u < 8192 && ((entriesOf s u n).length < 64 || beyond.sum < 8192 - 64 * (definedClearings s).length)

/-- The least recently used entry of unit `u` that clearing `n` may replace (R362). -/
def victimOf (s : State) (u n : Nat) : Option XltEntry :=
  s.xlt.entries.find? fun e =>
    entryUnit e == u && !e.sticky && !pinnedEntry s e && (e.n == n || 64 < (entriesOf s u e.n).length)

/-- An entry can be taken for clearing `n` in unit `u`. -/
def canTake (s : State) (u n : Nat) : Bool := roomInUnit s u n || (victimOf s u n).isSome

/-- The entry of a page already held (R377). -/
def entryOf (s : State) (e : XltEntry) : Option XltEntry := s.xlt.entries.find? (entryFor e.func e.pasid e.page)

/-- A translation can be filled: its page has an entry, or one can be taken (R362). -/
def canFill (s : State) (e : XltEntry) : Bool := (entryOf s e).isSome || canTake s (entryUnit e) e.n

/-- Fill an entry: in the place of the one its page has, which stays sticky (R377), else in one that is taken (R362). -/
def fillEntry (s : State) (e : XltEntry) : State :=
  let u := entryUnit e
  match entryOf s e with
  | some o => updXlt s fun x => { x with entries := x.entries.erase o ++ [{ e with sticky := o.sticky }] }
  | none =>
    if roomInUnit s u e.n then updXlt s fun x => { x with entries := x.entries ++ [e] }
    else match victimOf s u e.n with
      | none => s
      | some v => updXlt s fun x => { x with entries := x.entries.erase v ++ [e] }

/-- An entry becomes the most recently used. -/
def touchEntry (s : State) (e : XltEntry) : State :=
  updXlt s fun x => { x with entries := x.entries.erase e ++ [e] }

/-- A free hp_i tag, the least (log entry 10). -/
def freeHostTag (s : State) : Option Nat :=
  let t := leastFree (s.xlt.hostOut.map (·.1)) 16384
  if t < 16384 then some t else none

/-- What an hp_i tag is in use for. -/
def getHostOut (s : State) (t : Nat) : Option HostOut := tabGet none s.xlt.hostOut t

/-- Set the use of an hp_i tag. -/
def setHostOut (s : State) (t : Nat) (o : Option HostOut) : State :=
  updXlt s fun x => { x with hostOut := tabSet none x.hostOut t o }

/-- A tag is answered: it is free, and no invalidation waits for it (R379). -/
def freeHostOut (s : State) (t : Nat) : State :=
  let s := setHostOut s t none
  updXlt s fun x => { x with inval := x.inval.map fun i => { i with tags := i.tags.filter (· != t) } }

/-! Misses (R363). -/

/-- Translation requests outstanding in unit `u`, and for clearing `n` there. -/
def atsCount (s : State) (u : Nat) (n : Option Nat) : Nat :=
  (s.xlt.hostOut.filter fun kv => match kv.2 with
    | some o => (match o.use with
        | .ats page _ m _ | .lost page m => xltUnitOf page (o.pasid.getD 0) == u && (n.isNone || n == some m)
        | _ => false)
    | none => false).length

/-- An outstanding translation request for the page, into which a miss merges. -/
def atsFor (s : State) (f pasid page : Nat) : Option Nat :=
  (s.xlt.hostOut.find? fun kv => match kv.2 with
    | some o => o.func == f && o.pasid == some pasid && (match o.use with
        | .ats p _ _ fill => p == page && fill
        | _ => false)
    | none => false).map (·.1)

/-- A translation request is sent for a page of a function and PASID, where the limits of its unit allow: its tag (R363). -/
def sendAts (s : State) (f pasid page n ctx gen : Nat) (write : Bool) : Option (Nat × State) :=
  let u := xltUnitOf page pasid
  if atsCount s u none < 64 && atsCount s u (some n) < 16 && canTake s u n then
    (freeHostTag s).map fun t =>
      let s := updXwin (setHostOut s t (some ⟨.ats page write n true, f, some pasid, n, ctx, gen, false⟩)) n fun w =>
        { w with misses := w.misses + 1 }
      (t, emit s (.atsRequest f pasid page t write))
  else none

/-- A miss of access `id`: it joins the outstanding request for its page, or one is sent when the limits
of the unit allow (R363). -/
def startMiss (s : State) (id : Nat) (a : Acc) : State :=
  let f := servingFunc s a.n
  match atsFor s f (accPasid s a) (pageOf a.addr) with
  | some t => updAcc s id fun a => { a with st := .xlt t }
  | none =>
    match sendAts s f (accPasid s a) (pageOf a.addr) a.n a.ctx a.gen (needsWrite a) with
    | none => s
    | some x => updAcc x.2 id fun a => { a with st := .xlt x.1 }

/-- A page of context `c` of clearing `n` is translated ahead of its use (R365), unless it is held or asked for already,
its function translates nothing, or lock-step holds its clearing (R500). -/
def translateAhead (s : State) (n c addr : Nat) (write : Bool) : State :=
  let f := servingFunc s n
  let k := getCtx s c
  if !isHost addr || !k.pasidValid || s.xlt.atsOff.getLsbD f || lsFrozen s n ||
      s.xlt.entries.any (entryFor f k.pasid (pageOf addr)) || (atsFor s f k.pasid (pageOf addr)).isSome then s
  else match sendAts s f k.pasid (pageOf addr) n c k.gen write with
    | none => s
    | some x => x.2

/-- An access waits for its translation or its page. -/
def awaitsPage (a : Acc) : Bool :=
  match a.st with
  | .xlt _ | .noIndex | .fault _ => true
  | .ready | .mem | .host _ | .fab _ => false

/-- A miss of the access may be sent: an envelope but a transfer translates at most 16 pages ahead of its fetch stage,
and of its finish stage (R365). -/
def aheadRoom (s : State) (a : Acc) : Bool :=
  match a.client with
  | .env t e => (match getEnv s t e with
      | some v => isTransfer (envOpcode v.bytes) ||
          ((accList s).filter fun x => accOfEnv t e x.2 && (x.2.kind == .write) == (a.kind == .write) && awaitsPage x.2).length < 16
      | none => true)
  | _ => true

/-! Page requests (R366 to R369). -/

/-- Key of a page request: function × 512 + PRG index. -/
def priKey (f i : Nat) : Nat := f * 512 + i

/-- The outstanding page request for a page. -/
def priFor (s : State) (f pasid page : Nat) : Option Nat :=
  (s.xlt.pri.find? fun kv => match kv.2 with
    | some r => r.func == f && r.pasid == pasid && r.page == page && !r.late
    | none => false).map (·.1)

/-- The least free PRG index of a function. -/
def freePrg (s : State) (f : Nat) : Option Nat :=
  (List.range 512).find? fun i => tabGet none s.xlt.pri (priKey f i) == none

/-- The faulting envelope is switched out (R369): counted once, and XLT_WFAULT says where. -/
def switchOut (s : State) (a : Acc) : State :=
  match a.client with
  | .env t e =>
    match getTask s t, getEnv s t e with
    | some k, some v =>
      if v.out then s
      else
        let s := updEnv s t e fun v => { v with out := true }
        let s := updXwin s k.n fun w => { w with pageRequests := w.pageRequests + 1 }
        xltFault s k v qsOk (a.addr / 4096 * 4096)
    | _, _ => s
  | .fetch q | .cpl q =>
    updXwin s a.n fun w =>
      { w with
        pageRequests := w.pageRequests + 1, code := qsOk, queue := q, addr := word (a.addr / 4096 * 4096)
        tag := 0, tile := 0xFFFFFFFF }
  | _ => s

/-- Access `id` meets a page fault (R366, R367). -/
def pageFault (s : State) (id : Nat) (a : Acc) : State :=
  let f := servingFunc s a.n
  let pasid := accPasid s a
  let page := pageOf a.addr
  let s := updXlt s fun x => { x with inval := x.inval.map fun i => { i with accs := i.accs.filter (· != id) } }
  if s.xlt.priOff.getLsbD f || s.xlt.stopped.getLsbD f then answerAcc s id (.failed qsXltPriStopped)
  else if a.asked then answerAcc s id (.failed qsXltPageRefused)
  else
    match priFor s f pasid page with
    | some k => switchOut (updAcc s id fun a => { a with st := .fault k }) a
    | none =>
      match freePrg s f with
      | none => updAcc s id fun a => { a with st := .noIndex }
      | some i =>
        let s := updXlt s fun x => { x with pri := tabSet none x.pri (priKey f i) (some ⟨f, pasid, page, needsWrite a, 0, false⟩) }
        let s := switchOut (updAcc s id fun a => { a with st := .fault (priKey f i) }) a
        emit s (.pageRequest f pasid page i (needsWrite a))

/-- The accesses that wait on translation request `t`. -/
def waitersOf (s : State) (t : Nat) : List (Nat × Acc) := (accList s).filter fun a => a.2.st == .xlt t

/-- The accesses that wait on page request `k`. -/
def faultersOf (s : State) (k : Nat) : List (Nat × Acc) := (accList s).filter fun a => a.2.st == .fault k

/-- An invalidation `i` that was old by tag `t`, as it stood in `w`, waits for the accesses that waited on
that tag (R379). -/
def joinWaiters (t : Nat) (ids : List Nat) (i w : Inval) : Inval :=
  if w.tags.elem t then { i with accs := i.accs ++ ids } else i

/-- A Translation Completion that grants something serves those who wait for it (R363): they issue with its frame, or their page
faults. Where one that keeps no entry is used for them, they are old (R379). -/
def grantWaiters (s : State) (t : Nat) (r w : Bool) (frame : Nat) : State :=
  forEach (waitersOf s t) s fun s a =>
    if if needsWrite a.2 then w else r then updAcc s a.1 fun a => { a with st := .ready, frame := some frame }
    else if lsFrozen s a.2.n then updAcc s a.1 fun a => { a with st := .noIndex }
    else pageFault s a.1 a.2

/-- An invalidation that a request was old by waits for those who use its completion alone (R379). -/
def joinInvals (was s : State) (t : Nat) (ids : List Nat) : State :=
  updXlt s fun x => { x with inval := List.zipWith (joinWaiters t ids) x.inval was.xlt.inval }

/-- A Translation Completion is acted on (R363). One that is to fill an entry waits while none can be taken (R362). -/
def translated (s : State) (t : Nat) (r : AtsReply) : State :=
  match getHostOut s t with
  | none => s
  | some o =>
    match o.use with
    | .acc _ => s
    | .dead | .lost _ _ => freeHostOut s t
    | .ats page write n fill =>
      let ws := waitersOf s t
      let was := s
      match r with
      | .failed => forEach ws (freeHostOut s t) fun s a => answerAcc s a.1 (.failed qsXltAtsFailed)
      | .granted r w u frame =>
        let fits := fun (write : Bool) => if write then w else r
        let e : XltEntry := ⟨o.func, o.pasid.getD 0, page, frame, r, w, false, n⟩
        let fills := fill && !u && (fits write || ws.any fun a => fits (needsWrite a.2))
        if fills && !canFill s e then updXlt s fun x => { x with heldFills := x.heldFills ++ [(t, r, w, frame)] }
        else
          let s := freeHostOut s t
          let s := if fill then s else joinInvals was s t ((ws.filter fun a => u || fits (needsWrite a.2)).map (·.1))
          if u then forEach ws s fun s a => updAcc s a.1 fun a => { a with st := .ready, plain := true }
          else
            let s' := if fills then fillEntry s e else s
            grantWaiters s' t r w frame

/-- TRANSLATION_COMPLETION (R363); a tag whose completion has come, and waits for an entry, awaits no other. -/
def translationDone (s : State) (t : Nat) (r : AtsReply) : State :=
  if s.xlt.heldFills.any fun h => h.1 == t then s else translated s t r

/-- The completions that wait for an entry are tried again, oldest first (R362). -/
def fillsTurn (s : State) : State :=
  forEach s.xlt.heldFills (updXlt s fun x => { x with heldFills := [] }) fun s h =>
    translated s h.1 (.granted h.2.1 h.2.2.1 false h.2.2.2)

/-- The context that a function and PASID are bound to: Live or Draining. -/
def ctxBound (s : State) (f pasid : Nat) : Bool :=
  (definedClearings s).any fun n => servingFunc s n == f && (ctxsOf s n).any fun c =>
    let k := getCtx s c
    k.st != .free && k.pasidValid && k.pasid == pasid

/-- A function has a Live or Draining context. -/
def funcBound (s : State) (f : Nat) : Bool :=
  (definedClearings s).any fun n => servingFunc s n == f && (ctxsOf s n).any fun c => (getCtx s c).st != .free

/-- A page is asked for an access, or waits for an index. -/
def pageAsked (a : Acc) : Bool :=
  match a.st with
  | .noIndex | .fault _ => true
  | .ready | .xlt _ | .mem | .host _ | .fab _ => false

/-- The envelope of an access whose page has been answered is switched in again, once no other page of it is asked for;
a copy's tile is translated again in whole (R369, R374). -/
def switchIn (s : State) (a : Acc) : State :=
  match a.client with
  | .env t e =>
    if (accList s).any fun x => accOfEnv t e x.2 && pageAsked x.2 then s
    else
      match getTask s t, getEnv s t e with
      | some k, some v =>
        let tile := isTransfer (envOpcode v.bytes) && v.phase == 1
        let s := updEnv s t e fun v => { v with out := false, got := if tile then [] else v.got }
        if tile then forEach v.got s fun s g =>
          newAcc s (envAcc k t e g.op (.translate (byteAt g.data 0 == 1)) (2 ^ 63 + g.op * 4096) 0 [])
        else s
      | _, _ => s
  | _ => s

/-- PRG_RESPONSE (R367, R368). -/
def prgAnswer (s : State) (f pasid i code : Nat) : State :=
  let k := priKey f i
  let drop := updXlt s fun x => { x with prgDropped := x.prgDropped + 1 }
  match tabGet none s.xlt.pri k with
  | none => drop
  | some r =>
    if i ≥ 512 || r.pasid != pasid || !ctxBound s f pasid then drop
    else
      let ws := faultersOf s k
      let s := updXlt s fun x => { x with pri := tabSet none x.pri k none }
      if r.late then s
      else if code = 0 then
        forEach ws s fun s a => switchIn (updAcc s a.1 fun a => { a with st := .ready, asked := true, frame := none }) a.2
      else if code = 1 then forEach ws s fun s a => answerAcc s a.1 (.failed qsXltPageRefused)
      else
        let all := (accList s).filter fun a => match a.2.st with
          | .fault k' => k' / 512 == f
          | .noIndex => servingFunc s a.2.n == f
          | _ => false
        let s := updXlt s fun x =>
          { x with
            stopped := setBit x.stopped f true
            pri := x.pri.map fun kv => (kv.1, kv.2.map fun r => if r.func = f then { r with late := true } else r) }
        forEach all s fun s a => answerAcc s a.1 (.failed qsXltPriStopped)

/-- PAGE_REQUEST_TIMEOUT (R368): no response within XLT_PRITO.ticks tick boundaries. -/
def prgTimeout (s : State) (f i : Nat) : State :=
  let k := priKey f i
  match tabGet none s.xlt.pri k with
  | none => s
  | some r =>
    if i ≥ 512 || r.late || r.ticks < s.xlt.timeout then s
    else
      let ws := faultersOf s k
      let s := updXlt s fun x => { x with pri := tabSet none x.pri k (some { r with late := true }) }
      forEach ws s fun s a => answerAcc s a.1 (.failed qsXltPageTimeout)

/-! Invalidation (R378 to R380). -/

/-- An entry or request belongs to the function and PASID of an invalidation; no PASID: to the function. -/
def invalHits (f : Nat) (pasid : Option Nat) (g : Nat) (p : Option Nat) : Bool := g == f && (pasid.isNone || p == pasid)

/-- An access's function and PASID are those of an invalidation. -/
def accHit (s : State) (f : Nat) (pasid : Option Nat) (a : Acc) : Bool :=
  isHost a.addr && invalHits f pasid (servingFunc s a.n) (some (accPasid s a))

/-- A tile of a transfer is moving (R373): its reads or writes are under way. -/
def tileMoves (v : EnvRun) : Bool :=
  isTransfer (envOpcode v.bytes) && (v.st == .running || v.st == .draining) && (v.phase == 2 || v.phase == 3)

/-- An access belongs to a tile that is moving. -/
def accMoves (s : State) (a : Acc) : Bool :=
  match a.client with
  | .env t e => (match getEnv s t e with
      | some v => tileMoves v
      | none => false)
  | _ => false

/-- The tiles moving under a translation of a function and PASID. -/
def movingTiles (s : State) (f : Nat) (pasid : Option Nat) : List (Nat × Nat × Nat) :=
  (taskList s).flatMap fun t =>
    if invalHits f pasid (servingFunc s t.2.n) (some (getCtx s t.2.ctx).pasid) then
      (t.2.envs.zipIdx.filter fun v => tileMoves v.1).map fun v => (t.1, v.2, v.1.step)
    else []

/-- The Invalidate Completion is sent and counted (R379). -/
def invalCompletion (s : State) (f itag : Nat) : State :=
  emit (updXlt s fun x => { x with invalDone := x.invalDone + 1 }) (.invalidateCompletion f itag)

/-- ATS_INVALIDATE (R378, R379). -/
def atsInvalidate (s : State) (f : Nat) (pasid : Option Nat) (itag : Nat) : State :=
  let bound := match pasid with
    | some p => ctxBound s f p
    | none => funcBound s f
  if !bound then invalCompletion s f itag
  else
    let hit := fun (o : HostOut) => invalHits f pasid o.func o.pasid
    let isAts := fun (u : HostUse) => match u with
      | .ats _ _ _ _ => true
      | _ => false
    let tags := s.xlt.hostOut.filterMap fun kv => match kv.2 with
      | some o => if hit o && (o.translated || isAts o.use) then some kv.1 else none
      | none => none
    let s := updXlt s fun x =>
      { x with
        entries := x.entries.filter fun e => !invalHits f pasid e.func (some e.pasid)
        hostOut := x.hostOut.map fun kv => (kv.1, kv.2.map fun o =>
          if hit o then { o with use := match o.use with
            | .ats p w n _ => .ats p w n false
            | u => u } else o)
        inval := x.inval ++ [⟨f, itag, tags, [], movingTiles s f pasid⟩] }
    { s with acc := s.acc.map fun kv => (kv.1, kv.2.map fun a =>
        if a.st == .ready && accHit s f pasid a && !accMoves s a then { a with frame := none } else a) }

/-- INVALIDATE_DRAINED (R379): every old request has drained. -/
def invalDrained (s : State) (f itag : Nat) : State :=
  match s.xlt.inval.find? fun i => i.func == f && i.itag == itag with
  | none => s
  | some i =>
    if i.tags == [] && i.accs.all (fun a => (getAcc s a).isNone) && i.tiles.all (fun m => match getEnv s m.1 m.2.1 with
        | some v => !(tileMoves v && v.step == m.2.2)
        | none => true) then
      invalCompletion (updXlt s fun x => { x with inval := x.inval.erase i }) f itag
    else s

/-- Unissued accesses of a function and PASID that wait on translation or a page start afresh. -/
def restartAccs (s : State) (f : Nat) (pasid : Option Nat) : State :=
  { s with acc := s.acc.map fun kv => (kv.1, kv.2.map fun a =>
      if unissued a && accHit s f pasid a then { a with st := .ready, frame := none } else a) }

/-- A context leaves Live (R380): its entries are freed, and Translation Completions still to come for it
are discarded. -/
def xltCtxLeft (s : State) (c : Nat) : State :=
  match ctxOwner s c with
  | none => s
  | some n =>
    let f := servingFunc s n
    let k := getCtx s c
    if !k.pasidValid then s
    else
      let s := restartAccs s f (some k.pasid)
      updXlt s fun x =>
        { x with
          entries := x.entries.filter fun e => !(e.func == f && e.pasid == k.pasid)
          hostOut := x.hostOut.map fun kv => (kv.1, kv.2.map fun o =>
            if o.func = f && o.pasid = some k.pasid then { o with use := match o.use with
              | .ats p _ m _ => .lost p m
              | u => u } else o) }

/-- A reset of function `f` frees its entries and page requests, and clears its bit of XLT_PRISTOP (R380). -/
def xltFuncReset (s : State) (f : Nat) : State :=
  let s := restartAccs s f none
  updXlt s fun x =>
    { x with
      entries := x.entries.filter fun e => e.func != f, stopped := setBit x.stopped f false
      pri := x.pri.filter fun kv => kv.1 / 512 != f }

/-! Commands. -/

/-- An hp_c completion arrives (R364). -/
def hostReadDone (s : State) (t : Nat) (st : HostStatus) (data : List Byte) : State :=
  match getHostOut s t with
  | none => s
  | some o =>
    match o.use with
    | .ats _ _ _ _ | .lost _ _ => s
    | .dead => freeHostOut s t
    | .acc id =>
      let s := freeHostOut s t
      match getAcc s id with
      | none => s
      | some a =>
        match st with
        | .ok => answerAcc (countHost s a a.len) id (.ok ((data ++ zeroBytes a.len).take a.len))
        | .poisoned => answerAcc s id (.failed qsXltSrcPoisoned)
        | .unsupported | .abort => answerAcc s id (.failed qsXltHostError)

end Sys2Proof.Machine
end

