-- ==== Sys2Proof/Machine/Access.lean ====
section
/-! DEFINITION. The issue of accesses: to the stores, to hp_i and to the fabric port (R356, R359, R363,
R457), and the answers of memory and fabric to them. -/

namespace Sys2Proof.Machine

/-- An access's generation as it issues: a ring's is its context's now (R465). -/
def issueGen (s : State) (a : Acc) : Nat :=
  match a.client with
  | .fetch _ | .cpl _ => (getCtx s a.ctx).gen
  | _ => a.gen

/-- An access enters by the host port: it is one of a transfer whose operands name host memory, a COPY or COPY_2D by source
or destination, a MODEL_LOAD or an UNSEAL by its source (R158, R190, R197; log entry 147). -/
def entersByHost (s : State) (a : Acc) : Bool :=
  match a.client with
  | .env t e =>
    (match getEnv s t e with
      | some v =>
        let op := envOpcode v.bytes
        let src := isHost (leAt v.bytes 0x20 8)
        if op = 0x40 || op = 0x41 then src || isHost (leAt v.bytes 0x28 8) else (op == 0x32 || op == 0x50) && src
      | none => false)
  | .fetch _ | .cpl _ | .bitmap _ | .acct _ => false

/-- Accesses of engine `g` that are in flight. -/
def engineFlight (s : State) (g : Nat) : Nat :=
  ((accList s).filter fun a => !unissued a.2 && (match a.2.client with
    | .env t e => (match getEnv s t e with
        | some v => v.engine == some g
        | none => false)
    | _ => false)).length

/-- It is a gather envelope. -/
def gathers (v : EnvRun) : Bool := 0x10 ≤ envOpcode v.bytes && envOpcode v.bytes ≤ 0x12

/-- Accesses in flight of the lookups on engine `g` that stage `c` makes (R264), by their numbers modulo 4: 0 the source,
1 rows, 2 output, 3 bitmap granules. -/
def stageFlight (s : State) (g c : Nat) : Nat :=
  ((accList s).filter fun a => !unissued a.2 && a.2.op % 4 == c && (match a.2.client with
    | .env t e => (match getEnv s t e with
        | some v => v.engine == some g && gathers v
        | none => false)
    | _ => false)).length

/-- The stages of a lookup on engine `g` (R264, R276): 64 granules of its source in flight, one row READ in a cclk and
2,048 in flight, one output granule in a cclk and 256 in flight. -/
def stagePace (s : State) (a : Acc) (g : Nat) (v : EnvRun) : Bool :=
  if !gathers v then true
  else match a.op % 4 with
    | 0 => stageFlight s g 0 < 64
    | 1 => (getEngine s g).readAt != some (nowCclk s) && stageFlight s g 1 < 2048
    | 2 => (getEngine s g).writeAt != some (nowCclk s) && stageFlight s g 2 < 256
    | _ => true

/-- An access's engine may issue it: it is not in reset (R466), its stage keeps its pace (R264, R276), and its clearing is not
frozen (R500). -/
def engineRoom (s : State) (a : Acc) : Bool :=
  match a.client with
  | .env t e => !lsFrozen s a.n && (match getEnv s t e with
      | some v => (match v.engine with
          | some g => !(getEngine s g).resetting && stagePace s a g v
          | none => true)
      | none => true)
  | _ => true

/-- An engine that issues an access has done so in this cclk (R276). -/
def markPace (s : State) (a : Acc) : State :=
  match a.client with
  | .env t e =>
    (match getEnv s t e with
      | some v => (match v.engine, gathers v, a.op % 4 with
          | some g, true, 1 => updEngine s g fun x => { x with readAt := some (nowCclk s) }
          | some g, true, 2 => updEngine s g fun x => { x with writeAt := some (nowCclk s) }
          | _, _, _ => s)
      | none => s)
  | _ => s

/-- The place of an access in the source order of R158: the host port, its engine, or its queue. One with neither takes the
host port's (log entry 147). -/
def accRank (s : State) (a : Acc) : Nat :=
  match a.client with
  | .env t e =>
    if entersByHost s a then 193
    else match (getEnv s t e).bind (·.engine) with
      | some g => 128 + g
      | none => 193
  | .fetch q | .cpl q => 194 + q
  | .bitmap _ | .acct _ => 193

/-- The memory request of an access at local plot address `p`. -/
def accReq (s : State) (id : Nat) (a : Acc) (p : Nat) : MemReq :=
  let o := p % 256
  let own := match a.client with
    | .bitmap _ | .acct _ => true
    | _ => false
  { src := .acc id (entersByHost s a), write := a.kind == .write, addr := p / 256 * 256
    data := if a.kind == .write then zeroBytes o ++ a.data else []
    be := a.mask.getD (maskOf 256 ((List.range a.len).map (· + o))), clearing := if own then none else some a.n, ctx := a.ctx
    gen := issueGen s a, cls := a.cls, entered := 0, tick := 0, rank := accRank s a, order := 0, home := 0, gidx := 0
    reserved := false, again := false }

/-- Why the gate refuses: 1 the generation, 2 the plot (R447). -/
def refusal (s : State) (a : Acc) : Nat := if issueGen s a = (getCtx s a.ctx).gen && issueGen s a != 0 then 2 else 1

/-- An access issues: its engine's pace is marked, and a write of an envelope is folded into its clearing's
lock-step digest (R498); ring writes and records are left out. -/
def foldAcc (was : State) (a : Acc) : State :=
  let s := markPace was a
  match a.kind, a.client with
  | .write, .env t _ =>
    (match getTask s t, a.mask with
      | some k, some be => foldGranule s a.n k.pin (a.addr / 256 * 256) a.data be
      | some k, none => foldRun s a.n k.pin a.addr a.data
      | none, _ => s)
  | _, _ => s

/-- The check of a request as it enters a store (R354): the gate for a context's request. A record of SCH_WACCT carries no
context, and only its own clearing's plots take it (log entry 75). A rewrite that R295 finishes is scrub traffic in a live table's
bitmap. -/
def gateOpen (s : State) (a : Acc) (p : Nat) : Bool :=
  match a.client with
  | .bitmap _ => true
  | .acct n => 8 ≤ p / 2 ^ 28 && p / 2 ^ 28 < 6400 && plotOwner s (p / 2 ^ 28) == some n && !commonsPlot s (p / 2 ^ 28)
  | .env _ _ | .fetch _ | .cpl _ => gate s (a.kind == .write) p a.ctx (issueGen s a)

/-- Issue to a local plot: through the gate into a store (R354). -/
def issuePlot (s : State) (id : Nat) (a : Acc) (p : Nat) : State :=
  if !gateOpen s a p then answerAcc s id (.refused (refusal s a))
  else if !engineRoom s a then s
  else match enterStore s (accReq s id a p) with
    | none => s
    | some s => foldAcc (updAcc s id fun a => { a with st := .mem, gen := issueGen s a }) a

/-- Issue on hp_i with `at'` and a bus address. A translation's answer is whether it asked for write permission and whether
the page has a translated address. -/
def issueBus (s : State) (id : Nat) (a : Acc) (f at' bus : Nat) : State :=
  let pasid := some (accPasid s a)
  match a.kind with
  | .translate w => answerAcc s id (.ok (leBytes 1 (bit w) ++ leBytes 1 (at' / 2)))
  | .write =>
    if !engineRoom s a then s else answerAcc (emit (countHost (foldAcc s a) a a.len) (.hostWrite f pasid at' bus a.data)) id (.ok [])
  | .read =>
    if !engineRoom s a then s
    else match freeHostTag s with
    | none => s
    | some t =>
      let s := setHostOut s t (some ⟨.acc id, f, pasid, a.n, a.ctx, issueGen s a, at' == 2⟩)
      let old := fun (i : Inval) =>
        if i.accs.elem id then { i with tags := i.tags ++ [t], accs := i.accs.filter (· != id) } else i
      let s := updXlt s fun x => { x with inval := x.inval.map old }
      emit (updAcc s id fun a => { a with st := .host t, gen := issueGen s a }) (.hostRead f pasid at' bus a.len t)

/-- Issue to host memory: the generation check, the translation, and hp_i (R356, R363). -/
def issueHost (s : State) (id : Nat) (a : Acc) (va : Nat) : State :=
  if !genOk s a.ctx (issueGen s a) || !(getCtx s a.ctx).pasidValid then answerAcc s id (.refused 1)
  else
    let f := servingFunc s a.n
    if a.plain || s.xlt.atsOff.getLsbD f then issueBus s id a f 0 va
    else match a.frame with
      | some p => issueBus s id a f 2 (p * 4096 + va % 4096)
      | none =>
        match s.xlt.entries.find? fun e => entryFor f (accPasid s a) (va / 4096) e && permits e a with
        | some e => issueBus (touchEntry s e) id a f 2 (e.frame * 4096 + va % 4096)
        | none => if aheadRoom s a then startMiss s id a else s

/-- The least free fo_ tag. -/
def freeFabTag (s : State) : Option Nat :=
  let t := leastFree (s.xlt.fabOut.map (·.1)) 4096
  if t < 4096 then some t else none

/-- Set the use of an fo_ tag. -/
def setFabOut (s : State) (t : Nat) (o : Option FabOut) : State := updXlt s fun x => { x with fabOut := tabSet none x.fabOut t o }

/-- Issue on the fabric port (R359, R457). -/
def issueFab (s : State) (id : Nat) (a : Acc) (chip addr : Nat) : State :=
  if !genOk s a.ctx a.gen then answerAcc s id (.refused 1)
  else if !engineRoom s a then s
  else match freeFabTag s with
    | none => s
    | some t =>
      let o := addr % 256
      let s := setFabOut s t (some ⟨none, some id, a.ctx, a.gen, a.n, a.kind == .write, a.addr⟩)
      let s := if a.kind == .write then countRemote (foldAcc s a) a.ctx a.len else s
      emit (updAcc s id fun a => { a with st := .fab t })
        (.fabricReq chip (addr / 256 * 256) (a.kind == .write) a.ctx a.gen a.cls t
          (if a.kind == .write then zeroBytes o ++ a.data else []) (maskOf 256 ((List.range a.len).map (· + o))))

/-- The accesses of envelope `e` of task `t` that have not issued. -/
def unissuedOf (s : State) (t e : Nat) : List (Nat × Acc) := (accList s).filter fun a => accOfEnv t e a.2 && unissued a.2

/-- The WRITEs of a record of UNSEAL issue in one cclk, all or none, so that the envelope ends between records whatever stops
it (R398, R456; log entry 87). The first one that the gate refuses is answered so, and none issues. -/
def issueRecord (s : State) (t e : Nat) : State :=
  let rs := unissuedOf s t e
  match rs.find? fun a => !gateOpen s a.2 (a.2.addr % 2 ^ 41) with
  | some a => answerAcc s a.1 (.refused (refusal s a.2))
  | none =>
    let s' := forEach rs s fun s a => issuePlot s a.1 a.2 (a.2.addr % 2 ^ 41)
    if unissuedOf s' t e = [] then s' else s

/-- An access of a frozen clearing's envelope issues nothing, no translation either (R500). -/
def heldFrozen (s : State) (a : Acc) : Bool :=
  match a.client with
  | .env _ _ => lsFrozen s a.n
  | .fetch _ | .cpl _ | .bitmap _ | .acct _ => false

/-- Issue an access by its place. -/
def issueOne (s : State) (id : Nat) (a : Acc) : State :=
  match a.st with
  | .ready =>
    (match placeOf s a.addr with
      | .plot p => issuePlot s id a p
      | .host va => issueHost s id a va
      | .remote chip x => issueFab s id a chip x
      | .bad => answerAcc s id (.refused 2))
  | .noIndex => pageFault s id a
  | _ => s

/-- Issue access `id`, where it can issue now. -/
def issueAcc (s : State) (id : Nat) : State :=
  match getAcc s id with
  | none => s
  | some a =>
    if heldFrozen s a then s
    else match a.client with
      | .env t e =>
        if unsealWrites s t e then
          if ((unissuedOf s t e).head?.map (·.1)) = some id then issueRecord s t e else s
        else issueOne s id a
      | .fetch _ | .cpl _ | .bitmap _ | .acct _ => issueOne s id a

/-- Every access that waits to issue is tried, in order of forming. -/
def issueAccs (s : State) : State := forEach (s.acc.map (·.1)) s issueAcc

/-- A memory response reaches an access: `bad` when the READ is uncorrectable, or the WRITE failed
(R458, R534). -/
def accMemory (s : State) (id : Nat) (write bad : Bool) (granule : List Byte) : State :=
  match getAcc s id with
  | none => s
  | some a =>
    if write then answerAcc s id (if bad then .failed (if (match a.client with | .env _ _ => true | _ => false) then qsXltWriteFailed else qsQCplWrite) else .ok [])
    else
      let bs := sliceAt (granule ++ zeroBytes 256) (a.addr % 256) a.len
      answerAcc s id (if bad then .spoiled bs else .ok bs)

/-- An fr_ response to an access (R359). -/
def accFabric (s : State) (id status : Nat) (granule : List Byte) : State :=
  match getAcc s id with
  | none => s
  | some a =>
    let read := a.kind == .read
    let s := if read then countRemote s a.ctx 256 else s
    let bs := sliceAt (granule ++ zeroBytes 256) (a.addr % 256) a.len
    match status with
    | 0 => answerAcc s id (.ok (if read then bs else []))
    | 1 => answerAcc s id (.failed (if read then qsXltSrcPoisoned else qsXltWriteFailed))
    | _ => answerAcc s id (.failed qsXltRemoteRefused)

/-! The commands of translation. -/

/-- HOST_READ_COMPLETION (R364). -/
def execHostReadCompletion (tag : Nat) (st : HostStatus) (data : List Byte) (s : State) : Host.Outcome State Fault Refusal :=
  .next (heard s fun s => hostReadDone s tag st data)

/-- TRANSLATION_COMPLETION (R363). -/
def execTranslationCompletion (tag : Nat) (r : AtsReply) (s : State) : Host.Outcome State Fault Refusal :=
  .next (heard s fun s => translationDone s tag r)

/-- ATS_INVALIDATE (R378). -/
def execAtsInvalidate (func : Nat) (pasid : Option Nat) (itag : Nat) (s : State) : Host.Outcome State Fault Refusal :=
  .next (heard s fun s => atsInvalidate s func pasid itag)

/-- INVALIDATE_DRAINED (R379). -/
def execInvalidateDrained (func itag : Nat) (s : State) : Host.Outcome State Fault Refusal := .next (invalDrained s func itag)

/-- PRG_RESPONSE (R367). -/
def execPrgResponse (func pasid index code : Nat) (s : State) : Host.Outcome State Fault Refusal :=
  .next (heard s fun s => prgAnswer s func pasid index code)

/-- PAGE_REQUEST_TIMEOUT (R368). -/
def execPageRequestTimeout (func index : Nat) (s : State) : Host.Outcome State Fault Refusal := .next (prgTimeout s func index)

/-- PAGE_REQUEST_INTERFACE_RESET (R367): the host resets the function's page request interface. -/
def execPageRequestInterfaceReset (func : Nat) (s : State) : Host.Outcome State Fault Refusal :=
  .next (heard s fun s => updXlt s fun x => { x with stopped := setBit x.stopped func false })

end Sys2Proof.Machine
end

