-- ==== Sys2Proof/Machine/Operands.lean ====
section
/-! DEFINITION. The forms in which a command reaches a register: who writes, through which window, and
the checks that stand before a command's own (R1, R2, R12, R13, R32, R140, R528). -/

namespace Sys2Proof.Machine

/-- The outcome of a checked write: its status, and the state it leaves. -/
abbrev Checked := Code × State

/-- A write refused with the first code that fails, or accepted with an effect (R13). -/
def checked (cs : List (Bool × Code)) (s : State) (effect : Unit → State) : Checked :=
  match firstBad cs with
  | some c => (c, s)
  | none => (qsOk, effect ())

/-- The word has no one among the bits of `mask` (R12). -/
def noBits (w mask : Word) : Bool := w &&& mask == 0

/-- The mask of bits `lo` to `hi`. -/
def bitsFrom (lo hi : Nat) : Word := word (2 ^ (hi + 1) - 2 ^ lo)

/-- `w` with its `len`-bit field at `lo` set to `v`. -/
def putField (w : Word) (lo len v : Nat) : Word :=
  (w &&& ~~~ bitsFrom lo (lo + len - 1)) ||| word (v % 2 ^ len * 2 ^ lo)

/-- hp_t_ready has not yet risen: no access is taken (R140, R146). -/
def portClosed (s : State) : Bool := s.boot.phase == .reset || s.boot.phase == .rom

/-- The clearing of a tenant's requester number. -/
def tenantOf (q : Requester) : Option Nat :=
  if 2 ≤ q.toNat && q.toNat ≤ 0x41 then some (q.toNat - 2) else none

/-- The window whose status register takes a write of `q` that reaches no window of its own: a tenant's
own window (R2, R14; log entry 11), else the global one. -/
def homeWindow (q : Requester) : Option Nat := tenantOf q

/-- A command of the global window: privileged software's alone (R1), and only from the first tick on
(R140); its status is recorded (R14). -/
def globalCmd (q : Requester) (s : State) (body : State → Checked) : State :=
  if portClosed s then s
  else if !privileged s q then recordStatus s (homeWindow q) q qsNotOwner
  else if !running s then recordStatus s none q qsImgNotRunning
  else recordStatus (body s).2 none q (body s).1

/-- A command of window `n` (R2, R44, R140). -/
def windowCmd (q : Requester) (n : Nat) (s : State) (body : State → Checked) : State :=
  if portClosed s then s
  else if !reachesWindow s q n then recordStatus s (homeWindow q) q qsNotOwner
  else if !running s then recordStatus s (some n) q qsImgNotRunning
  else recordStatus (body s).2 (some n) q (body s).1

/-- A command of the global window or of window `n`. -/
def anyWindowCmd (q : Requester) (n : Option Nat) (s : State) (body : State → Checked) : State :=
  match n with
  | none => globalCmd q s body
  | some n => windowCmd q n s body

end Sys2Proof.Machine
end

