-- ==== Sys2Proof/Machine/RemapOps.lean ====
section
/-! DEFINITION. Holds, guest remapping, restoring and unreachable pseudo-channels (R166 to R176). -/

namespace Sys2Proof.Machine

/-- A channel-wide late cause holds in the tick now open (R169). -/
def lateCause (s : State) (b : Nat) : State :=
  if running s then updCal s fun c => { c with lateNow := Nat.lor c.lateNow (2 ^ b) } else s

/-- Late cause 2 where a hold stands on `p` as it comes to be heard (R168, R169). -/
def heldNow (s : State) (p : Nat) : State := if (getPch s p).hold then lateCause s 2 else s

/-- Merge two stores by order of entry (R171). -/
def mergeReqs : List MemReq → List MemReq → List MemReq
  | [], bs => bs
  | a :: as, bs => (bs.takeWhile fun b => older b a) ++ a :: mergeReqs as (bs.dropWhile fun b => older b a)

/-- Merge the fixed stores of two pseudo-channels, clearing by clearing. -/
def mergeFixed (a b : Tab (List MemReq)) : Tab (List MemReq) :=
  a.foldl (fun t kv => tabUpd [] t kv.1 fun rs => mergeReqs rs kv.2) b

/-- A command presented to `h` in the last mc_rd_lat cclk whose response has not come (R171); an older one awaits R458. -/
def recentTo (s : State) (h : Nat) (f : InFlight) : Bool :=
  f.req.home == h && !f.dead && decide (nowCclk s ≤ f.at' + readLatency s (h / 64))

/-- The READs and WRITEs that are presented again: they go first in the guest's stores (R171). -/
def represented (s : State) (h : Nat) : List MemReq :=
  s.cal.inflight.filterMap fun kv =>
    match kv.2 with
    | some f => if recentTo s h f then some { f.req with again := true } else none
    | none => none

/-- Responses to the presentations of `h` that are made again are to be discarded (R171); a tag whose response was already
missing is free again (R458). -/
def killInflight (s : State) (h : Nat) : State :=
  updCal s fun c => { c with inflight := c.inflight.filterMap fun kv => match kv.2 with
    | none => none
    | some f =>
      if recentTo s h f then some (kv.1, some { f with dead := true })
      else if f.req.home == h && f.dead then none else some kv }

/-- Sum of two deficit tables. -/
def addTab (a b : Tab Nat) : Tab Nat := a.foldl (fun t kv => tabUpd 0 t kv.1 (· + kv.2)) b

/-- Put a request back into the store of its kind, in order of entry. -/
def reinsert (s : State) (p : Nat) (r : MemReq) : State :=
  match r.src, r.clearing with
  | .scrub _, _ | .acc _ _, none => updPch s p fun k => { k with scrub := mergeReqs [r] k.scrub }
  | _, none => updPch s p fun k => { k with own := mergeReqs [r] k.own }
  | _, some n =>
    if isFixed s n then updPch s p fun k => { k with fixed := tabUpd [] k.fixed n (mergeReqs [r]) }
    else updPch s p fun k => { k with elastic := mergeReqs [r] k.elastic }

/-- The record of a remapping that begins or ends (R447). -/
def remapRec (s : State) (h g cause done : Nat) : State :=
  raiseWide s (newRec s qsErrPchRemap 1 3 h g cause done) (definedClearings s)

/-- Every defined clearing's degraded flag is set (R36). -/
def degradeAll (s : State) : State :=
  forEach (definedClearings s) s degrade

/-- CAL_OVERCOMMIT: min_slots below slots_peak (R174). -/
def overcommitNow (s : State) : State :=
  updCal s fun c => { c with overcommit := maskOf 64 ((definedClearings s).filter fun n =>
    isFixed s n && (match (getClr s n).cfg.work with | none => false | some w => minSlots s s.cal.map n < w.slotsPeak)) }

/-- What follows every beginning and end of a remapping: manifests, late cause 5, overcommit (R171, R174). -/
def afterRemap (s : State) : State := lateCause (overcommitNow (issueAll s)) 5

/-- Margining of `p` is cut off when its remapping begins (R165). -/
def cutMargin (s : State) (p : Nat) : State :=
  if marginWaits s p then
    updCal s fun c => { c with margin := tabUpd margin0 c.margin (p / 64) fun m => { m with failed := true } }
  else s

/-- Remapping of `h` to `g` begins with a cause (R171): h's requests move into g's stores, those
presented go first, and the deficits of a hold carry over (R168). -/
def beginRemap (s : State) (h g cause : Nat) : State :=
  let again := represented s h
  let k := getPch s h
  let s := cutMargin (killInflight s h) h
  let s := updPch s h fun c =>
    { c with
      st := .remapped, cause := cause, partner := g, hold := c.hold, deficit := [], fixed := []
      elastic := [], own := [], scrub := [] }
  let s := updPch s g fun c =>
    { c with
      st := .hosting, partner := h, deficit := addTab k.deficit c.deficit, favour := []
      fixed := mergeFixed k.fixed c.fixed, elastic := mergeReqs k.elastic c.elastic
      own := mergeReqs k.own c.own, scrub := mergeReqs k.scrub c.scrub }
  let s := forEach again s fun s r => reinsert s g r
  afterRemap (degradeAll (remapRec s h g cause 0))

/-- DEVICE_FAULT (R474): flag, record, and the cause in ERR_STATUS; the dump is triggered by the
caller. -/
def markDeviceFault (s : State) (c : Code) : State :=
  raiseWide { s with err := { s.err with deviceFault := true, cause := c } }
    (newRec s qsErrHalted 3 0 0 c.toNat 2 0) (definedClearings s)

/-- A dump trigger (R479): a dump begins, or is counted as missed; none is written during start-up (R90). -/
def triggerDump (s : State) (c : Code) : State :=
  if !running s then s
  else if s.err.dumpValid || s.err.dumpBusy then
    { s with err := { s.err with missed := holdAt 16 (s.err.missed + 1) } }
  else
    { s with err := { s.err with dumpBusy := true, dumpCause := c, dumpPostmark := s.clk.postmark } }

/-- The halves of a remapped pair are taken apart: h's requests return to h's own stores (R176). -/
def unhost (s : State) (h g : Nat) : State :=
  let k := getPch s g
  let mine := fun (rs : List MemReq) => rs.filter fun r => r.home == h
  let rest := fun (rs : List MemReq) => rs.filter fun r => r.home != h
  let s := updPch s h fun c =>
    { c with
      fixed := tabMap [] mine k.fixed, elastic := mine k.elastic
      own := mine k.own, scrub := mine k.scrub }
  updPch s g fun c =>
    { c with
      st := .normal, partner := 0, fixed := tabMap [] rest k.fixed
      elastic := rest k.elastic, own := rest k.own, scrub := rest k.scrub }

/-- `p` becomes unreachable (R176, R474): state, the cause of its remapping, record, late cause 6, device fault and dump. -/
def makeUnreachable (s : State) (p cause : Nat) : State :=
  let s := updPch s p fun k => { k with st := .unreachable, cause := cause, partner := 0, deficit := [] }
  let s := raiseWide s (newRec s qsErrPchUnreachable 3 3 p (guestOf s p) 0 0) (definedClearings s)
  let s := triggerDump (markDeviceFault s qsErrPchUnreachable) qsErrPchUnreachable
  overcommitNow (issueAll (degradeAll (lateCause (heldNow s p) 6)))

/-- A hold of `p` ends and is counted, once (R167, R182). -/
def countHold (s : State) (p : Nat) : State :=
  let k := getPch s p
  if k.hold && !k.holdCounted then
    let length := min k.holdPhases 2000
    updCal (updCc (updPch s p fun k => { k with holdCounted := true }) fun v => { v with holdLongest := max v.holdLongest length }) fun c =>
      { c with holds := c.holds + 1, longest := max c.longest length }
  else s

/-- A pseudo-channel fails, or passes a hold bound (R171, R176): what it hosts becomes unreachable, and
it is remapped to its own guest where that guest can host it, and is otherwise unreachable. -/
def failPch (s : State) (p cause : Nat) : State :=
  let k := getPch s p
  if k.st = .remapped || k.st = .unreachable then s
  else
    let s := if k.st = .hosting then makeUnreachable (unhost s k.partner p) k.partner (getPch s k.partner).cause else s
    let g := guestOf s p
    if (getPch s g).st = .normal && g ≠ p then beginRemap (countHold s p) p g cause else makeUnreachable s p 0

/-- A remapped pseudo-channel whose guest is remapped by REMAP becomes unreachable (R176). -/
def remapByRanger (s : State) (p : Nat) : State := failPch s p 3

/-- `s` without a request in the stores of `g`. -/
def dropFrom (s : State) (g : Nat) (r : MemReq) : State :=
  updPch s g fun k =>
    { k with
      fixed := match r.clearing with
        | none => k.fixed
        | some n => tabUpd [] k.fixed n (dropReq r)
      elastic := dropReq r k.elastic, own := dropReq r k.own, scrub := dropReq r k.scrub }

/-- Requests of `h` in the stores of `g`, oldest first, move into h's stores as far as these have room under R193's
division, whatever their clearing's budget (R175; log entry 127). -/
def moveHome (s : State) (h g : Nat) : State :=
  let rs := (pchRequests (getPch s g)).filter fun r => r.home == h
  forEach (rs.mergeSort fun a b => !older b a) s fun s r =>
    match storeRoom s h r true with
    | none => s
    | some res => reinsert (dropFrom s g r) h { r with reserved := res }

/-- RESTORE takes effect at a boundary (R175): h's requests move back, as many as its stores hold; the
rest wait in the guest's stores. -/
def endRemap (s : State) (h : Nat) : State :=
  let g := (getPch s h).partner
  let s := updPch s h fun c => { c with st := .normal, cause := 0, partner := 0 }
  let s := updPch s g fun c => { c with st := .normal, partner := 0, favour := [] }
  afterRemap (heldNow (remapRec (moveHome s h g) h g 0 1) h)

/-- A pending CAL_GUEST_CMD meets its boundary (R171, R175, R180). Where its condition no longer holds there, the code is
that of the refusal (log entry 128). -/
def guestBoundary (s : State) : State :=
  match s.cal.guestCmd with
  | none => s
  | some (op, h) =>
    let s := updCal s fun c => { c with guestCmd := none, guestDone := true, guestCode := qsOk, guestPch := h }
    let k := getPch s h
    let g := guestOf s h
    if op = 1 then
      if k.st = .normal || k.st = .hosting then
        if (getPch s g).st = .normal then remapByRanger s h
        else updCal s fun c => { c with guestCode := qsCalGuestUnavailable }
      else updCal s fun c => { c with guestCode := qsCalGuestUnavailable }
    else if k.st ≠ .remapped then updCal s fun c => { c with guestCode := qsCalNotRemapped }
    else if k.failLevel then updCal s fun c => { c with guestCode := qsCalStillFailed }
    else endRemap s h

/-- Requests of a restored pseudo-channel that wait in its old guest's stores move home as entries free,
oldest first (R175). -/
def drainRestored (s : State) : State :=
  forEach (s.cal.pch.map (·.1)) s fun s g =>
    if (getPch s g).st = .hosting then s
    else
      let hs := (((pchRequests (getPch s g)).map (·.home)).filter fun h => h != g && storePch s h != g).dedup
      forEach hs s fun s h => moveHome s h g

/-! CAL_GUEST_CMD and CAL_MG_CMD. -/

/-- CAL_GUEST_CMD (R175, R179, R180): the checks in the order of its field map, then those of R175; the result
register reports the latest command. -/
def guestCommand (q : Requester) (w : Word) (s : State) : State :=
  globalCmd q s fun s =>
    let h := field w 0 11
    let op := field w 16 4
    let k := getPch s h
    let g := getPch s (guestOf s h)
    let r := checked
      [(noBits w (bitsFrom 11 15 ||| bitsFrom 20 63), qsReservedNonzero),
       (h < 1280 && (op == 1 || op == 2), qsIllegalValue),
       (op != 2 || k.st == .remapped, qsCalNotRemapped),
       (op != 1 || ((k.st == .normal || k.st == .hosting) && g.st == .normal), qsCalGuestUnavailable),
       (s.cal.guestCmd.isNone, qsCalBusy)]
      s fun _ => updCal s fun c => { c with guestCmd := some (op, h), guestCode := qsOk, guestPch := h, guestDone := false }
    if r.1 == qsOk then r
    else (r.1, updCal s fun c => { c with guestCode := r.1, guestPch := h, guestDone := true })

/-- CAL_MG_CMD (R165, R181). -/
def marginCommand (q : Requester) (w : Word) (s : State) : State :=
  globalCmd q s fun s =>
    let stack := field w 48 5
    let p := field w 40 6
    let m := tabGet margin0 s.cal.margin stack
    checked
      [(noBits w (bitsFrom 46 47 ||| bitsFrom 53 63), qsReservedNonzero),
       (stack < 20, qsIllegalValue), (!m.busy, qsCalMgBusy),
       ((getPch s (64 * stack + p)).st != .remapped, qsCalPchFailed)]
      s fun _ =>
        let m := { m with busy := true, done := false, pch := p, op := field w 32 8, failed := false }
        emit (updCal s fun c => { c with margin := tabSet margin0 c.margin stack m }) (.margin stack p (field w 32 8) (field w 0 32))

end Sys2Proof.Machine
end

