-- ==== Sys2Proof/Machine/CalendarCmds.lean ====
section
/-! DEFINITION. Commands of the memory calendar and of elastic regulation: phases, holds, failures,
remapping, margining, and the tunable registers (R157 to R184, R206 to R211). -/

namespace Sys2Proof.Machine

/-- Every command of the block answers a next state. -/
abbrev Result := Host.Outcome State Fault Refusal

/-- The pseudo-channels of the device. -/
def allPchs : List Nat := List.range 1280

/-- The calendar is driven: from the end of phase 3 on (R130, R132). -/
def calendarDriven (s : State) : Bool := running s || s.boot.wheelOn

/-- Absolute cclk at which `p` is presented in phase `j` (R153, R535): present_cclk in a tick that is locked throughout; in
any other the edge that the wires give, or where they give none the cclk in which the phase is commanded (log entry 45). -/
def presentAt (s : State) (w : PhaseWires) (j p : Nat) : Nat :=
  match w.edges with
  | _ :: _ => s.clk.tickStart + subValue w.edges (p % 16)
  | [] => if s.clk.lock = 0 then nowCclk s else s.clk.tickStart + presentCclk j p s.clk.lock

/-- cp_ib_ready as each core drives it (R101). -/
def ibWires (s : State) (held : List Nat) : State :=
  forEach ((s.sch.cores.map (·.1) ++ held).dedup) s fun s c => updCore s c fun k => { k with ibHeld := held.contains c }

/-- `p` fails or passes a bound of R167: R171 and R176 act at once where an image names its guest, else when one does
(R108, R131). -/
def pchFails (s : State) (p cause : Nat) : State :=
  if s.img.force.isSome then failPch s p cause
  else if s.boot.failed.any (fun f => f.1 == p) then s
  else { s with boot := { s.boot with failed := s.boot.failed ++ [(p, cause)] } }

/-- A hold of `p` is heard: it is not remapped (R168). -/
def holdCounts (s : State) (p : Nat) : Bool := (getPch s p).st != .remapped

/-- Holds that have passed 2,000 phases (R167). -/
def holdLimits (s : State) : State :=
  forEach ((s.cal.pch.filter fun kv => kv.2.hold && 2000 < kv.2.holdPhases).map (·.1)) s fun s p =>
    if holdCounts s p then pchFails s p 2 else s

/-- One phase on every pseudo-channel (R152, R157), or of the start-up wheel (R132). -/
def calendarPhase (w : PhaseWires) (s : State) : State :=
  let j := s.clk.phase
  let next := fun (s : State) => { s with clk := { s.clk with phase := j + 1 } }
  if running s then
    if j < phasesOfTick (tickUs s) then
      let t := forEach allPchs (ibWires s w.ibHeld) fun t p => phaseOn w j (presentAt s w j p) t p
      next (drainRestored (scrubFill 5120 (holdLimits t)))
    else s
  else if s.boot.wheelOn then
    if j < 9765 then next (holdLimits (forEach allPchs s fun t p => phaseStartup w j (presentAt s w j p) t p)) else s
  else s

/-- CALENDAR_PHASE (R157): the phase numbered `s.clk.phase`; past the last phase of the tick lies the
guard, in which nothing is presented (R152). -/
def execCalendarPhase (wires : PhaseWires) (s : State) : Result := .next (calendarPhase wires s)

/-- Causes that hold on into the tick now open: a hold in force, an unreachable pseudo-channel (R169). -/
def standingCauses (s : State) : State :=
  let held := s.cal.pch.any fun kv => kv.2.hold && holdCounts s kv.1
  let lost := s.cal.pch.any fun kv => kv.2.st == .unreachable
  updCal s fun c => { c with lateNow := 4 * bit held + 64 * bit lost, corrected := [] }

/-- Commands presented to `p` in this cclk or later complete after the hold that begins now (R107, R108). -/
def markHeld (s : State) (p : Nat) : State :=
  updCal s fun c => { c with inflight := c.inflight.map fun kv => (kv.1, kv.2.map fun f =>
    if f.req.home == p && decide (nowCclk s ≤ f.at') then { f with held := true } else f) }

/-- A hold begins (R108, R166, R167): the ninth within 1 s fails the pseudo-channel with cause 2. -/
def holdBegin (s : State) (p : Nat) : State :=
  let k := getPch s p
  if !calendarDriven s || p ≥ 1280 || k.hold then s
  else
    let s := updPch (markHeld s p) p fun k => { k with hold := true, holdPhases := 0, holdCounted := false }
    if !holdCounts s p then s
    else
      let recent := k.holdStarts.filter fun t => nowRef s < 100000000 + t
      let s := lateCause (updPch s p fun k => { k with holdStarts := recent ++ [nowRef s] }) 2
      if recent.length ≥ 8 then pchFails s p 2 else s

/-- HOLD_BEGIN (R166): a bit of mc_hold rises. -/
def execHoldBegin (p : Nat) (s : State) : Result := .next (holdBegin s p)

/-- A hold ends (R166, R182): it is counted where no remapping has ended it before, and catch-up's turn starts at
the lowest number. -/
def holdEnd (s : State) (p : Nat) : State :=
  if !(getPch s p).hold then s
  else
    let t := if holdCounts s p then countHold s p else s
    updPch t p fun k => { k with hold := false, catchTurn := 0, holdPhases := 0 }

/-- HOLD_END (R166): the bit of mc_hold falls. -/
def execHoldEnd (p : Nat) (s : State) : Result := .next (heard s fun s => holdEnd s p)

/-- HOLD_LIMIT (R167): the hold of `p`, of 2,000 phases, passes that length, and `p` is treated as failed with cause 2. -/
def execHoldLimit (p : Nat) (s : State) : Result :=
  .next (if (getPch s p).hold && holdCounts s p && 2000 ≤ (getPch s p).holdPhases then pchFails s p 2 else s)

/-- A bit of mc_pch_fail takes a level (R108, R171). -/
def pchFailLevel (s : State) (p : Nat) (level : Bool) : State :=
  let was := (getPch s p).failLevel
  let s := updPch s p fun k => { k with failLevel := level }
  if level && !was then pchFails s p 1 else s

/-- PCH_FAIL (R171): remapping begins, or the pseudo-channel becomes unreachable (R176). -/
def execPchFail (p : Nat) (level : Bool) (s : State) : Result :=
  .next (if calendarDriven s && p < 1280 then pchFailLevel s p level else s)

/-- REMAP (R171, R175): CAL_GUEST_CMD with op REMAP. -/
def execRemap (q : Requester) (w : Word) (s : State) : Result := .next (guestCommand q (putField w 16 4 1) s)

/-- RESTORE (R175): CAL_GUEST_CMD with op RESTORE. -/
def execRestore (q : Requester) (w : Word) (s : State) : Result := .next (guestCommand q (putField w 16 4 2) s)

/-- MARGINING_REQUEST (R165): CAL_MG_CMD. -/
def execMarginingRequest (q : Requester) (w : Word) (s : State) : Result := .next (marginCommand q w s)

/-- mc_mg_rsp arrives (R165, R184). -/
def marginResponse (s : State) (stack : Nat) (rsp : BitVec 32) : State :=
  let m := tabGet margin0 s.cal.margin stack
  if m.busy then
    let m := { m with rsp := rsp.toNat, busy := false, done := true, code := if m.failed then qsCalPchFailed else qsOk }
    updCal s fun c => { c with margin := tabSet margin0 c.margin stack m }
  else s

/-- MARGINING_RESPONSE (R165). -/
def execMarginingResponse (stack : Nat) (rsp : BitVec 32) (s : State) : Result := .next (heard s fun s => marginResponse s stack rsp)

/-! Tunable parameters (R65, R206 to R211). -/

/-- The latest accepted tunable values of clearing `n` (R206). -/
def acceptedTun (s : State) (n : Nat) : Tunables := (getClr s n).tunNext.getD (getClr s n).tun

/-- Accepted values wait for the next tick boundary (R207). -/
def acceptTun (s : State) (n : Nat) (t : Tunables) : State := updClr s n fun c => { c with tunNext := some t }

/-- `v` lies within a tunable's bounds (R57). -/
def inBounds (ts : List Tunable) (c v : Nat) : Bool :=
  match ts[c]? with
  | none => false
  | some t => t.least ≤ v && v ≤ t.most

/-- A write of ELA_CLASS(n, c) (R206, R209). -/
def elaClass (q : Requester) (n c : Nat) (w : Word) (s : State) : State :=
  globalCmd q s fun s =>
    let g := (getClr s n).cfg
    let t := acceptedTun s n
    let target := field w 0 20
    let budget := field w 32 16
    checked
      [(noBits w (bitsFrom 20 31 ||| bitsFrom 48 63), qsReservedNonzero), (defined s n, qsClrAbsent),
       ((target == t.target.getD c 0 || g.tunable.getLsbD 0) && (budget == t.budget.getD c 0 || g.tunable.getLsbD 1),
        qsImgNotTunable),
       (inBounds g.latency c target && inBounds g.budget c budget, qsImgTuneRange)]
      s fun _ => acceptTun s n { t with target := t.target.set c target, budget := t.budget.set c budget }

/-- ELA_CLASS_WRITE (R206): ELA_CLASS(n, c). -/
def execElaClassWrite (q : Requester) (n c : Nat) (w : Word) (s : State) : Result := .next (elaClass q n c w s)

/-- A write of ELA_CTRL(n) (R206, R210). -/
def elaCtrl (q : Requester) (n : Nat) (w : Word) (s : State) : State :=
  globalCmd q s fun s =>
    let g := (getClr s n).cfg
    let t := acceptedTun s n
    let mask := BitVec.ofNat 8 (field w 0 8)
    let urg := [field w 8 8, field w 16 8, field w 24 8]
    checked
      [(noBits w (bitsFrom 32 63), qsReservedNonzero), (defined s n, qsClrAbsent),
       ((mask == t.mask || g.tunable.getLsbD 2) && (urg == t.urgency || g.tunable.getLsbD 3), qsImgNotTunable),
       (mask != 0 && mask &&& g.classMaskMax == mask &&
          (1 ≤ field w 8 8 && field w 8 8 < field w 16 8 && field w 16 8 < field w 24 8), qsImgTuneRange)]
      s fun _ => acceptTun s n { t with mask := mask, urgency := urg }

/-- ELA_CTRL_WRITE (R206): ELA_CTRL(n). -/
def execElaCtrlWrite (q : Requester) (n : Nat) (w : Word) (s : State) : Result := .next (elaCtrl q n w s)

/-- The tunable values of a section, as at a start-up (R67). -/
def initialTun (g : ClearingCfg) : Tunables :=
  ⟨g.latency.map (·.initial), g.budget.map (·.initial), g.classMask, g.urgency⟩

/-- cp_urg_thr takes the thresholds in force of the clearing that holds each core's pair, and 0 for a core that none holds:
only at a tick boundary (R196). -/
def driveUrgency (s : State) : State :=
  forEach (List.range 128) s fun s c =>
    let thr := match coreOwner s c with
      | none => []
      | some n => (getClr s n).tun.urgency
    if (getCore s c).urgThr = thr then s else emit (updCore s c fun k => { k with urgThr := thr }) (.urgThr c thr)

/-- Tuned values return to their initial values (R67). -/
def resetTun (s : State) (n : Nat) : State :=
  updClr s n fun c => { c with tun := initialTun c.cfg, tunNext := none }

/-- M and L of every class return to 0, as at Resetting and at APPLY (R199). -/
def resetMeas (s : State) (n : Nat) : State :=
  updClr s n fun c =>
    { c with classes := (List.range 8).map fun i => { ((c.classes[i]?).getD meas0) with measured := 0, level := 0, doneMax := 0 } }

/-- An accepted write of tunables takes effect at a boundary (R66, R207): whether a field of the manifest changes. -/
def tunBoundary (s : State) (n : Nat) : State × Bool :=
  match (getClr s n).tunNext with
  | none => (s, false)
  | some t =>
    let old := (getClr s n).tun
    (updClr s n fun c => { c with tun := t, tunNext := none }, t.target != old.target || t.budget != old.budget)

/-- The ramp update of one class (R199): M, then L, against the target of this boundary. -/
def rampUpdate (m : ClassMeas) (openMax target : Nat) : ClassMeas :=
  let x := max m.doneMax openMax
  let mm := if x ≥ m.measured then x else m.measured - (m.measured - x + 7) / 8
  let r := mm * 32 / target
  let hit := target ≤ mm
  { m with
    measured := mm, level := if r ≤ 16 then 0 else if r ≥ 31 then 15 else r - 16, doneMax := 0
    atTarget := hit, atTargetTicks := m.atTargetTicks + bit hit
    demotedTicks := m.demotedTicks + bit m.demotedNow, demotedNow := false }

end Sys2Proof.Machine
end

