-- ==== Sys2Proof/Machine/Numerics.lean ====
section
/-! DEFINITION. The arithmetic of the gather-pool engines: element formats (R250), the exact accumulator
(R270), finishing (R271, R273, R274) and the raw accumulator layout (R257, R259, R272). -/

namespace Sys2Proof.Machine

/-- A decoded element or weight (R250): a finite value is m × 2^e. -/
inductive Val where
  | nan
  | inf (neg : Bool)
  | fin (m e : Int)
  deriving DecidableEq, Repr, Inhabited

/-- A floating format: exponent and fraction widths, bias, and whether the greatest exponent means infinity
and NaN (IEEE) or holds numbers but for the all-ones code (E4M3). -/
structure FloatFmt where
  eb : Nat
  mb : Nat
  bias : Int
  ieee : Bool
  deriving DecidableEq, Repr

/-- The floating formats by their codes, 0x2 to 0x6 (R250, R255). -/
def floatFmt (c : Nat) : FloatFmt :=
  match c with
  | 2 => ⟨4, 3, 7, false⟩
  | 3 => ⟨5, 2, 15, true⟩
  | 4 => ⟨5, 10, 15, true⟩
  | 5 => ⟨8, 7, 127, true⟩
  | _ => ⟨8, 23, 127, true⟩

/-- Decode the bits of a floating format exactly (R250). -/
def decodeFloat (f : FloatFmt) (x : Nat) : Val :=
  let m := x % 2 ^ f.mb
  let e := x / 2 ^ f.mb % 2 ^ f.eb
  let neg := x / 2 ^ (f.mb + f.eb) % 2 == 1
  let sgn : Int := if neg then -1 else 1
  if e = 2 ^ f.eb - 1 && (if f.ieee then m != 0 else m = 2 ^ f.mb - 1) then .nan
  else if e = 2 ^ f.eb - 1 && f.ieee then .inf neg
  else if e = 0 then .fin (sgn * m) (1 - f.bias - f.mb)
  else .fin (sgn * (2 ^ f.mb + m : Nat)) ((e : Int) - f.bias - f.mb)

/-- Element `k` of a row in format `c` (R250). -/
def decodeElem (c : Nat) (row : List Byte) (k : Nat) : Val :=
  match c with
  | 0 => .fin (signedOf 4 (byteAt row (k / 2) / (if k % 2 = 0 then 1 else 16) % 16)) 0
  | 1 => .fin (signedOf 8 (byteAt row k)) 0
  | 2 | 3 => decodeFloat (floatFmt c) (byteAt row k)
  | 4 | 5 => decodeFloat (floatFmt c) (leAt row (2 * k) 2)
  | _ => decodeFloat (floatFmt 6) (leAt row (4 * k) 4)

/-- A lane of a bag in progress (R270). -/
structure Lane where
  acc : Int
  nan : Bool
  sat : Bool
  deriving DecidableEq, Repr, Inhabited

/-- An empty lane. -/
def lane0 : Lane := ⟨0, false, false⟩

/-- floor(m × 2^e) of a magnitude. -/
def shiftFloor (m : Nat) (e : Int) : Nat := if 0 ≤ e then m * 2 ^ e.toNat else m / 2 ^ (-e).toNat

/-- The sign of a value, as negative. -/
def negVal : Val → Bool
  | .nan => false
  | .inf n => n
  | .fin m _ => m < 0

/-- A value is zero. -/
def zeroVal : Val → Bool
  | .fin m _ => m == 0
  | _ => false

/-- A value is an infinity. -/
def infVal : Val → Bool
  | .inf _ => true
  | _ => false

/-- add_product of R270: element `x`, weight `w`, table floor `f`. -/
def addProduct (l : Lane) (x w : Val) (f : Int) : Lane :=
  if x = .nan || w = .nan then { l with nan := true }
  else if (infVal x && zeroVal w) || (infVal w && zeroVal x) then { l with nan := true }
  else
    let raw : Option Nat := match x, w with
      | .fin m e, .fin m' e' => some (shiftFloor (m.natAbs * m'.natAbs) (e + e' - f))
      | _, _ => none
    let top : Nat := 2 ^ 256 - 1
    let mag := match raw with
      | some v => if top < v then top else v
      | none => top
    let clamped := match raw with
      | some v => decide (top < v)
      | none => true
    let neg := xor (negVal x) (negVal w)
    { l with acc := l.acc + (if neg then -(mag : Int) else mag), sat := l.sat || clamped }

/-- Largest finite value's code in each output format (R274). -/
def maxFinCode (c : Nat) : Nat :=
  match c with
  | 2 => 0x7E
  | 3 => 0x7B
  | 4 => 0x7BFF
  | 5 => 0x7F7F
  | _ => 0x7F7FFFFF

/-- Canonical NaN of each output format (R274). -/
def canonNan (c : Nat) : Nat :=
  match c with
  | 2 => 0x7F
  | 3 => 0x7E
  | 4 => 0x7E00
  | 5 => 0x7FC0
  | _ => 0x7FC00000

/-- Bytes per lane of an output format (R255). -/
def laneBytes (c : Nat) : Nat :=
  match c with
  | 2 | 3 => 1
  | 4 | 5 => 2
  | 6 => 4
  | _ => 48

/-- floor(log2(n / d)) of a positive quotient. -/
def log2Quot (n d : Nat) : Int :=
  let k : Int := (Nat.log2 n : Int) - Nat.log2 d
  let below : Bool := if 0 ≤ k then n < d * 2 ^ k.toNat else n * 2 ^ (-k).toNat < d
  if below then k - 1 else k

/-- Round n / d to an integer, ties to even. -/
def divEven (n d : Nat) : Nat :=
  let q := n / d
  let r := n % d
  if 2 * r > d || (2 * r = d && q % 2 = 1) then q + 1 else q

/-- round_rne of the positive quotient n / d in format `c`, as the code of its magnitude, and whether it
passes the largest finite value (R271): roundTiesToEven, once, with unbounded exponent range. -/
def roundCode (c n d : Nat) : Nat × Bool :=
  let f := floatFmt c
  let e := max (log2Quot n d) (1 - f.bias)
  let q := e - f.mb
  let r := if 0 ≤ q then divEven n (d * 2 ^ q.toNat) else divEven (n * 2 ^ (-q).toNat) d
  let up := r = 2 ^ (f.mb + 1)
  let r' := if up then 2 ^ f.mb else r
  let e' := if up then e + 1 else e
  let code := if r' < 2 ^ f.mb then r' else ((e' + f.bias).toNat) * 2 ^ f.mb + (r' - 2 ^ f.mb)
  if maxFinCode c < code then (maxFinCode c, true) else (code, false)

/-- The sign bit of an output format. -/
def signCode (c : Nat) : Nat := 2 ^ (8 * laneBytes c - 1)

/-- The value ±n / d finished in format `c`: its code and whether it saturated (R271). -/
def finishQuot (c : Nat) (neg : Bool) (n d : Nat) : Nat × Bool :=
  if n = 0 then (0, false)
  else
    let r := roundCode c n d
    (r.1 + (if neg then signCode c else 0), r.2)

/-- m × 2^e as a quotient of naturals. -/
def quotOf (m : Nat) (e : Int) : Nat × Nat := if 0 ≤ e then (m * 2 ^ e.toNat, 1) else (m, 2 ^ (-e).toNat)

/-- finish of R271: the lane's code and its sat; `mean` divides by the bag's length. -/
def finishLane (c : Nat) (l : Lane) (mean : Option Nat) (f : Int) : Nat × Bool :=
  if l.nan then (canonNan c, l.sat)
  else
    let q := quotOf l.acc.natAbs f
    let r := finishQuot c (l.acc < 0) q.1 (q.2 * mean.getD 1)
    (r.1, l.sat || r.2)

/-- Of two values neither NaN, the greater (R273). -/
def maxVal (a b : Val) : Val :=
  match a, b with
  | .inf true, _ => b
  | _, .inf true => a
  | .inf false, _ => a
  | _, .inf false => b
  | .fin m e, .fin m' e' =>
    let k := min e e'
    if m * 2 ^ (e - k).toNat < m' * 2 ^ (e' - k).toNat then b else a
  | .nan, _ => a
  | _, .nan => b

/-- A lane of max pooling (R273): the elements of the rows that are not poisoned. -/
def maxLane (c : Nat) (xs : List Val) : Nat × Bool :=
  match xs with
  | [] => (0, false)
  | x :: r =>
    if xs.any (· == .nan) then (canonNan c, false)
    else match r.foldl maxVal x with
      | .nan => (canonNan c, false)
      | .inf neg => (maxFinCode c + (if neg then signCode c else 0), true)
      | .fin m e =>
        let q := quotOf m.natAbs e
        finishQuot c (m < 0) q.1 q.2

/-- The 48 bytes of a lane in the raw accumulator format (R257). -/
def accLane (l : Lane) : List Byte :=
  leBytes 40 (l.acc % (2 : Int) ^ 320).toNat ++ leBytes 1 (bit l.nan + 2 * bit l.sat) ++ zeroBytes 7

/-- Read a lane of the raw accumulator format. -/
def readAccLane (bs : List Byte) (o : Nat) : Lane :=
  ⟨signedOf 320 (leAt bs o 40), byteAt bs (o + 40) % 2 == 1, byteAt bs (o + 40) / 2 % 2 == 1⟩

/-- The sum of lanes, saturated at ±(2^319 − 1) (R259). -/
def sumLanes (ls : List Lane) : Lane :=
  let a := (ls.map (·.acc)).sum
  let top : Int := 2 ^ 319 - 1
  let past := top < a || a < -top
  ⟨if top < a then top else if a < -top then -top else a, ls.any (·.nan), ls.any (·.sat) || past⟩

end Sys2Proof.Machine
end

