-- ==== Sys2Proof/Machine/QueueOps.lean ====
section
/-! DEFINITION. Queue commands, doorbells, the hot-queue cache, envelope fetch and admission (R214 to
R236, R240 to R245, R536). -/

namespace Sys2Proof.Machine

/-! Descriptors and own traffic. -/

/-- Local plot address of queue `q`'s descriptor (R529). -/
def descAddr (q : Nat) : Nat := 64 * q

/-- The eight words of a queue's descriptor (R215). -/
def queueWords (k : Queue) : List Word :=
  let st := match k.st with
    | .disabled => 0
    | .enabled => 1
    | .disabling => 2
    | .error => 3
  [word k.ringBase, word k.cplBase, word k.acctBase, pack [(0, 32, k.depth), (32, 32, k.cplDepth)],
   pack [(0, 12, k.ctx), (16, 8, k.vector), (24, 2, st), (26, 1, bit k.irq), (32, 16, k.coalesceCount), (48, 16, k.coalesceUs)],
   pack [(0, 32, k.tail), (32, 32, k.head)], pack [(0, 32, k.cplTail), (32, 32, k.cplHead)], k.dbWord]

/-- qflags [1:0] of a queue. -/
def queueStNum (k : Queue) : Nat := field ((queueWords k).getD 4 0) 24 2

/-- An own request waits for an entry (R159). -/
def pushOwn (s : State) (r : MemReq) : State := updQue s fun u => { u with ownWait := u.ownWait ++ [r] }

/-- Own requests enter the stores as entries free, in order. -/
def issueOwn (s : State) : State :=
  forEach s.que.ownWait s fun s r =>
    match s.que.ownWait with
    | [] => s
    | x :: rest =>
      if x == r then
        match enterStore s r with
        | none => s
        | some s => updQue s fun u => { u with ownWait := rest }
      else s

/-! The hot-queue cache (R221, R223). -/

/-- Cached queues of clearing `n`. -/
def hotOf (s : State) (n : Nat) : List Nat := s.que.hot.filter fun q => queueOwner s q == some n

/-- Cache entries reserved to clearing `n`: min(256, queue_count). -/
def hotReserve (s : State) (n : Nat) : Nat := min 256 (512 * (getClr s n).cfg.dbCount)

/-- An entry of the cache is open to clearing `n` without eviction. -/
def hotRoom (s : State) (n : Nat) : Bool :=
  let beyond := (definedClearings s).map fun m => (hotOf s m).length - hotReserve s m
  (hotOf s n).length < hotReserve s n ||
    beyond.sum < 32768 - ((definedClearings s).map (hotReserve s)).sum

/-- Queue `q` may be evicted for clearing `n`: its own, or one beyond another clearing's reserve. -/
def evictable (s : State) (n q : Nat) : Bool :=
  match queueOwner s q with
  | some m => m == n || hotReserve s m < (hotOf s m).length
  | none => true

/-- The queue to evict for clearing `n` (R223): the least recently used of the first kind that exists. -/
def evictQueue (s : State) (n : Nat) : Option Nat :=
  let qs := s.que.hot.filter (evictable s n)
  match qs.find? fun q => (getQueue s q).head == (getQueue s q).tail && tasksOfQueue s q == [] with
  | some q => some q
  | none => qs.find? fun q => (getQueue s q).served

/-- Queue `q` becomes the most recently used. -/
def touchQueue (s : State) (q : Nat) : State := updQue s fun u => { u with hot := u.hot.erase q ++ [q] }

/-- The pending map of R222 as it stands for queue `q` and its seven neighbours is written (R529). -/
def pushPending (s : State) (q : Nat) : State :=
  let b := ((List.range 8).map fun i => if (getQueue s (q / 8 * 8 + i)).spilled then 2 ^ i else 0).sum
  pushOwn s (ownReq (.own 0) true (0x04400000 + q / 8) (leBytes 1 b))

/-- A doorbell word enters the FIFO, replaces its queue's waiting word, or is spilled (R221, R222). -/
def fifoPut (s : State) (q : Nat) (w : Word) : State :=
  if s.que.fifo.any fun e => e.1 == q then
    updQue s fun u => { u with fifo := u.fifo.map fun e => if e.1 = q then (q, w) else e }
  else if s.que.fifo.length < 8192 then
    let s := updQue s fun u => { u with fifo := u.fifo ++ [(q, w)], arrived := u.arrived.erase q, misses := u.misses + 1 }
    pushOwn s (ownReq (.own (q + 1)) false (descAddr q) (zeroBytes 64))
  else
    pushPending (pushOwn (updQueue s q fun k => { k with dbWord := w, spilled := true })
      (ownReq (.own 0) true (descAddr q + 0x38) (leBytes 8 w.toNat))) q

/-- The READ of queue `q`'s descriptor is answered: its word in the FIFO can be applied (R221). -/
def descArrived (s : State) (q : Nat) : State :=
  if s.que.fifo.any (fun e => e.1 == q) && !s.que.arrived.contains q then updQue s fun u => { u with arrived := q :: u.arrived } else s

/-- The doorbell word that a queue's own pointers make. -/
def pointerWord (k : Queue) : Word := pack [(0, 32, k.tail), (32, 32, k.cplHead)]

/-- Evict queue `q` (R223): its descriptor is written back, fetched envelopes are dropped, and it re-enters
the FIFO where its head differs from its tail. -/
def evict (s : State) (q : Nat) : State :=
  let k := getQueue s q
  let s := updQue s fun u => { u with hot := u.hot.erase q }
  let s := updQueue (dropClient s (.fetch q)) q fun k =>
    { k with waiting := false, tried := [], buffered := [], fetch := none, fetchGot := [], served := false }
  let s := pushOwn s (ownReq (.own 0) true (descAddr q) ((queueWords k).flatMap fun w => leBytes 8 w.toNat))
  if k.head = k.tail then s else fifoPut s q (pointerWord k)

/-- Queue `q` enters the cache; none while no entry can be had. -/
def enterCache (s : State) (q : Nat) : Option State :=
  if s.que.hot.contains q then some (touchQueue s q)
  else
    match queueOwner s q with
    | none => none
    | some n =>
      if hotRoom s n then some (touchQueue s q)
      else (evictQueue s n).map fun v => touchQueue (evict s v) q

/-! Doorbells (R219 to R222). -/

/-- db_check of R219. -/
def dbCheck (k : Queue) (w : Word) : Bool :=
  let t := field w 0 32
  let ch := field w 32 32
  u32sub t k.head ≤ k.depth && u32sub k.tail k.head ≤ u32sub t k.head && u32sub k.cplTail ch ≤ u32sub k.cplTail k.cplHead

/-- A doorbell of queue `q` is refused at application (R219). -/
def dbRefuse (s : State) (q : Nat) (c : Code) : State :=
  match queueOwner s q with
  | none => s
  | some n => updQwin s n fun w => { w with dbRefused := w.dbRefused + 1, dbCode := c, dbQueue := q }

/-- A doorbell word is applied to queue `q` (R219); completion entries that it hands back are released (R233). -/
def dbApply (s : State) (q : Nat) (w : Word) : State :=
  let k := getQueue s q
  let ch := field w 32 32
  let freed := if ch = k.cplHead then k.freed else k.freed + 1
  if k.st == .disabled then dbRefuse s q qsQDisabled
  else if !dbCheck k w then dbRefuse s q qsDbTail
  else if k.st == .enabled then updQueue s q fun k => { k with tail := field w 0 32, cplHead := ch, freed := freed }
  else updQueue s q fun k => { k with cplHead := ch, freed := freed }

/-- Spilled words move into the FIFO as entries free, lowest queue number first (R222). -/
def unspillAll (s : State) : State :=
  forEach ((s.queues.filter fun kv => kv.2.spilled).map (·.1)) s fun s q =>
    if s.que.fifo.length < 8192 then
      let w := (getQueue s q).dbWord
      fifoPut (pushPending (updQueue s q fun k => { k with dbWord := 0, spilled := false }) q) q w
    else s

/-- The ring page of the next fetch of queue `q` is translated as the cache takes the queue (R365). -/
def ringAhead (s : State) (q : Nat) : State :=
  let k := getQueue s q
  match queueOwner s q with
  | none => s
  | some n => translateAhead s n k.ctx (k.ringBase + 64 * ((k.head + k.buffered.length) % 2 ^ 32 % k.depth)) false

/-- DOORBELL_APPLY (R221): the descriptor of queue `q` has arrived, and its word in the FIFO is applied. -/
def doorbellApply (s : State) (q : Nat) : State :=
  match s.que.fifo.find? fun e => e.1 == q with
  | none => s
  | some e =>
    if !s.que.arrived.contains q then s
    else
      match enterCache s q with
      | none => s
      | some t =>
        let t := if s.que.hot.contains q then t else ringAhead t q
        unspillAll (dbApply (updQue t fun u => { u with fifo := u.fifo.filter (fun e => e.1 != q), arrived := u.arrived.erase q }) q e.2)

/-- DOORBELL_APPLY (R221). -/
def execDoorbellApply (queue : Nat) (s : State) : Result := .next (doorbellApply s queue)

/-- A doorbell write of `rq` to doorbell `d` of page `p` (R218, R219): the page and the clearing are checked
at arrival, and the word is applied, queued or spilled. -/
def doorbellWrite (rq : Requester) (p d : Nat) (w : Word) (s : State) : State :=
  let q := 512 * p + d
  match dbPageOwner s p with
  | none => recordStatus s none rq qsNotOwner
  | some n =>
    let c := getClr s n
    if c.st != .opened || s.clk.postmark < c.serveFrom then recordStatus s (some n) rq qsClrBadState
    else
      let s := recordStatus s (some n) rq qsOk
      if s.que.hot.contains q then
        dbApply (touchQueue (updQue s fun u => { u with hits := u.hits + 1 }) q) q w
      else fifoPut s q w

/-! Returned envelopes. -/

/-- Where a task begins by the flags as they stand (R536). -/
def taskStarts (bs : List Byte) : Bool := !envFlag bs 2 || envFlag bs 0

/-- The end flags of a refused batch (R536): the last before each beginning, and the batch's last. -/
def endFlags : List (List Byte) → List Bool
  | [] => []
  | [_] => [true]
  | _ :: b :: r => taskStarts b :: endFlags (b :: r)

/-- Return envelopes at the head of queue `q` as dead letters with these codes; head passes them. -/
def refuseHead (s : State) (q : Nat) (codes : List Code) : State :=
  let k := getQueue s q
  let bs := k.buffered.take codes.length
  let ds := (codes.zip bs).zip (endFlags bs)
  let s := updQueue (stopWaiting s q) q fun k =>
    { k with buffered := k.buffered.drop codes.length, head := (k.head + codes.length) % 2 ^ 32 }
  returnDead s q (ds.map fun d => (d.1.1, envTag d.1.2, d.2))

/-! Fetch (R227, R228). -/

/-- Fetched envelopes that clearing `n` holds. -/
def bufferedOf (s : State) (n : Nat) : Nat :=
  ((s.queues.filter fun kv => queueOwner s kv.1 == some n).map fun kv => kv.2.buffered.length + kv.2.fetch.getD 0).sum

/-- Entries of the envelope buffer open to clearing `n` (R228): 1,024 reserved, the rest shared. -/
def bufferRoom (s : State) (n : Nat) : Nat :=
  let beyond := ((definedClearings s).map fun m => bufferedOf s m - 1024).sum
  (1024 - bufferedOf s n) + (65536 - 1024 * (definedClearings s).length - beyond)

/-- Begin a fetch for queue `q` where it can fetch: toward tail, at most 1,024 ahead of head, up to the end
of the ring. -/
def fetchStart (s : State) (q : Nat) : State :=
  let k := getQueue s q
  match queueOwner s q with
  | none => s
  | some n =>
    if k.st == .enabled && k.fetch.isNone && !deadWaits k && s.que.hot.contains q then
      let at' := (k.head + k.buffered.length) % 2 ^ 32
      let i := at' % k.depth
      let c := min (min (u32sub k.tail at') (1024 - k.buffered.length)) (min (k.depth - i) (bufferRoom s n))
      if c = 0 then s
      else
        let s := updQueue s q fun k => { k with fetch := some c, fetchGot := [] }
        forEach ((pieces (k.ringBase + 64 * i) (64 * c)).zipIdx) s fun s p =>
          newAcc s (ringAcc s q (.fetch q) p.2 .read p.1.1 p.1.2 [])
    else s

/-- Envelopes as 64-byte pieces. -/
def chunk64 : Nat → List Byte → List (List Byte)
  | 0, _ => []
  | k + 1, bs => if bs.length < 64 then [] else bs.take 64 :: chunk64 k (bs.drop 64)

/-- A head envelope whose batch can never be covered by one doorbell is returned at once (R227). -/
def oversizeHead (s : State) (q : Nat) : State :=
  let k := getQueue s q
  match k.buffered with
  | b :: _ => if k.st == .enabled && envFlag b 3 && k.depth < envBatchLen b && !deadWaits k then refuseHead s q [qsStmTooBig] else s
  | [] => s

/-- Envelopes arrive from the ring of queue `q`, or the read fails (R228, R241). -/
def fetchArrive (s : State) (q : Nat) (r : HostRead) : State :=
  let k := getQueue s q
  match k.fetch, r with
  | none, _ => s
  | some _, .failed => fetchFailed (dropClient s (.fetch q)) q k.ringBase
  | some c, .bytes bs =>
    let s := updQueue (dropClient s (.fetch q)) q fun k => { k with fetch := none, fetchGot := [], buffered := k.buffered ++ chunk64 c bs }
    oversizeHead s q

/-- ENVELOPE_FETCH (R228). -/
def execEnvelopeFetch (queue : Nat) (r : HostRead) (s : State) : Result := .next (fetchArrive s queue r)

/-- A fetch whose reads have all been answered is delivered. -/
def fetchSettle (s : State) (q : Nat) : State :=
  let k := getQueue s q
  if k.fetch.isSome && !(accList s).any (fun a => a.2.client == .fetch q) then fetchArrive s q (.bytes (gotBytes k.fetchGot)) else s

/-- The accounting record of an end completion as it is written: its latency runs to the write (R198, R230). -/
def recordNow (s : State) (i : CplItem) : List Byte :=
  match i.env.bind fun x => getTask s x.1 with
  | some k => taskRecord s k
  | none => i.acct

/-- The next write of queue `q`'s completions begins: one at a time, a dead letter without a reserved entry
only into a free one (R230, R234). -/
def cplStart (s : State) (q : Nat) : State :=
  let k := getQueue s q
  if k.writing then s
  else
    match k.items.find? fun i => i.kept || k.acctDone || 0 < cplSpare k with
    | none => s
    | some i =>
      let s := updQueue s q fun k => { k with items := i :: k.items.erase i, writing := true }
      let k := getQueue s q
      let slot := k.cplTail % k.cplDepth
      if i.acct ≠ [] && !k.acctDone then newAcc s (ringAcc s q (.cpl q) 0 .write (k.acctBase + 32 * slot) 32 (recordNow s i))
      else newAcc s (ringAcc s q (.cpl q) 1 .write (k.cplBase + 16 * slot) 16 (cplBytes k i))

/-- What the queues do in a cclk: fetch, deliver, write completions. -/
def queuesTurn (s : State) : State :=
  forEach (s.queues.map (·.1)) s fun s q => cplStart (fetchStart (oversizeHead (fetchSettle s q) q) q) q

/-! Queue commands (R216, R217, R244). -/

/-- The staged descriptor of window `n`. -/
def stagedDesc (s : State) (n : Nat) (k : Nat) : Word := (getQwin s n).desc.getD k 0

/-- A power of two from 4 to 65,536. -/
def ringDepth (d : Nat) : Bool := [4, 8, 16, 32, 64, 128, 256, 512, 1024, 2048, 4096, 8192, 16384, 32768, 65536].contains d

/-- Step 10 of R216 for one ring: aligned, and in host form with a Live context that has a PASID, or wholly
in the clearing's own plots. -/
def ringBaseOk (s : State) (n ctx base align len : Nat) : Bool :=
  base % align == 0 && (match placeOf s base with
    | .host _ => (getCtx s ctx).st == .live && (getCtx s ctx).pasidValid
    | .plot a => a + len ≤ 2 ^ 41 && ownExtent s n a len
    | _ => false)

/-- Steps 7 to 11 of R216 on the staged descriptor. -/
def configChecks (s : State) (n : Nat) : List (Bool × Code) :=
  let w3 := stagedDesc s n 3
  let w4 := stagedDesc s n 4
  let depth := field w3 0 32
  let cplDepth := field w3 32 32
  let ctx := field w4 0 12
  let acct := (stagedDesc s n 2).toNat
  let g := (getClr s n).cfg
  [(noBits w4 (bitsFrom 12 15 ||| bitsFrom 24 25 ||| bitsFrom 27 31), qsReservedNonzero),
   (ringDepth depth && ringDepth cplDepth, qsQDepth), (inRange g.ctxBase g.ctxCount ctx, qsNotOwner),
   (ringBaseOk s n ctx (stagedDesc s n 0).toNat 64 (depth * 64) && ringBaseOk s n ctx (stagedDesc s n 1).toNat 16 (cplDepth * 16) &&
      (acct == 0 || ringBaseOk s n ctx acct 32 (cplDepth * 32)), qsQAddr),
   (field w4 16 8 ≤ 15 && 1 ≤ field w4 32 16 && field w4 32 16 ≤ 1024, qsIllegalValue)]

/-- CONFIG copies the software fields (R217). -/
def configQueue (s : State) (n q : Nat) : State :=
  let w3 := stagedDesc s n 3
  let w4 := stagedDesc s n 4
  updQueue s q fun k =>
    { k with
      ringBase := (stagedDesc s n 0).toNat, cplBase := (stagedDesc s n 1).toNat, acctBase := (stagedDesc s n 2).toNat
      depth := field w3 0 32, cplDepth := field w3 32 32, ctx := field w4 0 12, vector := field w4 16 8, irq := wbit w4 26
      coalesceCount := field w4 32 16, coalesceUs := field w4 48 16
      irqSince := if wbit w4 26 then k.irqSince else none }

/-- ENABLE (R217, R231). -/
def enableQueue (s : State) (q : Nat) : State :=
  updQueue s q fun k =>
    { k with
      st := .enabled, tail := 0, head := 0, cplTail := 0, cplHead := 0, dbWord := 0, spilled := false, buffered := []
      items := [], acctDone := false, owed := 0, cplLost := false, irqCount := 0, irqSince := none, waiting := false, tried := []
      claimTicks := 0, claimOrder := 0, claimScratch := 0, freed := 0 }

/-- DISABLE (R217): fetching and admitting stop, and fetched envelopes are returned. -/
def disableQueue (s : State) (q : Nat) : State :=
  let s := dropClient s (.fetch q)
  let s := updQueue s q fun k => { k with fetch := none, fetchGot := [], disableSeen := true }
  let s := refuseHead s q ((getQueue s q).buffered.map fun _ => qsQDisabled)
  queueSettle (updQueue s q fun k => { k with st := .disabling }) q

/-- The states that R217 allows a command in. -/
def queueAllows (op : Nat) (st : QState) : Bool :=
  match op, st with
  | 1, .disabled | 2, .disabled | 3, .enabled | 3, .error | 4, _ => true
  | _, _ => false

/-- QUE_WCMD (R216, R217, R244, R245, R533). -/
def queCommand (rq : Requester) (n : Nat) (w : Word) (s : State) : State :=
  windowCmd rq n s fun s =>
    let op := field w 0 4
    let q := field w 16 20
    let c := getClr s n
    let base : List (Bool × Code) :=
      [(noBits w (bitsFrom 4 15 ||| bitsFrom 36 63), qsReservedNonzero), (1 ≤ op && op ≤ 4, qsIllegalValue),
       (defined s n, qsClrAbsent), (c.st == .closed || c.st == .opened || c.st == .quiet, qsClrBadState),
       (queueOwner s q == some n, qsNotOwner), (queueAllows op (getQueue s q).st, qsQBadState)]
    let r := checked (if op = 1 then base ++ configChecks s n else base) s fun _ => match op with
      | 1 => configQueue s n q
      | 2 => enableQueue s q
      | 3 => disableQueue s q
      | _ => updQwin s n fun v => { v with desc := queueWords (getQueue s q) }
    let st := (getQueue r.2 q).st
    let done := r.1 != qsOk || op != 3 || st == .disabled
    (r.1, updQwin r.2 n fun v => { v with code := r.1, queue := q, st := st, done := done })

/-- CONFIG (R217). -/
def execQueConfig (q : Requester) (n : Nat) (w : Word) (s : State) : Result := .next (queCommand q n (putField w 0 4 1) s)

/-- ENABLE (R217). -/
def execQueEnable (q : Requester) (n : Nat) (w : Word) (s : State) : Result := .next (queCommand q n (putField w 0 4 2) s)

/-- DISABLE (R217). -/
def execQueDisable (q : Requester) (n : Nat) (w : Word) (s : State) : Result := .next (queCommand q n (putField w 0 4 3) s)

/-- READ (R217). -/
def execQueRead (q : Requester) (n : Nat) (w : Word) (s : State) : Result := .next (queCommand q n (putField w 0 4 4) s)

/-- STM_QUOTA_WRITE (R243). -/
def stmQuota (q : Requester) (n : Nat) (w : Word) (s : State) : State :=
  globalCmd q s fun s =>
    checked
      [(noBits w (bitsFrom 32 63), qsReservedNonzero), (defined s n, qsClrAbsent),
       (field w 0 32 ≤ plotsTotal (getClr s n).cfg * 256, qsStmQuotaRange)]
      s fun _ => updQue s fun u => { u with quota := tabSet 0 u.quota n (field w 0 32) }

/-- STM_QUOTA_WRITE (R243): STM_QUOTA(n). -/
def execStmQuotaWrite (q : Requester) (n : Nat) (w : Word) (s : State) : Result := .next (stmQuota q n w s)

/-- COALESCE_TIMEOUT (R231): the timer of a queue that counts completions runs out. -/
def execCoalesceTimeout (queue : Nat) (s : State) : Result :=
  .next (if (getQueue s queue).irq && (getQueue s queue).irqSince.isSome && (getQueue s queue).coalesceUs != 0 then queueInterrupt s queue else s)

/-! Admission (R232 to R236, R536). -/

/-- Legal opcodes (R226, R253, R287, R317, R370, R395). -/
def legalOpcode (op : Nat) : Bool :=
  op ≤ 1 || (0x10 ≤ op && op ≤ 0x12) || (0x20 ≤ op && op ≤ 0x24) || (0x30 ≤ op && op ≤ 0x33) ||
    (0x40 ≤ op && op ≤ 0x43) || op == 0x50

/-- The reserved operand bits of the gather opcodes are zero (R254): bits [6:0] of core are no reserved bits, to_core 0
or 1 (R260 step 1). -/
def gatherReserved (bs : List Byte) : Bool := byteAt bs 0x3A / 16 == 0 && leAt bs 0x3E 2 == 0 && leAt bs 0x3C 2 / 128 == 0

/-- Step 1 of R232 for one envelope. -/
def headerReserved (bs : List Byte) : Bool :=
  let op := envOpcode bs
  byteAt bs 1 / 32 == 0 && byteAt bs 2 / 8 == 0 && byteAt bs 3 == 0 && (1 < op || zeroAt bs 0x20 32) &&
    (!(0x10 ≤ op && op ≤ 0x12) || gatherReserved bs)

/-- The flags first, last and in_stream combine legally (R225). -/
def legalFlags (bs : List Byte) : Bool := envFlag bs 2 || (!envFlag bs 0 && !envFlag bs 1)

/-- Step 3 of R232, envelope by envelope: the flags of R225 in their order, the class of the stream, and
stream fields only where a task begins. `cur` is the class of the stream that is open. -/
def sequenceOk (cur : Option Nat) (bs : List Byte) : Bool :=
  let fields := leAt bs 10 2 == 0 && leAt bs 12 4 == 0 && leAt bs 16 8 == 0 && leAt bs 24 8 == 0
  match envFlag bs 2, envFlag bs 0, envFlag bs 1, cur with
  | false, false, false, none => true
  | true, true, _, none => true
  | true, false, _, some c => envClass bs == c && fields
  | _, _, _, _ => false

/-- The class of the stream that is open after an envelope. -/
def openAfter (cur : Option Nat) (bs : List Byte) : Option Nat :=
  if envFlag bs 2 && !envFlag bs 1 then (if envFlag bs 0 then some (envClass bs) else cur) else none

/-- The place of the first envelope that breaks step 3. -/
def sequenceBreak : Nat → Option Nat → List (List Byte) → Option Nat
  | _, _, [] => none
  | i, cur, b :: r => if sequenceOk cur b then sequenceBreak (i + 1) (openAfter cur b) r else some i

/-- A stream is open at the end of the batch. -/
def openAtEnd : Option Nat → List (List Byte) → Bool
  | cur, [] => cur.isSome
  | cur, b :: r => openAtEnd (openAfter cur b) r

/-- Step 4 of R232: the place of the first envelope that breaks R227; a stream that does not end gives the
batch's last (R536). -/
def batchBreak (bs : List (List Byte)) : Option Nat :=
  let bad := bs.zipIdx.find? fun p =>
    if p.2 = 0 then !(envFlag p.1 3 && 1 ≤ envBatchLen p.1 && envBatchLen p.1 ≤ 1024)
    else envFlag p.1 3 || envBatchLen p.1 != 0
  match bad with
  | some p => some p.2
  | none => if openAtEnd none bs then some (bs.length - 1) else none

/-- An envelope that stands where a batch must begin and is no head: a batch of one (R227). -/
def lonely (bs : List (List Byte)) : Option Nat :=
  match bs with
  | [b] => if envFlag b 3 then none else some 0
  | _ => none

/-- The first envelope for which `f` fails. -/
def firstWhere (bs : List (List Byte)) (f : List Byte → Bool) : Option Nat := (bs.zipIdx.find? fun p => !f p.1).map (·.2)

/-- The tasks of a batch, each by its envelopes. -/
def batchTasks : List (List Byte) → List (List (List Byte))
  | [] => []
  | b :: r =>
    match batchTasks r with
    | [] => [[b]]
    | g :: gs => match g with
      | h :: _ => if taskStarts h then [b] :: g :: gs else (b :: g) :: gs
      | [] => [b] :: gs

/-- Scratch of clearing `n` (R235). -/
def scratchOf (s : State) (n : Nat) : Nat := ((tasksOf s n).map fun t => t.2.scratch).sum

/-- STM_QUOTA(n). -/
def quotaOf (s : State) (n : Nat) : Nat := tabGet 0 s.que.quota n

/-- The scratch a batch declares. -/
def batchScratch (bs : List (List Byte)) : Nat := (bs.map envScratch).sum

/-- Steps 1 to 9 of R232 on a batch of queue `q` of clearing `n`: the first that fails, its code and the
envelope that receives it. -/
def admitRefusal (s : State) (n : Nat) (k : Queue) (bs : List (List Byte)) : Option (Code × Nat) :=
  let g := getClr s n
  let steps : List (Option Nat × Code) :=
    [(firstWhere bs headerReserved, qsReservedNonzero), (firstWhere bs fun b => legalOpcode (envOpcode b), qsEnvOpcode),
     (firstWhere bs legalFlags, qsEnvSequence), (lonely bs, qsEnvBatch), (sequenceBreak 0 none bs, qsEnvSequence),
     (batchBreak bs, qsEnvBatch),
     (firstWhere bs fun b => envDeadline b ≤ 60000000, qsIllegalValue),
     (if (getCtx s k.ctx).st == .live then none else some 0, qsEnvCtxDead),
     (firstWhere bs fun b => g.tun.mask.getLsbD (envClass b), qsClassDisabled),
     (firstWhere bs fun b => !(envFlag b 4 && g.cfg.refuseVariant), qsDetVariantRefused),
     (if (batchTasks bs).length ≤ g.cfg.streamQuota && batchScratch bs ≤ quotaOf s n && bs.length ≤ k.cplDepth then none
      else some 0, qsStmTooBig)]
  steps.findSome? fun x => x.1.map fun i => (x.2, i)

/-- The batch at the head of a queue, once it has been fetched whole: an envelope where a batch must begin
that is no head, or names no length, is a batch of one (R227). -/
def headBatch (k : Queue) : Option (List (List Byte)) :=
  match k.buffered with
  | [] => none
  | b :: _ =>
    let len := if envFlag b 3 && 1 ≤ envBatchLen b && envBatchLen b ≤ 1024 then envBatchLen b else 1
    if len ≤ k.buffered.length then some (k.buffered.take len) else none

/-- The scratch that the claim of clearing `n` keeps from queue `q`'s batch (R235): that of the oldest batch that has waited a
whole tick for scratch, by the attempt at which it first waited; every other batch counts as younger (log entry 148). -/
def claimBefore (s : State) (n q : Nat) : Nat :=
  let holds := s.queues.filter fun kv => queueOwner s kv.1 == some n && kv.2.claimOrder != 0 && 2 ≤ kv.2.claimTicks
  let oldest := holds.foldl (fun o kv => match o with
    | none => some kv
    | some x => if kv.2.claimOrder < x.2.claimOrder then some kv else some x) none
  match oldest with
  | some kv => if kv.1 = q then 0 else kv.2.claimScratch
  | none => 0

/-- A batch waits for scratch (R235). -/
def scratchWaits (s : State) (n q : Nat) (bs : List (List Byte)) : Bool :=
  !(scratchOf s n + batchScratch bs + claimBefore s n q ≤ quotaOf s n)

/-- Step 12 of R232: what is free now. -/
def freeNow (s : State) (n q : Nat) (bs : List (List Byte)) : Bool :=
  let c := (batchTasks bs).length
  (tasksOf s n).length + c ≤ (getClr s n).cfg.streamQuota && ((taskList s).filter fun t => !t.2.fenced).length + c ≤ 32768 &&
    !scratchWaits s n q bs && bs.length ≤ cplFree (getQueue s q)

/-- Steps 10 and 11 of R232, the admission gate of a barrier (R514) and a frozen clearing (R500). -/
def mayAdmit (s : State) (n : Nat) (bs : List (List Byte)) : Bool :=
  bs.all (fun b => envNotBefore b ≤ s.clk.postmark) && (getClr s n).st == .opened && !s.que.gate.getLsbD n && !lsFrozen s n

/-- What decides when a batch that waits is tried again: the tick, and what its clearing and its queue have released
(R233). -/
def tryView (s : State) (n q : Nat) : List Nat := [s.clk.postmark, tabGet 0 s.que.releases n, (getQueue s q).freed]

/-- A batch of queue `q` that waited is not tried again before the next boundary or release (R233). -/
def notAgain (s : State) (n q : Nat) : Bool := (getQueue s q).waiting && (getQueue s q).tried == tryView s n q

/-- Queue `q` has a batch that would be admitted now. -/
def readyQueue (s : State) (q : Nat) : Bool :=
  let k := getQueue s q
  match queueOwner s q, headBatch k with
  | some n, some bs =>
    k.st == .enabled && !deadWaits k && !notAgain s n q && (admitRefusal s n k bs).isNone && mayAdmit s n bs && freeNow s n q bs
  | _, _ => false

/-- The least of a list that lies after `x` in the cyclic order, ascending. -/
def nextAfter (x : Nat) (xs : List Nat) : Option Nat :=
  let least := fun (ys : List Nat) => ys.foldl (fun o y => match o with
    | none => some y
    | some z => some (min y z)) none
  match least (xs.filter (x < ·)) with
  | some y => some y
  | none => least xs

/-- The queue whose batch R233 takes among those ready. -/
def turnQueue (s : State) : Option Nat :=
  let ready := (s.queues.map (·.1)).filter (readyQueue s)
  match nextAfter s.que.lastClr (ready.filterMap (queueOwner s)) with
  | none => none
  | some n => nextAfter (tabGet (2 ^ 20) s.que.lastQueue n) (ready.filter fun q => queueOwner s q == some n)

/-- The task that a group of envelopes becomes (R236). -/
def newTask (s : State) (q n : Nat) (k : Queue) (es : List (List Byte)) : Task :=
  let f := es.headD []
  { queue := q, n := n, ctx := k.ctx, gen := (getCtx s k.ctx).gen, cls := envClass f, seed := envSeed f
    pin := s.clk.postmark, ref := nowRef s, deadline := envDeadline f, scratch := envScratch f
    order := s.que.admitted, envs := es.map envRun0, lateTicks := 0, hbm := 0, host := 0, status := qsOk
    expired := false, cut := none, endAge := none, held := none, fenced := false }

/-- Admit the batch at the head of queue `q` (R236). -/
def admitBatch (s : State) (q n : Nat) (bs : List (List Byte)) : State :=
  let k := getQueue s q
  let s := updQueue (stopWaiting s q) q fun k =>
    { k with head := (k.head + bs.length) % 2 ^ 32, buffered := k.buffered.drop bs.length, owed := k.owed + bs.length, served := true }
  let v := (bs.filter fun b => envFlag b 4).length
  let s := updQwin s n fun w => { w with variantAdmitted := w.variantAdmitted + v }
  let s := updQue s fun u => { u with admitAt := some (nowCclk s), lastClr := n, lastQueue := tabSet (2 ^ 20) u.lastQueue n q }
  forEach (batchTasks bs) s fun s es =>
    let t := leastFree (s.tasks.map (·.1)) 65536
    updQue { s with tasks := tabSet none s.tasks t (some (newTask s q n k es)) } fun u => { u with admitted := u.admitted + 1 }

/-- A batch is refused (R232): the failing envelope has the code, the others QS_STM_BATCH_REFUSED. -/
def refuseBatch (s : State) (q n : Nat) (bs : List (List Byte)) (c : Code) (i : Nat) : State :=
  let v := (bs.filter fun b => envFlag b 4).length
  let s := if c = qsDetVariantRefused then
      updQwin s n fun w => { w with variantRefused := w.variantRefused + v }
    else s
  refuseHead s q ((List.range bs.length).map fun j => if j = i then c else qsStmBatchRefused)

/-- A batch of clearing `n` waits under step 12 (R232); while it waits for scratch it is in line for the claim (R235). -/
def waitBatch (s : State) (q n : Nat) (bs : List (List Byte)) : State :=
  let s := updQwin s n fun w => { w with waits := w.waits + 1 }
  let short := scratchWaits s n q bs
  let s := updQueue s q fun k => { k with waiting := true, tried := tryView s n q }
  if !short then updQueue s q fun k => { k with claimOrder := 0, claimTicks := 0, claimScratch := 0 }
  else if (getQueue s q).claimOrder = 0 then
    updQue (updQueue s q fun k => { k with claimOrder := s.que.claims + 1, claimTicks := 0, claimScratch := batchScratch bs })
      fun u => { u with claims := u.claims + 1 }
  else s

/-- BATCH_ADMIT (R232, R233): the head batch of queue `q` is refused, waits, or is admitted. A head that its ring can never
cover is returned before the checks of R232 (R227). -/
def batchAdmit (s : State) (q : Nat) : State :=
  let s := oversizeHead s q
  let k := getQueue s q
  match queueOwner s q, headBatch k with
  | some n, some bs =>
    if k.st != .enabled || deadWaits k || notAgain s n q then s
    else match admitRefusal s n k bs with
      | some (c, i) => oversizeHead (refuseBatch s q n bs c i) q
      | none =>
        if !mayAdmit s n bs then s
        else if !freeNow s n q bs then waitBatch s q n bs
        else if turnQueue s == some q && s.que.admitAt != some (nowCclk s) then oversizeHead (admitBatch s q n bs) q
        else s
  | _, _ => s

/-- BATCH_ADMIT (R232). -/
def execBatchAdmit (queue : Nat) (s : State) : Result := .next (batchAdmit s queue)

end Sys2Proof.Machine
end

