-- ==== Sys2Proof/Machine/Tables.lean ====
section
/-! DEFINITION. Table descriptors and generations: descriptor commands (R251, R252, R303, R304), the
change store (R281 to R285, R292, R293), retirement (R296) and poisoned commons rows (R306 to R309). -/

namespace Sys2Proof.Machine

/-- The opcode and table of an envelope name a lookup of table `d` (R253). -/
def isLookup (bs : List Byte) : Bool := 0x10 ≤ envOpcode bs && envOpcode bs ≤ 0x12

/-- A table envelope (R287). -/
def isTableEnv (bs : List Byte) : Bool := 0x20 ≤ envOpcode bs && envOpcode bs ≤ 0x24

/-- The descriptor that a gather or table envelope names (R254, R288). -/
def envDesc (bs : List Byte) : Nat := if isLookup bs then leAt bs 0x38 2 else leAt bs 0x30 2

/-- An envelope has started and is not done. -/
def envLive (v : EnvRun) : Bool :=
  match v.st with
  | .unassigned | .running | .draining => true
  | .waiting | .done => false

/-- A lookup runs from its start until its completion is written; one that a fence has ended, until its engine has been
reset and its requests answered (R296). -/
def lookupRuns (s : State) (k : Task) (v : EnvRun) : Bool :=
  envLive v || (v.st == .done && v.begun && !v.written && (!k.fenced || (match v.ran with
    | some g => !((getClr s k.n).fence.any (·.stopped)) || (getEngine s g).resetting
    | none => false)))

/-- The running lookups of table `d`, each with its task (R296). -/
def lookupsOf (s : State) (d : Nat) : List (Task × EnvRun) :=
  (taskList s).flatMap fun t => (t.2.envs.filter fun v => lookupRuns s t.2 v && isLookup v.bytes && envDesc v.bytes == d).map fun v => (t.2, v)

/-- Those that an INVALIDATE of table `d` waits for: not the ones that it refuses (R304). -/
def lookupsLeft (s : State) (d : Nat) : List (Task × EnvRun) :=
  (lookupsOf s d).filter fun l => !(l.2.st == .done && l.2.code == qsGpeTableInvalid)

/-- A running envelope uses table `d` (R251 step 4). -/
def tableInUse (s : State) (d : Nat) : Bool :=
  !(lookupsOf s d).isEmpty || (taskList s).any fun t => t.2.envs.any fun v => envLive v && isTableEnv v.bytes && envDesc v.bytes == d

/-- A table envelope of table `d` is admitted and not done (R303). -/
def tableAdmitted (s : State) (d : Nat) : Bool :=
  (taskList s).any fun t => t.2.envs.any fun v => v.st != .done && isTableEnv v.bytes && envDesc v.bytes == d

/-- Table `d` is declared live (R55). -/
def isLive (s : State) (d : Nat) : Bool := match declOf s d with | none => false | some t => t.live

/-- Table `d` is a commons (R55). -/
def isCommons (s : State) (d : Nat) : Bool := match declOf s d with | none => false | some t => t.owner.isNone

/-! The change store. -/

/-- The change entry of row `r` of table `d`. -/
def chgOf (s : State) (d r : Nat) : Option Chg := s.tbl.chg.find? fun c => c.desc == d && c.row == r

/-- select_version of R284, `bitv` being the row's bitmap bit. -/
def selectVersion (s : State) (d r a : Nat) (bitv : Bool) : Bool :=
  match chgOf s d r with
  | some c => if c.published && c.pub ≤ a then c.v else !c.v
  | none =>
    let t := getDesc s d
    xor bitv (xor t.polarity (t.refreshHeld && a < t.refreshPub))

/-- Address of the bitmap byte of row `r` (R282). -/
def bitAddr (s : State) (d r : Nat) : Nat := (getDesc s d).vbitmap + r / 8

/-- A change entry is open to clearing `n` (R281): one of its 1,024, or one of the rest, which the entries of clearings
that are no longer defined hold too. -/
def chgRoom (s : State) (n : Nat) : Bool :=
  let ds := definedClearings s
  let used := fun m => (s.tbl.chg.filter fun c => c.n == m).length
  let shared := (ds.map fun m => used m - 1024).sum + (s.tbl.chg.filter fun c => !ds.contains c.n).length
  s.tbl.chg.length < 262144 && (used n < 1024 || shared < 262144 - 1024 * ds.length)

/-- Add a change entry, unpublished (R292). -/
def addChg (s : State) (d r : Nat) (v : Bool) (n : Nat) : State :=
  updTbl s fun u => { u with chg := u.chg ++ [⟨d, r, v, false, 0, false, 0, false, n⟩] }

/-- Unpublished entries of table `d`. -/
def pendingOf (s : State) (d : Nat) : List Chg := s.tbl.chg.filter fun c => c.desc == d && !c.published

/-- The clearing that writes table `d`. -/
def writerOf (s : State) (d : Nat) : Option Nat :=
  match declOf s d with
  | none => none
  | some t => match t.owner with
    | some n => some n
    | none => match t.writer with
      | some n => some n
      | none => if wbit s.tbl.privQ 20 then queueOwner s (field s.tbl.privQ 0 20) else none

/-- Unpublished entries of table `d` are discarded, and in Refreshing mode every chunk is marked as not covered. -/
def dropPending (s : State) (d : Nat) : State :=
  let s := updTbl s fun u => { u with chg := u.chg.filter fun c => !(c.desc == d && !c.published) }
  if (getDesc s d).mode == .refreshing then updDesc s d fun t => { t with covered := [] } else s

/-- R293: the unpublished entries of table `d` are discarded, and counted for its writer. -/
def discardPending (s : State) (d : Nat) : State :=
  let k := (pendingOf s d).length
  let s := dropPending s d
  match writerOf s d with
  | some n => updTwin s n fun w => { w with pendingLost := w.pendingLost + k }
  | none => s

/-- It is an UPDATE in its Write pass (R293). -/
def updateWriting (v : EnvRun) : Bool := envOpcode v.bytes == 0x20 && 2 ≤ v.phase

/-- An UPDATE of table `d` is in its Write pass. -/
def updateRuns (s : State) (d : Nat) : Bool :=
  (taskList s).any fun t => t.2.envs.any fun v => envLive v && updateWriting v && envDesc v.bytes == d

/-- Tables in Refreshing mode. -/
def refreshingCount (s : State) : Nat := (s.tbl.tbl.filter fun kv => kv.2.mode == .refreshing).length

/-- REFRESH_ABORT's act (R301): no publication, Idle, the place freed. -/
def abortRefresh (s : State) (d : Nat) : State :=
  if (getDesc s d).mode == .refreshing then updDesc s d fun t => { t with mode := .idle, covered := [] } else s

/-- Chunks of a table (R299). -/
def chunksOf (t : Tbl) : Nat := (65535 + t.rows) / 65536

/-! Poison entries (R306 to R309). -/

/-- The poison entry of a row version. -/
def poisoned (s : State) (d r : Nat) (v : Bool) : Bool := s.tbl.poison.any fun kv => kv.2 == some ⟨d, r, v⟩

/-- A record names envelope `v` of task `t`: its clearing, context, generation, tag and queue (R444). -/
def envRec (s : State) (t : Nat) (v : EnvRun) (x : ErrRec) : ErrRec :=
  match getTask s t with
  | some k => { x with clearing := some k.n, ctx := some k.ctx, generation := k.gen, tag := envTag v.bytes, queue := some k.queue }
  | none => x

/-- Row `r` of version `v` of commons table `d` is poisoned (R306, R308): every clearing is told, and the record names the request
that found it, as `x` gives its clearing, context, generation, tag and queue (R444, R446). -/
def poisonEvent (s : State) (x : ErrRec → ErrRec) (d r : Nat) (v full : Bool) : State :=
  let s := forEach (definedClearings s) s fun s n =>
    updCc (updTwin s n fun w => { w with event := true }) fun v => { v with poisonSet := setBit v.poisonSet n true }
  raiseWide s (x (newRec s qsErrCommonsPoison 2 12 d r (bit v) (bit full))) (definedClearings s)

/-- Record a poison entry (R306); with the 1,024th the list is full. -/
def addPoison (s : State) (x : ErrRec → ErrRec) (d r : Nat) (v : Bool) : State :=
  if poisoned s d r v then s
  else
    let i := leastFree (s.tbl.poison.map (·.1)) 1024
    if i < 1024 then
      let put := updTbl s fun u => { u with poison := tabSet none u.poison i (some ⟨d, r, v⟩) }
      let full := 1024 ≤ (put.tbl.poison.filter fun kv => kv.2.isSome).length
      poisonEvent (updTbl put fun u => { u with poisonFull := full }) x d r v false
    else
      raiseWide (updTbl s fun u => { u with poisonFull := true })
        (x (newRec s qsErrCommonsPoison 2 12 d r (bit v) 1)) (definedClearings s)

/-- Poison entries that meet `f` clear (R304, R309); poison_full clears when an entry frees. -/
def clearPoison (s : State) (f : Poison → Bool) : State :=
  let keep := s.tbl.poison.filter fun kv => match kv.2 with
    | some p => !f p
    | none => false
  if keep.length = s.tbl.poison.length then s else updTbl s fun u => { u with poison := keep, poisonFull := false }

/-- The rows of version `v` of table `d` with bytes in the granule at local address `g`. -/
def rowsInGranule (s : State) (d : Nat) (v : Bool) (g : Nat) : List Nat :=
  let t := getDesc s d
  let st := 32 * t.stride32
  let base := if v then t.base1 else t.base0
  let lo := (g - base - rowBytesOf s d + 1) / st
  ((List.range (256 / st + 3)).map (· + lo)).filter fun r =>
    r < t.rows && base + r * st < g + 256 && g < base + r * st + rowBytesOf s d

/-- A row granule of a commons arrived with uncorrectable ECC (R306). -/
def poisonGranule (s : State) (x : ErrRec → ErrRec) (d : Nat) (v : Bool) (g : Nat) : State :=
  forEach (rowsInGranule s d v g) s fun s r => addPoison s x d r v

/-! Retirement and the horizon (R296). -/

/-- hold of R296: a write of TBL_HOLD applies from the next cclk (R311). -/
def curHold (s : State) : Nat :=
  match s.tbl.holdWas with
  | some (h, at') => if at' = nowCclk s then h else s.tbl.hold
  | none => s.tbl.hold

/-- TBL_HOLD is written (R311). -/
def setHold (s : State) (v : Nat) : State := updTbl s fun u => { u with hold := v, holdWas := some (curHold s, nowCclk s) }

/-- can_retire of R296. -/
def canRetire (s : State) (c : Chg) : Bool :=
  let ls := lookupsOf s c.desc
  c.published && c.bitDone && c.pub + curHold s ≤ s.clk.postmark && !(ls.any fun l => l.1.pin < c.pub) &&
    !(ls.any fun l => l.2.started < c.bitCclk)

/-- A published entry retires: it is freed, and the horizon advances. -/
def retire (s : State) (d r : Nat) : State :=
  match chgOf s d r with
  | none => s
  | some c =>
    if canRetire s c then
      let s := updTbl s fun u => { u with chg := u.chg.filter fun e => !(e.desc == d && e.row == r) }
      updDesc s d fun t => { t with horizon := max t.horizon c.pub }
    else s

/-- CHANGE_ENTRY_RETIRE (R296). -/
def execChangeEntryRetire (desc row : Nat) (s : State) : Result := .next (retire s desc row)

/-- refresh_held clears (R296). -/
def heldClear (s : State) (d : Nat) : State :=
  let t := getDesc s d
  if t.refreshHeld && t.refreshPub + curHold s ≤ s.clk.postmark && !((lookupsOf s d).any fun l => l.1.pin < t.refreshPub) then
    updDesc s d fun t => { t with refreshHeld := false, horizon := max t.horizon t.refreshPub }
  else s

/-- REFRESH_HELD_CLEAR (R296). -/
def execRefreshHeldClear (desc : Nat) (s : State) : Result := .next (heldClear s desc)

/-! Descriptor commands (R251, R303, R304). -/

/-- The descriptor that staged words make (R248). -/
def stagedTable (ws : List Word) : Tbl :=
  let w := fun i => ws.getD i 0
  { tbl0 with
    base0 := (w 0).toNat, base1 := (w 1).toNat, vbitmap := (w 2).toNat, rows := field (w 3) 0 32, dim := field (w 3) 32 16
    stride32 := field (w 3) 48 16, valid := true }

/-- The requester of a descriptor command may write table `d` (R251 step 2): window `n`'s clearing, or
privileged software through the global space. -/
def mayWriteTable (s : State) (n : Option Nat) (d : Nat) : Bool :=
  match declOf s d with
  | none => false
  | some t => match n, t.owner with
    | some n, some o => n == o
    | some n, none => t.writer == some n
    | none, some _ => true
    | none, none => t.writer.isNone

/-- Two extents do not overlap. -/
def apart (a b : Nat × Nat) : Bool := a.1 + a.2 ≤ b.1 || b.1 + b.2 ≤ a.1

/-- No two of a list of extents overlap. -/
def allApart : List (Nat × Nat) → Bool
  | [] => true
  | a :: r => r.all (apart a) && allApart r

/-- Step 7 of R251: an array lies in plots of the table. -/
def arrayPlotsOk (s : State) (d : Nat) (a : Nat × Nat) : Bool :=
  (plotSpan a.1 a.2).all fun p => match declOf s d with
    | none => false
    | some t => match t.owner with
      | some n => ownPlot s n p
      | none => 8 ≤ p && commonsPlot s p

/-- The checks of R251 on a descriptor write. -/
def tableWriteChecks (s : State) (n : Option Nat) (d : Nat) (t : Tbl) : List (Bool × Code) :=
  let fmt := formatOf s d
  let live := isLive s d
  [((declOf s d).isSome, qsGpeNoTable), (mayWriteTable s n d, qsNotOwner),
   (t.base0 < 2 ^ 41, qsReservedNonzero), (!(getDesc s d).valid && !tableInUse s d && (getDesc s d).mode != .invalidating, qsGpeDescBusy),
   (t.rows != 0 && 1 ≤ t.dim && t.dim ≤ 32768 && 1 ≤ t.stride32 && t.stride32 ≤ 512 && (fmt != 0 || t.dim % 2 == 0) &&
      rowBytes fmt t.dim ≤ 32 * t.stride32, qsGpeDescSize),
   ([t.base0, t.base1, t.vbitmap].all (fun a => a < 2 ^ 41 && a % 256 == 0) &&
      (if live then t.base1 != 0 && t.vbitmap != 0 else t.base1 == 0 && t.vbitmap == 0), qsGpeDescAddr),
   ((arraysOf s d t).all (arrayPlotsOk s d) && allApart (arraysOf s d t), qsGpeDescAddr)]

/-- An entry number for a commons or a clearing: 0xFF for none (R55). -/
def ownerByte (o : Option Nat) : Nat := o.getD 0xFF

/-- The eight words of descriptor `d` (R248). -/
def tableWords (s : State) (d : Nat) : List Word :=
  let t := getDesc s d
  let image := match declOf s d with
    | none => 0
    | some x => pack [(0, 8, x.format), (8, 1, bit x.live), (9, 1, bit x.owner.isNone), (10, 1, bit t.valid),
        (16, 16, (x.floor % 65536).toNat), (32, 8, ownerByte x.owner), (40, 8, ownerByte x.writer)]
  [word t.base0, word t.base1, word t.vbitmap, pack [(0, 32, t.rows), (32, 16, t.dim), (48, 16, t.stride32)], image,
   word t.generation, word t.pubPostmark, 0]

/-- The descriptor of table `d` is written to its place in plots 0 to 7 (R247, R529; log entry 150). -/
def storeDesc (s : State) (d : Nat) : State :=
  pushOwn s (ownReq (.own 0) true (0x04000000 + 64 * d) ((tableWords s d).flatMap fun w => leBytes 8 w.toNat))

/-- TBL_WTSTATE of table `d` (R310). -/
def tableState (s : State) (d : Nat) : Word :=
  let t := getDesc s d
  let mode := match t.mode with
    | .idle => 0
    | .refreshing => 1
    | .invalidating => 2
  let openCount := (s.tbl.chg.filter fun c => c.desc == d && c.published).length
  pack [(0, 2, mode), (2, 1, bit t.polarity), (3, 1, bit t.refreshHeld), (8, 19, (pendingOf s d).length), (32, 19, openCount)]

/-- The table port of window `n`, or the global one. -/
def getTblPort (s : State) (n : Option Nat) : TblPort :=
  match n with
  | some n => (getTwin s n).port
  | none => s.tbl.port

/-- `s` with `f` applied to a table port. -/
def updTblPort (s : State) (n : Option Nat) (f : TblPort → TblPort) : State :=
  match n with
  | some n => updTwin s n fun w => { w with port := f w.port }
  | none => updTbl s fun u => { u with port := f u.port }

/-- An INVALIDATE of table `d` is done in every port that waits for it. -/
def portsDone (s : State) (d : Nat) : State :=
  let mark := fun (p : TblPort) => if p.waits && p.desc = d then { p with done := true, waits := false } else p
  let s := updTbl s fun u => { u with port := mark u.port }
  forEach allClearings s fun s n => updTwin s n fun w => { w with port := mark w.port }

/-- The end of R304: entries and poison entries of table `d` are freed and its mode is Idle. -/
def invalidateEnd (s : State) (d : Nat) : State :=
  let s := updTbl s fun u => { u with chg := u.chg.filter fun c => c.desc != d }
  let s := dropClient (clearPoison s fun p => p.desc == d) (.bitmap d)
  portsDone (updDesc s d fun t => { t with mode := .idle, covered := [] }) d

/-- INVALIDATE_DONE (R304): the last running lookup of an Invalidating table has completed. -/
def invalidateDone (s : State) (d : Nat) : State :=
  if (getDesc s d).mode == .invalidating && lookupsLeft s d == [] then invalidateEnd s d else s

/-- INVALIDATE_DONE (R304). -/
def execInvalidateDone (desc : Nat) (s : State) : Result := .next (invalidateDone s desc)

/-- INVALIDATE's effect (R304). -/
def invalidateStart (s : State) (d : Nat) : State :=
  invalidateDone (storeDesc (updDesc s d fun t => { t with valid := false, mode := .invalidating }) d) d

/-- R252 and R304 for a table whose owner enters Resetting or is redefined: the descriptor returns to its
state of R247. -/
def tableReset (s : State) (d : Nat) : State :=
  let was := getDesc s d
  let s := updDesc (invalidateEnd s d) d fun _ => tbl0
  if was == tbl0 then s else storeDesc s d

/-- TBL_WCMD and TBL_CMD (R303, R310, R311, R533). -/
def tblCommand (q : Requester) (n : Option Nat) (w : Word) (s : State) : State :=
  anyWindowCmd q n s fun s =>
    let op := field w 0 4
    let d := field w 16 16
    let t := stagedTable ((getTblPort s n).words)
    let base : List (Bool × Code) :=
      [(noBits w (bitsFrom 4 15 ||| bitsFrom 32 63), qsReservedNonzero), (1 ≤ op && op ≤ 3, qsIllegalValue), (n.all (defined s), qsClrAbsent)]
    let more : List (Bool × Code) := match op with
      | 1 => tableWriteChecks s n d t
      | 2 => [((declOf s d).isSome, qsGpeNoTable), (mayWriteTable s n d, qsNotOwner),
              ((getDesc s d).valid, qsGpeTableInvalid), (!tableAdmitted s d, qsTblBusy)]
      | _ => [((declOf s d).isSome, qsGpeNoTable),
              ((match n, declOf s d with
                  | some n, some x => x.owner.isNone || x.owner == some n
                  | _, _ => true), qsNotOwner)]
    let mark := fun (s : State) (c : Code) (done : Bool) => updTblPort s n fun p => { p with code := c, desc := d, done := done, waits := !done }
    let r := checked (base ++ more) s fun _ => match op with
      | 1 => storeDesc (mark (updDesc s d fun _ => t) qsOk true) d
      | 2 => invalidateStart (mark s qsOk false) d
      | _ =>
        updTblPort (mark s qsOk true) n fun p =>
          { p with
            words := tableWords s d, state := tableState s d, horizon := word (getDesc s d).horizon
            refresh := pack [(0, 17, (getDesc s d).covered.length), (32, 17, chunksOf (getDesc s d))] }
    if r.1 == qsOk then r else (r.1, mark s r.1 true)

/-- TABLE_WRITE (R251, R303). -/
def execTableWrite (q : Requester) (n : Option Nat) (w : Word) (s : State) : Result := .next (tblCommand q n (putField w 0 4 1) s)

/-- INVALIDATE (R303, R304). -/
def execTableInvalidate (q : Requester) (n : Option Nat) (w : Word) (s : State) : Result :=
  .next (tblCommand q n (putField w 0 4 2) s)

/-- TABLE_READ (R303). -/
def execTableRead (q : Requester) (n : Option Nat) (w : Word) (s : State) : Result := .next (tblCommand q n (putField w 0 4 3) s)

/-- When the writer clearing of a commons is fenced (R305): its unpublished entries are discarded and an
unpublished refresh is aborted; they count as lost where an UPDATE in its Write pass ends so (R293). -/
def writerFenced (s : State) (n : Nat) : State :=
  let ds : List TableDecl := match s.img.force with
    | none => []
    | some im => im.commons
  forEach ((ds.filter fun (t : TableDecl) => t.writer == some n).map (·.desc)) s fun s d =>
    abortRefresh (if updateRuns s d then discardPending s d else dropPending s d) d

/-- The tables that clearing `n` owns. -/
def ownedTables (s : State) (n : Nat) : List Nat := (getClr s n).cfg.tables.map (·.desc)

end Sys2Proof.Machine
end

