-- ==== Sys2Proof/Machine/Engines.lean ====
section
/-! DEFINITION. The start of envelopes and their engines: when an envelope may start (R226, R290), and the
assignment of engines (R263, R268). -/

namespace Sys2Proof.Machine

/-- `x` rounded up to a multiple of `k`. -/
def roundUp (x k : Nat) : Nat := (x + k - 1) / k * k

/-- Envelope `a` of a task stands before envelope `b` of another in order of admission, ring order within
a batch (R263, R290). -/
def envBefore (a b : Nat × Nat) : Bool := a.1 < b.1 || (a.1 == b.1 && a.2 < b.2)

/-- Every envelope of clearing-wide interest, with its task's number and its own. -/
def allEnvs (s : State) : List (Nat × Task × Nat × EnvRun) :=
  (taskList s).flatMap fun t => t.2.envs.zipIdx.map fun v => (t.1, t.2, v.2, v.1)

/-- The table lane of R290: no earlier table envelope of the table stands in the way. -/
def laneOpen (s : State) (k : Task) (e : Nat) (v : EnvRun) : Bool :=
  let rows := envOpcode v.bytes == 0x23
  (allEnvs s).all fun x =>
    let o := x.2.2.2
    !(isTableEnv o.bytes && envDesc o.bytes == envDesc v.bytes && envBefore (x.2.1.order, x.2.2.1) (k.order, e)) ||
      o.st == .done || (rows && envOpcode o.bytes == 0x23 && o.st != .waiting)

/-- A clearing whose tasks run: Open or Quiescing (R32, R240), and not frozen (R500). -/
def tasksRun (s : State) (n : Nat) : Bool := ((getClr s n).st == .opened || (getClr s n).st == .quiescing) && !lsFrozen s n

/-- Envelope `e` of task `t` has opcode `op` and may start now: no FENCE before it is unfinished, a FENCE
has everything before it done, and its table lane is open (R226, R290). -/
def startable (s : State) (t e op : Nat) : Bool :=
  match getTask s t, getEnv s t e with
  | some k, some v =>
    v.st == .waiting && envOpcode v.bytes == op && k.cut.isNone && !k.expired && tasksRun s k.n &&
      ((k.envs.take e).all fun o => o.st == .done || (op != 1 && envOpcode o.bytes != 1)) &&
      (!isTableEnv v.bytes || laneOpen s k e v)
  | _, _ => false

/-- Envelope `e` of task `t` starts with `body`; where it may not start, there is no such event (log entry
1). -/
def startEnv (s : State) (t e op : Nat) (body : Task → EnvRun → State → State) : State :=
  if startable s t e op then
    match getTask s t, getEnv s t e with
    | some k, some v => body k v (updEnv s t e fun v => { v with started := nowCclk s, begun := true })
    | _, _ => s
  else s

/-- An envelope that has started ends at once with a code (R17, R260). -/
def endEnv (s : State) (t e : Nat) (code : Code) : State := completeEnv s t e code false false

/-! Engines. -/

/-- Engine `g` is fenced as failed (R468). -/
def engineFailed (s : State) (g : Nat) : Bool := s.err.failedEngines.getLsbD g

/-- The engines of clearing `n` in service. -/
def enginesIn (s : State) (n : Nat) : List Nat := (enginesOf s n).filter fun g => !engineFailed s g

/-- Envelopes assigned to engine `g`. -/
def assignedTo (s : State) (g : Nat) : Nat := ((allEnvs s).filter fun x => x.2.2.2.engine == some g).length

/-- The engine that R263 gives clearing `n`'s next envelope: the fewest assigned, below 32, the lowest number;
an engine in reset takes none. -/
def pickEngine (s : State) (n : Nat) : Option Nat :=
  let free := (enginesIn s n).filter fun g => !(getEngine s g).resetting && assignedTo s g < 32
  free.foldl (fun o g => match o with
    | none => some g
    | some h => if assignedTo s g < assignedTo s h then some g else some h) none

/-- The envelopes of clearing `n` that wait for an engine. -/
def unassignedOf (s : State) (n : Nat) : List (Nat × Task × Nat × EnvRun) :=
  (allEnvs s).filter fun x => x.2.1.n == n && x.2.2.2.st == .unassigned

/-- An envelope that waits for an engine goes before another: those assigned again first, in the order of
their assignment, then by admission (R263, R268). -/
def assignBefore (x y : Nat × Task × Nat × EnvRun) : Bool :=
  let a := x.2.2.2.assigned
  let b := y.2.2.2.assigned
  if a != 0 || b != 0 then (a != 0 && (b == 0 || a < b)) else envBefore (x.2.1.order, x.2.2.1) (y.2.1.order, y.2.2.1)

/-- An envelope whose engine's group is not On, or is leaving it, waits for it, and is counted (R435, R442). -/
def countWait (s : State) (t g : Nat) : State :=
  if domainOn s (64 + g / 8) then s
  else
    let s := updPwr s fun u => { u with demandWaits := u.demandWaits + 1 }
    match getTask s t with
    | some k => updPwin s k.n fun w => { w with waits := w.waits + 1 }
    | none => s

/-- An envelope is assigned to engine `g`. -/
def assignTo (s : State) (t e g : Nat) : State :=
  let s := countWait s t g
  updTbl (updEnv s t e fun v => { v with st := .running, engine := some g, assigned := s.tbl.assigns + 1 })
    fun u => { u with assigns := u.assigns + 1 }

/-- An envelope that has passed its checks is assigned, or waits behind those that wait (R263). -/
def assignEnv (s : State) (t e n : Nat) : State :=
  match unassignedOf s n, pickEngine s n with
  | [], some g => assignTo s t e g
  | _, _ => updEnv s t e fun v => { v with st := .unassigned }

/-- ENVELOPE_ASSIGN (R263): the first that waits takes the engine, unless its clearing is frozen (R500). -/
def envelopeAssign (s : State) (t e : Nat) : State :=
  match getTask s t, getEnv s t e with
  | some k, some v =>
    if v.st == .unassigned && !lsFrozen s k.n && !(unassignedOf s k.n).any (fun x => assignBefore x (t, k, e, v)) then
      match pickEngine s k.n with
      | some g => assignTo s t e g
      | none => s
    else s
  | _, _ => s

/-- ENVELOPE_ASSIGN (R263). -/
def execEnvelopeAssign (task env : Nat) (s : State) : Result := .next (envelopeAssign s task env)

/-- The checks of an extent's form: aligned, in host form with a PASID or on this chip (R260 step 7). -/
def extentForm (s : State) (ctx a align : Nat) : Bool := a % align == 0 && hostOrLocal s a && pasidIfHost s ctx a

/-! Stream operations (R226). -/

/-- NOP (R226). -/
def execNop (task env : Nat) (s : State) : Result :=
  .next (startEnv s task env 0 fun _ _ s => endEnv s task env qsOk)

/-- FENCE (R226). -/
def execFence (task env : Nat) (s : State) : Result :=
  .next (startEnv s task env 1 fun _ _ s => endEnv s task env qsOk)

end Sys2Proof.Machine
end

