-- ==== Sys2Proof/Machine/Gather.lean ====
section
/-! DEFINITION. Gather envelopes: their operands, their checks and their start (R253 to R260, R285), and what they share
with the table envelopes: granules, and the choice of a row's version (R249, R284, R286). -/

namespace Sys2Proof.Machine

/-- The operands of a gather envelope (R254, R259). -/
structure GatherOps where
  op : Nat
  src : Nat
  dst : Nat
  /-- bags, or vectors. -/
  bags : Nat
  /-- indices, or parts. -/
  indices : Nat
  desc : Nat
  pool : Nat
  idx64 : Bool
  toCore : Bool
  fmt : Nat
  core : Nat
  deriving DecidableEq, Repr

/-- The operands of an envelope. -/
def gatherOps (bs : List Byte) : GatherOps :=
  let m := byteAt bs 0x3A
  { op := envOpcode bs, src := leAt bs 0x20 8, dst := leAt bs 0x28 8, bags := leAt bs 0x30 4, indices := leAt bs 0x34 4
    desc := leAt bs 0x38 2, pool := m % 4, idx64 := m / 4 % 2 == 1, toCore := m / 8 % 2 == 1, fmt := byteAt bs 0x3B
    core := leAt bs 0x3C 2 % 128 }

/-- It is a REDUCE. -/
def isReduce (g : GatherOps) : Bool := g.op == 0x12

/-- n_out (R253). -/
def outCount (g : GatherOps) : Nat := if g.op = 0x11 then g.indices else g.bags

/-- Pools that an opcode allows (R255). -/
def poolAllowed (op pool : Nat) : Bool :=
  match op with
  | 0x10 => true
  | 0x11 => pool == 0 || pool == 2
  | _ => pool == 0

/-- Step 1 of R260. -/
def operandsOk (g : GatherOps) : Bool :=
  poolAllowed g.op g.pool && 2 ≤ g.fmt && g.fmt ≤ 7 && (g.fmt != 7 || (!g.toCore && (g.pool == 0 || g.pool == 2))) &&
    (g.op != 0x11 || g.bags == 0) && (g.op != 0x12 || (!g.idx64 && g.indices ≤ 65535)) &&
    (if g.toCore then g.dst < 65536 else g.core == 0)

/-- Bytes of the lengths array, L of R256. -/
def lengthsBytes (g : GatherOps) : Nat := if g.op = 0x10 then roundUp (2 * g.bags) 64 else 0

/-- Bytes of an index. -/
def indexBytes (g : GatherOps) : Nat := if g.idx64 then 8 else 4

/-- Offset of the weights array (R256). -/
def weightsAt (g : GatherOps) : Nat := lengthsBytes g + roundUp (indexBytes g * g.indices) 64

/-- Bytes of the lookup block (R256). -/
def blockBytes (g : GatherOps) : Nat :=
  if g.pool = 2 then weightsAt g + 2 * g.indices else lengthsBytes g + indexBytes g * g.indices

/-- ostride (R257). -/
def outStride (dim fmt : Nat) : Nat := roundUp (dim * laneBytes fmt) 32

/-- Offset of the flag bytes of an output region, fbase − dst (R257). -/
def flagsAt (dim fmt n : Nat) : Nat := roundUp (n * outStride dim fmt) 64

/-- Bytes of an output region (R257). -/
def outBytes (dim fmt n : Nat) : Nat := flagsAt dim fmt n + n

/-- pbytes (R259). -/
def partBytes (dim n : Nat) : Nat := roundUp (outBytes dim 7 n) 256

/-- Bytes of the source extent: the lookup block, or the parts. -/
def sourceBytes (dim : Nat) (g : GatherOps) : Nat :=
  if isReduce g then (g.indices - 1) * partBytes dim g.bags + outBytes dim 7 g.bags else blockBytes g

/-- beats (R258). -/
def beatsOf (dim fmt : Nat) : Nat := (dim * laneBytes fmt + 127) / 128

/-- A job of a context holds core `c` (R260 step 9). -/
def coreHeldBy (s : State) (c ctx gen : Nat) : Bool :=
  match (getCore s c).job with
  | none => false
  | some j => match getJob s j with
    | none => false
    | some x => x.ctx == ctx && x.gen == gen && x.held.contains c

/-- Steps 1 to 5 of R260. -/
def lookupNames (s : State) (n : Nat) (g : GatherOps) : List (Bool × Code) :=
  [(operandsOk g, qsGpeOperand), ((declOf s g.desc).isSome, qsGpeNoTable),
   ((match declOf s g.desc with
      | some t => t.owner.isNone || t.owner == some n
      | none => true), qsNotOwner),
   ((getDesc s g.desc).valid, qsGpeTableInvalid), (!g.toCore || coreOwner s g.core == some n, qsNotOwner)]

/-- Steps 7 to 11 of R260. -/
def lookupExtents (s : State) (k : Task) (g : GatherOps) : List (Bool × Code) :=
  let dim := (getDesc s g.desc).dim
  [(extentForm s k.ctx g.src (if isReduce g then 256 else 64) && (g.toCore || extentForm s k.ctx g.dst 32), qsGpeAddr),
   (ownIfLocal s k.n g.src (sourceBytes dim g) && (g.toCore || ownIfLocal s k.n g.dst (outBytes dim g.fmt (outCount g))), qsNotOwner),
   (!g.toCore || coreHeldBy s g.core k.ctx k.gen, qsGpeCoreNotHeld),
   (!g.toCore || g.dst + outCount g * beatsOf dim g.fmt ≤ 65536, qsGpeDstRange),
   (enginesIn s k.n != [], qsGpeEngineNone)]

/-- It moves nothing: n_out or parts is zero (R260 step 6). -/
def lookupEmpty (g : GatherOps) : Bool := outCount g == 0 || (isReduce g && g.indices == 0)

/-- R285: the pin lies below the horizon of a live table. -/
def pinExpired (s : State) (k : Task) (d : Nat) : Bool := isLive s d && k.pin < (getDesc s d).horizon

/-- The start of a gather envelope (R260, R285). -/
def lookupStart (t e : Nat) (k : Task) (v : EnvRun) (s : State) : State :=
  let g := gatherOps v.bytes
  match firstBad (lookupNames s k.n g) with
  | some c => endEnv s t e c
  | none =>
    if lookupEmpty g then endEnv s t e qsOk
    else match firstBad (lookupExtents s k g) with
      | some c => endEnv s t e c
      | none =>
        if pinExpired s k g.desc then
          endEnv (updTwin s k.n fun w => { w with expired := w.expired + 1 }) t e qsTblPinExpired
        else assignEnv (updEnv s t e fun v => { v with coreJob := if g.toCore then (getCore s g.core).job else none }) t e k.n

/-- GATHER_POOL (R260). -/
def execGatherPool (task env : Nat) (s : State) : Result := .next (startEnv s task env 0x10 (lookupStart task env))

/-- GATHER (R260). -/
def execGather (task env : Nat) (s : State) : Result := .next (startEnv s task env 0x11 (lookupStart task env))

/-- REDUCE (R259). -/
def execReduce (task env : Nat) (s : State) : Result := .next (startEnv s task env 0x12 (lookupStart task env))

/-! The lookup block. -/

/-- The index at position `i`. -/
def indexAt (g : GatherOps) (block : List Byte) (i : Nat) : Int :=
  signedOf (8 * indexBytes g) (leAt block (lengthsBytes g + indexBytes g * i) (indexBytes g))

/-! Granules (R266). -/

/-- The granules that `len` bytes at a local plot address touch. -/
def granulesOf (a len : Nat) : List Nat :=
  if len = 0 then [] else (List.range ((a + len - 1) / 256 - a / 256 + 1)).map (· + a / 256)

/-- Local plot address as a device address of this chip (R353). -/
def deviceAddr (s : State) (a : Nat) : Nat := s.boot.chip * 2 ^ 50 + a

/-- Form granule READs for an envelope, each numbered by its granule. -/
def readGranules (s : State) (t e : Nat) (gs : List Nat) : State :=
  match getTask s t with
  | none => s
  | some k => forEach gs s fun s g => newAcc s (envAcc k t e g .read (deviceAddr s (256 * g)) 256 [])

/-- The bytes of an extent out of granule answers. -/
def granuleBytes (got : List Got) (a len : Nat) : List Byte :=
  sliceAt ((granulesOf a len).flatMap fun g => match gotAt got g with
    | some x => (x.data ++ zeroBytes 256).take 256
    | none => zeroBytes 256) (a % 256) len

/-- A granule of an extent is poisoned among the answers. -/
def extentPoisoned (got : List Got) (a len : Nat) : Bool :=
  (granulesOf a len).any fun g => got.any fun x => x.op == g && x.poisoned

/-- A phase of an envelope begins with no answer. -/
def enterPhase (s : State) (t e p : Nat) : State := updEnv s t e fun v => { v with phase := p, got := [] }

/-! Version selection (R284, R286). -/

/-- The bitmap bit of a row out of granule answers. -/
def bitmapBit (s : State) (d : Nat) (got : List Got) (r : Nat) : Bool :=
  byteAt (granuleBytes got (bitAddr s d r) 1) 0 / 2 ^ (r % 8) % 2 == 1

/-- The version of a row for pin `a`, and whether the row is poisoned by its bitmap granule. -/
def pickRow (s : State) (d : Nat) (got : List Got) (a r : Nat) : Bool × Bool :=
  if !isLive s d then (false, false)
  else if (chgOf s d r).isNone && extentPoisoned got (bitAddr s d r) 1 then (false, true)
  else (selectVersion s d r a (bitmapBit s d got r), false)

end Sys2Proof.Machine
end

