-- ==== Sys2Proof/Machine/Lookups.lean ====
section
/-! DEFINITION. The lookups on their engines (R256 to R275): the stages of R264, which overlap within an envelope and
from one to the next, the granule buffer (R266), pooling (R261, R267, R270 to R273), REDUCE (R259), and the output
(R257, R258, R269). -/

namespace Sys2Proof.Machine

/-- `s` with `f` applied to the progress of a lookup. -/
def updLook (s : State) (t e : Nat) (f : LookRun → LookRun) : State := updEnv s t e fun v => { v with look := f v.look }

/-- Go on with a lookup that still runs. -/
def whileRuns (t e : Nat) (f : State → EnvRun → State) (s : State) : State :=
  match getEnv s t e with
  | some v => if v.st == .running then f s v else s
  | none => s

/-! The stages and their order (R264). -/

/-- A stage of an engine that an envelope passes through. -/
inductive Stage where
  | fetch | resolve | rows | pool | finish
  deriving DecidableEq, Repr, Inhabited

/-- The bags, and the indices of each, have been resolved. -/
def allResolved (g : GatherOps) (l : LookRun) : Bool := isReduce g || (l.left == 0 && l.bag == outCount g)

/-- The pieces of an output region: the vectors', then the flag bytes' (R257). -/
def outPieces (dim : Nat) (g : GatherOps) : List (Nat × Nat) :=
  granulePieces g.dst (outCount g * outStride dim g.fmt) ++ granulePieces (g.dst + flagsAt dim g.fmt (outCount g)) (outCount g)

/-- The beats or the pieces of an envelope's output. -/
def outTotal (dim : Nat) (g : GatherOps) : Nat :=
  if g.toCore then outCount g * beatsOf dim g.fmt else (outPieces dim g).length

/-- A stage has no more work for envelope `e` of task `t`. -/
def stageDone (s : State) (t e : Nat) (v : EnvRun) (p : Stage) : Bool :=
  let g := gatherOps v.bytes
  let l := v.look
  match p with
  | .fetch => 1 ≤ v.phase && !(accList s).any fun a => accOfEnv t e a.2 && unissued a.2 && a.2.op % 4 == 0
  | .resolve => allResolved g l
  | .rows => allResolved g l && l.rows.length ≤ l.asked
  | .pool => l.outs.length == outCount g
  | .finish => l.formed == outTotal (getDesc s g.desc).dim g

/-- An envelope is parked on a page request (R268). -/
def lookParked (s : State) (t e : Nat) : Bool :=
  (accList s).any fun a => accOfEnv t e a.2 && (match a.2.st with
    | .fault _ | .noIndex => true
    | .ready | .xlt _ | .mem | .host _ | .fab _ => false)

/-- A stage works on this envelope: it has no work for one assigned to the engine before it, parked ones apart (R264,
R268). -/
def stageMine (s : State) (v : EnvRun) (p : Stage) : Bool :=
  (allEnvs s).all fun x =>
    let o := x.2.2.2
    !(o.engine == v.engine && isLookup o.bytes && o.st == .running && o.assigned < v.assigned) ||
      lookParked s x.1 x.2.2.1 || stageDone s x.1 x.2.2.1 o p

/-! Fetch: the lookup block, or the parts (R256, R259). -/

/-- Form READs of a source extent; the numbers of source accesses are divisible by 4. -/
def readSource (s : State) (t e op addr len : Nat) : State :=
  match getTask s t with
  | none => s
  | some k => forEach (granulePieces addr len).zipIdx s fun s p => newAcc s (envAcc k t e (4 * (op + p.2)) .read p.1.1 p.1.2 [])

/-- The READs of a REDUCE: each part's vectors, numbered from 2 j × 2^64, and flag bytes, from (2 j + 1) × 2^64. -/
def reduceReads (s : State) (t e : Nat) (g : GatherOps) : State :=
  let dim := (getDesc s g.desc).dim
  forEach (List.range g.indices) s fun s j =>
    let a := g.src + j * partBytes dim g.bags
    let s := readSource s t e (2 * j * 2 ^ 64) a (g.bags * outStride dim 7)
    readSource s t e ((2 * j + 1) * 2 ^ 64) (a + flagsAt dim 7 g.bags) g.bags

/-- A lookup begins: it asks for its source. -/
def lookBegin (t e : Nat) (s : State) (v : EnvRun) : State :=
  let g := gatherOps v.bytes
  if stageMine s v .fetch then
    let s := enterPhase s t e 1
    if isReduce g then reduceReads s t e g else readSource s t e 0 g.src (blockBytes g)
  else s

/-- The version that a row granule of a table belongs to. -/
def granuleVersion (s : State) (d g : Nat) : Bool :=
  let x := getDesc s d
  x.base1 != 0 && x.base1 ≤ 256 * g && 256 * g < x.base1 + arraySpan x (rowBytesOf s d)

/-- Row granules of a commons that arrived poisoned are recorded (R306). -/
def notePoison (s : State) (t e : Nat) (v : EnvRun) : State :=
  let d := envDesc v.bytes
  if isLookup v.bytes && isCommons s d then
    let bad := (v.got.filter fun x => x.op % 4 == 1 && x.poisoned).map fun x => x.op / 4
    forEach bad (updEnv s t e fun v => { v with got := v.got.map fun x => if x.op % 4 = 1 then { x with poisoned := false } else x })
      fun s g => poisonGranule s (envRec s t v) d (granuleVersion s d g) (256 * g)
  else s

/-- What has arrived is taken in: source bytes in their order, granules to the buffer. -/
def lookTake (t e : Nat) (s : State) (v : EnvRun) : State :=
  let g := gatherOps v.bytes
  let grans := (v.got.filter fun x => x.op % 2 == 1).map fun x => { x with op := x.op / 4 }
  let s := notePoison s t e v
  let src := if isReduce g then (v.step, v.block) else
    v.got.foldl (fun (a : Nat × List Byte) _ => match gotAt v.got (4 * a.1) with
      | some x => (a.1 + 1, a.2 ++ x.data)
      | none => a) (v.step, v.block)
  updEnv s t e fun v =>
    { v with
      step := src.1, block := src.2, got := v.got.filter fun x => x.op % 4 == 0 && (isReduce g || src.1 ≤ x.op / 4)
      look := { v.look with grans := grans ++ v.look.grans } }

/-! The granule buffer (R266). -/

/-- The granules of a resolved row. -/
def rowGrans (s : State) (v : EnvRun) (r : RowRun) : List Nat :=
  let d := envDesc v.bytes
  if r.lost then [] else granulesOf (rowAddr (getDesc s d) r.ver r.row) (rowBytesOf s d)

/-- The envelope that has assignment `a`, with its task and place: the tag of a buffer's entries. -/
def envAssigned (s : State) (a : Nat) : Option (Nat × Nat × EnvRun) :=
  ((allEnvs s).find? fun x => x.2.2.2.engine.isSome && x.2.2.2.st != .done && x.2.2.2.assigned == a).map fun x => (x.1, x.2.2.1, x.2.2.2)

/-- An entry of a granule buffer is in flight, or a waiting row needs it. -/
def bufferNeeded (s : State) (b : Nat × Nat) : Bool :=
  match envAssigned s b.1 with
  | some (t, e, v) =>
    (accList s).any (fun a => accOfEnv t e a.2 && a.2.kind == .read && a.2.op % 2 == 1 && a.2.op / 4 == b.2) ||
      (v.look.rows.take v.look.asked).any fun r => (rowGrans s v r).contains b.2
  | none => false

/-- The buffer of engine `g`: the entries of envelopes that have completed are free. -/
def bufferOf (s : State) (g : Nat) : List (Nat × Nat) :=
  (getEngine s g).buffer.filter fun b => match envAssigned s b.1 with
    | some x => x.2.2.engine == some g
    | none => false

/-- A request for an entry: served from the buffer, or given a place, the least recently used that `keep` does not
hold giving way; the buffer after it, and whether it was a hit. -/
def bufferPut (keep : Nat × Nat → Bool) (buf : List (Nat × Nat)) (b : Nat × Nat) : Option (List (Nat × Nat) × Bool) :=
  if buf.contains b then some (b :: buf.erase b, true)
  else if buf.length < 2048 then some (b :: buf, false)
  else (buf.reverse.find? fun x => !keep x).map fun x => (b :: buf.erase x, false)

/-- An entry that is held serves a request: it is the most recently used (R266). -/
def bufferTouch (s : State) (g : Nat) (b : Nat × Nat) : State :=
  updEngine s g fun x => { x with buffer := if x.buffer.contains b then b :: x.buffer.erase b else x.buffer }

/-- The requests of one row under tag `tag`, all or none: the buffer after them, and the granules to be read. -/
def bufferRun (keep : Nat × Nat → Bool) (tag : Nat) :
    List Nat → List (Nat × Nat) → List Nat → Option (List (Nat × Nat) × List Nat)
  | [], buf, reads => some (buf, reads)
  | g :: gs, buf, reads =>
    match bufferPut keep buf (tag, g) with
    | none => none
    | some (buf, hit) => bufferRun keep tag gs buf (if hit then reads else reads ++ [g])

/-- An envelope on engine `n` asks for granules, numbered 4 g + `cls`; how many are hits. None while the buffer has no
place for them. -/
def granAsk (s : State) (t e n cls : Nat) (gs : List Nat) : Option (State × Nat) :=
  let old := bufferOf s n
  let tag := ((getEnv s t e).map (·.assigned)).getD 0
  match bufferRun (fun x => bufferNeeded s x || (x.1 == tag && gs.contains x.2)) tag gs old [] with
  | none => none
  | some (buf, reads) =>
    let s := updEngine s n fun x => { x with buffer := buf }
    let s := forEach (old.filter fun b => !buf.contains b) s fun s b => match envAssigned s b.1 with
      | some (t, e, _) => updLook s t e fun l => { l with grans := l.grans.filter fun x => x.op != b.2 }
      | none => s
    match getTask s t with
    | none => none
    | some k =>
      some (forEach reads s fun s x => newAcc s (envAcc k t e (4 * x + cls) .read (deviceAddr s (256 * x)) 256 []), gs.length - reads.length)

/-! Resolve (R249, R262, R284, R286, R307). -/

/-- Resolved rows that wait on engine `n`. -/
def rowsWaiting (s : State) (n : Nat) : Nat :=
  (((allEnvs s).filter fun x => x.2.2.2.engine == some n).map fun x => x.2.2.2.look.rows.length).sum

/-- The next bag of the block: its length is read, or carries the running sum past indices (R262). -/
def resolveBag (t e : Nat) (s : State) (v : EnvRun) : Option State :=
  let g := gatherOps v.bytes
  let l := v.look
  if l.bag = outCount g then
    if l.pos = g.indices then none else some (failEnv s t e qsGpeBagSum 0xFFFFFFFF 0)
  else if g.op = 0x10 && v.block.length < 2 * l.bag + 2 then none
  else
    let len := if g.op = 0x10 then leAt v.block (2 * l.bag) 2 else 1
    if g.indices < l.pos + len then some (failEnv s t e qsGpeBagSum l.pos 0)
    else some (updLook s t e fun l => { l with bag := l.bag + 1, left := len, bags := l.bags ++ [⟨l.bag, len, []⟩] })

/-- A row of a commons is lost with its bitmap granule (R286): it is recorded as R308 says. -/
def bitmapLost (s : State) (x : ErrRec → ErrRec) (d r : Nat) : State :=
  if isCommons s d then poisonEvent s x d r false s.tbl.poisonFull else s

/-- The row of the next position joins those that wait, its version chosen as `x` says (R278, R284, R307). -/
def resolveRow (t e n r : Nat) (x : Bool × Bool) (s : State) (v : EnvRun) : State :=
  let d := (gatherOps v.bytes).desc
  let marked := !x.2 && isCommons s d && poisoned s d r x.1
  let s := if x.2 then bitmapLost s (envRec s t v) d r else s
  let s := if marked then updTwin s n fun w => { w with lookups := w.lookups + 1 } else s
  let s := updGwin s n fun w => { w with rows := w.rows + 1 }
  updLook s t e fun l =>
    { l with pos := l.pos + 1, left := l.left - 1, rows := l.rows ++ [⟨l.pos, r, l.bag - 1, x.1, marked || x.2, x.2⟩] }

/-- The index at the next position: checked against rows, then its version chosen, once the bitmap granule that it needs
is held; none while it waits. -/
def resolveIndex (t e : Nat) (k : Task) (eng : Nat) (s : State) (v : EnvRun) : Option State :=
  let g := gatherOps v.bytes
  let l := v.look
  let d := g.desc
  let x := indexAt g v.block l.pos
  let b := bitAddr s d x.toNat / 256
  if v.block.length < lengthsBytes g + indexBytes g * (l.pos + 1) || 4096 ≤ rowsWaiting s eng then none
  else if x < 0 || ((getDesc s d).rows : Int) ≤ x then some (failEnv s t e qsGpeIndexRange l.pos 0)
  else if isLive s d && (chgOf s d x.toNat).isNone && (gotAt l.grans b).isNone then
    if (bufferOf s eng).contains (v.assigned, b) then none else (granAsk s t e eng 3 [b]).map (·.1)
  else
    let s := if isLive s d && (chgOf s d x.toNat).isNone then bufferTouch s eng (v.assigned, b) else s
    some (resolveRow t e k.n x.toNat (pickRow s d l.grans k.pin x.toNat) s v)

/-- The Resolve stage goes on as far as what has arrived lets it. -/
def resolveLoop (t e : Nat) (k : Task) (eng : Nat) : Nat → State → State
  | 0, s => s
  | fuel + 1, s =>
    match getEnv s t e with
    | none => s
    | some v =>
      if v.st != .running then s
      else match (if v.look.left = 0 then resolveBag t e s v else resolveIndex t e k eng s v) with
        | none => s
        | some s => resolveLoop t e k eng fuel s

/-! Row fetch (R264, R266). -/

/-- The Row fetch stage asks for the granules of resolved rows, in their order, as far as the buffer has places. -/
def rowsLoop (t e n eng : Nat) : Nat → State → State
  | 0, s => s
  | fuel + 1, s =>
    match getEnv s t e with
    | none => s
    | some v => match v.look.rows[v.look.asked]? with
      | none => s
      | some r => match granAsk s t e eng 1 (rowGrans s v r) with
        | none => s
        | some (s, hits) =>
          let s := updGwin s n fun w => { w with hits := w.hits + hits }
          rowsLoop t e n eng fuel (updLook s t e fun l => { l with asked := l.asked + 1 })

/-! Pooling (R261, R267, R270 to R273). -/

/-- The flag byte of a vector (R257). -/
def flagByte (o : OutVec) : Nat := bit o.zeroBag + 2 * bit o.saturated + 4 * bit o.poisoned

/-- A row of a bag: its bytes, its weight, and whether it is poisoned. -/
structure BagRow where
  bytes : List Byte
  weight : Val
  poisoned : Bool
  deriving DecidableEq, Repr, Inhabited

/-- Lane `j` of a bag before finishing (R267, R270). -/
def poolLane (fmt : Nat) (floor : Int) (rows : List BagRow) (j : Nat) : Lane :=
  rows.foldl (fun l r => if r.poisoned then l else addProduct l (decodeElem fmt r.bytes j) r.weight floor) lane0

/-- The bytes and sat of a finished lane of a bag. -/
def laneOut (fmt : Nat) (floor : Int) (g : GatherOps) (rows : List BagRow) (j : Nat) : List Byte × Bool :=
  if g.pool = 3 then
    let r := maxLane g.fmt ((rows.filter fun r => !r.poisoned).map fun r => decodeElem fmt r.bytes j)
    (leBytes (laneBytes g.fmt) r.1, r.2)
  else
    let l := poolLane fmt floor rows j
    if g.fmt = 7 then (accLane l, l.sat)
    else
      let r := finishLane g.fmt l (if g.pool = 1 then some rows.length else none) floor
      (leBytes (laneBytes g.fmt) r.1, r.2)

/-- The output vector of a bag (R261, R267, R271 to R273). -/
def bagOut (fmt : Nat) (floor : Int) (dim : Nat) (g : GatherOps) (rows : List BagRow) : OutVec :=
  if rows.isEmpty then ⟨zeroBytes (dim * laneBytes g.fmt), true, false, false⟩
  else
    let ls := (List.range dim).map (laneOut fmt floor g rows)
    ⟨ls.flatMap (·.1), false, ls.any (·.2), rows.any (·.poisoned)⟩

/-- floor of table `d` (R55). -/
def floorOf (s : State) (d : Nat) : Int :=
  match declOf s d with
  | some t => t.floor
  | none => 0

/-- The vector of a bag whose rows are all pooled. -/
def bagVector (s : State) (v : EnvRun) (b : BagRun) : OutVec :=
  let g := gatherOps v.bytes
  let weight := fun (i : Nat) => if g.pool = 2 then decodeElem 5 (sliceAt v.block (weightsAt g + 2 * i) 2) 0 else .fin 1 0
  bagOut (formatOf s g.desc) (floorOf s g.desc) (getDesc s g.desc).dim g
    ((b.rows.mergeSort fun x y => x.2.1 ≤ y.2.1).map fun x => ⟨x.1, weight x.2.1, x.2.2⟩)

/-- Bags in progress of the other lookups on the engine of `v`, and the lanes they fill. -/
def bagsBeside (s : State) (v : EnvRun) : Nat × Nat :=
  ((allEnvs s).filter fun x =>
    let o := x.2.2.2
    o.engine == v.engine && isLookup o.bytes && o.st == .running && o.assigned != v.assigned).foldl (fun a x =>
      let k := (x.2.2.2.look.bags.filter fun b => !b.rows.isEmpty).length
      (a.1 + k, a.2 + k * (getDesc s (envDesc x.2.2.2.bytes)).dim)) (0, 0)

/-- Bags of `v` that may be in progress: 16 of an engine, and 65,536 lanes (R264). -/
def bagWindow (s : State) (v : EnvRun) : Nat :=
  let b := bagsBeside s v
  min (16 - b.1) ((65536 - b.2) / (getDesc s (envDesc v.bytes)).dim)

/-- A row can be pooled: its bag is among those in progress, its granules are held and its weight has come. -/
def rowReady (s : State) (v : EnvRun) (r : RowRun) : Bool :=
  let g := gatherOps v.bytes
  let l := v.look
  ((l.bags.take (bagWindow s v)).any fun b => b.num == r.bag) &&
    (rowGrans s v r).all (fun x => (gotAt l.grans x).isSome) && (g.pool != 2 || weightsAt g + 2 * (r.pos + 1) ≤ v.block.length)

/-- What the Pool stage takes in a cclk: one row, or two that together have no more than 256 bytes (R276). -/
def poolTake (s : State) (v : EnvRun) : List RowRun :=
  ((v.look.rows.take v.look.asked).filter (rowReady s v)).take (if 2 * rowBytesOf s (envDesc v.bytes) ≤ 256 then 2 else 1)

/-- A pooled row: its bytes, its position, and whether it is poisoned (R267). -/
def pooledRow (s : State) (v : EnvRun) (r : RowRun) : List Byte × Nat × Bool :=
  let d := envDesc v.bytes
  let a := rowAddr (getDesc s d) r.ver r.row
  if r.lost then (zeroBytes (rowBytesOf s d), r.pos, true)
  else (granuleBytes v.look.grans a (rowBytesOf s d), r.pos, r.bad || extentPoisoned v.look.grans a (rowBytesOf s d))

/-- The first bags that are complete become vectors. -/
def bagsFinish (t e : Nat) (s : State) (v : EnvRun) : State :=
  let full := v.look.bags.takeWhile fun b => b.len != 0 && b.rows.length == b.len
  updLook s t e fun l => { l with bags := l.bags.drop full.length, outs := l.outs ++ full.map (bagVector s v) }

/-- The Pool stage's work of a cclk: an empty bag, which takes one, or rows (R261, R276); rows poisoned are counted for
the device (R277). -/
def poolStep (t e eng : Nat) (s : State) (v : EnvRun) : State :=
  let busy := fun (s : State) (c : Nat) => updEngine s eng fun x => { x with poolFree := nowCclk s + c }
  if nowCclk s < (getEngine s eng).poolFree then s
  else match v.look.bags with
    | ⟨_, 0, _⟩ :: _ => busy (updLook s t e fun l => { l with bags := l.bags.drop 1, outs := l.outs ++ (l.bags.take 1).map (bagVector s v) }) 1
    | _ =>
      let rows := poolTake s v
      if rows.isEmpty then s
      else
        let got := rows.map fun r => (r.bag, pooledRow s v r)
        let bad := (got.filter fun x => x.2.2.2).length
        let s := updTbl s fun u => { u with poisonedRows := u.poisonedRows + bad }
        let s := busy s (max 1 ((rowBytesOf s (envDesc v.bytes) + 255) / 256))
        let s := updLook s t e fun l =>
          { l with
            rows := l.rows.filter fun r => !rows.contains r, asked := l.asked - rows.length
            bags := l.bags.map fun b => { b with rows := b.rows ++ (got.filter fun x => x.1 == b.num).map (·.2) } }
        whileRuns t e (bagsFinish t e) s

/-! REDUCE (R259). -/

/-- Lane `j` of vector `b` summed over the parts, whose bytes are given. -/
def reduceLane (dim : Nat) (parts : List (List Byte)) (b j : Nat) : Lane :=
  sumLanes (parts.map fun p => readAccLane p (b * outStride dim 7 + 48 * j))

/-- The output vector `b` of a REDUCE. -/
def reduceOut (floor : Int) (dim : Nat) (g : GatherOps) (parts : List (List Byte)) (b : Nat) : OutVec :=
  let flags := parts.map fun p => byteAt p (flagsAt dim 7 g.bags + b)
  let ls := (List.range dim).map fun j => reduceLane dim parts b j
  let outs := ls.map fun l => if g.fmt = 7 then (accLane l, l.sat) else
    let r := finishLane g.fmt l none floor
    (leBytes (laneBytes g.fmt) r.1, r.2)
  ⟨outs.flatMap (·.1), flags.all fun f => f % 2 == 1, outs.any (·.2) || flags.any fun f => f / 2 % 2 == 1,
    flags.any fun f => f / 4 % 2 == 1⟩

/-- The vectors of a REDUCE, its parts having been read. -/
def reduceVectors (s : State) (v : EnvRun) (g : GatherOps) : List OutVec :=
  let dim := (getDesc s g.desc).dim
  let parts := (List.range g.indices).map fun j =>
    let lanes := gotBytes (v.got.filter fun x => x.op / 4 / 2 ^ 64 == 2 * j)
    lanes ++ zeroBytes (flagsAt dim 7 g.bags - lanes.length) ++ gotBytes (v.got.filter fun x => x.op / 4 / 2 ^ 64 == 2 * j + 1)
  (List.range g.bags).map (reduceOut (floorOf s g.desc) dim g parts)

/-- A REDUCE whose parts have all been read has its vectors. -/
def reduceStep (t e : Nat) (s : State) (v : EnvRun) : State :=
  if envBusy s t e || !v.look.outs.isEmpty then s else updLook s t e fun l => { l with outs := reduceVectors s v (gatherOps v.bytes) }

/-! Finish: the output (R257, R258, R269). -/

/-- Vectors have been written: the flags of their envelope and the counters of its clearing and of the device take them in
(R269, R277, R278). -/
def countVectors (t e n : Nat) (os : List OutVec) (s : State) : State :=
  let sat := (os.filter (·.saturated)).length
  let empty := (os.filter (·.zeroBag)).length
  let bad := (os.filter (·.poisoned)).length
  let s := updGwin s n fun w =>
    { w with
      saturatedBags := w.saturatedBags + sat, zeroBags := w.zeroBags + empty
      poisonedBags := w.poisonedBags + bad }
  let s := updTbl s fun u => { u with saturatedBags := u.saturatedBags + sat }
  updEnv s t e fun v =>
    { v with
      saturated := v.saturated || sat != 0, zeroBag := v.zeroBag || empty != 0, poisoned := v.poisoned || bad != 0
      look := { v.look with counted := v.look.counted + os.length } }

/-- Bytes `a` to `a + len` of the vectors of an output region, each padded with zeros to its stride. -/
def vectorBytes (stride : Nat) (os : List OutVec) (a len : Nat) : List Byte :=
  sliceAt (((os.drop (a / stride)).take (len / stride + 2)).flatMap fun o => o.bytes ++ zeroBytes (stride - o.bytes.length)) (a % stride) len

/-- The bytes of an output piece, once the vectors that it covers are finished. -/
def pieceBytes (dim : Nat) (g : GatherOps) (os : List OutVec) (p : Nat × Nat) : Option (List Byte) :=
  let stride := outStride dim g.fmt
  let flags := g.dst + flagsAt dim g.fmt (outCount g)
  if p.1 < flags then
    let a := p.1 - g.dst
    if a + p.2 ≤ os.length * stride then some (vectorBytes stride os a p.2) else none
  else
    let a := p.1 - flags
    if a + p.2 ≤ os.length then some (((os.drop a).take p.2).map fun o => BitVec.ofNat 8 (flagByte o)) else none

/-- The output writes that can be formed are formed, in order; their numbers are 2 modulo 4. -/
def formLoop (t e dim : Nat) (g : GatherOps) (os : List OutVec) : List ((Nat × Nat) × Nat) → State → State
  | [], s => s
  | p :: ps, s =>
    match pieceBytes dim g os p.1, getTask s t with
    | some bs, some k =>
      formLoop t e dim g os ps
        (updLook (newAcc s (envAcc k t e (4 * p.2 + 2) .write p.1.1 p.1.2 bs)) t e fun l => { l with formed := p.2 + 1 })
    | _, _ => s

/-- Every piece of vector `b` has been written. -/
def vectorWritten (s : State) (t e dim : Nat) (v : EnvRun) (b : Nat) : Bool :=
  let g := gatherOps v.bytes
  let stride := outStride dim g.fmt
  let lo := g.dst + b * stride
  (outPieces dim g).zipIdx.all fun p =>
    !(p.1.1 < lo + stride && lo < p.1.1 + p.1.2) ||
      (p.2 < v.look.formed && !(accList s).any fun a => accOfEnv t e a.2 && a.2.op == 4 * p.2 + 2)

/-- The finished vectors go to memory. -/
def finishMemory (t e n : Nat) (s : State) (v : EnvRun) : State :=
  let g := gatherOps v.bytes
  let dim := (getDesc s g.desc).dim
  let s := formLoop t e dim g v.look.outs ((outPieces dim g).zipIdx.drop v.look.formed) s
  whileRuns t e (fun s v =>
    countVectors t e n (((v.look.outs.zipIdx.drop v.look.counted).takeWhile fun o => vectorWritten s t e dim v o.2).map (·.1)) s) s

/-- A cp_ib beat of a vector: its 128 bytes and its flags (R258). -/
def beatOut (dim : Nat) (g : GatherOps) (o : OutVec) (b i : Nat) : Output :=
  let n := beatsOf dim g.fmt
  .coreIb g.core (g.dst + b * n + i) (((o.bytes ++ zeroBytes (128 * n)).drop (128 * i)).take 128) (flagByte o + 8 * bit (i + 1 == n))

/-- The finished vectors go to the core, a beat in a cclk; it waits while the core holds cp_ib_ready at 0, and fails once
the job that held the core as the envelope started holds it no more (R258, R262, R276). -/
def finishCore (t e eng : Nat) (k : Task) (s : State) (v : EnvRun) : State :=
  let g := gatherOps v.bytes
  let n := beatsOf (getDesc s g.desc).dim g.fmt
  let b := v.look.formed / n
  if v.look.formed = outTotal (getDesc s g.desc).dim g then s
  else if !(coreHeldBy s g.core k.ctx k.gen && (getCore s g.core).job == v.coreJob) then failEnv s t e qsGpeCoreNotHeld 0xFFFFFFFF 0
  else if (getCore s g.core).ibHeld || (getEngine s eng).writeAt == some (nowCclk s) then s
  else match v.look.outs[b]? with
    | none => s
    | some o =>
      let s := emit s (beatOut (getDesc s g.desc).dim g o b (v.look.formed % n))
      let s := updEngine s eng fun x => { x with writeAt := some (nowCclk s) }
      let s := updLook s t e fun l => { l with formed := l.formed + 1 }
      if v.look.formed % n + 1 = n then countVectors t e k.n [o] s else s

/-- A lookup whose output is all delivered and answered completes (R269). -/
def lookEnd (t e : Nat) (s : State) (v : EnvRun) : State :=
  let g := gatherOps v.bytes
  if v.look.outs.length = outCount g && v.look.formed = outTotal (getDesc s g.desc).dim g && v.look.counted = outCount g && !envBusy s t e then
    endEnv s t e qsOk
  else s

/-- A gather envelope's work of a cclk, stage by stage. -/
def lookupNext (s : State) (t e : Nat) (k : Task) (v : EnvRun) : State :=
  let g := gatherOps v.bytes
  let eng := v.engine.getD 0
  let mine := fun (p : Stage) (f : State → EnvRun → State) (s : State) =>
    whileRuns t e (fun s v => if stageMine s v p then f s v else s) s
  if v.phase = 0 then lookBegin t e s v
  else
    let s := whileRuns t e (lookTake t e) s
    let s := if isReduce g then whileRuns t e (reduceStep t e) s
      else
        let s := mine .resolve (fun s _ => resolveLoop t e k eng 8192 s) s
        let s := mine .rows (fun s _ => rowsLoop t e k.n eng 4096 s) s
        mine .pool (poolStep t e eng) s
    let s := mine .finish (if g.toCore then finishCore t e eng k else finishMemory t e k.n) s
    whileRuns t e (lookEnd t e) s

end Sys2Proof.Machine
end

