-- ==== Sys2Proof/Machine/TableEnvs.lean ====
section
/-! DEFINITION. Table envelopes (R287 to R302): UPDATE, PUBLISH, REFRESH_BEGIN, REFRESH_ROWS and
REFRESH_ABORT. Rows are written one at a time, in ascending position (log entry 13). -/

namespace Sys2Proof.Machine

/-! Operands and start (R288 to R291). -/

/-- count of a table envelope. -/
def tblCount (bs : List Byte) : Nat := leAt bs 0x2C 4

/-- first of a REFRESH_ROWS. -/
def tblFirst (bs : List Byte) : Nat := leAt bs 0x28 4

/-- src of a table envelope; at_postmark of a PUBLISH. -/
def tblSrc (bs : List Byte) : Nat := leAt bs 0x20 8

/-- Step 1 of R291. -/
def tblOperands (bs : List Byte) : Bool :=
  zeroAt bs 0x32 14 && (match envOpcode bs with
    | 0x20 => zeroAt bs 0x28 4 && tblCount bs ≤ 1048576
    | 0x21 => zeroAt bs 0x28 8
    | 0x23 => true
    | _ => zeroAt bs 0x20 16)

/-- Step 4 of R291: queue `q` may write table `d`. -/
def queueMayWrite (s : State) (q d : Nat) : Bool :=
  match declOf s d with
  | none => false
  | some t => match t.owner, t.writer with
    | some o, _ => queueOwner s q == some o
    | none, some w => queueOwner s q == some w
    | none, none => privQueue s q

/-- It moves rows: UPDATE or REFRESH_ROWS. -/
def movesRows (bs : List Byte) : Bool := envOpcode bs == 0x20 || envOpcode bs == 0x23

/-- sstride (R289). -/
def sourceStride (s : State) (d : Nat) : Nat := roundUp (rowBytesOf s d) 32

/-- Offset of the first row of a source block (R289). -/
def sourceRows (bs : List Byte) : Nat := if envOpcode bs = 0x20 then roundUp (4 * tblCount bs) 64 else 0

/-- Bytes of a source block. -/
def tblSourceBytes (s : State) (bs : List Byte) : Nat :=
  sourceRows bs + (tblCount bs - 1) * sourceStride s (envDesc bs) + rowBytesOf s (envDesc bs)

/-- Chunks of a REFRESH_ROWS range. -/
def rangeChunks (bs : List Byte) : List Nat :=
  (List.range ((65535 + tblCount bs) / 65536)).map (· + tblFirst bs / 65536)

/-- Step 12 of R291: no chunk of the range is covered or being written. -/
def chunksFree (s : State) (t e : Nat) (bs : List Byte) : Bool :=
  let d := envDesc bs
  let running := (allEnvs s).filter fun x =>
    !(x.1 == t && x.2.2.1 == e) && envLive x.2.2.2 && envOpcode x.2.2.2.bytes == 0x23 && envDesc x.2.2.2.bytes == d
  (rangeChunks bs).all fun c => !(getDesc s d).covered.contains c && !running.any fun x => (rangeChunks x.2.2.2.bytes).contains c

/-- Steps 1 to 6 of R291. -/
def tblNames (s : State) (k : Task) (bs : List Byte) : List (Bool × Code) :=
  let d := envDesc bs
  let mode := (getDesc s d).mode
  let op := envOpcode bs
  [(tblOperands bs, qsTblOperand), ((declOf s d).isSome, qsGpeNoTable), ((getDesc s d).valid, qsGpeTableInvalid),
   (queueMayWrite s k.queue d, qsNotOwner), (isLive s d, qsTblNotLive),
   (!(op == 0x23 || op == 0x24) || mode == .refreshing, qsTblNoRefresh), (op != 0x22 || mode == .idle, qsTblRefreshing)]

/-- Steps 8 to 12 of R291. -/
def tblExtents (s : State) (t e : Nat) (k : Task) (bs : List Byte) : List (Bool × Code) :=
  let x := getDesc s (envDesc bs)
  let rows := envOpcode bs == 0x23
  let last := tblFirst bs + tblCount bs
  [(!movesRows bs || extentForm s k.ctx (tblSrc bs) 64, qsGpeAddr),
   (!movesRows bs || ownIfLocal s k.n (tblSrc bs) (tblSourceBytes s bs), qsNotOwner),
   (!rows || (tblFirst bs % 65536 == 0 && last ≤ x.rows), qsTblChunk),
   (!rows || tblCount bs % 65536 == 0 || last == x.rows, qsTblChunk), (!rows || chunksFree s t e bs, qsTblChunk)]

/-- What R294 and R300 add to a PUBLISH at its start: its postmark is still to come, and a refresh is whole. -/
def publishChecks (s : State) (bs : List Byte) : List (Bool × Code) :=
  let x := getDesc s (envDesc bs)
  if envOpcode bs = 0x21 then
    [(x.mode != .refreshing || x.covered.length == chunksOf x, qsTblRefreshIncomplete),
     (tblSrc bs == 0 || s.clk.postmark < tblSrc bs, qsTblPublishMissed)]
  else []

/-- The start of a table envelope (R287, R291). -/
def tblStart (t e : Nat) (k : Task) (v : EnvRun) (s : State) : State :=
  match firstBad (tblNames s k v.bytes) with
  | some c => endEnv s t e c
  | none =>
    if movesRows v.bytes && tblCount v.bytes = 0 then endEnv s t e qsOk
    else match firstBad (tblExtents s t e k v.bytes ++ publishChecks s v.bytes ++ [(enginesIn s k.n != [], qsGpeEngineNone)]) with
      | some c => endEnv s t e c
      | none => assignEnv s t e k.n

/-- UPDATE (R292). -/
def execUpdate (task env : Nat) (s : State) : Result := .next (startEnv s task env 0x20 (tblStart task env))

/-- PUBLISH (R294). -/
def execPublish (task env : Nat) (s : State) : Result := .next (startEnv s task env 0x21 (tblStart task env))

/-- REFRESH_BEGIN (R298). -/
def execRefreshBegin (task env : Nat) (s : State) : Result := .next (startEnv s task env 0x22 (tblStart task env))

/-- REFRESH_ROWS (R299). -/
def execRefreshRows (task env : Nat) (s : State) : Result := .next (startEnv s task env 0x23 (tblStart task env))

/-- REFRESH_ABORT (R301). -/
def execRefreshAbort (task env : Nat) (s : State) : Result := .next (startEnv s task env 0x24 (tblStart task env))

/-! Writing rows (R292, R299). -/

/-- The row that an UPDATE or REFRESH_ROWS has at position `k`. -/
def tblRow (v : EnvRun) (k : Nat) : Nat :=
  if envOpcode v.bytes = 0x20 then leAt v.block (4 * k) 4 else tblFirst v.bytes + k

/-- Read the source row of the present position; its version is chosen. -/
def rowSource (s : State) (t e : Nat) (v : EnvRun) (ver : Bool) : State :=
  let d := envDesc v.bytes
  let s := updEnv (enterPhase s t e 4) t e fun v => { v with picks := [(bit ver, false)] }
  readExtentFor s t e 0 (tblSrc v.bytes + sourceRows v.bytes + v.step * sourceStride s d) (rowBytesOf s d)

/-- The row numbers have been read: each is checked against rows. -/
def updateCheck (s : State) (t e : Nat) (v : EnvRun) : State :=
  let block := gotBytes v.got
  let rows := (getDesc s (envDesc v.bytes)).rows
  if gotPoison v.got then failEnv s t e qsGpeSrcPoisoned 0xFFFFFFFF 0
  else match (List.range (tblCount v.bytes)).find? fun i => rows ≤ leAt block (4 * i) 4 with
    | some i => failEnv s t e qsGpeIndexRange i 0
    | none => updEnv (enterPhase s t e 2) t e fun v => { v with block := block, step := 0 }

/-- The present row: an unpublished entry names its version, a published one is waited for, else the
bitmap bit is read (R292, R299). -/
def rowBegin (s : State) (t e : Nat) (v : EnvRun) : State :=
  let d := envDesc v.bytes
  let x := getDesc s d
  let r := tblRow v v.step
  if tblCount v.bytes ≤ v.step then
    let s := if envOpcode v.bytes = 0x23 then
        updDesc s d fun x => { x with covered := (x.covered ++ rangeChunks v.bytes).dedup }
      else s
    endEnv s t e qsOk
  else if v.step = 0 && x.refreshHeld then s
  else match chgOf s d r with
    | some c => if c.published then s else rowSource s t e v c.v
    | none => readGranules (enterPhase s t e 3) t e [bitAddr s d r / 256]

/-- The bitmap granule of the present row has been read: the version is chosen, and outside Refreshing mode an
entry is created. -/
def rowVersion (s : State) (t e : Nat) (k : Task) (v : EnvRun) : State :=
  let d := envDesc v.bytes
  let r := tblRow v v.step
  let rows := envOpcode v.bytes == 0x23
  if gotPoison v.got then
    failEnv (if rows then updDesc s d fun x => { x with covered := [] } else s) t e qsGpeSrcPoisoned 0xFFFFFFFF 0
  else
    let ver := !selectVersion s d r s.clk.postmark (bitmapBit s d v.got r)
    if rows || (getDesc s d).mode == .refreshing then rowSource s t e v ver
    else if chgRoom s k.n then rowSource (addChg s d r ver k.n) t e v ver
    else s

/-- The present row's bytes have been read: they are written to their version. -/
def rowWrite (s : State) (t e : Nat) (v : EnvRun) : State :=
  let d := envDesc v.bytes
  let ver := v.picks.any fun p => p.1 == 1
  if gotPoison v.got then failEnv s t e qsGpeSrcPoisoned 0xFFFFFFFF 0
  else writeExtentFor (enterPhase s t e 5) t e 0 (deviceAddr s (rowAddr (getDesc s d) ver (tblRow v v.step))) (gotBytes v.got)

/-- The write of the present row's version is answered: its poison entry clears (R309). -/
def rowCleared (s : State) (v : EnvRun) : State :=
  let ver := v.picks.any fun p => p.1 == 1
  let row := tblRow v v.step
  clearPoison s fun p => p.desc == envDesc v.bytes && p.row == row && p.version == ver

/-- An UPDATE or REFRESH_ROWS has stopped and every piece of the row it was writing has been written (R309). -/
def lateRow (s : State) (v : EnvRun) : Bool :=
  movesRows v.bytes && v.phase == 5 &&
    v.got.length == (pieces (deviceAddr s (rowAddr (getDesc s (envDesc v.bytes)) (v.picks.any fun p => p.1 == 1) (tblRow v v.step)))
      (rowBytesOf s (envDesc v.bytes))).length

/-- The present row has been written (R309, R310): the next follows. -/
def rowWritten (s : State) (t e : Nat) (k : Task) (v : EnvRun) : State :=
  let s := rowCleared s v
  let s := updTwin s k.n fun w => { w with rowsWritten := w.rowsWritten + 1 }
  updEnv (enterPhase s t e 2) t e fun v => { v with step := v.step + 1 }

/-- The row that a stopped UPDATE or REFRESH_ROWS was writing, once every piece of it is answered (R309, R310). -/
def rowLanded (s : State) (t e : Nat) (k : Task) (v : EnvRun) : State :=
  if v.st == .draining && !envBusy s t e && lateRow s v then rowWritten s t e k v else s

/-- The next phase of an UPDATE or REFRESH_ROWS. -/
def rowsNext (s : State) (t e : Nat) (k : Task) (v : EnvRun) : State :=
  match v.phase with
  | 0 =>
    if envOpcode v.bytes = 0x20 then readExtentFor (enterPhase s t e 1) t e 0 (tblSrc v.bytes) (4 * tblCount v.bytes)
    else enterPhase s t e 2
  | 1 => updateCheck s t e v
  | 2 => rowBegin s t e v
  | 3 => rowVersion s t e k v
  | 4 => rowWrite s t e v
  | _ => rowWritten s t e k v

/-! Publication (R291, R294, R295, R300). -/

/-- Bitmap granules of table `d` that publications still have to rewrite. -/
def rewriteGranules (s : State) (d : Nat) : List Nat :=
  ((s.tbl.chg.filter fun c => c.desc == d && c.published && !c.bitDone).map fun c => bitAddr s d c.row / 256).dedup

/-- A rewrite of table `d` that outlives its PUBLISH is under way. -/
def rewriting (s : State) (d : Nat) : Bool := (accList s).any fun a => a.2.client == .bitmap d

/-- The rewrites that a PUBLISH leaves are finished as scrub traffic (R295). -/
def finishRewrites (s : State) (d n : Nat) : State :=
  forEach (rewriteGranules s d) s fun s g =>
    newAcc s { client := .bitmap d, op := g, kind := .read, addr := deviceAddr s (256 * g), len := 256, data := []
               n := n, ctx := 0, gen := 0, cls := 0, st := .ready, asked := false, plain := false, frame := none }

/-- It is a PUBLISH that has published and still rewrites its bitmap. -/
def publishLeaves (v : EnvRun) : Bool := envOpcode v.bytes == 0x21 && 1 ≤ v.phase

/-- What such a PUBLISH of clearing `n` leaves as it ends (R295). -/
def leftRewrites (s : State) (n : Nat) (v : EnvRun) : State := if publishLeaves v then finishRewrites s (envDesc v.bytes) n else s

/-- A bitmap granule of a PUBLISH, read: what changed is written. -/
def publishWrite (s : State) (t e : Nat) (k : Task) (v : EnvRun) : State :=
  forEach v.got (enterPhase s t e 3) fun s x =>
    bitmapWrite s (envDesc v.bytes) x.op x.data (envAcc k t e x.op .write (deviceAddr s (256 * x.op)) 256 [])

/-- The next phase of a PUBLISH: it waits for its boundary, then rewrites bitmap bits (R295). -/
def publishNext (s : State) (t e : Nat) (k : Task) (v : EnvRun) : State :=
  let d := envDesc v.bytes
  match v.phase with
  | 0 => s
  | 1 => if rewriting s d then s else readGranules (enterPhase s t e 2) t e (rewriteGranules s d)
  | 2 => publishWrite s t e k v
  | _ => endEnv s t e qsOk

/-- A publication of table `d` for clearing `n` at the boundary that opens the present postmark (R295, R300);
whether it has published entries, whose bits it is to rewrite. -/
def publishTable (s : State) (d n : Nat) : State × Bool :=
  let pm := s.clk.postmark
  let s := updTwin s n fun w => { w with publications := w.publications + 1 }
  let s := storeDesc (updDesc s d fun x => { x with generation := x.generation + 1, pubPostmark := pm }) d
  if (getDesc s d).mode == .refreshing then
    (updDesc s d fun x =>
      { x with polarity := !x.polarity, refreshPub := pm, refreshHeld := true, mode := .idle, covered := [] }, false)
  else
    let more := !(pendingOf s d).isEmpty
    (updTbl s fun u => { u with chg := u.chg.map fun c =>
      if c.desc = d && !c.published then { c with published := true, pub := pm } else c }, more)

/-- A PUBLISH at the boundary in absolute cclk `b`, whose tick `s` has opened (R294). -/
def publishOne (b : Nat) (s : State) (x : Nat × Task × Nat × EnvRun) : State :=
  let v := x.2.2.2
  let at' := tblSrc v.bytes
  if !((v.st == .running || v.st == .unassigned) && envOpcode v.bytes == 0x21 && v.phase == 0) then s
  else if b ≤ v.started then
    if at' != 0 && at' ≤ s.clk.postmark then endEnv s x.1 x.2.2.1 qsTblPublishMissed else s
  else if v.started + 1 < b && at' ≤ s.clk.postmark then
    let r := publishTable s (envDesc v.bytes) x.2.1.n
    if r.2 then enterPhase r.1 x.1 x.2.2.1 1 else endEnv r.1 x.1 x.2.2.1 qsOk
  else s

/-- Every publication of a boundary (R294, R295, R300). -/
def publishBoundary (s : State) (b : Nat) : State := forEach (allEnvs s) s (publishOne b)

/-! Refresh (R298, R301). -/

/-- REFRESH_BEGIN: once the table has no entry, refresh_held is 0 and a place is free. -/
def refreshBegin (s : State) (t e : Nat) (v : EnvRun) : State :=
  let d := envDesc v.bytes
  if (s.tbl.chg.any fun c => c.desc == d) || (getDesc s d).refreshHeld || 16 ≤ refreshingCount s then s
  else endEnv (updDesc s d fun x => { x with mode := .refreshing, covered := [] }) t e qsOk

/-- The next phase of a table envelope. -/
def tblNext (s : State) (t e : Nat) (k : Task) (v : EnvRun) : State :=
  match envOpcode v.bytes with
  | 0x20 | 0x23 => rowsNext s t e k v
  | 0x21 => publishNext s t e k v
  | 0x22 => refreshBegin s t e v
  | _ => endEnv (abortRefresh s (envDesc v.bytes)) t e qsOk

end Sys2Proof.Machine
end

