-- ==== Sys2Proof/Machine/Canopy.lean ====
section
/-! DEFINITION. The canopy: a clearing's resident models, their placement and eviction (R314 to R316, R338
to R341). -/

namespace Sys2Proof.Machine

/-- The canopy region of clearing `n`: its first plot and its plots. -/
def canopyBase (s : State) (n : Nat) : Nat := field (getSwin s n).canopy 0 13

/-- Plots of the canopy region. -/
def canopyPlots (s : State) (n : Nat) : Nat := field (getSwin s n).canopy 16 13

/-- The models of clearing `n`, each with its entry. -/
def modelList (s : State) (n : Nat) : List (Nat × Model) :=
  (getSwin s n).models.filterMap fun kv => kv.2.map fun m => (kv.1, m)

/-- The canopy entry of a model. -/
def modelOf (s : State) (n : Nat) (id : Word) : Option (Nat × Model) := (modelList s n).find? fun m => m.2.id == id

/-- `s` with `f` applied to a model. -/
def updModel (s : State) (n i : Nat) (f : Model → Model) : State :=
  updSwin s n fun w => { w with models := tabUpd none w.models i fun x => x.map f }

/-- A model leaves the canopy; its bytes stay (R340). -/
def dropModel (s : State) (n i : Nat) : State := updSwin s n fun w => { w with models := tabSet none w.models i none }

/-- A model becomes the most recently used. -/
def useModel (s : State) (n i : Nat) : State :=
  updModel (updSwin s n fun w => { w with uses := w.uses + 1 }) n i fun m => { m with used := (getSwin s n).uses + 1 }

/-- A model is held (R340): it is Loading, or a job that has not ended names it. -/
def modelHeld (s : State) (n : Nat) (m : Model) : Bool :=
  !m.resident || (jobList s).any fun j => j.2.n == n && j.2.model == m.id && (match j.2.st with
    | .waiting | .claimant | .started | .ending => true
    | .loading | .ended => false)

/-- The model to evict: the least recently used that is Resident and not held. -/
def evictModel (s : State) (n : Nat) : Option Nat :=
  ((modelList s n).filter fun m => !modelHeld s n m.2).foldl (fun (o : Option (Nat × Model)) m => match o with
    | none => some m
    | some x => if m.2.used < x.2.used then some m else some x) none |>.map (·.1)

/-- Blocks of a load. -/
def blocksFor (len : Nat) : Nat := (2 ^ 20 - 1 + len) / 2 ^ 20

/-- The models in order of their blocks. -/
def modelsByBlock (s : State) (n : Nat) : List Model := ((modelList s n).map (·.2)).mergeSort fun a b => a.first ≤ b.first

/-- The lowest run of `b` free blocks between `at'` and `last`, past models in order of block. -/
def freeRun (b last : Nat) : List Model → Nat → Option Nat
  | [], at' => if at' + b ≤ last then some at' else none
  | m :: r, at' => if at' + b ≤ m.first then some at' else freeRun b last r (max at' (m.first + m.blocks))

/-- Place a model of `b` blocks (R340), with evictions; none while no model can be evicted. `fuel` is past
the number of models. -/
def placeModel : Nat → State → Nat → Nat → State × Option (Nat × Nat)
  | 0, s, _, _ => (s, none)
  | fuel + 1, s, n, b =>
    let slots := (getClr s n).cfg.canopyModels
    let full := slots ≤ (modelList s n).length
    match (if full then none else freeRun b (256 * canopyPlots s n) (modelsByBlock s n) 0) with
    | some first => (s, some (leastFree ((getSwin s n).models.map (·.1)) slots, first))
    | none => match evictModel s n with
      | some i => placeModel fuel (dropModel s n i) n b
      | none => (s, none)

/-- Local plot address of a block. -/
def blockAddr (s : State) (n first : Nat) : Nat := canopyBase s n * 2 ^ 28 + first * 2 ^ 20

/-! Model images (R314 to R316). -/

/-- Entry `k` of the pass table as (offset, fence, barrier), and its reserved bits zero. -/
def passEntry (bs : List Byte) (k : Nat) : Nat × Bool × Bool × Bool :=
  let w := leAt bs (0x40 + 8 * k) 8
  (w % 2 ^ 32, w / 2 ^ 32 % 2 == 1, w / 2 ^ 33 % 2 == 1, w / 2 ^ 34 == 0)

/-- Pass `k` of an image, where it meets R315 and R316. -/
def passInfo (bs : List Byte) (count len k : Nat) : Option PassInfo :=
  let e := passEntry bs k
  let o := 256 * e.1
  let preload := leAt bs (o + 8) 4
  let wcet := leAt bs (o + 12) 4
  let size := leAt bs (o + 16) 4
  if e.2.2.2 && (64 + 8 * count + 255) / 256 ≤ e.1 && o + 256 ≤ len && leAt bs o 4 == 0x53415051 && leAt bs (o + 4) 2 == 1 &&
      leAt bs (o + 6) 2 == 0 && 1 ≤ preload && preload ≤ 4000000 && 3 ≤ wcet && wcet ≤ 4000000 && size % 256 == 0 &&
      256 ≤ size && o + size ≤ len && zeroAt bs (o + 0x40) 64 then
    some ⟨e.1, e.2.1, e.2.2.1, preload, wcet, size⟩
  else none

/-- The passes of an image of `len` bytes; none where it breaks R314 to R316. -/
def modelPasses (bs : List Byte) (len : Nat) : Option (List PassInfo) :=
  let count := leAt bs 0x0A 2
  if leAt bs 0 8 == 0x334C444F4D465051 && leAt bs 8 2 == 1 && count != 0 && leAt bs 0x0C 4 == len && zeroAt bs 0x10 48 &&
      64 + 8 * count ≤ len then
    (List.range count).mapM (passInfo bs count len)
  else none

/-! MODEL_LOAD (R339). -/

/-- src, model_id and len of a MODEL_LOAD. -/
def loadSrc (bs : List Byte) : Nat := leAt bs 0x20 8
/-- model_id of MODEL_LOAD and MODEL_EVICT. -/
def loadId (bs : List Byte) : Word := word (leAt bs 0x28 8)
/-- len of MODEL_LOAD. -/
def loadLen (bs : List Byte) : Nat := leAt bs 0x30 4

/-- The source extent overlaps the canopy region. -/
def overlapsCanopy (s : State) (n a len : Nat) : Bool :=
  match placeOf s a with
  | .plot p => (plotSpan p len).any fun x => inRange (canopyBase s n) (canopyPlots s n) x
  | _ => false

/-- Steps 1 to 3 of R339. -/
def loadChecks (s : State) (k : Task) (bs : List Byte) : List (Bool × Code) :=
  let a := loadSrc bs
  let len := loadLen bs
  [(zeroAt bs 0x34 12 && len % 256 == 0 && len != 0, qsSchOperand), (extentForm s k.ctx a 256, qsGpeAddr),
   (ownIfLocal s k.n a len, qsNotOwner), (!overlapsCanopy s k.n a len, qsSchOperand),
   (blocksFor len ≤ 256 * canopyPlots s k.n, qsSchModelTooBig)]

/-- The start of a MODEL_LOAD: a model already there ends it, or has it wait for the load under way. -/
def loadStart (t e : Nat) (k : Task) (v : EnvRun) (s : State) : State :=
  match firstBad (loadChecks s k v.bytes) with
  | some c => endEnv s t e c
  | none =>
    let run := fun (p : Nat) => updEnv s t e fun v => { v with st := .running, phase := p }
    match modelOf s k.n (loadId v.bytes) with
    | some (i, m) => if m.resident then endEnv (useModel s k.n i) t e qsOk else run 9
    | none => run 0

/-- MODEL_LOAD (R339). -/
def execModelLoad (task env : Nat) (s : State) : Result := .next (startEnv s task env 0x32 (loadStart task env))

/-- The MODEL_LOADs that wait for the load of a model of clearing `n`. -/
def loadWaiters (s : State) (n : Nat) (id : Word) : List (Nat × Task × Nat × EnvRun) :=
  (allEnvs s).filter fun x => x.2.1.n == n && x.2.2.2.st == .running && envOpcode x.2.2.2.bytes == 0x32 &&
    x.2.2.2.phase == 9 && loadId x.2.2.2.bytes == id

/-- A load ends with a code: on failure its blocks are free; those that wait for it end alike. -/
def loadEnd (s : State) (t e n : Nat) (id : Word) (code : Code) (expired : Bool) : State :=
  let s := if code = qsOk then s else match modelOf s n id with
    | some (i, m) => if m.resident then s else dropModel s n i
    | none => s
  let s := completeEnv s t e code false expired
  forEach (loadWaiters s n id) s fun s x => endEnv s x.1 x.2.2.1 code

/-- The next phase of a MODEL_LOAD: 0 placement, 1 the source read, 2 the copy written. MODEL_LOAD_DONE ends
it. -/
def loadNext (s : State) (t e : Nat) (k : Task) (v : EnvRun) : State :=
  let id := loadId v.bytes
  let len := loadLen v.bytes
  match v.phase with
  | 0 =>
    if (modelOf s k.n id).isSome then updEnv s t e fun v => { v with phase := 9 }
    else
      let r := placeModel 257 s k.n (blocksFor len)
      match r.2 with
      | none => r.1
      | some (i, first) =>
        let s := updSwin r.1 k.n fun w => { w with models := tabSet none w.models i (some ⟨id, false, first, blocksFor len, [], 0⟩) }
        readExtentFor (enterPhase s t e 1) t e 0 (loadSrc v.bytes) len
  | 1 =>
    if gotPoison v.got then failEnv s t e qsSchSrcPoisoned 0xFFFFFFFF 0
    else match modelOf s k.n id with
      | none => s
      | some (_, m) =>
        let s := updEnv (enterPhase s t e 2) t e fun w => { w with block := gotBytes v.got }
        writeExtentFor s t e 0 (deviceAddr s (blockAddr s k.n m.first)) (gotBytes v.got)
  | _ => s

/-- MODEL_LOAD_DONE (R339): the copy is done; the copy is checked, and the model becomes Resident. -/
def loadDone (s : State) (t e : Nat) : State :=
  match getTask s t, getEnv s t e with
  | some k, some v =>
    if envOpcode v.bytes == 0x32 && v.st == .running && v.phase == 2 && !envBusy s t e then
      let id := loadId v.bytes
      match modelPasses v.block (loadLen v.bytes), modelOf s k.n id with
      | some ps, some (i, _) =>
        loadEnd (useModel (updModel s k.n i fun m => { m with resident := true, passes := ps }) k.n i) t e k.n id qsOk false
      | _, _ => loadEnd s t e k.n id qsSchModelFormat false
    else s
  | _, _ => s

/-- MODEL_LOAD_DONE (R339). -/
def execModelLoadDone (task env : Nat) (s : State) : Result := .next (loadDone s task env)

/-- MODEL_EVICT (R341). -/
def evictStart (t e : Nat) (k : Task) (v : EnvRun) (s : State) : State :=
  if !(zeroAt v.bytes 0x20 8 && zeroAt v.bytes 0x30 16) then endEnv s t e qsSchOperand
  else match modelOf s k.n (loadId v.bytes) with
    | none => endEnv s t e qsSchModelAbsent
    | some (i, m) => if modelHeld s k.n m then endEnv s t e qsSchModelHeld else endEnv (dropModel s k.n i) t e qsOk

/-- MODEL_EVICT (R341). -/
def execModelEvict (task env : Nat) (s : State) : Result := .next (startEnv s task env 0x33 (evictStart task env))

/-- The canopy of clearing `n` empties and SCH_WCANOPY returns to its reset value (R341). -/
def canopyReset (s : State) (n : Nat) : State := updSwin s n fun w => { w with canopy := 0, models := [] }

/-! SCH_WCANOPY and SCH_WACCT (R338, R348). -/

/-- SCH_WCANOPY_WRITE (R338). -/
def canopyWrite (q : Requester) (n : Nat) (w : Word) (s : State) : State :=
  windowCmd q n s fun s =>
    checked
      [(noBits w (bitsFrom 13 15 ||| bitsFrom 29 63), qsReservedNonzero), ((getSwin s n).models == [], qsSchCanopyBusy),
       (((List.range (field w 16 13)).map (· + field w 0 13)).all (ownPlot s n), qsSchCanopyRange)]
      s fun _ => updSwin s n fun v => { v with canopy := w }

/-- SCH_WCANOPY_WRITE (R338). -/
def execSchWcanopyWrite (q : Requester) (n : Nat) (w : Word) (s : State) : Result := .next (canopyWrite q n w s)

/-- Depth of the accounting ring. -/
def acctDepth (w : Word) : Nat := 2 ^ field w 1 5

/-- Local plot address of the accounting ring. -/
def acctBase (w : Word) : Nat := field w 12 29 * 4096

/-- SCH_WACCT_WRITE (R348): SCH_WACCT, or SCH_WACCTPTR's head. Records that wait for the ring that was there before are
dropped (DESIGN CHOICE, log entry 139). -/
def acctWrite (q : Requester) (n : Nat) (ptr : Bool) (w : Word) (s : State) : State :=
  windowCmd q n s fun s =>
    let v := getSwin s n
    if ptr then
      checked
        [(u32sub (field w 0 32) v.head ≤ u32sub v.tail v.head, qsSchAcctRange)]
        s fun _ => updSwin s n fun v => { v with head := field w 0 32 }
    else
      checked
        [(noBits w (bitsFrom 6 11 ||| bitsFrom 41 63), qsReservedNonzero),
         (!wbit w 0 || (4 ≤ field w 1 5 && field w 1 5 ≤ 20 && ownExtent s n (acctBase w) (64 * acctDepth w)), qsSchAcctRange)]
        s fun _ => updSwin (dropClient s (.acct n)) n fun v => { v with acct := w, head := 0, tail := 0, records := [], writing := false }

/-- SCH_WACCT_WRITE (R348). -/
def execSchWacctWrite (q : Requester) (n : Nat) (ptr : Bool) (w : Word) (s : State) : Result := .next (acctWrite q n ptr w s)

end Sys2Proof.Machine
end

