-- ==== Sys2Proof/Machine/Jobs.lean ====
section
/-! DEFINITION. Jobs: their start and end (R317 to R322), shares and placement (R323 to R326), and the passes
on the cores (R327 to R336). -/

namespace Sys2Proof.Machine

/-- A job's number. -/
def jobKey (t e : Nat) : Nat := t * 1024 + e

/-- Operands of a JOB (R318). -/
def jobModel (bs : List Byte) : Word := word (leAt bs 0x20 8)
/-- core_mask. -/
def jobMask (bs : List Byte) : BitVec 128 := BitVec.ofNat 128 (leAt bs 0x28 16)
/-- first. -/
def jobFirst (bs : List Byte) : Nat := leAt bs 0x38 2
/-- count. -/
def jobCount (bs : List Byte) : Nat := leAt bs 0x3A 2
/-- cores. -/
def jobCores (bs : List Byte) : Nat := byteAt bs 0x3C

/-- Core `c` is fenced as failed. -/
def coreFailed (s : State) (c : Nat) : Bool := s.err.failedCores.getLsbD c

/-- The cores in service of clearing `n` that a mask allows; an empty mask allows every one (R318). -/
def maskCores (s : State) (n : Nat) (m : BitVec 128) : List Nat :=
  (coresOf s n).filter fun c => !coreFailed s c && (m == 0 || m.getLsbD c)

/-- The free cores of a mask, in scan order (R323). -/
def freeIn (s : State) (n : Nat) (m : BitVec 128) : List Nat := (maskCores s n m).filter fun c => (getCore s c).job.isNone

/-- Envelope `e` is the last of its task. -/
def isLastEnv (k : Task) (e : Nat) : Bool := e + 1 == k.envs.length

/-- The latest JOB before envelope `e` in its stream. -/
def latestJob (k : Task) (e : Nat) : Option Nat :=
  ((k.envs.take e).zipIdx.filter fun v => envOpcode v.1.bytes == 0x30).getLast?.map (·.2)

/-- The JOB_WAITs that name JOB `e` (R320). -/
def waitsFor (k : Task) (e : Nat) : List Nat :=
  (k.envs.zipIdx.filter fun v => envOpcode v.1.bytes == 0x31 && latestJob k v.2 == some e).map (·.2)

/-! Core-cclk and virtual time (R324). -/

/-- Count the core-cclk of a job up to now. -/
def accrue (s : State) (j : Nat) : State :=
  updJob s j fun x => { x with accrued := x.accrued + x.held.length * (nowCclk s - x.counted), counted := nowCclk s }

/-- Charge context `c` for every core-cclk since its previous charge (R324, R342). -/
def chargeCtx (s : State) (c : Nat) : State :=
  let js := ((jobList s).filter fun j => j.2.ctx == c).map (·.1)
  let s := forEach js s accrue
  let total := (js.map fun j => match getJob s j with
    | some x => x.accrued
    | none => 0).sum
  let s := forEach js s fun s j => updJob s j fun x => { x with accrued := 0 }
  let s := updCtx s c fun k => { k with vtime := (k.vtime + total * (2 ^ 48 / k.weight)) % 2 ^ 128 }
  updAcct s c fun a => { a with core := a.core + total }

/-- A job competes for cores or holds some. -/
def jobCounts (j : Job) : Bool :=
  match j.st with
  | .waiting | .claimant => true
  | .started | .ending | .ended => !j.held.isEmpty
  | .loading => false

/-- enter of R324: context `c` gains a waiting job, having none and holding no core. -/
def enterCtx (s : State) (n c : Nat) : State :=
  let live := (jobList s).filter fun j => j.2.n == n && jobCounts j.2
  if live.any fun j => j.2.ctx == c then s
  else match live.map fun j => (getCtx s j.2.ctx).vtime with
    | [] => s
    | v :: r => updCtx s c fun k => { k with vtime := max k.vtime (r.foldl min v) }

/-! Cores. -/

/-- cclk of this tick in which a pass of the core was issued and not ended, up to now (R344). -/
def passCclk (s : State) (ps : List PassRun) : Nat :=
  let spans := (ps.map fun p => (max p.issued s.clk.tickStart, p.ended.getD (nowCclk s))).mergeSort fun a b => a.1 ≤ b.1
  (spans.foldl (fun (a : Nat × Nat) p =>
    let lo := max a.2 p.1
    if lo < p.2 then (a.1 + (p.2 - lo), p.2) else a) (0, s.clk.tickStart)).1

/-- The rows that a core's passes have had on so far in this tick go to its context (R344). -/
def chargeRows (s : State) (c ctx : Nat) : State :=
  let k := passCclk s (getCore s c).passes
  let s := updAcct s ctx fun a => { a with rowsOn := a.rowsOn + 512 * k }
  let s := updDom s (c / 2) fun d => { d with act := d.act + 512 * k }
  updCore s c fun x => { x with rowsBy := if k = 0 then x.rowsBy else x.rowsBy ++ [(ctx, k)] }

/-- The core port of core `c` is told to freeze; its reset follows as cp_frozen rises (R332). -/
def freezeReset (s : State) (c : Nat) : State :=
  if coreFailed s c then s
  else
    let k := getCore s c
    if k.rst || k.wantReset then s
    else if k.frozen then
      emit (updCore s c fun k => { k with freeze := true, rst := true, resetTicks := 0 }) (.coreReset c true)
    else emit (updCore s c fun k => { k with freeze := true, wantReset := true }) (.coreFreeze c true)

/-- A core has a reset to come or under way. -/
def coreResetting (s : State) (c : Nat) : Bool :=
  let k := getCore s c
  !coreFailed s c && (k.rst || k.wantReset || k.stopNext)

/-- A core of a stopped job is frozen and reset in the next cclk (R322). -/
def freezeSoon (s : State) (c : Nat) : State := if coreFailed s c then s else updCore s c fun k => { k with stopNext := true }

/-- The cores whose freeze is due (R322). -/
def freezesTurn (s : State) : State :=
  forEach (s.sch.cores.filter fun kv => kv.2.stopNext) s fun s kv =>
    freezeReset (updCore s kv.1 fun k => { k with stopNext := false }) kv.1

/-! The end of a job. -/

/-- What envelopes of the job's task learn of its end, or of its failure to start (R320, R321). -/
def jobReport (s : State) (t e : Nat) (code : Code) (expired : Bool) : State :=
  match getTask s t with
  | none => s
  | some k =>
    let open' := match k.envs[e]? with
      | some v => v.st != .done
      | none => false
    let s := if open' then completeEnv s t e code false expired else s
    let ws := waitsFor k e
    let s := forEach ws s fun s w => match getEnv s t w with
      | some v => if v.st == .running then completeEnv s t w code false expired else s
      | none => s
    if !open' && ws.isEmpty then updTask s t fun k => { k with status := if k.status = qsOk then code else k.status } else s

/-- A job ends with its code (R321). -/
def jobEnd (s : State) (j : Nat) : State :=
  match getJob s j with
  | none => s
  | some x =>
    let s := updJob s j fun x => { x with st := .ended }
    let s := if x.code = qsOk then s else updSwin s x.n fun w => { w with code := x.code, core := x.core, ctx := x.ctx }
    jobReport s x.task x.env x.code x.expired

/-- Every pass, write and request of a job on core `c` is done, and no reset of it is left (R321). -/
def coreQuiet (s : State) (x : Job) (c : Nat) : Bool :=
  let k := getCore s c
  coreFailed s c || (!k.rst && !k.wantReset && !k.stopNext && k.passes.all (fun p => p.ended.isSome) && k.drained && k.reqs.isEmpty &&
    (x.st == .ending || x.count ≤ k.passes.length))

/-- A job that meets R321 ends. -/
def jobSettle (s : State) (j : Nat) : State :=
  match getJob s j with
  | none => s
  | some x => if (x.st == .started || x.st == .ending) && x.held.all (coreQuiet s x) then jobEnd s j else s

/-- The cores of a job are released and its context charged (R321, R324). -/
def releaseCores (s : State) (j : Nat) : State :=
  match getJob s j with
  | none => s
  | some x =>
    let s := forEach x.held s fun s c => chargeRows s c x.ctx
    let s := chargeCtx s x.ctx
    let s := updJob s j fun x => { x with held := [] }
    forEach x.held s fun s c => updCore s c fun k => { k with job := none, passes := [] }

/-- A job is to end with a code: one that has not started ends now, and gives up what it has claimed in the
next cclk; a started one once its cores, but for `keep`, are reset (R322, R333, R464). One that is ending keeps its code, and
the core that a fault kept is frozen and reset too (R322, R464, R478). -/
def jobStop (s : State) (j : Nat) (code : Code) (expired : Bool) (core : Nat) (keep : Option Nat) : State :=
  match getJob s j with
  | none => s
  | some x =>
    let mark := updJob s j fun x => { x with code := code, expired := expired, core := core }
    match x.st with
    | .loading | .waiting | .claimant => jobEnd mark j
    | .started =>
      let s := updJob mark j fun x => { x with st := .ending }
      forEach x.held s fun s c => if some c = keep then s else freezeSoon s c
    | .ending => if keep.isNone then forEach x.held s fun s c => if coreResetting s c then s else freezeSoon s c else s
    | .ended => s

/-! Placement (R325). -/

/-- The jobs of clearing `n` in a state. -/
def jobsIn (s : State) (n : Nat) (st : JobSt) : List (Nat × Job) := (jobList s).filter fun j => j.2.n == n && j.2.st == st

/-- The claimant of clearing `n`. -/
def claimantOf (s : State) (n : Nat) : Option (Nat × Job) := (jobsIn s n .claimant).head?

/-- A job takes free cores of its mask, in scan order, up to its cores. -/
def takeFree (s : State) (j : Nat) : State :=
  match getJob s j with
  | none => s
  | some x =>
    let cs := (freeIn s x.n x.mask).take (x.cores - x.held.length)
    let s := updJob (accrue s j) j fun x => { x with held := (x.held ++ cs).mergeSort (· ≤ ·) }
    forEach cs s fun s c => updCore s c fun k => { k with job := some j, passes := [] }

/-- A job starts (R319, R320, R337): it is counted, a JOB that is not the last envelope completes, and a pair
that is not On is waited for. -/
def startJob (s : State) (j : Nat) : State :=
  match getJob s j with
  | none => s
  | some x =>
    let s := updJob s j fun x => { x with st := .started }
    let s := updSwin s x.n fun w => { w with jobs := w.jobs + 1 }
    let s := if x.held.any fun c => !domainOn s (c / 2) then
        updPwr (updPwin s x.n fun w => { w with waits := w.waits + 1 }) fun u => { u with demandWaits := u.demandWaits + 1 }
      else s
    match getTask s x.task with
    | some k => if isLastEnv k x.env then s else completeEnv s x.task x.env qsOk false false
    | none => s

/-- The head jobs of clearing `n` but the claimant, by (vt, context). -/
def headJobs (s : State) (n : Nat) : List (Nat × Job) :=
  let wait := jobsIn s n .waiting ++ jobsIn s n .claimant
  let heads := wait.filter fun j => j.2.st == .waiting && !wait.any fun o => o.2.ctx == j.2.ctx && o.2.order < j.2.order
  heads.mergeSort fun a b =>
    let va := (getCtx s a.2.ctx).vtime
    let vb := (getCtx s b.2.ctx).vtime
    va < vb || (va == vb && a.2.ctx ≤ b.2.ctx)

/-- The first part of place: the claimant takes what is free, starts, or can never start. -/
def placeClaimant (s : State) (n : Nat) : State :=
  match claimantOf s n with
  | none => s
  | some (j, x) =>
    if (maskCores s n x.mask).length < x.cores then jobStop s j qsSchCores false 0 none
    else
      let s := takeFree s j
      match getJob s j with
      | some y => if y.held.length = y.cores then startJob s j else s
      | none => s

/-- place runs for clearing `n` at the end of this cclk, once, after all that the cclk released or brought (R325). -/
def placeSoon (s : State) (n : Nat) : State := updSch s fun u => { u with due := setBit u.due n true }

/-- place of R325; it waits while the clearing's tasks do not run. -/
def place (s : State) (n : Nat) : State :=
  if !tasksRun s n then s
  else
    let s := placeClaimant (updSch s fun u => { u with due := setBit u.due n false }) n
    forEach (headJobs s n) s fun s j =>
      if j.2.cores ≤ (freeIn s n j.2.mask).length then startJob (takeFree s j.1) j.1
      else if (claimantOf s n).isNone then takeFree (updJob s j.1 fun x => { x with st := .claimant }) j.1
      else s

/-- place in every clearing in which it is due. -/
def placesTurn (s : State) : State := forEach ((List.range 64).filter fun n => s.sch.due.getLsbD n) s place

/-! JOB and JOB_WAIT (R319, R320). -/

/-- Steps 4 to 6 of R319 on a job that is loading: it waits on, fails, or begins to wait for cores. -/
def jobAdmit (s : State) (j : Nat) : State :=
  match getJob s j with
  | none => s
  | some x =>
    let fail := fun (c : Code) => jobStop s j c false 0 none
    match modelOf s x.n x.model with
    | none => fail qsSchModelAbsent
    | some (i, m) =>
      if !m.resident then s
      else
        let s' := useModel s x.n i
        if m.passes.length < x.first + x.count then jobStop s' j qsSchPassRange false 0 none
        else if (maskCores s x.n x.mask).length < x.cores then jobStop s' j qsSchCores false 0 none
        else
          let s := enterCtx s' x.n x.ctx
          placeSoon (updJob s j fun x => { x with st := .waiting, counted := nowCclk s }) x.n

/-- The start of a JOB (R319). -/
def jobStart (t e : Nat) (k : Task) (v : EnvRun) (s : State) : State :=
  let bs := v.bytes
  let m := jobMask bs
  let checks : List (Bool × Code) :=
    [(zeroAt bs 0x3D 3 && 1 ≤ jobCores bs && jobCores bs ≤ 128, qsSchOperand),
     ((maskBits m).all fun c => coreOwner s c == some k.n, qsNotOwner)]
  match firstBad checks with
  | some c => jobReport s t e c false
  | none =>
    if jobCount bs = 0 then jobReport s t e qsOk false
    else
      let x : Job :=
        { task := t, env := e, n := k.n, ctx := k.ctx, gen := k.gen, model := jobModel bs, mask := m, first := jobFirst bs
          count := jobCount bs, cores := jobCores bs, st := .loading, order := k.order * 1024 + e, held := [], code := qsOk
          expired := false, core := 0, accrued := 0, counted := nowCclk s }
      let s := updEnv s t e fun v => { v with st := .running }
      jobAdmit (updSch s fun u => { u with jobs := tabSet none u.jobs (jobKey t e) (some x) }) (jobKey t e)

/-- JOB (R319). -/
def execJob (task env : Nat) (s : State) : Result := .next (startEnv s task env 0x30 (jobStart task env))

/-- The start of a JOB_WAIT (R320): it ends at once where the JOB it names has failed or its job has ended. -/
def waitStart (t e : Nat) (k : Task) (v : EnvRun) (s : State) : State :=
  if !zeroAt v.bytes 0x20 32 then endEnv s t e qsSchOperand
  else match (if envFlag v.bytes 2 then latestJob k e else none) with
    | none => endEnv s t e qsSchNoJob
    | some b =>
      let wait := updEnv s t e fun v => { v with st := .running }
      match getJob s (jobKey t b) with
      | some x => if x.st == .ended then completeEnv s t e x.code false x.expired else wait
      | none => match k.envs[b]? with
        | some w => if w.st == .done then endEnv s t e w.code else wait
        | none => wait

/-- JOB_WAIT (R320). -/
def execJobWait (task env : Nat) (s : State) : Result := .next (startEnv s task env 0x31 (waitStart task env))

/-- What the jobs do at the end of a cclk: those that wait for a load are tried, those that have ended give
up their cores. -/
def jobsTurn (s : State) : State :=
  forEach (jobList s) s fun s j =>
    match getJob s j.1 with
    | none => s
    | some x =>
      match x.st with
      | .loading => jobAdmit s j.1
      | .started | .ending => jobSettle s j.1
      | .ended => if x.held.isEmpty then s else placeSoon (releaseCores s j.1) x.n
      | .waiting | .claimant => s

/-! Faults of cores (R333, R468, R469). -/

/-- A record about core `c`, naming its job's context where it has one. -/
def coreRec (s : State) (code : Code) (sev c d0 d1 d2 : Nat) : ErrRec :=
  let r := { newRec s code sev 1 c d0 d1 d2 with clearing := coreOwner s c }
  match (getCore s c).job.bind (getJob s) with
  | none => r
  | some x =>
    let q := (getTask s x.task).map (·.queue)
    let tag := match getEnv s x.task x.env with
      | some v => envTag v.bytes
      | none => 0
    { r with ctx := some x.ctx, generation := x.gen, tag := tag, queue := q }

/-- Core `c` is fenced as failed for a reason of R468. -/
def failCore (s : State) (c reason : Nat) : State :=
  if coreFailed s c then s
  else
    let s := raise s (coreRec s qsErrCoreFailed 1 c reason 0 0)
    let s := { s with err := { s.err with failedCores := setBit s.err.failedCores c true } }
    let s := updCore s c fun k => { k with freeze := true, rst := true, wantReset := false, stopNext := false }
    let s := emit (emit s (.coreFreeze c true)) (.coreReset c true)
    let s := match (getCore s c).job with
      | none => s
      | some j => match getJob s j with
        | none => s
        | some x =>
          if x.st = .claimant then
            let s := updJob (accrue s j) j fun x => { x with held := x.held.erase c }
            placeSoon (updCore s c fun k => { k with job := none, passes := [] }) x.n
          else jobStop s j qsSchCoreLost false c none
    match coreOwner s c with
    | some n => issueManifest (degrade s n) n
    | none => s

/-- Boundaries of recent faults, the present one added (R468). -/
def faultAdd (s : State) (fs : List Nat) : List Nat := s.sch.ticks :: fs.filter fun t => s.sch.ticks < 10000 + t

/-- An array fault counts against core `c`; the fourth within 10,000 boundaries fences it (R468). -/
def arrayFault (s : State) (c : Nat) : State :=
  let s := updCore s c fun k => { k with faults := faultAdd s k.faults }
  if 4 ≤ (getCore s c).faults.length then failCore s c 2 else s

/-- A pass of job `j` ends with a status that ends the job, from core `c` (R333, R334); of a job that is ending already,
the fault is recorded and counted all the same. -/
def passFault (s : State) (j c status tag : Nat) : State :=
  match getJob s j with
  | none => s
  | some _ =>
    let code := if status = 0xFF then qsSchPassTimeout else if status = 2 then qsSchPassPoisoned else qsSchPassFault
    let s := raise s (coreRec s code 2 c status tag 0)
    let s := jobStop s j code false c (if status = 0xFF then none else some c)
    if status = 2 then s else arrayFault s c

/-! Passes (R327 to R330). -/

/-- Pass `pos` of a job. -/
def passOf (s : State) (x : Job) (pos : Nat) : Option PassInfo :=
  (modelOf s x.n x.model).bind fun m => m.2.passes[x.first + pos]?

/-- Local plot address of a pass's header. -/
def passAddr (s : State) (x : Job) (p : PassInfo) : Nat :=
  match modelOf s x.n x.model with
  | none => 0
  | some m => blockAddr s x.n m.2.first + 256 * p.offset

/-- The run of pass `pos` on core `c`. -/
def runOf (s : State) (c pos : Nat) : Option PassRun := (getCore s c).passes.find? fun r => r.pos == pos

/-- Every core of the job has ended pass `k`, drained, its writes answered (R327); the latest of the ends. -/
def allEnded (s : State) (x : Job) (k : Nat) : Option Nat :=
  if x.held.all fun c => (getCore s c).drained && !(getCore s c).reqs.any (·.2) && ((runOf s c k).bind (·.ended)).isSome then
    some ((x.held.map fun c => ((runOf s c k).bind (·.ended)).getD 0).foldl max 0)
  else none

/-- S(k) of R329. -/
def arrayStart (s : State) (x : Job) (r : PassRun) : Nat :=
  r.issued + (match passOf s x r.pos with
    | some p => p.preload
    | none => 0)

/-- issue_cclk of R329 for pass `pos` on core `c`; none while it waits for other passes. -/
def issueCclk (s : State) (x : Job) (c pos : Nat) (p : PassInfo) : Option Nat :=
  if pos = 0 then some 0
  else match runOf s c (pos - 1), passOf s x (pos - 1) with
    | some r, some q =>
      let t := max (arrayStart s x r + q.wcet - p.preload) (r.issued + 1)
      let t := if 2 ≤ pos then max t ((((runOf s c (pos - 2)).bind (·.ended)).getD 0) + 1) else t
      if p.barrier then (allEnded s x (pos - 1)).map fun a => max t (a + 1) else some t
    | _, _ => none

/-- An overrun of R336. -/
def overrunRec (s : State) (n c tag beyond : Nat) : State :=
  let s := updSwin s n fun w => { w with overruns := w.overruns + 1 }
  raise s (coreRec s qsErrOverrun 1 c tag beyond (getCore s c).started)

/-- The next pass of the job on core `c` issues, where R103, R327 and R329 let it. -/
def passIssue (s : State) (c : Nat) : State :=
  let k := getCore s c
  match k.job with
  | none => s
  | some j => match getJob s j with
    | none => s
    | some x =>
      let pos := k.passes.length
      match passOf s x pos with
      | none => s
      | some p =>
        let fixed := (getClr s x.n).cfg.fixed
        let due := if fixed then
            (match issueCclk s x c pos p with
              | some t => decide (t ≤ nowCclk s)
              | none => false)
          else !p.barrier || pos == 0 || (allEnded s x (pos - 1)).isSome
        if x.st == .started && pos < x.count && !k.freeze && !k.frozen && !k.rst && !coreFailed s c && domainOn s (c / 2) && !lsFrozen s x.n &&
            (k.passes.filter fun r => r.ended.isNone).length < 2 && due then
          let s := updCore s c fun k => { k with passes := ⟨pos, nowCclk s, none, 0⟩ :: k.passes, started := k.started + 1 }
          let s := emit s (.pass c pos (passAddr s x p) p.fence)
          match (getClr s x.n).cfg.work with
          | some w => if fixed && w.passesPeak < (getCore s c).started then overrunRec s x.n c pos 0 else s
          | none => s
        else s

/-- PASS_ISSUE (R329). -/
def execPassIssue (core : Nat) (s : State) : Result := .next (passIssue s core)

/-- PASS_DONE (R321, R327, R333). -/
def passDone (s : State) (c tag status : Nat) (drained : Bool) : State :=
  let k := getCore s c
  if coreFailed s c then s
  else match k.job with
    | none => s
    | some j => match getJob s j, k.passes.find? fun r => r.pos == tag && r.ended.isNone with
      | some x, some r =>
        let s := updCore s c fun k =>
          { k with
            drained := drained
            passes := k.passes.map fun p => if p.pos = tag then { p with ended := some (nowCclk s) } else p }
        let s := updAcct s x.ctx fun a => { a with passes := a.passes + 1 }
        let bound := arrayStart s x r + (match passOf s x r.pos with
          | some p => p.wcet
          | none => 0)
        let s := if (getClr s x.n).cfg.fixed && bound < nowCclk s then overrunRec s x.n c tag (nowCclk s - bound) else s
        let s := if status = 0 then s
          else if k.rst then (if status = 1 || 3 < status then arrayFault s c else s)
          else passFault s j c status tag
        jobSettle s j
      | _, _ => s

/-- PASS_DONE (R327). -/
def execPassDone (core tag status : Nat) (drained : Bool) (s : State) : Result := .next (heard s fun s => passDone s core tag status drained)

/-- PASS_WATCHDOG (R334): a pass has not ended after more than SCH_PASSWD.ticks boundaries. -/
def passWatchdog (s : State) (c : Nat) : State :=
  match (getCore s c).job, (getCore s c).passes.reverse.find? fun r => r.ended.isNone && s.sch.passwd < r.ticks with
  | some j, some r => if coreFailed s c then s else passFault s j c 0xFF r.pos
  | _, _ => s

/-- PASS_WATCHDOG (R334). -/
def execPassWatchdog (core : Nat) (s : State) : Result := .next (passWatchdog s core)

/-- CORE_FROZEN (R331, R332, R454): cp_frozen rises under cp_freeze, and a reset that waits for it begins. -/
def coreFrozen (s : State) (c : Nat) : State :=
  let k := getCore s c
  if coreFailed s c || !k.freeze || k.frozen then s
  else
    let s := updCore s c fun k => { k with frozen := true }
    if k.wantReset then
      emit (updCore s c fun k => { k with wantReset := false, rst := true, resetTicks := 0 }) (.coreReset c true)
    else s

/-- CORE_FROZEN (R454). -/
def execCoreFrozen (core : Nat) (s : State) : Result := .next (heard s fun s => coreFrozen s core)

/-- The job that holds core `c` is of a frozen clearing: cp_freeze stays 1 (R500). -/
def keepsFreeze (s : State) (c : Nat) : Bool :=
  match (getCore s c).job.bind (getJob s) with
  | some x => lsFrozen s x.n
  | none => false

/-- CORE_RESET_ACK (R332): cp_rst and cp_freeze drop together; passes not ended are gone. -/
def coreResetAck (s : State) (c : Nat) : State :=
  let k := getCore s c
  if coreFailed s c || !k.rst then s
  else
    let stay := keepsFreeze s c
    let s := updCore s c fun k =>
      { k with
        rst := false, freeze := stay, frozen := false, stopNext := false, resetTicks := 0, drained := true
        passes := k.passes.map fun p => { p with ended := some (p.ended.getD (nowCclk s)) } }
    let s := emit s (.coreReset c false)
    let s := if stay then s else emit s (.coreFreeze c false)
    match k.job with
    | some j => jobSettle s j
    | none => s

/-- CORE_RESET_ACK (R332). -/
def execCoreResetAck (core : Nat) (s : State) : Result := .next (heard s fun s => coreResetAck s core)

/-- CORE_ERROR_REPORT (R335). -/
def execCoreErrorReport (core : Nat) (code : BitVec 16) (s : State) : Result :=
  .next (heard s fun s => if coreFailed s core || 128 ≤ core then s else raise s (coreRec s qsErrCoreReport 0 core code.toNat 0 0))

/-- SPARE_MAP_CHANGE (R104). -/
def execSpareMapChange (core : Nat) (map : BitVec 32) (s : State) : Result :=
  .next (heard s fun s => 
    let old := (getCore s core).spareMap
    if coreFailed s core || 128 ≤ core || old == map then s
    else raise (updCore s core fun k => { k with spareMap := map }) (coreRec s qsErrSpareMap 0 core old.toNat map.toNat 0))

/-! SCH_WEIGHT (R326). -/

/-- SCH_WEIGHT_WRITE (R326): SCH_WEIGHT(c). -/
def weightWrite (q : Requester) (c : Nat) (w : Word) (s : State) : State :=
  globalCmd q s fun s =>
    let k := getCtx s c
    let g := match ctxOwner s c with
      | some n => (getClr s n).cfg
      | none => cfg0
    let v := field w 0 16
    checked
      [(noBits w (bitsFrom 16 63), qsReservedNonzero), (k.st == .live, qsCtxNotLive),
       (g.tunable.getLsbD 4 || v == k.weightNext.getD k.weight, qsImgNotTunable),
       (!g.tunable.getLsbD 4 || (g.weightMin ≤ v && v ≤ g.weightMax), qsImgTuneRange)]
      s fun _ => updCtx s c fun k => { k with weightNext := some v }

/-- SCH_WEIGHT_WRITE (R326). -/
def execSchWeightWrite (q : Requester) (c : Nat) (w : Word) (s : State) : Result := .next (weightWrite q c w s)

end Sys2Proof.Machine
end

