-- ==== Sys2Proof/Machine/Transfers.lean ====
section
/-! DEFINITION. Transfers (R370 to R377): COPY and COPY_2D, tile by tile, PREFETCH and ADVISE; peer bindings
and the fabric port (R359 to R361). -/

namespace Sys2Proof.Machine

/-! Operands (R371, R372). -/

/-- src, or addr of PREFETCH and ADVISE. -/
def xferSrc (bs : List Byte) : Nat := leAt bs 0x20 8
/-- dst. -/
def xferDst (bs : List Byte) : Nat := leAt bs 0x28 8
/-- len, or width. -/
def xferLen (bs : List Byte) : Nat := leAt bs 0x30 4
/-- height, tile_rows and the pitches of COPY_2D. -/
def xferHeight (bs : List Byte) : Nat := leAt bs 0x34 2
/-- tile_rows. -/
def xferTileRows (bs : List Byte) : Nat := leAt bs 0x36 2
/-- src_pitch. -/
def xferSrcPitch (bs : List Byte) : Nat := leAt bs 0x38 4
/-- dst_pitch. -/
def xferDstPitch (bs : List Byte) : Nat := leAt bs 0x3C 4
/-- hint. -/
def xferHint (bs : List Byte) : Nat := byteAt bs 0x34

/-- It copies: COPY or COPY_2D. -/
def isCopy (bs : List Byte) : Bool := envOpcode bs == 0x40 || envOpcode bs == 0x41

/-- Step 1 of R372. -/
def xferOperands (bs : List Byte) : Bool :=
  match envOpcode bs with
  | 0x40 => zeroAt bs 0x34 12
  | 0x41 => xferLen bs ≤ 16777216 && xferLen bs ≤ xferSrcPitch bs && xferLen bs ≤ xferDstPitch bs
  | _ => zeroAt bs 0x28 8 && xferHint bs ≤ 1 && zeroAt bs 0x35 11

/-- Step 2 of R372: nothing is moved. -/
def xferEmpty (bs : List Byte) : Bool :=
  xferLen bs == 0 || (envOpcode bs == 0x41 && (xferHeight bs == 0 || xferTileRows bs == 0))

/-- Bytes of the extent of a side whose pitch is given (R372). -/
def xferExtent (bs : List Byte) (pitch : Nat) : Nat :=
  if envOpcode bs = 0x41 then (xferHeight bs - 1) * pitch + xferLen bs else xferLen bs

/-- The sides of a transfer: address, bytes, and whether it is written. -/
def xferSides (bs : List Byte) : List (Nat × Nat × Bool) :=
  if isCopy bs then [(xferSrc bs, xferExtent bs (xferSrcPitch bs), false), (xferDst bs, xferExtent bs (xferDstPitch bs), true)]
  else [(xferSrc bs, xferLen bs, false)]

/-- Step 3 of R372: the forms. -/
def xferForms (s : State) (bs : List Byte) : Bool :=
  (xferSides bs).all (fun x => placeOf s x.1 != .bad && x.1 + x.2.1 ≤ 2 ^ 64) &&
    (if isCopy bs then !(isHost (xferSrc bs) && isHost (xferDst bs)) else isHost (xferSrc bs))

/-- Step 5 of R372: a local side lies in plots it may touch. -/
def xferOwned (s : State) (n : Nat) (bs : List Byte) : Bool :=
  (xferSides bs).all fun x => match placeOf s x.1 with
    | .plot a => a + x.2.1 ≤ 2 ^ 41 && (if x.2.2 then ownExtent s n a x.2.1 else readExtent s n a x.2.1)
    | _ => true

/-- Step 6 of R372: local extents are apart. -/
def xferApart (s : State) (bs : List Byte) : Bool :=
  match placeOf s (xferSrc bs), placeOf s (xferDst bs) with
  | .plot a, .plot b => apart (a, xferExtent bs (xferSrcPitch bs)) (b, xferExtent bs (xferDstPitch bs))
  | _, _ => true

/-- Tiles of a copy. -/
def tileCount (bs : List Byte) : Nat :=
  if envOpcode bs = 0x41 then (xferHeight bs + xferTileRows bs - 1) / xferTileRows bs else (262143 + xferLen bs) / 262144

/-- The runs of tile `k`: source, destination and bytes (R373). -/
def tileRuns (bs : List Byte) (k : Nat) : List (Nat × Nat × Nat) :=
  if envOpcode bs = 0x41 then
    let r := k * xferTileRows bs
    (List.range (min (xferTileRows bs) (xferHeight bs - r))).map fun i =>
      (xferSrc bs + (r + i) * xferSrcPitch bs, xferDst bs + (r + i) * xferDstPitch bs, xferLen bs)
  else
    let o := 262144 * k
    [(xferSrc bs + o, xferDst bs + o, min 262144 (xferLen bs - o))]

/-- The 4 KiB pages that extents touch. -/
def pagesOf (xs : List (Nat × Nat)) : List Nat :=
  (xs.flatMap fun x => if x.2 = 0 then [] else (List.range ((x.1 + x.2 - 1) / 4096 - x.1 / 4096 + 1)).map (· + x.1 / 4096)).dedup

/-- Step 7 of R372: the pages that each tile's rows touch on each side. -/
def tilesSmall (bs : List Byte) : Bool :=
  envOpcode bs != 0x41 || (List.range (tileCount bs)).all fun k =>
    let rs := tileRuns bs k
    (pagesOf (rs.map fun r => (r.1, r.2.2))).length ≤ 512 && (pagesOf (rs.map fun r => (r.2.1, r.2.2))).length ≤ 512

/-- Steps 3 to 7 of R372. -/
def xferExtents (s : State) (k : Task) (bs : List Byte) : List (Bool × Code) :=
  [(xferForms s bs, qsXltAddrForm), ((xferSides bs).all fun x => pasidIfHost s k.ctx x.1, qsXltNoPasid),
   (xferOwned s k.n bs, qsNotOwner), (!isCopy bs || xferApart s bs, qsXltOverlap), (tilesSmall bs, qsXltTileTooBig),
   (enginesIn s k.n != [], qsGpeEngineNone)]

/-- The start of a transfer (R370, R372). -/
def xferStart (t e : Nat) (k : Task) (v : EnvRun) (s : State) : State :=
  if !xferOperands v.bytes then endEnv s t e qsXltOperand
  else if xferEmpty v.bytes then endEnv s t e qsOk
  else match firstBad (xferExtents s k v.bytes) with
    | some c => endEnv s t e c
    | none => assignEnv s t e k.n

/-- COPY (R372). -/
def execCopy (task env : Nat) (s : State) : Result := .next (startEnv s task env 0x40 (xferStart task env))

/-- COPY_2D (R372). -/
def execCopy2d (task env : Nat) (s : State) : Result := .next (startEnv s task env 0x41 (xferStart task env))

/-- PREFETCH (R376). -/
def execPrefetch (task env : Nat) (s : State) : Result := .next (startEnv s task env 0x42 (xferStart task env))

/-- ADVISE (R377). -/
def execAdvise (task env : Nat) (s : State) : Result := .next (startEnv s task env 0x43 (xferStart task env))

/-! Moving tiles (R373, R374). -/

/-- The host pages of the present tile, each with whether it is written. -/
def tilePages (v : EnvRun) : List (Nat × Bool) :=
  let rs := tileRuns v.bytes v.step
  let src := if isHost (xferSrc v.bytes) then (pagesOf (rs.map fun r => (r.1, r.2.2))).map fun p => (p, false) else []
  let dst := if isHost (xferDst v.bytes) then (pagesOf (rs.map fun r => (r.2.1, r.2.2))).map fun p => (p, true) else []
  src ++ dst

/-- Translations of host pages for an envelope, each numbered by its page. -/
def translatePages (s : State) (t e : Nat) (ps : List (Nat × Bool)) : State :=
  match getTask s t with
  | none => s
  | some k => forEach ps s fun s p => newAcc s (envAcc k t e (p.1 % 2 ^ 45) (.translate p.2) (p.1 * 4096) 0 [])

/-- The first local page of the present tile that the gate would refuse: its address. -/
def tileRefused (s : State) (k : Task) (v : EnvRun) : Option Nat :=
  (tileRuns v.bytes v.step).findSome? fun r =>
    [(r.1, false), (r.2.1, true)].findSome? fun x => match placeOf s x.1 with
      | .plot a => ((plotSpan a r.2.2).find? fun p => !gate s x.2 (p * 2 ^ 28) k.ctx k.gen).map fun _ => x.1
      | _ => none

/-- What a page of the tile moves by, as `EnvRun.picks` holds it: its entry's frame, or nothing where it answered U = 1 (R363). -/
def framePick (s : State) (k : Task) (got : List Got) (p : Nat × Bool) : Option (Nat × Bool) :=
  let page := p.1 % 2 ^ 45
  if got.any fun g => g.op == page && byteAt g.data 1 == 0 then some (page * 2 ^ 52, true)
  else (s.xlt.entries.find? (entryFor (servingFunc s k.n) (getCtx s k.ctx).pasid page)).map fun e => (page * 2 ^ 52 + e.frame, false)

/-- Accesses of the moving tile use the translations of its start (R373, R379). -/
def withFrames (s : State) (t e : Nat) (v : EnvRun) : State :=
  { s with acc := s.acc.map fun kv => (kv.1, kv.2.map fun a =>
      if accOfEnv t e a && isHost a.addr then
        match v.picks.find? fun p => p.1 / 2 ^ 52 == pageOf a.addr with
        | some (_, true) => { a with plain := true }
        | some (p, false) => { a with frame := some (p % 2 ^ 52) }
        | none => a
      else a) }

/-- Pages of the present tile whose translation has been taken back since it came (R379). -/
def tileStale (s : State) (k : Task) (v : EnvRun) : List (Nat × Bool) :=
  (tilePages v).filter fun p =>
    (framePick s k v.got p).isNone

/-- Every page of the tile is translated: its local pages are checked, and it is read. Pages whose translation has been
taken back are translated again first (R373, R379). -/
def tileRead (s : State) (t e : Nat) (k : Task) (v : EnvRun) : State :=
  let stale := tileStale s k v
  if stale != [] then
    translatePages (updEnv s t e fun v => { v with got := v.got.filter fun g => !stale.any fun p => p.1 % 2 ^ 45 == g.op }) t e stale
  else match tileRefused s k v with
  | some a => failEnv (refusalRec s 2 (v.engine.getD 0) a 2 k.n k.ctx k.gen (envTag v.bytes) (some k.queue)) t e qsXltGateRefused 0xFFFFFFFF a
  | none =>
    let picks := (tilePages v).filterMap (framePick s k v.got)
    let s := updEnv (enterPhase s t e 2) t e fun v => { v with picks := picks }
    let s := forEach (tileRuns v.bytes v.step).zipIdx s fun s r => readExtentFor s t e (r.2 * 2 ^ 20) r.1.1 r.1.2.2
    withFrames s t e { v with picks := picks }

/-- The tile has been read: it is written. -/
def tileWrite (s : State) (t e : Nat) (v : EnvRun) : State :=
  if gotPoison v.got then failEnv s t e qsXltSrcPoisoned 0xFFFFFFFF (xferSrc v.bytes)
  else
    let s := forEach (tileRuns v.bytes v.step).zipIdx (enterPhase s t e 3) fun s r =>
      writeExtentFor s t e (r.2 * 2 ^ 20) r.1.2.1 (gotBytes (v.got.filter fun g => g.op / 2 ^ 20 == r.2))
    withFrames s t e v

/-- The next phase of a copy: 0 and 1 translation, 2 the reads, 3 the writes. -/
def copyNext (s : State) (t e : Nat) (k : Task) (v : EnvRun) : State :=
  match v.phase with
  | 0 => if v.step < tileCount v.bytes then translatePages (enterPhase s t e 1) t e (tilePages v) else endEnv s t e qsOk
  | 1 => tileRead s t e k v
  | 2 => tileWrite s t e v
  | _ => updEnv (enterPhase s t e 0) t e fun v => { v with step := v.step + 1, picks := [] }

/-- The next page of a PREFETCH, in ascending order (R376); `block` is as long as the pages begun. -/
def prefetchNext (s : State) (t e : Nat) (v : EnvRun) : State :=
  let ps := pagesOf [(xferSrc v.bytes, xferLen v.bytes)]
  match ps[v.block.length]? with
  | none => endEnv s t e qsOk
  | some p =>
    let s := updEnv (enterPhase s t e 1) t e fun v => { v with block := 0 :: v.block }
    translatePages s t e [(p, xferHint v.bytes == 1)]

/-- Sticky entries of clearing `n` in unit `u`. -/
def stickyOf (s : State) (u n : Nat) : Nat := ((entriesOf s u n).filter (·.sticky)).length

/-- ADVISE (R377) on the entries of the range, in ascending order of page. -/
def adviseNext (s : State) (t e : Nat) (k : Task) (v : EnvRun) : State :=
  let f := servingFunc s k.n
  let pasid := (getCtx s k.ctx).pasid
  let lo := pageOf (xferSrc v.bytes)
  let hi := pageOf (xferSrc v.bytes + xferLen v.bytes - 1)
  let mine := (s.xlt.entries.filter fun x => x.func == f && x.pasid == pasid && lo ≤ x.page && x.page ≤ hi).mergeSort fun a b => a.page ≤ b.page
  if xferHint v.bytes = 1 then
    endEnv (updXlt s fun u => { u with entries := u.entries.filter fun x => !mine.contains x }) t e qsOk
  else
    let r := mine.foldl (fun (a : State × Bool) x =>
      if x.sticky then a
      else if stickyOf a.1 (entryUnit x) x.n < 32 then
        (updXlt a.1 fun u => { u with entries := u.entries.map fun y => if y = x then { y with sticky := true } else y }, a.2)
      else (a.1, true)) (s, false)
    endEnv r.1 t e (if r.2 then qsXltKeepLimit else qsOk)

/-- The next phase of a transfer. -/
def xferNext (s : State) (t e : Nat) (k : Task) (v : EnvRun) : State :=
  match envOpcode v.bytes with
  | 0x42 => prefetchNext s t e v
  | 0x43 => adviseNext s t e k v
  | _ => copyNext s t e k v

/-! Peer bindings (R360, R361). -/

/-- The binding that the staged fields make. -/
def stagedBinding (s : State) : Binding :=
  let a := s.xlt.stage0
  let b := s.xlt.stage1
  { srcChip := field a 0 10, srcCtx := field a 16 12, srcGen := field a 32 16, write := wbit a 48, ctx := field b 0 12
    plot := field b 16 13, count := field b 32 13, gen := (getCtx s (field b 0 12)).gen, valid := true }

/-- XLT_PEER_CMD (R360, R381). -/
def peerCommand (q : Requester) (w : Word) (s : State) : State :=
  globalCmd q s fun s =>
    let i := field w 0 10
    let op := field w 16 4
    let x := stagedBinding s
    let n := ctxOwner s x.ctx
    let reserved := noBits s.xlt.stage0 (bitsFrom 10 15 ||| bitsFrom 28 31 ||| bitsFrom 49 63) &&
      noBits s.xlt.stage1 (bitsFrom 12 15 ||| bitsFrom 29 31 ||| bitsFrom 45 63)
    let base : List (Bool × Code) :=
      [(noBits w (bitsFrom 10 15 ||| bitsFrom 20 63) && (op != 1 || reserved), qsReservedNonzero), (op == 1 || op == 2, qsIllegalValue)]
    let more : List (Bool × Code) :=
      [(x.srcChip != s.boot.chip && x.srcGen != 0, qsIllegalValue), ((getCtx s x.ctx).st == .live, qsCtxNotLive),
       (x.count != 0 && ((List.range x.count).map (· + x.plot)).all (fun p => match n with
          | some n => ownPlot s n p
          | none => false), qsXltPeerRange),
       (!s.xlt.bindings.any fun kv => kv.1 != i && kv.2.valid && kv.2.srcChip == x.srcChip && kv.2.srcCtx == x.srcCtx, qsXltPeerDup)]
    let r := checked (if op = 1 then base ++ more else base) s fun _ =>
      updXlt s fun u => { u with bindings := tabUpd binding0 u.bindings i fun y => if op = 1 then x else { y with valid := false } }
    (r.1, updXlt r.2 fun u => { u with peerCode := r.1, peerIndex := i })

/-- BIND (R360). -/
def execPeerBind (q : Requester) (w : Word) (s : State) : Result := .next (peerCommand q (putField w 16 4 1) s)

/-- UNBIND (R360). -/
def execPeerUnbind (q : Requester) (w : Word) (s : State) : Result := .next (peerCommand q (putField w 16 4 2) s)

/-- A binding refuses every request since its local context left Live (R361). -/
def bindingStale (s : State) (b : Binding) : Bool := b.valid && b.gen != (getCtx s b.ctx).gen

/-! Classes of core and fabric requests (R191). -/

/-- The lowest enabled class of clearing `n`. -/
def lowestClass (s : State) (n : Nat) : Nat := ((maskBits (getClr s n).tun.mask).head?).getD 0

/-- The class under which a request is served, and the count of R191. -/
def fixClass (s : State) (n c : Nat) : State × Nat :=
  if (getClr s n).tun.mask.getLsbD c then (s, c)
  else (updClr s n fun k => { k with classFixups := k.classFixups + 1 }, lowestClass s n)

/-- FABRIC_INBOUND_REQUEST (R110, R361): refused with status 2, or served as the local context's. A request
that finds no entry is not yet accepted: fi_ready is 0. -/
def fabricInbound (s : State) (r : FabricReq) : State :=
  let plot := r.addr / 2 ^ 28
  let named := s.xlt.bindings.find? fun kv => kv.2.valid && kv.2.srcChip == r.chip && kv.2.srcCtx == r.ctx
  let refuse := fun (b : Option Binding) (why : Nat) =>
    let s := emit s (.fabricResp r.tag 2 [])
    let x := newRec s qsXltGateRefused 2 5 0 r.addr why 0
    match b with
    | none => raise s x
    | some b => match ctxOwner s b.ctx with
      | some n => refusalRec s 5 0 r.addr why n b.ctx r.gen 0 none
      | none => raise s x
  match named with
  | none => refuse none 2
  | some (_, b) =>
    if b.srcGen != r.gen || bindingStale s b then refuse (some b) 1
    else if !(inRange b.plot b.count plot && (!r.write || b.write) && gate s r.write r.addr b.ctx b.gen) then refuse (some b) 2
    else match ctxOwner s b.ctx with
      | none => refuse none 2
      | some n =>
        let f := fixClass s n (r.cls % 8)
        match enterStore f.1 { src := .fabric r.chip r.tag, write := r.write, addr := r.addr / 256 * 256
                               data := if r.write then (r.data ++ zeroBytes 256).take 256 else [], be := r.be, clearing := some n
                               ctx := b.ctx, gen := b.gen, cls := f.2, entered := 0, tick := 0, rank := 192, order := 0, home := 0, gidx := 0
                               reserved := false, again := false } with
        | none => s
        | some s => s

/-- FABRIC_INBOUND_REQUEST (R361). -/
def execFabricInboundRequest (r : FabricReq) (s : State) : Result := .next (heard s fun s => fabricInbound s r)

/-! Core memory requests (R102, R328, R335, R354, R357, R358). -/

/-- A response on cp_mr; the request is no longer outstanding. -/
def coreRespond (s : State) (c tag status : Nat) (data : List Byte) : State :=
  if coreFailed s c then updCore s c fun k => { k with reqs := k.reqs.filter fun r => r.1 != tag }
  else
    let s := emit s (.coreResp c tag status data)
    updCore s c fun k => { k with reqs := k.reqs.filter fun r => r.1 != tag }

/-- The issue fields of R316 for a pass of job `x` on core `c`: bytes 0x40 to 0x7F. -/
def issueFields (s : State) (x : Job) (c pos : Nat) : List Byte :=
  let t := getTask s x.task
  let v := match getEnv s x.task x.env with
    | some v => envFlag v.bytes 4
    | none => false
  let base := match modelOf s x.n x.model with
    | some m => blockAddr s x.n m.2.first
    | none => 0
  leBytes 1 ((t.map (·.cls)).getD 0) ++ leBytes 1 (bit (getClr s x.n).cfg.fixed + 2 * bit v) ++ leBytes 2 (x.first + pos) ++
    leBytes 2 x.ctx ++ leBytes 1 (x.held.idxOf c) ++ leBytes 1 x.held.length ++ leBytes 8 base ++
    leBytes 8 ((t.map fun (k : Task) => k.seed).getD 0).toNat ++ leBytes 8 ((t.map (·.pin)).getD 0) ++ zeroBytes 32

/-- The pass issued to core `c` and not ended whose header stands at local plot address `a` (R328). -/
def headerPass (s : State) (c a : Nat) : Option (Job × Nat) :=
  match (getCore s c).job.bind (getJob s) with
  | none => none
  | some x =>
    (((getCore s c).passes.reverse.filter fun r => r.ended.isNone).find? fun r => match passOf s x r.pos with
      | some p => passAddr s x p == a
      | none => false).map fun r => (x, r.pos)

/-- The data of a core's read, with the issue fields in a pass header (R328). -/
def coreData (s : State) (c a : Nat) (bs : List Byte) : List Byte :=
  match headerPass s c a with
  | none => bs
  | some (x, pos) => bs.take 0x40 ++ issueFields s x c pos ++ bs.drop 0x80

/-- A core's write is folded into its clearing's lock-step digest, by the task of its job (R498). -/
def foldCore (s : State) (x : Job) (a : Nat) (r : CoreReq) : State :=
  match getTask s x.task with
  | some k => foldGranule s x.n k.pin a r.data r.be
  | none => s

/-- A core's request with its job's context: to a store, to the fabric port, or refused. -/
def coreRequest (s : State) (c : Nat) (x : Job) (r : CoreReq) : State :=
  let refuse := fun (why : Nat) => emit (refusalRec s 1 c r.addr why x.n x.ctx x.gen 0 none) (.coreResp c r.tag 2 (zeroBytes 256))
  let hold := fun (s : State) => updCore s c fun k => { k with reqs := k.reqs ++ [(r.tag, r.write)] }
  let own := (getTask s x.task).map (·.cls)
  match placeOf s r.addr with
  | .host _ | .bad =>
    emit (raise s { newRec s qsXltGateRefused 2 1 c r.addr 2 0 with clearing := some x.n, ctx := some x.ctx, generation := x.gen })
      (.coreResp c r.tag 2 (zeroBytes 256))
  | .plot a =>
    if !gate s r.write a x.ctx x.gen then refuse (if genOk s x.ctx x.gen then 2 else 1)
    else
      let f := if !r.write && (headerPass s c (a / 256 * 256)).isSome then (s, own.getD 0)
        else if some (r.cls % 8) = own then (s, r.cls % 8) else fixClass s x.n (r.cls % 8)
      match enterStore f.1 { src := .core c r.tag, write := r.write, addr := a / 256 * 256
                             data := if r.write then (r.data ++ zeroBytes 256).take 256 else [], be := r.be, clearing := some x.n
                             ctx := x.ctx, gen := x.gen, cls := f.2, entered := 0, tick := 0, rank := c, order := 0, home := 0, gidx := 0
                             reserved := false, again := false } with
      | none => s
      | some s => hold (if r.write then foldCore s x (deviceAddr s (a / 256 * 256)) r else s)
  | .remote chip a =>
    if !genOk s x.ctx x.gen then refuse 1
    else match freeFabTag s with
      | none => s
      | some t =>
        let s := setFabOut (hold s) t (some ⟨some (c, r.tag), none, x.ctx, x.gen, x.n, r.write, r.addr⟩)
        let s := if r.write then countRemote (foldCore s x (r.addr / 256 * 256) r) x.ctx (maskBits r.be).length else s
        emit s (.fabricReq chip a r.write x.ctx x.gen (r.cls % 8) t (if r.write then r.data else []) r.be)

/-- CORE_MEMORY_REQUEST (R354): a core that no job holds is refused (R335); a failed one is not heard
(R469). -/
def coreMemory (s : State) (c : Nat) (r : CoreReq) : State :=
  if coreFailed s c || 128 ≤ c then s
  else
    let s := updCore s c fun k => { k with drained := r.drained }
    match (getCore s c).job.bind (getJob s) with
    | none => emit s (.coreResp c r.tag 2 (zeroBytes 256))
    | some x => if x.held.contains c then coreRequest s c x r else emit s (.coreResp c r.tag 2 (zeroBytes 256))

/-- CORE_MEMORY_REQUEST (R354). -/
def execCoreMemoryRequest (core : Nat) (r : CoreReq) (s : State) : Result := .next (heard s fun s => coreMemory s core r)

/-- FABRIC_RESPONSE (R359): fr_ of `tag`; a quarantined tag is freed (R459). -/
def fabricResponse (s : State) (tag status : Nat) (data : List Byte) : State :=
  match tabGet none s.xlt.fabOut tag with
  | none => s
  | some o =>
    let s := setFabOut s tag none
    match o.core, o.acc with
    | some (c, ct), _ =>
      let s := if o.write then s else countRemote s o.ctx 256
      if !genOk s o.ctx o.gen then updCore s c fun k => { k with reqs := k.reqs.filter fun r => r.1 != ct }
      else if 2 ≤ status then coreRespond (refusalRec s 1 c o.addr 2 o.n o.ctx o.gen 0 none) c ct 2 (zeroBytes 256)
      else coreRespond s c ct status (if o.write then [] else data)
    | none, some id =>
      let s := match getAcc s id with
        | some a =>
          if status < 2 then s
          else (match a.client with
            | .env t e => (match getEnv s t e, getTask s t with
                | some v, some k => refusalRec s 2 (v.engine.getD 0) a.addr 2 o.n o.ctx o.gen (envTag v.bytes) (some k.queue)
                | _, _ => s)
            | _ => s)
        | none => s
      accFabric s id status data
    | none, none => s

/-- FABRIC_RESPONSE (R359). -/
def execFabricResponse (tag status : Nat) (data : List Byte) (s : State) : Result := .next (heard s fun s => fabricResponse s tag status data)

end Sys2Proof.Machine
end

