-- ==== Sys2Proof/Machine/Keys.lean ====
section
/-! DEFINITION. Key slots and their rotation (R391 to R394, R400), sealed weight chunks (R395 to R398),
messages to the RoT (R401 to R407), and the commands of KEY_CMD, KEY_XCMD and KEY_WXCMD (R408, R413 to
R420). -/

namespace Sys2Proof.Machine

/-! Slots. -/

/-- The device's number of slots. -/
def allSlots : List Nat := List.range 1024

/-- kind of attributes (R391). -/
def keyKind (a : BitVec 32) : Nat := a.toNat % 16

/-- ctx_bound. -/
def keyBound (a : BitVec 32) : Bool := a.getLsbD 8

/-- ctx. -/
def keyCtx (a : BitVec 32) : Nat := a.toNat / 2 ^ 16 % 4096

/-- The reserved bits of R391. -/
def keyReserved : BitVec 32 := 0xF000FEE0

/-- The integrity tag of R391. -/
def slotTag (s : State) (k g : Nat) (attr : BitVec 32) (key : List Byte) : List Byte :=
  (digestBytes (Config.hmac384 (lcKey (s.boot.root.getD []) s.boot.lc "QPF3-TAG")
    (leBytes 2 k ++ leBytes 2 g ++ leBytes 4 attr.toNat ++ key))).take 8

/-- The next generation: after 65,535 comes 1 (R27, R392). -/
def nextGen (g : Nat) : Nat := g % 65535 + 1

/-- A slot holds a new key (R391, R392). -/
def writeSlot (s : State) (k : Nat) (key : List Byte) (attr : BitVec 32) : State :=
  let g := nextGen (getSlot s k).gen
  updSlot s k fun _ => { key := key, attr := attr, gen := g, tag := slotTag s k g attr key, unusable := false }

/-- ERASE and zeroisation: key, attributes and tag zero, the generation one on (R390, R392). -/
def clearSlot (s : State) (k : Nat) : State := updSlot s k fun x => { keySlot0 with gen := nextGen x.gen }

/-- Zeroise slots (R390, R394). -/
def zeroiseSlots (s : State) (ks : List Nat) : State := forEach ks s clearSlot

/-- The attributes of a write of slot `k` meet R391, and kind is not 0. -/
def keyAttrOk (s : State) (k : Nat) (a : BitVec 32) : Bool :=
  keyKind a == 1 && !a.getLsbD 4 && a &&& keyReserved == 0 &&
    (!keyBound a || (match keyOwner s k with
      | some n => (let g := (getClr s n).cfg; inRange g.ctxBase g.ctxCount (keyCtx a))
      | none => false))

/-- UNSEAL's slot. -/
def unsealSlot (bs : List Byte) : Nat := leAt bs 0x34 2 % 1024

/-- Generations of slot `k` that running envelopes hold (R400). -/
def heldGens (s : State) (k : Nat) : List Nat :=
  (allEnvs s).filterMap fun x => match x.2.2.2.key with
    | some (_, g) => if x.2.2.2.st != .done && unsealSlot x.2.2.2.bytes = k then some g else none
    | none => none

/-- References to the slot's current generation. -/
def slotRefs (s : State) (k : Nat) : Nat := ((heldGens s k).filter fun g => g == (getSlot s k).gen).length

/-- old_held of R400. -/
def oldHeld (s : State) (k : Nat) : Bool := (heldGens s k).any fun g => g != (getSlot s k).gen

/-- The checks of R393 on a write or erase of slot `k`; `attr` is none for ERASE. -/
def slotChecks (s : State) (k : Nat) (attr : Option (BitVec 32)) : List (Bool × Code) :=
  [(!s.boot.rootAbsent, qsKeyRootAbsent),
   (match attr with
     | some a => keyAttrOk s k a
     | none => true, qsKeyAttr),
   (!oldHeld s k, qsKeyRotateBusy)]

/-! UNSEAL (R395 to R398). -/

/-- src, dst, chunks, gen_expect and first_index. -/
def unsealSrc (bs : List Byte) : Nat := leAt bs 0x20 8
/-- dst. -/
def unsealDst (bs : List Byte) : Nat := leAt bs 0x28 8
/-- chunks. -/
def unsealChunks (bs : List Byte) : Nat := leAt bs 0x30 4
/-- gen_expect. -/
def unsealGen (bs : List Byte) : Nat := leAt bs 0x36 2
/-- first_index. -/
def unsealFirst (bs : List Byte) : Nat := leAt bs 0x38 4

/-- The stored tag of a slot that holds a key is wrong. -/
def tagBad (s : State) (k : Nat) : Bool :=
  let x := getSlot s k
  keyKind x.attr != 0 && (x.unusable || x.tag != slotTag s k x.gen x.attr x.key)

/-- Steps 1 to 4 of R397. -/
def unsealKeyChecks (s : State) (k : Task) (bs : List Byte) : List (Bool × Code) :=
  let i := unsealSlot bs
  let x := getSlot s i
  [(leAt bs 0x34 2 < 1024 && zeroAt bs 0x3C 4 && unsealChunks bs ≤ 65535, qsKeyOperand), (keyOwner s i == some k.n, qsNotOwner),
   (!tagBad s i, qsKeyTag), (keyKind x.attr != 0, qsKeyEmpty), (keyKind x.attr == 1, qsKeyAttr),
   (!keyBound x.attr || keyCtx x.attr == k.ctx, qsKeyAttr), (unsealGen bs == 0 || unsealGen bs == x.gen, qsKeyGen)]

/-- Steps 6 to 9 of R397, and R268. -/
def unsealExtents (s : State) (k : Task) (bs : List Byte) : List (Bool × Code) :=
  let n := unsealChunks bs
  [(hostOrLocal s (unsealSrc bs) && isLocal s (unsealDst bs), qsXltAddrForm), (pasidIfHost s k.ctx (unsealSrc bs), qsXltNoPasid),
   (ownIfLocal s k.n (unsealSrc bs) (65600 * n) && ownIfLocal s k.n (unsealDst bs) (65536 * n), qsNotOwner),
   (!isLocal s (unsealSrc bs) || apart (unsealSrc bs, 65600 * n) (unsealDst bs, 65536 * n), qsXltOverlap),
   (enginesIn s k.n != [], qsGpeEngineNone)]

/-- A slot found unusable is recorded once (R392, R447). -/
def noteTag (s : State) (k : Task) (bs : List Byte) : State :=
  let i := unsealSlot bs
  if tagBad s i && !(getSlot s i).unusable then
    raise (updSlot s i fun x => { x with unusable := true })
      { newRec s qsKeyTag 1 8 i 0 (getSlot s i).gen 0 with
        clearing := some k.n, ctx := some k.ctx, generation := k.gen, tag := envTag bs, queue := some k.queue }
  else s

/-- The key slots as an UNSEAL that starts sees slot `i`: a WRITE, an ERASE or a release of this cclk, each of which advances the
slot's generation, is ordered after the start (R392, R397). -/
def slotsAtStart (s : State) (i : Nat) : State :=
  let was := tabGet keySlot0 s.cc.key.slots i
  if was.gen = (getSlot s i).gen then s else updSlot s i fun _ => was

/-- The start of an UNSEAL (R397): the engine's key copy holds the key bytes and the slot's generation. -/
def unsealStart (t e : Nat) (k : Task) (v : EnvRun) (s : State) : State :=
  let w := slotsAtStart s (unsealSlot v.bytes)
  match firstBad (unsealKeyChecks w k v.bytes) with
  | some c => endEnv (if c = qsKeyTag then noteTag s k v.bytes else s) t e c
  | none =>
    if unsealChunks v.bytes = 0 then endEnv s t e qsOk
    else match firstBad (unsealExtents s k v.bytes) with
      | some c => endEnv s t e c
      | none =>
        let x := getSlot w (unsealSlot v.bytes)
        assignEnv (updEnv s t e fun v => { v with key := some (x.key, x.gen) }) t e k.n

/-- UNSEAL (R397). -/
def execUnsealData (task env : Nat) (s : State) : Result := .next (startEnv s task env 0x50 (unsealStart task env))

/-- plain_len of a chunk header. -/
def chunkLen (h : List Byte) : Nat := leAt h 0x08 4

/-- A chunk header in its place (R396, R398): `k` of `n` records. -/
def chunkOk (bs h : List Byte) (k : Nat) : Bool :=
  leAt h 0 4 == 0x4B435351 && leAt h 4 2 == 1 && zeroAt h 6 2 && zeroAt h 0x1C 4 && zeroAt h 0x38 8 &&
    leAt h 0x0C 4 == unsealFirst bs + k &&
    (if k + 1 = unsealChunks bs then 1 ≤ chunkLen h && chunkLen h ≤ 65536 else chunkLen h == 65536)

/-- The envelope fails at its present record. -/
def unsealFail (s : State) (t e n : Nat) (c : Code) : State :=
  let s := if c = qsKeyChunkAuth then updXch s n fun x => { x with authFail := x.authFail + 1 } else s
  failEnv s t e c 0xFFFFFFFF 0

/-- The next phase of an UNSEAL, record by record (R398): 0 the header is asked for, 1 it has come, 2 the
ciphertext has come, 3 the plaintext is written. -/
def unsealNext (s : State) (t e : Nat) (k : Task) (v : EnvRun) : State :=
  let rec' := unsealSrc v.bytes + 65600 * v.step
  let poison := fun (s : State) => unsealFail s t e k.n (if isLocal s (unsealSrc v.bytes) then qsKeySrcPoisoned else qsXltSrcPoisoned)
  match v.phase with
  | 0 =>
    if v.step < unsealChunks v.bytes then readExtentFor (enterPhase s t e 1) t e 0 rec' 64 else endEnv s t e qsOk
  | 1 =>
    let h := gotBytes v.got
    if gotPoison v.got then poison s
    else if !chunkOk v.bytes h v.step then unsealFail s t e k.n qsKeyChunkFormat
    else readExtentFor (updEnv (enterPhase s t e 2) t e fun v => { v with block := h }) t e 0 (rec' + 64) (chunkLen h)
  | 2 =>
    let h := v.block
    if gotPoison v.got then poison s
    else
      match Config.gcmOpen ((v.key.map (·.1)).getD []) (sliceAt h 0x10 12) (h.take 0x20 ++ sliceAt h 0x30 16) (gotBytes v.got)
          (sliceAt h 0x20 16) with
      | none => unsealFail s t e k.n qsKeyChunkAuth
      | some pt => writeExtentFor (enterPhase s t e 3) t e 0 (unsealDst v.bytes + 65536 * v.step) (pt.take (chunkLen h))
  | _ =>
    let s := updXch s k.n fun x => { x with chunks := x.chunks + 1 }
    updEnv (enterPhase s t e 0) t e fun v => { v with step := v.step + 1, block := [] }

/-- A record whose last write is answered as its UNSEAL drains is decrypted and written all the same (R398, R420). -/
def recordLanded (s : State) (t e : Nat) (k : Task) (v : EnvRun) : State :=
  if v.st == .draining && !envBusy s t e && envOpcode v.bytes == 0x50 && v.phase == 3 &&
      v.got.length == (pieces (unsealDst v.bytes + 65536 * v.step) (chunkLen v.block)).length then
    enterPhase (updXch s k.n fun x => { x with chunks := x.chunks + 1 }) t e 0
  else s

/-! Messages to the RoT (R401, R402, R407). -/

/-- The origin that stands for 0xFFFF. -/
def rotSelf : Nat := 64

/-- Messages of an origin. -/
def getRot (s : State) (o : Nat) : RotPort := tabGet rotPort0 s.key.rot o

/-- `s` with `f` applied to the messages of origin `o`. -/
def updRot (s : State) (o : Nat) (f : RotPort → RotPort) : State := updKey s fun u => { u with rot := tabUpd rotPort0 u.rot o f }

/-- The message type of a use (R402). -/
def rotType : RotUse → Nat
  | .spdm => 1
  | .unwrap _ => 2
  | .lcAdvance _ => 3
  | .measure _ => 4
  | .akCert => 5
  | .random _ _ => 6

/-- A message leaves for the RoT. -/
def rotEmit (s : State) (o : Nat) (r : RotReq) : State :=
  let q := (getRot s o).seq
  let s := updRot s o fun p => { p with out := some (q, r), seq := (p.seq + 1) % 256 }
  emit s (.rotMsg (rotType r.use) q (if o = rotSelf then 0xFFFF else o) r.payload)

/-- A message is sent, or waits behind the one outstanding for its origin (R401, R407). -/
def rotSend (s : State) (o : Nat) (use : RotUse) (payload : List Byte) : State :=
  if (getRot s o).out.isSome then updRot s o fun p => { p with queue := p.queue ++ [⟨use, payload⟩] }
  else rotEmit s o ⟨use, payload⟩

/-- The message outstanding for an origin is over: the next one leaves. -/
def rotNext (s : State) (o : Nat) : State :=
  let p := getRot s o
  let s := updRot s o fun p => { p with out := none, queue := p.queue.drop 1 }
  match p.queue with
  | [] => s
  | r :: _ => rotEmit s o r

/-- Draw random bytes (R402). -/
def rotRandom (s : State) (use : RandomUse) (count : Nat) : State := rotSend s rotSelf (.random use count) (leBytes 2 count)

/-! Measurements and the attestation certificate (R388, R405). -/

/-- SVN of the image in force. -/
def svnInForce (s : State) : Nat := match s.img.force with | none => 0 | some im => im.svn

/-- The value of a measurement (R405). -/
def measureValue (s : State) (i : Nat) : List Byte :=
  match i with
  | 1 => digestBytes Config.romFirmwareDigest
  | 2 => (match s.img.force with
      | none => zeroBytes 48
      | some im => digestBytes im.digest)
  | 3 => leBytes 1 s.boot.lc ++ leBytes 1 (bit s.key.tainted) ++ zeroBytes 2 ++ leBytes 4 (svnInForce s)
  | 4 => digestBytes (Config.sha384 (sliceAt (settingsBytes [] s.boot.settings) 0x20 0xC0))
  | _ =>
    let n := i - 0x10
    if defined s n then digestBytes (Config.sha384 (getClr s n).cfg.bytes) else zeroBytes 48

/-- Report measurement `i` (R405). -/
def measure (s : State) (i : Nat) : State := rotSend s rotSelf (.measure i) (leBytes 1 i ++ zeroBytes 7 ++ measureValue s i)

/-- At the first tick: the certificate of the attestation key, and every measurement (R388, R405). -/
def firstTickTrust (s : State) : State :=
  let s := match s.boot.root with
    | some r => rotSend s rotSelf .akCert (Config.ecdsaPublic (attestKey r s.boot.lc))
    | none => s
  forEach ([1, 2, 3, 4] ++ allClearings.map (· + 0x10)) s measure

/-! KEY_CMD (R413 to R418). -/

/-- The bytes of an exchange buffer. -/
def xchBytes (s : State) (x len : Nat) : List Byte :=
  ((List.range ((len + 7) / 8)).flatMap fun k => leBytes 8 (tabGet 0 (getXch s x).buf k).toNat).take len

/-- Bytes placed in an exchange buffer from byte 0; the rest of the last word keeps its bytes. -/
def xchPut (s : State) (x : Nat) (bs : List Byte) : State :=
  let old := xchBytes s x ((bs.length + 7) / 8 * 8)
  let new := bs ++ old.drop bs.length
  updXch s x fun r => { r with buf := (List.range ((bs.length + 7) / 8)).foldl (fun b k => tabSet 0 b k (word (leAt new (8 * k) 8))) r.buf }

/-- KEY_CMD ends with a code (R419). -/
def keyEnd (s : State) (c : Code) : State := updKey s fun u => { u with code := c, busy := false, done := true }

/-- KEY_CMD goes on: busy until its answer. -/
def keyBusy (s : State) : State := updKey s fun u => { u with code := qsOk, busy := true, done := false }

/-- Every clearing is Closed or Absent (R389, R417). -/
def clearingsShut (s : State) : Bool := (definedClearings s).all fun n => (getClr s n).st == .closed

/-- key_id, zero while there is no root. -/
def keyIdNow (s : State) : List Byte := match s.boot.root with | some r => keyId r s.boot.lc | none => zeroBytes 48

/-- A Lievexel authorisation is valid (R414): purpose, target, and the nonce of its purpose. -/
def authValid (s : State) (purpose target : Nat) (nonce : Option (List Byte)) (a : List Byte) : Bool :=
  match nonce with
  | none => false
  | some n =>
    Config.sha384 (sliceAt a 0 96) == Config.romAuthDigest &&
      Config.ecdsaVerify (sliceAt a 0 48) (sliceAt a 48 48)
        (Config.sha384 (asciiBytes "QPF3AUTH" ++ leBytes 1 purpose ++ leBytes 1 target ++ keyIdNow s ++ n))
        (sliceAt a 96 48) (sliceAt a 144 48)

/-- The verifier of a passphrase (R415): the key of the Deployed state, in every state. -/
def passVerifier (s : State) (salt pass : List Byte) : List Byte :=
  digestBytes (Config.hmac384 (lcKey (s.boot.root.getD []) 2 "QPF3-PASS") (salt ++ pass))

/-- An unlock attempt failed (R416). -/
def unlockFailed (s : State) : State :=
  updKey s fun u => { u with failures := min 8 (u.failures + 1), lockedOut := u.lockedOut || 7 ≤ u.failures }

/-- An unlock succeeded (R417). -/
def unlocked (s : State) : State :=
  let s := updKey (zeroiseSlots s allSlots) fun u => { u with debugOpen := true, tainted := true }
  raise (measure s 3) (newRec s qsErrRotEvent 1 11 0 3 0 0)

/-- The transition needs a Lievexel authorisation (R389). -/
def lcNeedsAuth (a b : Nat) : Bool := (a == 2 && b == 3) || (a == 3 && b == 1)

/-- A transition of R389. -/
def lcLegal (a b : Nat) : Bool := (a == 0 && b == 1) || (a == 1 && b == 2) || lcNeedsAuth a b || (a ≤ 3 && b == 4)

/-- What KEY_CMD asks for, its fields having passed: the status of the write, and the state it leaves. -/
def keyOperation (s : State) (op slot arg : Nat) : Code × State :=
  let b := s.boot
  let auth := xchBytes s rotSelf 192
  let run := fun (cs : List (Bool × Code)) (f : Unit → State) => match firstBad cs with
    | some c => (c, keyEnd s c)
    | none => (qsOk, f ())
  match op with
  | 1 =>
    let r := run (slotChecks s slot (some s.key.stageAttr)) fun _ =>
      keyEnd (writeSlot s slot (s.key.stage.flatMap fun w => leBytes 8 w.toNat) s.key.stageAttr) qsOk
    (r.1, updKey r.2 fun u => { u with wipe := true })
  | 2 => run (slotChecks s slot none) fun _ => keyEnd (clearSlot s slot) qsOk
  | 3 => run [(b.lc == 0, qsKeyLc), (b.flashPresent, qsImgFlash)] fun _ => rotRandom (keyBusy s) .enrol 64
  | 4 => run [(b.lc == 1 || b.lc == 2, qsKeyLc)] fun _ => rotRandom (keyBusy s) (.setpass (xchBytes s rotSelf arg)) 16
  | 5 =>
    let nonce := s.key.nonceLc
    let r := run [(!b.rootAbsent, qsKeyRootAbsent), (lcLegal b.lc arg, qsKeyLc), (clearingsShut s, qsKeyClearingsOpen),
        (!lcNeedsAuth b.lc arg || authValid s 2 arg nonce auth, qsKeyAuth)] fun _ =>
      rotSend (keyBusy s) rotSelf (.lcAdvance arg) (leBytes 1 arg ++ zeroBytes 3 ++ if lcNeedsAuth b.lc arg then auth else [])
    (r.1, updKey r.2 fun u => { u with nonceLc := none })
  | 6 => (qsOk, rotRandom (keyBusy s) (.challenge arg) 32)
  | 7 =>
    let r := run [(!s.key.lockedOut, qsKeyLocked), (clearingsShut s, qsKeyClearingsOpen)] fun _ =>
      if authValid s 1 0 s.key.nonceDebug auth then keyEnd (unlocked s) qsOk else keyEnd (unlockFailed s) qsKeyDebugAuth
    (if r.1 = qsOk then r.2.key.code else r.1, updKey r.2 fun u => { u with nonceDebug := none })
  | 8 =>
    let r := run [(!s.key.lockedOut, qsKeyLocked), (b.lc != 3, qsKeyLc), (clearingsShut s, qsKeyClearingsOpen)] fun _ =>
      match b.pass with
      | some (salt, ver) =>
        if passVerifier s salt (xchBytes s rotSelf arg) == ver then keyEnd (unlocked s) qsOk else keyEnd (unlockFailed s) qsKeyDebugAuth
      | none => keyEnd (unlockFailed s) qsKeyDebugAuth
    (if r.1 = qsOk then r.2.key.code else r.1, r.2)
  | _ => (qsOk, keyEnd (updKey s fun u => { u with debugOpen := false }) qsOk)

/-- arg is legal for an operation of KEY_CMD (R418). -/
def keyArgOk (op arg : Nat) : Bool :=
  match op with
  | 5 => 1 ≤ arg && arg ≤ 4
  | 6 => arg == 1 || arg == 2
  | 4 | 8 => 16 ≤ arg && arg ≤ 64
  | _ => arg == 0

/-- KEY_CMD (R418). -/
def keyCommand (q : Requester) (w : Word) (s : State) : State :=
  globalCmd q s fun s =>
    let op := field w 0 4
    let slot := field w 8 10
    let arg := field w 24 8
    match firstBad [(noBits w (bitsFrom 4 7 ||| bitsFrom 18 23 ||| bitsFrom 32 63), qsReservedNonzero),
        (1 ≤ op && op ≤ 9 && (slot == 0 || op ≤ 2) && keyArgOk op arg, qsIllegalValue),
        (!s.key.busy && !(getXch s rotSelf).busy, qsKeyXbusy)] with
    | some c => (c, updKey s fun u => { u with code := c, done := true, wipe := u.wipe || op == 1 })
    | none => keyOperation s op slot arg

/-- WRITE (R393). -/
def execKeyWrite (q : Requester) (w : Word) (s : State) : Result := .next (keyCommand q (putField w 0 4 1) s)

/-- ERASE (R393). -/
def execKeyErase (q : Requester) (w : Word) (s : State) : Result := .next (keyCommand q (putField w 0 4 2) s)

/-- ENROL (R386). -/
def execKeyEnrol (q : Requester) (w : Word) (s : State) : Result := .next (keyCommand q (putField w 0 4 3) s)

/-- SETPASS (R415). -/
def execKeySetpass (q : Requester) (w : Word) (s : State) : Result := .next (keyCommand q (putField w 0 4 4) s)

/-- LC_ADVANCE (R389). -/
def execKeyLcAdvance (q : Requester) (w : Word) (s : State) : Result := .next (keyCommand q (putField w 0 4 5) s)

/-- CHALLENGE (R413). -/
def execKeyChallenge (q : Requester) (w : Word) (s : State) : Result := .next (keyCommand q (putField w 0 4 6) s)

/-- DBG_AUTH (R414, R416, R417). -/
def execKeyDbgAuth (q : Requester) (w : Word) (s : State) : Result := .next (keyCommand q (putField w 0 4 7) s)

/-- DBG_PASS (R415 to R417). -/
def execKeyDbgPass (q : Requester) (w : Word) (s : State) : Result := .next (keyCommand q (putField w 0 4 8) s)

/-- DBG_CLOSE (R417). -/
def execKeyDbgClose (q : Requester) (w : Word) (s : State) : Result := .next (keyCommand q (putField w 0 4 9) s)

/-! KEY_XCMD and KEY_WXCMD (R406, R408, R419, R420). -/

/-- An exchange begins. -/
def xchBegin (s : State) (x : Nat) : State := updXch s x fun r => { r with code := qsOk, rspLen := 0, busy := true, done := false }

/-- What a KEY_XCMD or KEY_WXCMD that finds its exchange not busy must meet (R404, R407, R419, R420). -/
def exchangeChecks (s : State) (n : Option Nat) (w : Word) : List (Bool × Code) :=
  let op := field w 0 4
  let len := field w 16 13
  let slot := field w 32 10
  [(noBits w (bitsFrom 4 15 ||| bitsFrom 29 31 ||| bitsFrom 42 63), qsReservedNonzero),
   ((op == 1 || (op == 2 && n.isSome)) && (op == 2 || slot == 0), qsIllegalValue), (n.all (defined s), qsClrAbsent),
   (1 ≤ len && len ≤ 4096, qsKeyOperand), (!(n.isNone && s.key.busy), qsKeyXbusy), (!s.boot.rootAbsent, qsKeyRootAbsent),
   (op == 1 || keyOwner s slot == n, qsNotOwner), (op == 1 || len == 272, qsKeyOperand), (op == 1 || !oldHeld s slot, qsKeyRotateBusy)]

/-- The exchange of registers `x` begins: its message leaves for the RoT (R401, R402). -/
def exchangeSend (s : State) (x : Nat) (w : Word) : State :=
  let bs := xchBytes s x (field w 16 13)
  let slot := field w 32 10
  if field w 0 4 = 1 then rotSend (xchBegin s x) x .spdm bs else rotSend (xchBegin s x) x (.unwrap slot) (leBytes 2 slot ++ bs)

/-- The end of a write of the command register of exchange `x`: a refused one ends at once (R533). -/
def exchangeEnd (x : Nat) (r : Checked) : Checked :=
  (r.1, if r.1 = qsOk then r.2 else updXch r.2 x fun y => { y with code := r.1, done := true })

/-- KEY_XCMD and KEY_WXCMD: while the exchange is busy the write is ignored (R420). -/
def exchangeCommand (q : Requester) (n : Option Nat) (w : Word) (s : State) : State :=
  anyWindowCmd q n s fun s =>
    let x := n.getD rotSelf
    if (getXch s x).busy then (qsKeyXbusy, s) else exchangeEnd x (checked (exchangeChecks s n w) s fun _ => exchangeSend s x w)

/-- SPDM (R406). -/
def execKeySpdm (q : Requester) (n : Option Nat) (w : Word) (s : State) : Result := .next (exchangeCommand q n (putField w 0 4 1) s)

/-- UNWRAP (R408). -/
def execKeyUnwrap (q : Requester) (n : Nat) (w : Word) (s : State) : Result := .next (exchangeCommand q (some n) (putField w 0 4 2) s)

/-! Key releases and rot_lc (R387, R403). -/

/-- An UNWRAP for slot `k` is outstanding (R403). -/
def unwrapOut (s : State) (k : Nat) : Bool :=
  s.key.rot.any fun kv => match kv.2.out with
    | some (_, r) => r.use == .unwrap k
    | none => false

/-- ROT_KEY_RELEASE (R403): a transfer on rot_k. -/
def keyRelease (s : State) (k : Nat) (key : List Byte) (attr : BitVec 32) : State :=
  if !unwrapOut s k then emit s (.rotKeyDone qsKeyUnsolicited)
  else match firstBad ((slotChecks s k (some attr)).drop 1) with
    | some c => emit s (.rotKeyDone c)
    | none => emit (writeSlot s k ((key ++ zeroBytes 32).take 32) (attr ||| 0x10)) (.rotKeyDone qsOk)

/-- ROT_KEY_RELEASE (R403). -/
def execRotKeyRelease (slot : Nat) (key : List Byte) (attr : BitVec 32) (s : State) : Result := .next (heard s fun s => keyRelease s slot key attr)

/-- ROT_LC_CHANGE (R387): a change of rot_lc at any time but phase 2 and a transition is ignored and noted. -/
def lcChange (s : State) (lc : Nat) : State :=
  if s.boot.phase == .reset || s.boot.phase == .root then s
  else raise s (newRec s qsErrRotEvent 1 11 0 2 lc 0)

/-- ROT_LC_CHANGE (R387). -/
def execRotLcChange (lc : BitVec 3) (s : State) : Result := .next (heard s fun s => lcChange s lc.toNat)

end Sys2Proof.Machine
end

