-- ==== Sys2Proof/Machine/Units.lean ====
section
/-! DEFINITION. Engines that fault, reset and fail (R268, R466 to R470), resets that hang (R467), and the
running of envelopes: what each does in a cclk, and how one that stops ends (R262, R264, R342). -/

namespace Sys2Proof.Machine

/-! Engines that leave service. -/

/-- The envelopes assigned to engine `g`. -/
def envsOn (s : State) (g : Nat) : List (Nat × Task × Nat × EnvRun) := (allEnvs s).filter fun x => x.2.2.2.engine == some g

/-- An envelope has issued no request (R268). -/
def notBegun (s : State) (t e : Nat) (v : EnvRun) : Bool :=
  v.st == .running && v.phase ≤ 1 && v.step == 0 && v.got.isEmpty && (accList s).all fun a => !accOfEnv t e a.2 || unissued a.2

/-- An envelope that has issued no request waits for an engine again (R268); a PUBLISH that has published has done so
(R295). -/
def takeBack (s : State) (t e : Nat) : State :=
  dropUnissued (updEnv s t e fun v =>
    { v with st := .unassigned, engine := none, phase := if publishLeaves v then v.phase else 0, out := false }) t e

/-- The envelopes of engine `g` as it leaves service or faults: those not begun wait again, those in progress end
with a code (R268, R466); a fenced task's stay as they are. -/
def leaveEngine (s : State) (g : Nat) (code : Code) : State :=
  forEach (envsOn s g) s fun s x =>
    if x.2.1.fenced then s
    else if notBegun s x.1 x.2.2.1 x.2.2.2 then takeBack s x.1 x.2.2.1
    else
      updEnv (failEnv s x.1 x.2.2.1 code 0xFFFFFFFF 0) x.1 x.2.2.1 fun v => { v with key := v.key.map fun k => ([], k.2) }

/-- Envelopes of clearing `n` that wait for an engine, when none is left in service (R268). -/
def noEngineLeft (s : State) (n : Nat) : State :=
  if enginesIn s n = [] then forEach (unassignedOf s n) s fun s x =>
    endEnv (leftRewrites s n x.2.2.2) x.1 x.2.2.1 qsGpeEngineNone else s

/-- The reset of engine `g` begins (R466): its key copies are cleared. -/
def engineReset (s : State) (g : Nat) : State :=
  if engineFailed s g || (getEngine s g).resetting then s
  else
    let s := updEngine s g fun x => { x with resetting := true, resetTicks := 0 }
    forEach (envsOn s g) s fun s x => updEnv s x.1 x.2.2.1 fun v => { v with key := v.key.map fun k => ([], k.2) }

/-- A record about engine `g`. -/
def engineRec (s : State) (code : Code) (sev g d0 : Nat) : ErrRec :=
  { newRec s code sev 2 g d0 0 0 with clearing := engineOwner s g }

/-- Engine `g` is fenced as failed for a reason of R468. -/
def failEngine (s : State) (g reason : Nat) : State :=
  if engineFailed s g || 64 ≤ g then s
  else
    let s := raise s (engineRec s qsErrEngineFailed 1 g reason)
    let s := { s with err := { s.err with failedEngines := setBit s.err.failedEngines g true } }
    let s := leaveEngine (updEngine s g fun x => { x with resetting := false, resetTicks := 0 }) g qsErrEngineFailed
    match engineOwner s g with
    | some n => issueManifest (degrade (noEngineLeft s n) n) n
    | none => s

/-- ENGINE_INTERNAL_FAULT (R466, R468). -/
def engineFault (s : State) (g kind : Nat) : State :=
  if engineFailed s g || 64 ≤ g then s
  else
    let s := raise s (engineRec s qsErrEngineFault 2 g kind)
    let s := updEngine s g fun x => { x with faults := faultAdd s x.faults }
    let s := if (getEngine s g).resetting then s else engineReset (leaveEngine s g qsErrEngineFault) g
    if 4 ≤ (getEngine s g).faults.length then failEngine s g 2 else s

/-- ENGINE_INTERNAL_FAULT (R466). -/
def execEngineInternalFault (e kind : Nat) (s : State) : Result := .next (engineFault s e kind)

/-- ENGINE_RESET_ACK (R466). -/
def execEngineResetAck (e : Nat) (s : State) : Result :=
  .next (if (getEngine s e).resetting && !engineFailed s e then updEngine s e fun x => { x with resetting := false, resetTicks := 0 }
    else s)

/-- RESET_HANG (R467): a unit's reset has not been acknowledged by the second boundary after it began. -/
def resetHang (s : State) (isCore : Bool) (u : Nat) : State :=
  if isCore then
    let k := getCore s u
    if k.rst && 2 ≤ k.resetTicks && !coreFailed s u then
      failCore (raise s (coreRec s qsErrResetHang 1 u (s.clk.postmark - k.resetTicks) 0 0)) u 1
    else s
  else
    let x := getEngine s u
    if x.resetting && 2 ≤ x.resetTicks && !engineFailed s u then
      failEngine (raise s (engineRec s qsErrResetHang 1 u (s.clk.postmark - x.resetTicks))) u 1
    else s

/-- RESET_HANG (R467). -/
def execResetHang (isCore : Bool) (unit : Nat) (s : State) : Result := .next (resetHang s isCore unit)

/-! The running of envelopes. -/

/-- The domain of an engine's group. -/
def groupDomain (g : Nat) : Nat := 64 + g / 8

/-- Engine `g` works: in service, not in reset, its group On. -/
def engineWorks (s : State) (g : Nat) : Bool :=
  !engineFailed s g && !(getEngine s g).resetting && domainOn s (groupDomain g)

/-- An envelope can take its next step: it runs, its engine works, nothing of it is outstanding unless it is a lookup,
whose stages overlap (R264), and its clearing is not frozen (R500). -/
def envReady (s : State) (t e : Nat) (k : Task) (v : EnvRun) : Bool :=
  v.st == .running && !k.fenced && (isLookup v.bytes || !envBusy s t e) && !lsFrozen s k.n &&
    (match v.engine with
      | some g => engineWorks s g
      | none => true)

/-- The next phase of a running envelope, by its opcode. -/
def envNext (s : State) (t e : Nat) (k : Task) (v : EnvRun) : State :=
  let op := envOpcode v.bytes
  if isLookup v.bytes then lookupNext s t e k v
  else if isTableEnv v.bytes then tblNext s t e k v
  else if op = 0x32 then loadNext s t e k v
  else if isTransfer op then xferNext s t e k v
  else if op = 0x50 then unsealNext s t e k v
  else s

/-- The envelopes in the order in which their engines work on them (R264). -/
def envsInOrder (s : State) : List (Nat × Task × Nat × EnvRun) := (allEnvs s).mergeSort fun a b => a.2.2.2.assigned ≤ b.2.2.2.assigned

/-- Every running envelope that can take its next step takes it. -/
def envsTurn (s : State) : State :=
  forEach (envsInOrder s) s fun s x => match getTask s x.1, getEnv s x.1 x.2.2.1 with
    | some k, some v => if envReady s x.1 x.2.2.1 k v then envNext s x.1 x.2.2.1 k v else s
    | _, _ => s

/-- An envelope that stopped ends, its requests answered (R262, R293, R295, R339). -/
def drainEnd (s : State) (t e : Nat) (k : Task) (v : EnvRun) : State :=
  let s := if updateWriting v then discardPending s (envDesc v.bytes) else s
  let s := leftRewrites s k.n v
  if envOpcode v.bytes = 0x32 && (v.phase = 1 || v.phase = 2) then loadEnd s t e k.n (loadId v.bytes) v.code v.expired
  else completeEnv s t e v.code false v.expired

/-- Every envelope that stopped and has nothing outstanding ends; one of a fenced task only once its engine's
reset is over (R461). -/
def drainsTurn (s : State) : State :=
  forEach (allEnvs s) s fun s x => match getTask s x.1, getEnv s x.1 x.2.2.1 with
    | some k, some v =>
      let held := match v.engine with
        | some g => k.fenced && (getEngine s g).resetting
        | none => false
      let s := if v.st == .draining then recordLanded (rowLanded (notePoison s x.1 x.2.2.1 v) x.1 x.2.2.1 k v) x.1 x.2.2.1 k v else s
      if v.st == .draining && !envBusy s x.1 x.2.2.1 && !held then drainEnd s x.1 x.2.2.1 k v else s
    | _, _ => s

/-- An engine that works in a cclk charges it to the context of its earliest envelope (R342, R439). -/
def engineCharge (s : State) : State :=
  forEach (List.range 64) s fun s g =>
    let xs := (envsOn s g).filter fun x => x.2.2.2.st == .running
    match xs.mergeSort fun a b => a.2.2.2.assigned ≤ b.2.2.2.assigned with
    | x :: _ =>
      if engineWorks s g then
        updDom (updAcct s x.2.1.ctx fun a => { a with engine := a.engine + 1 }) (groupDomain g) fun d => { d with act := d.act + 1 }
      else s
    | [] => s

end Sys2Proof.Machine
end

