-- ==== Sys2Proof/Machine/TrailBase.lean ====
section
/-! DEFINITION. The Trail link's own small operations: frames sent (R507, R513), the link's state (R519), its
training (R504), and time to 1/16 ns (R508). -/

namespace Sys2Proof.Machine

/-- Time since the reset in 1/16 ns: a ref_clk period is 10 ns. -/
def now16 (s : State) : Nat := s.clk.refTick * 160 + s.clk.cclk * 160 / cclkPerRef s

/-- 1/16 ns in a tick. -/
def tick16 (s : State) : Nat := tickUs s * 16000

/-- Lane `l`. -/
def getLane (s : State) (l : Nat) : TrlLane := tabGet trlLane0 s.trl.lanes l

/-- `s` with `f` applied to lane `l`. -/
def updLane (s : State) (l : Nat) (f : TrlLane → TrlLane) : State := updTrl s fun t => { t with lanes := tabUpd trlLane0 t.lanes l f }

/-- Working lanes of a direction: 0 transmit, 1 receive. -/
def lanesUp (s : State) (dir : Nat) : Nat := ((List.range 4).filter fun l => (getLane s (4 * dir + l)).st == 0).length

/-! Frames (R506, R507). -/

/-- One bit of CRC-16 with polynomial 0x1021. -/
def crcBit (c : BitVec 16) : BitVec 16 := if c.msb then (c <<< 1) ^^^ 0x1021 else c <<< 1

/-- CRC-16 of R506: initial value 0xFFFF, no reflection, no final exclusive-or. -/
def crc16 (bs : List Byte) : BitVec 16 :=
  bs.foldl (fun (c : BitVec 16) (b : Byte) => Nat.repeat crcBit 8 (c ^^^ BitVec.ofNat 16 (b.toNat * 256))) 0xFFFF

/-- The broadcast destination. -/
def broadcast : Nat := 0x8000

/-- The 32-byte payload of a frame that this chip sends: hops and age are 0 (R506, R508), unused bytes zero. -/
def framePayload (s : State) (type dst : Nat) (body : List Byte) : List Byte :=
  leBytes 1 type ++ leBytes 1 0 ++ leBytes 2 s.boot.chip ++ leBytes 2 dst ++ leBytes 2 0 ++ (body ++ zeroBytes 24).take 24

/-- A payload with its CRC, most significant byte first. -/
def withCrc (p : List Byte) : List Byte := p ++ [(crc16 p).extractLsb' 8 8, (crc16 p).extractLsb' 0 8]

/-- The 36 characters of a frame. -/
def frameChars (p : List Byte) : List TrlChar := .sof :: ((withCrc p).map .data ++ [.eof])

/-- Characters striped over lanes: character `i` goes on lane `i` mod w, and the last column is filled with K28.5. -/
def striped (lanes : List Nat) (cs : List TrlChar) : List (Nat × List TrlChar) :=
  let w := lanes.length
  lanes.zipIdx.map fun l => (l.1, (List.range ((cs.length + w - 1) / w)).map fun j => cs.getD (j * w + l.2) .comma)

/-- The transmit lanes that work. -/
def sendLanes (s : State) : List Nat := (List.range 4).filter fun l => (getLane s l).st == 0

/-- A frame of this chip as its lanes carry it. -/
def trailOut (s : State) (type dst : Nat) (body : List Byte) : Output :=
  let p := framePayload s type dst body
  .trail p (striped (sendLanes s) (frameChars p))

/-- Send a frame: a solitary chip sends nothing; with the link down it is counted (R513). -/
def trailSend (s : State) (type dst : Nat) (body : List Byte) : State :=
  if s.boot.solitary then s
  else if s.trl.up then emit s (trailOut s type dst body)
  else updTrl s fun t => { t with unsent := t.unsent + 1 }

/-- The bytes of a body that its type leaves unused (R507); an unknown type has none but is dropped. -/
def unusedBody : Nat → List Nat
  | 1 => 9 :: (List.range 12).map (· + 12)
  | 2 => (List.range 14).map (· + 10)
  | 3 => (List.range 10).map (· + 14)
  | 4 => [2, 3] ++ (List.range 16).map (· + 8)
  | 5 | 7 => (List.range 6).map (· + 2) ++ (List.range 8).map (· + 16)
  | 6 => [7]
  | 8 => (List.range 23).map (· + 1)
  | _ => []

/-- A destination that this chip takes frames for. -/
def forMe (s : State) (dst : Nat) : Bool := dst == broadcast || dst == s.boot.chip

/-- A received frame is dropped (R507): a bad CRC, an unknown type, a non-zero unused byte, or another chip's. -/
def frameDropped (s : State) (bs : List Byte) : Bool :=
  let type := byteAt bs 0
  withCrc (bs.take 32) != bs || !(1 ≤ type && type ≤ 8) || 1024 ≤ leAt bs 2 2 || !forMe s (leAt bs 4 2) ||
    (unusedBody type).any fun i => byteAt bs (8 + i) != 0

/-- A frame is dropped and counted. -/
def dropFrame (s : State) : State := updTrl s fun t => { t with dropped := t.dropped + 1 }

/-- rx_ok: the receive lanes that work. -/
def rxOk (s : State) : Nat := (((List.range 4).filter fun l => (getLane s (4 + l)).st == 0).map fun l => 2 ^ l).sum

/-! Training (R504). -/

/-- A training set of transmit lane `l`: K28.5 and 15 data characters, of a chip, whose residence is 0. -/
def trainingChars (s : State) (l : Nat) : List TrlChar :=
  .comma :: ((leBytes 1 l ++ leBytes 1 0 ++ leBytes 2 s.boot.chip ++ leBytes 1 (rxOk s) ++ leBytes 2 0 ++ zeroBytes 8).map .data)

/-- The driver of transmit lane `l` is not at high impedance: its pair was not found shorted by the last training (R504). -/
def laneDriven (s : State) (l : Nat) : Bool :=
  let x := getLane s l
  !(x.st == 1 && (x.fault == 1 || x.fault == 2))

/-- Training sets leave on every transmit lane that is not retired. -/
def sendSets (s : State) : State :=
  forEach ((List.range 4).filter fun l => (getLane s l).st != 1) s fun s l => emit s (.trainingSet l (trainingChars s l))

/-- The link may train: its domain is On, and this start-up is not solitary by solo_next (R504, R510). -/
def canTrain (s : State) : Bool := (getDom s 79).st == .on && !s.trl.solo

/-- The link is not up any more: a chip that runs records it (R513). -/
def linkLost (wasUp : Bool) (s : State) : State :=
  if wasUp && running s then raise s (newRec s qsTrlLinkDown 1 0 0 (lanesUp s 0) (lanesUp s 1) 0) else s

/-- Training begins (R504): retired lanes stay retired but after a RETRAIN or a start-up. -/
def trainBegin (s : State) (fresh : Bool) : State :=
  let s := updTrl s fun t => { t with training := true, lost := t.up || (t.training && t.lost), up := false }
  sendSets (if fresh then updTrl s fun t => { t with lanes := t.lanes.map fun x => (x.1, { trlLane0 with errors := x.2.errors }) } else s)

/-- Domain 79 is Off: the link is down and its lanes untrained (R504, R513). -/
def trailOff (s : State) : State :=
  linkLost s.trl.up (updTrl s fun t =>
    { t with training := false, up := false, lanes := t.lanes.map fun x => (x.1, { trlLane0 with errors := x.2.errors }) })

/-- TRL_STATUS.state (R519). -/
def trailState (s : State) : Nat :=
  if s.boot.solitary then 5
  else if s.trl.training then 1
  else if s.boot.phase == .trail then (if s.trl.up then 2 else 0)
  else if running s then (if s.trl.up then 3 else 4)
  else 0

/-- A record of the Trail about the device (R518). -/
def trailRec (s : State) (code : Code) (sev d0 d1 d2 : Nat) : State := raise s (newRec s code sev 0 0 d0 d1 d2)

/-- ABORT of group `g`, with this chip's number and the postmark (R477, R507). -/
def abortFrame (s : State) (g : Nat) : Output := trailOut s 5 broadcast (leBytes 2 g ++ zeroBytes 6 ++ leBytes 8 s.clk.postmark)

/-- A heartbeat leaves at a boundary whose postmark is a multiple of TRL_CTRL.hb (R512). -/
def heartbeatSend (s : State) : State :=
  if s.clk.postmark % s.trl.hb = 0 then trailSend s 2 broadcast (leBytes 8 s.clk.postmark ++ leBytes 2 (tickUs s)) else s

/-- ABORT of group `g` is sent for clearing `n` (R477); where the link is down the record says so. `ended` is given where the
sending itself has a record, with the tasks it ends (R447). -/
def sendAbort (s : State) (n g : Nat) (ended : Option Nat) : State :=
  if s.boot.solitary then s
  else if s.trl.up then
    let s := emit s (abortFrame s g)
    match ended with
    | some e => raise s { newRec s qsErrAborted 2 13 n g s.boot.chip e with clearing := some n }
    | none => s
  else
    raise (updTrl s fun t => { t with unsent := t.unsent + 1 })
      { newRec s qsTrlAbortUnsent 1 13 n g 0 0 with clearing := some n }

end Sys2Proof.Machine
end

