-- ==== Sys2Proof/Machine/Power.lean ====
section
/-! DEFINITION. Power domains (R23, R111, R112, R432 to R442): their targets, requests and acknowledgements,
their energy, and PWR_CMD. -/

namespace Sys2Proof.Machine

/-- The domain's encoding (R111). -/
def powerNum : PowerSt → Nat
  | .off => 0
  | .retain => 1
  | .on => 2

/-- The state of an encoding. -/
def powerOf (v : Nat) : PowerSt := if v = 0 then .off else if v = 1 then .retain else .on

/-- The higher of two states. -/
def higher (a b : PowerSt) : PowerSt := if powerNum a < powerNum b then b else a

/-- Engines of group domain `d`. -/
def groupEngines (d : Nat) : List Nat := (List.range 8).map (· + 8 * (d - 64))

/-- The clearings that hold a core or an engine of domain `d`. -/
def holders (s : State) (d : Nat) : List Nat :=
  (definedClearings s).filter fun n =>
    let g := (getClr s n).cfg
    if d < 64 then g.pairs.getLsbD d else 64 ≤ d && d < 72 && (groupEngines d).any fun e => g.engines.getLsbD e

/-- The clearing that owns domain `d` (R23): a group only when all eight engines are its own. -/
def domainOwner (s : State) (d : Nat) : Option Nat :=
  if d < 64 then pairOwner s d
  else if d < 72 then ownerWhere s fun g => (groupEngines d).all fun e => g.engines.getLsbD e
  else none

/-- A clearing in which work can be demanded: Open or Quiescing. -/
def serving (s : State) (n : Nat) : Bool := (getClr s n).st == .opened || (getClr s n).st == .quiescing

/-- Cores of pair `d`. -/
def pairCores (d : Nat) : List Nat := [2 * d, 2 * d + 1]

/-- Core `c` has been granted to a job, be it a claimant (R323, R337). -/
def coreGranted (s : State) (c : Nat) : Bool := (getCore s c).job.isSome

/-- demanded of R435: a grant, an assignment or a wake. -/
def demanded (s : State) (d : Nat) : Bool :=
  (if d < 64 then (pairCores d).any (coreGranted s) else (groupEngines d).any fun e => assignedTo s e != 0) ||
    (match (getDom s d).woken with
      | some p => s.clk.postmark ≤ p && (holders s d).any (serving s)
      | none => false)

/-- Every unit of the domain has failed: it stays Off until the next start-up (R469). -/
def unitsFailed (s : State) (d : Nat) : Bool :=
  if d < 64 then (pairCores d).all (coreFailed s) else d < 72 && (groupEngines d).all (engineFailed s)

/-- target of R435, for domains 0 to 71. -/
def powerTarget (s : State) (d : Nat) : PowerSt :=
  let x := getDom s d
  let c := holders s d
  if x.fault || unitsFailed s d || c.isEmpty then .off
  else if (match domainOwner s d with
    | some n => (getClr s n).st == ClrState.resetting
    | none => false) then .off
  else if c.any (fun n => (getClr s n).st == ClrState.fenced) then x.st
  else if demanded s d || c.any (fun n => (getClr s n).cfg.fixed && serving s n) then .on
  else if c.any (serving s) then (if x.idleTicks ≤ x.idle then powerOf x.park else .on)
  else if c.any (fun n => (getClr s n).st == ClrState.quiet) then .retain
  else powerOf x.closed

/-- The domain is quiet (R434). -/
def powerQuiet (s : State) (d : Nat) : Bool :=
  if d < 64 then
    (pairCores d).all fun c => let k := getCore s c
      k.job.isNone && (coreFailed s c || (k.passes.all (fun p => p.ended.isSome) && k.drained))
  else if d < 72 then (groupEngines d).all fun e => assignedTo s e == 0 && engineFlight s e == 0
  else if d = 77 then
    s.pwr.wfi.getLsbD 2 && s.pwr.wfi.getLsbD 3 && (s.mbx.all fun kv => !(kv.2.taken && (kv.2.receiver == 0x82 || kv.2.receiver == 0x83)))
  else true

/-- A request for domain `d` leaves (R112). -/
def powerRequest (s : State) (d : Nat) (t : PowerSt) : State :=
  emit (updDom s d fun x => { x with req := some t, top := higher x.top (higher x.st t) }) (.powerReq d (powerNum t))

/-- The target of domain `d` is requested where it differs and nothing is outstanding; Retain is never asked of a
domain that is Off, and a lower state waits for quiet (R112, R433, R434). -/
def powerMove (s : State) (d : Nat) (t : PowerSt) (now : Bool) : State :=
  let x := getDom s d
  if x.req.isSome || x.fault || t = x.st || (t = .retain && x.st = .off) then s
  else if powerNum x.st < powerNum t || now || powerQuiet s d then powerRequest s d t
  else s

/-- What power does in a cclk of a running device (R435 to R437). -/
def powerTurn (s : State) : State :=
  if !running s then s
  else
    let s := forEach (List.range 72) s fun s d =>
      let s := if demanded s d then updDom s d fun x => { x with idle := 0 } else s
      powerMove s d (powerTarget s d) false
    let s := forEach [77, 79] s fun s d => let x := getDom s d
      powerMove s d (if x.cycle then .off else x.target) x.cycle
    s

/-- A core comes up in reset (R432, R434). -/
def coreUp (s : State) (c : Nat) : State :=
  if coreFailed s c then s
  else
    let s := updCore s c fun k => { k with freeze := true, frozen := true, rst := true, wantReset := false, stopNext := false, resetTicks := 0, passes := [] }
    emit (emit s (.coreFreeze c true)) (.coreReset c true)

/-- A unit whose domain is Off has no reset left to acknowledge (R434). -/
def domainDown (s : State) (d : Nat) : State :=
  if d < 64 then forEach ((pairCores d).filter fun c => !coreFailed s c) s fun s c =>
    updCore s c fun k => { k with freeze := false, frozen := false, rst := false, wantReset := false, stopNext := false, resetTicks := 0 }
  else if d < 72 then forEach (groupEngines d) s fun s e => updEngine s e fun x => { x with resetting := false, resetTicks := 0 }
  else s

/-- PWR_RESULT.done when domain `d` reaches the commanded state (R441). -/
def commandDone (s : State) (d : Nat) : State :=
  if s.pwr.cmdOpen && d = s.pwr.domain && (getDom s d).st = (getDom s d).cmd then
    updPwr s fun u => { u with done := true, cmdOpen := false } else s

/-- POWER_ACK (R112): domain `d` has reached the requested state. -/
def powerAck (s : State) (d : Nat) : State :=
  let x := getDom s d
  match x.req with
  | none => s
  | some t =>
    let s := updDom s d fun x => { x with req := none, st := t, cycle := x.cycle && t != .off }
    let s := if d < 64 && x.st = .off && t = .on then forEach (pairCores d) s coreUp else s
    let s := if t = .off then domainDown s d else s
    let s := if d = 77 && x.st = .off && t = .on then updPwr s fun u => { u with wfi := setBit (setBit u.wfi 2 false) 3 false } else s
    let s := if d = 79 && t = .on && running s && canTrain s then trainBegin s false else s
    let s := if d = 79 && t = .off then trailOff s else s
    commandDone s d

/-- POWER_ACK (R112). -/
def execPowerAck (d : Nat) (s : State) : Result := .next (heard s fun s => powerAck s d)

/-! Energy (R439, R440). -/

/-- Leakage of domain `d` in a state, in mW (R440). -/
def leakage (d : Nat) (p : PowerSt) : Nat :=
  match p with
  | .off => 0
  | .on => if d < 64 then 3000 else if d < 72 then 2000 else if d < 78 then 1500 else if d = 78 then 2500 else 1000
  | .retain => if d < 64 then 300 else if d < 72 then 200 else if d = 76 || d = 77 then 150 else 0

/-- Coefficient `k` of R439. -/
def coefOf (s : State) (k : Nat) : Nat := s.pwr.coef.getD k 0

/-- The energy of domain `d` in the tick just closed is added, in µJ, with its residual (R440). -/
def chargeDomain (s : State) (d : Nat) : State :=
  let x := getDom s d
  let act := if d < 64 then coefOf s 1 * x.act else if d < 72 then coefOf s 2 * x.act else 0
  let sum := leakage d (higher x.top x.st) * tickUs s * 10 ^ 6 + act + x.residual
  let uj := sum / 10 ^ 9
  let s := updDom s d fun x =>
    { x with
      act := 0, residual := sum % 10 ^ 9, energy := (x.energy + uj) % 2 ^ 64, top := higher x.st (x.req.getD .off)
      idle := if demanded s d then 0 else holdAt 16 (x.idle + 1) }
  match domainOwner s d with
  | some n => updPwin s n fun w => { w with energy := (w.energy + uj) % 2 ^ 64 }
  | none => s

/-- Power at a tick boundary: every domain is charged, and written coefficients take effect (R439, R440). -/
def powerBoundary (s : State) : State :=
  updPwr (forEach (List.range 80) s chargeDomain) fun u => { u with coef := u.coefNext }

/-! PWR_CMD (R437). -/

/-- PWR_CMD (R437, R441, R533). -/
def pwrCommand (q : Requester) (w : Word) (s : State) : State :=
  globalCmd q s fun s =>
    let d := field w 0 7
    let t := field w 8 2
    let r := checked
      [(noBits w (bitsFrom 7 7 ||| bitsFrom 10 63), qsReservedNonzero), (t != 3, qsIllegalValue),
       (d == 77 || (d == 79 && t != 1 && (t != 0 || s.boot.solitary)), qsPwrDomainFixed), (!(getDom s d).fault, qsPwrFault)]
      s fun _ => updDom s d fun x => { x with target := powerOf t, cmd := powerOf t }
    let reached := r.1 != qsOk || ((getDom r.2 d).st = powerOf t && (getDom r.2 d).req.isNone)
    (r.1, updPwr r.2 fun u => { u with code := r.1, domain := d, done := reached, cmdOpen := !reached })

/-- PWR_CMD (R437). -/
def execPwrCmd (q : Requester) (w : Word) (s : State) : Result := .next (pwrCommand q w s)

/-- CONTROL_CORE_WFI (R437): control core 2 or 3 executes WFI; domain 77's commanded target applies again. -/
def coreWfi (s : State) (c : Nat) : State :=
  if c = 2 || c = 3 then
    updDom (updPwr s fun u => { u with wfi := setBit u.wfi c true }) 77 fun x => { x with target := x.cmd }
  else s

/-- CONTROL_CORE_WFI (R437). -/
def execControlCoreWfi (core : Nat) (s : State) : Result := .next (coreWfi s core)

end Sys2Proof.Machine
end

