-- ==== Sys2Proof/Machine/Mailboxes.lean ====
section
/-! DEFINITION. Mailboxes (R422 to R431): the lock, posts, takes and acknowledgements, registrations and wake
events, and what the boot service does on mailbox 0 (R143, R144). -/

namespace Sys2Proof.Machine

/-- The function of a requester, where it has one (R422). -/
def funcOf (q : Requester) : Option Nat := if q == reqRanger then some 0 else (tenantOf q).map (· + 1)

/-- A vector lies in the range of a requester's function (R423, R426). -/
def vectorFits (q : Requester) (irq : Bool) (v : Nat) : Bool :=
  match funcOf q with
  | some f => f = 0 || v ≤ 15
  | none => !irq

/-- A mailbox write: from the first tick, and in Bare (R140); its status goes to the writer's own window (R431). -/
def mbxCmd (q : Requester) (s : State) (body : State → Checked) : State :=
  if portClosed s then s
  else if !running s && s.boot.phase != .bare then recordStatus s (homeWindow q) q qsImgNotRunning
  else recordStatus (body s).2 (homeWindow q) q (body s).1

/-! The lock (R424, R425). -/

/-- MBX_LOCK_ACQUIRE (R424): a read of MBX_LOCK takes a free lock. -/
def lockRead (s : State) (q : Requester) (m : Nat) : State :=
  let x := getMbx s m
  if portClosed s then s
  else if !running s && s.boot.phase != .bare then emit s (.regRead 0)
  else
    let s := emit s (.regRead (word x.holder.toNat))
    if x.holder = 0 then updMbx s m fun x => { x with holder := q } else s

/-- MBX_LOCK_ACQUIRE (R424). -/
def execMbxLockAcquire (q : Requester) (m : Nat) (s : State) : Result := .next (lockRead s q m)

/-- MBX_UNLOCK (R425). -/
def unlockWrite (q : Requester) (m : Nat) (w : Word) (s : State) : State :=
  mbxCmd q s fun s =>
    let x := getMbx s m
    checked
      [(noBits w (bitsFrom 2 63), qsReservedNonzero), (!(wbit w 0 && wbit w 1), qsIllegalValue),
       (!wbit w 1 || privileged s q, qsNotOwner), (!wbit w 0 || (x.holder == q && q != 0), qsMbxNotLocker)]
      s fun _ => if wbit w 0 || wbit w 1 then updMbx s m fun x => { x with holder := 0 } else s

/-- MBX_RELEASE (R425). -/
def execMbxRelease (q : Requester) (m : Nat) (w : Word) (s : State) : Result := .next (unlockWrite q m (putField w 0 1 1) s)

/-- MBX_BREAK (R425). -/
def execMbxBreak (q : Requester) (m : Nat) (w : Word) (s : State) : Result := .next (unlockWrite q m (putField w 1 1 1) s)

/-! Acknowledgement (R427). -/

/-- The message slot of a sequence number. -/
def msgOf (x : Mailbox) (seq : Nat) : MbxMsg := if seq % 2 = 0 then x.even else x.odd

/-- `x` with `f` applied to the message slot of a sequence number. -/
def updMsg (x : Mailbox) (seq : Nat) (f : MbxMsg → MbxMsg) : Mailbox :=
  if seq % 2 = 0 then { x with even := f x.even } else { x with odd := f x.odd }

/-- An interrupt on a requester's function, or an event of its firmware. -/
def notify (s : State) (q : Requester) (v : Nat) : State :=
  match funcOf q with
  | some f => msix s f v
  | none => if 0x80 ≤ q.toNat && q.toNat ≤ 0x83 then emit s (.firmwareEvent (q.toNat - 0x80)) else s

/-- Message `seq` of mailbox `m`, posted as `g`, is acknowledged with a code (log entry 167). -/
def ackMsg (s : State) (m : Nat) (g : MbxMsg) (seq : Nat) (c : Code) : State :=
  let s := updMbx s m fun x => updMsg x seq fun g => { g with code := c, seq := seq, done := true }
  if g.ackIrq || funcOf g.sender = none then notify s g.sender g.vector else s

/-- The taken message of mailbox `m` is acknowledged. -/
def ackTaken (s : State) (m : Nat) (c : Code) : State :=
  updMbx (ackMsg s m (getMbx s m).takenMsg (getMbx s m).takenSeq c) m fun x => { x with taken := false }

/-- The posted message of mailbox `m` is acknowledged without being taken. -/
def ackPosted (s : State) (m : Nat) (c : Code) : State :=
  updMbx (ackMsg s m (msgOf (getMbx s m) (getMbx s m).seq) (getMbx s m).seq c) m fun x => { x with posted := false }

/-! Posting (R426, R429). -/

/-- The wake event of a post (R429). -/
def wakeEvent (s : State) (m : Nat) : State :=
  let x := getMbx s m
  if x.receiver = 0 then s
  else
    let s := updPwr s fun u => { u with wakes := u.wakes + 1 }
    let s := if x.irq then notify s x.receiver x.vector else s
    let s := if x.receiver == 0x82 || x.receiver == 0x83 then
        updDom (updPwr s fun u => { u with wfi := setBit u.wfi (x.receiver.toNat - 0x80) false }) 77 fun d => { d with target := .on }
      else s
    if x.wakeValid && (holders s x.wakeDomain).any (serving s) then
      updDom s x.wakeDomain fun d => { d with woken := some (s.clk.postmark + 1) }
    else s

/-- A post is accepted. -/
def postMsg (s : State) (q : Requester) (m : Nat) (ackIrq : Bool) (v : Nat) : State :=
  let seq := ((getMbx s m).seq + 1) % 65536
  let s := updMbx s m fun x =>
    let x := { x with seq := seq, frankSender := q, frankSeq := seq, frankPostmark := s.clk.postmark % 2 ^ 40, posted := true, holder := 0 }
    updMsg x seq fun _ => ⟨0, seq, false, q, ackIrq, v⟩
  let s := wakeEvent s m
  if s.boot.phase == .bare && m = 0 && (s.boot.delivery.isSome || s.img.flashing.isSome) then ackPosted s 0 qsImgBusy else s

/-- MBX_DATA_WRITE (R426): word `k`. -/
def dataWrite (q : Requester) (m k : Nat) (w : Word) (s : State) : State :=
  mbxCmd q s fun s =>
    let x := getMbx s m
    checked [(x.holder == q && q != 0, qsMbxNotLocker), (!x.posted, qsMbxFull)] s fun _ =>
      updMbx s m fun x => { x with data := x.data.set k w }

/-- MBX_DATA_WRITE (R426). -/
def execMbxDataWrite (q : Requester) (m k : Nat) (w : Word) (s : State) : Result := .next (dataWrite q m k w s)

/-- MBX_POST (R426). -/
def postWrite (q : Requester) (m : Nat) (w : Word) (s : State) : State :=
  mbxCmd q s fun s =>
    let x := getMbx s m
    checked
      [(noBits w (bitsFrom 7 63), qsReservedNonzero), (x.holder == q && q != 0, qsMbxNotLocker), (!x.posted, qsMbxFull),
       (vectorFits q (wbit w 0) (field w 1 6), qsIllegalValue)]
      s fun _ => postMsg s q m (wbit w 0) (field w 1 6)

/-- MBX_POST (R426). -/
def execMbxPost (q : Requester) (m : Nat) (w : Word) (s : State) : Result := .next (postWrite q m w s)

/-! Taking (R427). -/

/-- A take is accepted. -/
def takeMsg (s : State) (m : Nat) : State :=
  updMbx s m fun x => { x with posted := false, taken := true, takenSeq := x.seq, takenMsg := msgOf x x.seq }

/-- MBX_TAKE (R427). -/
def takeWrite (q : Requester) (m : Nat) (w : Word) (s : State) : State :=
  mbxCmd q s fun s =>
    let x := getMbx s m
    checked
      [(noBits w (bitsFrom 1 63), qsReservedNonzero), (wbit w 0, qsIllegalValue), (x.receiver == q && q != 0, qsMbxNotReceiver),
       (!(x.posted && x.taken), qsMbxFull), (x.posted, qsMbxNoMessage)]
      s fun _ => takeMsg s m

/-- MBX_TAKE (R427). -/
def execMbxTake (q : Requester) (m : Nat) (w : Word) (s : State) : Result := .next (takeWrite q m w s)

/-- MBX_ACK (R427). -/
def ackWrite (q : Requester) (m : Nat) (w : Word) (s : State) : State :=
  mbxCmd q s fun s =>
    let x := getMbx s m
    let c : Code := BitVec.ofNat 16 (field w 0 16)
    checked
      [(noBits w (bitsFrom 17 63), qsReservedNonzero), (x.receiver == q && q != 0, qsMbxNotReceiver),
       (if wbit w 16 then x.posted else x.taken, qsMbxNoMessage)]
      s fun _ => if wbit w 16 then ackPosted s m c else ackTaken s m c

/-- MBX_ACK_TAKEN (R427): which = 0. -/
def execMbxAckTaken (q : Requester) (m : Nat) (w : Word) (s : State) : Result := .next (ackWrite q m (putField w 16 1 0) s)

/-- MBX_ACK_POSTED (R427): which = 1. -/
def execMbxAckPosted (q : Requester) (m : Nat) (w : Word) (s : State) : Result := .next (ackWrite q m (putField w 16 1 1) s)

/-! Registrations (R428, R430). -/

/-- Every lock that a requester holds is freed. -/
def freeLocks (s : State) (q : Requester) : State :=
  forEach (s.mbx.map (·.1)) s fun s m => updMbx s m fun x => if x.holder = q then { x with holder := 0 } else x

/-- The registration of mailbox `m` is removed: a taken message is acknowledged as gone. -/
def removeRecv (s : State) (m : Nat) : State :=
  let s := if (getMbx s m).taken then ackTaken s m qsMbxReceiverGone else s
  updMbx s m fun x => { x with receiver := 0, irq := false, vector := 0, wakeValid := false, wakeDomain := 0 }

/-- A requester goes (R430): its registrations and its locks. -/
def requesterGone (s : State) (q : Requester) : State :=
  freeLocks (forEach (s.mbx.map (·.1)) s fun s m => if (getMbx s m).receiver = q then removeRecv s m else s) q

/-- A wake domain that a receiver may name (R428, step 5). -/
def wakeFits (s : State) (q : Requester) (d : Nat) : Bool :=
  match tenantOf q with
  | some n => domainOwner s d == some n
  | none => d ≤ 71 || d == 77

/-- MBX_RECV (R428). -/
def recvWrite (q : Requester) (m : Nat) (w : Word) (s : State) : State :=
  mbxCmd q s fun s =>
    let x := getMbx s m
    let r : Requester := BitVec.ofNat 8 (field w 0 8)
    checked
      [(noBits w (bitsFrom 23 63), qsReservedNonzero), (r == 0 || r == q || privileged s q, qsNotOwner),
       ((x.receiver == 0 || x.receiver == q || privileged s q) && !(s.boot.phase == .bare && m == 0), qsMbxRecvHeld),
       (r == 0 || vectorFits r (wbit w 8) (field w 9 6), qsIllegalValue),
       (r == 0 || !wbit w 15 || wakeFits s r (field w 16 7), qsMbxWakeDomain)]
      s fun _ =>
        if r = 0 then (if x.receiver = 0 then s else freeLocks (removeRecv s m) x.receiver)
        else updMbx s m fun x =>
          { x with receiver := r, irq := wbit w 8, vector := field w 9 6, wakeValid := wbit w 15, wakeDomain := field w 16 7 }

/-- MBX_RECV_WRITE (R428). -/
def execMbxRecvWrite (q : Requester) (m : Nat) (w : Word) (s : State) : Result := .next (recvWrite q m w s)

/-! The boot service (R143, R144, R431). -/

/-- The boot service registers at the entry to Bare. -/
def bootRegister (s : State) : State := updMbx s 0 fun x => { x with receiver := 0x80 }

end Sys2Proof.Machine
end

