-- ==== Sys2Proof/Machine/Cuts.lean ====
section
/-! DEFINITION. What ends work before its time: deadlines (R237, R322), context teardowns (R464), aborts (R477,
R478), clearing fences (R461, R454), and the release of what a clearing holds (R72, R454). -/

namespace Sys2Proof.Machine

/-! Tasks that are cut. -/

/-- A job of the task has not ended, or has not given up its cores (R321). -/
def jobsOpen (s : State) (t : Nat) : Bool := (jobList s).any fun j => j.2.task == t && !(j.2.st == .ended && j.2.held.isEmpty)

/-- Nothing of a task is left to end. -/
def taskOver (s : State) (t : Nat) (k : Task) : Bool := allDone k && !jobsOpen s t

/-- Envelope `e` of a task that is cut (R237, R464): one not started is a dead letter, one that runs stops; jobs and
the JOB_WAITs that a job answers are `cutJobs`'. -/
def cutEnv (code : Code) (expired : Bool) (t : Nat) (s : State) (e : Nat) : State :=
  match getEnv s t e with
  | none => s
  | some v =>
    let op := envOpcode v.bytes
    match v.st with
    | .waiting => completeEnv s t e code true false
    | .unassigned => stopEnv s t e code expired
    | .running => if op = 0x30 || op = 0x31 then s else stopEnv s t e code expired
    | .draining | .done => s

/-- The jobs of a task that is cut, and then the JOB_WAITs that no job will answer. -/
def cutJobs (code : Code) (expired : Bool) (t : Nat) (s : State) : State :=
  let js := ((jobList s).filter fun j => j.2.task == t).map (·.1)
  let s := forEach js s fun s j => jobStop s j code expired 0 none
  match getTask s t with
  | none => s
  | some k => forEach (List.range k.envs.length) s fun s e => match getEnv s t e with
      | some v =>
        let open' := match latestJob k e with
          | some b => (match getJob s (jobKey t b) with
              | some x => x.st != .ended
              | none => false)
          | none => false
        if v.st == .running && envOpcode v.bytes == 0x31 && !open' then completeEnv s t e code false expired else s
      | none => s

/-- Task `t` is cut with a code; the first answer to each envelope stands (R475). -/
def cutTask (s : State) (t : Nat) (code : Code) (expired : Bool) : State :=
  match getTask s t with
  | none => s
  | some k =>
    let s := updTask s t fun k => { k with cut := some (k.cut.getD code), expired := k.expired || expired }
    cutJobs code expired t (forEach (List.range k.envs.length) s (cutEnv code expired t))

/-- A deadline or an abort ends task `t` for its measurement (R198). -/
def endMeasure (s : State) (t us : Nat) : State :=
  match getTask s t with
  | none => s
  | some k => if k.endAge.isSome then s else measureTask (updTask s t fun k => { k with endAge := some us }) k us

/-- A completion of task `t`, of state `k`, that is not written as its deadline falls (R237, R238). -/
def expireItem (s : State) (t : Nat) (k : Task) (i : CplItem) : CplItem :=
  match i.env with
  | some (x, _) =>
    if x = t then
      { i with status := qsStmDeadline, expired := i.expired || i.last || !i.dead, acct := if i.acct = [] then [] else taskRecord s k }
    else i
  | none => i

/-- The items of a queue whose write has not been issued. -/
def unwritten (k : Queue) : List CplItem := if k.writing then k.items.drop 1 else k.items

/-- The write of task `t`'s last completion has been issued: it ends with its own status (R238; log entry 143). -/
def endIssued (s : State) (t : Nat) (k : Task) : Bool :=
  taskOver s t k && k.held.isNone && !(unwritten (getQueue s k.queue)).any fun i => match i.env with
    | some (x, _) => x == t
    | none => false

/-- The completions of task `t` that wait for their write take the deadline's status (R238). -/
def expireItems (s : State) (t : Nat) : State :=
  let s := updTask s t fun k => { k with status := if k.status = qsOk then qsStmDeadline else k.status }
  match getTask s t with
  | none => s
  | some k =>
    let f := expireItem s t k
    updQueue (updTask s t fun k => { k with held := k.held.map f }) k.queue fun x =>
      { x with items := if x.writing then x.items.take 1 ++ (x.items.drop 1).map f else x.items.map f }

/-- TASK_DEADLINE (R237, R238): not of a task whose end is being written, that another answer has cut, or whose timer stands
still because its clearing is frozen (R500). -/
def taskDeadline (s : State) (t : Nat) : State :=
  match getTask s t with
  | none => s
  | some k =>
    if k.deadline = 0 || k.fenced || k.cut.isSome || endIssued s t k || lsFrozen s k.n then s
    else
      let s := updQwin s k.n fun w => { w with expired := w.expired + 1 }
      cutTask (expireItems (endMeasure s t (taskAge s k)) t) t qsStmDeadline true

/-- TASK_DEADLINE (R237). -/
def execTaskDeadline (task : Nat) (s : State) : Result := .next (taskDeadline s task)

/-! Contexts that leave Live (R28, R464). -/

/-- The requests of context `c` under its generation `old` that have reached a store in this cclk, each with its store. -/
def enteredNow (s : State) (c old : Nat) : List (Nat × MemReq) :=
  s.cal.pch.flatMap fun kv => ((pchRequests kv.2).filter fun r =>
    r.clearing.isSome && r.ctx == c && old != 0 && r.gen == old && r.entered == nowCclk s).map fun r => (kv.1, r)

/-- A write that lock-step has folded and the gate then refuses leaves the digest again (R357, R498). -/
def unfoldReq (s : State) (t : Nat) (r : MemReq) : State :=
  match getTask s t, r.clearing with
  | some k, some n =>
    if r.write then unfoldGranule s n k.pin (deviceAddr s r.addr) r.data r.be else s
  | _, _ => s

/-- The gate refuses a request that reached it in the cclk in which its generation advances (R356, R357). -/
def withdraw (s : State) (x : Nat × MemReq) : State :=
  let r := x.2
  let s := countOutstanding (takeReq s x.1 r) r false
  let n := r.clearing.getD 0
  match r.src with
  | .core c tag =>
    let s := match (getCore s c).job.bind (getJob s) with
      | some j => unfoldReq s j.task r
      | none => s
    coreRespond (refusalRec s 1 c (deviceAddr s r.addr) 1 n r.ctx r.gen 0 none) c tag 2 (zeroBytes 256)
  | .fabric _ tag => emit (refusalRec s 5 0 (deviceAddr s r.addr) 1 n r.ctx r.gen 0 none) (.fabricResp tag 2 [])
  | .acc id _ =>
    let s := match (getAcc s id).map (·.client) with
      | some (.env t _) => unfoldReq s t r
      | _ => s
    answerAcc s id (.refused 1)
  | .errRing _ | .own _ | .scrub _ | .zero _ => s

/-- Context `c` has left Live, its generation `old` over: the gate refuses what reached it in this cclk, its translations
go, and its record says so (R343, R356, R380). -/
def ctxLeft (s : State) (c old : Nat) : State :=
  updAcct (xltCtxLeft ((enteredNow s c old).foldl withdraw s) c) c fun a => { a with partial' := true, leftLive := true, gen := old }

/-- Context `c` is idle (R29). -/
def ctxIdle (s : State) (c : Nat) : Bool := tasksOfCtx s c == []

/-- TEARDOWN's answer to the work of context `c` of clearing `n`, whose generation was `old` (R464). -/
def tearTasks (s : State) (n c old : Nat) : State :=
  let ts := (tasksOfCtx s c).map (·.1)
  let s := forEach ts s fun s t => cutTask s t qsErrCtxTorn false
  raise s { newRec s qsErrCtxTorn 2 13 n ts.length old 0 with clearing := some n, ctx := some c, generation := old }

/-- A request of an old generation of context `c` is in a store or at a memory controller. -/
def oldInMemory (s : State) (c : Nat) : Bool :=
  let old := fun (r : MemReq) => r.clearing.isSome && r.ctx == c && r.gen != (getCtx s c).gen
  s.cal.pch.any (fun kv => (pchRequests kv.2).any old) ||
    s.cal.inflight.any (fun kv => match kv.2 with
      | some f => !f.dead && old f.req
      | none => false) ||
    s.cal.poisoned.any fun f => old f.req

/-- An hp_i tag serves an access that is still waited for. -/
def hostWaits (o : HostOut) : Bool :=
  match o.use with
  | .acc _ => true
  | .ats _ _ _ _ | .lost _ _ | .dead => false

/-- An fo_ tag serves a core or an access that is still waited for. -/
def fabWaits (o : FabOut) : Bool := o.core.isSome || o.acc.isSome

/-- Requests of an old generation of context `c`, its tasks or the cores of its jobs are still to be answered
(R464). -/
def ctxOutstanding (s : State) (c : Nat) : Bool :=
  !ctxIdle s c || oldInMemory s c ||
    s.xlt.hostOut.any (fun kv => match kv.2 with
      | some o => hostWaits o && o.ctx == c && o.gen != (getCtx s c).gen
      | none => false) ||
    s.xlt.fabOut.any (fun kv => match kv.2 with
      | some o => fabWaits o && o.ctx == c && o.gen != (getCtx s c).gen
      | none => false) ||
    (jobList s).any fun j => j.2.ctx == c && !j.2.held.isEmpty

/-! Aborts (R476 to R478). -/

/-- Clearing `n` is bound to abort group `g`. -/
def inGroup (s : State) (g n : Nat) : Bool :=
  let w := tabGet 0 s.err.group n
  defined s n && wbit w 16 && field w 0 16 == g

/-- The local clearings bound to group `g`. -/
def groupClearings (s : State) (g : Nat) : List Nat := allClearings.filter (inGroup s g)

/-- The tasks of clearing `n` end by an abort of group `g` from chip `src`. -/
def abortClearing (g src : Nat) (s : State) (n : Nat) : State :=
  if (getClr s n).st == .fenced || (getClr s n).st == .resetting then s
  else
    let ts := (tasksOf s n).map (·.1)
    let s := forEach ts s fun s t => match getTask s t with
      | some k => cutTask (if taskOver s t k then s else endMeasure s t (taskAge s k)) t qsErrAborted false
      | none => s
    raise s { newRec s qsErrAborted 2 13 n g src ts.length with clearing := some n }

/-- R478 on every local clearing bound to group `g`. -/
def localAbort (s : State) (g src : Nat) : State := forEach (groupClearings s g) s (abortClearing g src)

/-! Clearing fences (R454, R461). -/

/-- Task `t` ends without a completion (R461): what has not started or waits for a job is gone, what runs stops. -/
def fenceTask (s : State) (t : Nat) : State :=
  match getTask s t with
  | none => s
  | some k =>
    let s := updTask s t fun k => { k with fenced := true, held := none }
    forEach (List.range k.envs.length) s fun s e => match getEnv s t e with
      | none => s
      | some v =>
        let op := envOpcode v.bytes
        match v.st with
        | .waiting | .unassigned => updEnv (leftRewrites s k.n v) t e fun v => { v with st := .done }
        | .running => if op = 0x30 || op = 0x31 then updEnv s t e fun v => { v with st := .done } else stopEnv s t e qsErrFenced false
        | .draining | .done => s

/-- An unissued ring access of clearing `n`'s queues. -/
def ringUnissued (n : Nat) (a : Acc) : Bool :=
  unissued a && a.n == n && (match a.client with
    | .fetch _ | .cpl _ => true
    | .env _ _ | .bitmap _ | .acct _ => false)

/-- What queue `q` still holds of its completions as its tasks end: the one whose write has been issued, which
completes and ends no task (R454 step 1). -/
def issuedItem (s : State) (q : Nat) : List CplItem :=
  if (accList s).any fun a => a.2.client == .cpl q && a.2.op == 1 then
    ((getQueue s q).items.take 1).map fun i => { i with last := false, env := none }
  else []

/-- Every task of clearing `n` ends, and its queues write and fetch nothing more (R454, R461). -/
def endTasks (s : State) (n : Nat) : State :=
  let s := forEach ((tasksOf s n).map (·.1)) s fenceTask
  let s := { s with acc := s.acc.filter fun kv => match kv.2 with
      | none => false
      | some a => !ringUnissued n a }
  forEach (queuesOf s n) s fun s q =>
    updQueue (stopWaiting s q) q fun k =>
      { k with items := issuedItem s q, owed := 0, acctDone := false, fetch := none, fetchGot := [], buffered := [] }

/-- The fence's effect on lock-step and barriers (R500, R516), and on commons that clearing `n` writes (R305). -/
def fenceShared (s : State) (n : Nat) : State :=
  let s := writerFenced s n
  let s := updLs s n fun l => { l with st := .off, sums := [], held := [], freezeAt := none }
  let s := updBar s n fun b => { b with epoch := 0, waiting := false, arrived := [], early := [] }
  updQue s fun u => { u with gate := setBit u.gate n false }

/-- Step 2 of R454: engines are reset, and the cores of jobs are frozen and reset; what a claimant holds is
released. -/
def stopUnits (s : State) (n : Nat) : State :=
  let s := forEach (enginesOf s n) s engineReset
  forEach ((jobList s).filter fun j => j.2.n == n) s fun s j => match j.2.st with
    | .started | .ending => forEach j.2.held (updJob s j.1 fun x => { x with st := .ending }) freezeReset
    | .loading | .waiting | .claimant => releaseCores (updJob s j.1 fun x => { x with st := .ended }) j.1
    | .ended => s

/-- Requests of clearing `n` on the host or fabric port, or resets of its units, are still to be answered (R455). -/
def fenceWaits (s : State) (n : Nat) : Bool :=
  s.xlt.hostOut.any (fun kv => match kv.2 with
    | some o => hostWaits o && o.n == n
    | none => false) ||
    s.xlt.fabOut.any (fun kv => match kv.2 with
      | some o => fabWaits o && o.n == n
      | none => false) ||
    (coresOf s n).any (coreResetting s) || (enginesOf s n).any fun g => (getEngine s g).resetting && !engineFailed s g

/-! What a clearing gives up (R72, R252, R341, R394, R430, R454). -/

/-- The queues of a range of doorbell pages are cleared (R217, R222, R454): each is Disabled, a DISABLE that waited is
done (R245), and the FIFO entries that come free take spilled words. -/
def clearQueues (s : State) (base count : Nat) : State :=
  let mine := fun (q : Nat) => inRange (512 * base) (512 * count) q
  let s := forEach (s.queues.filter fun kv => mine kv.1 && kv.2.disableSeen) s fun s kv => disableDone s kv.1
  unspillAll (updQue { s with queues := s.queues.filter fun kv => !mine kv.1 } fun u =>
    { u with hot := u.hot.filter fun q => !mine q, fifo := u.fifo.filter (fun e => !mine e.1), arrived := u.arrived.filter fun q => !mine q })

/-- The bitmap rewrites of publications that tasks of clearing `n` have made and not ended are finished as scrub
traffic (R295, R305). -/
def leaveRewrites (s : State) (n : Nat) : State :=
  forEach (allEnvs s) s fun s x =>
    if x.2.1.n == n && x.2.2.2.st != .done then leftRewrites s n x.2.2.2 else s

/-- Rows of clearing `n` whose writes have all been answered as its streams are cleared (R309, R310). -/
def leaveRows (s : State) (n : Nat) : State :=
  forEach (allEnvs s) s fun s x => if x.2.1.n == n then recordLanded (rowLanded s x.1 x.2.2.1 x.2.1 x.2.2.2) x.1 x.2.2.1 x.2.1 x.2.2.2 else s

/-- The UPDATEs of clearing `n` that a fence ends in their Write pass leave nothing unpublished (R293). -/
def leaveUpdates (s : State) (n : Nat) : State :=
  forEach (allEnvs s) s fun s x =>
    if x.2.1.n == n && updateWriting x.2.2.2 && envLive x.2.2.2 then discardPending s (envDesc x.2.2.2.bytes) else s

/-- The stream entries, jobs and accesses of clearing `n` are cleared. -/
def clearStreams (s : State) (n : Nat) : State :=
  let s := leaveUpdates (leaveRewrites (leaveRows s n) n) n
  let s := forEach (((jobList s).filter fun j => j.2.n == n).map (·.1)) s releaseCores
  let s := updSch s fun u => { u with jobs := u.jobs.filter fun kv => match kv.2 with
      | none => false
      | some x => x.n != n }
  let s := { s with tasks := s.tasks.filter fun kv => match kv.2 with
      | none => false
      | some k => k.n != n }
  { s with acc := s.acc.filter fun kv => match kv.2 with
      | none => false
      | some a => a.n != n || (match a.client with
          | .bitmap _ | .acct _ => true
          | .env _ _ | .fetch _ | .cpl _ => false) }

/-- A core is reset where its pair is On; in a pair that is not, it comes up in reset (R332, R434). -/
def resetCore (s : State) (c : Nat) : State := if (getDom s (c / 2)).st == .on then freezeReset s c else s

/-- What clearing `n` loses as it enters Resetting (R332, R341, R394, R430, R454). -/
def enterResetting (s : State) (n : Nat) : State :=
  let g := (getClr s n).cfg
  let s := clearStreams (clearQueues s g.dbBase g.dbCount) n
  let s := forEach (coresOf s n) s resetCore
  let s := zeroiseSlots s ((List.range g.keyCount).map (· + g.keyBase))
  requesterGone (forEach (ownedTables s n) (canopyReset s n) tableReset) (reqTenant n)

/-- What an APPLY that redefines or removes clearing `n` releases, its contexts and plots apart (R72, R332, R394,
R466). -/
def releaseUnits (s : State) (n : Nat) (new : Option ClearingCfg) : State :=
  let old := (getClr s n).cfg
  let kept := fun (f : ClearingCfg → Bool) => match new with
    | none => false
    | some g => f g
  let cores := (coresOf s n).filter fun c => !kept fun g => g.pairs.getLsbD (c / 2)
  let engines := (enginesOf s n).filter fun e => !kept fun g => g.engines.getLsbD e
  let slots := ((List.range old.keyCount).map (· + old.keyBase)).filter fun k => !kept fun g => inRange g.keyBase g.keyCount k
  let s := clearStreams (clearQueues s old.dbBase old.dbCount) n
  let s := zeroiseSlots (forEach cores (forEach engines s engineReset) resetCore) slots
  let s := requesterGone (forEach (ownedTables s n) (canopyReset s n) tableReset) (reqTenant n)
  updQue s fun u => { u with quota := tabSet 0 u.quota n 0 }

/-- STM_QUOTA(n) as a section is applied (R242). -/
def reserveQuota (s : State) (n : Nat) : State := updQue s fun u => { u with quota := tabSet 0 u.quota n (plotsTotal (getClr s n).cfg * 256) }

end Sys2Proof.Machine
end

