-- ==== Sys2Proof/Machine/FenceOps.lean ====
section
/-! DEFINITION. The life of a clearing and of its contexts: fences, resets and their end (R27 to R35,
R454 to R463), and Function Level Resets waiting for it (R98, R99, R472). -/

namespace Sys2Proof.Machine

/-- A Live context leaves Live (R27, R28, R380): its generation advances. -/
def leaveLive (s : State) (c : Nat) (st : CtxState) : State :=
  ctxLeft (updCtx s c fun k => { k with st := st, gen := nextGen k.gen }) c (getCtx s c).gen

/-- A context becomes Free: its PASID binding is released, and a TEARDOWN that waited is done (R28, R45). -/
def freeCtx (s : State) (c : Nat) : State :=
  let k := getCtx s c
  let s := updCtx s c fun k => { k with st := .free, pasid := 0, pasidValid := false, weight := 0, weightNext := none, vtime := 0, tearing := false }
  match ctxOwner s c with
  | some n => if k.tearing then updWin s n fun w => if w.ctxNum = c then { w with ctxDone := true } else w else s
  | none => s

/-- The Live contexts of clearing `n`. -/
def liveCtxs (s : State) (n : Nat) : List Nat := (ctxsOf s n).filter fun c => (getCtx s c).st == .live

/-- The fence of clearing `n` begins, step 1 of R454, with a cause of ERR_WFENCE (R485). -/
def beginFence (s : State) (n cause : Nat) : State :=
  let live := liveCtxs s n
  let s := forEach live s fun s c => leaveLive s c .draining
  let s := updClr s n fun c => { c with quiesceLeft := 0, fence := some ⟨nowRef s, false, []⟩ }
  let s := { s with err := { s.err with fences := s.err.fences + 1, slowDue := setBit s.err.slowDue n false } }
  let s := updWin s n fun w => { w with fenceCause := cause, fencePostmark := s.clk.postmark }
  let s := setClrState s n .fenced
  let g := tabGet 0 s.err.group n
  let s := if wbit g 16 then sendAbort s n (field g 0 16) (some (tasksOf s n).length) else s
  let s := raise s { newRec s qsErrFenced 2 13 n cause live.length 0 with clearing := some n }
  fenceShared (endTasks s n) n

/-- The reset event of R32 with a cause: a fence from Closed, Open, Quiescing or Quiet; absorbed in
Fenced and Resetting (R35). -/
def resetEvent (s : State) (n cause : Nat) : State :=
  match (getClr s n).st with
  | .closed | .opened | .quiescing | .quiet => beginFence s n cause
  | .absent | .fenced | .resetting => s

/-- Step 2 of R454, in the cclk after the fence began: engines are reset and cores frozen. -/
def fenceStop (s : State) (n : Nat) : State :=
  let c := getClr s n
  match c.st, c.fence with
  | .fenced, some f =>
    if f.stopped then s
    else stopUnits (updClr s n fun c => { c with fence := some { f with stopped := true } }) n
  | _, _ => s

/-- A request of clearing `n` waits in a store or at a memory controller (R455). -/
def memoryWaits (s : State) (n : Nat) : Bool :=
  s.cal.pch.any (fun kv => (pchRequests kv.2).any fun r => r.clearing == some n) ||
    s.cal.inflight.any (fun kv => match kv.2 with
      | some f => !f.dead && f.req.clearing == some n
      | none => false) ||
    s.cal.poisoned.any fun f => f.req.clearing == some n

/-- The fence of clearing `n` is drained (R455). -/
def fenceIsDrained (s : State) (n : Nat) : Bool :=
  let c := getClr s n
  c.st == .fenced && (match c.fence with | none => false | some f => f.stopped) &&
    !memoryWaits s n && !fenceWaits s n

/-- Fenced to Resetting: queues, stream entries and engine state are cleared, Draining contexts become
Free (R28, R32, R454). -/
def fenceDrained (s : State) (n : Nat) : State :=
  if fenceIsDrained s n then
    let s := forEach ((ctxsOf s n).filter fun c => (getCtx s c).st == .draining) s freeCtx
    setClrState (enterResetting s n) n .resetting
  else s

/-- hp_flr_done for the functions whose clearings are done (R98, R99, R472): a function waits on one
clearing, or on every clearing. -/
def flrRaise (s : State) : State :=
  let at' := fun n => (getClr s n).st == .closed || (getClr s n).st == .absent
  let ready := fun (w : Nat × Option Nat) => match w.2 with
    | some n => at' n
    | none => allClearings.all at'
  let s' := { s with err := { s.err with flrWait := s.err.flrWait.filter fun w => !ready w } }
  forEach ((s.err.flrWait.filter ready).map (·.1)) s' fun s f => emit s (.flrDone f)

/-- Every granule of clearing `n`'s plots has been zeroed and every WRITE of it answered (R32, R463). -/
def zeroingDone (s : State) (n : Nat) : Bool :=
  !memoryWaits s n && allPchs.all fun h => (zeroNext s n h 0).isNone

/-- Resetting to Closed (R32, R36, R45, R67, R98): once the state is cleared, the nonce is zero, the manifest
reissued and the record written. -/
def resetDone (s : State) (n : Nat) : State :=
  let c := getClr s n
  if c.st != .resetting || !zeroingDone s n then s
  else
    let us := (nowRef s - (match c.fence with | none => 0 | some f => f.start)) / 100
    let s := updClr s n fun c => { c with fence := none }
    let s := updWin s n fun w => { w with nonce0 := 0, nonce1 := 0 }
    let s := setClrState (resetMeas (resetTun s n) n) n .closed
    let s := raise s { newRec s qsErrResetDone 0 13 n us (plotsTotal c.cfg) 0 with clearing := some n }
    flrRaise (issueManifest s n)

/-! CLR_CMD (R32, R42, R473). -/

/-- The operations of CLR_CMD on a defined clearing, by its state: the next state, or none where R32
refuses. -/
def clrOperation (s : State) (n op timeout : Nat) : Option State :=
  match op, (getClr s n).st with
  | 1, .closed | 1, .quiet =>
    some (setClrState (updClr s n fun c => { c with serveFrom := s.clk.postmark + 1 }) n .opened)
  | 2, .opened =>
    some (quiesceCheck (setClrState (forEach (queuesOf s n) (updClr s n fun c => { c with quiesceLeft := timeout }) stopWaiting) n .quiescing) n)
  | 3, .quiet => some (setClrState s n .closed)
  | 4, .closed | 4, .opened | 4, .quiescing | 4, .quiet | 4, .fenced | 4, .resetting => some (resetEvent s n 1)
  | _, _ => none

/-- CLR_CMD (R42): its fields, then R32 and R473. -/
def clrCommand (q : Requester) (w : Word) (s : State) : State :=
  globalCmd q s fun s =>
    let n := field w 0 6
    let op := field w 8 4
    let timeout := field w 16 16
    checked
      [(noBits w (bitsFrom 6 7 ||| bitsFrom 12 15 ||| bitsFrom 32 63), qsReservedNonzero),
       (1 ≤ op && op ≤ 4 && (if op == 2 then timeout != 0 else timeout == 0), qsIllegalValue),
       (defined s n, qsClrAbsent), ((clrOperation s n op timeout).isSome, qsClrBadState),
       (op != 1 || !(s.err.halted || s.err.deviceFault), qsErrHalted)]
      s fun _ => (clrOperation s n op timeout).getD s

/-- OPEN (R32, R42). -/
def execClrOpen (q : Requester) (w : Word) (s : State) : Result := .next (clrCommand q (putField w 8 4 1) s)

/-- QUIESCE (R32, R42). -/
def execClrQuiesce (q : Requester) (w : Word) (s : State) : Result := .next (clrCommand q (putField w 8 4 2) s)

/-- CLOSE (R32, R42). -/
def execClrClose (q : Requester) (w : Word) (s : State) : Result := .next (clrCommand q (putField w 8 4 3) s)

/-- RESET (R32, R35, R42, R454). -/
def execClrReset (q : Requester) (w : Word) (s : State) : Result := .next (clrCommand q (putField w 8 4 4) s)

/-- QUIESCE_TIMER_EXPIRE (R32): the timer of a Quiescing clearing has no tick left, and the fence starts
with cause 3. -/
def execQuiesceTimerExpire (n : Nat) (s : State) : Result :=
  .next (if (getClr s n).st == .quiescing && (getClr s n).quiesceLeft == 0 then beginFence s n 3 else s)

/-- FENCE_DRAINED (R455): where the conditions of R455 hold, the clearing enters Resetting. -/
def execFenceDrained (n : Nat) (s : State) : Result := .next (fenceDrained s n)

/-- CLEARING_RESET_DONE (R463): the zeroing has ended and the clearing reaches Closed. -/
def execClearingResetDone (n : Nat) (s : State) : Result := .next (resetDone s n)

/-- MANIFEST_ISSUE_DONE (R39). -/
def execManifestIssueDone (n : Nat) (s : State) : Result := .next (finishIssue s n)

/-- CLR_NONCE1_WRITE (R38, R45): the nonce's upper half; a manifest issue begins. -/
def nonce1Write (q : Requester) (n : Nat) (w : Word) (s : State) : State :=
  windowCmd q n s fun s => checked [] s fun _ => issueManifest (updWin s n fun k => { k with nonce1 := w }) n

/-- CLR_NONCE1_WRITE (R38, R45). -/
def execClrNonce1Write (q : Requester) (n : Nat) (w : Word) (s : State) : Result := .next (nonce1Write q n w s)

/-! CLR_CTX_CMD (R28, R45, R46, R326). -/

/-- The lowest Free context of clearing `n`. -/
def lowestFree (s : State) (n : Nat) : Option Nat := (ctxsOf s n).find? fun c => (getCtx s c).st == .free

/-- A PASID is bound to a Live or Draining context of the clearings that share a function with `n`
(R46, R92). -/
def pasidBound (s : State) (n pasid : Nat) : Bool :=
  let f := servingFunc s n
  let ns := if f = 0 then (definedClearings s).filter fun m => servingFunc s m == 0 else [n]
  ns.any fun m => (ctxsOf s m).any fun c =>
    let k := getCtx s c
    k.st != .free && k.pasidValid && k.pasid == pasid

/-- CREATE binds CLR_CTX_ARG's PASID, which CLR_CTX_INFO then shows whether pasid_valid is set or not (log entry 132), and its weight; the generation stays, and the virtual time is the least among the
clearing's other Live contexts (R28, R324, R326). -/
def createCtx (s : State) (n c : Nat) : State :=
  let a := (getWin s n).ctxArg
  let g := (getClr s n).cfg
  let others := (liveCtxs s n).filter (· != c)
  let least := match others.map fun x => (getCtx s x).vtime with
    | [] => 0
    | v :: r => r.foldl min v
  updAcct (updCtx s c fun k => { k with
    st := .live, pasid := field a 0 20, pasidValid := wbit a 20, vtime := least
    weight := if g.tunable.getLsbD 4 then field a 32 16 else g.weightMin }) c fun x => { x with partial' := true }

/-- TEARDOWN of context `c` (R28, R464): its generation advances, its work is answered, and one record
is staged. -/
def tearDown (s : State) (n c : Nat) : State :=
  let old := (getCtx s c).gen
  tearTasks (updCtx (leaveLive s c .draining) c fun k => { k with tearing := true }) n c old

/-- CLR_CTX_CMD (R45, R46): its status and the context acted on go to CLR_CTX_RESULT; of a refused command the context it
names, and 0 where `any` finds none Free (log entry 133). -/
def ctxCommand (q : Requester) (n : Nat) (w : Word) (s : State) : State :=
  windowCmd q n s fun s =>
    let op := field w 0 4
    let any := wbit w 4
    let k := getClr s n
    let a := (getWin s n).ctxArg
    let free := lowestFree s n
    let c := if any && op == 1 then free.getD 0 else field w 16 12
    let x := getCtx s c
    let r := checked
      [(noBits w (bitsFrom 5 15 ||| bitsFrom 28 63), qsReservedNonzero),
       (1 ≤ op && op ≤ 3 && (!any || op == 1), qsIllegalValue), (defined s n, qsClrAbsent),
       (k.st == .closed || k.st == .opened || k.st == .quiet, qsClrBadState),
       (any || inRange k.cfg.ctxBase k.cfg.ctxCount c, qsNotOwner),
       (op != 1 || !any || free.isSome, qsCtxNoneFree),
       ((match op, x.st with
          | 1, .free => true
          | 1, _ => false
          | 2, .live => ctxIdle s c
          | _, .draining => false
          | _, _ => true), qsCtxBusy),
       (op == 1 || x.st == .live, qsCtxNotLive), (op != 3 || k.cfg.ctxTeardown, qsCtxTeardownOff),
       (op != 1 || !wbit a 20 || !pasidBound s n (field a 0 20), qsPasidInUse),
       (op != 1 || !k.cfg.tunable.getLsbD 4 || (k.cfg.weightMin ≤ field a 32 16 && field a 32 16 ≤ k.cfg.weightMax),
        qsImgTuneRange)]
      s fun _ => match op with
        | 1 => createCtx s n c
        | 2 => freeCtx (leaveLive s c .free) c
        | _ => tearDown s n c
    let done := r.1 != qsOk || op != 3
    (r.1, updWin r.2 n fun v => { v with ctxCode := r.1, ctxNum := c, ctxGen := (getCtx r.2 c).gen, ctxDone := done })

/-- CREATE (R28, R46). -/
def execCtxCreate (q : Requester) (n : Nat) (w : Word) (s : State) : Result := .next (ctxCommand q n (putField w 0 4 1) s)

/-- DESTROY (R28, R46). -/
def execCtxDestroy (q : Requester) (n : Nat) (w : Word) (s : State) : Result := .next (ctxCommand q n (putField w 0 4 2) s)

/-- TEARDOWN (R28, R46, R464). -/
def execCtxTeardown (q : Requester) (n : Nat) (w : Word) (s : State) : Result := .next (ctxCommand q n (putField w 0 4 3) s)

/-- CONTEXT_DRAINED (R28, R464): the last request of a Draining context's old generation has been
answered and its tasks have ended; it becomes Free. -/
def execContextDrained (c : Nat) (s : State) : Result :=
  .next (if (getCtx s c).st == .draining && !ctxOutstanding s c then freeCtx s c else s)

/-! Function resets (R34, R91, R98, R99, R472). -/

/-- What a reset of function `f` does to translation and mailboxes (R380, R430). -/
def functionGone (s : State) (f : Nat) : State :=
  requesterGone (xltFuncReset s f) (funcRequester f)

/-- FUNCTION_LEVEL_RESET (R98, R141, R380, R430): of an Absent clearing, or of a function with no clearing, done within
1 µs; else the reset event, and done when the clearing is Closed. -/
def functionReset (s : State) (f : Nat) : State :=
  let n := f - 1
  if inert s || !defined s n || s.glob.numVfs < f then emit s (.flrDone f)
  else
    let s := functionGone (resetEvent s n 2) f
    flrRaise { s with err := { s.err with flrWait := s.err.flrWait ++ [(f, some n)] } }

end Sys2Proof.Machine
end

