-- ==== Sys2Proof/Machine/ImageCmds.lean ====
section
/-! DEFINITION. The image commands: LOAD, APPLY, COMMIT, DISCARD, FLASH, SETTINGS, and what ends them
(R68 to R83), and the resets of the physical function (R99). -/

namespace Sys2Proof.Machine

/-- The section under which clearing `n` runs (R70). -/
def sectionInForce (s : State) (n : Nat) : Option ClearingCfg :=
  if defined s n then some (getClr s n).cfg else none

/-- The staged section of clearing `n` differs from the one in force (R70). -/
def sectionDiffers (s : State) (im : Image) (n : Nat) : Bool :=
  match imageClearing im n, sectionInForce s n with
  | none, none => false
  | some a, some b =>
    !(a.bytes == b.bytes && a.workBytes == b.workBytes && a.tables == b.tables &&
      mapPositions im.map n == mapPositions (mapAhead s) n)
  | _, _ => true

/-- IMG_PENDING against a newly staged image (R70). -/
def pendingMask (s : State) (im : Image) : BitVec 64 := maskOf 64 (allClearings.filter (sectionDiffers s im))

/-- `s` with `f` applied to the image machinery. -/
def updImg (s : State) (f : Img → Img) : State := { s with img := f s.img }

/-- Measurement `i` is reported again where its value has changed since `was`, from the first tick on (R405). -/
def remeasure (was : State) (i : Nat) (s : State) : State :=
  if running s && measureValue was i != measureValue s i then measure s i else s

/-- The staging area empties (R73, R74). -/
def emptyStaging (s : State) : State := updImg s fun i => { i with staged := none, differs := false, pending := 0 }

/-- An image command under way ends with a code; a reset of the physical function that waited for it
then empties the staging area, unless the device runs mixed (R82, R99). -/
def endImgCmd (s : State) (c : Code) : State :=
  let s := updImg s fun i => { i with code := c, busy := false, loading := none, flashing := none }
  if s.img.resetAfter then
    let s := updImg s fun i => { i with resetAfter := false }
    if s.img.mixed then s else emptyStaging s
  else s

/-- The reads of a host buffer by the physical function without a PASID, at most 4,096 B each and none
across a 4 KiB boundary (R69, R96); their tags are the model's (log entry 10). -/
def hostReadSpan : Nat → State → Nat → Nat → State
  | 0, s, _, _ => s
  | fuel + 1, s, addr, len =>
    if len = 0 then s
    else
      let k := min len (4096 - addr % 4096)
      hostReadSpan fuel (emit s (.hostRead 0 none 0 addr k 0)) (addr + k) (len - k)

/-- LOAD begins (R69). -/
def imgLoadBegin (s : State) : State :=
  if s.img.mixed then endImgCmd s qsImgMixed
  else
    let s := updImg s fun i => { i with busy := true, loading := some i.len }
    hostReadSpan (s.img.len / 4096 + 2) s s.img.src.toNat s.img.len

/-- The block's own WRITEs of the staging area at local plot address 0x0500_0000, a granule each, and the READs by which
its contents are validated (R123, R132, R529; log entry 33). -/
def stageTraffic (s : State) (bs : List Byte) : State :=
  let at' := fun i => 0x05000000 + 256 * i
  let is := List.range ((bs.length + 255) / 256)
  updQue s fun u => { u with
    ownWait := u.ownWait ++ is.map (fun i => ownReq (.own 0) true (at' i) (sliceAt bs (256 * i) 256)) ++
      is.map fun i => ownReq (.own 0) false (at' i) [] }

/-- LOAD's read has ended (R62, R64, R69). -/
def imgLoadEnd (s : State) (r : HostRead) : State :=
  match s.img.loading, r with
  | none, _ => s
  | some _, .failed => endImgCmd s qsImgHostRead
  | some len, .bytes bs =>
    let s := stageTraffic s (bs.take len)
    match validateImage (bs.take len) (some len) s.boot.lc s.boot.settings.minSvn s.boot.settings.signers with
    | .error f => endImgCmd (updImg s fun i => { i with errSection := f.sect, errOffset := f.offset }) f.code
    | .ok im =>
      let differs := match s.img.force with | none => true | some a => !sameDevice a im
      endImgCmd (updImg s fun i => { i with staged := some im, differs := differs, pending := pendingMask s im }) qsOk

/-! APPLY (R71, R72). -/

/-- A resource of the staged section is held by another clearing or awaits scrub (R71). -/
def resourceHeld (s : State) (im : Image) (n : Nat) (g : ClearingCfg) : Bool :=
  let others := ((definedClearings s).filter (· != n)).map fun m => (getClr s m).cfg
  let positions := mapPositions im.map n
  let taken := fun (m : List Nat) => positions.any fun i => m.getD i 0x40 != n && m.getD i 0x40 != 0x40
  others.any (fun o =>
    o.pairs &&& g.pairs != 0 || o.engines &&& g.engines != 0 || rangesMeet (o.dbBase, o.dbCount) (g.dbBase, g.dbCount) ||
      rangesMeet (o.ctxBase, o.ctxCount) (g.ctxBase, g.ctxCount) ||
      rangesMeet (o.keyBase, o.keyCount) (g.keyBase, g.keyCount) ||
      o.plots.any fun r => g.plots.any fun t => rangesMeet r t) ||
  decide ((others.map (·.streamQuota)).sum + g.streamQuota > 32768) ||
  s.img.scrub.any (fun p => g.plots.any fun r => inRange r.1 r.2 p) || taken s.cal.map || taken (mapAhead s)

/-- The plots that a redefinition or removal releases, ascending (R72). -/
def releasedPlots (old : ClearingCfg) (new : Option ClearingCfg) : List Nat :=
  (plotList old).filter fun p => match new with
    | none => true
    | some g => !g.plots.any fun r => inRange r.1 r.2 p

/-- Release what clearing `n` holds (R72): its contexts, queues, stream entries, canopy, engines, key
slots, phases and plots. -/
def releaseClearing (s : State) (n : Nat) (new : Option ClearingCfg) : State :=
  let old := (getClr s n).cfg
  let s := releaseUnits s n new
  let s := forEach (ctxsOf s n) s fun s c =>
    match (getCtx s c).st with
    | .live => freeCtx (leaveLive s c .free) c
    | .draining => freeCtx s c
    | .free => s
  updImg s fun i => { i with scrub := i.scrub ++ releasedPlots old new }

/-- The map once clearing `n`'s entries stand where the staged image puts them (R71, R72). -/
def moveEntries (map : List Nat) (im : Image) (n : Nat) : List Nat :=
  (List.range 1024).map fun i =>
    if im.map.getD i 0x40 = n then n else if map.getD i 0x40 = n then 0x40 else map.getD i 0x40

/-- A core or an engine that a section grants stands fenced as failed (R36). -/
def unitFailed (s : State) (g : ClearingCfg) : Bool :=
  (maskBits g.pairs).any (fun p => coreFailed s (2 * p) || coreFailed s (2 * p + 1)) || (maskBits g.engines).any (engineFailed s)

/-- Clearing `n` is defined by section `g` of an image (R71): Closed, tunables at their initial values,
the nonce cleared, degraded where a unit granted stands failed (R36). -/
def defineClearing (s : State) (n : Nat) (g : ClearingCfg) (digest : BitVec 384) (staged : Bool) : State :=
  let was := getClr s n
  let again := was.st != .absent
  let s := setClr s n { clr0 with
    st := was.st, cfg := g, digest := digest, fromStaged := staged
    degraded := unitFailed s g, issues := if again then was.issues else 0, page := if again then was.page else []
    issuing := if again then was.issuing else none, issueAgain := again && was.issueAgain
    classes := (List.range 8).map fun i =>
      let m := (was.classes[i]?).getD meas0
      if again then { meas0 with outstanding := m.outstanding, history := m.history } else meas0 }
  let s := updWin s n fun w => { w with nonce0 := 0, nonce1 := 0 }
  reserveQuota (setClrState (resetMeas (resetTun s n) n) n .closed) n

/-- The map change of an APPLY waits for the next boundary. -/
def deferMap (s : State) (im : Image) (n : Nat) : State :=
  updCal s fun c => { c with mapNext := some (moveEntries (mapAhead s) im n) }

/-- An accepted APPLY of clearing `n` that changes it (R71, R72, R453). -/
def applyChange (s : State) (im : Image) (n : Nat) : State :=
  let was := s
  let s := if defined s n then releaseClearing s n (imageClearing im n) else s
  let s := deferMap s im n
  let s := updImg s fun i => { i with mixed := true, pending := setBit i.pending n false }
  match imageClearing im n with
  | some g =>
    let s := emptyRing (defineClearing s n g im.digest true) n
    remeasure was (0x10 + n) (if (getRing s n).emptying then s else issueManifest s n)
  | none => remeasure was (0x10 + n) (setClrState (setClr s n clr0) n .absent)

/-- The outcome of APPLY (R71): its code, and its effect. -/
def applyOutcome (s : State) (n : Nat) : Code × State :=
  match s.img.staged with
  | none => (qsImgNoneStaged, s)
  | some im =>
    if s.img.differs then (qsImgDeviceDiffers, s)
    else
      let st := (getClr s n).st
      match imageClearing im n with
      | none =>
        if st == .absent then (qsClrAbsent, s)
        else if st == .closed then (qsOk, applyChange s im n)
        else (qsClrBadState, s)
      | some g =>
        if !sectionDiffers s im n then (qsOk, s)
        else if st == .absent || st == .closed || st == .quiet then
          if resourceHeld s im n g then (qsImgResourceHeld, s) else (qsOk, applyChange s im n)
        else (qsClrBadState, s)

/-! COMMIT, FLASH, SETTINGS (R73, R74, R79, R80). -/

/-- A flash write of the image region begins: erased first, so the flash then matches nothing (R80). -/
def flashImageBegin (s : State) (bs : List Byte) : State :=
  if s.boot.flashPresent then
    emit (updImg s fun i => { i with busy := true, flashing := some (.image bs), flashImage := none })
      (.flashWrite 0x00100000 bs)
  else endImgCmd s qsImgFlash

/-- The staged image becomes the image in force (R73): clearings whose section was identical adopt it
and are reissued their manifests. -/
def commitImage (s : State) (im : Image) : State :=
  let was := s
  let same := (definedClearings s).filter fun n => !(getClr s n).fromStaged
  let s := emptyStaging (updImg s fun i => { i with force := some im, mixed := false })
  let s := forEach (definedClearings s) s fun s n => updClr s n fun c => { c with fromStaged := false, digest := im.digest }
  remeasure was 3 (remeasure was 2 (forEach same s issueManifest))

/-- COMMIT (R73). -/
def commitRun (s : State) (flash : Bool) : State :=
  match s.img.staged with
  | none => endImgCmd s qsImgNoneStaged
  | some im =>
    if s.img.differs then endImgCmd s qsImgDeviceDiffers
    else if s.img.pending != 0 then endImgCmd s qsImgPending
    else
      let s := commitImage s im
      if flash then flashImageBegin s im.bytes else endImgCmd s qsOk

/-- FLASH (R74). -/
def flashRun (s : State) : State :=
  match s.img.staged with
  | none => endImgCmd s qsImgNoneStaged
  | some im => if s.img.mixed then endImgCmd s qsImgMixed else flashImageBegin s im.bytes

/-- DISCARD (R74). -/
def discardRun (s : State) : State :=
  if s.img.mixed then endImgCmd s qsImgMixed else endImgCmd (emptyStaging s) qsOk

/-- A host-supplied settings record is acceptable (R78, R79, R129); `svn` bounds min_svn from above
where an image is in force. Without a device root there is no key to MAC it under (R387; log entry 38). -/
def settingsAllowed (s : State) (bs : List Byte) (svn : Option Nat) : Bool :=
  let t := readSettings bs
  bs.length == 512 && settingsForm bs && t.sequence == 0 && zeroAt bs 0x1D0 48 && !s.boot.rootAbsent &&
    s.boot.settings.minSvn ≤ t.minSvn && (match svn with | none => true | some v => t.minSvn ≤ v) &&
    (t.signers == s.boot.settings.signers || s.boot.lc ≤ 1 || s.boot.settingsDefault) && s.boot.lc ≤ 2

/-- The HMAC key of the settings (R387). -/
def settingsKey (s : State) : List Byte := lcKey (s.boot.root.getD []) s.boot.lc "QPF3-SET"

/-- Flash offset of the copy that the next write goes to: the other one (R77, R78); copy B where neither copy verified
(log entry 131). -/
def nextCopy (s : State) : Nat := if s.boot.copyB then 0x00010000 else 0x00020000

/-- The write of an accepted settings record begins: MACed, its sequence raised by one (R78, R79). -/
def settingsBegin (s : State) (t : Settings) : State :=
  let t := { t with sequence := s.boot.settings.sequence + 1 }
  let bs := settingsBytes (settingsKey s) t
  emit (updImg s fun i => { i with busy := true, flashing := some (.settings t bs) }) (.flashWrite (nextCopy s) bs)

/-- SETTINGS (R79): the record is read from IMG_SRC; an IMG_LEN other than 512 ends it before the read (log entry 39). -/
def settingsRun (s : State) (r : HostRead) : State :=
  let svn := s.img.force.map (·.svn)
  if s.img.len ≠ 512 then endImgCmd s qsImgLength
  else
    let s := hostReadSpan 2 s s.img.src.toNat 512
    match r with
    | .failed => endImgCmd s qsImgHostRead
    | .bytes bs =>
      if !settingsAllowed s bs svn then endImgCmd s qsImgSettings
      else if !s.boot.flashPresent then endImgCmd s qsImgFlash
      else settingsBegin s (readSettings bs)

/-- A settings record has been written (R78, R79, R129): it is in use from now on, its chip_number at
the next start-up. -/
def settingsWritten (s : State) (t : Settings) : State :=
  remeasure s 4 { s with boot := { s.boot with
      settings := t, copyB := !s.boot.copyB, settingsDefault := false
      setAValid := s.boot.setAValid || s.boot.copyB, setBValid := s.boot.setBValid || !s.boot.copyB } }

/-- A flash write and its read-back end (R80): without error, or not. -/
def flashEnd (s : State) (ok : Bool) : State :=
  match s.img.flashing, ok with
  | none, _ => s
  | some _, false => endImgCmd (updImg s fun i => { i with flashImage := none }) qsImgFlash
  | some (.image bs), true => endImgCmd (updImg s fun i => { i with flashImage := some bs }) qsOk
  | some (.settings t _), true => endImgCmd (settingsWritten s t) qsOk

/-! IMG_CMD (R75, R81). -/

/-- IMG_CMD's field checks and R75, then the command itself; its outcome goes to IMG_STATUS.code alone. -/
def imgCommand (q : Requester) (w : Word) (r : HostRead) (s : State) : State :=
  globalCmd q s fun s =>
    let op := field w 0 4
    let n := field w 8 6
    checked
      [(noBits w (bitsFrom 5 7 ||| bitsFrom 14 63), qsReservedNonzero),
       (1 ≤ op && op ≤ 6 && (op == 3 || !wbit w 4) && (op == 2 || n == 0), qsIllegalValue),
       (!s.img.busy, qsImgBusy)]
      s fun _ => match op with
        | 1 => imgLoadBegin s
        | 2 => endImgCmd (applyOutcome s n).2 (applyOutcome s n).1
        | 3 => commitRun s (wbit w 4)
        | 4 => discardRun s
        | 5 => flashRun s
        | _ => settingsRun s r

/-- LOAD (R69). -/
def execImgLoad (q : Requester) (w : Word) (s : State) : Result := .next (imgCommand q (putField w 0 4 1) .failed s)

/-- LOAD_DONE (R69): the host's answer to LOAD's reads. -/
def execImgLoadDone (r : HostRead) (s : State) : Result := .next (imgLoadEnd s r)

/-- APPLY (R71). -/
def execImgApply (q : Requester) (w : Word) (s : State) : Result := .next (imgCommand q (putField w 0 4 2) .failed s)

/-- COMMIT (R73). -/
def execImgCommit (q : Requester) (w : Word) (s : State) : Result := .next (imgCommand q (putField w 0 4 3) .failed s)

/-- DISCARD (R74). -/
def execImgDiscard (q : Requester) (w : Word) (s : State) : Result := .next (imgCommand q (putField w 0 4 4) .failed s)

/-- FLASH (R74). -/
def execImgFlash (q : Requester) (w : Word) (s : State) : Result := .next (imgCommand q (putField w 0 4 5) .failed s)

/-- SETTINGS (R79): `r` is the host's answer to the read of the 512-byte record. -/
def execImgSettings (q : Requester) (w : Word) (r : HostRead) (s : State) : Result :=
  .next (imgCommand q (putField w 0 4 6) r s)

/-- PLOT_SCRUB_DONE (R72): the last WRITE of the plot first in order has been answered. -/
def plotScrubDone (s : State) (p : Nat) : State :=
  match s.img.scrub with
  | [] => s
  | x :: r =>
    if x = p && s.img.scrubNext == 1048576 && s.img.scrubOut == 0 then updImg s fun i => { i with scrub := r, scrubNext := 0, scrubOut := 0 }
    else s

/-- PLOT_SCRUB_DONE (R72, R83). -/
def execPlotScrubDone (plot : Nat) (s : State) : Result := .next (plotScrubDone s plot)

/-! Resets of functions (R91, R92, R98, R99, R141). -/

/-- FUNCTION_LEVEL_RESET (R98): hp_flr bit `f`. -/
def execFunctionLevelReset (f : Nat) (s : State) : Result :=
  .next (if 1 ≤ f && f ≤ 64 && s.boot.phase != .reset then functionReset s f else s)

/-- Every RW field of the global control space takes its reset value, but for those that R99 excepts. -/
def globalFields (s : State) : State :=
  let s := updImg s fun i => { i with src := 0, len := 0 }
  let s := updTbl s fun u => { u with port := { u.port with words := tblPort0.words }, privQ := 0, hold := 100, holdWas := none }
  let s := updXlt (updSch s fun u => { u with passwd := 10 }) fun x => { x with timeout := 10000, stage0 := 0, stage1 := 0 }
  let s := forEach (s.ls.map (·.1)) s fun s n => updLs s n fun l => { l with partner := 0, enable := false, timeout := 100 }
  forEach (definedClearings s) s fun s n => resetTun (reserveQuota s n) n

/-- Host tags quarantined under R459 are free again. -/
def freeQuarantine (s : State) : State :=
  updXlt s fun x => { x with hostOut := x.hostOut.filter fun kv => match kv.2 with
    | some o => o.use != .dead
    | none => false }

/-- The manifest of every clearing whose listed tunables are no longer those of `was` is reissued (R38, R67). -/
def issueRetuned (was s : State) : State :=
  forEach (definedClearings s) s fun s n =>
    let x := (getClr was n).tun
    let y := (getClr s n).tun
    if x.target != y.target || x.budget != y.budget then issueManifest s n else s

/-- Written share weights of clearing `n` that await their boundary are discarded (R67, R99). -/
def dropWeights (s : State) (n : Nat) : State :=
  forEach ((ctxsOf s n).filter fun c => (getCtx s c).weightNext.isSome) s fun s c => updCtx s c fun k => { k with weightNext := none }

/-- Clearings on their way from Fenced to Closed. -/
def inReset (s : State) (n : Nat) : Bool := (getClr s n).st == .fenced || (getClr s n).st == .resetting

/-- The acts of R99 on the block: the staging area, every clearing's reset event, the global RW fields,
the tunables, the manifests, and what R380, R430 and R459 give up. -/
def physicalReset (s : State) (fs : List Nat) : State :=
  let s := if s.img.busy then updImg s fun i => { i with resetAfter := true }
    else if s.img.mixed then s else emptyStaging s
  let s := forEach (definedClearings s) s fun s n => resetEvent s n 2
  let s := issueRetuned s (globalFields (forEach fs (freeQuarantine s) functionGone))
  let s := forEach (definedClearings s) s dropWeights
  flrRaise { s with err := { s.err with
    flrWait := s.err.flrWait ++ fs.map (fun f => (f, none)), slowDue := maskOf 64 (allClearings.filter (inReset s)) } }

/-- Before the first tick a reset of functions abandons a boot delivery that still reads, and is done
within 1 µs (R141); mailbox 0's acknowledgement is the caller's. -/
def earlyReset (s : State) (fs : List Nat) : State := forEach fs s fun s f => emit (requesterGone s (funcRequester f)) (.flrDone f)

/-- The functions that the device presents: 0 and the virtual functions (R91). -/
def liveFuncs (s : State) : List Nat := List.range (s.glob.numVfs + 1)

/-- VF_ENABLE_CHANGE (R91, R92): every clearing whose serving function changes receives the reset event, as under a
Function Level Reset of the function that has served it, before any request carries the new function; the virtual functions
that go away end as under one (R380, R430). -/
def vfEnable (s : State) (k : Nat) : State :=
  let moved := (definedClearings s).filter fun n => servingFunc s n != (if n < k then n + 1 else 0)
  let gone := ((List.range 65).filter fun f => k < f && f ≤ s.glob.numVfs)
  let s := forEach gone (forEach moved s fun s n => resetEvent s n 2) functionGone
  { s with glob := { s.glob with numVfs := k } }

/-- VF_ENABLE_CHANGE (R92). -/
def execVfEnableChange (numVfs : Nat) (s : State) : Result := .next (if inert s then s else vfEnable s (min numVfs 64))

/-- Plots of clearing `n` in which some granule is still to zero (R472). -/
def plotsToZero (s : State) (n : Nat) : Nat :=
  let c := getClr s n
  let pos := fun p => match c.fence with | none => 0 | some f => tabGet 0 f.zeroPos p
  ((plotList c.cfg).filter fun x => allPchs.any fun p => (rowInPlot p (pos p) x).isSome).length

/-- RESET_SLOW (R34, R472): clearing `n`, reset by R98 or R99, is not Closed after 100 ms. hp_flr_done rises for the
functions that wait on it, and one record is written for each such clearing. -/
def resetSlow (s : State) (n : Nat) : State :=
  let waits := fun (w : Nat × Option Nat) => w.2 == some n || w.2.isNone
  if inReset s n && (s.err.slowDue.getLsbD n || s.err.flrWait.any waits) then
    let fs := (s.err.flrWait.filter waits).map (·.1)
    let s := raise s { newRec s qsErrResetSlow 1 13 n (plotsToZero s n) 0 0 with clearing := some n }
    let s := { s with err := { s.err with flrWait := s.err.flrWait.filter (fun w => !waits w), slowDue := setBit s.err.slowDue n false } }
    forEach fs s fun s f => emit s (.flrDone f)
  else s

/-- RESET_SLOW (R472). -/
def execResetSlow (n : Nat) (s : State) : Result := .next (resetSlow s n)

end Sys2Proof.Machine
end

