-- ==== Sys2Proof/Machine/BringUp.lean ====
section
/-! DEFINITION. Resets and the start-up sequence: its phases, Bare and the boot mailbox, failures and
the first tick (R90, R123 to R148). -/

namespace Sys2Proof.Machine

/-- `s` with `f` applied to the start-up fields. -/
def updBoot (s : State) (f : Boot → Boot) : State := { s with boot := f s.boot }

/-! Resets (R90, R125, R526). -/

/-- What warm_rst_n leaves of a ring (R90, R453): a ring that an APPLY was emptying is empty. -/
def warmRing (g : ErrRing) : ErrRing :=
  if g.emptying then ring0
  else { ring0 with head := g.head, tail := g.tail, lost := g.lost, coalesced := g.coalesced, entries := g.entries }

/-- The state that warm_rst_n leaves: what R90 keeps, and reset values otherwise (R526). -/
def warmState (s : State) : State :=
  let last := if running s then some s.clk.postmark else s.clk.lastPostmark
  let r : State := { State.reset with
    clk := { clk0 with lastPostmark := last }
    boot := { boot0 with resetHeld := 1 }
    ctx := tabMap ctx0 (fun k => { ctx0 with gen := k.gen }) s.ctx
    err := { err0 with
      dumpValid := s.err.dumpValid, dumpBusy := s.err.dumpBusy, dumpCause := s.err.dumpCause
      dumpPostmark := s.err.dumpPostmark, missed := s.err.missed, dump := s.err.dump }
    rings := tabMap ring0 warmRing s.rings
    glob := { glob0 with signs := s.glob.signs }, tap := { tap0 with dmiCount := s.tap.dmiCount }
    out := s.out, pending := s.pending }
  let m := getMbx s 0
  openCclk { r with
    key := { key0 with failures := s.key.failures, lockedOut := s.key.lockedOut }
    trl := { trail0 with soloNext := s.trl.soloNext }
    mbx := tabSet mailbox0 [] 0 { mailbox0 with
      data := m.data, seq := m.seq, posted := m.posted, frankSender := m.frankSender, frankSeq := m.frankSeq, frankPostmark := m.frankPostmark } }

/-- The state that por_n leaves: everything at its reset value, the always-on domain included; the model's own trace,
queue and counts of free values go on. -/
def powerOnState (s : State) : State :=
  { State.reset with
    glob := { glob0 with signs := s.glob.signs }, tap := { tap0 with dmiCount := s.tap.dmiCount }, out := s.out
    pending := s.pending }

/-- POWER_ON_RESET (R90, R125). -/
def execPowerOnReset (s : State) : Result := .next (powerOnState s)

/-- WARM_RESET (R90, R125). -/
def execWarmReset (s : State) : Result := .next (warmState s)

/-! The phases (R123). -/

/-- Go to Stopped with a cause (R145, R146): outputs return to their reset values, and held records are
never written (R139). -/
def stopBoot (s : State) (cause detail whr : Nat) : State :=
  let s := updBoot s fun b => { b with
    phase := .stopped, cause := cause, detail := BitVec.ofNat 16 detail, where' := whr, wheelOn := false, delivery := none }
  { s with err := { s.err with held := [] } }

/-- A cause noted while the sequence goes on stays until the next start-up; the first one stands (R145; log entry 129). -/
def noteCause (s : State) (cause : Nat) (detail : Code) : State :=
  if s.boot.cause = 0 then updBoot s fun b => { b with cause := cause, detail := detail } else s

/-- RESET_DEASSERTED (R123, R147): phase 1 begins; the PUF SRAM's state is captured and domain 76 powered. -/
def resetDeasserted (s : State) (puf : List Bool) : State :=
  if s.boot.phase == .reset && s.boot.resetHeld != 0 then
    powerRequest (updBoot s fun b => { b with phase := .rom, puf := puf, warm := b.resetHeld == 1, resetHeld := 0 }) 76 .on
  else s

/-- RESET_DEASSERTED (R123). -/
def execResetDeasserted (puf : List Bool) (s : State) : Result := .next (resetDeasserted s puf)

/-- ROM_PHASE_END (R123): domain 76 is On, hp_t_ready can rise, and phase 2 begins. -/
def execRomPhaseEnd (s : State) : Result :=
  .next (if s.boot.phase == .rom && (getDom s 76).st == .on then updBoot s fun b => { b with phase := .root } else s)

/-- The event of R139 that the start-up met: 1 xSPI fallback, 2 default settings. -/
def startupRec (s : State) (what lines : Nat) : State := raise s (newRec s qsErrStartup 0 0 0 what lines 0)

/-- What the pin test of R122 finds: the lines shorted, then the faulty ones, bit i for io[i] and bit 8 for xspi_dqs. -/
def shortedLines (i : RootInputs) : BitVec 8 := ~~~ i.drive1 ||| i.drive0

/-- As `shortedLines`: shorted or, in 8D-8D-8D mode where SFDP advertises it, open. -/
def faultyLines (i : RootInputs) : BitVec 9 :=
  (shortedLines i).setWidth 9 ||| (if i.signature && i.octal then i.pulled else 0)

/-- R122: no flash can be used. -/
def flashLost (i : RootInputs) : Bool := !i.signature || (faultyLines i).getLsbD 0 || (faultyLines i).getLsbD 1

/-- R120, R122, R127: the flash as the pin test and SFDP leave it. -/
def findFlash (s : State) (i : RootInputs) : State :=
  let s := updBoot s fun b => { b with shorted := shortedLines i }
  if flashLost i then
    if s.boot.lc = 0 then noteCause (updBoot s fun b => { b with flashPresent := false, rootAbsent := true }) 1 0
    else stopBoot s 1 0 0
  else
    let bad := faultyLines i
    let mode : FlashMode := if i.octal && bad == 0 then .octal else .single
    let s := updBoot s fun b => { b with flashPresent := true, flashLog2 := i.sizeLog2, flashMode := mode }
    if bad != 0 then startupRec s 1 bad.toNat else s

/-- R128: regenerate the device root. -/
def findRoot (s : State) (i : RootInputs) : State :=
  if !s.boot.flashPresent then s
  else
    let h := i.helper
    let pass := if byteAt h 0x8000 = 1 then some (sliceAt h 0x8010 16, sliceAt h 0x8020 48) else none
    let s := updBoot s fun b => { b with pass := pass }
    match regenRoot s.boot.puf h with
    | some root => updBoot s fun b => { b with root := some root }
    | none => if s.boot.lc = 0 then noteCause (updBoot s fun b => { b with rootAbsent := true }) 3 0 else stopBoot s 3 0 0

/-- R129: the copy of the settings that verifies and has the higher sequence, else the defaults. -/
def chooseSettings (s : State) (i : RootInputs) : State :=
  let good := fun (bs : List Byte) => !s.boot.rootAbsent && settingsVerify (settingsKey s) bs
  let a := readSettings i.copyA
  let b := readSettings i.copyB
  let useB := good i.copyB && (!good i.copyA || a.sequence < b.sequence)
  let none' := !good i.copyA && !good i.copyB
  let t := if none' then defaultSettings else if useB then b else a
  let s := updBoot s fun k => { k with
    settings := t, chip := t.chip, copyB := useB, settingsDefault := none', setAValid := good i.copyA, setBValid := good i.copyB }
  if none' then startupRec s 2 0 else s

/-- Phase 2 (R126 to R129). -/
def rootPhase (s : State) (i : RootInputs) : State :=
  let lc := min i.lc.toNat 4
  let s := updKey (updBoot s fun b => { b with lc := lc }) fun k => { k with debugOpen := lc ≤ 1 }
  if lc = 4 then stopBoot s 5 0 0
  else
    let s := findFlash s i
    let s := if s.boot.phase == .stopped then s else findRoot s i
    if s.boot.phase == .stopped then s else updBoot (chooseSettings s i) fun b => { b with phase := .memory }

/-- ROT_LC_VALID (R126): rot_lc is stable, and phase 2 runs to its end or to Stopped. -/
def execRotLcValid (inp : RootInputs) (s : State) : Result :=
  .next (if s.boot.phase == .root then rootPhase s inp else s)

/-- ROT_LC_TIMEOUT (R126). -/
def execRotLcTimeout (s : State) : Result := .next (if s.boot.phase == .root then stopBoot s 4 0 0 else s)

/-- Bare is entered with a cause (R133, R145); the boot service registers (R431). -/
def enterBare (s : State) : State := bootRegister (updBoot s fun b => { b with phase := .bare })

/-- The end of phase 3 (R130 to R132): latencies are checked, the start-up wheel runs, and phase 4
begins; with no flash it is Bare at once (R127). -/
def memoryEnd (s : State) (i : MemoryInputs) : State :=
  match (List.range 20).find? fun k => !(40 ≤ i.rdLat.getD k 0 && i.rdLat.getD k 0 ≤ 400) with
  | some k => stopBoot s 6 0 k
  | none =>
    let s := updBoot s fun b => { b with rdLat := i.rdLat, failed := i.failed.map fun p => (p, 1), wheelOn := true, phase := .image }
    let s := forEach i.failed s fun s p => updPch s p fun k => { k with failLevel := true }
    let s := { s with clk := { s.clk with tickStart := nowCclk s, refTick := nowRef s, cclk := 0, phase := 0 } }
    if s.boot.flashPresent then s else enterBare s

/-- MEMORY_PHASE_END (R130). -/
def execMemoryPhaseEnd (inp : MemoryInputs) (s : State) : Result :=
  .next (if s.boot.phase == .memory then memoryEnd s inp else s)

/-- MEMORY_PHASE_TIMEOUT (R130): a bit of mc_hold of `stack` is still 1 at 500 ms. -/
def execMemoryPhaseTimeout (stack : Nat) (s : State) : Result :=
  .next (if s.boot.phase == .memory then stopBoot s 6 0 stack else s)

/-- The first failed pseudo-channel that cannot be served: its guest failed too, or it shares a guest
with another (R130). -/
def guestTrouble (s : State) (im : Image) : Option Nat :=
  let fs := s.boot.failed.map (·.1)
  let g := fun p => p / 64 * 64 + im.guest.getD p 0
  let bad := fs.filter fun p => fs.contains (g p) || fs.any fun q => q != p && g q == g p
  let lows := bad.map fun p => if fs.contains (g p) then min p (g p) else p
  if lows = [] then none else some (leastOf lows)

/-- An image accepted in phase 4 or in Bare (R131, R134): it is in force, its sections are applied in
ascending order, failed pseudo-channels are remapped, and phase 5 follows. -/
def acceptImage (s : State) (im : Image) (inFlash : Bool) : State :=
  match guestTrouble s im with
  | some p => stopBoot s 6 0 p
  | none =>
    let s := updImg s fun i => { i with force := some im, code := qsOk, flashImage := if inFlash then some im.bytes else i.flashImage }
    let s := updCal s fun c => { c with map := im.map }
    let s := forEach im.clearings s fun s g => defineClearing s g.number g im.digest false
    let s := forEach s.boot.failed s fun s f => failPch s f.1 f.2
    updBoot s fun b => { b with phase := .scrub, scrubPos := [] }

/-- Validate a start-up image (R62, R133). -/
def startImage (s : State) (bs : List Byte) (len : Option Nat) : Except ImageFault Image :=
  validateImage bs len s.boot.lc s.boot.settings.minSvn s.boot.settings.signers

/-- FLASH_IMAGE_READ_DONE (R133): the image is accepted, or Bare is entered with cause 2. -/
def flashImageRead (s : State) (bs : List Byte) : State :=
  let s := stageTraffic s bs
  match startImage s bs none with
  | .ok im => acceptImage s im true
  | .error f =>
    let s := updImg s fun i => { i with code := f.code, errSection := f.sect, errOffset := f.offset }
    enterBare (noteCause s 2 f.code)

/-- FLASH_IMAGE_READ_DONE (R133). -/
def execFlashImageReadDone (bs : List Byte) (s : State) : Result :=
  .next (if s.boot.phase == .image then flashImageRead s bs else s)

/-- IMAGE_READ_TIMEOUT (R145): the read passed the bound of phase 4. -/
def execImageReadTimeout (s : State) : Result :=
  .next (if s.boot.phase == .image then enterBare (noteCause s 2 qsImgFlash) else s)

/-- A domain of R135 that phase 6 requests: not On, no request outstanding, no fault (R112). -/
def wantsOn (s : State) (d : Nat) : Bool := (getDom s d).st != .on && (getDom s d).req.isNone && !(getDom s d).fault

/-- STARTUP_SCRUB_DONE (R123, R124, R135): every plot from 8 on is zeroed, and phase 6 requests On for domains 72 to 79. -/
def execStartupScrubDone (s : State) : Result :=
  .next (if s.boot.phase == .scrub && scrubComplete s then
      forEach (((List.range 8).map (· + 72)).filter (wantsOn s)) (updBoot s fun b => { b with phase := .power })
        fun s d => powerRequest s d .on
    else s)

/-- The chip starts solitary (R136, R510), for a reason of R518's detail1; 4: one that writes no QS_TRL_LAUNCHED. -/
def startSolitary (s : State) (how : Nat) : State :=
  updTrl (updBoot s fun b => { b with solitary := true }) fun t => { t with training := false, how := how }

/-- Phase 7 begins (R136, R510): the Trail is trained, or the chip is solitary by TRL_CTRL.solo_next or because domain
79 has faulted. -/
def trailPhase (s : State) : State :=
  let s := updBoot s fun b => { b with phase := .trail }
  if s.trl.soloNext then startSolitary (updTrl s fun t => { t with solo := true }) 4
  else if (getDom s 79).fault then startSolitary s 4
  else trainBegin s true

/-- POWER_PHASE_END (R135, R136): every pwr_ack has come, and the Trail is trained. -/
def execPowerPhaseEnd (s : State) : Result :=
  .next (if s.boot.phase == .power && (List.range 8).all (fun i => (getDom s (72 + i)).req.isNone) then trailPhase s else s)

/-- Phase `n` passes its bound of R123 (R145): Stopped, with cause 8 where no cause has been noted before; one that has
stays (log entry 129). -/
def stopLate (s : State) (n : Nat) : State :=
  if s.boot.cause = 0 then stopBoot s 8 0 n else stopBoot s s.boot.cause s.boot.detail.toNat s.boot.where'

/-- PHASE_TIMEOUT (R145): phase 1, 2 or 5 passes its bound. -/
def phaseTimeout (s : State) : State :=
  match s.boot.phase with
  | .rom => stopLate s 1
  | .root => stopLate s 2
  | .scrub => stopLate s 5
  | _ => s

/-- PHASE_TIMEOUT (R145). -/
def execPhaseTimeout (s : State) : Result := .next (phaseTimeout s)

/-- STARTUP_BOUNDARY (R132): the start-up wheel restarts, every 10,000 ref_clk periods. -/
def execStartupBoundary (s : State) : Result :=
  .next (if s.boot.wheelOn then
      { (openCclk s) with clk := { s.clk with tickStart := nextCclk s, refTick := s.clk.refTick + 10000, cclk := 0, phase := 0 } }
    else s)

/-- TRAIL_TRAINING_TIMEOUT (R136): the link is not up within 100 ms, and the chip starts solitary. -/
def execTrailTrainingTimeout (s : State) : Result :=
  .next (if s.boot.phase == .trail && !s.trl.cameUp && s.boot.launch.isNone && !s.boot.solitary then startSolitary s 4 else s)

/-- LAUNCH_WAIT_TIMEOUT (R136): neither a launch nor a join 1 s after the link came up. -/
def execLaunchWaitTimeout (s : State) : Result :=
  .next (if s.boot.phase == .trail && s.trl.cameUp && s.boot.launch.isNone && !s.boot.solitary then startSolitary s 2 else s)

/-- The postmark of the first tick (R137). A solitary start from warm_rst_n with no postmark kept, no tick having come since
por_n, takes 0 (log entry 130). -/
def firstPostmark (s : State) : Nat :=
  match s.boot.launch, s.boot.solitary with
  | some pm, false => pm
  | _, _ => if s.boot.warm then (match s.clk.lastPostmark with | none => 0 | some p => p + 1) else 0

/-- Every context's generation advances by one at a start-up from warm_rst_n (R138). -/
def advanceGens (s : State) : State :=
  forEach (List.range 4096) s fun s c => updCtx s c fun k => { k with gen := nextGen k.gen }

/-- The first tick (R137 to R139, R148). -/
def firstTick (s : State) : State :=
  let s := openCclk s
  let held := s.err.held
  let us := holdAt 32 (nowRef s / 100)
  let s := if s.boot.warm then advanceGens s else s
  let pm := firstPostmark s
  let s := { s with clk := { s.clk with
    postmark := pm, tickStart := nextCclk s, refTick := nowRef s, cclk := 0, phase := 0 } }
  let s := updBoot s fun b => { b with phase := .running, bootUs := us, wheelOn := false }
  let s := { s with err := { s.err with held := [] } }
  let s := standingCauses (updCal s fun c => { c with poisoned := [] })
  let s := forEach held s fun s r => stageIn s globalRing r
  let s := if (getMbx s 0).receiver = 0 then s else freeLocks (removeRecv s 0) 0x80
  let s := heartbeatSend s
  let s := if s.trl.how ≤ 3 then trailRec s qsTrlLaunched 0 pm s.trl.how (if s.trl.how ≤ 1 then s.trl.who else 0) else s
  firstTickTrust (driveUrgency (overcommitNow (issueAll s)))

/-- The first tick may begin: in phase 7, once the chip is solitary, or once a launch or a join has been agreed and its instant has
come (R136, R509, R511). -/
def firstTickDue (s : State) : Bool :=
  s.boot.phase == .trail && (s.boot.solitary || (s.boot.launch.isSome && s.trl.startAt.all fun t => t ≤ now16 s))

/-- FIRST_TICK (R138). -/
def execFirstTick (s : State) : Result := .next (if firstTickDue s then firstTick s else s)

/-! Bare and the boot mailbox (R141 to R144). -/

/-- The boot message being handled is acknowledged (R143). -/
def bootAck (s : State) (c : Code) : State := ackTaken s 0 c

/-- The boot message's fields (R142): op, flash, addr, len. -/
def bootOp (ws : List Word) : Nat := field (ws.getD 0 0) 0 8

/-- Steps 1 to 3 of R143. -/
def bootChecks (s : State) : Option Code :=
  let ws := (getMbx s 0).data
  let w0 := ws.getD 0 0
  let len := field (ws.getD 2 0) 0 25
  firstBad
    [((getMbx s 0).frankSender == reqRanger, qsNotOwner),
     (noBits w0 (bitsFrom 9 63) && noBits (ws.getD 2 0) (bitsFrom 25 63) && (ws.drop 3).all (· == 0), qsReservedNonzero),
     ((bootOp ws == 1 || bootOp ws == 2) && (bootOp ws == 1 || !wbit w0 8) && field (ws.getD 1 0) 0 4 == 0, qsIllegalValue),
     (bootOp ws == 1 || len == 512, qsImgLength)]

/-- The boot service takes the message posted in mailbox 0 (R143): it is refused, or its buffer is read. -/
def bootMessage (s : State) : State :=
  let s := takeMsg s 0
  let ws := (getMbx s 0).data
  let len := field (ws.getD 2 0) 0 25
  match bootChecks s with
  | some c => ackTaken s 0 c
  | none =>
    let s := updBoot s fun b => { b with delivery := some (bootOp ws, wbit (ws.getD 0 0) 8, len) }
    hostReadSpan (len / 4096 + 2) s (ws.getD 1 0).toNat len

/-- The boot service can take a message: Bare, a message posted in mailbox 0, none being handled. -/
def bootReady (s : State) : Bool :=
  s.boot.phase == .bare && (getMbx s 0).posted && s.boot.delivery.isNone && s.img.flashing.isNone

/-- BOOT_IMAGE (R143): a boot message whose op is not SETTINGS. -/
def execBootImage (s : State) : Result :=
  .next (if bootReady s && bootOp (getMbx s 0).data != 2 then bootMessage s else s)

/-- BOOT_SETTINGS (R143): a boot message whose op is SETTINGS. -/
def execBootSettings (s : State) : Result :=
  .next (if bootReady s && bootOp (getMbx s 0).data == 2 then bootMessage s else s)

/-- An IMAGE delivered in Bare (R143, steps 5 and 6). -/
def bootImageRead (s : State) (flash : Bool) (len : Nat) (bs : List Byte) : State :=
  let s := stageTraffic s (bs.take len)
  match startImage s (bs.take len) (some len) with
  | .error f =>
    bootAck (updImg s fun i => { i with code := f.code, errSection := f.sect, errOffset := f.offset }) f.code
  | .ok im =>
    if flash then
      if s.boot.flashPresent then
        emit (updImg s fun i => { i with flashing := some (.image im.bytes), flashImage := none, staged := some im })
          (.flashWrite 0x00100000 im.bytes)
      else acceptImage (bootAck s qsImgFlash) im false
    else acceptImage (bootAck s qsOk) im false

/-- A SETTINGS record delivered in Bare (R79, R129, R143). -/
def bootSettingsRead (s : State) (bs : List Byte) : State :=
  if !s.boot.flashPresent then bootAck s qsImgFlash
  else if !settingsAllowed s bs none then bootAck s qsImgSettings
  else settingsBegin (updImg s fun i => { i with busy := false }) (readSettings bs)

/-- BOOT_DELIVERY_DONE (R143): the read of the boot message's buffer ends. -/
def bootDelivery (s : State) (r : HostRead) : State :=
  match s.boot.delivery, r with
  | none, _ => s
  | some _, .failed => bootAck (updBoot s fun b => { b with delivery := none }) qsImgHostRead
  | some (op, flash, len), .bytes bs =>
    let s := updBoot s fun b => { b with delivery := none }
    if op = 1 then bootImageRead s flash len bs else bootSettingsRead s bs

/-- BOOT_DELIVERY_DONE (R143). -/
def execBootDeliveryDone (r : HostRead) (s : State) : Result :=
  .next (if s.boot.phase == .bare then bootDelivery s r else s)

/-- A flash write of the boot service ends (R143, step 6, R80): an image is accepted all the same, and
a settings record takes effect at once. -/
def bootFlashEnd (s : State) (ok : Bool) : State :=
  let code := if ok then qsOk else qsImgFlash
  match s.img.flashing, s.img.staged with
  | some (.image bs), some im =>
    let s := updImg s fun i => { i with flashing := none, staged := none, busy := false, flashImage := if ok then some bs else none }
    acceptImage (bootAck s code) im ok
  | some (.settings t _), _ =>
    let s := updImg s fun i => { i with flashing := none, busy := false }
    let s := if ok then updBoot (settingsWritten s t) fun b => { b with chip := t.chip } else s
    bootAck s code
  | _, _ => s

/-- A flash write for a key command ends: the helper data of an enrolment, with no passphrase (R386), or a
passphrase's verifier (R415). -/
def keyFlashEnd (s : State) (ok : Bool) : State :=
  match s.key.flash with
  | none => s
  | some f =>
    let s := updKey s fun u => { u with flash := none }
    if ok then
      keyEnd (updBoot s fun b => { b with pass := match f with
        | .enrol => none
        | .pass salt ver => some (salt, ver) }) qsOk
    else keyEnd s qsImgFlash

/-- The flash write under way ends, the image machinery's or a key command's (R80). -/
def flashOpEnd (s : State) (ok : Bool) : State :=
  if s.boot.phase == .bare then bootFlashEnd s ok else if s.img.flashing.isSome then flashEnd s ok else keyFlashEnd s ok

/-- FLASH_WRITE_DONE (R80): the flash write under way, and its read-back, end without error. -/
def execFlashWriteDone (s : State) : Result := .next (flashOpEnd s true)

/-- FLASH_OP_TIMEOUT (R80): an erase, a program or the read-back failed, and the write stops. -/
def execFlashOpTimeout (s : State) : Result := .next (flashOpEnd s false)

/-- A boot delivery that still reads is abandoned by a reset of the physical function (R141). -/
def abandonDelivery (s : State) : State :=
  match s.boot.delivery with
  | none => s
  | some _ => bootAck (updBoot s fun b => { b with delivery := none }) qsImgHostRead

/-- A reset of the physical function or of the link (R99, R141). -/
def linkReset (s : State) (fs : List Nat) : State :=
  if s.boot.phase == .reset then s
  else if running s then physicalReset s fs else earlyReset (abandonDelivery s) fs

/-- PF_FUNCTION_LEVEL_RESET (R99): hp_flr bit 0. -/
def execPfFunctionLevelReset (s : State) : Result := .next (linkReset s [0])

/-- HOT_RESET (R99): hp_link_rst, which implies a reset of every function. -/
def execHotReset (s : State) : Result := .next (linkReset s (liveFuncs s))

end Sys2Proof.Machine
end

