-- ==== Sys2Proof/Machine/Flags.lean ====
section
/-! DEFINITION. The access codes of register fields (R6, R9, R11): the part of a register that an access reaches, what a
32-bit write leaves of the other half, and what a read leaves of an RC field. -/

namespace Sys2Proof.Machine

/-- The part of a register that an aligned access reaches (R6). -/
inductive Part where
  | whole | low | high
  deriving DecidableEq, Repr

/-- The part that the address and the byte enables select; none: a narrower or unaligned access (R6). -/
def accessPart (addr : Nat) (be : BitVec 8) : Option Part :=
  if be = 0xFF ∧ addr % 8 = 0 then some .whole
  else if be = 0x0F ∧ addr % 8 = 0 then some .low
  else if be = 0xF0 ∧ addr % 8 = 4 then some .high
  else none

/-- The bits that a part reaches. -/
def partMask : Part → Word
  | .whole => bitsFrom 0 63
  | .low => bitsFrom 0 31
  | .high => bitsFrom 32 63

/-- The word that a write of a part leaves: the other half stays (R6). -/
def mergePart (p : Part) (old w : Word) : Word := (old &&& ~~~ partMask p) ||| (w &&& partMask p)

/-- Bits [31:0] are reached. -/
def reachesLow (p : Part) : Bool := p != .high

/-- Bits [63:32] are reached. -/
def reachesHigh (p : Part) : Bool := p != .low

/-! RC fields (R9, R11). -/

/-- An RC field in bits [31:0] after a read of a part: what it was at the cclk's start, `old`, is taken off (R9, R11). -/
def rcLow (p : Part) (old now : Nat) : Nat := if reachesLow p then now - old else now

/-- An RC field in bits [63:32] after a read of a part. -/
def rcHigh (p : Part) (old now : Nat) : Nat := if reachesHigh p then now - old else now

/-- What a read of a part leaves of an RC field of `len` bits from bit `lo` on, which crosses the halves. -/
def rcRest (p : Part) (lo len v : Nat) : Nat := field (mergePart p (word (v * 2 ^ lo)) 0) lo len

/-- Such a field after a read of a part: the bits read clear, and what came in this cclk counts on from there. -/
def rcCross (p : Part) (lo len old now : Nat) : Nat := rcRest p lo len (holdAt len old) + (now - old)

/-- An RC field in bits [63:32] that holds the greatest value so far, after a read of a part: the greatest value that came
in this cclk, `late`, lands after the clear (R11). -/
def rcMax (p : Part) (late now : Nat) : Nat := if reachesHigh p then late else now

/-- An RC count in its field: the register shows it held at the field's greatest value. The state keeps the whole count of
events, so that a read loses none that came in its own cclk (R11). -/
def countAt (lo len n : Nat) : Nat × Nat × Nat := (lo, len, holdAt len n)

/-- A register of two RC counts of 32 bits. -/
def counts (low high : Nat) : Word := pack [countAt 0 32 low, countAt 32 32 high]

end Sys2Proof.Machine
end

