-- ==== Sys2Proof/Machine/Recovery.lean ====
section
/-! DEFINITION. The end of tasks (R239), and recovery: power-domain faults (R112, R438), control-core exceptions and
halts (R471, R473), fence timeouts (R459), the crash dump and ERR_CMD (R468, R477 to R483), ring heads (R486). -/

namespace Sys2Proof.Machine

/-! The end of a task. -/

/-- The end completion of a task, with its accounting record where its queue has a ring for them (R229, R230). -/
def endItem (s : State) (k : Task) (i : CplItem) : CplItem :=
  { i with
    last := true, expired := i.expired || k.expired, late := i.late || k.lateTicks != 0
    acct := if (getQueue s k.queue).acctBase = 0 then [] else taskRecord s k }

/-- TASK_END (R239): every envelope has its outcome and no core is held, and the last completion is produced; the
task ends as it is written. -/
def taskEnd (s : State) (t : Nat) : State :=
  match getTask s t with
  | none => s
  | some k => match k.held with
    | none => s
    | some i =>
      if k.fenced || !taskOver s t k then s
      else queueSettle (addLast (updTask s t fun k => { k with held := none }) k.queue (endItem s k i)) k.queue

/-- TASK_END (R239). -/
def execTaskEnd (task : Nat) (s : State) : Result := .next (taskEnd s task)

/-! Halts (R471, R473). -/

/-- ABORT of group `g` leaves the chip (R477). -/
def abortGroup (s : State) (g : Nat) : State :=
  match groupClearings s g with
  | n :: _ => sendAbort s n g none
  | [] =>
    if s.boot.solitary then s
    else if s.trl.up then raise (emit s (abortFrame s g)) (newRec s qsErrAborted 2 13 0 g s.boot.chip 0)
    else raise (updTrl s fun t => { t with unsent := t.unsent + 1 }) (newRec s qsTrlAbortUnsent 1 13 0 g 0 0)

/-- The clearings that a halt fences (R473). -/
def haltFences (s : State) : List Nat :=
  allClearings.filter fun n => match (getClr s n).st with
    | .closed | .opened | .quiescing | .quiet => true
    | .absent | .fenced | .resetting => false

/-- A halt with a cause (R473): the flag and the record, a fence of every clearing that serves, the dump, and an abort
for every valid ERR_AGROUP(n); a fence sends its own. -/
def halt (s : State) (c : Code) : State :=
  let s := raiseWide { s with err := { s.err with halted := true, cause := c } }
    (newRec s qsErrHalted 3 0 0 c.toNat 1 0) (definedClearings s)
  let fenced := haltFences s
  let s := triggerDump (forEach fenced s fun s n => beginFence s n 4) c
  forEach (allClearings.filter fun n => !fenced.contains n && wbit (tabGet 0 s.err.group n) 16) s fun s n =>
    sendAbort s n (field (tabGet 0 s.err.group n) 0 16) (some 0)

/-! Power faults (R112, R438). -/

/-- What a fault of domain `d` takes with it (R135, R145, R430, R438, R471). -/
def faultEffect (s : State) (d : Nat) : State :=
  if d < 64 then forEach (pairCores d) s fun s c => failCore s c 3
  else if d < 72 then forEach (groupEngines d) s fun s e => failEngine s e 3
  else if d = 79 then
    let s := trailOff s
    if s.boot.phase == .trail && !s.boot.solitary then startSolitary s 4
    else if running s then updBoot s fun b => { b with solitary := true }
    else s
  else if s.boot.phase == .rom || s.boot.phase == .power then stopBoot s 7 0 d
  else if d = 77 then requesterGone (requesterGone s 0x82) 0x83
  else halt s qsErrPowerFault

/-- Domain `d` faults, in the manner of detail1: 1 pwr_state 0b11, 2 pwr_fault, 3 no pwr_ack; it is treated as Off
(R112, R438). -/
def domainFault (s : State) (d how : Nat) : State :=
  let sev := if (72 ≤ d && d ≤ 76) || d = 78 then 3 else 1
  let st := if how = 1 then 3 else powerNum (getDom s d).st
  let s := raise s (newRec s qsErrPowerFault sev 6 d st how 0)
  let s := updCc s fun v => { v with faultSet := setBit v.faultSet d true }
  let s := updDom s d fun x => { x with fault := true, st := .off, req := none, cycle := false }
  faultEffect (domainDown s d) d

/-- POWER_FAULT (R112, R438). -/
def execPowerFault (d : Nat) (state3 : Bool) (s : State) : Result :=
  .next (heard s fun s => if d < 80 then domainFault s d (if state3 then 1 else 2) else s)

/-- POWER_ACK_TIMEOUT (R112): no pwr_ack within 1 ms of the request outstanding. -/
def execPowerAckTimeout (d : Nat) (s : State) : Result :=
  .next (heard s fun s => if d < 80 && (getDom s d).req.isSome then domainFault s d 3 else s)

/-! Control cores (R430, R471, R479). -/

/-- FW_EXCEPTION (R471): of control core 0 or 1 a halt; of 2 or 3 a dump, and domain 77 is cycled through Off. -/
def fwException (s : State) (t : FwTrap) : State :=
  if 4 ≤ t.core then s
  else
    let s := raise s (newRec s qsErrFwFault (if t.core ≤ 1 then 3 else 1) 9 t.core t.mcause.toNat t.mepc.toNat t.mtval.toNat)
    if t.core ≤ 1 then halt s qsErrFwFault
    else
      let s := triggerDump s qsErrFwFault
      let s := updDom s 77 fun x => { x with cycle := x.st != .off, target := .on }
      requesterGone (requesterGone s 0x82) 0x83

/-- FW_EXCEPTION (R471). -/
def execFwException (t : FwTrap) (s : State) : Result := .next (fwException s t)

/-! Fence timeouts (R459). -/

/-- An hp_i read of clearing `n`'s fence is still unanswered. -/
def hostLate (n : Nat) (kv : Nat × Option HostOut) : Bool :=
  match kv.2 with
  | some o => hostWaits o && o.n == n
  | none => false

/-- An fo_ request of clearing `n`'s fence is still unanswered. -/
def fabLate (n : Nat) (kv : Nat × Option FabOut) : Bool :=
  match kv.2 with
  | some o => fabWaits o && o.n == n
  | none => false

/-- The record of a fence timeout on the host port (source 4) or the fabric port (source 5). -/
def timeoutRec (s : State) (n : Nat) (x : ErrRec → ErrRec) (source count : Nat) : State :=
  if count = 0 then s else raise s (x { newRec s qsErrFenceTimeout 1 source 0 count 0 0 with clearing := some n })

/-- The access that waits for a quarantined tag is over. -/
def dropWaiting (s : State) (use : Option Nat) : State :=
  match use with
  | some id => dropAcc s id
  | none => s

/-- An hp_i tag is quarantined. -/
def quarantineHost (s : State) (t : Nat) : State :=
  match getHostOut s t with
  | none => s
  | some o =>
    let s := dropWaiting s (match o.use with
      | .acc id => some id
      | .ats _ _ _ _ | .lost _ _ | .dead => none)
    setHostOut s t (some { o with use := .dead })

/-- An fo_ tag is quarantined. -/
def quarantineFab (s : State) (t : Nat) : State :=
  match tabGet none s.xlt.fabOut t with
  | none => s
  | some o =>
    let s := dropWaiting s o.acc
    let s := match o.core with
      | some (c, g) => updCore s c fun k => { k with reqs := k.reqs.filter fun r => r.1 != g }
      | none => s
    setFabOut s t (some { o with core := none, acc := none })

/-- The hp_i and fo_ tags that `host` and `fab` name are quarantined, and recorded for clearing `n` and a context (R459). -/
def quarantine (s : State) (n : Nat) (x : ErrRec → ErrRec) (host : Nat × Option HostOut → Bool) (fab : Nat × Option FabOut → Bool) :
    State :=
  let hs := (s.xlt.hostOut.filter host).map (·.1)
  let fs := (s.xlt.fabOut.filter fab).map (·.1)
  let s := forEach fs (forEach hs s quarantineHost) quarantineFab
  timeoutRec (timeoutRec s n x 4 hs.length) n x 5 fs.length

/-- What still waits for an answer of a context that is torn down (R464). -/
def tornTimeout (n : Nat) (s : State) (c : Nat) : State :=
  let old := fun (d g : Nat) => d == c && g != (getCtx s c).gen
  quarantine s n (fun x => { x with ctx := some c })
    (fun kv => hostLate n kv && kv.2.any fun o => old o.ctx o.gen) (fun kv => fabLate n kv && kv.2.any fun o => old o.ctx o.gen)

/-- FENCE_TIMEOUT (R459): the fence of clearing `n`, or the teardown of each of its contexts (R464), stops waiting for host and
fabric answers. -/
def fenceTimeout (s : State) (n : Nat) : State :=
  if (getClr s n).st == .fenced then quarantine s n id (hostLate n) (fabLate n)
  else forEach ((ctxsOf s n).filter fun c => (getCtx s c).tearing) s (tornTimeout n)

/-- FENCE_TIMEOUT (R459). -/
def execFenceTimeout (n : Nat) (s : State) : Result := .next (fenceTimeout s n)

/-! The crash dump (R479, R482); what it holds is in Machine/Dump.lean. -/

/-- The writes of a host buffer by the physical function without a PASID, at most 4,096 B each and none across a 4 KiB
boundary (R69, R96, R482). -/
def hostWriteSpan : Nat → State → Nat → List Byte → State
  | 0, s, _, _ => s
  | fuel + 1, s, addr, bs =>
    if bs = [] then s
    else
      let k := 4096 - addr % 4096
      hostWriteSpan fuel (emit s (.hostWrite 0 none 0 addr (bs.take k))) (addr + k) (bs.drop k)

/-- DUMP_COPY_DONE (R482): every host write of the copy has been accepted. -/
def execErrDumpCopyDone (ok : Bool) (s : State) : Result :=
  .next (if ok && s.err.copying then { s with err := { s.err with copying := false, resDone := true } } else s)

/-! ERR_CMD (R468, R470, R477, R482, R483). -/

/-- ERR_RESULT shows whether the operation is done. -/
def errDone (d : Bool) (s : State) : State := { s with err := { s.err with resDone := d } }

/-- The effect of an ERR_CMD that is accepted. -/
def errEffect (s : State) (op unit group : Nat) : State :=
  match op with
  | 1 =>
    let s := triggerDump s Config.commandedDumpCause
    errDone false { s with err := { s.err with resBusy := true } }
  | 2 =>
    let s := hostWriteSpan (s.err.dump.length / 4096 + 2) s s.err.dumpDst.toNat s.err.dump
    errDone false { s with err := { s.err with copying := true } }
  | 3 => errDone true { s with err := { s.err with dumpValid := false, missed := 0 } }
  | 4 => errDone true (failCore s unit 4)
  | 5 => errDone true (failEngine s unit 4)
  | _ => errDone true (localAbort (abortGroup s group) group s.boot.chip)

/-- ERR_CMD: its fields, then what R470 and R482 refuse. -/
def errCommand (q : Requester) (w : Word) (s : State) : State :=
  globalCmd q s fun s =>
    let op := field w 0 4
    let unit := field w 8 7
    let group := field w 32 16
    let r := checked
      [(noBits w (bitsFrom 4 7 ||| bitsFrom 15 31 ||| bitsFrom 48 63), qsReservedNonzero),
       (1 ≤ op && op ≤ 6 && (op == 4 || (op == 5 && unit < 64) || unit == 0) && (op == 6 || group == 0), qsIllegalValue),
       (op != 1 || !(s.err.dumpValid || s.err.dumpBusy), qsErrDumpHeld), (op != 2 || !s.err.dumpBusy, qsErrDumpHeld),
       (!(op == 2 || op == 3) || s.err.dumpValid, qsErrDumpNone), (op != 4 || !coreFailed s unit, qsErrUnitFailed),
       (op != 5 || !engineFailed s unit, qsErrUnitFailed)]
      s fun _ => errEffect s op unit group
    let refused := r.1 != qsOk
    (r.1, { r.2 with err := { r.2.err with resCode := r.1, resDone := refused || r.2.err.resDone } })

/-- DUMP (R479, R482). -/
def execErrDump (q : Requester) (w : Word) (s : State) : Result := .next (errCommand q (putField w 0 4 1) s)

/-- DUMP_COPY (R482). -/
def execErrDumpCopy (q : Requester) (w : Word) (s : State) : Result := .next (errCommand q (putField w 0 4 2) s)

/-- DUMP_RELEASE (R482). -/
def execErrDumpRelease (q : Requester) (w : Word) (s : State) : Result := .next (errCommand q (putField w 0 4 3) s)

/-- FAIL_CORE (R468). -/
def execErrFailCore (q : Requester) (w : Word) (s : State) : Result := .next (errCommand q (putField w 0 4 4) s)

/-- FAIL_ENGINE (R468). -/
def execErrFailEngine (q : Requester) (w : Word) (s : State) : Result := .next (errCommand q (putField w 0 4 5) s)

/-- ABORT (R477, R478). -/
def execErrAbort (q : Requester) (w : Word) (s : State) : Result := .next (errCommand q (putField w 0 4 6) s)

/-- ERR_WABORT (R477, R478, R486). -/
def wabortWrite (q : Requester) (n : Nat) (w : Word) (s : State) : State :=
  windowCmd q n s fun s =>
    let g := tabGet 0 s.err.group n
    checked
      [(noBits w (bitsFrom 1 63), qsReservedNonzero), (wbit w 0, qsIllegalValue), (defined s n, qsClrAbsent), (wbit g 16, qsErrNoGroup)]
      s fun _ => localAbort (sendAbort s n (field g 0 16) none) (field g 0 16) s.boot.chip

/-- ERR_WABORT (R477). -/
def execErrWabort (q : Requester) (n : Nat) (w : Word) (s : State) : Result := .next (wabortWrite q n w s)

/-! Ring heads (R486). -/

/-- A head of ring `k`: it may neither move back nor past tail. -/
def headWrite (s : State) (k : Nat) (v : Nat) : Checked :=
  let g := getRing s k
  checked [(u32sub v g.head ≤ u32sub g.tail g.head, qsErrRingRange)] s fun _ => updRing s k fun g => { g with head := v }

/-- RING_HEAD_WRITE: ERR_GPTR, or ERR_WPTR of window `n` (R483, R485, R486). -/
def ringHead (q : Requester) (n : Option Nat) (w : Word) (s : State) : State :=
  anyWindowCmd q n s fun s => headWrite s (n.getD globalRing) (field w 0 32)

/-- RING_HEAD_WRITE (R486). -/
def execRingHeadWrite (q : Requester) (n : Option Nat) (w : Word) (s : State) : Result := .next (ringHead q n w s)

end Sys2Proof.Machine
end

