-- ==== Sys2Proof/Machine/Responses.lean ====
section
/-! DEFINITION. The responses of the memory controllers (R105, R107, R448, R458): their check, and their delivery to
the source of each request (R101, R109, R176, R450, R534). -/

namespace Sys2Proof.Machine

/-- What a response says of its granule. -/
inductive MemAnswer where
  | good
  /-- Uncorrectable ECC: a READ's data is poisoned, a WRITE was done. -/
  | spoiled
  /-- A READ or WRITE that was not done: unreachable (R176), or its response is missing (R458). -/
  | lost
  deriving DecidableEq, Repr, Inhabited

/-- The response is poisoned data of a READ, or that of a failed write (R534). -/
def answerBad (r : MemReq) (a : MemAnswer) : Bool :=
  match a with
  | .good => false
  | .spoiled => !r.write
  | .lost => true

/-- A request leaves O(n, c) as its response reaches its source (R200); the zeroing of R463 was never in it. -/
def leaveOutstanding (s : State) (r : MemReq) : State :=
  match r.src with
  | .zero _ => s
  | _ => countOutstanding s r false

/-- A zeroing WRITE of released plot `p` is answered (R72). -/
def scrubAnswered (s : State) (p : Nat) : State :=
  match s.img.scrub with
  | x :: _ => if x = p then { s with img := { s.img with scrubOut := s.img.scrubOut - 1 } } else s
  | [] => s

/-- The bytes of a granule that no response brought (log entry 16). -/
def poisonData (r : MemReq) : List Byte := (List.range 256).map (Config.poisonByte r.order)

/-- The WRITE of ring `k`'s record is answered; where that lets an APPLY empty the ring, its clearing's manifest is issued
after it (R450, R453). -/
def recordAnswered (s : State) (k : Nat) : State :=
  if (getRing s k).emptying then issueManifest (ringCommit s k) k else ringCommit s k

/-- The answer of a request reaches its source. -/
def deliver (s : State) (r : MemReq) (a : MemAnswer) (data : List Byte) : State :=
  let bad := answerBad r a
  let s := leaveOutstanding s r
  match r.src with
  | .core c tag => coreRespond s c tag (bit bad) (if r.write then [] else coreData s c r.addr data)
  | .acc id _ => accMemory s id r.write bad data
  | .fabric _ tag => emit s (.fabricResp tag (bit bad) (if r.write then [] else data))
  | .errRing k => recordAnswered s k
  | .scrub p => scrubAnswered s p
  | .own 0 | .zero _ => s
  | .own (q + 1) => descArrived s q

/-- A corrected granule of pseudo-channel `h` is counted; the record is written as the tick's count reaches 1,024
(R448). -/
def countCorrected (s : State) (h : Nat) : State :=
  let k := tabGet 0 s.cal.corrected h + 1
  let s := updCal { s with err := { s.err with corrected := s.err.corrected + 1 } } fun c =>
    { c with corrected := tabSet 0 c.corrected h k }
  if k = 1024 then raise s (newRec s qsErrMemCorrected 0 3 h k 0 0) else s

/-- A record about a memory request names its clearing, and its context where the request is one of a context's (R444). -/
def reqRec (r : MemReq) (x : ErrRec) : ErrRec :=
  let own := match r.src with
    | .core _ _ | .acc _ _ | .fabric _ _ => r.clearing.isSome
    | .errRing _ | .own _ | .scrub _ | .zero _ => false
  { x with clearing := r.clearing, ctx := if own then some r.ctx else none, generation := if own then r.gen else 0 }

/-- The record of an uncorrectable response (R447). -/
def spoiledRec (s : State) (r : MemReq) : State :=
  raise s (reqRec r (newRec s qsErrMemUncorrectable 2 3 r.home r.addr (bit r.write) 0))

/-- What the ECC of a response counts and records (R447, R448). -/
def countEcc (s : State) (r : MemReq) (e : Ecc) : State :=
  match e with
  | .clean => s
  | .corrected => countCorrected s r.home
  | .uncorrectable => spoiledRec { s with err := { s.err with uncorrectable := s.err.uncorrectable + 1 } } r

/-- A response at a wrong latency, or none (R107, R458): the record, and late cause 1. -/
def latencyRec (s : State) (r : MemReq) (latency tag : Nat) : State :=
  lateCause (raise s (reqRec r (newRec s qsErrMemLatency 1 3 r.home r.gidx latency tag))) 1

/-- MEMORY_RESPONSE: every response counts its ECC (R448). One to a quarantined or discarded presentation frees its tag and is
discarded (R171, R458); any other is checked against mc_rd_lat but where a hold kept it back (R107), and delivered. -/
def memoryResponse (s : State) (stack lane tag : Nat) (ecc : Ecc) (data : List Byte) : State :=
  let key := (stack * 4 + lane) * 65536 + tag
  match tabGet none s.cal.inflight key with
  | none => s
  | some f =>
    let s := updCal s fun c => { c with inflight := tabSet none c.inflight key none }
    let s := countEcc s f.req ecc
    if f.dead then s
    else
      let took := nowCclk s - f.at'
      let s := if took = readLatency s stack || f.held then s else latencyRec s f.req took tag
      deliver s f.req (if ecc == .uncorrectable then .spoiled else .good) ((data ++ zeroBytes 256).take 256)

/-- MEMORY_RESPONSE (R107). -/
def execMemoryResponse (stack lane tag : Nat) (ecc : Ecc) (data : List Byte) (s : State) : Result :=
  .next (heard s fun s => memoryResponse s stack lane tag ecc data)

/-- MEMORY_RESPONSE_TIMEOUT (R458): a request with no response mc_rd_lat + 64 cclk after its presentation is
answered, and its tag is quarantined. -/
def memoryTimeout (s : State) (stack lane tag : Nat) : State :=
  let key := (stack * 4 + lane) * 65536 + tag
  match tabGet none s.cal.inflight key with
  | none => s
  | some f =>
    if f.dead || f.held then s
    else
      let s := updCal s fun c => { c with inflight := tabSet none c.inflight key (some { f with dead := true }) }
      deliver (latencyRec s f.req 0xFFFFFFFF tag) f.req .lost (poisonData f.req)

/-- MEMORY_RESPONSE_TIMEOUT (R458). -/
def execMemoryResponseTimeout (stack lane tag : Nat) (s : State) : Result := .next (memoryTimeout s stack lane tag)

/-- Requests of unreachable pseudo-channels are answered without a slot, mc_rd_lat after the phase that would have
served them (R176). -/
def poisonTurn (s : State) : State :=
  let due := fun (f : InFlight) => decide (f.at' + readLatency s (f.req.home / 64) ≤ nowCclk s)
  let now := s.cal.poisoned.filter due
  let s := updCal s fun c => { c with poisoned := c.poisoned.filter fun f => !due f }
  forEach now s fun s f => deliver s f.req .lost (poisonData f.req)

end Sys2Proof.Machine
end

