-- ==== Sys2Proof/Machine/RotReplies.lean ====
section
/-! DEFINITION. The RoT's replies (R401, R402, R406 to R408) and what each completes: exchanges, draws of random bytes
(R386, R413, R415) and the transition of the life cycle (R390). -/

namespace Sys2Proof.Machine

/-- An exchange ends with a code and a response in its buffer (R406, R408). -/
def xchEnd (s : State) (x : Nat) (c : Code) (rsp : List Byte) : State :=
  updXch (xchPut s x rsp) x fun r => { r with code := c, rspLen := rsp.length, busy := false, done := true }

/-- The first `n` bytes of a payload, zero past its end. -/
def payloadBytes (bs : List Byte) (n : Nat) : List Byte := (bs ++ zeroBytes n).take n

/-- Random bytes have come: for an enrolment, a passphrase's salt, or a nonce (R386, R413, R415). -/
def randomCame (s : State) (use : RandomUse) (bs : List Byte) : State :=
  match use with
  | .enrol =>
    emit (updKey s fun u => { u with flash := some .enrol }) (.flashWrite 0 (enrolBytes s.boot.puf (payloadBytes bs 64)))
  | .setpass pass =>
    let salt := payloadBytes bs 16
    let ver := passVerifier s salt pass
    emit (updKey s fun u => { u with flash := some (.pass salt ver) })
      (.flashWrite 0x8000 ([1] ++ zeroBytes 15 ++ salt ++ ver ++ zeroBytes 32688))
  | .challenge purpose =>
    let nonce := payloadBytes bs 32
    let s := xchPut s rotSelf (nonce ++ keyIdNow s)
    keyEnd (updKey s fun u => if purpose = 1 then { u with nonceDebug := some nonce } else { u with nonceLc := some nonce }) qsOk

/-- The persistent settings go into the life-cycle state `target`: written under its key, or for Retired erased
(R79, R390). -/
def settingsMoved (s : State) (target : Nat) : State :=
  if target = 4 then emit (emit s (.flashErase 0x00010000 0x10000)) (.flashErase 0x00020000 0x10000)
  else
    let t := { s.boot.settings with sequence := s.boot.settings.sequence + 1 }
    emit s (.flashWrite (nextCopy s) (settingsBytes (lcKey (s.boot.root.getD []) target "QPF3-SET") t))

/-- The RoT has acknowledged a transition to `target` (R390): key slots and copies are zeroised, settings and
passphrase follow, the command is done, and the device starts again at phase 1 as after warm_rst_n. -/
def lifeCycleMoved (s : State) (target : Nat) : State :=
  let s := settingsMoved (zeroiseSlots s allSlots) target
  let s := if s.boot.lc = 2 then emit s (.flashWrite 0x8000 [0]) else s
  let s := keyEnd s qsOk
  resetDeasserted (warmState s) s.boot.puf

/-- What a message's reply does, with its status and payload; the spec does not say what becomes of a status that is no code
of R15, and it is stored as it came (log entry 137). -/
def rotAnswer (s : State) (o : Nat) (use : RotUse) (c : Code) (bs : List Byte) : State :=
  match use with
  | .spdm => xchEnd s o c (bs.take 4096)
  | .unwrap _ => xchEnd s o c []
  | .lcAdvance target => if c = qsOk then lifeCycleMoved s target else keyEnd s qsKeyRotRefused
  | .measure _ | .akCert => s
  | .random u n => if c = qsOk then randomCame s u (payloadBytes bs n) else keyEnd s c

/-- ROT_REPLY: a reply to the message outstanding for its origin; a message of an illegal type is dropped with a
record, and any other is dropped (R401, R402). -/
def rotReply (s : State) (m : RotMsg) : State :=
  if !(1 ≤ m.type % 128 && m.type % 128 ≤ 6) then raise s (newRec s qsErrRotEvent 1 11 0 1 m.type 0)
  else if !(m.origin < 64 || m.origin = 0xFFFF) then s
  else
    let o := if m.origin = 0xFFFF then rotSelf else m.origin
    match (getRot s o).out with
    | none => s
    | some (q, r) =>
      if m.type = rotType r.use + 128 && m.seq = q then rotNext (rotAnswer s o r.use m.status m.payload) o else s

/-- ROT_REPLY (R401). -/
def execRotReply (m : RotMsg) (s : State) : Result := .next (heard s fun s => rotReply s m)

/-- A request is given up (R401). -/
def rotGiveUp (s : State) (o : Nat) (use : RotUse) : State :=
  match use with
  | .spdm | .unwrap _ => xchEnd s o qsKeyRotTimeout []
  | .lcAdvance _ | .random _ _ => keyEnd s qsKeyRotTimeout
  | .measure _ | .akCert => s

/-- ROT_TIMEOUT: no reply within 100 ms (R401). -/
def rotTimeout (s : State) (o : Nat) : State :=
  match (getRot s o).out with
  | none => s
  | some (_, r) => rotNext (rotGiveUp (updKey s fun u => { u with rotFault := true }) o r.use) o

/-- ROT_TIMEOUT (R401). -/
def execRotTimeout (origin : Nat) (s : State) : Result :=
  .next (rotTimeout s (if origin = 0xFFFF then rotSelf else origin))

end Sys2Proof.Machine
end

