-- ==== Sys2Proof/Machine/TrailLink.lean ====
section
/-! DEFINITION. The Trail link (R502 to R513, R519): training and lanes, frames, launch and joining, heartbeats and
peers; aborts that arrive (R478). -/

namespace Sys2Proof.Machine

/-! Frames that arrive (R507, R508, R510, R512). -/

/-- The chip waits in phase 7 for a launch or a join (R509). -/
def trailWaits (s : State) : Bool := s.boot.phase == .trail && !s.boot.solitary && s.boot.launch.isNone

/-- The sent time of a frame, in 1/16 ns since the reset: its age as it arrives, and the delay of this chip's link, before now (R508). -/
def sentTime (s : State) (h : FrameHead) : Nat := now16 s - (h.age + s.trl.delay)

/-- The sender of a frame is marked as a peer (R512). -/
def markPeer (s : State) (chip : Nat) : State :=
  let drift := match tabGet none s.trl.peers chip with
    | some p => p.drift
    | none => none
  updTrl s fun t => { t with peers := tabSet none t.peers chip (some ⟨s.sch.ticks, drift⟩) }

/-- A frame from a chip of the same number: a waiting chip launches solitary at once, with a record (R510). -/
def duplicateChip (s : State) : State :=
  if trailWaits s then startSolitary (trailRec s qsTrlDupChip 1 s.boot.chip 0 0) 4 else s

/-- A frame arrives: none does at a solitary chip or over a link that is down. One addressed to another chip is dropped (R507); else
its sender is a peer. -/
def frameIn (s : State) (h : FrameHead) (f : State → State) : State :=
  if s.boot.solitary || !s.trl.up then s
  else if h.src = s.boot.chip then duplicateChip s
  else if !forMe s h.dst.toNat then dropFrame s
  else f (markPeer s h.src)

/-- A frame that gives a tick length: a waiting chip whose own differs launches solitary at once (R510). -/
def tickFrame (s : State) (h : FrameHead) (us : Nat) (f : State → State) : State :=
  frameIn s h fun s =>
    if trailWaits s && us != tickUs s then startSolitary (trailRec s qsTrlTickDiffers 1 us h.src 0) 4 else f s

/-! Lanes and training (R504, R505). -/

/-- TRL_LANE.fault. -/
def laneFaultNum : LaneFault → Nat
  | .shortGround => 1
  | .shortSupply => 2
  | .openPair => 3
  | .codeErrors => 4
  | .omitted => 5

/-- Lane `l` is retired, and recorded: `when'` 0 in training, 1 while running (R518). -/
def retireLane (s : State) (l : Nat) (f : LaneFault) (when' : Nat) : State :=
  raise (updLane s l fun x => { x with st := 1, fault := laneFaultNum f }) (newRec s qsTrlLaneFault 1 10 l (laneFaultNum f) when' 0)

/-- What training found on lane `l`, whose code errors count (R519); a lane retired before stays so. A transmit lane that the partner
has not reported is retired as omitted (R504). -/
def trainedLane (rs : List LaneResult) (ok : BitVec 4) (s : State) (l : Nat) : State :=
  match rs[l]? with
  | none => s
  | some r =>
    let s := updLane s l fun x => { x with errors := x.errors + r.errors }
    if (getLane s l).st = 1 then s
    else
      let s := updLane s l fun x => { x with inverted := r.inverted, logical := r.logical % 4 }
      match r.fault with
      | some f => retireLane s l f 0
      | none => if l < 4 && !ok.getLsbD l then retireLane s l .omitted 0 else updLane s l fun x => { x with st := 0, fault := 0 }

/-- A lane works in each direction (R504). -/
def linkWorks (s : State) : Bool := lanesUp s 0 != 0 && lanesUp s 1 != 0

/-- The link delay over the echoes: (round trip − 204.8 ns) ÷ 2, of their mean, in 1/16 ns (R504; log entry 153). -/
def linkDelay (echoes : List Nat) : Nat := (10 * echoes.sum - 32768 * echoes.length) / (20 * echoes.length)

/-- TRAINING_DONE (R504): the link is up where a lane works in each direction; a running chip that has lost it records so (R513). -/
def trainingDone (s : State) (rs : List LaneResult) (ok : BitVec 4) (echoes : List Nat) : State :=
  if !s.trl.training then s
  else
    let s := forEach (List.range 8) s (trainedLane rs ok)
    let works := linkWorks s
    let s := linkLost (s.trl.lost && !works) s
    updTrl s fun t =>
      { t with
        training := false, up := works, lost := false, cameUp := t.cameUp || works
        delay := if works && echoes != [] then linkDelay echoes % 65536 else t.delay, newAt := now16 s }

/-- TRAINING_DONE (R504). -/
def execTrlTrainingDone (lanes : List LaneResult) (ok : BitVec 4) (echoes : List Nat) (s : State) : Result :=
  .next (heard s fun s => trainingDone s lanes ok echoes)

/-- Lanes have been retired while the link was up: the link is down where no lane of a direction works, with a record
on a running chip; LINK_STATE goes to the partner (R505, R513). -/
def lanesChanged (s : State) : State :=
  let s := if linkWorks s then s else linkLost true (updTrl s fun t => { t with up := false })
  trailSend s 8 Config.linkStateDst.toNat (leBytes 1 (rxOk s))

/-- LANE_FAULT (R505): the code errors seen count (R519), and the lane is retired. -/
def laneFaulted (s : State) (l : Nat) (f : LaneFault) (errors : Nat) : State :=
  if s.trl.up && l < 8 && (getLane s l).st == 0 then
    lanesChanged (retireLane (updLane s l fun x => { x with errors := x.errors + errors }) l f 1)
  else s

/-- LANE_FAULT (R505). -/
def execTrlLaneFault (lane : Nat) (f : LaneFault) (errors : Nat) (s : State) : Result := .next (heard s fun s => laneFaulted s lane f errors)

/-- LINK_STATE (R505): the transmit lanes that the partner omits are retired. -/
def linkState (s : State) (h : FrameHead) (mask : BitVec 8) : State :=
  frameIn s { h with dst := 0x8000 } fun s =>
    let out := (List.range 4).filter fun l => (getLane s l).st == 0 && !mask.getLsbD l
    if out != [] then lanesChanged (forEach out s fun s l => retireLane s l .omitted 1) else s

/-- LINK_STATE (R505). -/
def execTrlLinkState (h : FrameHead) (mask : BitVec 8) (s : State) : Result := .next (heard s fun s => linkState s h mask)

/-- RETRAIN_TIMER (R505): a link that is down trains again every 100 ms. -/
def retrainTimer (s : State) : State :=
  if !s.trl.up && !s.trl.training && !s.boot.solitary && canTrain s && (running s || s.boot.phase == .trail) then trainBegin s false
  else s

/-- RETRAIN_TIMER (R505). -/
def execTrlRetrainTimer (s : State) : Result := .next (retrainTimer s)

/-! TRL_CMD (R519). -/

/-- A write of the Trail region that R140 admits in phase 7 as well. -/
def trlCmd (q : Requester) (s : State) (body : State → Checked) : State :=
  if portClosed s then s
  else if !privileged s q then recordStatus s (homeWindow q) q qsNotOwner
  else if !running s && s.boot.phase != .trail then recordStatus s none q qsImgNotRunning
  else recordStatus (body s).2 none q (body s).1

/-- TRL_CMD: 1 RETRAIN, 2 SOLO. -/
def trailCommand (q : Requester) (w : Word) (s : State) : State :=
  trlCmd q s fun s =>
    let op := field w 0 4
    checked
      [(noBits w (bitsFrom 4 63), qsReservedNonzero), (op == 1 || op == 2, qsIllegalValue), (op != 1 || trailState s != 1, qsTrlBusy),
       (op != 2 || s.boot.phase == .trail, qsTrlNotWaiting)]
      s fun _ => if op = 2 then startSolitary s 3 else if canTrain s then trainBegin s true else s

/-- RETRAIN (R504, R519). -/
def execTrlRetrain (q : Requester) (w : Word) (s : State) : Result := .next (trailCommand q (putField w 0 4 1) s)

/-- SOLO (R136, R519). -/
def execTrlSolo (q : Requester) (w : Word) (s : State) : Result := .next (trailCommand q (putField w 0 4 2) s)

/-! Launch and joining (R509 to R511). -/

/-- The first_pm of a waiting chip (R137, R509). -/
def ownFirst (s : State) : Nat := if s.boot.warm then (match s.clk.lastPostmark with | none => 0 | some p => p + 1) else 0

/-- HELLO_TIMER (R509): every 10 µs in phase 7, once the link is up. -/
def helloTimer (s : State) : State :=
  if s.boot.phase == .trail && s.trl.up then trailSend s 1 broadcast (leBytes 8 (ownFirst s) ++ zeroBytes 2 ++ leBytes 2 (tickUs s)) else s

/-- HELLO_TIMER (R509). -/
def execTrlHelloTimer (s : State) : Result := .next (helloTimer s)

/-- HELLO (R509, R511): of a waiting chip, or of a running one to be joined; one of another state is dropped (log entry 154). -/
def helloHeard (s : State) (h : FrameHead) (pm state us : Nat) : State :=
  if 2 ≤ state then frameIn s h dropFrame
  else tickFrame s h us fun s =>
    if !trailWaits s then s
    else if state = 1 then updTrl s fun t => { t with joining := true }
    else
      let new := (tabGet none s.trl.heard h.src).isNone
      updTrl s fun t =>
        { t with heard := tabSet none t.heard h.src (some ⟨pm, now16 s⟩), newAt := if new then now16 s else t.newAt }

/-- HELLO (R509). -/
def execTrlHello (h : FrameHead) (firstPm state tickUs : Nat) (s : State) : Result := .next (heard s fun s => helloHeard s h firstPm state tickUs)

/-- Waiting chips heard in the last 1 ms, in 1/16 ns. -/
def heardLately (s : State) : List Nat :=
  (s.trl.heard.filter fun kv => match kv.2 with
    | some x => now16 s ≤ 16000000 + x.time
    | none => false).map (·.1)

/-- This chip is the launch master (R509): the lowest of the waiting chips. -/
def isMaster (s : State) : Bool := (heardLately s).all fun c => s.boot.chip ≤ c

/-- The highest first_pm heard, this chip's own included. -/
def highestFirst (s : State) : Nat :=
  s.trl.heard.foldl (fun m kv => match kv.2 with
    | some x => max m x.firstPm
    | none => m) (ownFirst s)

/-- A first tick at postmark `pm`, not before `at'`, has been agreed (R509, R511; R518: how and through whom). -/
def agree (s : State) (pm at' how who : Nat) : State :=
  updTrl (updBoot s fun b => { b with launch := some pm }) fun t => { t with startAt := some at', how := how, who := who }

/-- LAUNCH_MASTER_TIMEOUT (R509): the master has heard no new waiting chip for 20 ms, and launches 100 µs after it has sent. -/
def launchMaster (s : State) : State :=
  if trailWaits s && s.trl.up && !s.trl.joining && isMaster s && s.trl.newAt + 320000000 ≤ now16 s then
    let p := highestFirst s
    updTrl (agree (trailSend s 3 broadcast (leBytes 8 p ++ leBytes 4 100 ++ leBytes 2 (tickUs s))) p (now16 s + 1600000) 0 s.boot.chip) fun t =>
      { t with master := true }
  else s

/-- LAUNCH_MASTER_TIMEOUT (R509). -/
def execTrlLaunchMasterTimeout (s : State) : Result := .next (launchMaster s)

/-- LAUNCH (R509): a waiting chip begins its first tick 100 µs after the sent time. -/
def launchHeard (s : State) (h : FrameHead) (pm us : Nat) : State :=
  tickFrame s h us fun s => if trailWaits s then agree s pm (sentTime s h + 1600000) 0 h.src else s

/-- LAUNCH (R509); one whose lead is not 100 µs, as that of every LAUNCH is, is dropped (log entry 154). -/
def execTrlLaunch (h : FrameHead) (pm leadUs tickUs : Nat) (s : State) : Result :=
  .next (heard s fun s => if leadUs = 100 then launchHeard s h pm tickUs else frameIn s h dropFrame)

/-- k of R511: the boundary at which a waiting chip joins, counted from the heartbeat's; `ago` is the time since that
boundary, in 1/16 ns. -/
def joinStep (s : State) (pm ago : Nat) : Nat :=
  max (max 1 (ownFirst s - pm)) ((1600000 + ago + tick16 s - 1) / tick16 s)

/-- The offset of a peer's boundary of postmark `pm` from this chip's, in 1/16 ns (R512). -/
def boundaryOffset (s : State) (pm sent : Nat) : Int :=
  ((sent : Int) - 16000) - ((s.clk.refTick * 160 : Nat) + ((pm : Int) - s.clk.postmark) * tick16 s)

/-- A running chip compares boundaries with a peer's (R512): drift is recorded at most once per peer per second. -/
def checkDrift (s : State) (h : FrameHead) (pm : Nat) : State :=
  let off := boundaryOffset s pm (sentTime s h)
  if off.natAbs ≤ 1600 then s
  else
    let s := updTrl s fun t => { t with drift := true }
    match tabGet none s.trl.peers h.src with
    | none => s
    | some p =>
      let again := match p.drift with
        | none => true
        | some t => decide (16000000000 + t ≤ now16 s)
      if again then
        let s := updTrl s fun t => { t with peers := tabSet none t.peers h.src (some { p with drift := some (now16 s) }) }
        trailRec s qsTrlDrift 1 h.src (BitVec.ofInt 64 off).toNat 0
      else s

/-- HEARTBEAT (R511, R512): a waiting chip joins, a running one compares boundaries. -/
def heartbeatHeard (s : State) (h : FrameHead) (pm us : Nat) : State :=
  tickFrame s h us fun s =>
    if trailWaits s then
      let k := joinStep s pm (16000 + h.age + s.trl.delay)
      agree s (pm + k) (sentTime s h - 16000 + k * tick16 s) 1 h.src
    else if running s then checkDrift s h pm
    else s

/-- HEARTBEAT (R511). -/
def execTrlHeartbeat (h : FrameHead) (pm tickUs : Nat) (s : State) : Result := .next (heard s fun s => heartbeatHeard s h pm tickUs)

/-- PEER_LOST (R512): 4 × hb ticks have passed without a frame. -/
def peerLost (s : State) (chip : Nat) : State :=
  match tabGet none s.trl.peers chip with
  | none => s
  | some p =>
    if running s && p.tick + 4 * s.trl.hb ≤ s.sch.ticks then
      trailRec (updTrl s fun t => { t with peers := tabSet none t.peers chip none }) qsTrlPeerLost 0 chip 0 0
    else s

/-- PEER_LOST (R512). -/
def execTrlPeerLost (chip : Nat) (s : State) : Result := .next (peerLost s chip)

/-- TRAIL_FRAME_DROPPED (R507): the frame is counted where it is one to drop. -/
def execTrailFrameDropped (frame : List Byte) (s : State) : Result :=
  .next (heard s fun s => if s.trl.up && !s.boot.solitary && frameDropped s frame then dropFrame s else s)

/-- ABORT_RECEIVED (R478). -/
def execAbortReceived (h : FrameHead) (group postmark : Nat) (s : State) : Result :=
  .next (heard s fun s => frameIn s h fun s => if postmark < 2 ^ 64 then localAbort s group h.src else s)

end Sys2Proof.Machine
end

