-- ==== Sys2Proof/Machine/Lockstep.lean ====
section
/-! DEFINITION. Lock-step of a clearing with its partner (R497 to R501, R521, R522), and barriers (R514 to R516,
R520). -/

namespace Sys2Proof.Machine

/-! The digest (R498, R499). -/

/-- Ticks below this are sealed for clearing `n` (R499). -/
def sealedBelow (s : State) (n : Nat) : Nat := ((tasksOf s n).map fun t => t.2.pin).foldl min s.clk.postmark

/-- D(t) of clearing `n`. -/
def digestOf (s : State) (n t : Nat) : Nat :=
  (((getLs s n).sums.filter fun kv => kv.1 ≤ t).map (·.2)).sum % 2 ^ 128

/-- The newest sealed tick, and before any from the start on the start − 1. -/
def newestSealed (s : State) (n : Nat) : Nat :=
  let b := sealedBelow s n
  let st := (getLs s n).start
  if st < b then b - 1 else st - 1

/-- A partner's digest of tick `t` can be compared: the tick is sealed, or lies before the start. -/
def digestKnown (s : State) (n t : Nat) : Bool := t < sealedBelow s n || t < (getLs s n).start

/-- Tick `t` is older than the 1,024 ticks that clearing `n` holds. -/
def digestOld (s : State) (n t : Nat) : Bool := 1024 + t ≤ newestSealed s n

/-! Freezing (R499, R500). -/

/-- The cores that jobs of clearing `n` hold. -/
def jobCores' (s : State) (n : Nat) : List Nat := ((jobList s).filter fun j => j.2.n == n).flatMap fun j => j.2.held

/-- cp_freeze rises on every core that a job of clearing `n` holds. -/
def freezeCores (s : State) (n : Nat) : State :=
  forEach ((jobCores' s n).filter fun c => !(getCore s c).freeze && !coreFailed s c) s fun s c =>
    emit (updCore s c fun k => { k with freeze := true }) (.coreFreeze c true)

/-- The freeze of clearing `n` ends: cp_freeze falls on every core of it, whether its job still holds it or not, where no
reset is to come or under way. -/
def thawCores (s : State) (n : Nat) : State :=
  forEach ((coresOf s n).filter fun c => (getCore s c).freeze && !coreResetting s c && !coreFailed s c) s fun s c =>
    emit (updCore s c fun k => { k with freeze := false, frozen := false }) (.coreFreeze c false)

/-- Clearing `n` freezes, at the boundary that opens `p` or once it has passed, for a cause. -/
def freezeNow (s : State) (n p cause : Nat) : State :=
  freezeCores (updLs s n fun l => { l with st := .frozen, cause := cause, postmark := p, freezeAt := none, held := [] }) n

/-- A freeze whose boundary has come takes effect (R499); every core that a frozen clearing's job holds is frozen. -/
def freezeDue (s : State) (n : Nat) : State :=
  match (getLs s n).freezeAt with
  | some (p, c) => if p ≤ s.clk.postmark then freezeNow s n p c else s
  | none => if lsFrozen s n then freezeCores s n else s

/-- The record of a mismatch of tick `t` (R518). -/
def mismatchRec (s : State) (n t own other : Nat) : State :=
  raise s { newRec s qsDetLsMismatch 2 13 n t (own % 2 ^ 64) (other % 2 ^ 64) with clearing := some n }

/-- The record of a missing digest (R518). -/
def missingRec (s : State) (n : Nat) : State :=
  raise s { newRec s qsDetLsMissing 2 13 n (getLs s n).compared (getLs s n).since 0 with clearing := some n }

/-- This chip has found a mismatch (1) or a missing digest (2): LS_FREEZE names the next postmark (R499). -/
def lsFind (s : State) (n cause : Nat) : State :=
  let p := s.clk.postmark + 1
  trailSend (updLs s n fun l => { l with freezeAt := some (p, cause) }) 7 (getLs s n).partner (leBytes 1 n ++ leBytes 1 cause ++ zeroBytes 6 ++ leBytes 8 p)

/-- Lock-step of clearing `n` compares, and no freeze is on its way. -/
def lsCompares (s : State) (n : Nat) : Bool := (getLs s n).st == .comparing && (getLs s n).freezeAt.isNone

/-- Compare the partner's digest `d` of tick `t`. -/
def lsCompare (s : State) (n t d : Nat) : State :=
  if !lsCompares s n then s
  else if digestOld s n t then lsFind (missingRec s n) n 2
  else
    let own := digestOf s n t
    let s := updLs s n fun l => { l with compared := max l.compared t }
    if own = d then s else lsFind (mismatchRec s n t own d) n 1

/-- DIGEST frames held until their tick was sealed are compared. -/
def lsHeldTurn (s : State) (n : Nat) : State :=
  let ready := (getLs s n).held.filter fun x => digestKnown s n x.1
  if ready = [] then s
  else
    let s := updLs s n fun l => { l with held := l.held.filter fun x => !ready.contains x }
    forEach ready s fun s x => lsCompare s n x.1 x.2

/-- Clearings in lock-step. -/
def lsClearings (s : State) : List Nat := (s.ls.map (·.1)).filter fun n => (getLs s n).st != .off

/-- What lock-step does in a cclk: held digests, and freezes that are due. -/
def lsTurn (s : State) : State := forEach (lsClearings s) s fun s n => freezeDue (lsHeldTurn s n) n

/-- What lock-step does at a boundary: freezes, and one DIGEST of each clearing that compares (R499). -/
def lsBoundary (s : State) : State :=
  forEach (lsClearings s) s fun s n =>
    let s := freezeDue s n
    if (getLs s n).st == .comparing then
      let t := newestSealed s n
      trailSend (updLs s n fun l => { l with since := l.since + 1 }) 6 (getLs s n).partner (leBytes 6 t ++ leBytes 1 n ++ zeroBytes 1 ++ leBytes 16 (digestOf s n t))
    else s

/-- A frame from the partner of clearing `n`, while lock-step is on. -/
def fromPartner (s : State) (h : FrameHead) (n : Nat) : Bool := (getLs s n).st == .comparing && (getLs s n).partner == h.src

/-- DIGEST (R499). -/
def digestHeard (s : State) (h : FrameHead) (n t d : Nat) : State :=
  frameIn s h fun s =>
    if !fromPartner s h n then s
    else
      let s := updLs s n fun l => { l with since := 0 }
      if digestKnown s n t then lsCompare s n t d
      else updLs s n fun l => { l with held := (l.held ++ [(t, d)]).drop (l.held.length + 1 - 16) }

/-- DIGEST (R499). -/
def execTrlDigest (h : FrameHead) (n t : Nat) (d : BitVec 128) (s : State) : Result := .next (digestHeard s h n t d.toNat)

/-- LS_FREEZE (R499): the clearing freezes at the boundary that it names, with cause 3 unless it has one. -/
def freezeHeard (s : State) (h : FrameHead) (n cause p : Nat) : State :=
  frameIn s h fun s =>
    if !fromPartner s h n then s
    else match (getLs s n).freezeAt with
      | some (p0, c) => updLs s n fun l => { l with freezeAt := some (min p0 p, c) }
      | none =>
        let t := (getLs s n).compared
        let s := if cause = 1 then mismatchRec s n t (digestOf s n t) (digestOf s n t) else missingRec s n
        updLs s n fun l => { l with freezeAt := some (p, 3) }

/-- LS_FREEZE (R499). -/
def execTrlLsFreeze (h : FrameHead) (n cause postmark : Nat) (s : State) : Result := .next (freezeHeard s h n cause postmark)

/-- LOCKSTEP_TIMEOUT (R499): DET_LSCFG.timeout boundaries with no DIGEST. -/
def lockstepTimeout (s : State) (n : Nat) : State :=
  if lsCompares s n && (getLs s n).timeout ≤ (getLs s n).since then lsFind (missingRec s n) n 2 else s

/-- LOCKSTEP_TIMEOUT (R499). -/
def execLockstepTimeout (n : Nat) (s : State) : Result := .next (lockstepTimeout s n)

/-! DET_LSCMD and DET_LSCFG (R521, R522). -/

/-- START begins comparison afresh at a postmark (R500). -/
def lsBegin (s : State) (n start : Nat) : State :=
  let s := if lsFrozen s n then thawCores s n else s
  updLs s n fun l =>
    { l with
      st := .comparing, cause := 0, postmark := 0, start := start, sums := [], since := 0, compared := start - 1, held := []
      freezeAt := none }

/-- STOP (R500). -/
def lsEnd (s : State) (n : Nat) : State :=
  let s := if lsFrozen s n then thawCores s n else s
  updLs s n fun l => { l with st := .off, sums := [], held := [], freezeAt := none }

/-- DET_LSCMD: 1 START, 2 STOP. -/
def lsCommand (q : Requester) (w : Word) (s : State) : State :=
  globalCmd q s fun s =>
    let n := field w 0 6
    let op := field w 8 4
    let start := field w 16 48
    let l := getLs s n
    checked
      [(noBits w (bitsFrom 6 7 ||| bitsFrom 12 15), qsReservedNonzero), ((op == 1 || op == 2) && (op == 1 || start == 0), qsIllegalValue),
       (defined s n, qsClrAbsent), (op != 1 || l.enable, qsDetLsConfig), (op != 1 || l.st != .comparing, qsDetLsState),
       (op != 1 || s.clk.postmark < start, qsIllegalValue), (op != 1 || (s.trl.up && !s.boot.solitary), qsTrlNoLink),
       (op != 2 || l.st != .off, qsDetLsState)]
      s fun _ => if op = 1 then lsBegin s n start else lsEnd s n

/-- START (R497). -/
def execLsStart (q : Requester) (w : Word) (s : State) : Result := .next (lsCommand q (putField w 8 4 1) s)

/-- STOP (R500). -/
def execLsStop (q : Requester) (w : Word) (s : State) : Result := .next (lsCommand q (putField w 8 4 2) s)

/-- A write of DET_LSCFG(n). -/
def lscfgWrite (q : Requester) (n : Nat) (w : Word) (s : State) : State :=
  globalCmd q s fun s =>
    checked
      [(noBits w (bitsFrom 10 15 ||| bitsFrom 17 31 ||| bitsFrom 48 63), qsReservedNonzero), (defined s n, qsClrAbsent),
       ((getLs s n).st == .off, qsDetLsState), (field w 0 10 != s.boot.chip, qsDetLsConfig), (1 ≤ field w 32 16, qsIllegalValue)]
      s fun _ => updLs s n fun l => { l with partner := field w 0 10, enable := wbit w 16, timeout := field w 32 16 }

/-- DET_LSCFG_WRITE (R522). -/
def execDetLscfgWrite (q : Requester) (n : Nat) (w : Word) (s : State) : Result := .next (lscfgWrite q n w s)

/-! Barriers (R514 to R516, R520). -/

/-- An arrival is counted once per chip. -/
def addArrival (as : List (Nat × Nat)) (chip sent : Nat) : List (Nat × Nat) :=
  if as.any fun a => a.1 == chip then as else as ++ [(chip, sent)]

/-- TRL_WBARCMD (R514): ARRIVE is sent, the chip's own arrival counted, and the gate closed where asked. -/
def barrierWrite (q : Requester) (n : Nat) (w : Word) (s : State) : State :=
  windowCmd q n s fun s =>
    let b := getBar s n
    checked
      [(noBits w (bitsFrom 2 63), qsReservedNonzero), (wbit w 0, qsIllegalValue), (defined s n, qsClrAbsent), (b.valid, qsTrlBarCfg), (!b.waiting, qsTrlBarBusy),
       (b.members ≤ 1 || (s.trl.up && !s.boot.solitary), qsTrlNoLink)]
      s fun _ =>
        let s := trailSend s 4 broadcast (leBytes 2 b.group ++ zeroBytes 2 ++ leBytes 4 b.epoch)
        let s := updBar s n fun b => { b with waiting := true, arrived := addArrival b.arrived s.boot.chip (now16 s) }
        if wbit w 1 then updQue s fun u => { u with gate := setBit u.gate n true } else s

/-- TRL_WBARCMD (R514). -/
def execTrlWbarcmd (q : Requester) (n : Nat) (w : Word) (s : State) : Result := .next (barrierWrite q n w s)

/-- An ARRIVE counts for the barrier of clearing `n`: of its group, in its epoch or the next (R515). -/
def arriveAt (group epoch chip sent : Nat) (s : State) (n : Nat) : State :=
  let b := getBar s n
  if !b.valid || b.group != group then s
  else if epoch = b.epoch then updBar s n fun b => { b with arrived := addArrival b.arrived chip sent }
  else if epoch = b.epoch + 1 then updBar s n fun b => { b with early := addArrival b.early chip sent }
  else s

/-- ARRIVE (R515). -/
def arriveHeard (s : State) (h : FrameHead) (group epoch : Nat) : State :=
  let sent := sentTime s h
  frameIn s h fun s => forEach (s.bar.map (·.1)) s (arriveAt group epoch h.src sent)

/-- ARRIVE (R515). -/
def execTrlArrive (h : FrameHead) (group epoch : Nat) (s : State) : Result := .next (arriveHeard s h group epoch)

/-- The release instant of a barrier (R515): the latest sent time among the counted arrivals + D. -/
def releaseAt (b : Barrier) : Nat := ((b.arrived.take b.members).map (·.2)).foldl max 0 + 16 * b.lead

/-- BARRIER_RELEASE (R515): every member has arrived, and the release instant has come; a release more than one cclk
behind its instant is late. -/
def barrierRelease (s : State) (n : Nat) : State :=
  let b := getBar s n
  let r := releaseAt b
  if b.waiting && b.valid && b.members ≤ b.arrived.length && r ≤ now16 s then
    let late := decide (160 ≤ (now16 s - r) * cclkPerRef s)
    let s := updBar s n fun b =>
      { b with epoch := (b.epoch + 1) % 2 ^ 32, waiting := false, late := late, arrived := b.early, early := [] }
    let s := updQue s fun u => { u with gate := setBit u.gate n false }
    if late then raise s { newRec s qsTrlBarLate 1 13 n b.group ((now16 s - r) / 16) 0 with clearing := some n } else s
  else s

/-- BARRIER_RELEASE (R515). -/
def execBarrierRelease (n : Nat) (s : State) : Result := .next (barrierRelease s n)

/-- A write of TRL_BARCFG(n) (R520): arrivals of another group are not counted for the new one. -/
def barcfgWrite (q : Requester) (n : Nat) (w : Word) (s : State) : State :=
  globalCmd q s fun s =>
    let members := field w 16 5
    let lead := field w 32 13
    checked
      [(noBits w (bitsFrom 22 31 ||| bitsFrom 45 63), qsReservedNonzero), (defined s n, qsClrAbsent),
       (!wbit w 21 || (1 ≤ members && members ≤ 16 && 500 ≤ lead && lead ≤ 8000), qsIllegalValue),
       (!(getBar s n).waiting, qsTrlBarBusy)]
      s fun _ => updBar s n fun b =>
        let same := b.group == field w 0 16
        { b with
          group := field w 0 16, members := members, valid := wbit w 21, lead := lead
          arrived := if same then b.arrived else [], early := if same then b.early else [] }

/-- TRL_BARCFG_WRITE (R520). -/
def execTrlBarcfgWrite (q : Requester) (n : Nat) (w : Word) (s : State) : Result := .next (barcfgWrite q n w s)

end Sys2Proof.Machine
end

