-- ==== Sys2Proof/Machine/Ticks.lean ====
section
/-! DEFINITION. The tick boundary (R150): late ticks (R169, R170), accounting (R342 to R345), what takes effect at a
boundary, and what a cclk of the block does (the step on an empty queue). -/

namespace Sys2Proof.Machine

/-! Late ticks (R61, R89, R169, R170). -/

/-- The cclk of the tick that closes: the boundary's own belongs to the next (R150). -/
def cclkCount (s : State) : Nat := s.clk.cclk + 1

/-- The cclk count of the tick breaks R61 or R89. -/
def countBad (s : State) : Bool :=
  let us := tickUs s
  let least := match s.img.force with
    | none => 0
    | some im => im.cclkMin
  cclkCount s < us * least || cclkCount s < us * 1590 || us * 2210 < cclkCount s

/-- Clearing `n` has a deficit on some pseudo-channel (R166). -/
def inDeficit (s : State) (n : Nat) : Bool := s.cal.pch.any fun kv => tabGet 0 kv.2.deficit n != 0

/-- A request of clearing `n` that entered a store in this tick is still there (R169, cause 4). -/
def leftBehind (s : State) (n : Nat) : Bool :=
  s.cal.pch.any fun kv => (tabGet [] kv.2.fixed n).any fun r => r.tick == s.clk.postmark

/-- The late causes of the tick now closing for Fixed clearing `n`. -/
def lateCauses (s : State) (n : Nat) : Nat := s.cal.lateNow + 8 * bit (inDeficit s n) + 16 * bit (leftBehind s n)

/-- The tick now closing is late for clearing `n`. -/
def lateNow (s : State) (n : Nat) : Bool := isFixed s n && lateCauses s n != 0

/-- The marks of a late tick: CAL_LATE, CAL_LATE_INFO, CAL_WTICK and the tasks of the clearing (R170, R230). -/
def markLate (s : State) (n : Nat) : State :=
  let causes := lateCauses s n
  let s := updCc (updCal s fun c => { c with late := setBit c.late n true }) fun v => { v with lateSet := setBit v.lateSet n true }
  let s := updClr s n fun c =>
    { c with lateTicks := c.lateTicks + 1, lateCause := causes, latePostmark := s.clk.postmark }
  forEach ((tasksOf s n).map (·.1)) s fun s t => updTask s t fun k => { k with lateTicks := holdAt 32 (k.lateTicks + 1) }

/-- The causes of a tick that closes are settled, and its record written (R169, R170, R447). -/
def lateTick (s : State) : State :=
  let s := if countBad s then lateCause s 0 else s
  let late := (definedClearings s).filter (lateNow s)
  let s := if s.cal.lateNow != 0 then
      raiseWide s (newRec s qsErrLateTick 1 0 0 s.cal.lateNow (cclkCount s) 0) late
    else s
  forEach late s markLate

/-! Accounting (R342 to R345). -/

/-- The rows that a core's four bytes of cp_zg_rows count in one cclk; a value above 128 counts as 128 (R101). -/
def sampleRows (w : Nat) : Nat := ((List.range 4).map fun a => min 128 (w / 256 ^ a % 256)).sum

/-- The samples of cp_zg_rows in a tick, one a cclk in which a pass was issued, by the contexts whose passes those were: each
with the rows gated (R344). -/
def gatedBy : List (Nat × Nat) → List Nat → List (Nat × Nat)
  | [], _ => []
  | [(c, _)], ws => [(c, (ws.map sampleRows).sum)]
  | (c, k) :: r, ws => (c, ((ws.take k).map sampleRows).sum) :: gatedBy r (ws.drop k)

/-- The rows that zero-detect gated on a core in the tick are taken off (R344). -/
def gateRows (s : State) (g : Nat × List Nat) : State :=
  forEach (gatedBy (getCore s g.1).rowsBy g.2) s fun s x =>
    let s := updAcct s x.1 fun a => { a with rowsOn := a.rowsOn - x.2 }
    updDom s (g.1 / 2) fun d => { d with act := d.act - x.2 }

/-- Core-cclk and rows of the tick are charged to every context up to its end (R324, R342, R344). -/
def chargeAll (s : State) (rows : List (Nat × List Nat)) : State :=
  let cores := (s.sch.cores.map (·.1)).filter fun c => (getCore s c).job.isSome
  let s := forEach cores s fun s c => match (getCore s c).job.bind (getJob s) with
    | some x => chargeRows s c x.ctx
    | none => s
  let s := forEach ((jobList s).map fun j => j.2.ctx).dedup s chargeCtx
  let s := forEach rows s gateRows
  updSch s fun u => { u with cores := tabMap core0 (fun k => { k with rowsBy := [] }) u.cores }

/-- e_fj of R344. -/
def energyFj (s : State) (a : CtxAcct) : Nat :=
  coefOf s 0 * a.core + coefOf s 1 * a.rowsOn + coefOf s 2 * a.engine + coefOf s 3 * a.read + coefOf s 4 * a.write +
    coefOf s 5 * a.host + coefOf s 6 * a.remote

/-- A quantity of R342 is not zero. -/
def acctUsed (a : CtxAcct) (uj : Nat) : Bool :=
  a.core != 0 || a.engine != 0 || a.passes != 0 || a.read != 0 || a.write != 0 || a.host != 0 || a.remote != 0 || uj != 0

/-- The 64 bytes of a record of R343. -/
def acctBytes (pm ctx gen flags uj : Nat) (a : CtxAcct) : List Byte :=
  leBytes 8 pm ++ leBytes 2 ctx ++ leBytes 2 gen ++ leBytes 2 flags ++ zeroBytes 2 ++ leBytes 4 (holdAt 32 a.core) ++
    leBytes 4 (holdAt 32 a.engine) ++ leBytes 4 (holdAt 32 a.passes) ++ leBytes 4 (holdAt 32 uj) ++ leBytes 8 a.read ++
    leBytes 8 a.write ++ leBytes 8 a.host ++ leBytes 8 a.remote

/-- A record is produced for clearing `n`: written in its turn, or discarded when the ring is full (R345). -/
def putRecord (s : State) (n : Nat) (rec' : Bool → List Byte) : State :=
  let w := getSwin s n
  if !wbit w.acct 0 then s
  else if acctDepth w.acct ≤ u32sub w.tail w.head + w.records.length then
    updSwin s n fun w => { w with lost := w.lost + 1, lostFlag := true }
  else updSwin s n fun w => { w with records := w.records ++ [rec' w.lostFlag], lostFlag := false }

/-- Context `c`'s tick is accounted (R343, R344). -/
def acctCtx (late : List Nat) (s : State) (kv : Nat × CtxAcct) : State :=
  let c := kv.1
  let a := kv.2
  let t := energyFj s a + tabGet 0 s.sch.residual c
  let uj := t / 10 ^ 9
  let s := updSch s fun u => { u with residual := tabSet 0 u.residual c (t % 10 ^ 9) }
  match ctxOwner s c with
  | none => s
  | some n =>
    if !(acctUsed a uj || a.leftLive) then s
    else
      let gen := if a.leftLive then a.gen else (getCtx s c).gen
      let part := a.partial' || (getCtx s c).st != .live
      let pm := s.clk.postmark
      let s := putRecord s n fun lost => acctBytes pm c gen (bit (late.contains n) + 2 * bit lost + 4 * bit part) uj a
      updSwin s n fun w => { w with total := (w.total + a.core) % 2 ^ 64, energy := (w.energy + uj) % 2 ^ 64 }

/-- The accounting of the tick now closing. -/
def acctTick (s : State) (late : List Nat) : State :=
  let s' := forEach s.sch.acct s (acctCtx late)
  updSch s' fun u => { u with acct := [] }

/-- The next record of clearing `n` is written, as the block's own traffic. -/
def acctWriteNext (s : State) (n : Nat) : State :=
  let w := getSwin s n
  match w.records with
  | [] => s
  | r :: _ =>
    if w.writing || !wbit w.acct 0 then s
    else
      let a := acctBase w.acct + 64 * (w.tail % acctDepth w.acct)
      newAcc (updSwin s n fun w => { w with writing := true })
        { client := .acct n, op := 0, kind := .write, addr := deviceAddr s a, len := 64, data := r, n := n, ctx := 0, gen := 0
          cls := 0, st := .ready, asked := false, plain := false, frame := none }

/-- Records that wait are written, one at a time in each clearing (R343). -/
def acctTurn (s : State) : State := forEach (s.swin.map (·.1)) s acctWriteNext

/-! What takes effect at a boundary. -/

/-- The map of an APPLY, a pending CAL_GUEST_CMD, and the minimum shares that follow (R71, R174, R175). -/
def mapBoundary (s : State) : State :=
  let s := match s.cal.mapNext with
    | some m => updCal s fun c => { c with map := m, mapNext := none }
    | none => s
  overcommitNow (guestBoundary s)

/-- Tuned weights take effect, and the clearing's cores are placed again (R66, R325, R326). -/
def weightBoundary (s : State) (n : Nat) : State :=
  let cs := (ctxsOf s n).filter fun c => (getCtx s c).weightNext.isSome
  if cs = [] then s
  else placeSoon (forEach cs s fun s c => updCtx s c fun k => { k with weight := k.weightNext.getD k.weight, weightNext := none }) n

/-- open_max of class `c` of clearing `n` (R198). -/
def openMax (s : State) (n c : Nat) : Nat :=
  ((tasksOf s n).filter fun t => t.2.cls == c && t.2.endAge.isNone).foldl (fun m t => max m (taskAge s t.2)) 0

/-- M and L of every class of clearing `n` (R199, R212). -/
def rampBoundary (s : State) (n : Nat) : State :=
  let opens := (List.range 8).map (openMax s n)
  updClr s n fun k => { k with classes := k.classes.zipIdx.map fun m => rampUpdate m.1 (opens.getD m.2 0) (k.tun.target.getD m.2 0) }

/-- The tick of one clearing: tunables, weights, the ramp and the timer of QUIESCE (R32, R66, R199). -/
def clearingBoundary (s : State) (n : Nat) : State :=
  let r := tunBoundary s n
  let s := if r.2 then issueManifest r.1 n else r.1
  let s := rampBoundary (weightBoundary s n) n
  updClr s n fun c => { c with quiesceLeft := c.quiesceLeft - 1 }

/-- Counts of boundaries: claims (R235), page requests (R368), unit resets (R467), passes (R334). -/
def countBoundary (s : State) : State :=
  let queues := s.queues.map fun kv => (kv.1, if kv.2.claimOrder = 0 then kv.2 else { kv.2 with claimTicks := kv.2.claimTicks + 1 })
  let s := updXlt { s with queues := queues } fun x =>
    { x with pri := x.pri.map fun kv => (kv.1, kv.2.map fun (p : PageReq) => { p with ticks := p.ticks + 1 }) }
  let s := updTbl s fun u => { u with engines := u.engines.map fun kv =>
    (kv.1, if kv.2.resetting then { kv.2 with resetTicks := kv.2.resetTicks + 1 } else kv.2) }
  updSch s fun u =>
    { u with
      ticks := u.ticks + 1
      cores := tabMap core0 (fun k => { k with
        started := 0, resetTicks := if k.rst then k.resetTicks + 1 else k.resetTicks
        passes := k.passes.map fun (p : PassRun) => if p.ended.isNone && !k.frozen then { p with ticks := p.ticks + 1 } else p }) u.cores }

/-- The boundary's cclk, which is open, is the first of the next tick (R150, R152, R153). -/
def openTick (s : State) (lock : Nat) : State :=
  { s with clk := { s.clk with
    postmark := (s.clk.postmark + 1) % 2 ^ 64, tickStart := nowCclk s, refTick := s.clk.refTick + 100 * tickUs s, cclk := 0
    lock := lock, phase := 0 } }

/-- Each ring may interrupt once more (R452). -/
def ringsBoundary (s : State) : State := forEach (s.rings.map (·.1)) s fun s k => updRing s k fun g => { g with raised := false }

/-- Every Fixed pair of homes starts its favour afresh (R172). -/
def favourBoundary (s : State) : State := updCal s fun c =>
  { c with pch := tabMap pch0 (fun p => { p with favour := [] }) c.pch }

/-- The next cclk opens. -/
def cclkOpen (s : State) : State := { s with clk := { s.clk with cclk := s.clk.cclk + 1 } }

/-- The close of a tick: its late causes, its accounts, charged up to the boundary's cclk (R324, R344), and its energy. -/
def closeTick (s : State) (rows : List (Nat × List Nat)) : State :=
  let s := chargeAll (cclkOpen (lateTick s)) rows
  powerBoundary (acctTick s ((definedClearings s).filter (lateNow s)))

/-- Step 2 of R454 for every clearing whose fence began in an earlier cclk. -/
def fencesTurn (s : State) : State := forEach (definedClearings s) s fenceStop

/-- What a unit does in every cclk whatever is commanded, the boundary's own included: freezes and fences that are due, jobs
that end and cores that are released, engines that are charged (R321, R322, R342, R454). -/
def unitsTurn (s : State) : State := engineCharge (jobsTurn (fencesTurn (freezesTurn s)))

/-- TICK_BOUNDARY (R150): the tick closes, and the boundary's cclk opens the next: what was queued before the command belongs
to an earlier cclk. -/
def tickBoundary (s : State) (w : TickWires) : State :=
  if !running s then s
  else
    let s := standingCauses (openTick (closeTick (openCclk (placesTurn s)) w.zgRows) w.lock)
    let s := ringsBoundary (favourBoundary (mapBoundary s))
    let s := driveUrgency (forEach (definedClearings s) s clearingBoundary)
    heartbeatSend (unitsTurn (lsBoundary (publishBoundary (countBoundary s) (nowCclk s))))

/-- TICK_BOUNDARY (R150). -/
def execTickBoundary (wires : TickWires) (s : State) : Result := .next (tickBoundary s wires)

/-! A cclk of the block. -/

/-- KEY_STAGE is zeroised in the cclk after the WRITE that used it (R393). -/
def stageTurn (s : State) : State :=
  if s.key.wipe then updKey s fun u => { u with wipe := false, stage := List.replicate 4 0 } else s

/-- What the block does of itself in one cclk: the step on an empty queue; nothing while its reset is asserted. -/
def cclkTurn (s : State) : State :=
  if s.boot.phase == .reset then s
  else
    let s := poisonTurn (stageTurn (fencesTurn (freezesTurn (cclkOpen (placesTurn s)))))
    let s := envsTurn (issueAccs (fillsTurn (issueOwn (queuesTurn s))))
    let s := lsTurn (jobsTurn (drainsTurn s))
    openCclk (ringIssueAll (powerTurn (engineCharge (acctTurn s))))

end Sys2Proof.Machine
end

