-- ==== Sys2Proof/Machine/RegMap.lean ====
section
/-! DEFINITION. The register map (R20, R525): every register of the 64 MiB space, the offset at which it stands and its
reserved bits (R12). -/

namespace Sys2Proof.Machine

/-- A register of a clearing window (R525), by its name in the spec; `k`, `c` and `i` are its index. -/
inductive WinReg where
  | manifest (k : Nat)
  | clrWstatus | clrWstate | clrNonce0 | clrNonce1 | clrMseq | clrCtxCmd | clrCtxArg | clrCtxResult
  | clrCtxInfo (i : Nat)
  | calWtick | calWpostmark
  | elaWlevel | elaWlat (c : Nat) | elaWmiss (c : Nat) | elaWstat
  | queWcmd | queWresult | queWdesc (k : Nat) | queWstat | queWdbfault
  | stmWuse | stmWmem | stmWcount | stmWexpired
  | gpeWeng | gpeWrows | gpeWreads | gpeWhits | gpeWflags | gpeWpoison | gpeWfault | gpeWfaultpos
  | tblWcmd | tblWdesc (k : Nat) | tblWresult | tblWtstate | tblWhorizon | tblWrefresh | tblWstat | tblWpoison | tblWlost
  | schWcanopy | schWcanstat | schWmsel | schWmid | schWminfo | schWacct | schWacctptr | schWacctlost | schWtotal
  | schWenergy | schWstat | schWfault
  | xltWfault | xltWfaultaddr | xltWfaultpos | xltWstat | xltWstat2
  | keyWxcmd | keyWxresult | keyWstat | keyWslotstat (i : Nat) | keyWxbuf (k : Nat)
  | pwrWstat | pwrWenergy
  | errWptr | errWrec (k : Nat) | errWovf | errWctrl | errWabort | errWfence
  | detWgenSeed | detWgenSite | detWgenCtr | detWgenOut | detWstat | detWls | trlWbarcmd | trlWbarstat
  deriving DecidableEq, Repr

/-- A register of the global control space or of the key, Trail, power and error regions (R525). -/
inductive GlobReg where
  | clrState (n : Nat) | clrCmd | clrEvent | clrGstatus
  | imgCmd | imgSrc | imgLen | imgStatus | imgInfo | imgRev | imgPending | imgScrub | imgDigest (k : Nat) | imgSdigest (k : Nat)
  | imgFlashinfo | imgBoot | imgBootTime
  | calStatus | calPostmark | calLate | calOvercommit | calCatchup | calGuestCmd | calGuestResult | calMgCmd | calHoldstat
  | calLateInfo (n : Nat) | calMap (k : Nat) | calMgRsp (st : Nat) | calPch (p : Nat)
  | elaClass (n c : Nat) | elaCtrl (n : Nat) | elaPending
  | queStatus | queCachestat | stmStatus | stmQuota (n : Nat)
  | gpeEngine (e : Nat) | gpeFailed | gpeDstat
  | tblCmd | tblDesc (k : Nat) | tblResult | tblTstate | tblHorizon | tblRefresh | tblPrivq | tblHold | tblStatus
  | tblPoison (i : Nat)
  | schCore (c : Nat) | schFailed0 | schFailed1 | schPasswd | schWeight (c : Nat)
  | xltStatus | xltPri | xltPristop | xltPrito | xltCount | xltUnit (u : Nat) | xltPeerStage0 | xltPeerStage1 | xltPeerCmd
  | xltPeerResult | xltPeerA (i : Nat) | xltPeerB (i : Nat)
  | detLscfg (n : Nat) | detLscmd | detLstat (n : Nat)
  | keyCmd | keyResult | keyStatus | keyStageAttr | keyStage (k : Nat) | keyXcmd | keyXresult | keyXbuf (k : Nat)
  | keySlotstat (k : Nat)
  | trlStatus | trlCtrl | trlCmd | trlCount | trlLane (l : Nat) | trlPeers (k : Nat) | trlBarcfg (n : Nat)
  | pwrCmd | pwrResult | pwrState (k : Nat) | pwrPending | pwrPendingHi | pwrFault | pwrFaultHi | pwrWakes | pwrPolicy (d : Nat)
  | pwrCoef (k : Nat) | pwrDenergy (d : Nat)
  | errStatus | errGptr | errGovf | errCtrl | errFenceto | errCecc | errCmd | errResult | errDumpDst | errDumpInfo
  | errAgroup (n : Nat) | errGrec (k : Nat) | errCrec (n k : Nat)
  deriving DecidableEq, Repr

/-- A register of a mailbox page (R423). -/
inductive MbxReg where
  | data (k : Nat) | lock | unlock | post | frank | take | ack | result (i : Nat) | status | recv | whoami
  deriving DecidableEq, Repr

/-- What stands at an 8-byte aligned offset of the 64 MiB space (R20). -/
inductive Place8 where
  | glob (r : GlobReg)
  | win (n : Nat) (r : WinReg)
  | doorbell (page d : Nat)
  | mbx (m : Nat) (r : MbxReg)
  /-- No register (R7), in the global window. -/
  | hole
  /-- No register, in window `n`. -/
  | winHole (n : Nat)
  /-- No register, in the mailbox region. -/
  | mbxHole
  deriving DecidableEq, Repr

/-- The index of offset `o` in `count` registers `stride` bytes apart from `base`. -/
def regIndex (base stride count o : Nat) : Option Nat :=
  if base ≤ o ∧ o < base + stride * count ∧ (o - base) % stride = 0 then some ((o - base) / stride) else none

/-- The register of a list, 8 bytes apart from `base`, at offset `o`. -/
def regIn {α : Type} (base : Nat) (rs : List α) (o : Nat) : Option α := (regIndex base 8 rs.length o).bind fun i => rs[i]?

/-- The register of window offset `o` (R525); those of R45 and R420 exist up to ctx_count and key_count. -/
def winRegAt (s : State) (n o : Nat) : Option WinReg :=
  let g := (getClr s n).cfg
  match o / 0x100 with
  | 0x10 => regIn 0x1000 [.clrWstatus, .clrWstate, .clrNonce0, .clrNonce1, .clrMseq, .clrCtxCmd, .clrCtxArg, .clrCtxResult] o
  | 0x11 => regIn 0x1100 [.calWtick, .calWpostmark] o
  | 0x12 =>
    if o = 0x1200 then some .elaWlevel
    else if o = 0x1290 then some .elaWstat
    else ((regIndex 0x1210 8 8 o).map .elaWlat).or ((regIndex 0x1250 8 8 o).map .elaWmiss)
  | 0x13 =>
    ((regIn 0x1300 [.queWcmd, .queWresult] o).or ((regIndex 0x1310 8 8 o).map .queWdesc)).or
      ((regIn 0x1350 [.queWstat, .queWdbfault] o).or (regIn 0x1380 [.stmWuse, .stmWmem, .stmWcount, .stmWexpired] o))
  | 0x14 =>
    regIn 0x1400 [.gpeWeng, .gpeWrows, .gpeWreads, .gpeWhits, .gpeWflags, .gpeWpoison, .gpeWfault, .gpeWfaultpos] o
  | 0x15 =>
    if o = 0x1500 then some .tblWcmd
    else ((regIndex 0x1508 8 8 o).map .tblWdesc).or
      (regIn 0x1548 [.tblWresult, .tblWtstate, .tblWhorizon, .tblWrefresh, .tblWstat, .tblWpoison, .tblWlost] o)
  | 0x16 =>
    regIn 0x1600 [.schWcanopy, .schWcanstat, .schWmsel, .schWmid, .schWminfo, .schWacct, .schWacctptr, .schWacctlost,
      .schWtotal, .schWenergy, .schWstat, .schWfault] o
  | 0x17 => regIn 0x1700 [.xltWfault, .xltWfaultaddr, .xltWfaultpos, .xltWstat, .xltWstat2] o
  | 0x18 => regIn 0x1800 [.keyWxcmd, .keyWxresult, .keyWstat] o
  | 0x19 => regIn 0x1900 [.pwrWstat, .pwrWenergy] o
  | 0x1A =>
    if o = 0x1A00 then some .errWptr
    else ((regIndex 0x1A08 8 8 o).map .errWrec).or (regIn 0x1A48 [.errWovf, .errWctrl, .errWabort, .errWfence] o)
  | 0x1B =>
    regIn 0x1B00 [.detWgenSeed, .detWgenSite, .detWgenCtr, .detWgenOut, .detWstat, .detWls, .trlWbarcmd, .trlWbarstat] o
  | _ =>
    if o < 0x1000 then some (.manifest (o / 8))
    else ((regIndex 0x2000 8 (min g.ctxCount 4096) o).map .clrCtxInfo).or
      (((regIndex 0xB000 8 (min g.keyCount 1024) o).map .keyWslotstat).or ((regIndex 0xE000 8 512 o).map .keyWxbuf))

/-- The register of offset `o` below 16 MiB, the global control space (R525). -/
def controlRegAt (o : Nat) : Option GlobReg :=
  match o / 0x1000 with
  | 0x1 => ((regIndex 0x1000 8 64 o).map .clrState).or
      (if o = 0x1200 then some .clrCmd else regIn 0x1210 [.clrEvent, .clrGstatus] o)
  | 0x2 =>
    ((regIn 0x2000 [.imgCmd, .imgSrc, .imgLen, .imgStatus, .imgInfo, .imgRev, .imgPending, .imgScrub] o).or
      ((regIndex 0x2040 8 6 o).map .imgDigest)).or
      (((regIndex 0x2070 8 6 o).map .imgSdigest).or (regIn 0x20A0 [.imgFlashinfo, .imgBoot, .imgBootTime] o))
  | 0x3 =>
    ((regIn 0x3000 [.calStatus, .calPostmark, .calLate, .calOvercommit, .calCatchup, .calGuestCmd, .calGuestResult,
        .calMgCmd, .calHoldstat] o).or ((regIndex 0x3100 8 64 o).map .calLateInfo)).or
      (((regIndex 0x3300 8 128 o).map .calMap).or ((regIndex 0x3800 8 20 o).map .calMgRsp))
  | 0x5 => (regIndex 0x5000 8 512 o).map fun i => .elaClass (i / 8) (i % 8)
  | 0x6 => if o = 0x6200 then some .elaPending else (regIndex 0x6000 8 64 o).map .elaCtrl
  | 0x8 => if o = 0x8100 then some .stmStatus
      else (regIn 0x8000 [.queStatus, .queCachestat] o).or ((regIndex 0x8200 8 64 o).map .stmQuota)
  | 0x9 => ((regIndex 0x9000 8 64 o).map .gpeEngine).or (regIn 0x9200 [.gpeFailed, .gpeDstat] o)
  | 0xA =>
    if o = 0xA000 then some .tblCmd
    else ((regIndex 0xA008 8 8 o).map .tblDesc).or
      ((regIn 0xA048 [.tblResult, .tblTstate, .tblHorizon, .tblRefresh, .tblPrivq, .tblHold, .tblStatus] o).or
        ((regIndex 0xA400 8 1024 o).map .tblPoison))
  | 0xB | 0xC => (regIndex 0xA400 8 1024 o).map .tblPoison
  | 0xD => ((regIndex 0xD000 8 128 o).map .schCore).or (regIn 0xD400 [.schFailed0, .schFailed1, .schPasswd] o)
  | 0xE =>
    ((regIn 0xE000 [.xltStatus, .xltPri, .xltPristop, .xltPrito, .xltCount] o).or ((regIndex 0xE100 8 8 o).map .xltUnit)).or
      (regIn 0xE200 [.xltPeerStage0, .xltPeerStage1, .xltPeerCmd, .xltPeerResult] o)
  | 0xF => if o = 0xF200 then some .detLscmd
      else ((regIndex 0xF000 8 64 o).map .detLscfg).or ((regIndex 0xF400 8 64 o).map .detLstat)
  | _ =>
    ((regIndex 0x10000 8 4096 o).map .schWeight).or
      (((regIndex 0x18000 16 1024 o).map .xltPeerA).or
        (((regIndex 0x18008 16 1024 o).map .xltPeerB).or ((regIndex 0x20000 8 1280 o).map .calPch)))

/-- The register of an offset from 0x0310_0000 on: the key, Trail, power and error regions (R525). -/
def regionRegAt (o : Nat) : Option GlobReg :=
  match o / 0x100000 with
  | 0x31 =>
    ((regIn 0x03100000 [.keyCmd, .keyResult, .keyStatus, .keyStageAttr, .keyStage 0, .keyStage 1, .keyStage 2, .keyStage 3,
        .keyXcmd, .keyXresult] o).or ((regIndex 0x03101000 8 512 o).map .keyXbuf)).or
      ((regIndex 0x03102000 8 1024 o).map .keySlotstat)
  | 0x32 =>
    ((regIn 0x03200000 [.trlStatus, .trlCtrl, .trlCmd, .trlCount] o).or ((regIndex 0x03200100 8 8 o).map .trlLane)).or
      (((regIndex 0x03200200 8 16 o).map .trlPeers).or ((regIndex 0x03200400 8 64 o).map .trlBarcfg))
  | 0x33 =>
    ((regIn 0x03300000 [.pwrCmd, .pwrResult, .pwrState 0, .pwrState 1, .pwrState 2, .pwrPending, .pwrPendingHi, .pwrFault,
        .pwrFaultHi, .pwrWakes] o).or ((regIndex 0x03300100 8 72 o).map .pwrPolicy)).or
      (((regIndex 0x03300400 8 4 o).map .pwrCoef).or ((regIndex 0x03300800 8 80 o).map .pwrDenergy))
  | _ =>
    ((regIn 0x03400000 [.errStatus, .errGptr, .errGovf, .errCtrl, .errFenceto, .errCecc, .errCmd, .errResult, .errDumpDst,
        .errDumpInfo] o).or ((regIndex 0x03400100 8 64 o).map .errAgroup)).or
      (((regIndex 0x03410000 8 32768 o).map .errGrec).or
        ((regIndex 0x03450000 8 131072 o).map fun i => .errCrec (i / 2048) (i % 2048)))

/-- The register of offset `o` of a mailbox page (R423). -/
def mbxRegAt (o : Nat) : Option MbxReg :=
  ((regIndex 0 8 16 o).map .data).or
    (regIn 0x80 [.lock, .unlock, .post, .frank, .take, .ack, .result 0, .result 1, .status, .recv, .whoami] o)

/-- What stands at offset `off` of the 64 MiB space, its bits [2:0] apart (R20, R525). -/
def placeAt (s : State) (off : Nat) : Place8 :=
  let o := off / 8 * 8
  let g := fun (x : Option GlobReg) => match x with
    | some r => Place8.glob r
    | none => Place8.hole
  if o < 0x01000000 then g (controlRegAt o)
  else if o < 0x01400000 then
    let n := (o - 0x01000000) / 0x10000
    match winRegAt s n (o % 0x10000) with
    | some r => .win n r
    | none => .winHole n
  else if o < 0x02000000 then .hole
  else if o < 0x02800000 then .doorbell ((o - 0x02000000) / 0x1000) (o % 0x1000 / 8)
  else if o < 0x03000000 then .hole
  else if o < 0x03100000 then
    match mbxRegAt (o % 0x1000) with
    | some r => .mbx ((o - 0x03000000) / 0x1000) r
    | none => .mbxHole
  else if o < 0x04000000 then g (regionRegAt o)
  else .hole

/-! Reserved bits (R12). -/

/-- Reserved bits of a window register whose write has no checks of its own (R9, R12). -/
def winReserved : WinReg → Word
  | .clrWstatus => bitsFrom 32 63
  | .clrWstate => bitsFrom 6 63
  | .clrCtxArg => bitsFrom 21 31 ||| bitsFrom 48 63
  | .clrCtxResult => bitsFrom 28 31 ||| bitsFrom 49 63
  | .clrCtxInfo _ => bitsFrom 2 15 ||| bitsFrom 53 63
  | .calWtick => bitsFrom 34 63
  | .elaWlevel => bitsFrom 56 63
  | .elaWlat _ => bitsFrom 52 63
  | .queWresult => bitsFrom 39 63
  | .queWdbfault => bitsFrom 36 63
  | .stmWuse => bitsFrom 48 63
  | .stmWexpired => bitsFrom 32 63
  | .gpeWfault => bitsFrom 36 63
  | .tblWresult => bitsFrom 33 63
  | .tblWtstate => bitsFrom 4 7 ||| bitsFrom 27 31 ||| bitsFrom 51 63
  | .tblWrefresh => bitsFrom 17 31 ||| bitsFrom 49 63
  | .tblWpoison => bitsFrom 33 63
  | .schWcanstat => bitsFrom 18 31 ||| bitsFrom 53 63
  | .schWmsel => bitsFrom 8 63
  | .schWminfo => bitsFrom 3 7 ||| bitsFrom 29 31 ||| bitsFrom 53 63
  | .schWacctlost => bitsFrom 32 63
  | .schWfault => bitsFrom 23 31 ||| bitsFrom 44 63
  | .xltWfault => bitsFrom 36 63
  | .xltWstat2 => bitsFrom 41 63
  | .keyWxresult => bitsFrom 29 31 ||| bitsFrom 34 63
  | .keyWslotstat _ => bitsFrom 62 63
  | .pwrWstat => bitsFrom 7 7 ||| bitsFrom 15 31
  | .errWctrl => bitsFrom 7 63
  | .errWfence => bitsFrom 3 15
  | .detWgenSite => bitsFrom 32 63
  | .detWls => bitsFrom 4 15
  | .trlWbarstat => bitsFrom 40 63
  | _ => 0

/-- Reserved bits of a global register whose write has no checks of its own (R9, R12). -/
def globReserved : GlobReg → Word
  | .clrState _ => bitsFrom 6 15 ||| bitsFrom 45 63
  | .clrGstatus => bitsFrom 40 63
  | .imgSrc => bitsFrom 0 3
  | .imgLen => bitsFrom 25 63
  | .imgStatus => bitsFrom 22 31
  | .imgRev => bitsFrom 48 63
  | .imgScrub => bitsFrom 13 63
  | .imgFlashinfo => bitsFrom 11 63
  | .imgBoot => bitsFrom 12 15 ||| bitsFrom 43 63
  | .imgBootTime => bitsFrom 32 63
  | .calStatus => bitsFrom 17 31 ||| bitsFrom 43 47 ||| bitsFrom 59 63
  | .calGuestResult => bitsFrom 27 31 ||| bitsFrom 33 63
  | .calHoldstat => bitsFrom 48 63
  | .calLateInfo _ => bitsFrom 8 15
  | .calPch _ => bitsFrom 5 7 ||| bitsFrom 27 63
  | .queStatus => bitsFrom 53 63
  | .stmStatus => bitsFrom 16 31 ||| bitsFrom 49 63
  | .gpeEngine _ => bitsFrom 7 7 ||| bitsFrom 10 15 ||| bitsFrom 22 31 ||| bitsFrom 44 63
  | .tblResult => bitsFrom 33 63
  | .tblTstate => bitsFrom 4 7 ||| bitsFrom 27 31 ||| bitsFrom 51 63
  | .tblRefresh => bitsFrom 17 31 ||| bitsFrom 49 63
  | .tblPrivq => bitsFrom 21 63
  | .tblHold => bitsFrom 32 63
  | .tblStatus => bitsFrom 36 63
  | .tblPoison _ => bitsFrom 50 63
  | .schCore _ => bitsFrom 7 7 ||| bitsFrom 11 15 ||| bitsFrom 28 31
  | .schPasswd => bitsFrom 16 63
  | .xltStatus => bitsFrom 17 31 ||| bitsFrom 42 47 ||| bitsFrom 60 63
  | .xltPri => bitsFrom 16 63
  | .xltPrito => bitsFrom 32 63
  | .xltUnit _ => bitsFrom 14 15 ||| bitsFrom 23 31 ||| bitsFrom 44 63
  | .xltPeerStage0 => bitsFrom 10 15 ||| bitsFrom 28 31 ||| bitsFrom 49 63
  | .xltPeerStage1 => bitsFrom 12 15 ||| bitsFrom 29 31 ||| bitsFrom 45 63
  | .xltPeerResult => bitsFrom 26 63
  | .xltPeerA _ => bitsFrom 10 15 ||| bitsFrom 28 31 ||| bitsFrom 51 63
  | .xltPeerB _ => bitsFrom 12 15 ||| bitsFrom 29 31 ||| bitsFrom 45 47
  | .detLstat _ => bitsFrom 4 15
  | .keyResult => bitsFrom 18 63
  | .keyStatus => bitsFrom 13 15 ||| bitsFrom 27 63
  | .keyStageAttr => bitsFrom 32 63 ||| word keyReserved.toNat
  | .keyXresult => bitsFrom 29 31 ||| bitsFrom 34 63
  | .keySlotstat _ => bitsFrom 62 63
  | .trlStatus => bitsFrom 11 15 ||| bitsFrom 27 31 ||| bitsFrom 48 63
  | .trlCtrl => bitsFrom 1 7 ||| bitsFrom 16 63
  | .trlLane _ => bitsFrom 8 15 ||| bitsFrom 48 63
  | .pwrResult => bitsFrom 23 23 ||| bitsFrom 25 63
  | .pwrPendingHi => bitsFrom 16 63
  | .pwrFaultHi => bitsFrom 16 63
  | .pwrPolicy _ => bitsFrom 4 15 ||| bitsFrom 32 63
  | .pwrCoef k => if k = 3 then bitsFrom 32 63 else 0
  | .errStatus => bitsFrom 4 15
  | .errCtrl => bitsFrom 9 63
  | .errFenceto => bitsFrom 16 63
  | .errResult => bitsFrom 18 63
  | .errDumpDst => bitsFrom 0 3
  | .errDumpInfo => bitsFrom 49 63
  | .errAgroup _ => bitsFrom 17 63
  | _ => 0

end Sys2Proof.Machine
end

