-- ==== Sys2Proof/Machine/RegRead.lean ====
section
/-! DEFINITION. What a read of each register returns (R9, R525), and what a read changes: the RC fields it reaches and
the halves of a postmark (R9, R11, R151). -/

namespace Sys2Proof.Machine

/-- CLR_STATE.state (R31). -/
def clrStateNum : ClrState → Nat
  | .absent => 0
  | .closed => 1
  | .opened => 2
  | .quiescing => 3
  | .quiet => 4
  | .fenced => 5
  | .resetting => 6

/-- IMG_BOOT.phase (R123). -/
def bootPhaseNum : BootPhase → Nat
  | .reset => 0
  | .rom => 1
  | .root => 2
  | .memory => 3
  | .image => 4
  | .scrub => 5
  | .power => 6
  | .trail => 7
  | .running => 8
  | .bare => 9
  | .stopped => 10

/-- Bits [5:0] of CLR_STATE and CLR_WSTATE (R41, R45). -/
def clrStateBits (s : State) (n : Nat) : Nat :=
  let c := getClr s n
  clrStateNum c.st + 8 * bit (defined s n && !c.cfg.fixed) + 16 * bit c.degraded + 32 * bit c.issuing.isSome

/-- Live contexts of clearing `n`. -/
def liveCount (s : State) (n : Nat) : Nat := (liveCtxs s n).length

/-- A mask of clearings. -/
def clearingMask (s : State) (f : Nat → Bool) : Word := maskOf 64 ((definedClearings s).filter f)

/-- A number of 64 bits whose bit i says `f i`. -/
def maskWhere (count : Nat) (f : Nat → Bool) : Word := maskOf 64 ((List.range count).filter f)

/-- Eight bytes of a list from byte 8k on, as a register. -/
def bytesWord (bs : List Byte) (k : Nat) : Word := word (leAt bs (8 * k) 8)

/-- CLR_CTX_INFO of context `c` (R45). -/
def ctxInfo (s : State) (c : Nat) : Word :=
  let k := getCtx s c
  let st := match k.st with
    | .free => 0
    | .live => 1
    | .draining => 2
  pack [(0, 2, st), (16, 16, k.gen), (32, 20, k.pasid), (52, 1, bit k.pasidValid)]

/-- CAL_PCH (R186). -/
def pchWord (s : State) (p : Nat) : Word :=
  let k := getPch s p
  let st := match k.st with
    | .normal => 0
    | .remapped => 1
    | .hosting => 2
    | .unreachable => 3
  let recent := (k.holdStarts.filter fun t => nowRef s < 100000000 + t).length
  pack [(0, 2, st), (2, 2, k.cause), (4, 1, bit (k.hold && k.st != .remapped)), (8, 8, holdAt 8 recent),
    (16, 11, if k.st == .remapped || k.st == .hosting then k.partner else 0)]

/-- CAL_CATCHUP (R178). -/
def catchupMask (s : State) : Word := clearingMask s fun n => isFixed s n && inDeficit s n

/-- GPE_ENGINE (R277). -/
def engineWord (s : State) (e : Nat) : Word :=
  let owner := engineOwner s e
  let st := if engineFailed s e then 3 else if (getEngine s e).resetting then 2 else if 0 < assignedTo s e then 1 else 0
  pack [(0, 6, owner.getD 0), (6, 1, bit owner.isSome), (8, 2, st), (16, 6, assignedTo s e), (32, 12, stageFlight s e 1)]

/-- SCH_CORE.state (R346). -/
def coreStateNum (s : State) (c : Nat) : Nat :=
  let k := getCore s c
  if coreFailed s c then 5
  else if coreResetting s c then 4
  else if k.freeze || k.frozen then 3
  else match k.job.bind (getJob s) with
    | none => 0
    | some j => if j.st == .claimant then 1 else 2

/-- SCH_CORE (R346). -/
def coreWord (s : State) (c : Nat) : Word :=
  let owner := coreOwner s c
  let ctx := match (getCore s c).job.bind (getJob s) with
    | none => 0
    | some j => j.ctx
  pack [(0, 6, owner.getD 0), (6, 1, bit owner.isSome), (8, 3, coreStateNum s c), (16, 12, ctx),
    (32, 32, (getCore s c).spareMap.toNat)]

/-- KEY_SLOTSTAT (R419). -/
def slotWord (s : State) (k : Nat) : Word :=
  let x := getSlot s k
  pack [(0, 32, x.attr.toNat), (32, 16, x.gen), (48, 1, bit x.unusable), (49, 1, bit (oldHeld s k)), (50, 12, slotRefs s k)]

/-- KEY_XRESULT and KEY_WXRESULT (R419, R420). -/
def xchWord (s : State) (x : Nat) : Word :=
  let r := getXch s x
  pack [(0, 16, r.code.toNat), (16, 13, r.rspLen), (32, 1, bit r.busy), (33, 1, bit r.done)]

/-- KEY_STATUS (R419). -/
def keyStatusWord (s : State) : Word :=
  let k := s.key
  pack [(0, 3, s.boot.lc), (3, 1, bit s.boot.rootAbsent), (4, 1, bit k.debugOpen), (5, 1, bit k.tainted), (6, 4, k.failures),
    (10, 1, bit k.lockedOut), (11, 1, bit s.boot.pass.isSome), (12, 1, bit k.rotFault),
    (16, 11, (allSlots.filter (oldHeld s)).length)]

/-- DET_LSTAT and DET_WLS (R521, R523). -/
def lstatWord (s : State) (n : Nat) : Word :=
  let l := getLs s n
  let st := match l.st with
    | .off => 0
    | .comparing => 1
    | .frozen => 2
  pack [(0, 2, st), (2, 2, l.cause), (16, 48, l.postmark)]

/-- TBL_RESULT and TBL_WRESULT (R310, R311). -/
def tblResultWord (p : TblPort) : Word := pack [(0, 16, p.code.toNat), (16, 16, p.desc), (32, 1, bit p.done)]

/-- MBX_RESULT of one message (R423). -/
def msgWord (m : MbxMsg) : Word := pack [(0, 16, m.code.toNat), (16, 16, m.seq), (32, 1, bit m.done)]

/-- Domains 64 and above, or below. -/
def domainMask (s : State) (from' count : Nat) (f : Domain → Bool) : Word := maskWhere count fun i => f (getDom s (from' + i))

/-- PWR_STATE(k) (R441). -/
def pwrStateWord (s : State) (k : Nat) : Word :=
  pack (((List.range 32).filter fun j => 32 * k + j < 80).map fun j => (2 * j, 2, powerNum (getDom s (32 * k + j)).st))

/-- XLT_UNIT (R381). -/
def xltUnitWord (s : State) (u : Nat) : Word :=
  let es := s.xlt.entries.filter fun e => entryUnit e == u
  pack [(0, 14, es.length), (16, 7, atsCount s u none), (32, 12, (es.filter (·.sticky)).length)]

/-- XLT_PEER_A and XLT_PEER_B of a binding (R381). -/
def peerWordA (s : State) (b : Binding) : Word :=
  pack [(0, 10, b.srcChip), (16, 12, b.srcCtx), (32, 16, b.srcGen), (48, 1, bit b.write), (49, 1, bit b.valid),
    (50, 1, bit (bindingStale s b))]

/-- As `peerWordA`. -/
def peerWordB (b : Binding) : Word := pack [(0, 12, b.ctx), (16, 13, b.plot), (32, 13, b.count), (48, 16, b.gen)]

/-- The canopy entry that SCH_WMSEL selects (R347). -/
def selectedModel (s : State) (n : Nat) : Option Model := tabGet none (getSwin s n).models (getSwin s n).sel

/-- SCH_WMINFO (R347). -/
def modelWord (s : State) (n : Nat) : Word :=
  match selectedModel s n with
  | none => 0
  | some m => pack [(0, 2, if m.resident then 2 else 1), (2, 1, bit (modelHeld s n m)), (8, 21, m.first), (32, 21, m.blocks)]

/-- SCH_WCANSTAT (R347). -/
def canopyWord (s : State) (n : Nat) : Word :=
  let ms := (modelList s n).map (·.2)
  pack [(0, 9, (ms.filter (·.resident)).length), (9, 9, (ms.filter fun m => !m.resident).length), (32, 21, (ms.map (·.blocks)).sum)]

/-- Domains that clearing `n` owns (R23); none while it is Absent. -/
def ownedDomains (s : State) (n : Nat) : List Nat := if defined s n then domainsOwned (getClr s n).cfg else []

/-- What a read of a register of window `n` returns (R525). -/
def winValue (s : State) (n : Nat) : WinReg → Word
  | .manifest k => bytesWord (getClr s n).page k
  | .clrWstatus => pack [(0, 16, (getWin s n).code.toNat), countAt 16 16 (getWin s n).refused]
  | .clrWstate => word (clrStateBits s n)
  | .clrNonce0 => (getWin s n).nonce0
  | .clrNonce1 => (getWin s n).nonce1
  | .clrMseq => word (pageSeq (getClr s n))
  | .clrCtxCmd => 0
  | .clrCtxArg => (getWin s n).ctxArg
  | .clrCtxResult =>
    let w := getWin s n
    pack [(0, 16, w.ctxCode.toNat), (16, 12, w.ctxNum), (32, 16, w.ctxGen), (48, 1, bit w.ctxDone)]
  | .clrCtxInfo i => ctxInfo s ((getClr s n).cfg.ctxBase + i)
  | .calWtick =>
    pack [countAt 0 32 (getClr s n).lateTicks, (32, 1, bit (s.cal.overcommit.getLsbD n)), (33, 1, bit ((catchupMask s).getLsbD n))]
  | .calWpostmark => word s.clk.postmark
  | .elaWlevel =>
    let c := getClr s n
    pack ((List.range 8).map (fun i => (4 * i, 4, (getMeas s n i).level)) ++
      (List.range 8).map (fun i => (32 + i, 1, bit (isElastic s n && overBudget s n i))) ++ [(40, 8, c.tun.mask.toNat)] ++
      (List.range 8).map (fun i => (48 + i, 1, bit (getMeas s n i).atTarget)))
  | .elaWlat c => pack [(0, 32, (getMeas s n c).measured), (32, 20, (getMeas s n c).outstanding)]
  | .elaWmiss c => counts (getMeas s n c).atTargetTicks (getMeas s n c).demotedTicks
  | .elaWstat => counts (getClr s n).classFixups (getClr s n).ageTurns
  | .queWcmd => 0
  | .queWresult =>
    let w := getQwin s n
    pack [(0, 16, w.code.toNat), (16, 20, w.queue), (36, 2, queueStNum { queue0 with st := w.st }), (38, 1, bit w.done)]
  | .queWdesc k => (getQwin s n).desc.getD k 0
  | .queWstat => counts (getQwin s n).dbRefused (getQwin s n).lost
  | .queWdbfault => pack [(0, 16, (getQwin s n).dbCode.toNat), (16, 20, (getQwin s n).dbQueue)]
  | .stmWuse =>
    pack [(0, 16, (tasksOf s n).length), (16, 16, (getClr s n).cfg.streamQuota),
      (32, 16, (s.queues.filter fun kv => kv.2.waiting && queueOwner s kv.1 == some n).length)]
  | .stmWmem => pack [(0, 32, scratchOf s n), (32, 32, quotaOf s n)]
  | .stmWcount => counts (getQwin s n).waits (getQwin s n).deadLetters
  | .stmWexpired => pack [countAt 0 32 (getQwin s n).expired]
  | .gpeWeng => bytesWord (getClr s n).page 22
  | .gpeWrows => pack [countAt 0 64 (getGwin s n).rows]
  | .gpeWreads => pack [countAt 0 64 (getGwin s n).reads]
  | .gpeWhits => pack [countAt 0 64 (getGwin s n).hits]
  | .gpeWflags => counts (getGwin s n).saturatedBags (getGwin s n).zeroBags
  | .gpeWpoison => counts (getGwin s n).poisonedBags (getGwin s n).failed
  | .gpeWfault => pack [(0, 16, (getGwin s n).code.toNat), (16, 20, (getGwin s n).queue)]
  | .gpeWfaultpos => pack [(0, 32, (getGwin s n).tag), (32, 32, (getGwin s n).pos)]
  | .tblWcmd => 0
  | .tblWdesc k => (getTwin s n).port.words.getD k 0
  | .tblWresult => tblResultWord (getTwin s n).port
  | .tblWtstate => (getTwin s n).port.state
  | .tblWhorizon => (getTwin s n).port.horizon
  | .tblWrefresh => (getTwin s n).port.refresh
  | .tblWstat => counts (getTwin s n).rowsWritten (getTwin s n).publications
  | .tblWpoison => pack [countAt 0 32 (getTwin s n).lookups, (32, 1, bit (getTwin s n).event)]
  | .tblWlost => counts (getTwin s n).pendingLost (getTwin s n).expired
  | .schWcanopy => (getSwin s n).canopy
  | .schWcanstat => canopyWord s n
  | .schWmsel => word (getSwin s n).sel
  | .schWmid => match selectedModel s n with
    | none => 0
    | some m => m.id
  | .schWminfo => modelWord s n
  | .schWacct => (getSwin s n).acct
  | .schWacctptr => pack [(0, 32, (getSwin s n).head), (32, 32, (getSwin s n).tail)]
  | .schWacctlost => pack [countAt 0 32 (getSwin s n).lost]
  | .schWtotal => word (getSwin s n).total
  | .schWenergy => word (getSwin s n).energy
  | .schWstat => counts (getSwin s n).jobs (getSwin s n).overruns
  | .schWfault => pack [(0, 16, (getSwin s n).code.toNat), (16, 7, (getSwin s n).core), (32, 12, (getSwin s n).ctx)]
  | .xltWfault => pack [(0, 16, (getXwin s n).code.toNat), (16, 20, (getXwin s n).queue)]
  | .xltWfaultaddr => (getXwin s n).addr
  | .xltWfaultpos => pack [(0, 32, (getXwin s n).tag), (32, 32, (getXwin s n).tile)]
  | .xltWstat => counts (getXwin s n).pageRequests (getXwin s n).gateRefused
  | .xltWstat2 =>
    pack [countAt 0 32 (getXwin s n).misses, (32, 9, (s.xlt.entries.filter fun e => e.sticky && e.n == n).length)]
  | .keyWxcmd => 0
  | .keyWxresult => xchWord s n
  | .keyWstat => counts (getXch s n).chunks (getXch s n).authFail
  | .keyWslotstat i => slotWord s ((getClr s n).cfg.keyBase + i)
  | .keyWxbuf k => tabGet 0 (getXch s n).buf k
  | .pwrWstat =>
    let ds := ownedDomains s n
    pack [(0, 7, ds.length), (8, 7, (ds.filter fun d => (getDom s d).st == .on).length), countAt 32 32 (getPwin s n).waits]
  | .pwrWenergy => word (getPwin s n).energy
  | .errWptr => pack [(0, 32, (getRing s n).head), (32, 32, (getRing s n).tail)]
  | .errWrec k => if (getRing s n).head = (getRing s n).tail then 0 else ringWord s n ((getRing s n).head % ringSize n) k
  | .errWovf => counts (getRing s n).lost (getRing s n).coalesced
  | .errWctrl => (getWin s n).errCtrl
  | .errWabort => 0
  | .errWfence => pack [(0, 3, (getWin s n).fenceCause), (16, 48, (getWin s n).fencePostmark)]
  | .detWgenSeed => (tabGet detWin0 s.det n).seed
  | .detWgenSite => word (tabGet detWin0 s.det n).site
  | .detWgenCtr => (tabGet detWin0 s.det n).ctr
  | .detWgenOut =>
    let g := tabGet detWin0 s.det n
    detGen g.seed g.site g.ctr
  | .detWstat => counts (getQwin s n).variantRefused (getQwin s n).variantAdmitted
  | .detWls => lstatWord s n
  | .trlWbarcmd => 0
  | .trlWbarstat =>
    let b := getBar s n
    pack [(0, 32, b.epoch), (32, 1, bit b.waiting), (33, 1, bit (s.que.gate.getLsbD n)), (34, 1, bit b.late),
      (35, 5, b.arrived.length)]

/-- What a read of a register of the global control space or of a region returns (R525). -/
def globValue (s : State) : GlobReg → Word
  | .clrState n =>
    pack [(0, 6, clrStateBits s n), (16, 16, (getClr s n).quiesceLeft), (32, 13, liveCount s n)]
  | .clrCmd => 0
  | .clrEvent => s.glob.event
  | .clrGstatus => pack [(0, 16, s.glob.code.toNat), countAt 16 16 s.glob.refused, (32, 8, s.glob.requester)]
  | .imgCmd => 0
  | .imgSrc => s.img.src
  | .imgLen => word s.img.len
  | .imgStatus =>
    let i := s.img
    let same := match i.flashImage, i.force with
      | some bs, some im => bs == im.bytes
      | _, _ => false
    pack [(0, 16, i.code.toNat), (16, 1, bit i.busy), (17, 1, bit i.staged.isSome), (18, 1, bit i.mixed), (19, 1, bit i.differs),
      (20, 1, bit same), (21, 1, bit (i.scrub != [])), (32, 8, i.errSection), (40, 24, i.errOffset)]
  | .imgInfo => pack [(0, 32, svnInForce s), (32, 32, s.boot.settings.minSvn)]
  | .imgRev =>
    pack [(0, 8, Config.blockRev), (8, 8, 1), (16, 16, tickUs s), (32, 16, match s.img.force with
      | none => 0
      | some im => im.cclkMin)]
  | .imgPending => s.img.pending
  | .imgScrub => word s.img.scrub.length
  | .imgDigest k => match s.img.force with
    | none => 0
    | some im => bytesWord (digestBytes im.digest) k
  | .imgSdigest k => match s.img.staged with
    | none => 0
    | some im => bytesWord (digestBytes im.digest) k
  | .imgFlashinfo =>
    pack [(0, 8, s.boot.flashLog2), (8, 1, bit s.boot.flashPresent), (9, 1, bit s.boot.setAValid), (10, 1, bit s.boot.setBValid)]
  | .imgBoot =>
    let b := s.boot
    pack [(0, 4, bootPhaseNum b.phase), (4, 4, b.cause), (8, 1, bit b.settingsDefault), (9, 1, bit b.solitary), (10, 1, bit b.warm),
      (11, 1, bit b.rootAbsent), (16, 16, b.detail.toNat), (32, 11, b.where')]
  | .imgBootTime => word s.boot.bootUs
  | .calStatus =>
    pack [(0, 17, if running s then phasesOfTick (tickUs s) else 0), (32, 11, (pchsIn s .remapped).length),
      (48, 11, (s.cal.pch.filter fun kv => kv.2.hold && kv.2.st != .remapped).length)]
  | .calPostmark => word s.clk.postmark
  | .calLate => s.cal.late
  | .calOvercommit => s.cal.overcommit
  | .calCatchup => catchupMask s
  | .calGuestCmd => 0
  | .calGuestResult => pack [(0, 16, s.cal.guestCode.toNat), (16, 11, s.cal.guestPch), (32, 1, bit s.cal.guestDone)]
  | .calMgCmd => 0
  | .calHoldstat => pack [countAt 0 32 s.cal.holds, (32, 16, s.cal.longest)]
  | .calLateInfo n =>
    if isFixed s n then pack [(0, 8, (getClr s n).lateCause), (16, 48, (getClr s n).latePostmark)] else 0
  | .calMap k => pack ((List.range 8).map fun i => (8 * i, 8, s.cal.map.getD (8 * k + i) 0))
  | .calMgRsp st =>
    let m := tabGet margin0 s.cal.margin st
    pack [(0, 32, m.rsp), (32, 1, bit m.busy), (33, 1, bit m.done), (34, 6, m.pch), (40, 8, m.op), (48, 16, m.code.toNat)]
  | .calPch p => pchWord s p
  | .elaClass n c =>
    let t := acceptedTun s n
    pack [(0, 20, t.target.getD c 0), (32, 16, t.budget.getD c 0)]
  | .elaCtrl n =>
    let t := acceptedTun s n
    pack [(0, 8, t.mask.toNat), (8, 8, t.urgency.getD 0 0), (16, 8, t.urgency.getD 1 0), (24, 8, t.urgency.getD 2 0)]
  | .elaPending => clearingMask s fun n => (getClr s n).tunNext.isSome
  | .queStatus =>
    pack [(0, 16, s.que.hot.length), (16, 16, s.que.fifo.length), (32, 21, (s.queues.filter fun kv => kv.2.spilled).length)]
  | .queCachestat => counts s.que.hits s.que.misses
  | .stmStatus =>
    pack [(0, 16, ((taskList s).filter fun t => !t.2.fenced).length), (32, 17, (s.queues.map fun kv => kv.2.buffered.length).sum)]
  | .stmQuota n => word (quotaOf s n)
  | .gpeEngine e => engineWord s e
  | .gpeFailed => s.err.failedEngines
  | .gpeDstat => counts s.tbl.saturatedBags s.tbl.poisonedRows
  | .tblCmd => 0
  | .tblDesc k => s.tbl.port.words.getD k 0
  | .tblResult => tblResultWord s.tbl.port
  | .tblTstate => s.tbl.port.state
  | .tblHorizon => s.tbl.port.horizon
  | .tblRefresh => s.tbl.port.refresh
  | .tblPrivq => s.tbl.privQ
  | .tblHold => word s.tbl.hold
  | .tblStatus =>
    pack [(0, 19, s.tbl.chg.length), (19, 5, refreshingCount s), (24, 11, (s.tbl.poison.filter fun kv => kv.2.isSome).length),
      (35, 1, bit s.tbl.poisonFull)]
  | .tblPoison i => match tabGet none s.tbl.poison i with
    | none => 0
    | some p => pack [(0, 16, p.desc), (16, 32, p.row), (48, 1, bit p.version), (49, 1, 1)]
  | .schCore c => coreWord s c
  | .schFailed0 => maskWhere 64 fun c => s.err.failedCores.getLsbD c
  | .schFailed1 => maskWhere 64 fun c => s.err.failedCores.getLsbD (64 + c)
  | .schPasswd => word s.sch.passwd
  | .schWeight c =>
    let k := getCtx s c
    if k.st == .free then 0 else word (k.weightNext.getD k.weight)
  | .xltStatus =>
    pack [(0, 17, s.xlt.entries.length), (32, 10, ((List.range 8).map fun u => atsCount s u none).sum), (48, 12, s.xlt.inval.length)]
  | .xltPri => word (s.xlt.pri.filter fun kv => kv.2.isSome).length
  | .xltPristop => maskWhere 64 fun n => s.xlt.stopped.getLsbD (n + 1)
  | .xltPrito => word s.xlt.timeout
  | .xltCount => counts s.xlt.invalDone s.xlt.prgDropped
  | .xltUnit u => xltUnitWord s u
  | .xltPeerStage0 => s.xlt.stage0
  | .xltPeerStage1 => s.xlt.stage1
  | .xltPeerCmd => 0
  | .xltPeerResult => pack [(0, 16, s.xlt.peerCode.toNat), (16, 10, s.xlt.peerIndex)]
  | .xltPeerA i => peerWordA s (tabGet binding0 s.xlt.bindings i)
  | .xltPeerB i => peerWordB (tabGet binding0 s.xlt.bindings i)
  | .detLscfg n =>
    let l := getLs s n
    pack [(0, 10, l.partner), (16, 1, bit l.enable), (32, 16, l.timeout)]
  | .detLscmd => 0
  | .detLstat n => lstatWord s n
  | .keyCmd => 0
  | .keyResult => pack [(0, 16, s.key.code.toNat), (16, 1, bit s.key.busy), (17, 1, bit s.key.done)]
  | .keyStatus => keyStatusWord s
  | .keyStageAttr => 0
  | .keyStage _ => 0
  | .keyXcmd => 0
  | .keyXresult => xchWord s rotSelf
  | .keyXbuf k => tabGet 0 (getXch s rotSelf).buf k
  | .keySlotstat k => slotWord s k
  | .trlStatus =>
    pack [(0, 3, trailState s), (3, 3, lanesUp s 0), (6, 3, lanesUp s 1), (9, 1, bit s.trl.master), (10, 1, bit s.trl.drift),
      (16, 11, (s.trl.peers.filter fun kv => kv.2.isSome).length), (32, 16, s.trl.delay)]
  | .trlCtrl => pack [(0, 1, bit s.trl.soloNext), (8, 8, s.trl.hb)]
  | .trlCmd => 0
  | .trlCount => counts s.trl.dropped s.trl.unsent
  | .trlLane l =>
    let x := getLane s l
    pack [(0, 2, if s.boot.phase == .reset then 0 else x.st), (2, 3, x.fault), (5, 1, bit x.inverted), (6, 2, x.logical), countAt 16 32 x.errors]
  | .trlPeers k => maskWhere 64 fun i => (tabGet none s.trl.peers (64 * k + i)).isSome
  | .trlBarcfg n =>
    let b := getBar s n
    pack [(0, 16, b.group), (16, 5, b.members), (21, 1, bit b.valid), (32, 13, b.lead)]
  | .pwrCmd => 0
  | .pwrResult => pack [(0, 16, s.pwr.code.toNat), (16, 7, s.pwr.domain), (24, 1, bit s.pwr.done)]
  | .pwrState k => pwrStateWord s k
  | .pwrPending => domainMask s 0 64 fun d => d.req.isSome
  | .pwrPendingHi => domainMask s 64 16 fun d => d.req.isSome
  | .pwrFault => domainMask s 0 64 (·.fault)
  | .pwrFaultHi => domainMask s 64 16 (·.fault)
  | .pwrWakes => counts s.pwr.wakes s.pwr.demandWaits
  | .pwrPolicy d =>
    let x := getDom s d
    pack [(0, 2, x.park), (2, 2, x.closed), (16, 16, x.idleTicks)]
  | .pwrCoef k => pack [(0, 32, s.pwr.coefNext.getD (2 * k) 0), (32, 32, s.pwr.coefNext.getD (2 * k + 1) 0)]
  | .pwrDenergy d => word (getDom s d).energy
  | .errStatus =>
    let e := s.err
    pack [(0, 1, bit e.halted), (1, 1, bit e.deviceFault), (2, 1, bit e.dumpValid), (3, 1, bit e.dumpBusy), (16, 16, e.cause.toNat),
      countAt 32 32 e.fences]
  | .errGptr => pack [(0, 32, (getRing s globalRing).head), (32, 32, (getRing s globalRing).tail)]
  | .errGovf => counts (getRing s globalRing).lost (getRing s globalRing).coalesced
  | .errCtrl => s.err.ctrl
  | .errFenceto => word s.err.fenceTo
  | .errCecc => counts s.err.corrected s.err.uncorrectable
  | .errCmd => 0
  | .errResult => pack [(0, 16, s.err.resCode.toNat), (16, 1, bit (s.err.resBusy || s.err.copying)), (17, 1, bit s.err.resDone)]
  | .errDumpDst => s.err.dumpDst
  | .errDumpInfo => pack [(0, 16, s.err.dumpCause.toNat), (16, 16, s.err.missed), (32, 17, (s.err.dump.length + 1023) / 1024)]
  | .errAgroup n => tabGet 0 s.err.group n
  | .errGrec k => ringWord s globalRing (k / 8) (k % 8)
  | .errCrec n k => ringWord s n (k / 8) (k % 8)

/-- What a read of a mailbox register returns to requester `q` (R423). -/
def mbxValue (s : State) (q : Requester) (m : Nat) (r : MbxReg) : Word :=
  let x := getMbx s m
  match r with
  | .data k => x.data.getD k 0
  | .lock => word x.holder.toNat
  | .unlock | .post | .take | .ack => 0
  | .frank => pack [(0, 8, x.frankSender.toNat), (8, 16, x.frankSeq), (24, 40, x.frankPostmark)]
  | .result i => msgWord (if i = 0 then x.even else x.odd)
  | .status =>
    pack [(0, 1, bit x.posted), (1, 1, bit x.taken), (8, 8, x.holder.toNat), (16, 8, x.receiver.toNat), (24, 16, x.takenSeq)]
  | .recv =>
    pack [(0, 8, x.receiver.toNat), (8, 1, bit x.irq), (9, 6, x.vector), (15, 1, bit x.wakeValid), (16, 7, x.wakeDomain)]
  | .whoami => word q.toNat

/-! RC fields (R9, R11). -/

/-- `s` after a read of a part of a register of window `n`: the RC fields read lose what they held in `b`, the cclk's
start (R9, R11). -/
def winAfterRead (b s : State) (n : Nat) (p : Part) : WinReg → State
  | .clrWstatus => updWin s n fun w => { w with refused := rcLow p (getWin b n).refused w.refused }
  | .calWtick => updClr s n fun c => { c with lateTicks := rcLow p (getClr b n).lateTicks c.lateTicks }
  | .elaWmiss c => updMeas s n c fun m =>
      { m with atTargetTicks := rcLow p (getMeas b n c).atTargetTicks m.atTargetTicks, demotedTicks := rcHigh p (getMeas b n c).demotedTicks m.demotedTicks }
  | .elaWstat => updClr s n fun c => { c with classFixups := rcLow p (getClr b n).classFixups c.classFixups, ageTurns := rcHigh p (getClr b n).ageTurns c.ageTurns }
  | .queWstat => updQwin s n fun w => { w with dbRefused := rcLow p (getQwin b n).dbRefused w.dbRefused, lost := rcHigh p (getQwin b n).lost w.lost }
  | .stmWcount => updQwin s n fun w => { w with waits := rcLow p (getQwin b n).waits w.waits, deadLetters := rcHigh p (getQwin b n).deadLetters w.deadLetters }
  | .stmWexpired => updQwin s n fun w => { w with expired := rcLow p (getQwin b n).expired w.expired }
  | .gpeWrows => updGwin s n fun w => { w with rows := rcCross p 0 64 (getGwin b n).rows w.rows }
  | .gpeWreads => updGwin s n fun w => { w with reads := rcCross p 0 64 (getGwin b n).reads w.reads }
  | .gpeWhits => updGwin s n fun w => { w with hits := rcCross p 0 64 (getGwin b n).hits w.hits }
  | .gpeWflags => updGwin s n fun w => { w with saturatedBags := rcLow p (getGwin b n).saturatedBags w.saturatedBags, zeroBags := rcHigh p (getGwin b n).zeroBags w.zeroBags }
  | .gpeWpoison => updGwin s n fun w => { w with poisonedBags := rcLow p (getGwin b n).poisonedBags w.poisonedBags, failed := rcHigh p (getGwin b n).failed w.failed }
  | .tblWstat => updTwin s n fun w => { w with rowsWritten := rcLow p (getTwin b n).rowsWritten w.rowsWritten, publications := rcHigh p (getTwin b n).publications w.publications }
  | .tblWpoison => updTwin s n fun w => { w with lookups := rcLow p (getTwin b n).lookups w.lookups }
  | .tblWlost => updTwin s n fun w => { w with pendingLost := rcLow p (getTwin b n).pendingLost w.pendingLost, expired := rcHigh p (getTwin b n).expired w.expired }
  | .schWacctlost => updSwin s n fun w => { w with lost := rcLow p (getSwin b n).lost w.lost }
  | .schWstat => updSwin s n fun w => { w with jobs := rcLow p (getSwin b n).jobs w.jobs, overruns := rcHigh p (getSwin b n).overruns w.overruns }
  | .xltWstat => updXwin s n fun w => { w with pageRequests := rcLow p (getXwin b n).pageRequests w.pageRequests, gateRefused := rcHigh p (getXwin b n).gateRefused w.gateRefused }
  | .xltWstat2 => updXwin s n fun w => { w with misses := rcLow p (getXwin b n).misses w.misses }
  | .keyWstat => updXch s n fun x => { x with chunks := rcLow p (getXch b n).chunks x.chunks, authFail := rcHigh p (getXch b n).authFail x.authFail }
  | .pwrWstat => updPwin s n fun w => { w with waits := rcHigh p (getPwin b n).waits w.waits }
  | .errWovf => updRing s n fun g => { g with lost := rcLow p (getRing b n).lost g.lost, coalesced := rcHigh p (getRing b n).coalesced g.coalesced }
  | .detWstat => updQwin s n fun w =>
      { w with variantRefused := rcLow p (getQwin b n).variantRefused w.variantRefused, variantAdmitted := rcHigh p (getQwin b n).variantAdmitted w.variantAdmitted }
  | _ => s

/-- `s` after a read of a part of a global register: the RC fields read lose what they held in `b` (R9, R11). -/
def globAfterRead (b s : State) (p : Part) : GlobReg → State
  | .clrGstatus => { s with glob := { s.glob with refused := rcLow p b.glob.refused s.glob.refused } }
  | .calHoldstat => updCal s fun c => { c with holds := rcLow p b.cal.holds c.holds, longest := rcMax p s.cc.holdLongest c.longest }
  | .queCachestat => updQue s fun u => { u with hits := rcLow p b.que.hits u.hits, misses := rcHigh p b.que.misses u.misses }
  | .gpeDstat => updTbl s fun u => { u with saturatedBags := rcLow p b.tbl.saturatedBags u.saturatedBags, poisonedRows := rcHigh p b.tbl.poisonedRows u.poisonedRows }
  | .xltCount => updXlt s fun x => { x with invalDone := rcLow p b.xlt.invalDone x.invalDone, prgDropped := rcHigh p b.xlt.prgDropped x.prgDropped }
  | .trlCount => updTrl s fun t => { t with dropped := rcLow p b.trl.dropped t.dropped, unsent := rcHigh p b.trl.unsent t.unsent }
  | .trlLane l => updLane s l fun x => { x with errors := rcCross p 16 32 (getLane b l).errors x.errors }
  | .pwrWakes => updPwr s fun u => { u with wakes := rcLow p b.pwr.wakes u.wakes, demandWaits := rcHigh p b.pwr.demandWaits u.demandWaits }
  | .errStatus => { s with err := { s.err with fences := rcHigh p b.err.fences s.err.fences } }
  | .errGovf => updRing s globalRing fun g => { g with lost := rcLow p (getRing b globalRing).lost g.lost, coalesced := rcHigh p (getRing b globalRing).coalesced g.coalesced }
  | .errCecc => { s with err := { s.err with corrected := rcLow p b.err.corrected s.err.corrected, uncorrectable := rcHigh p b.err.uncorrectable s.err.uncorrectable } }
  | _ => s

/-- The bits of the RC fields of a window register (R525). -/
def winCounts : WinReg → Word
  | .clrWstatus => bitsFrom 16 31
  | .calWtick | .stmWexpired | .tblWpoison | .schWacctlost | .xltWstat2 => bitsFrom 0 31
  | .pwrWstat => bitsFrom 32 63
  | .elaWmiss _ | .elaWstat | .queWstat | .stmWcount | .gpeWrows | .gpeWreads | .gpeWhits | .gpeWflags | .gpeWpoison | .tblWstat
  | .tblWlost | .schWstat | .xltWstat | .keyWstat | .errWovf | .detWstat => bitsFrom 0 63
  | _ => 0

/-- As `winCounts`, of a global register. -/
def globCounts : GlobReg → Word
  | .clrGstatus => bitsFrom 16 31
  | .calHoldstat => bitsFrom 0 47
  | .trlLane _ => bitsFrom 16 47
  | .errStatus => bitsFrom 32 63
  | .queCachestat | .gpeDstat | .xltCount | .trlCount | .pwrWakes | .errGovf | .errCecc => bitsFrom 0 63
  | _ => 0

/-- What a read of a register of window `n` returns: of its RC fields, the value before any update of this cclk (R11). -/
def winRead (s : State) (n : Nat) (r : WinReg) : Word :=
  (winValue s n r &&& ~~~ winCounts r) ||| (winValue (cclkStart s) n r &&& winCounts r)

/-- As `winRead`, of a global register. -/
def globRead (s : State) (r : GlobReg) : Word :=
  (globValue s r &&& ~~~ globCounts r) ||| (globValue (cclkStart s) r &&& globCounts r)

/-- `s` after a read of a part of a register of window `n`, and the cclk's start with it. -/
def winTaken (s : State) (n : Nat) (p : Part) (r : WinReg) : State :=
  let b := cclkStart s
  keepStart (winAfterRead b s n p r) (winAfterRead b b n p r)

/-- As `winTaken`, of a global register. -/
def globTaken (s : State) (p : Part) (r : GlobReg) : State :=
  let b := cclkStart s
  keepStart (globAfterRead b s p r) (globAfterRead b b p r)

/-! The halves of a postmark (R151). -/

/-- The number of CAL_POSTMARK, or of CAL_WPOSTMARK of window `n`, among the latched halves of a requester. -/
def halfKey (q : Requester) (win : Option Nat) : Nat :=
  q.toNat * 128 + match win with
    | none => 0
    | some n => n + 1

/-- What a read of a part of the postmark returns: bits [63:32] alone as latched at the requester's latest read of bits
[31:0] of the register, where there was one. -/
def postmarkRead (s : State) (q : Requester) (win : Option Nat) (p : Part) : Word :=
  match p, tabGet none s.clk.halves (halfKey q win) with
  | .high, some h => word (h * 2 ^ 32)
  | _, _ => word s.clk.postmark

/-- A 32-bit read of bits [31:0] latches the upper half. -/
def postmarkLatch (s : State) (q : Requester) (win : Option Nat) (p : Part) : State :=
  if p = .low then
    { s with clk := { s.clk with halves := tabSet none s.clk.halves (halfKey q win) (some (s.clk.postmark / 2 ^ 32)) } }
  else s

/-! What is answered before the first tick (R140). -/

/-- Registers that a read returns before the first tick (R140). -/
def earlyReadable : GlobReg → Bool
  | .imgBoot | .imgBootTime | .imgStatus | .imgRev | .imgInfo | .imgFlashinfo | .imgDigest _ | .imgSdigest _ | .trlStatus
  | .trlCtrl => true
  | _ => false

/-- What a read of a part of what stands at a place returns, and the state after it. -/
def placeRead (s : State) (q : Requester) (p : Part) : Place8 → Word × State
  | .glob r =>
    if !running s && !earlyReadable r then (0, s)
    else if r = .calPostmark then (postmarkRead s q none p, postmarkLatch s q none p)
    else (globRead s r, globTaken s p r)
  | .win n r =>
    if !running s then (0, s)
    else if r = .calWpostmark then (postmarkRead s q (some n) p, postmarkLatch s q (some n) p)
    else (winRead s n r, winTaken s n p r)
  | .mbx m r =>
    if !running s && s.boot.phase != .bare then (0, s)
    else
      let take := r = .lock ∧ reachesLow p = true ∧ (getMbx s m).holder = 0
      (mbxValue s q m r, if take then updMbx s m fun x => { x with holder := q } else s)
  | .doorbell _ _ | .hole | .winHole _ | .mbxHole => (0, s)

end Sys2Proof.Machine
end

