-- ==== Sys2Proof/Machine/RegWrite.lean ====
section
/-! DEFINITION. What a write of each register does (R9, R12, R13): command registers hand the word to their command, the
other registers take the written value after their own checks. -/

namespace Sys2Proof.Machine

/-- A write of a register none of whose fields takes a value, or of one whose value `effect` takes after the checks `cs`
(R9, R12). -/
def winPlain (q : Requester) (n : Nat) (r : WinReg) (w : Word) (cs : State → List (Bool × Code)) (effect : State → State)
    (s : State) : State :=
  windowCmd q n s fun s => checked ((noBits w (winReserved r), qsReservedNonzero) :: cs s) s fun _ => effect s

/-- As `winPlain`, of a global register. -/
def globPlain (q : Requester) (r : GlobReg) (w : Word) (cs : State → List (Bool × Code)) (effect : State → State)
    (s : State) : State :=
  globalCmd q s fun s => checked ((noBits w (globReserved r), qsReservedNonzero) :: cs s) s fun _ => effect s

/-- A write of KEY_XBUF or KEY_WXBUF: ignored while the exchange is busy (R419, R420). -/
def xbufChecks (x : Nat) (s : State) : List (Bool × Code) := [(!(getXch s x).busy, qsKeyXbusy)]

/-- A word of an exchange buffer. -/
def xbufPut (x k : Nat) (w : Word) (s : State) : State := updXch s x fun r => { r with buf := tabSet 0 r.buf k w }

/-- `s` with the generator registers of window `n` changed (R523). -/
def updDet (s : State) (n : Nat) (f : DetWin → DetWin) : State := { s with det := tabUpd detWin0 s.det n f }

/-- A write of a register of window `n` with the 64 bits that it then carries. -/
def winWrite (q : Requester) (n : Nat) (w : Word) (r : WinReg) (s : State) : State :=
  let none' : State → List (Bool × Code) := fun _ => []
  match r with
  | .manifest _ => windowCmd q n s fun s => (qsBadAccess, s)
  | .clrNonce0 => winPlain q n r w none' (fun s => updWin s n fun k => { k with nonce0 := w }) s
  | .clrNonce1 => nonce1Write q n w s
  | .clrCtxCmd => ctxCommand q n w s
  | .clrCtxArg =>
    winPlain q n r w (fun _ => [(field w 32 16 != 0, qsIllegalValue)]) (fun s => updWin s n fun k => { k with ctxArg := w }) s
  | .queWcmd => queCommand q n w s
  | .queWdesc k => winPlain q n r w none' (fun s => updQwin s n fun x => { x with desc := x.desc.set k w }) s
  | .tblWcmd => tblCommand q (some n) w s
  | .tblWdesc k => winPlain q n r w none' (fun s => updTblPort s (some n) fun p => { p with words := p.words.set k w }) s
  | .tblWpoison =>
    winPlain q n r w none' (fun s => updTwin s n fun x => { x with event := x.event && (!wbit w 32 || s.cc.poisonSet.getLsbD n) }) s
  | .schWcanopy => canopyWrite q n w s
  | .schWmsel =>
    winPlain q n r w (fun s => [(field w 0 8 < (getClr s n).cfg.canopyModels, qsIllegalValue)])
      (fun s => updSwin s n fun x => { x with sel := field w 0 8 }) s
  | .schWacct => acctWrite q n false w s
  | .schWacctptr => acctWrite q n true w s
  | .keyWxcmd => exchangeCommand q (some n) w s
  | .keyWxbuf k => winPlain q n r w (xbufChecks n) (xbufPut n k w) s
  | .errWptr => ringHead q (some n) w s
  | .errWctrl => winPlain q n r w none' (fun s => updWin s n fun k => { k with errCtrl := w }) s
  | .errWabort => wabortWrite q n w s
  | .detWgenSeed => winPlain q n r w none' (fun s => updDet s n fun g => { g with seed := w }) s
  | .detWgenSite => winPlain q n r w none' (fun s => updDet s n fun g => { g with site := field w 0 32 }) s
  | .detWgenCtr => winPlain q n r w none' (fun s => updDet s n fun g => { g with ctr := w }) s
  | .trlWbarcmd => barrierWrite q n w s
  | .clrWstatus | .clrWstate | .clrMseq | .clrCtxResult | .clrCtxInfo _ | .calWtick | .calWpostmark | .elaWlevel | .elaWlat _
  | .elaWmiss _ | .elaWstat | .queWresult | .queWstat | .queWdbfault | .stmWuse | .stmWmem | .stmWcount | .stmWexpired
  | .gpeWeng | .gpeWrows | .gpeWreads | .gpeWhits | .gpeWflags | .gpeWpoison | .gpeWfault | .gpeWfaultpos | .tblWresult
  | .tblWtstate | .tblWhorizon | .tblWrefresh | .tblWstat | .tblWlost | .schWcanstat | .schWmid | .schWminfo | .schWacctlost
  | .schWtotal | .schWenergy | .schWstat | .schWfault | .xltWfault | .xltWfaultaddr | .xltWfaultpos | .xltWstat | .xltWstat2
  | .keyWxresult | .keyWstat | .keyWslotstat _ | .pwrWstat | .pwrWenergy | .errWrec _ | .errWovf | .errWfence | .detWgenOut
  | .detWstat | .detWls | .trlWbarstat => winPlain q n r w none' id s

/-- Domains `from'` to `from'` + `count` − 1 whose bits a write of PWR_FAULT names leave it (R441), but for one that has
faulted in this cclk (R10). -/
def clearFaults (from' count : Nat) (w : Word) (s : State) : State :=
  forEach ((List.range count).filter fun i => wbit w i && !s.cc.faultSet.getLsbD (from' + i)) s fun s i => updDom s (from' + i) fun d => { d with fault := false }

/-- The domains on which a write of PWR_POLICY(d) acts: an engine group counts as one domain (R441). -/
def policyWrite (d : Nat) (w : Word) (s : State) : State :=
  updDom s d fun x => { x with park := field w 0 2, closed := field w 2 2, idleTicks := field w 16 16 }

/-- TRL_CTRL (R140, R519). -/
def trlCtrlWrite (q : Requester) (w : Word) (s : State) : State :=
  trlCmd q s fun s =>
    checked [(noBits w (globReserved .trlCtrl), qsReservedNonzero), (field w 8 8 != 0, qsIllegalValue)] s fun _ =>
      updTrl s fun t => { t with soloNext := wbit w 0, hb := field w 8 8 }

/-- `s` with `f` applied to the error unit. -/
def updErr (s : State) (f : ErrUnit → ErrUnit) : State := { s with err := f s.err }

/-- A write of a global register with the 64 bits that it then carries; `h` answers the read of a SETTINGS. -/
def globWrite (q : Requester) (w : Word) (h : HostRead) (r : GlobReg) (s : State) : State :=
  let none' : State → List (Bool × Code) := fun _ => []
  match r with
  | .clrCmd => clrCommand q w s
  | .clrEvent => globPlain q r w none' (fun s => { s with glob := { s.glob with event := s.glob.event &&& ~~~ (w &&& ~~~ s.cc.eventSet) } }) s
  | .imgCmd => imgCommand q w h s
  | .imgSrc => globPlain q r w none' (fun s => updImg s fun i => { i with src := w }) s
  | .imgLen => globPlain q r w none' (fun s => updImg s fun i => { i with len := field w 0 25 }) s
  | .calLate => globPlain q r w none' (fun s => updCal s fun c => { c with late := c.late &&& ~~~ (w &&& ~~~ s.cc.lateSet) }) s
  | .calGuestCmd => guestCommand q w s
  | .calMgCmd => marginCommand q w s
  | .elaClass n c => elaClass q n c w s
  | .elaCtrl n => elaCtrl q n w s
  | .stmQuota n => stmQuota q n w s
  | .tblCmd => tblCommand q none w s
  | .tblDesc k => globPlain q r w none' (fun s => updTblPort s none fun p => { p with words := p.words.set k w }) s
  | .tblPrivq => globPlain q r w none' (fun s => updTbl s fun u => { u with privQ := w }) s
  | .tblHold =>
    globPlain q r w (fun _ => [(1 ≤ field w 0 32 && field w 0 32 ≤ 1000000, qsIllegalValue)])
      (fun s => setHold s (field w 0 32)) s
  | .schPasswd =>
    globPlain q r w (fun _ => [(field w 0 16 != 0, qsIllegalValue)]) (fun s => updSch s fun u => { u with passwd := field w 0 16 }) s
  | .schWeight c => weightWrite q c w s
  | .xltPrito =>
    globPlain q r w (fun _ => [(1 ≤ field w 0 32 && field w 0 32 ≤ 1000000, qsIllegalValue)])
      (fun s => updXlt s fun x => { x with timeout := field w 0 32 }) s
  | .xltPeerStage0 => globPlain q r w none' (fun s => updXlt s fun x => { x with stage0 := w }) s
  | .xltPeerStage1 => globPlain q r w none' (fun s => updXlt s fun x => { x with stage1 := w }) s
  | .xltPeerCmd => peerCommand q w s
  | .detLscfg n => lscfgWrite q n w s
  | .detLscmd => lsCommand q w s
  | .keyCmd => keyCommand q w s
  | .keyStageAttr => globPlain q r w none' (fun s => updKey s fun k => { k with stageAttr := BitVec.ofNat 32 (field w 0 32) }) s
  | .keyStage k => globPlain q r w none' (fun s => updKey s fun u => { u with stage := u.stage.set k w }) s
  | .keyXcmd => exchangeCommand q none w s
  | .keyXbuf k => globPlain q r w (xbufChecks rotSelf) (xbufPut rotSelf k w) s
  | .trlCtrl => trlCtrlWrite q w s
  | .trlCmd => trailCommand q w s
  | .trlBarcfg n => barcfgWrite q n w s
  | .pwrCmd => pwrCommand q w s
  | .pwrFault => globPlain q r w none' (clearFaults 0 64 w) s
  | .pwrFaultHi => globPlain q r w none' (clearFaults 64 16 w) s
  | .pwrPolicy d =>
    globPlain q r w (fun _ => [(field w 0 2 != 3 && field w 2 2 ≤ 1, qsIllegalValue)]) (policyWrite d w) s
  | .pwrCoef k =>
    globPlain q r w none'
      (fun s => updPwr s fun u => { u with coefNext := (u.coefNext.set (2 * k) (field w 0 32)).set (2 * k + 1) (field w 32 32) }) s
  | .errGptr => ringHead q none w s
  | .errCtrl => globPlain q r w none' (fun s => updErr s fun e => { e with ctrl := w }) s
  | .errFenceto =>
    globPlain q r w (fun _ => [(1000 ≤ field w 0 16 && field w 0 16 ≤ 50000, qsIllegalValue)])
      (fun s => updErr s fun e => { e with fenceTo := field w 0 16 }) s
  | .errCmd => errCommand q w s
  | .errDumpDst => globPlain q r w none' (fun s => updErr s fun e => { e with dumpDst := w }) s
  | .errAgroup n =>
    globPlain q r w (fun s => [(defined s n, qsClrAbsent)]) (fun s => updErr s fun e => { e with group := tabSet 0 e.group n w }) s
  | .clrState _ | .clrGstatus | .imgStatus | .imgInfo | .imgRev | .imgPending | .imgScrub | .imgDigest _ | .imgSdigest _
  | .imgFlashinfo | .imgBoot | .imgBootTime | .calStatus | .calPostmark | .calOvercommit | .calCatchup | .calGuestResult
  | .calHoldstat | .calLateInfo _ | .calMap _ | .calMgRsp _ | .calPch _ | .elaPending | .queStatus | .queCachestat | .stmStatus
  | .gpeEngine _ | .gpeFailed | .gpeDstat | .tblResult | .tblTstate | .tblHorizon | .tblRefresh | .tblStatus | .tblPoison _
  | .schCore _ | .schFailed0 | .schFailed1 | .xltStatus | .xltPri | .xltPristop | .xltCount | .xltUnit _ | .xltPeerResult
  | .xltPeerA _ | .xltPeerB _ | .detLstat _ | .keyResult | .keyStatus | .keyXresult | .keySlotstat _ | .trlStatus | .trlCount
  | .trlLane _ | .trlPeers _ | .pwrResult | .pwrState _ | .pwrPending | .pwrPendingHi | .pwrWakes | .pwrDenergy _ | .errStatus
  | .errGovf | .errCecc | .errResult | .errDumpInfo | .errGrec _ | .errCrec _ _ => globPlain q r w none' id s

/-- A write of a mailbox register (R423 to R431). -/
def mbxWrite (q : Requester) (m : Nat) (w : Word) (r : MbxReg) (s : State) : State :=
  let readOnly := fun (reserved : Word) => mbxCmd q s fun s => checked [(noBits w reserved, qsReservedNonzero)] s fun _ => s
  match r with
  | .data k => dataWrite q m k w s
  | .lock => readOnly (bitsFrom 8 63)
  | .unlock => unlockWrite q m w s
  | .post => postWrite q m w s
  | .frank => readOnly 0
  | .take => takeWrite q m w s
  | .ack => ackWrite q m w s
  | .result _ => readOnly (bitsFrom 33 63)
  | .status => readOnly (bitsFrom 2 7 ||| bitsFrom 40 63)
  | .recv => recvWrite q m w s
  | .whoami => readOnly (bitsFrom 8 63)

/-! 32-bit writes: the half that is not written keeps the value of its RW fields; of a command register and of a W1C
register it counts as zero (R6, R9). -/

/-- The bits that the unwritten half of a window register holds. -/
def winKept (s : State) (n : Nat) (r : WinReg) : Word :=
  match r with
  | .clrNonce0 | .clrNonce1 | .clrCtxArg | .queWdesc _ | .tblWdesc _ | .schWcanopy | .schWmsel | .schWacct | .schWacctptr
  | .keyWxbuf _ | .errWptr | .errWctrl | .detWgenSeed | .detWgenSite | .detWgenCtr => winValue s n r
  | _ => 0

/-- The bits that the unwritten half of a global register holds. -/
def globKept (s : State) (r : GlobReg) : Word :=
  match r with
  | .imgSrc | .imgLen | .elaClass _ _ | .elaCtrl _ | .stmQuota _ | .tblDesc _ | .tblPrivq | .tblHold | .schPasswd | .schWeight _
  | .xltPrito | .xltPeerStage0 | .xltPeerStage1 | .detLscfg _ | .keyXbuf _ | .trlCtrl | .trlBarcfg _ | .pwrPolicy _ | .pwrCoef _
  | .errGptr | .errCtrl | .errFenceto | .errDumpDst | .errAgroup _ => globValue s r
  | .keyStage k => s.key.stage.getD k 0
  | .keyStageAttr => word s.key.stageAttr.toNat
  | _ => 0

/-- The bits that the unwritten half of a mailbox register holds. -/
def mbxKept (s : State) (q : Requester) (m : Nat) (r : MbxReg) : Word :=
  match r with
  | .data _ | .recv => mbxValue s q m r
  | _ => 0

/-- A write of a part of what stands at a place; `h` answers the read of a SETTINGS. -/
def placeWrite (s : State) (q : Requester) (p : Part) (w : Word) (h : HostRead) : Place8 → State
  | .glob r => globWrite q (mergePart p (globKept s r) w) h r s
  | .win n r => winWrite q n (mergePart p (winKept s n r) w) r s
  | .mbx m r => mbxWrite q m (mergePart p (mbxKept s q m r) w) r s
  | .doorbell page d =>
    if !running s then recordStatus s (dbPageOwner s page) q qsImgNotRunning else doorbellWrite q page d w s
  | .hole => globalCmd q s fun s => (qsBadAccess, s)
  | .winHole n => windowCmd q n s fun s => (qsBadAccess, s)
  | .mbxHole => mbxCmd q s fun s => (qsBadAccess, s)

end Sys2Proof.Machine
end

