-- ==== Sys2Proof/WellFormed.lean ====
section
/-! DEFINITION. Which commands a port can carry: each operand within the width or the range that the spec gives the signal,
the register or the number that it stands for. A command that fails a check is one that no access and no event spells. -/

namespace Sys2Proof

/-- A requester number that an access carries (R422). -/
def wfReq (q : Requester) : Bool :=
  (0x01 ≤ q.toNat && q.toNat ≤ 0x41) || (0x80 ≤ q.toNat && q.toNat ≤ 0x83) || q.toNat = 0xFE

/-- A clearing number, or a clearing window's (R20). -/
def wfClearing (n : Nat) : Bool := n < 64

/-- The operation that a command register's word carries in `len` bits from bit `lo` on is the one of the row. -/
def wfOp (w : Word) (lo len op : Nat) : Bool := w.toNat / 2 ^ lo % 2 ^ len = op

/-- A task of the stream table and an envelope in it (R236, R227). -/
def wfEnv (task env : Nat) : Bool := task < 32768 && env < 1024

/-- A queue number (R214). -/
def wfQueue (q : Nat) : Bool := q < 2 ^ 20

/-- A pseudo-channel (R154). -/
def wfPch (p : Nat) : Bool := p < 1280

/-- A context number (R27). -/
def wfCtx (c : Nat) : Bool := c < 4096

/-- A granule of data (R101, R105, R109). -/
def wfGranule (bs : List Byte) : Bool := bs.length = 256

/-- An access at the register port (R96, R412, R422). -/
def wfAccess : Access → Bool
  | .host f b a _ t => f < 128 && b < 8 && a < 2 ^ 26 && t < 2 ^ 16
  | .firmware c o _ => c < 4 && o < 2 ^ 26
  | .tap o => o < 2 ^ 26

/-- What a host read brings: at most 32 MiB less one byte, IMG_LEN's range (R83). -/
def wfHostRead : HostRead → Bool
  | .bytes bs => bs.length < 2 ^ 25
  | .failed => true

/-- The part of a Trail frame that every type carries (R506). -/
def wfHead (h : FrameHead) : Bool := h.src < 1024 && h.age < 65536

/-- A mailbox (R423). -/
def wfMbx (m : Nat) : Bool := m < 256

/-- Boundary-scan cells: one for each of the 16 Trail and 12 xSPI pins (R116, R117, R120; log entry 123). -/
def boundaryCells : Nat := 28

/-- A value of the instruction register that names an instruction other than BYPASS (R116, R412). -/
def tapNamed (ir : BitVec 8) : Bool :=
  ir == 0x01 || ir == 0x02 || ir == 0x03 || ir == 0x40 || ir == 0x41 || ir == 0x42

/-- A function of the device (R91). -/
def wfFunc (f : Nat) : Bool := f ≤ 64

/-- The operands of a command lie within their widths and ranges. -/
def Instr.wf : Instr → Bool
  | .powerOnReset | .warmReset | .romPhaseEnd | .rotLcTimeout | .memoryPhaseEnd _ | .imageReadTimeout | .startupScrubDone
  | .powerPhaseEnd | .phaseTimeout | .startupBoundary | .trailTrainingTimeout | .launchWaitTimeout | .firstTick | .bootImage
  | .bootSettings | .flashWriteDone | .flashOpTimeout | .pfFunctionLevelReset | .hotReset | .errDumpCopyDone _
  | .trlRetrainTimer | .trlHelloTimer | .trlLaunchMasterTimeout | .tapIdcode | .tapDbgDmi _ | .tapDbgStatus | .tapTestLogicReset | .rotLcChange _ => true
  | .resetDeasserted puf => 5100 ≤ puf.length
  | .rotLcValid i => i.helper.length = 65536 && i.copyA.length = 512 && i.copyB.length = 512
  | .memoryPhaseTimeout stack => stack < 20
  | .flashImageReadDone bs => bs.length < 2 ^ 25
  | .bootDeliveryDone r | .imgLoadDone r => wfHostRead r
  | .tickBoundary w => w.zgRows.all fun x => x.1 < 128 && x.2.all (· < 2 ^ 32)
  | .calendarPhase w =>
    w.cpUrgency.all (fun x => x.1 < 128 && x.2.all (· < 4)) && w.hpUrgency.all (· < 4) && w.trainReq.all wfPch &&
      (w.edges = [] || w.edges.length = 16) && w.ibHeld.all (· < 128)
  | .tapBypass ir => !tapNamed ir
  | .tapSamplePreload pins cells | .tapExtest pins cells => pins.length = boundaryCells && cells.length = boundaryCells
  | .registerWrite a _ r => wfAccess a && wfHostRead r
  | .registerRead a => wfAccess a
  | .clrOpen q w => wfReq q && wfOp w 8 4 1
  | .clrQuiesce q w => wfReq q && wfOp w 8 4 2
  | .clrClose q w => wfReq q && wfOp w 8 4 3
  | .clrReset q w => wfReq q && wfOp w 8 4 4
  | .quiesceTimerExpire n | .fenceDrained n | .clearingResetDone n | .manifestIssueDone n | .resetSlow n | .lockstepTimeout n
  | .barrierRelease n | .fenceTimeout n => wfClearing n
  | .clrNonce1Write q n _ | .schWcanopyWrite q n _ | .schWacctWrite q n _ _ | .errWabort q n _ | .trlWbarcmd q n _
  | .elaCtrlWrite q n _ | .stmQuotaWrite q n _ | .detLscfgWrite q n _ | .trlBarcfgWrite q n _ => wfReq q && wfClearing n
  | .ctxCreate q n w => wfReq q && wfClearing n && wfOp w 0 4 1
  | .ctxDestroy q n w => wfReq q && wfClearing n && wfOp w 0 4 2
  | .ctxTeardown q n w => wfReq q && wfClearing n && wfOp w 0 4 3
  | .contextDrained c => wfCtx c
  | .imgLoad q w => wfReq q && wfOp w 0 4 1
  | .imgApply q w => wfReq q && wfOp w 0 4 2
  | .imgCommit q w => wfReq q && wfOp w 0 4 3
  | .imgDiscard q w => wfReq q && wfOp w 0 4 4
  | .imgFlash q w => wfReq q && wfOp w 0 4 5
  | .imgSettings q w r => wfReq q && wfOp w 0 4 6 && wfHostRead r
  | .plotScrubDone p => 8 ≤ p && p < 6400
  | .functionLevelReset f => 1 ≤ f && f ≤ 64
  | .vfEnableChange k => k ≤ 64
  | .doorbell a _ => wfAccess a
  | .doorbellApply q | .batchAdmit q | .coalesceTimeout q => wfQueue q
  | .queConfig q n w => wfReq q && wfClearing n && wfOp w 0 4 1
  | .queEnable q n w => wfReq q && wfClearing n && wfOp w 0 4 2
  | .queDisable q n w => wfReq q && wfClearing n && wfOp w 0 4 3
  | .queRead q n w => wfReq q && wfClearing n && wfOp w 0 4 4
  | .envelopeFetch q r => wfQueue q && wfHostRead r
  | .taskDeadline t | .taskEnd t => t < 32768
  | .nop t e | .fence t e | .gatherPool t e | .gather t e | .reduce t e | .envelopeAssign t e | .update t e | .publish t e
  | .refreshBegin t e | .refreshRows t e | .refreshAbort t e | .job t e | .jobWait t e | .modelLoad t e | .modelLoadDone t e
  | .modelEvict t e | .copy t e | .copy2d t e | .prefetch t e | .advise t e | .unsealData t e => wfEnv t e
  | .engineInternalFault e k => e < 64 && 1 ≤ k && k ≤ 3
  | .engineResetAck e => e < 64
  | .changeEntryRetire d r => d < 65536 && r < 2 ^ 32
  | .refreshHeldClear d | .invalidateDone d => d < 65536
  | .tableWrite q n w => wfReq q && n.all wfClearing && wfOp w 0 4 1
  | .tableInvalidate q n w => wfReq q && n.all wfClearing && wfOp w 0 4 2
  | .tableRead q n w => wfReq q && n.all wfClearing && wfOp w 0 4 3
  | .passIssue c | .passWatchdog c | .coreFrozen c | .coreResetAck c | .coreErrorReport c _ | .spareMapChange c _ => c < 128
  | .passDone c t st _ => c < 128 && t < 65536 && st < 16
  | .resetHang isCore u => if isCore then u < 128 else u < 64
  | .coreMemoryRequest c r =>
    c < 128 && r.addr < 2 ^ 64 && r.addr % 256 = 0 && r.cls < 8 && r.tag < 4096 && wfGranule r.data
  | .schWeightWrite q c _ => wfReq q && wfCtx c
  | .memoryResponse st lane t _ bs => st < 20 && lane < 4 && t < 65536 && wfGranule bs
  | .memoryResponseTimeout st lane t => st < 20 && lane < 4 && t < 65536
  | .holdBegin p | .holdEnd p | .holdLimit p | .pchFail p _ => wfPch p
  | .remap q w => wfReq q && wfOp w 16 4 1
  | .restore q w => wfReq q && wfOp w 16 4 2
  | .marginingRequest q _ | .pwrCmd q _ => wfReq q
  | .marginingResponse st _ => st < 20
  | .elaClassWrite q n c _ => wfReq q && wfClearing n && c < 8
  | .hostReadCompletion t _ bs => t < 16384 && bs.length ≤ 4096
  | .translationCompletion t _ => t < 16384
  | .atsInvalidate f p i => wfFunc f && p.all (· < 2 ^ 20) && i < 32
  | .invalidateDrained f i => wfFunc f && i < 32
  | .prgResponse f p i c => wfFunc f && p < 2 ^ 20 && i < 512 && c < 16
  | .pageRequestTimeout f i => wfFunc f && i < 512
  | .pageRequestInterfaceReset f => wfFunc f
  | .peerBind q w => wfReq q && wfOp w 16 4 1
  | .peerUnbind q w => wfReq q && wfOp w 16 4 2
  | .fabricInboundRequest r =>
    r.chip < 1024 && r.addr < 2 ^ 50 && r.addr % 256 = 0 && r.ctx < 4096 && r.gen < 65536 && r.cls < 8 && r.tag < 4096 &&
      wfGranule r.data
  | .fabricResponse t st bs => t < 4096 && st < 4 && wfGranule bs
  | .keyWrite q w => wfReq q && wfOp w 0 4 1
  | .keyErase q w => wfReq q && wfOp w 0 4 2
  | .keyEnrol q w => wfReq q && wfOp w 0 4 3
  | .keySetpass q w => wfReq q && wfOp w 0 4 4
  | .keyLcAdvance q w => wfReq q && wfOp w 0 4 5
  | .keyChallenge q w => wfReq q && wfOp w 0 4 6
  | .keyDbgAuth q w => wfReq q && wfOp w 0 4 7
  | .keyDbgPass q w => wfReq q && wfOp w 0 4 8
  | .keyDbgClose q w => wfReq q && wfOp w 0 4 9
  | .keySpdm q n w => wfReq q && n.all wfClearing && wfOp w 0 4 1
  | .keyUnwrap q n w => wfReq q && wfClearing n && wfOp w 0 4 2
  | .rotReply m => m.type < 256 && m.seq < 256 && m.origin < 65536 && m.payload.length < 65536
  | .rotKeyRelease k bs _ => k < 1024 && bs.length = 32
  | .rotTimeout o => o ≤ 64
  | .tapDbgReg _ off _ r => off < 2 ^ 26 && wfHostRead r
  | .mbxLockAcquire q m => wfReq q && wfMbx m
  | .mbxRelease q m w => wfReq q && wfMbx m && wfOp w 0 1 1
  | .mbxBreak q m w => wfReq q && wfMbx m && wfOp w 1 1 1
  | .mbxDataWrite q m k _ => wfReq q && wfMbx m && k < 16
  | .mbxPost q m _ | .mbxTake q m _ | .mbxRecvWrite q m _ => wfReq q && wfMbx m
  | .mbxAckTaken q m w => wfReq q && wfMbx m && wfOp w 16 1 0
  | .mbxAckPosted q m w => wfReq q && wfMbx m && wfOp w 16 1 1
  | .powerAck d | .powerFault d _ | .powerAckTimeout d => d < 80
  | .controlCoreWfi c => c = 2 || c = 3
  | .errDump q w => wfReq q && wfOp w 0 4 1
  | .errDumpCopy q w => wfReq q && wfOp w 0 4 2
  | .errDumpRelease q w => wfReq q && wfOp w 0 4 3
  | .crashDumpDone sram lost => sram.length = 2 ^ 20 && lost.all fun t => 1 ≤ t && t ≤ 4
  | .errFailCore q w => wfReq q && wfOp w 0 4 4
  | .errFailEngine q w => wfReq q && wfOp w 0 4 5
  | .errAbort q w => wfReq q && wfOp w 0 4 6
  | .abortReceived h g _ => wfHead h && g < 65536
  | .fwException t => t.core < 4
  | .ringHeadWrite q n _ => wfReq q && n.all wfClearing
  | .lsStart q w => wfReq q && wfOp w 8 4 1
  | .lsStop q w => wfReq q && wfOp w 8 4 2
  | .trlDigest h n _ _ | .trlLsFreeze h n _ _ => wfHead h && wfClearing n
  | .trlRetrain q w => wfReq q && wfOp w 0 4 1
  | .trlSolo q w => wfReq q && wfOp w 0 4 2
  | .trlTrainingDone ls _ es => ls.length = 8 && (es == [] || es.length = 256)
  | .trlLaneFault l _ _ => l < 8
  | .trlLinkState h _ => wfHead h
  | .trailFrameDropped bs => bs.length = 34
  | .trlHello h _ _ _ | .trlLaunch h _ _ _ | .trlHeartbeat h _ _ => wfHead h
  | .trlPeerLost c => c < 1024
  | .trlArrive h g _ => wfHead h && g < 65536

end Sys2Proof
end

