-- ==== Sys2Proof/Machine/Bus.lean ====
section
/-! DEFINITION. The register port (R1, R2, R6, R7, R91, R93, R97, R422): which requester an access carries and what it
reaches, REGISTER_WRITE, REGISTER_READ and DOORBELL; and the TAP (R115, R116, R412). -/

namespace Sys2Proof.Machine

/-- What an access reaches (R93, R97). -/
inductive Reach where
  /-- A function or a BAR that does not exist (R97). -/
  | nothing
  /-- Beyond the part of its BAR that maps a resource (R2, R93). -/
  | foreign
  /-- An offset in the 64 MiB space (R20). -/
  | space (off : Nat)
  deriving DecidableEq, Repr

/-- The requester number of an access (R422). -/
def accessReq : Access → Requester
  | .host f _ _ _ _ => if f = 0 then reqRanger else if f ≤ 64 then reqTenant (f - 1) else 0
  | .firmware c _ _ => BitVec.ofNat 8 (0x80 + c % 4)
  | .tap _ => reqTap

/-- Where an access of virtual function n + 1 leads (R93). -/
def vfReach (s : State) (n bar addr : Nat) : Reach :=
  let g := (getClr s n).cfg
  match bar with
  | 0 => if addr < 0x10000 then .space (0x01000000 + n * 0x10000 + addr) else .foreign
  | 2 =>
    if defined s n ∧ addr / 0x1000 < g.dbCount then .space (0x02000000 + (g.dbBase + addr / 0x1000) * 0x1000 + addr % 0x1000)
    else .foreign
  | 4 => if addr < 0x100000 then .space (0x03000000 + addr) else .foreign
  | _ => .nothing

/-- What an access reaches (R91, R93, R97, R422). -/
def accessReach (s : State) : Access → Reach
  | .host f bar addr _ _ =>
    if f = 0 then (if bar = 0 then .space (addr % 2 ^ 26) else .nothing)
    else if f ≤ s.glob.numVfs ∧ f ≤ 64 then vfReach s (f - 1) bar addr
    else .nothing
  | .firmware _ off _ => .space (off % 2 ^ 26)
  | .tap off => .space (off % 2 ^ 26)

/-- The part of a register that an access reaches (R6, R412). -/
def accessWidth : Access → Option Part
  | .host _ _ addr be _ => accessPart addr be
  | .firmware _ off be => accessPart off be
  | .tap off => accessPart off 0xFF

/-- The window in whose status register an access to a place records (R528); none: the global one. -/
def placeWindow (s : State) (q : Requester) : Place8 → Option Nat
  | .glob _ | .hole => homeWindow q
  | .win n _ | .winHole n => some n
  | .doorbell page _ => dbPageOwner s page
  | .mbx _ _ | .mbxHole => homeWindow q

/-- Doorbells accept only aligned 64-bit writes (R6). -/
def partAllowed : Place8 → Part → Bool
  | .doorbell _ _, p => p == .whole
  | _, _ => true

/-- No access reaches the block: the port's ready is low (R140), or the access is one of DBG_REG while debug access is
closed, when that instruction acts as BYPASS (R1, R412). -/
def accessShut (s : State) (a : Access) : Bool :=
  portClosed s || match a with
    | .tap _ => !s.key.debugOpen
    | .host _ _ _ _ _ | .firmware _ _ _ => false

/-- A write at the register port; `h` answers the read of a SETTINGS. Before hp_t_ready rises none is taken (R140). -/
def portWrite (a : Access) (w : Word) (h : HostRead) (s : State) : State :=
  let q := accessReq a
  if accessShut s a then s
  else match accessReach s a with
    | .nothing => recordStatus s none q qsBadAccess
    | .foreign => recordStatus s (homeWindow q) q (if (accessWidth a).isSome then qsNotOwner else qsBadAccess)
    | .space off =>
      let x := placeAt s off
      match accessWidth a with
      | none => recordStatus s (placeWindow s q x) q qsBadAccess
      | some p => if partAllowed x p then placeWrite s q p w h x else recordStatus s (placeWindow s q x) q qsBadAccess

/-- What a read at the register port returns, and the state after it: a narrower, unaligned or disallowed one returns zero
and records QS_BAD_ACCESS (R6), but before the first tick, when every such read only returns zero (R140). -/
def portRead (a : Access) (s : State) : Word × State :=
  let q := accessReq a
  match accessReach s a with
  | .nothing => (0, s)
  | .foreign =>
    (0, if (accessWidth a).isSome || !running s then s else recordRead s (homeWindow q) qsBadAccess)
  | .space off =>
    let x := placeAt s off
    match accessWidth a with
    | none => (0, if running s then recordRead s (placeWindow s q x) qsBadAccess else s)
    | some p =>
      if partAllowed x p || !running s then placeRead s q p x else (0, recordRead s (placeWindow s q x) qsBadAccess)

/-- hp_t_tag of an access on the host port (R96). -/
def accessTag : Access → Option Nat
  | .host _ _ _ _ t => some t
  | .firmware _ _ _ | .tap _ => none

/-- The answer of a read on the port by which it came, with its tag on hp_r (R6, R96). -/
def readAnswer (a : Access) (v : Word) : Output :=
  match accessWidth a with
  | some .low => .regReadHalf false (BitVec.ofNat 32 (field v 0 32)) (accessTag a)
  | some .high => .regReadHalf true (BitVec.ofNat 32 (field v 32 32)) (accessTag a)
  | _ => .regRead v (accessTag a)

/-- REGISTER_WRITE (R6, R13, R97). -/
def execRegisterWrite (a : Access) (w : Word) (r : HostRead) (s : State) : Result := .next (portWrite a w r s)

/-- REGISTER_READ (R6, R9, R97). -/
def execRegisterRead (a : Access) (s : State) : Result :=
  .next (if accessShut s a then s else emit (portRead a s).2 (readAnswer a (portRead a s).1))

/-- DOORBELL (R218, R219). -/
def execDoorbell (a : Access) (w : Word) (s : State) : Result := .next (portWrite a w .failed s)

/-! The TAP (R115, R116, R412). -/

/-- `s` with `f` applied to the TAP. -/
def updTap (s : State) (f : Tap → Tap) : State := { s with tap := f s.tap }

/-- The TAP controller's next state at a rising edge of tck (R115). -/
def tapStep (c : TapCtl) (tms : Bool) : TapCtl :=
  match c, tms with
  | .testLogicReset, true => .testLogicReset
  | .testLogicReset, false => .runTestIdle
  | .runTestIdle, true => .selectDr
  | .runTestIdle, false => .runTestIdle
  | .selectDr, true => .selectIr
  | .selectDr, false => .captureDr
  | .captureDr, true => .exit1Dr
  | .captureDr, false => .shiftDr
  | .shiftDr, true => .exit1Dr
  | .shiftDr, false => .shiftDr
  | .exit1Dr, true => .updateDr
  | .exit1Dr, false => .pauseDr
  | .pauseDr, true => .exit2Dr
  | .pauseDr, false => .pauseDr
  | .exit2Dr, true => .updateDr
  | .exit2Dr, false => .shiftDr
  | .updateDr, true => .selectDr
  | .updateDr, false => .runTestIdle
  | .selectIr, true => .testLogicReset
  | .selectIr, false => .captureIr
  | .captureIr, true => .exit1Ir
  | .captureIr, false => .shiftIr
  | .shiftIr, true => .exit1Ir
  | .shiftIr, false => .shiftIr
  | .exit1Ir, true => .updateIr
  | .exit1Ir, false => .pauseIr
  | .pauseIr, true => .exit2Ir
  | .pauseIr, false => .pauseIr
  | .exit2Ir, true => .updateIr
  | .exit2Ir, false => .shiftIr
  | .updateIr, true => .selectDr
  | .updateIr, false => .runTestIdle

/-- The state after a run of tms values. -/
def tapWalk (c : TapCtl) (tms : List Bool) : TapCtl := tms.foldl tapStep c

/-- tdo_en: 1 in Shift-DR and in Shift-IR (R115). -/
def tdoEn (c : TapCtl) : Bool := c == .shiftDr || c == .shiftIr

/-- The tms values of a command of the table: from Run-Test/Idle or Test-Logic-Reset through a scan of the 8-bit
instruction register and one of a `width`-bit data register, back to Run-Test/Idle (log entry 126). -/
def scanTms (width : Nat) : List Bool :=
  [false, true, true, false, false] ++ List.replicate 7 false ++ [true, true, true, false, false] ++
    List.replicate (width - 1) false ++ [true, true, false]

/-- The instruction register takes `ir`, and a data register of `width` bits that captured `value` is shifted out on tdo,
while tdo_en is 1. -/
def tapScan (s : State) (ir : BitVec 8) (width value : Nat) : State :=
  emit (updTap s fun t => { t with ctl := tapWalk t.ctl (scanTms width), ir := ir }) (.tapShift width value)

/-- The life-cycle state leaves EXTEST and the debug instructions open (R116): debug access is open (R411, R412). -/
def tapOpen (s : State) : Bool := s.key.debugOpen

/-- What the IDCODE register reads (R116). -/
def idcode : Nat := Config.blockRev * 2 ^ 28 + 0x0305 * 2 ^ 12 + Config.jtagMfr.toNat * 2 + 1

/-- A scan of the bypass register: one bit, 0 at Capture-DR. -/
def bypassScan (s : State) (ir : BitVec 8) : State := tapScan s ir 1 0

/-- An instruction that acts as BYPASS while it is closed (R116, R412). -/
def tapGuard (s : State) (ir : BitVec 8) (act : State → State) : State := if tapOpen s then act s else bypassScan s ir

/-- IDCODE (R116). -/
def execTapIdcode (s : State) : Result := .next (tapScan s 0x01 32 idcode)

/-- BYPASS (R116): 0xFF, and every value without an instruction; no value that names another instruction. -/
def execTapBypass (ir : BitVec 8) (s : State) : Result := .next (if tapNamed ir then s else bypassScan s ir)

/-- A vector of bits as a number, the first bit lowest. -/
def bitsNat (bs : List Bool) : Nat := bs.foldr (fun b a => bit b + 2 * a) 0

/-- The boundary-scan cells of the Trail and xSPI pins capture the pins, are shifted out, and take a vector at Update-DR
(R116). -/
def boundaryScan (s : State) (ir : BitVec 8) (pins cells : List Bool) : State :=
  updTap (tapScan s ir boundaryCells (bitsNat (pins.take boundaryCells))) fun t => { t with cells := cells.take boundaryCells }

/-- SAMPLE/PRELOAD (R116). -/
def execTapSamplePreload (pins cells : List Bool) (s : State) : Result := .next (boundaryScan s 0x02 pins cells)

/-- Pin `i`, in the order of log entry 123, is one that the QPF-3 drives: a Trail output of a pair, or an xSPI output or data line,
that is not shorted (R117, R120, R122, R504). -/
def pinDriven (s : State) (i : Nat) : Bool :=
  (i < 8 && laneDriven s (i % 4)) || i == 16 || i == 17 || i == 27 || (18 ≤ i && i < 26 && !s.boot.shorted.getLsbD (i - 18))

/-- The levels that the cells drive on the pins (R116, R122). -/
def boundaryLevels (s : State) : List (Nat × Bool) :=
  (s.tap.cells.zipIdx.filter fun c => pinDriven s c.2).map fun c => (c.2, c.1)

/-- EXTEST (R116): the cells take a vector and drive their pins; not open in Deployed. -/
def execTapExtest (pins cells : List Bool) (s : State) : Result :=
  .next (tapGuard s 0x03 fun s =>
    let s := boundaryScan s 0x03 pins cells
    emit s (.boundary (boundaryLevels s)))

/-- An access of DBG_REG as requester 0xFE (R1, R412): a read's data is shifted out, in bits [90:27], from the next
Capture-DR on. `h` answers the read of a SETTINGS (log entry 40). -/
def dbgReg (write : Bool) (off : Nat) (data : Word) (h : HostRead) (s : State) : State :=
  let s := tapScan s 0x40 91 (s.tap.capture.toNat * 2 ^ 27)
  if portClosed s then s
  else if write then portWrite (.tap off) data h s
  else
    let r := portRead (.tap off) s
    updTap r.2 fun t => { t with capture := r.1 }

/-- DBG_REG (R412). -/
def execTapDbgReg (write : Bool) (off : Nat) (data : Word) (r : HostRead) (s : State) : Result :=
  .next (tapGuard s 0x40 (dbgReg write off data r))

/-- DBG_DMI (R412): an access on the debug module interface; its answer is a free value (log entry 14). -/
def execTapDbgDmi (dmi : BitVec 41) (s : State) : Result :=
  .next (tapGuard s 0x41 fun s =>
    tapScan (emit (updTap s fun t => { t with dmiCount := t.dmiCount + 1 }) (.dmi dmi.toNat)) 0x41 41
      (Config.dmiAnswer s.tap.dmiCount).toNat)

/-- DBG_STATUS (R412): KEY_STATUS bits [31:0]. -/
def execTapDbgStatus (s : State) : Result :=
  .next (tapGuard s 0x42 fun s => tapScan s 0x42 32 (field (keyStatusWord s) 0 32))

/-- TEST_LOGIC_RESET (R116): trst_n, or five tck with tms at 1; IDCODE is selected. -/
def execTapTestLogicReset (s : State) : Result :=
  .next (updTap s fun t => { t with ctl := tapWalk t.ctl (List.replicate 5 true), ir := 0x01 })

end Sys2Proof.Machine
end

