-- ==== Sys2Proof/Machine/Dump.lean ====
section
/-! DEFINITION. The crash dump (R479 to R481): its header and its sections. -/

namespace Sys2Proof.Machine

/-- The 8-byte aligned offsets of `n` words from `base` on. -/
def wordSpan (base n : Nat) : List Nat := (List.range n).map fun i => base + 8 * i

/-- The offsets at which the global control, key, Trail, power and error regions hold registers (R525), ascending. -/
def dumpSpans : List Nat :=
  wordSpan 0 0x4600 ++ wordSpan 0x03100000 0xC00 ++ wordSpan 0x03200000 0x200 ++ wordSpan 0x03300000 0x200 ++
    wordSpan 0x03400000 0x2A000

/-- A register of a dump: its offset and its value (R480). -/
def dumpPair (off : Nat) (v : Word) : List Byte := leBytes 8 off ++ leBytes 8 v.toNat

/-- One global register of section type 2; KEY_XBUF is left out (R480, R481). -/
def dumpGlobal (s : State) (off : Nat) : List Byte :=
  match placeAt s off with
  | .glob (.keyXbuf _) => []
  | .glob r => dumpPair off (globRead s r)
  | .win _ _ | .doorbell _ _ | .mbx _ _ | .hole | .winHole _ | .mbxHole => []

/-- One register of window `n`, of section type 3; manifest pages and KEY_WXBUF are left out (R480, R481). -/
def dumpWindow (s : State) (off : Nat) : List Byte :=
  match placeAt s off with
  | .win _ (.manifest _) | .win _ (.keyWxbuf _) => []
  | .win n r => dumpPair off (winRead s n r)
  | .glob _ | .doorbell _ _ | .mbx _ _ | .hole | .winHole _ | .mbxHole => []

/-- The control-core SRAM with its key region zero (R480, R481). -/
def dumpSram (sram : List Byte) : List Byte :=
  let b := Config.sramKeyBase % (2 ^ 20 - 2 ^ 16 + 1)
  sram.take b ++ zeroBytes (2 ^ 16) ++ sram.drop (b + 2 ^ 16)

/-- The sections, types 1 to 4 in order; one whose state the cause has lost has length 0 (R479), and so has type 4, whose
layout is reserved (R480). -/
def dumpSections (s : State) (sram : List Byte) (lost : List Nat) : List (List Byte) :=
  [(1, fun _ => dumpSram sram), (2, fun _ => dumpSpans.flatMap (dumpGlobal s)),
   (3, fun _ => (definedClearings s).flatMap fun n => (wordSpan (0x01000000 + n * 0x10000) 0x2000).flatMap (dumpWindow s)),
   (4, fun (_ : Unit) => [])].map fun (x : Nat × (Unit → List Byte)) => if lost.contains x.1 then [] else x.2 ()

/-- The 16 bytes of a section's entry. -/
def dumpEntry (type off len : Nat) : List Byte := leBytes 1 type ++ zeroBytes 3 ++ leBytes 4 off ++ leBytes 4 len ++ zeroBytes 4

/-- The offsets of sections of these lengths, from 0x1000 on. -/
def sectionOffsets : Nat → List Nat → List Nat
  | _, [] => []
  | o, l :: r => o :: sectionOffsets (o + l) r

/-- The 4 KiB header (R480). -/
def dumpHeader (s : State) (ls : List Nat) : List Byte :=
  let digest := match s.img.force with
    | none => zeroBytes 48
    | some im => digestBytes im.digest
  let entries := ((sectionOffsets 0x1000 ls).zip ls).zipIdx.flatMap fun e => dumpEntry (e.2 + 1) e.1.1 e.1.2
  asciiBytes "QPFDUMP3" ++ leBytes 2 1 ++ leBytes 2 ls.length ++ leBytes 2 s.err.dumpCause.toNat ++ leBytes 1 Config.blockRev ++
    leBytes 1 s.boot.lc ++ leBytes 8 s.err.dumpPostmark ++ leBytes 4 (0x1000 + ls.sum) ++ leBytes 4 (svnInForce s) ++ digest ++
    zeroBytes 48 ++ entries ++ zeroBytes (512 - 16 * ls.length) ++ zeroBytes 3456

/-- The bytes of a dump (R480). -/
def dumpBytes (s : State) (sram : List Byte) (lost : List Nat) : List Byte :=
  let xs := dumpSections s sram lost
  dumpHeader s (xs.map (·.length)) ++ xs.flatten

/-- The bytes of a dump, 64 at a time. -/
def lines64 : Nat → List Byte → List (List Byte)
  | 0, _ => []
  | _, [] => []
  | n + 1, bs => bs.take 64 :: lines64 n (bs.drop 64)

/-- The WRITEs of a dump, by R450's path: its sections, then its header (R479, R529). -/
def dumpTraffic (bs : List Byte) : List MemReq :=
  let rs := (lines64 bs.length bs).zipIdx.map fun l => ownReq (.own 0) true (0x7C000000 + 64 * l.2) l.1
  rs.drop 64 ++ rs.take 64

/-- CRASH_DUMP_DONE (R479): the sections and the header go to the dump area as own traffic; the dump is valid (log entry
149). -/
def crashDumpDone (s : State) (sram : List Byte) (lost : List Nat) : State :=
  if !s.err.dumpBusy || !running s then s
  else
    let bs := dumpBytes s sram lost
    let s := updQue s fun u => { u with ownWait := u.ownWait ++ dumpTraffic bs }
    let s := { s with err := { s.err with
      dumpValid := true, dumpBusy := false, dump := bs, resDone := s.err.resDone || s.err.resBusy, resBusy := false } }
    raise s (newRec s qsErrDump 0 0 0 s.err.dumpCause.toNat bs.length 0)

/-- CRASH_DUMP_DONE (R479). -/
def execCrashDumpDone (sram : List Byte) (lost : List Nat) (s : State) : Result := .next (crashDumpDone s sram lost)

end Sys2Proof.Machine
end

