-- ==== Sys2Proof/Machine/Dispatch.lean ====
section
/-! DEFINITION. The dispatch of commands: one arm per constructor of `Instr`, each a direct call of the command's
meaning. -/

namespace Sys2Proof.Machine

def exec (i : Instr) (s : State) : Host.Outcome State Fault Refusal :=
  match i with
  | .powerOnReset => Sys2Proof.Machine.execPowerOnReset s
  | .warmReset => Sys2Proof.Machine.execWarmReset s
  | .resetDeasserted puf => Sys2Proof.Machine.execResetDeasserted puf s
  | .romPhaseEnd => Sys2Proof.Machine.execRomPhaseEnd s
  | .rotLcValid inp => Sys2Proof.Machine.execRotLcValid inp s
  | .rotLcTimeout => Sys2Proof.Machine.execRotLcTimeout s
  | .memoryPhaseEnd inp => Sys2Proof.Machine.execMemoryPhaseEnd inp s
  | .memoryPhaseTimeout stack => Sys2Proof.Machine.execMemoryPhaseTimeout stack s
  | .flashImageReadDone bs => Sys2Proof.Machine.execFlashImageReadDone bs s
  | .imageReadTimeout => Sys2Proof.Machine.execImageReadTimeout s
  | .startupScrubDone => Sys2Proof.Machine.execStartupScrubDone s
  | .powerPhaseEnd => Sys2Proof.Machine.execPowerPhaseEnd s
  | .phaseTimeout => Sys2Proof.Machine.execPhaseTimeout s
  | .startupBoundary => Sys2Proof.Machine.execStartupBoundary s
  | .trailTrainingTimeout => Sys2Proof.Machine.execTrailTrainingTimeout s
  | .launchWaitTimeout => Sys2Proof.Machine.execLaunchWaitTimeout s
  | .firstTick => Sys2Proof.Machine.execFirstTick s
  | .bootImage => Sys2Proof.Machine.execBootImage s
  | .bootSettings => Sys2Proof.Machine.execBootSettings s
  | .bootDeliveryDone r => Sys2Proof.Machine.execBootDeliveryDone r s
  | .tickBoundary wires => Sys2Proof.Machine.execTickBoundary wires s
  | .calendarPhase wires => Sys2Proof.Machine.execCalendarPhase wires s
  | .registerWrite a w r => Sys2Proof.Machine.execRegisterWrite a w r s
  | .registerRead a => Sys2Proof.Machine.execRegisterRead a s
  | .clrOpen q w => Sys2Proof.Machine.execClrOpen q w s
  | .clrQuiesce q w => Sys2Proof.Machine.execClrQuiesce q w s
  | .clrClose q w => Sys2Proof.Machine.execClrClose q w s
  | .clrReset q w => Sys2Proof.Machine.execClrReset q w s
  | .quiesceTimerExpire n => Sys2Proof.Machine.execQuiesceTimerExpire n s
  | .fenceDrained n => Sys2Proof.Machine.execFenceDrained n s
  | .clearingResetDone n => Sys2Proof.Machine.execClearingResetDone n s
  | .manifestIssueDone n => Sys2Proof.Machine.execManifestIssueDone n s
  | .clrNonce1Write q n w => Sys2Proof.Machine.execClrNonce1Write q n w s
  | .ctxCreate q n w => Sys2Proof.Machine.execCtxCreate q n w s
  | .ctxDestroy q n w => Sys2Proof.Machine.execCtxDestroy q n w s
  | .ctxTeardown q n w => Sys2Proof.Machine.execCtxTeardown q n w s
  | .contextDrained c => Sys2Proof.Machine.execContextDrained c s
  | .imgLoad q w => Sys2Proof.Machine.execImgLoad q w s
  | .imgLoadDone r => Sys2Proof.Machine.execImgLoadDone r s
  | .imgApply q w => Sys2Proof.Machine.execImgApply q w s
  | .imgCommit q w => Sys2Proof.Machine.execImgCommit q w s
  | .imgDiscard q w => Sys2Proof.Machine.execImgDiscard q w s
  | .imgFlash q w => Sys2Proof.Machine.execImgFlash q w s
  | .imgSettings q w r => Sys2Proof.Machine.execImgSettings q w r s
  | .flashWriteDone => Sys2Proof.Machine.execFlashWriteDone s
  | .flashOpTimeout => Sys2Proof.Machine.execFlashOpTimeout s
  | .plotScrubDone plot => Sys2Proof.Machine.execPlotScrubDone plot s
  | .functionLevelReset f => Sys2Proof.Machine.execFunctionLevelReset f s
  | .pfFunctionLevelReset => Sys2Proof.Machine.execPfFunctionLevelReset s
  | .hotReset => Sys2Proof.Machine.execHotReset s
  | .vfEnableChange numVfs => Sys2Proof.Machine.execVfEnableChange numVfs s
  | .resetSlow n => Sys2Proof.Machine.execResetSlow n s
  | .doorbell a w => Sys2Proof.Machine.execDoorbell a w s
  | .doorbellApply queue => Sys2Proof.Machine.execDoorbellApply queue s
  | .queConfig q n w => Sys2Proof.Machine.execQueConfig q n w s
  | .queEnable q n w => Sys2Proof.Machine.execQueEnable q n w s
  | .queDisable q n w => Sys2Proof.Machine.execQueDisable q n w s
  | .queRead q n w => Sys2Proof.Machine.execQueRead q n w s
  | .envelopeFetch queue r => Sys2Proof.Machine.execEnvelopeFetch queue r s
  | .batchAdmit queue => Sys2Proof.Machine.execBatchAdmit queue s
  | .taskDeadline task => Sys2Proof.Machine.execTaskDeadline task s
  | .taskEnd task => Sys2Proof.Machine.execTaskEnd task s
  | .coalesceTimeout queue => Sys2Proof.Machine.execCoalesceTimeout queue s
  | .nop task env => Sys2Proof.Machine.execNop task env s
  | .fence task env => Sys2Proof.Machine.execFence task env s
  | .stmQuotaWrite q n w => Sys2Proof.Machine.execStmQuotaWrite q n w s
  | .gatherPool task env => Sys2Proof.Machine.execGatherPool task env s
  | .gather task env => Sys2Proof.Machine.execGather task env s
  | .reduce task env => Sys2Proof.Machine.execReduce task env s
  | .envelopeAssign task env => Sys2Proof.Machine.execEnvelopeAssign task env s
  | .engineInternalFault e kind => Sys2Proof.Machine.execEngineInternalFault e kind s
  | .engineResetAck e => Sys2Proof.Machine.execEngineResetAck e s
  | .update task env => Sys2Proof.Machine.execUpdate task env s
  | .publish task env => Sys2Proof.Machine.execPublish task env s
  | .refreshBegin task env => Sys2Proof.Machine.execRefreshBegin task env s
  | .refreshRows task env => Sys2Proof.Machine.execRefreshRows task env s
  | .refreshAbort task env => Sys2Proof.Machine.execRefreshAbort task env s
  | .changeEntryRetire desc row => Sys2Proof.Machine.execChangeEntryRetire desc row s
  | .refreshHeldClear desc => Sys2Proof.Machine.execRefreshHeldClear desc s
  | .tableWrite q n w => Sys2Proof.Machine.execTableWrite q n w s
  | .tableInvalidate q n w => Sys2Proof.Machine.execTableInvalidate q n w s
  | .tableRead q n w => Sys2Proof.Machine.execTableRead q n w s
  | .invalidateDone desc => Sys2Proof.Machine.execInvalidateDone desc s
  | .job task env => Sys2Proof.Machine.execJob task env s
  | .jobWait task env => Sys2Proof.Machine.execJobWait task env s
  | .modelLoad task env => Sys2Proof.Machine.execModelLoad task env s
  | .modelLoadDone task env => Sys2Proof.Machine.execModelLoadDone task env s
  | .modelEvict task env => Sys2Proof.Machine.execModelEvict task env s
  | .passIssue core => Sys2Proof.Machine.execPassIssue core s
  | .passDone core tag status drained => Sys2Proof.Machine.execPassDone core tag status drained s
  | .passWatchdog core => Sys2Proof.Machine.execPassWatchdog core s
  | .coreFrozen core => Sys2Proof.Machine.execCoreFrozen core s
  | .coreResetAck core => Sys2Proof.Machine.execCoreResetAck core s
  | .resetHang isCore unit => Sys2Proof.Machine.execResetHang isCore unit s
  | .coreMemoryRequest core r => Sys2Proof.Machine.execCoreMemoryRequest core r s
  | .coreErrorReport core code => Sys2Proof.Machine.execCoreErrorReport core code s
  | .spareMapChange core map => Sys2Proof.Machine.execSpareMapChange core map s
  | .schWeightWrite q c w => Sys2Proof.Machine.execSchWeightWrite q c w s
  | .schWcanopyWrite q n w => Sys2Proof.Machine.execSchWcanopyWrite q n w s
  | .schWacctWrite q n ptr w => Sys2Proof.Machine.execSchWacctWrite q n ptr w s
  | .memoryResponse stack lane tag ecc data => Sys2Proof.Machine.execMemoryResponse stack lane tag ecc data s
  | .memoryResponseTimeout stack lane tag => Sys2Proof.Machine.execMemoryResponseTimeout stack lane tag s
  | .holdBegin p => Sys2Proof.Machine.execHoldBegin p s
  | .holdEnd p => Sys2Proof.Machine.execHoldEnd p s
  | .holdLimit p => Sys2Proof.Machine.execHoldLimit p s
  | .pchFail p level => Sys2Proof.Machine.execPchFail p level s
  | .remap q w => Sys2Proof.Machine.execRemap q w s
  | .restore q w => Sys2Proof.Machine.execRestore q w s
  | .marginingRequest q w => Sys2Proof.Machine.execMarginingRequest q w s
  | .marginingResponse stack rsp => Sys2Proof.Machine.execMarginingResponse stack rsp s
  | .elaClassWrite q n c w => Sys2Proof.Machine.execElaClassWrite q n c w s
  | .elaCtrlWrite q n w => Sys2Proof.Machine.execElaCtrlWrite q n w s
  | .hostReadCompletion tag st data => Sys2Proof.Machine.execHostReadCompletion tag st data s
  | .translationCompletion tag r => Sys2Proof.Machine.execTranslationCompletion tag r s
  | .atsInvalidate func pasid itag => Sys2Proof.Machine.execAtsInvalidate func pasid itag s
  | .invalidateDrained func itag => Sys2Proof.Machine.execInvalidateDrained func itag s
  | .prgResponse func pasid index code => Sys2Proof.Machine.execPrgResponse func pasid index code s
  | .pageRequestTimeout func index => Sys2Proof.Machine.execPageRequestTimeout func index s
  | .pageRequestInterfaceReset func => Sys2Proof.Machine.execPageRequestInterfaceReset func s
  | .copy task env => Sys2Proof.Machine.execCopy task env s
  | .copy2d task env => Sys2Proof.Machine.execCopy2d task env s
  | .prefetch task env => Sys2Proof.Machine.execPrefetch task env s
  | .advise task env => Sys2Proof.Machine.execAdvise task env s
  | .peerBind q w => Sys2Proof.Machine.execPeerBind q w s
  | .peerUnbind q w => Sys2Proof.Machine.execPeerUnbind q w s
  | .fabricInboundRequest r => Sys2Proof.Machine.execFabricInboundRequest r s
  | .fabricResponse tag status data => Sys2Proof.Machine.execFabricResponse tag status data s
  | .keyWrite q w => Sys2Proof.Machine.execKeyWrite q w s
  | .keyErase q w => Sys2Proof.Machine.execKeyErase q w s
  | .keyEnrol q w => Sys2Proof.Machine.execKeyEnrol q w s
  | .keySetpass q w => Sys2Proof.Machine.execKeySetpass q w s
  | .keyLcAdvance q w => Sys2Proof.Machine.execKeyLcAdvance q w s
  | .keyChallenge q w => Sys2Proof.Machine.execKeyChallenge q w s
  | .keyDbgAuth q w => Sys2Proof.Machine.execKeyDbgAuth q w s
  | .keyDbgPass q w => Sys2Proof.Machine.execKeyDbgPass q w s
  | .keyDbgClose q w => Sys2Proof.Machine.execKeyDbgClose q w s
  | .keySpdm q n w => Sys2Proof.Machine.execKeySpdm q n w s
  | .keyUnwrap q n w => Sys2Proof.Machine.execKeyUnwrap q n w s
  | .unsealData task env => Sys2Proof.Machine.execUnsealData task env s
  | .rotReply m => Sys2Proof.Machine.execRotReply m s
  | .rotKeyRelease slot key attr => Sys2Proof.Machine.execRotKeyRelease slot key attr s
  | .rotTimeout origin => Sys2Proof.Machine.execRotTimeout origin s
  | .rotLcChange lc => Sys2Proof.Machine.execRotLcChange lc s
  | .tapIdcode => Sys2Proof.Machine.execTapIdcode s
  | .tapBypass ir => Sys2Proof.Machine.execTapBypass ir s
  | .tapSamplePreload pins cells => Sys2Proof.Machine.execTapSamplePreload pins cells s
  | .tapExtest pins cells => Sys2Proof.Machine.execTapExtest pins cells s
  | .tapDbgReg write off data r => Sys2Proof.Machine.execTapDbgReg write off data r s
  | .tapDbgDmi dmi => Sys2Proof.Machine.execTapDbgDmi dmi s
  | .tapDbgStatus => Sys2Proof.Machine.execTapDbgStatus s
  | .tapTestLogicReset => Sys2Proof.Machine.execTapTestLogicReset s
  | .mbxLockAcquire q m => Sys2Proof.Machine.execMbxLockAcquire q m s
  | .mbxRelease q m w => Sys2Proof.Machine.execMbxRelease q m w s
  | .mbxBreak q m w => Sys2Proof.Machine.execMbxBreak q m w s
  | .mbxDataWrite q m k w => Sys2Proof.Machine.execMbxDataWrite q m k w s
  | .mbxPost q m w => Sys2Proof.Machine.execMbxPost q m w s
  | .mbxTake q m w => Sys2Proof.Machine.execMbxTake q m w s
  | .mbxAckTaken q m w => Sys2Proof.Machine.execMbxAckTaken q m w s
  | .mbxAckPosted q m w => Sys2Proof.Machine.execMbxAckPosted q m w s
  | .mbxRecvWrite q m w => Sys2Proof.Machine.execMbxRecvWrite q m w s
  | .pwrCmd q w => Sys2Proof.Machine.execPwrCmd q w s
  | .powerAck d => Sys2Proof.Machine.execPowerAck d s
  | .powerFault d state3 => Sys2Proof.Machine.execPowerFault d state3 s
  | .powerAckTimeout d => Sys2Proof.Machine.execPowerAckTimeout d s
  | .controlCoreWfi core => Sys2Proof.Machine.execControlCoreWfi core s
  | .errDump q w => Sys2Proof.Machine.execErrDump q w s
  | .errDumpCopy q w => Sys2Proof.Machine.execErrDumpCopy q w s
  | .errDumpCopyDone ok => Sys2Proof.Machine.execErrDumpCopyDone ok s
  | .errDumpRelease q w => Sys2Proof.Machine.execErrDumpRelease q w s
  | .crashDumpDone sram lost => Sys2Proof.Machine.execCrashDumpDone sram lost s
  | .errFailCore q w => Sys2Proof.Machine.execErrFailCore q w s
  | .errFailEngine q w => Sys2Proof.Machine.execErrFailEngine q w s
  | .errAbort q w => Sys2Proof.Machine.execErrAbort q w s
  | .errWabort q n w => Sys2Proof.Machine.execErrWabort q n w s
  | .abortReceived h group postmark => Sys2Proof.Machine.execAbortReceived h group postmark s
  | .fenceTimeout n => Sys2Proof.Machine.execFenceTimeout n s
  | .fwException t => Sys2Proof.Machine.execFwException t s
  | .ringHeadWrite q n w => Sys2Proof.Machine.execRingHeadWrite q n w s
  | .lsStart q w => Sys2Proof.Machine.execLsStart q w s
  | .lsStop q w => Sys2Proof.Machine.execLsStop q w s
  | .detLscfgWrite q n w => Sys2Proof.Machine.execDetLscfgWrite q n w s
  | .trlDigest h n t d => Sys2Proof.Machine.execTrlDigest h n t d s
  | .trlLsFreeze h n cause postmark => Sys2Proof.Machine.execTrlLsFreeze h n cause postmark s
  | .lockstepTimeout n => Sys2Proof.Machine.execLockstepTimeout n s
  | .trlRetrain q w => Sys2Proof.Machine.execTrlRetrain q w s
  | .trlSolo q w => Sys2Proof.Machine.execTrlSolo q w s
  | .trlTrainingDone lanes rxOk echoes => Sys2Proof.Machine.execTrlTrainingDone lanes rxOk echoes s
  | .trlLaneFault lane f errors => Sys2Proof.Machine.execTrlLaneFault lane f errors s
  | .trlLinkState h mask => Sys2Proof.Machine.execTrlLinkState h mask s
  | .trlRetrainTimer => Sys2Proof.Machine.execTrlRetrainTimer s
  | .trlHelloTimer => Sys2Proof.Machine.execTrlHelloTimer s
  | .trlHello h firstPm state tickUs => Sys2Proof.Machine.execTrlHello h firstPm state tickUs s
  | .trlLaunchMasterTimeout => Sys2Proof.Machine.execTrlLaunchMasterTimeout s
  | .trlLaunch h pm leadUs tickUs => Sys2Proof.Machine.execTrlLaunch h pm leadUs tickUs s
  | .trlHeartbeat h pm tickUs => Sys2Proof.Machine.execTrlHeartbeat h pm tickUs s
  | .trlPeerLost chip => Sys2Proof.Machine.execTrlPeerLost chip s
  | .trlArrive h group epoch => Sys2Proof.Machine.execTrlArrive h group epoch s
  | .trlWbarcmd q n w => Sys2Proof.Machine.execTrlWbarcmd q n w s
  | .barrierRelease n => Sys2Proof.Machine.execBarrierRelease n s
  | .trlBarcfgWrite q n w => Sys2Proof.Machine.execTrlBarcfgWrite q n w s
  | .trailFrameDropped frame => Sys2Proof.Machine.execTrailFrameDropped frame s

end Sys2Proof.Machine
end

