-- ==== Sys2Proof/Machine/Step.lean ====
section
/-! DEFINITION. One step: the command at the front of the queue, or one cclk of the block's own work (log entry 20). -/

namespace Sys2Proof.Machine

/-- The command at the front of the queue acts on the state with the queue's rest; on an empty queue one cclk passes
(R89; log entry 20). -/
def step (s : State) : Host.Outcome State Fault Refusal :=
  match s.pending with
  | [] => .next (cclkTurn s)
  | c :: rest => exec c { s with pending := rest }

/-- `s` with the command that a word spells in front of its queue; `s` where the word spells none. -/
def State.withFetchWord (s : State) (nbits w : Nat) : State :=
  match decodeTableWord nbits w with
  | none => s
  | some c => { s with pending := c :: s.pending }

end Sys2Proof.Machine
end

