-- ==== Sys2Proof/Machine/Levels.lean ====
section
/-! DEFINITION. The output signals that hold a level: what each is at reset, and what it is now (R86, R96, R101, R111, R115,
R120). Every other output of the block is a valid, or belongs to one: it is at its reset value, 0, but in the transfers and
pulses that `State.out` lists. -/

namespace Sys2Proof.Machine

/-- An output that holds a level. -/
inductive OutSignal where
  | hpTReady | hpCReady | hpMReady | hpUrgThr
  | fiReady | frReady
  | cpMReady | cpUrgThr (core : Nat) | cpFreeze (core : Nat) | cpRst (core : Nat)
  | pwrReq (domain : Nat) | pwrReqValid (domain : Nat)
  | rotAReady | rotKReady | tdoEn | xspiCsN | xspiRstN
  deriving DecidableEq, Repr, Inhabited

/-- The Reset column of the signal tables (R96, R101, R109, R111, R115, R120). -/
def resetLevel : OutSignal → Nat
  | .hpUrgThr => 0x00C08040
  | .xspiCsN => 1
  | .hpTReady | .hpCReady | .hpMReady | .fiReady | .frReady | .cpMReady | .cpUrgThr _ | .cpFreeze _ | .cpRst _ | .pwrReq _ | .pwrReqValid _
  | .rotAReady | .rotKReady | .tdoEn | .xspiRstN => 0

/-- Thresholds of levels 1 to 3 in bytes 0 to 2 (R101). -/
def thresholdBits (thr : List Nat) : Nat := (thr.zipIdx.map fun x => x.1 % 256 * 256 ^ x.2).sum

/-- The level of an output once its reset is over: a ready is 1, for the block never refuses a transfer for good (R222),
but hp_t_ready, which stays 0 until phase 1 ends (R140). -/
def drivenLevel (s : State) : OutSignal → Nat
  | .hpUrgThr => 0x00C08040
  | .hpTReady => bit (s.boot.phase != .rom)
  | .hpCReady | .hpMReady | .fiReady | .frReady | .cpMReady | .rotAReady | .rotKReady => 1
  | .cpUrgThr c => thresholdBits (getCore s c).urgThr
  | .cpFreeze c => bit (getCore s c).freeze
  | .cpRst c => bit (getCore s c).rst
  | .pwrReq d => powerNum ((getDom s d).req.getD (getDom s d).st)
  | .pwrReqValid d => bit (getDom s d).req.isSome
  | .tdoEn => bit (tdoEn s.tap.ctl)
  | .xspiCsN | .xspiRstN => 1

/-- An output to the cores or to the fabric, which holds its reset value in Stopped (R146). -/
def stopsWith : OutSignal → Bool
  | .cpMReady | .cpUrgThr _ | .cpFreeze _ | .cpRst _ | .fiReady | .frReady => true
  | .hpTReady | .hpCReady | .hpMReady | .hpUrgThr | .pwrReq _ | .pwrReqValid _ | .rotAReady | .rotKReady | .tdoEn | .xspiCsN
  | .xspiRstN => false

/-- The level of an output: its reset value while the reset is asserted (R86), and in Stopped that of one to the cores or
to the fabric (R146). -/
def outLevel (s : State) (x : OutSignal) : Nat :=
  if s.boot.phase == .reset || (s.boot.phase == .stopped && stopsWith x) then resetLevel x else drivenLevel s x

end Sys2Proof.Machine
end

