-- ==== Sys2Proof/Safety.lean ====
section
/-! DEFINITION. What counts as a safe state of the block: every register whose legal values the spec bounds holds a legal
value (R13: an illegal value is rejected), and every command that waits is one that a port can carry. -/

namespace Sys2Proof.Machine

/-- The parts of the state that the bounds are about. -/
structure Kept where
  /-- XLT_PRITO, TBL_HOLD, SCH_PASSWD, ERR_FENCETO, TRL_CTRL.hb. -/
  prito : Nat
  hold : Nat
  passwd : Nat
  fenceTo : Nat
  hb : Nat
  pending : List Instr
  deriving DecidableEq

/-- Those parts of a state. -/
def kept (s : State) : Kept := ⟨s.xlt.timeout, s.tbl.hold, s.sch.passwd, s.err.fenceTo, s.trl.hb, s.pending⟩

/-- XLT_PRITO (R381), TBL_HOLD (R311), SCH_PASSWD (R346), ERR_FENCETO (R486) and TRL_CTRL.hb (R519) hold legal values. -/
def legalConfig (k : Kept) : Bool :=
  (1 ≤ k.prito && k.prito ≤ 1000000) && (1 ≤ k.hold && k.hold ≤ 1000000) && (1 ≤ k.passwd && k.passwd ≤ 65535) &&
    (1000 ≤ k.fenceTo && k.fenceTo ≤ 50000) && (1 ≤ k.hb && k.hb ≤ 255)

/-- The bounded registers hold legal values, and every waiting command is well formed. -/
def State.safe (s : State) : Bool := legalConfig (kept s) && s.pending.all Instr.wf

/-! Words that the statements use. -/

/-- The device runs and the writer is privileged software: a command of the global window reaches its own checks
(R1, R140). -/
abbrev reachesGlobal (s : State) (q : Requester) : Prop := s.boot.phase = .running ∧ privileged s q = true

/-- QS_OK stands in the status register of the writer's own window (R431, R533). -/
abbrev okRecorded (t : State) (q : Requester) : Prop :=
  (∀ n, tenantOf q = some n → (getWin t n).code = qsOk) ∧ (tenantOf q = none → t.glob.code = qsOk)

/-- The device runs and the writer reaches window `n`: a command of that window reaches its own checks (R2, R140). -/
abbrev reachesOwn (s : State) (q : Requester) (n : Nat) : Prop := s.boot.phase = .running ∧ reachesWindow s q n = true

end Sys2Proof.Machine

namespace Sys2Proof

open Sys2Proof.Machine

/-- The writer of a command that writes a register of the global control space or of the Trail, error, key and power
regions, which are privileged software's alone (R1). -/
def Instr.globalWriter : Instr → Option Requester
  | .clrOpen q _ | .clrQuiesce q _ | .clrClose q _ | .clrReset q _ | .imgLoad q _ | .imgApply q _ | .imgCommit q _
  | .imgDiscard q _ | .imgFlash q _ | .imgSettings q _ _ | .remap q _ | .restore q _ | .marginingRequest q _
  | .elaClassWrite q _ _ _ | .elaCtrlWrite q _ _ | .stmQuotaWrite q _ _ | .schWeightWrite q _ _ | .peerBind q _
  | .peerUnbind q _ | .keyWrite q _ | .keyErase q _ | .keyEnrol q _ | .keySetpass q _ | .keyLcAdvance q _
  | .keyChallenge q _ | .keyDbgAuth q _ | .keyDbgPass q _ | .keyDbgClose q _ | .pwrCmd q _ | .errDump q _
  | .errDumpCopy q _ | .errDumpRelease q _ | .errFailCore q _ | .errFailEngine q _ | .errAbort q _ | .lsStart q _
  | .lsStop q _ | .detLscfgWrite q _ _ | .trlRetrain q _ | .trlSolo q _ | .trlBarcfgWrite q _ _ | .tableWrite q none _
  | .tableInvalidate q none _ | .tableRead q none _ | .keySpdm q none _ | .ringHeadWrite q none _ => some q
  | _ => none

/-- The writer and the window of a command that writes a register of a clearing's window (R2). -/
def Instr.windowWriter : Instr → Option (Requester × Nat)
  | .clrNonce1Write q n _ | .ctxCreate q n _ | .ctxDestroy q n _ | .ctxTeardown q n _ | .queConfig q n _
  | .queEnable q n _ | .queDisable q n _ | .queRead q n _ | .schWcanopyWrite q n _ | .schWacctWrite q n _ _
  | .keyUnwrap q n _ | .errWabort q n _ | .trlWbarcmd q n _ | .tableWrite q (some n) _ | .tableInvalidate q (some n) _
  | .tableRead q (some n) _ | .keySpdm q (some n) _ | .ringHeadWrite q (some n) _ => some (q, n)
  | _ => none

/-- The task, the envelope and the opcode of a command that starts an envelope (R226, R290). -/
def Instr.envelopeStart : Instr → Option (Nat × Nat × Nat)
  | .nop t e => some (t, e, 0x00)
  | .fence t e => some (t, e, 0x01)
  | .gatherPool t e => some (t, e, 0x10)
  | .gather t e => some (t, e, 0x11)
  | .reduce t e => some (t, e, 0x12)
  | .update t e => some (t, e, 0x20)
  | .publish t e => some (t, e, 0x21)
  | .refreshBegin t e => some (t, e, 0x22)
  | .refreshRows t e => some (t, e, 0x23)
  | .refreshAbort t e => some (t, e, 0x24)
  | .job t e => some (t, e, 0x30)
  | .jobWait t e => some (t, e, 0x31)
  | .modelLoad t e => some (t, e, 0x32)
  | .modelEvict t e => some (t, e, 0x33)
  | .copy t e => some (t, e, 0x40)
  | .copy2d t e => some (t, e, 0x41)
  | .prefetch t e => some (t, e, 0x42)
  | .advise t e => some (t, e, 0x43)
  | .unsealData t e => some (t, e, 0x50)
  | _ => none

end Sys2Proof
end

