-- ==== Sys2Proof/Certificates/Slice0/Obligations.lean ====
section
/-! DEFINITION. The statements for the provers. -/

open Sys2Proof Sys2Proof.Machine

/-- For every state s, command c and list of commands rest: step of s with c in front of rest as its queue answers
exactly what exec of c answers on s with rest as its queue. The order of commands is the model's queue (first in,
first out); R8 orders what falls in one cclk. (R8) -/
def Obligations.StepRunsFrontCommand : Prop :=
  ∀ (s : State) (c : Instr) (rest : List Instr),
    step { s with pending := c :: rest } = exec c { s with pending := rest }

/-- With an empty queue a step answers a next state (the model's choice, log entry 20: the step takes the place of one
cclk). While the reset is asserted (phase 0) that next state is the state itself. Otherwise it is cclkTurn of the
state, the block's own work in one cclk: the count of cclk in the tick has advanced by one, and the postmark, the
tick's start, the start-up's fields, the windows' control registers, the mailboxes, the TAP and the queue of
commands are as before. (R89, R146) -/
def Obligations.EmptyQueueStepMovesTheClock : Prop :=
  ∀ s : State, s.pending = [] →
    (s.boot.phase = .reset → step s = .next s) ∧
    (s.boot.phase ≠ .reset → ∃ t, step s = .next t ∧ t = cclkTurn s ∧ t.clk = { s.clk with cclk := s.clk.cclk + 1 } ∧
      t.boot = s.boot ∧ t.win = s.win ∧ t.mbx = s.mbx ∧ t.tap = s.tap ∧ t.pending = [])

/-- For every command i and every state s there is a state t with exec i s = next t, and the queue of commands in t is
the queue in s: no command of the table ends in a fault or a refusal, and no command's effect touches the queue of
waiting commands. (R1, R13) -/
def Obligations.NoCommandStops : Prop :=
  ∀ (i : Instr) (s : State), ∃ t, exec i s = .next t ∧ t.pending = s.pending

/-- If a state is safe (XLT_PRITO lies in 1 to 1,000,000, TBL_HOLD in 1 to 1,000,000, SCH_PASSWD in 1 to 65,535,
ERR_FENCETO in 1,000 to 50,000 and TRL_CTRL.hb in 1 to 255, and every waiting command is well formed) and a step
answers a next state, then that state is safe. A write of an illegal value is refused, and no other command or cclk
of the block writes such a value. (R13, R311, R346, R381, R486, R519) -/
def Obligations.SafeStateIsKept : Prop :=
  ∀ s t : State, s.safe = true → step s = .next t → t.safe = true

/-- State.reset satisfies the invariant that every step keeps: its bounded registers hold legal values, and no command
waits. (R526, R381, R311, R346, R486, R519) -/
def Obligations.ResetStateIsSafe : Prop :=
  State.reset.safe = true

/-- In State.reset a read of each register gives the value of R526's table, and zero for a register that the table does
not name (DET_WGEN_OUT, which stores nothing, apart), in the global control space and in every clearing's window;
every output signal that holds a level is at its Reset value (R86). The start-up phase is 0 and no image is in
force; every clearing is Absent, every context Free, every queue Disabled, every power domain Off (log entry 17); no
mailbox holds a message or a lock; every error ring is empty; the TAP's instruction is IDCODE (0x01); no command
waits and nothing has been driven. (R526, R123, R116, R86) -/
def Obligations.ResetValuesOfRegisters : Prop :=
  (∀ r : GlobReg, globRead State.reset r = match r with
    | .imgRev => 0x0101
    | .tblHold => 0x64
    | .schPasswd => 0xA
    | .xltPrito => 0x2710
    | .keySlotstat _ => 0x100000000
    | .pwrPolicy _ => 0x000A0001
    | .pwrCoef 0 => 0x1E78000AAE60
    | .pwrCoef 1 => 0x2EE0000AAE60
    | .pwrCoef 2 => 0x2710000036B0
    | .pwrCoef 3 => 0x1F40
    | .errFenceto => 0x4E20
    | .trlCtrl => 0x0A00
    | .detLscfg _ => 0x6400000000
    | _ => 0) ∧
    (∀ (n : Nat) (r : WinReg), r ≠ .detWgenOut → winRead State.reset n r = match r with
    | .clrCtxArg => 0x100000000
    | .clrCtxInfo _ => 0x10000
    | .keyWslotstat _ => 0x100000000
    | _ => 0) ∧
    (∀ x, outLevel State.reset x = resetLevel x) ∧
    State.reset.boot.phase = .reset ∧ State.reset.img.force = none ∧
    (∀ n, (getClr State.reset n).st = .absent) ∧ (∀ c, (getCtx State.reset c).st = .free) ∧
    (∀ q, (getQueue State.reset q).st = .disabled) ∧ (∀ d, (getDom State.reset d).st = .off) ∧
    (∀ m, (getMbx State.reset m).posted = false ∧ (getMbx State.reset m).holder = 0) ∧
    (∀ r, (getRing State.reset r).head = 0 ∧ (getRing State.reset r).tail = 0) ∧
    State.reset.tap.ir = 0x01 ∧ State.reset.pending = [] ∧ State.reset.out = []

/-- POWER_ON_RESET completes in every state and leaves every part of the state at its value in State.reset, but for the
model's own trace of outputs, queue and two counts of free values (log entries 2, 4, 14). WARM_RESET completes in
every state and keeps exactly what R90 names: each error ring's pointers, entries and overflow counters (a ring that
an APPLY was still emptying is empty: log entry 155); the crash dump's descriptor and state; each context's
generation; the last postmark (the one of the tick where the device was running); KEY_STATUS.failures and
locked_out; TRL_CTRL.solo_next; and the words, seq, MBX_FRANK and posted bit of mailbox 0. Every other part is at
its value in State.reset, but for the model's own trace of outputs, queue and counts of free values, and the start-
up will note that it came from warm_rst_n. (R90, R125, R526) -/
def Obligations.ResetsOfTheBlock : Prop :=
  (∀ s : State, exec .powerOnReset s = .next { State.reset with
      glob := { glob0 with signs := s.glob.signs }, tap := { tap0 with dmiCount := s.tap.dmiCount }
      out := s.out, pending := s.pending }) ∧
    (∀ s : State, ∃ t, exec .warmReset s = .next t ∧
      t.clk = { clk0 with lastPostmark := if s.boot.phase = .running then some s.clk.postmark else s.clk.lastPostmark } ∧
      t.boot = { boot0 with resetHeld := 1 } ∧
      (∀ k, getRing t k = if (getRing s k).emptying = true then ring0 else { ring0 with
        head := (getRing s k).head, tail := (getRing s k).tail, lost := (getRing s k).lost
        coalesced := (getRing s k).coalesced, entries := (getRing s k).entries }) ∧
      t.err = { err0 with
        dumpValid := s.err.dumpValid, dumpBusy := s.err.dumpBusy, dumpCause := s.err.dumpCause
        dumpPostmark := s.err.dumpPostmark, missed := s.err.missed, dump := s.err.dump } ∧
      (∀ c, getCtx t c = { ctx0 with gen := (getCtx s c).gen }) ∧
      t.key = { key0 with failures := s.key.failures, lockedOut := s.key.lockedOut } ∧
      t.trl = { trail0 with soloNext := s.trl.soloNext } ∧
      getMbx t 0 = { mailbox0 with
        data := (getMbx s 0).data, seq := (getMbx s 0).seq, posted := (getMbx s 0).posted
        frankSender := (getMbx s 0).frankSender, frankSeq := (getMbx s 0).frankSeq, frankPostmark := (getMbx s 0).frankPostmark } ∧
      (∀ m, m ≠ 0 → getMbx t m = mailbox0) ∧
      t = { State.reset with
        clk := t.clk, boot := t.boot, ctx := t.ctx, err := t.err, rings := t.rings, mbx := t.mbx, key := t.key, trl := t.trl
        glob := { glob0 with signs := s.glob.signs }, tap := { tap0 with dmiCount := s.tap.dmiCount }, cc := t.cc
        out := s.out, pending := s.pending })

/-- In phase 0 with the reset held, RESET_DEASSERTED goes to phase 1, captures the PUF bits and requests On for domain
76 with pwr_req; only the start-up fields, that domain and the output change. In phase 1, ROM_PHASE_END goes to
phase 2 once domain 76 is On, and changes nothing else; before that it changes nothing. In phase 5,
STARTUP_SCRUB_DONE goes to phase 6 once every granule of plots 8 to 6,399 has been zeroed, and every domain 72 to 79
that is not On, has no request outstanding and has not faulted has On requested; no other domain changes, and
nothing but the phase, the power unit and the output; before that it changes nothing. While the start-up wheel runs,
STARTUP_BOUNDARY restarts it 10,000 ref_clk periods on, at the next cclk, and changes only time (and opens a cclk,
log entry 20). In phase 3, MEMORY_PHASE_TIMEOUT of a stack goes to Stopped with cause 6 and that stack as the place,
also where a cause was noted before in Raw (the model's choice, log entry 129). In phases 1, 2 and 5, PHASE_TIMEOUT
goes to Stopped: where no cause was noted before, with cause 8 and the phase's number as the place; a cause that was
noted before (1 or 3 in Raw, 2 after Bare) stays, with its detail and place (R145; log entry 129). Each turns the
start-up wheel off, drops the records held for the first tick (R139), and changes only the start-up fields and those
records. (R123, R124, R130, R132, R135, R139, R145, R147) -/
def Obligations.StartupPhasesFollow : Prop :=
  (∀ (s : State) (puf : List Bool), s.boot.phase = .reset → s.boot.resetHeld ≠ 0 →
    ∃ t, exec (.resetDeasserted puf) s = .next t ∧
      t.boot = { s.boot with phase := .rom, puf := puf, warm := s.boot.resetHeld == 1, resetHeld := 0 } ∧
      (getDom t 76).req = some .on ∧ (∀ d, d ≠ 76 → getDom t d = getDom s d) ∧ t.out = .powerReq 76 2 :: s.out ∧
      t = { s with boot := t.boot, pwr := t.pwr, out := t.out }) ∧
  (∀ s : State, s.boot.phase = .rom →
    exec .romPhaseEnd s = .next (if (getDom s 76).st = .on then { s with boot := { s.boot with phase := .root } } else s)) ∧
  (∀ s : State, s.boot.phase = .scrub →
    ∃ t, exec .startupScrubDone s = .next t ∧ (scrubComplete s = false → t = s) ∧
      (scrubComplete s = true → t.boot = { s.boot with phase := .power } ∧
        (∀ d, 72 ≤ d → d < 80 → (getDom s d).st ≠ .on → (getDom s d).req = none → (getDom s d).fault = false →
          (getDom t d).req = some .on) ∧
        (∀ d, d < 72 ∨ 80 ≤ d ∨ (getDom s d).st = .on ∨ (getDom s d).req ≠ none ∨ (getDom s d).fault = true →
          getDom t d = getDom s d) ∧
        t = { s with boot := t.boot, pwr := t.pwr, out := t.out })) ∧
  (∀ s : State, s.boot.wheelOn = true →
    ∃ t, exec .startupBoundary s = .next t ∧
      t.clk = { s.clk with
        tickStart := s.clk.tickStart + s.clk.cclk + 1, refTick := s.clk.refTick + 10000, cclk := 0, phase := 0 } ∧
      t = { s with clk := t.clk, cc := t.cc }) ∧
  (∀ (s : State) (k : Nat), s.boot.phase = .memory →
    exec (.memoryPhaseTimeout k) s = .next { s with
      boot := { s.boot with phase := .stopped, cause := 6, detail := 0, where' := k, wheelOn := false, delivery := none }
      err := { s.err with held := [] } }) ∧
  (∀ (s : State) (k : Nat), (s.boot.phase = .rom ∧ k = 1) ∨ (s.boot.phase = .root ∧ k = 2) ∨ (s.boot.phase = .scrub ∧ k = 5) →
    ∃ t, exec .phaseTimeout s = .next t ∧
      (s.boot.cause = 0 → t.boot = { s.boot with
        phase := .stopped, cause := 8, detail := 0, where' := k, wheelOn := false, delivery := none }) ∧
      (s.boot.cause ≠ 0 → t.boot = { s.boot with phase := .stopped, wheelOn := false, delivery := none }) ∧
      t = { s with boot := t.boot, err := { s.err with held := [] } })

/-- In phase 2, ROT_LC_VALID completes: the life cycle is the value of rot_lc (5 to 7 as 4), and debug access is open in
Raw and Provisioned only. In state 4 the start-up goes to Stopped with cause 5. In Raw it always goes on to phase 3.
In states 1 to 3 without a flash (no signature read, or pin 0 or 1 faulty), it goes to Stopped with cause 1; with a
flash whose helper data gives no root, to Stopped with cause 3; with a root, on to phase 3 with that root. In Raw a
missing flash or root leaves root_absent 1, and the settings take their defaults whenever root_absent is 1. In every
case it ends in phase 3 or in Stopped, and only the start-up fields, debug access, the held error records and the
global ring's lost count change. ROT_LC_TIMEOUT in phase 2 goes to Stopped with cause 4. (R122, R126, R127, R128,
R129, R145) -/
def Obligations.RootPhaseOutcome : Prop :=
  (∀ (s : State) (i : RootInputs), s.boot.phase = .root →
    ∃ t, exec (.rotLcValid i) s = .next t ∧ t.boot.lc = min i.lc.toNat 4 ∧
      t.key = { s.key with debugOpen := decide (i.lc.toNat ≤ 1) } ∧
      (4 ≤ i.lc.toNat → t.boot.phase = .stopped ∧ t.boot.cause = 5) ∧
      (i.lc.toNat = 0 → t.boot.phase = .memory ∧
        (flashLost i = true ∨ regenRoot s.boot.puf i.helper = none → t.boot.rootAbsent = true ∧ t.boot.settingsDefault = true ∧
          t.boot.settings = defaultSettings)) ∧
      (1 ≤ i.lc.toNat → i.lc.toNat ≤ 3 →
        (flashLost i = true → t.boot.phase = .stopped ∧ t.boot.cause = 1) ∧
        (flashLost i = false → regenRoot s.boot.puf i.helper = none → t.boot.phase = .stopped ∧ t.boot.cause = 3) ∧
        (∀ root, flashLost i = false → regenRoot s.boot.puf i.helper = some root →
          t.boot.phase = .memory ∧ t.boot.root = some root ∧ t.boot.flashPresent = true)) ∧
      (t.boot.phase = .memory ∨ t.boot.phase = .stopped) ∧
      t = { s with boot := t.boot, key := t.key, err := t.err, rings := t.rings }) ∧
  (∀ s : State, s.boot.phase = .root →
    ∃ t, exec .rotLcTimeout s = .next t ∧ t.boot.phase = .stopped ∧ t.boot.cause = 4 ∧
      t = { s with boot := t.boot, err := t.err })

/-- In phase 3, MEMORY_PHASE_END completes: where each of the 20 read latencies lies in 40 to 400, the wheel runs, time
in the tick starts at 0 and phase 4 follows, or Bare where there is no flash; where one does not, the start-up goes
to Stopped with cause 6. In phase 4, FLASH_IMAGE_READ_DONE completes: an image that fails R62 enters Bare with cause
2 (or the cause noted before it, log entry 129) and its code, section and offset in IMG_STATUS; one that passes is
in force in phase 5, or the start-up stops with cause 6 where a failed pseudo-channel has no guest.
IMAGE_READ_TIMEOUT enters Bare, with cause 2 and the code QS_IMG_FLASH as its detail where no cause was noted
before, and mailbox 0 has the boot service as receiver. (R130, R131, R132, R133, R145) -/
def Obligations.MemoryAndImagePhases : Prop :=
  (∀ (s : State) (i : MemoryInputs), s.boot.phase = .memory →
    ∃ t, exec (.memoryPhaseEnd i) s = .next t ∧
      ((∀ k, k < 20 → 40 ≤ i.rdLat.getD k 0 ∧ i.rdLat.getD k 0 ≤ 400) →
        t.boot.wheelOn = true ∧ t.clk.cclk = 0 ∧ t.clk.phase = 0 ∧ t.boot.rdLat = i.rdLat ∧ t.boot.failed = i.failed.map (fun p => (p, 1)) ∧
        t.boot.phase = (if s.boot.flashPresent = true then .image else .bare)) ∧
      ((∃ k, k < 20 ∧ ¬ (40 ≤ i.rdLat.getD k 0 ∧ i.rdLat.getD k 0 ≤ 400)) →
        t.boot.phase = .stopped ∧ t.boot.cause = 6) ∧
      t = { s with boot := t.boot, clk := t.clk, cal := t.cal, mbx := t.mbx, err := t.err }) ∧
  (∀ (s : State) (bs : List Byte), s.boot.phase = .image →
    ∃ t, exec (.flashImageReadDone bs) s = .next t ∧
      match validateImage bs none s.boot.lc s.boot.settings.minSvn s.boot.settings.signers with
      | .error f => t.boot.phase = .bare ∧ t.img.code = f.code ∧
          (s.boot.cause = 0 → t.boot.cause = 2 ∧ t.boot.detail = f.code) ∧ (s.boot.cause ≠ 0 → t.boot.cause = s.boot.cause) ∧
          t.img.errSection = f.sect ∧ t.img.errOffset = f.offset ∧ t.img.force = s.img.force
      | .ok im => match guestTrouble s im with
        | some p => t.boot.phase = .stopped ∧ t.boot.cause = 6 ∧ t.boot.where' = p
        | none => t.boot.phase = .scrub ∧ t.img.force = some im) ∧
  (∀ s : State, s.boot.phase = .image →
    ∃ t, exec .imageReadTimeout s = .next t ∧
      t.boot = (if s.boot.cause = 0 then { s.boot with phase := .bare, cause := 2, detail := qsImgFlash } else { s.boot with phase := .bare }) ∧
      (getMbx t 0).receiver = 0x80 ∧ (∀ m, m ≠ 0 → getMbx t m = getMbx s m) ∧ t = { s with boot := t.boot, mbx := t.mbx })

/-- In phase 6, POWER_PHASE_END, once no domain 72 to 79 has a request outstanding, goes to phase 7 and either trains
the link, with every lane untrained and training sets on the four transmit lanes, or makes the chip solitary where
TRL_CTRL.solo_next is set or domain 79 has faulted. In phase 7 with no launch agreed, TRAINING_TIMEOUT while the
link has never come up, and LAUNCH_WAIT_TIMEOUT once it has, make the chip solitary and change nothing else. In
phase 7 with the chip solitary, or a launch or a join agreed whose instant has come, FIRST_TICK makes the device
running at cclk 0 of a tick whose postmark is the agreed one, else 0 after power-on and one above the last postmark
after a warm reset; no records stay held; before that instant it changes nothing. (R136, R137, R138, R148, R509,
R510, R511) -/
def Obligations.TrailPhaseAndFirstTick : Prop :=
  (∀ s : State, s.boot.phase = .power → (∀ d, 72 ≤ d → d < 80 → (getDom s d).req = none) →
    ∃ t, exec .powerPhaseEnd s = .next t ∧ t.boot.phase = .trail ∧
      (s.trl.soloNext = false → (getDom s 79).fault = false → t.trl.training = true ∧ t.trl.up = false ∧
        (∀ l, getLane t l = { trlLane0 with errors := (getLane s l).errors }) ∧
        (∀ l, l < 4 → .trainingSet l (trainingChars t l) ∈ t.out) ∧ t.boot.solitary = s.boot.solitary) ∧
      (s.trl.soloNext = true ∨ (getDom s 79).fault = true → t.boot.solitary = true ∧ t.trl.training = false ∧ t.out = s.out) ∧
      t = { s with boot := t.boot, trl := t.trl, out := t.out }) ∧
  (∀ s : State, s.boot.phase = .trail → s.boot.solitary = false → s.trl.cameUp = false → s.boot.launch = none →
    exec .trailTrainingTimeout s = .next { s with
      boot := { s.boot with solitary := true }, trl := { s.trl with training := false, how := 4 } }) ∧
  (∀ s : State, s.boot.phase = .trail → s.boot.solitary = false → s.trl.cameUp = true → s.boot.launch = none →
    exec .launchWaitTimeout s = .next { s with
      boot := { s.boot with solitary := true }, trl := { s.trl with training := false, how := 2 } }) ∧
  (∀ (s : State) (p at' : Nat), s.boot.phase = .trail → s.boot.solitary = false → s.boot.launch = some p →
    s.trl.startAt = some at' → now16 s < at' → exec .firstTick s = .next s) ∧
  (∀ s : State, s.boot.phase = .trail →
    s.boot.solitary = true ∨ (s.boot.launch ≠ none ∧ ∀ at', s.trl.startAt = some at' → at' ≤ now16 s) →
    ∃ t, exec .firstTick s = .next t ∧ t.boot.phase = .running ∧ t.boot.wheelOn = false ∧ t.clk.cclk = 0 ∧ t.clk.phase = 0 ∧
      t.clk.tickStart = s.clk.tickStart + s.clk.cclk + 1 ∧ t.err.held = [] ∧
      (∀ p, s.boot.solitary = false → s.boot.launch = some p → t.clk.postmark = p) ∧
      (s.boot.solitary = true → s.boot.warm = false → t.clk.postmark = 0) ∧
      (∀ p, s.boot.solitary = true → s.boot.warm = true → s.clk.lastPostmark = some p → t.clk.postmark = p + 1))

/-- In Bare with a message posted in mailbox 0 and none being handled, BOOT_IMAGE (an op other than 2) and BOOT_SETTINGS
(op 2) complete: the message is taken, not posted any more. Where the checks of R143 pass, the delivery is under way
with the op, the flash bit and the length of the message; where one fails, no delivery is, and the message is
acknowledged: nothing is taken and its sequence's slot is done with the code of the first check that fails. With a
delivery under way in Bare, BOOT_DELIVERY_DONE of a failed read ends the delivery, and the taken message is
acknowledged with QS_IMG_HOST_READ. Of a buffer that was read, the delivery ends too: an IMAGE that fails R62 is
acknowledged with its code and nothing is in force; one that passes goes to the flash first where its flash bit is
set and a flash is present, else it is acknowledged (QS_OK, or QS_IMG_FLASH where it asked for an absent flash) and
is in force in phase 5, or the start-up stops with cause 6 where a failed pseudo-channel has no guest; a SETTINGS
record without a flash is acknowledged with QS_IMG_FLASH, one that R79 refuses with QS_IMG_SETTINGS, and any other
is on its way to the flash. (R141, R142, R143) -/
def Obligations.BootServiceMessages : Prop :=
  (∀ (s : State) (c : Instr), s.boot.phase = .bare → (getMbx s 0).posted = true → s.boot.delivery = none →
    s.img.flashing = none →
    (c = .bootImage ∧ bootOp (getMbx s 0).data ≠ 2) ∨ (c = .bootSettings ∧ bootOp (getMbx s 0).data = 2) →
    ∃ t, exec c s = .next t ∧ (getMbx t 0).posted = false ∧ (∀ m, m ≠ 0 → getMbx t m = getMbx s m) ∧
      (match bootChecks s with
      | none => (getMbx t 0).taken = true ∧ t.boot.delivery =
          some (bootOp (getMbx s 0).data, wbit ((getMbx s 0).data.getD 0 0) 8, field ((getMbx s 0).data.getD 2 0) 0 25)
      | some code => (getMbx t 0).taken = false ∧ t.boot.delivery = none ∧
          (msgOf (getMbx t 0) (getMbx s 0).seq).done = true ∧ (msgOf (getMbx t 0) (getMbx s 0).seq).code = code) ∧
      t = { s with boot := t.boot, mbx := t.mbx, out := t.out }) ∧
  (∀ s : State, s.boot.phase = .bare → (getMbx s 0).posted = true → s.boot.delivery = none → s.img.flashing = none →
    (bootOp (getMbx s 0).data ≠ 2 → ∃ t, exec .bootImage s = .next t ∧ (getMbx t 0).takenSeq = (getMbx s 0).seq) ∧
    (bootOp (getMbx s 0).data = 2 → ∃ t, exec .bootSettings s = .next t ∧ (getMbx t 0).takenSeq = (getMbx s 0).seq)) ∧
  (∀ (s : State) (d : Nat × Bool × Nat), s.boot.phase = .bare → s.boot.delivery = some d →
    (∃ t, exec (.bootDeliveryDone .failed) s = .next t ∧ t.boot = { s.boot with delivery := none } ∧
      (getMbx t 0).taken = false ∧ (msgOf (getMbx t 0) (getMbx s 0).takenSeq).code = qsImgHostRead ∧
      t = { s with boot := t.boot, mbx := t.mbx, out := t.out }) ∧
    (∀ bs : List Byte, ∃ t, exec (.bootDeliveryDone (.bytes bs)) s = .next t ∧ t.boot.delivery = none ∧
      (d.1 = 1 →
        match validateImage (bs.take d.2.2) (some d.2.2) s.boot.lc s.boot.settings.minSvn s.boot.settings.signers with
        | .error f => t.boot.phase = .bare ∧ t.img.force = s.img.force ∧ (getMbx t 0).taken = false ∧
            (msgOf (getMbx t 0) (getMbx s 0).takenSeq).code = f.code
        | .ok im =>
          (d.2.1 = true → s.boot.flashPresent = true → t.boot.phase = .bare ∧ t.img.flashing = some (.image im.bytes)) ∧
          (d.2.1 = false ∨ s.boot.flashPresent = false → (getMbx t 0).taken = false ∧
            (msgOf (getMbx t 0) (getMbx s 0).takenSeq).code = (if d.2.1 = true then qsImgFlash else qsOk) ∧
            match guestTrouble s im with
            | some p => t.boot.phase = .stopped ∧ t.boot.cause = 6 ∧ t.boot.where' = p
            | none => t.boot.phase = .scrub ∧ t.img.force = some im)) ∧
      (d.1 ≠ 1 → t.boot.phase = .bare ∧
        (s.boot.flashPresent = false → (msgOf (getMbx t 0) (getMbx s 0).takenSeq).code = qsImgFlash) ∧
        (s.boot.flashPresent = true → settingsAllowed s bs none = false →
          (msgOf (getMbx t 0) (getMbx s 0).takenSeq).code = qsImgSettings) ∧
        (s.boot.flashPresent = true → settingsAllowed s bs none = true → t.img.flashing.isSome = true ∧ t.mbx = s.mbx))))

/-- On a running device TICK_BOUNDARY completes: the postmark is one higher modulo 2^64, the cclk count and the phase
number start at 0, the tick starts at the cclk after the boundary's last one and 100 ref_clk periods per µs of the
tick length after the last start, and the locked multiple is the one of the wires; a phase map that an APPLY left
waiting is in force and none waits any more; written energy coefficients are in use. A device that is not running
has no tick boundary: nothing changes. On a running device whose phase number lies below the phases of its tick,
CALENDAR_PHASE completes and only the phase number advances among the fields of time. On a start-up wheel, off a
running device, it does so below 9,765 phases. Past the last phase, in the guard, and with neither calendar nor
wheel, nothing is presented and nothing changes. In every case the image in force, the phase map and every context
stay as they are. (R89, R132, R150, R152, R153, R157, R439) -/
def Obligations.TicksAndPhasesAdvance : Prop :=
  (∀ (s : State) (w : TickWires), s.boot.phase = .running →
    ∃ t, exec (.tickBoundary w) s = .next t ∧
      t.clk.postmark = (s.clk.postmark + 1) % 2 ^ 64 ∧ t.clk.cclk = 0 ∧ t.clk.phase = 0 ∧ t.clk.lock = w.lock ∧
      t.clk.tickStart = s.clk.tickStart + s.clk.cclk + 1 ∧ t.clk.refTick = s.clk.refTick + 100 * tickUs s ∧
      t.cal.mapNext = none ∧ t.cal.map = s.cal.mapNext.getD s.cal.map ∧ t.pwr.coef = s.pwr.coefNext ∧ t.boot = s.boot) ∧
  (∀ (s : State) (w : TickWires), s.boot.phase ≠ .running → exec (.tickBoundary w) s = .next s) ∧
  (∀ (s : State) (w : PhaseWires),
    (s.boot.phase = .running ∧ s.clk.phase < phasesOfTick (tickUs s)) ∨
      (s.boot.phase ≠ .running ∧ s.boot.wheelOn = true ∧ s.clk.phase < 9765) →
    ∃ t, exec (.calendarPhase w) s = .next t ∧ t.clk = { s.clk with phase := s.clk.phase + 1 } ∧
      t.img.force = s.img.force ∧ t.cal.map = s.cal.map ∧ t.ctx = s.ctx) ∧
  (∀ (s : State) (w : PhaseWires),
    (s.boot.phase = .running ∧ phasesOfTick (tickUs s) ≤ s.clk.phase) ∨ (s.boot.phase ≠ .running ∧ (s.boot.wheelOn = false ∨ 9765 ≤ s.clk.phase)) →
    exec (.calendarPhase w) s = .next s)

/-- While the calendar is driven, HOLD_BEGIN of a pseudo-channel below 1,280 that is not held and serves its own bucket,
with fewer than eight holds begun in the last second (100,000,000 ref_clk periods), holds it, counts its phases from
0 and notes the instant; HOLD_END of a held pseudo-channel frees it, starts catch-up at clearing 0, and where it
serves its own bucket and its hold was not counted yet adds one to the count of CAL_HOLDSTAT (which the register
reads held at its greatest value) and keeps the longest length up to 2,000 phases. A hold of an unreachable pseudo-
channel is counted like any other; one of a remapped pseudo-channel is noted and freed but not counted (R168). Every
other pseudo-channel, and all state but the calendar's (and, at an end, the cclk's own view of the longest hold, log
entry 20), stays as it is. (R166, R167, R168, R182) -/
def Obligations.HoldsOfPseudoChannels : Prop :=
  (∀ (s : State) (p : Nat), holdCounts s p = decide ((getPch s p).st ≠ .remapped)) ∧
  (∀ (s : State) (p : Nat), s.boot.phase = .running ∨ s.boot.wheelOn = true → p < 1280 → (getPch s p).hold = false →
    ∃ t, exec (.holdBegin p) s = .next t ∧
      (holdCounts s p = true → ((getPch s p).holdStarts.filter fun u => nowRef s < 100000000 + u).length < 8 →
        (getPch t p).hold = true ∧ (getPch t p).holdPhases = 0 ∧ (getPch t p).st = (getPch s p).st ∧
        nowRef s ∈ (getPch t p).holdStarts ∧ (∀ r, r ≠ p → getPch t r = getPch s r) ∧ t = { s with cal := t.cal }) ∧
      (holdCounts s p = false → getPch t p = { getPch s p with hold := true, holdPhases := 0, holdCounted := false } ∧
        (∀ r, r ≠ p → getPch t r = getPch s r) ∧ t = { s with cal := t.cal })) ∧
  (∀ (s : State) (p : Nat), s.boot.phase ≠ .reset → s.boot.phase ≠ .stopped → (getPch s p).hold = true →
    ∃ t, exec (.holdEnd p) s = .next t ∧ getPch t p = { getPch s p with
        hold := false, catchTurn := 0, holdPhases := 0, holdCounted := holdCounts s p || (getPch s p).holdCounted } ∧
      (∀ r, r ≠ p → getPch t r = getPch s r) ∧
      t.cal.holds = (if holdCounts s p = true ∧ (getPch s p).holdCounted = false then s.cal.holds + 1 else s.cal.holds) ∧
      t.cal.longest = (if holdCounts s p = true ∧ (getPch s p).holdCounted = false then
        max s.cal.longest (min (getPch s p).holdPhases 2000) else s.cal.longest) ∧
      t = { s with cal := t.cal, cc := t.cc })

/-- With an image in force on a running device, PCH_FAIL of a normal pseudo-channel whose fail level rises, HOLD_LIMIT
of a held normal pseudo-channel whose hold has lasted 2,000 phases, and HOLD_BEGIN of a normal one that begins its
ninth hold within a second (100,000,000 ref_clk periods) complete: the pseudo-channel is remapped to the guest of
the image in force where that guest is another, normal pseudo-channel, which then hosts it, the cause is 1 of
PCH_FAIL and 2 of the holds, and no device fault is added; where the guest is not, the pseudo-channel is
unreachable, without a cause of remapping, with the device fault of R474. The image, the phase map and every
clearing's life-cycle state stay as they are. (R167, R171, R174, R176, R186) -/
def Obligations.FailedPseudoChannelsAreRemapped : Prop :=
  ∀ (s : State) (p : Nat) (c : Instr) (cause : Nat), s.boot.phase = .running → s.img.force ≠ none → p < 1280 →
    (getPch s p).st = .normal →
    (c = .pchFail p true ∧ (getPch s p).failLevel = false ∧ cause = 1) ∨
      (c = .holdLimit p ∧ (getPch s p).hold = true ∧ 2000 ≤ (getPch s p).holdPhases ∧ cause = 2) ∨
      (c = .holdBegin p ∧ (getPch s p).hold = false ∧
        8 ≤ ((getPch s p).holdStarts.filter fun u => nowRef s < 100000000 + u).length ∧ cause = 2) →
    ∃ t, exec c s = .next t ∧
      ((getPch s (guestOf s p)).st = .normal → guestOf s p ≠ p →
        (getPch t p).st = .remapped ∧ (getPch t p).cause = cause ∧ (getPch t p).partner = guestOf s p ∧
        (getPch t (guestOf s p)).st = .hosting ∧ (getPch t (guestOf s p)).partner = p ∧ t.err.deviceFault = s.err.deviceFault) ∧
      (guestOf s p = p ∨ (getPch s (guestOf s p)).st ≠ .normal →
        (getPch t p).st = .unreachable ∧ (getPch t p).cause = 0 ∧ t.err.deviceFault = true) ∧
      t.img = s.img ∧ t.cal.map = s.cal.map ∧ ∀ n, (getClr t n).st = (getClr s n).st

/-- On a running device, for a privileged writer and a word without reserved bits that names a pseudo-channel below
1,280 with no command waiting: REMAP of a normal or hosting pseudo-channel with a normal guest, and RESTORE of a
remapped one, are accepted and wait for the boundary with CAL_GUEST_RESULT not done. A margining request to a stack
below 20 with none outstanding and a pseudo-channel that is not remapped is accepted, drives mc_mg and is busy;
MARGINING_RESPONSE of a busy stack, outside the reset and Stopped, leaves it idle and done with the response's bits,
and with QS_CAL_PCH_FAILED where it was cut off. The writes change the calendar, the status register (QS_OK) and,
for margining, the output; the response changes the calendar alone. (R165, R175, R179, R181, R184) -/
def Obligations.GuestAndMarginCommands : Prop :=
  (∀ (s : State) (q : Requester) (w : Word), reachesGlobal s q →
    noBits w (bitsFrom 11 15 ||| bitsFrom 20 63) = true → field w 0 11 < 1280 → s.cal.guestCmd = none →
    ((getPch s (field w 0 11)).st = .normal ∨ (getPch s (field w 0 11)).st = .hosting →
      (getPch s (guestOf s (field w 0 11))).st = .normal →
      ∃ t, exec (.remap q w) s = .next t ∧ t.glob.code = qsOk ∧ t.cal = { s.cal with
          guestCmd := some (1, field w 0 11), guestCode := qsOk, guestPch := field w 0 11, guestDone := false } ∧
        t = { s with cal := t.cal, glob := t.glob }) ∧
    ((getPch s (field w 0 11)).st = .remapped →
      ∃ t, exec (.restore q w) s = .next t ∧ t.glob.code = qsOk ∧ t.cal = { s.cal with
          guestCmd := some (2, field w 0 11), guestCode := qsOk, guestPch := field w 0 11, guestDone := false } ∧
        t = { s with cal := t.cal, glob := t.glob })) ∧
  (∀ (s : State) (q : Requester) (w : Word), reachesGlobal s q →
    noBits w (bitsFrom 46 47 ||| bitsFrom 53 63) = true → field w 48 5 < 20 →
    (tabGet margin0 s.cal.margin (field w 48 5)).busy = false →
    (getPch s (64 * field w 48 5 + field w 40 6)).st ≠ .remapped →
    ∃ t, exec (.marginingRequest q w) s = .next t ∧ t.glob.code = qsOk ∧
      (tabGet margin0 t.cal.margin (field w 48 5)).busy = true ∧ (tabGet margin0 t.cal.margin (field w 48 5)).done = false ∧
      (∀ k, k ≠ field w 48 5 → tabGet margin0 t.cal.margin k = tabGet margin0 s.cal.margin k) ∧
      t.out = .margin (field w 48 5) (field w 40 6) (field w 32 8) (field w 0 32) :: s.out ∧
      t = { s with cal := t.cal, glob := t.glob, out := t.out }) ∧
  (∀ (s : State) (k : Nat) (rsp : BitVec 32), s.boot.phase ≠ .reset → s.boot.phase ≠ .stopped →
    (tabGet margin0 s.cal.margin k).busy = true →
    ∃ t, exec (.marginingResponse k rsp) s = .next t ∧
      tabGet margin0 t.cal.margin k = { tabGet margin0 s.cal.margin k with
        rsp := rsp.toNat, busy := false, done := true
        code := if (tabGet margin0 s.cal.margin k).failed = true then qsCalPchFailed else qsOk } ∧
      (∀ j, j ≠ k → tabGet margin0 t.cal.margin j = tabGet margin0 s.cal.margin j) ∧ t = { s with cal := t.cal })

/-- On a running device, a privileged write of ELA_CLASS(n, c) without reserved bits, to a defined clearing, whose
fields are tunable or unchanged and lie within the bounds of the clearing's section, is accepted: the values waiting
for the boundary are the latest accepted ones with that class's target and budget set. A write of ELA_CTRL(n) whose
fields are tunable or unchanged, with a class mask that is not zero and lies within its limit and urgency thresholds
rising from at least 1, is accepted likewise. The values in force, every other clearing and all else but the status
register (QS_OK) stay as they are. (R65, R206, R207, R209, R210) -/
def Obligations.TunableWritesWaitForTheBoundary : Prop :=
  (∀ (s : State) (q : Requester) (n c : Nat) (w : Word), reachesGlobal s q →
    noBits w (bitsFrom 20 31 ||| bitsFrom 48 63) = true → (getClr s n).st ≠ .absent →
    (field w 0 20 = (acceptedTun s n).target.getD c 0 ∨ (getClr s n).cfg.tunable.getLsbD 0 = true) →
    (field w 32 16 = (acceptedTun s n).budget.getD c 0 ∨ (getClr s n).cfg.tunable.getLsbD 1 = true) →
    inBounds (getClr s n).cfg.latency c (field w 0 20) = true → inBounds (getClr s n).cfg.budget c (field w 32 16) = true →
    ∃ t, exec (.elaClassWrite q n c w) s = .next t ∧ t.glob.code = qsOk ∧
      getClr t n = { getClr s n with tunNext := some { acceptedTun s n with
        target := (acceptedTun s n).target.set c (field w 0 20), budget := (acceptedTun s n).budget.set c (field w 32 16) } } ∧
      (∀ m, m ≠ n → getClr t m = getClr s m) ∧ t = { s with clr := t.clr, glob := t.glob }) ∧
  (∀ (s : State) (q : Requester) (n : Nat) (w : Word), reachesGlobal s q → noBits w (bitsFrom 32 63) = true →
    (getClr s n).st ≠ .absent →
    (BitVec.ofNat 8 (field w 0 8) = (acceptedTun s n).mask ∨ (getClr s n).cfg.tunable.getLsbD 2 = true) →
    ([field w 8 8, field w 16 8, field w 24 8] = (acceptedTun s n).urgency ∨ (getClr s n).cfg.tunable.getLsbD 3 = true) →
    BitVec.ofNat 8 (field w 0 8) ≠ 0 →
    BitVec.ofNat 8 (field w 0 8) &&& (getClr s n).cfg.classMaskMax = BitVec.ofNat 8 (field w 0 8) →
    1 ≤ field w 8 8 → field w 8 8 < field w 16 8 → field w 16 8 < field w 24 8 →
    ∃ t, exec (.elaCtrlWrite q n w) s = .next t ∧ t.glob.code = qsOk ∧
      getClr t n = { getClr s n with tunNext := some { acceptedTun s n with
        mask := BitVec.ofNat 8 (field w 0 8), urgency := [field w 8 8, field w 16 8, field w 24 8] } } ∧
      (∀ m, m ≠ n → getClr t m = getClr s m) ∧ t = { s with clr := t.clr, glob := t.glob })

/-- Outside the reset and Stopped, MEMORY_RESPONSE completes. To a tag under which no command is outstanding it changes
nothing. To any other it leaves the tag free, every other tag as it was, the counter of corrected granules one
higher where the ECC flag says corrected and that of uncorrectable ones where it says uncorrectable: every response
counts, also one to a discarded or quarantined presentation (R448; log entry 50). The response to such a
presentation reaches no source: only the tag, the counters, the tick's count and the error records change.
MEMORY_RESPONSE_TIMEOUT of a command outstanding, neither quarantined nor held by mc_hold, quarantines its tag, and
neither ECC counter changes: a response that is missing carries no ECC (log entry 50). Of a held command, a
quarantined one or a tag under which none is outstanding it changes nothing (R107, R458). (R105, R107, R171, R448,
R458) -/
def Obligations.MemoryResponsesFreeTheirTags : Prop :=
  (∀ (s : State) (stack lane tag : Nat) (ecc : Ecc) (data : List Byte), s.boot.phase ≠ .reset → s.boot.phase ≠ .stopped →
    ∃ t, exec (.memoryResponse stack lane tag ecc data) s = .next t ∧
      tabGet none t.cal.inflight ((stack * 4 + lane) * 65536 + tag) = none ∧
      (∀ k, k ≠ (stack * 4 + lane) * 65536 + tag → tabGet none t.cal.inflight k = tabGet none s.cal.inflight k) ∧
      (tabGet none s.cal.inflight ((stack * 4 + lane) * 65536 + tag) = none → t = s) ∧
      (∀ f, tabGet none s.cal.inflight ((stack * 4 + lane) * 65536 + tag) = some f →
        t.err.corrected = (if ecc = .corrected then s.err.corrected + 1 else s.err.corrected) ∧
        t.err.uncorrectable = (if ecc = .uncorrectable then s.err.uncorrectable + 1 else s.err.uncorrectable) ∧
        (f.dead = true → t = { s with cal := t.cal, err := t.err, rings := t.rings }))) ∧
  (∀ (s : State) (stack lane tag : Nat),
    (∀ f, tabGet none s.cal.inflight ((stack * 4 + lane) * 65536 + tag) = some f → f.dead = true ∨ f.held = true) →
    exec (.memoryResponseTimeout stack lane tag) s = .next s) ∧
  (∀ (s : State) (stack lane tag : Nat) (f : InFlight),
    tabGet none s.cal.inflight ((stack * 4 + lane) * 65536 + tag) = some f → f.dead = false → f.held = false →
    ∃ t, exec (.memoryResponseTimeout stack lane tag) s = .next t ∧
      tabGet none t.cal.inflight ((stack * 4 + lane) * 65536 + tag) = some { f with dead := true } ∧
      (∀ k, k ≠ (stack * 4 + lane) * 65536 + tag → tabGet none t.cal.inflight k = tabGet none s.cal.inflight k) ∧
      t.err.corrected = s.err.corrected ∧ t.err.uncorrectable = s.err.uncorrectable)

/-- On a running device, a privileged write of CLR_CMD without reserved bits that names clearing n completes, records
QS_OK and sets the clearing's bit of CLR_EVENT: OPEN, with no timeout, of a Closed or Quiet clearing of a device
neither halted nor at a device fault makes it Open, served from the next tick; QUIESCE, with a timeout that is not
0, of an Open clearing makes it Quiescing with that timer, or Quiet at once where it has no admitted task, and none
of its queues waits for admission any more; CLOSE, with no timeout, of a Quiet clearing makes it Closed, with its
accounting totals and barrier epoch at 0. Every other clearing stays as it is. OPEN changes the clearing, CLR_EVENT,
the global status and the output alone; QUIESCE also its queues; CLOSE also its accounting totals and its barrier.
(R31, R32, R42, R43, R240, R473) -/
def Obligations.ClearingsOpenQuiesceAndClose : Prop :=
  ∀ (s : State) (q : Requester) (w : Word), reachesGlobal s q →
    noBits w (bitsFrom 6 7 ||| bitsFrom 12 15 ||| bitsFrom 32 63) = true →
    (field w 16 16 = 0 → (getClr s (field w 0 6)).st = .closed ∨ (getClr s (field w 0 6)).st = .quiet →
      s.err.halted = false → s.err.deviceFault = false →
      ∃ t, exec (.clrOpen q w) s = .next t ∧ t.glob.code = qsOk ∧
        getClr t (field w 0 6) = { getClr s (field w 0 6) with st := .opened, serveFrom := s.clk.postmark + 1 } ∧
        (∀ m, m ≠ field w 0 6 → getClr t m = getClr s m) ∧ t.glob.event = setBit s.glob.event (field w 0 6) true ∧
        t = { s with clr := t.clr, glob := t.glob, cc := t.cc, out := t.out }) ∧
    (field w 16 16 ≠ 0 → (getClr s (field w 0 6)).st = .opened →
      ∃ t, exec (.clrQuiesce q w) s = .next t ∧ t.glob.code = qsOk ∧
        (tasksOf s (field w 0 6) ≠ [] →
          getClr t (field w 0 6) = { getClr s (field w 0 6) with st := .quiescing, quiesceLeft := field w 16 16 }) ∧
        (tasksOf s (field w 0 6) = [] →
          getClr t (field w 0 6) = { getClr s (field w 0 6) with st := .quiet, quiesceLeft := 0 }) ∧
        (∀ m, m ≠ field w 0 6 → getClr t m = getClr s m) ∧ t.glob.event = setBit s.glob.event (field w 0 6) true ∧
        (∀ k, k ∈ queuesOf s (field w 0 6) → (getQueue t k).waiting = false ∧ (getQueue t k).st = (getQueue s k).st) ∧
        (∀ k, k ∉ queuesOf s (field w 0 6) → getQueue t k = getQueue s k) ∧
        t = { s with clr := t.clr, glob := t.glob, queues := t.queues, cc := t.cc, out := t.out }) ∧
    (field w 16 16 = 0 → (getClr s (field w 0 6)).st = .quiet →
      ∃ t, exec (.clrClose q w) s = .next t ∧ t.glob.code = qsOk ∧
        getClr t (field w 0 6) = { getClr s (field w 0 6) with st := .closed } ∧
        (∀ m, m ≠ field w 0 6 → getClr t m = getClr s m) ∧ t.glob.event = setBit s.glob.event (field w 0 6) true ∧
        (getSwin t (field w 0 6)).total = 0 ∧ (getSwin t (field w 0 6)).energy = 0 ∧ (getPwin t (field w 0 6)).energy = 0 ∧
        (getBar t (field w 0 6)).epoch = 0 ∧
        (∀ m, m ≠ field w 0 6 → getSwin t m = getSwin s m ∧ getPwin t m = getPwin s m ∧ getBar t m = getBar s m) ∧
        t = { s with clr := t.clr, glob := t.glob, cc := t.cc, out := t.out, swin := t.swin, pwin := t.pwin, bar := t.bar })

/-- On a running device, a privileged RESET without reserved bits and timeout of a defined clearing completes with
QS_OK: a Closed, Open, Quiescing or Quiet one becomes Fenced with cause 1 and the postmark in ERR_WFENCE and one
more fence counted; a Fenced or Resetting one changes only the status register. QUIESCE_TIMER_EXPIRE of a Quiescing
clearing with no tick left fences it with cause 3. FENCE_DRAINED of a fence that is drained makes the clearing
Resetting with no task left. CLEARING_RESET_DONE of a Resetting clearing all of whose granules have been zeroed
makes it Closed with its nonce 0 and no accepted tunables waiting; before that it changes nothing. Each that changes
a clearing's state sets its bit of CLR_EVENT. None of them changes the image in force or the phase map, nor, where
no request of a Live context entered a memory store in this cclk (such a request of the clearing is refused with the
fence, R356), the life-cycle state or CLR_EVENT bit of another clearing. (R32, R35, R42, R43, R454, R455, R463) -/
def Obligations.FencesAndResetsOfClearings : Prop :=
  (∀ (s : State) (q : Requester) (w : Word), reachesGlobal s q →
    noBits w (bitsFrom 6 7 ||| bitsFrom 12 15 ||| bitsFrom 32 63) = true → field w 16 16 = 0 →
    ((getClr s (field w 0 6)).st = .fenced ∨ (getClr s (field w 0 6)).st = .resetting →
      exec (.clrReset q w) s = .next (recordStatus s none q qsOk)) ∧
    ((getClr s (field w 0 6)).st = .closed ∨ (getClr s (field w 0 6)).st = .opened ∨
        (getClr s (field w 0 6)).st = .quiescing ∨ (getClr s (field w 0 6)).st = .quiet →
      ∃ t, exec (.clrReset q w) s = .next t ∧ t.glob.code = qsOk ∧ (getClr t (field w 0 6)).st = .fenced ∧
        (getWin t (field w 0 6)).fenceCause = 1 ∧ (getWin t (field w 0 6)).fencePostmark = s.clk.postmark ∧
        t.glob.event.getLsbD (field w 0 6) = true ∧ t.err.fences = s.err.fences + 1 ∧
        ((∀ c, enteredNow s c (getCtx s c).gen = []) → t.glob.event = setBit s.glob.event (field w 0 6) true ∧
          ∀ m, m ≠ field w 0 6 → (getClr t m).st = (getClr s m).st) ∧
        t.img = s.img ∧ t.cal.map = s.cal.map)) ∧
  (∀ (s : State) (n : Nat), (getClr s n).st = .quiescing → (getClr s n).quiesceLeft = 0 →
    ∃ t, exec (.quiesceTimerExpire n) s = .next t ∧ (getClr t n).st = .fenced ∧ (getWin t n).fenceCause = 3 ∧
      (getWin t n).fencePostmark = s.clk.postmark ∧ (n < 64 → t.glob.event.getLsbD n = true) ∧ t.err.fences = s.err.fences + 1 ∧
      ((∀ c, enteredNow s c (getCtx s c).gen = []) → t.glob.event = setBit s.glob.event n true ∧
        ∀ m, m ≠ n → (getClr t m).st = (getClr s m).st) ∧
      t.img = s.img ∧ t.cal.map = s.cal.map) ∧
  (∀ (s : State) (n : Nat), fenceIsDrained s n = true →
    ∃ t, exec (.fenceDrained n) s = .next t ∧ (getClr t n).st = .resetting ∧ tasksOf t n = [] ∧ t.glob.event = setBit s.glob.event n true ∧
      (∀ m, m ≠ n → (getClr t m).st = (getClr s m).st) ∧ t.img = s.img ∧ t.cal.map = s.cal.map) ∧
  (∀ (s : State) (n : Nat), (getClr s n).st = .resetting →
    (zeroingDone s n = false → exec (.clearingResetDone n) s = .next s) ∧ (zeroingDone s n = true →
    ∃ t, exec (.clearingResetDone n) s = .next t ∧ (getClr t n).st = .closed ∧ (getClr t n).fence = none ∧
      (getWin t n).nonce0 = 0 ∧ (getWin t n).nonce1 = 0 ∧ (getClr t n).tunNext = none ∧
      t.glob.event = setBit s.glob.event n true ∧
      (∀ m, m ≠ n → (getClr t m).st = (getClr s m).st) ∧ t.img = s.img ∧ t.cal = s.cal))

/-- On a running device with a root, a write of CLR_NONCE1 by a requester that reaches the window is accepted (QS_OK in
the window): the nonce's upper half is the word, and for a defined clearing an issue with the next sequence number
is under way, or one more is to follow the one under way. MANIFEST_ISSUE_DONE of an issue under way replaces the
page by the bytes of that issue with the postmark of signing and its signature, sets the clearing's CLR_EVENT bit,
and leaves no issue under way unless one more was to follow. Other clearings and windows stay as they are, and
nothing but clearings, windows, CLR_EVENT and output changes. (R36, R37, R38, R39, R43, R45) -/
def Obligations.ManifestsAndNonces : Prop :=
  (∀ (s : State) (q : Requester) (n : Nat) (w : Word), reachesOwn s q n → s.boot.rootAbsent = false → (getClr s n).st ≠ .absent →
    ∃ t, exec (.clrNonce1Write q n w) s = .next t ∧ (getWin t n).code = qsOk ∧ (getWin t n).nonce1 = w ∧
      (getWin t n).nonce0 = (getWin s n).nonce0 ∧
      ((getClr s n).issuing = none → (getClr t n).issues = (getClr s n).issues + 1 ∧ (getClr t n).issuing ≠ none) ∧
      ((getClr s n).issuing ≠ none → getClr t n = { getClr s n with issueAgain := true }) ∧
      (∀ m, m ≠ n → getClr t m = getClr s m ∧ getWin t m = getWin s m) ∧ t = { s with clr := t.clr, win := t.win }) ∧
  (∀ (s : State) (n : Nat) (j : IssueJob), (getClr s n).issuing = some j →
    ∃ t, exec (.manifestIssueDone n) s = .next t ∧ (getClr t n).page = signedPage s j.body ∧
      t.glob.event = setBit s.glob.event n true ∧ ((getClr s n).issueAgain = false → (getClr t n).issuing = none) ∧
      (∀ m, m ≠ n → getClr t m = getClr s m) ∧ t = { s with clr := t.clr, glob := t.glob, cc := t.cc, out := t.out })

/-- On a running device, for a requester that reaches window n, a word without reserved bits and a defined clearing that
is Closed, Open or Quiet: CREATE of a Free context of the clearing (the one the word names, or with ANY the lowest
Free one), with a PASID not bound and a weight in bounds, makes it Live with its generation as it was and
CLR_CTX_ARG's PASID, kept as given also where pasid_valid is 0 (the model's choice, log entry 132; R45 says only
that it is ignored then); DESTROY of an idle Live context makes it Free with the next generation; TEARDOWN of a Live
context, where the section allows it, makes it Draining with the next generation. CLR_CTX_RESULT names the context,
its generation and QS_OK, done but for TEARDOWN. CONTEXT_DRAINED of a Draining context with nothing outstanding
makes it Free, its generation as it was. Every other context keeps its state and generation, and but for TEARDOWN
all it holds; where no request of the context entered a memory store in this cclk, every clearing keeps its life-
cycle state. (R27, R28, R29, R45, R46, R326, R464) -/
def Obligations.ContextsAreCreatedAndLeave : Prop :=
  (∀ (s : State) (q : Requester) (n c : Nat) (w : Word), reachesOwn s q n →
    noBits w (bitsFrom 5 15 ||| bitsFrom 28 63) = true →
    ((getClr s n).st = .closed ∨ (getClr s n).st = .opened ∨ (getClr s n).st = .quiet) →
    ((wbit w 4 = true ∧ lowestFree s n = some c) ∨
        (wbit w 4 = false ∧ c = field w 16 12 ∧ inRange (getClr s n).cfg.ctxBase (getClr s n).cfg.ctxCount c = true) →
      (getCtx s c).st = .free →
      wbit (getWin s n).ctxArg 20 = false ∨ pasidBound s n (field (getWin s n).ctxArg 0 20) = false →
      ((getClr s n).cfg.tunable.getLsbD 4 = true → (getClr s n).cfg.weightMin ≤ field (getWin s n).ctxArg 32 16 ∧
        field (getWin s n).ctxArg 32 16 ≤ (getClr s n).cfg.weightMax) →
      ∃ t, exec (.ctxCreate q n w) s = .next t ∧ (getWin t n).code = qsOk ∧ (getWin t n).ctxCode = qsOk ∧
        (getWin t n).ctxNum = c ∧ (getWin t n).ctxGen = (getCtx s c).gen ∧ (getWin t n).ctxDone = true ∧
        (getCtx t c).st = .live ∧ (getCtx t c).gen = (getCtx s c).gen ∧
        (getCtx t c).pasid = field (getWin s n).ctxArg 0 20 ∧ (getCtx t c).pasidValid = wbit (getWin s n).ctxArg 20 ∧
        (getCtx t c).weight = (if (getClr s n).cfg.tunable.getLsbD 4 = true then field (getWin s n).ctxArg 32 16
          else (getClr s n).cfg.weightMin) ∧
        (∀ d, d ≠ c → getCtx t d = getCtx s d) ∧ t = { s with ctx := t.ctx, win := t.win, sch := t.sch }) ∧
    (wbit w 4 = false → c = field w 16 12 → inRange (getClr s n).cfg.ctxBase (getClr s n).cfg.ctxCount c = true →
      (getCtx s c).st = .live →
      (ctxIdle s c = true →
        ∃ t, exec (.ctxDestroy q n w) s = .next t ∧ (getWin t n).code = qsOk ∧ (getWin t n).ctxCode = qsOk ∧
          (getWin t n).ctxNum = c ∧ (getWin t n).ctxGen = nextGen (getCtx s c).gen ∧ (getWin t n).ctxDone = true ∧
          (getCtx t c).st = .free ∧ (getCtx t c).gen = nextGen (getCtx s c).gen ∧ (getCtx t c).pasidValid = false ∧
          (∀ d, d ≠ c → getCtx t d = getCtx s d) ∧ t.img = s.img ∧
          (enteredNow s c (getCtx s c).gen = [] → t.clr = s.clr ∧ t.tasks = s.tasks)) ∧
      ((getClr s n).cfg.ctxTeardown = true →
        ∃ t, exec (.ctxTeardown q n w) s = .next t ∧ (getWin t n).code = qsOk ∧ (getWin t n).ctxCode = qsOk ∧
          (getWin t n).ctxNum = c ∧ (getWin t n).ctxGen = nextGen (getCtx s c).gen ∧ (getWin t n).ctxDone = false ∧
          (getCtx t c).st = .draining ∧ (getCtx t c).gen = nextGen (getCtx s c).gen ∧ (getCtx t c).tearing = true ∧
          (∀ d, d ≠ c → (getCtx t d).st = (getCtx s d).st ∧ (getCtx t d).gen = (getCtx s d).gen) ∧ t.img = s.img ∧
          (enteredNow s c (getCtx s c).gen = [] → ∀ m, (getClr t m).st = (getClr s m).st)))) ∧
  (∀ (s : State) (c : Nat), (getCtx s c).st = .draining → ctxOutstanding s c = false →
    ∃ t, exec (.contextDrained c) s = .next t ∧ (getCtx t c).st = .free ∧ (getCtx t c).pasidValid = false ∧ (getCtx t c).gen = (getCtx s c).gen ∧
      (∀ d, d ≠ c → getCtx t d = getCtx s d) ∧ t = { s with ctx := t.ctx, win := t.win })

/-- On a running device, for a privileged writer, a word without reserved bits and no image command under way: LOAD off
a mixed device is busy reading IMG_LEN bytes; LOAD_DONE of a failed read ends it with QS_IMG_HOST_READ, and of a
buffer read stages the image that passes R62 with QS_OK, or ends with the code of the check that fails. APPLY of a
section that differs from the one in force, to an Absent, Closed or Quiet clearing whose resources are free, from a
staged image of the same device, makes the clearing Closed with that section, and the device mixed with that pending
bit clear. COMMIT without the flash bit, nothing pending, puts the staged image in force, the staging area empty and
the device no longer mixed. Each ends with its code in IMG_STATUS and not busy, but for LOAD that reads. Other
clearings keep their sections, and their life-cycle states but where an APPLY refuses a request that entered a
memory store in this cclk (R356). (R62, R69, R70, R71, R72, R73) -/
def Obligations.ImageLoadApplyCommit : Prop :=
  (∀ (s : State) (q : Requester) (w : Word), reachesGlobal s q → noBits w (bitsFrom 5 7 ||| bitsFrom 14 63) = true →
    wbit w 4 = false → s.img.busy = false →
    (field w 8 6 = 0 → s.img.mixed = false →
      ∃ t, exec (.imgLoad q w) s = .next t ∧ t.glob.code = qsOk ∧
        t.img = { s.img with busy := true, loading := some s.img.len } ∧ t = { s with img := t.img, glob := t.glob, out := t.out }) ∧
    (∀ (im : Image) (g : ClearingCfg), s.img.staged = some im → s.img.differs = false →
      imageClearing im (field w 8 6) = some g → sectionDiffers s im (field w 8 6) = true →
      (getClr s (field w 8 6)).st = .absent ∨ (getClr s (field w 8 6)).st = .closed ∨ (getClr s (field w 8 6)).st = .quiet →
      resourceHeld s im (field w 8 6) g = false →
      ∃ t, exec (.imgApply q w) s = .next t ∧ t.glob.code = qsOk ∧ t.img.code = qsOk ∧ t.img.busy = false ∧
        t.img.mixed = true ∧ t.img.pending = setBit s.img.pending (field w 8 6) false ∧ t.img.force = s.img.force ∧
        (getClr t (field w 8 6)).st = .closed ∧ (getClr t (field w 8 6)).cfg = g ∧
        (getClr t (field w 8 6)).digest = im.digest ∧
        (∀ m, m ≠ field w 8 6 → (getClr t m).cfg = (getClr s m).cfg) ∧
        ((∀ c, enteredNow s c (getCtx s c).gen = []) → ∀ m, m ≠ field w 8 6 → (getClr t m).st = (getClr s m).st) ∧
        t.cal.map = s.cal.map ∧ t.cal.mapNext = some (moveEntries (mapAhead s) im (field w 8 6))) ∧
    (∀ im : Image, field w 8 6 = 0 → s.img.staged = some im → s.img.differs = false → s.img.pending = 0 →
      ∃ t, exec (.imgCommit q w) s = .next t ∧ t.glob.code = qsOk ∧ t.img.code = qsOk ∧ t.img.busy = false ∧
        t.img.force = some im ∧ t.img.mixed = false ∧ t.img.staged = none ∧ t.img.pending = 0 ∧
        (∀ n, (getClr t n).st = (getClr s n).st ∧ (getClr t n).cfg = (getClr s n).cfg) ∧ t.cal = s.cal)) ∧
  (∀ (s : State) (k : Nat), s.img.loading = some k →
    (∃ t, exec (.imgLoadDone .failed) s = .next t ∧ t.img.code = qsImgHostRead ∧ t.img.busy = false ∧ t.img.force = s.img.force) ∧
    (∀ bs : List Byte, ∃ t, exec (.imgLoadDone (.bytes bs)) s = .next t ∧ t.img.busy = false ∧ t.img.loading = none ∧
      t.img.force = s.img.force ∧ t = { s with img := t.img, que := t.que } ∧
      match validateImage (bs.take k) (some k) s.boot.lc s.boot.settings.minSvn s.boot.settings.signers with
      | .error f => t.img.code = f.code ∧ t.img.errSection = f.sect ∧ t.img.errOffset = f.offset
      | .ok im => t.img.code = qsOk ∧ (s.img.resetAfter = false → t.img.staged = some im ∧ t.img.pending = pendingMask s im)))

/-- On a running device, for a privileged writer, a word without reserved bits and no image command under way: DISCARD
off a mixed device empties the staging area; FLASH of a staged image off a mixed device with a flash begins the
write of its bytes at 0x00100000; SETTINGS with IMG_LEN 512 and an acceptable record begins its write, MACed, to the
other copy with the sequence one higher. The end of the flash write of an image that runs, not in Bare, records
QS_OK and what the flash now holds; of one that fails, QS_IMG_FLASH, and the flash matches nothing. Both leave the
image machinery idle. PLOT_SCRUB_DONE of the plot first in order, all of whose granules have been written and
answered, takes it from the scrub list and changes nothing else; before that it changes nothing. (R72, R74, R77,
R78, R79, R80) -/
def Obligations.ImageStagingAndFlash : Prop :=
  (∀ (s : State) (q : Requester) (w : Word), reachesGlobal s q → noBits w (bitsFrom 5 7 ||| bitsFrom 14 63) = true →
    wbit w 4 = false → field w 8 6 = 0 → s.img.busy = false →
    (s.img.mixed = false →
      ∃ t, exec (.imgDiscard q w) s = .next t ∧ t.glob.code = qsOk ∧ t.img.code = qsOk ∧ t.img.staged = none ∧
        t.img.pending = 0 ∧ t.img.force = s.img.force ∧ t = { s with img := t.img, glob := t.glob }) ∧
    (∀ im : Image, s.img.staged = some im → s.img.mixed = false → s.boot.flashPresent = true →
      ∃ t, exec (.imgFlash q w) s = .next t ∧ t.glob.code = qsOk ∧
        t.img = { s.img with busy := true, flashing := some (.image im.bytes), flashImage := none } ∧
        t.out = .flashWrite 0x00100000 im.bytes :: s.out ∧ t = { s with img := t.img, glob := t.glob, out := t.out }) ∧
    (∀ bs : List Byte, s.img.len = 512 → settingsAllowed s bs (s.img.force.map (·.svn)) = true → s.boot.flashPresent = true →
      ∃ t, exec (.imgSettings q w (.bytes bs)) s = .next t ∧ t.glob.code = qsOk ∧ t.img.busy = true ∧
        t.img.flashing = some (.settings { readSettings bs with sequence := s.boot.settings.sequence + 1 }
          (settingsBytes (settingsKey s) { readSettings bs with sequence := s.boot.settings.sequence + 1 })) ∧
        t.out.head? = some (.flashWrite (nextCopy s)
          (settingsBytes (settingsKey s) { readSettings bs with sequence := s.boot.settings.sequence + 1 })) ∧
        t = { s with img := t.img, glob := t.glob, out := t.out })) ∧
  (∀ (s : State) (bs : List Byte), s.boot.phase ≠ .bare → s.img.flashing = some (.image bs) →
    (∃ t, exec .flashWriteDone s = .next t ∧ t.img.code = qsOk ∧ t.img.flashImage = some bs ∧ t.img.busy = false ∧
      t.img.flashing = none ∧ t.img.force = s.img.force ∧ t = { s with img := t.img }) ∧
    (∃ t, exec .flashOpTimeout s = .next t ∧ t.img.code = qsImgFlash ∧ t.img.flashImage = none ∧ t.img.busy = false ∧
      t.img.flashing = none ∧ t.img.force = s.img.force ∧ t = { s with img := t.img })) ∧
  (∀ (s : State) (p : Nat) (r : List Nat), s.img.scrub = p :: r →
    exec (.plotScrubDone p) s = .next (if s.img.scrubNext = 1048576 ∧ s.img.scrubOut = 0 then
      { s with img := { s.img with scrub := r, scrubNext := 0, scrubOut := 0 } } else s))

/-- Outside the reset, FUNCTION_LEVEL_RESET of a virtual function in Stopped, of an undefined clearing or beyond NumVFs
raises hp_flr_done and changes nothing else; else its clearing is Fenced, or stays Resetting, and no other
clearing's state changes (where no request of a Live context entered a memory store in this cclk; the same at
VF_ENABLE_CHANGE). Outside the reset and Stopped, VF_ENABLE_CHANGE sets NumVFs (at most 64) and leaves no clearing
served by another function than before in Closed, Open, Quiescing or Quiet. On a running device
PF_FUNCTION_LEVEL_RESET and HOT_RESET leave no defined clearing in those states, XLT_PRITO at 10,000, TBL_HOLD at
100, SCH_PASSWD at 10, IMG_SRC and IMG_LEN at 0, and off a mixed and idle image machinery nothing staged. RESET_SLOW
of a Fenced or Resetting clearing for which a function waits raises hp_flr_done for every such function, and none
waits on that clearing any more. Where such a clearing was due after a reset of the physical function or of the
link, RESET_SLOW writes its QS_ERR_RESET_SLOW and raises hp_flr_done for the functions that waited for every
clearing, once for each clearing. (R34, R91, R92, R98, R99, R141, R472) -/
def Obligations.FunctionResets : Prop :=
  (∀ (s : State) (f : Nat), 1 ≤ f → f ≤ 64 → s.boot.phase ≠ .reset →
    (s.boot.phase = .stopped ∨ (getClr s (f - 1)).st = .absent ∨ s.glob.numVfs < f →
      exec (.functionLevelReset f) s = .next { s with out := .flrDone f :: s.out }) ∧
    (s.boot.phase ≠ .stopped → (getClr s (f - 1)).st ≠ .absent → f ≤ s.glob.numVfs →
      ∃ t, exec (.functionLevelReset f) s = .next t ∧
        (getClr t (f - 1)).st = (if (getClr s (f - 1)).st = .resetting then .resetting else .fenced) ∧
        ((∀ c, enteredNow s c (getCtx s c).gen = []) → ∀ m, m ≠ f - 1 → (getClr t m).st = (getClr s m).st) ∧
        t.img = s.img ∧ t.glob.numVfs = s.glob.numVfs)) ∧
  (∀ (s : State) (k : Nat), s.boot.phase ≠ .reset → s.boot.phase ≠ .stopped →
    ∃ t, exec (.vfEnableChange k) s = .next t ∧ t.glob.numVfs = min k 64 ∧ t.img = s.img ∧
      (∀ n, n < 64 → servingFunc s n ≠ servingFunc t n → (getClr s n).st ≠ .absent →
        (getClr t n).st = .fenced ∨ (getClr t n).st = .resetting) ∧
      ((∀ c, enteredNow s c (getCtx s c).gen = []) →
        ∀ n, servingFunc s n = servingFunc t n → (getClr t n).st = (getClr s n).st)) ∧
  (∀ (s : State) (c : Instr), s.boot.phase = .running → c = .pfFunctionLevelReset ∨ c = .hotReset →
    ∃ t, exec c s = .next t ∧ t.xlt.timeout = 10000 ∧ t.tbl.hold = 100 ∧ t.sch.passwd = 10 ∧ t.img.src = 0 ∧ t.img.len = 0 ∧
      t.img.force = s.img.force ∧ (s.img.busy = false → s.img.mixed = false → t.img.staged = none) ∧
      (∀ n, n < 64 → (getClr s n).st ≠ .absent → (getClr t n).st = .fenced ∨ (getClr t n).st = .resetting)) ∧
  (∀ s : State, s.boot.phase = .running →
    (∃ t, exec .pfFunctionLevelReset s = .next t ∧ t.img.src = 0) ∧ (∃ t, exec .hotReset s = .next t ∧ t.img.src = 0)) ∧
  (∀ (s : State) (n f : Nat), (getClr s n).st = .fenced ∨ (getClr s n).st = .resetting → (f, some n) ∈ s.err.flrWait →
    ∃ t, exec (.resetSlow n) s = .next t ∧ Output.flrDone f ∈ t.out ∧ (∀ g, (g, some n) ∉ t.err.flrWait) ∧
      t = { s with err := t.err, rings := t.rings, out := t.out }) ∧
  (∀ (s : State) (n : Nat), s.boot.phase = .running → (getClr s n).st = .fenced ∨ (getClr s n).st = .resetting →
    s.err.slowDue.getLsbD n = true →
    ∃ t, exec (.resetSlow n) s = .next t ∧ t.err.slowDue = setBit s.err.slowDue n false ∧
      (∃ r, r ∈ (getRing t globalRing).arrivals ∧ r.code = qsErrResetSlow ∧ r.unit = n) ∧
      (∃ r, r ∈ (getRing t n).arrivals ∧ r.code = qsErrResetSlow ∧ r.unit = n) ∧
      (∀ f, (f, none) ∈ s.err.flrWait → Output.flrDone f ∈ t.out) ∧ (∀ f, (f, none) ∉ t.err.flrWait) ∧
      t = { s with err := t.err, rings := t.rings, out := t.out })

/-- Before hp_t_ready rises (phases 0 and 1) REGISTER_WRITE, DOORBELL and REGISTER_READ change nothing, and one of
DBG_REG does so while debug access is closed (R1). Of any other, a write (REGISTER_WRITE or DOORBELL) to a function
or BAR that does not exist records QS_BAD_ACCESS in the global status and changes nothing else; one of a legal width
beyond the part of its BAR that maps a resource records QS_NOT_OWNER in the writer's own window (log entry 11); one
of a narrower or unaligned width to an offset of the space records QS_BAD_ACCESS in the status register of the place
and changes nothing else. On a running device a write of a legal width to an offset that holds no register, by a
requester that reaches the place, records QS_BAD_ACCESS in the status register of the place and changes nothing
else, and a read of a legal width of such an offset answers zero and changes nothing; a read of a narrower or
unaligned width of an offset of the space, and one of half a doorbell, answers zero and records QS_BAD_ACCESS in the
code of the status register of the place, which counts and names only refused writes (R527). (R1, R2, R6, R7, R14,
R97, R140, R146, R412, R527) -/
def Obligations.PortRefusals : Prop :=
  (∀ (s : State) (a : Access) (w : Word) (r : HostRead),
    s.boot.phase = .reset ∨ s.boot.phase = .rom ∨ ((∃ off, a = .tap off) ∧ s.key.debugOpen = false) →
    exec (.registerWrite a w r) s = .next s ∧ exec (.registerRead a) s = .next s ∧ exec (.doorbell a w) s = .next s) ∧
  (∀ (s : State) (a : Access) (w : Word) (r : HostRead) (c : Instr), s.boot.phase ≠ .reset → s.boot.phase ≠ .rom →
    (∀ off, a = .tap off → s.key.debugOpen = true) →
    c = .registerWrite a w r ∨ c = .doorbell a w →
    (accessReach s a = .nothing → exec c s = .next (recordStatus s none (accessReq a) qsBadAccess)) ∧
    (accessReach s a = .foreign → accessWidth a ≠ none →
      exec c s = .next (recordStatus s (tenantOf (accessReq a)) (accessReq a) qsNotOwner)) ∧
    (∀ off, accessReach s a = .space off → accessWidth a = none →
      exec c s = .next (recordStatus s (placeWindow s (accessReq a) (placeAt s off)) (accessReq a) qsBadAccess))) ∧
  (∀ (s : State) (a : Access) (w : Word) (r : HostRead) (off : Nat), s.boot.phase = .running → (∀ off, a = .tap off → s.key.debugOpen = true) →
    accessReach s a = .space off →
    ((placeAt s off = .hole ∧ privileged s (accessReq a) = true) ∨ placeAt s off = .mbxHole ∨
        (∃ n, placeAt s off = .winHole n ∧ reachesWindow s (accessReq a) n = true) → accessWidth a ≠ none →
      exec (.registerWrite a w r) s =
        .next (recordStatus s (placeWindow s (accessReq a) (placeAt s off)) (accessReq a) qsBadAccess) ∧
      exec (.registerRead a) s = .next (emit s (readAnswer a 0))) ∧
    (accessWidth a = none ∨ (∃ p d, placeAt s off = .doorbell p d ∧ accessWidth a ≠ some .whole) →
      exec (.registerRead a) s =
        .next (emit (recordRead s (placeWindow s (accessReq a) (placeAt s off)) qsBadAccess) (readAnswer a 0))))

/-- On a running device, for a 64-bit write of v by the physical function, v without reserved bits (below 2^32, and
below 2^16 for the last two), to XLT_PRITO (0x00E018), TBL_HOLD (0x00A070), SCH_PASSWD (0x00D410) or ERR_FENCETO
(0x03400020): a legal value (1 to 1,000,000; 1 to 1,000,000; 1 to 65,535; 1,000 to 50,000) is in the register,
recorded as QS_OK, and nothing else changes but the global status, and for TBL_HOLD the note of the value that
stands until the next cclk (R311); an illegal one is refused with QS_ILLEGAL_VALUE and changes nothing but that
status. A 64-bit read of each of the four registers answers the value it holds and changes nothing but the answer.
(R6, R12, R13, R14, R311, R346, R381, R486) -/
def Obligations.BoundedRegisterWrites : Prop :=
  ∀ (s : State) (v tag : Nat) (h : HostRead), s.boot.phase = .running →
    (v < 2 ^ 32 →
      (1 ≤ v ∧ v ≤ 1000000 → exec (.registerWrite (.host 0 0 0xE018 0xFF tag) (word v) h) s =
        .next (recordStatus { s with xlt := { s.xlt with timeout := v } } none reqRanger qsOk)) ∧
      (v = 0 ∨ 1000000 < v → exec (.registerWrite (.host 0 0 0xE018 0xFF tag) (word v) h) s =
        .next (recordStatus s none reqRanger qsIllegalValue)) ∧
      (1 ≤ v ∧ v ≤ 1000000 → exec (.registerWrite (.host 0 0 0xA070 0xFF tag) (word v) h) s =
        .next (recordStatus { s with tbl := { s.tbl with hold := v, holdWas := some (curHold s, nowCclk s) } } none reqRanger qsOk)) ∧
      (v = 0 ∨ 1000000 < v → exec (.registerWrite (.host 0 0 0xA070 0xFF tag) (word v) h) s =
        .next (recordStatus s none reqRanger qsIllegalValue))) ∧
    (v < 2 ^ 16 →
      (v ≠ 0 → exec (.registerWrite (.host 0 0 0xD410 0xFF tag) (word v) h) s =
        .next (recordStatus { s with sch := { s.sch with passwd := v } } none reqRanger qsOk)) ∧
      (v = 0 → exec (.registerWrite (.host 0 0 0xD410 0xFF tag) (word v) h) s =
        .next (recordStatus s none reqRanger qsIllegalValue)) ∧
      (1000 ≤ v ∧ v ≤ 50000 → exec (.registerWrite (.host 0 0 0x03400020 0xFF tag) (word v) h) s =
        .next (recordStatus { s with err := { s.err with fenceTo := v } } none reqRanger qsOk)) ∧
      (v < 1000 ∨ 50000 < v → exec (.registerWrite (.host 0 0 0x03400020 0xFF tag) (word v) h) s =
        .next (recordStatus s none reqRanger qsIllegalValue))) ∧
    exec (.registerRead (.host 0 0 0xE018 0xFF tag)) s = .next { s with out := .regRead (word s.xlt.timeout) (some tag) :: s.out } ∧
    exec (.registerRead (.host 0 0 0xA070 0xFF tag)) s = .next { s with out := .regRead (word s.tbl.hold) (some tag) :: s.out } ∧
    exec (.registerRead (.host 0 0 0xD410 0xFF tag)) s = .next { s with out := .regRead (word s.sch.passwd) (some tag) :: s.out } ∧
    exec (.registerRead (.host 0 0 0x03400020 0xFF tag)) s = .next { s with out := .regRead (word s.err.fenceTo) (some tag) :: s.out }

/-- On a running device a 64-bit read by the physical function of a register of the global control space, or of a
clearing's window, that is not a postmark register answers the register's value with the read's tag and leaves what
R11 clears cleared; of a register without an RC field it changes nothing but the answer. A 64-bit read of
CAL_POSTMARK (0x003008) answers the postmark and changes nothing else. A 64-bit read of ERR_CECC (0x03400028)
answers both counters as they stood when the cclk opened, each at most 2^32 - 1, and leaves in them what was added
since (R11), and all else as it was but the note of those values. (R6, R9, R11, R140, R151) -/
def Obligations.ReadsOfRegisters : Prop :=
  (∀ (s : State) (off tag : Nat) (r : GlobReg), s.boot.phase = .running → off < 2 ^ 26 → off % 8 = 0 →
    placeAt s off = .glob r → r ≠ .calPostmark →
    exec (.registerRead (.host 0 0 off 0xFF tag)) s =
      .next { globTaken s .whole r with out := .regRead (globRead s r) (some tag) :: s.out } ∧
    (globCounts r = 0 → globRead s r = globValue s r ∧ globTaken s .whole r = s)) ∧
  (∀ (s : State) (off tag n : Nat) (r : WinReg), s.boot.phase = .running → off < 2 ^ 26 → off % 8 = 0 →
    placeAt s off = .win n r → r ≠ .calWpostmark →
    exec (.registerRead (.host 0 0 off 0xFF tag)) s =
      .next { winTaken s n .whole r with out := .regRead (winRead s n r) (some tag) :: s.out } ∧
    (winCounts r = 0 → winRead s n r = winValue s n r ∧ winTaken s n .whole r = s)) ∧
  (∀ (s : State) (tag : Nat), s.boot.phase = .running →
    exec (.registerRead (.host 0 0 0x3008 0xFF tag)) s = .next { s with out := .regRead (word s.clk.postmark) (some tag) :: s.out } ∧
    (∃ t, exec (.registerRead (.host 0 0 0x03400028 0xFF tag)) s = .next t ∧
      t.err = { s.err with
        corrected := s.err.corrected - s.cc.err.corrected, uncorrectable := s.err.uncorrectable - s.cc.err.uncorrectable } ∧
      t.cc = { s.cc with err := { s.cc.err with corrected := 0, uncorrectable := 0 } } ∧
      t.out = .regRead (counts s.cc.err.corrected s.cc.err.uncorrectable) (some tag) :: s.out ∧
      t = { s with err := t.err, cc := t.cc, out := t.out }))

/-- For every command of the table that writes a register of the global control space (its writer q as globalWriter
gives it) and every state in which the port is open: a writer that is not privileged gets QS_NOT_OWNER in its own
window (or the global status where it has none), and nothing else changes, whatever word it writes. The same holds,
with the same answer, of every command that writes a register of window n (its writer and window as windowWriter
gives them) from a writer that is neither privileged nor the tenant of clearing n. (R1, R2, R14, R44, R140) -/
def Obligations.ForeignWritersChangeOnlyTheirOwnStatus : Prop :=
  (∀ (i : Instr) (s : State) (q : Requester), i.globalWriter = some q → privileged s q = false →
    s.boot.phase ≠ .reset → s.boot.phase ≠ .rom →
    exec i s = .next (recordStatus s (tenantOf q) q qsNotOwner)) ∧
  (∀ (i : Instr) (s : State) (q : Requester) (n : Nat), i.windowWriter = some (q, n) → reachesWindow s q n = false →
    s.boot.phase ≠ .reset → s.boot.phase ≠ .rom →
    exec i s = .next (recordStatus s (tenantOf q) q qsNotOwner))

/-- On a running device, a 64-bit doorbell write of virtual function f+1 to a page and doorbell of an Open clearing f
that is served: where the queue is in the hot-queue cache, Enabled, and the word passes db_check, tail and cpl_head
take the word's halves, and nothing but the window's status, the cache and that queue changes; where it is not in
the cache, its word is not waiting and the FIFO has room, the word waits in the FIFO and the READ of the 256-byte
granule that holds its descriptor is on its way. DOORBELL_APPLY of a queue whose word waits, whose descriptor READ
has been answered, and that is in the cache and Enabled with a word that passes db_check applies it and takes it
from the FIFO. Every other queue stays as it is. (R218, R219, R221) -/
def Obligations.DoorbellsMoveQueuePointers : Prop :=
  (∀ (s : State) (f p d tag : Nat) (w : Word), s.boot.phase = .running → f < 64 → f < s.glob.numVfs →
    (getClr s f).st = .opened → (getClr s f).serveFrom ≤ s.clk.postmark →
    p < (getClr s f).cfg.dbCount → d < 512 → (getClr s f).cfg.dbBase + p < 2048 → dbPageOwner s ((getClr s f).cfg.dbBase + p) = some f →
    ∃ t, exec (.doorbell (.host (f + 1) 2 (0x1000 * p + 8 * d) 0xFF tag) w) s = .next t ∧ (getWin t f).code = qsOk ∧
      (s.que.hot.contains (512 * ((getClr s f).cfg.dbBase + p) + d) = true →
        (getQueue s (512 * ((getClr s f).cfg.dbBase + p) + d)).st = .enabled →
        dbCheck (getQueue s (512 * ((getClr s f).cfg.dbBase + p) + d)) w = true →
        getQueue t (512 * ((getClr s f).cfg.dbBase + p) + d) =
          { getQueue s (512 * ((getClr s f).cfg.dbBase + p) + d) with
            tail := field w 0 32, cplHead := field w 32 32
            freed := (getQueue t (512 * ((getClr s f).cfg.dbBase + p) + d)).freed } ∧
        (∀ k, k ≠ 512 * ((getClr s f).cfg.dbBase + p) + d → getQueue t k = getQueue s k) ∧
        t = { s with win := t.win, que := t.que, queues := t.queues }) ∧
      (s.que.hot.contains (512 * ((getClr s f).cfg.dbBase + p) + d) = false → s.que.fifo.length < 8192 →
        (∀ e ∈ s.que.fifo, e.1 ≠ 512 * ((getClr s f).cfg.dbBase + p) + d) →
        t.que.fifo = s.que.fifo ++ [(512 * ((getClr s f).cfg.dbBase + p) + d, w)] ∧
        (∃ r, t.que.ownWait = s.que.ownWait ++ [r] ∧ r.write = false ∧ r.addr = descAddr (512 * ((getClr s f).cfg.dbBase + p) + d) / 256 * 256) ∧
        t.queues = s.queues ∧
        t = { s with win := t.win, que := t.que })) ∧
  (∀ (s : State) (q : Nat) (w : Word), s.que.fifo.find? (fun e => e.1 == q) = some (q, w) → s.que.hot.contains q = true →
    s.que.arrived.contains q = true →
    (getQueue s q).st = .enabled → dbCheck (getQueue s q) w = true → (∀ kv ∈ s.queues, kv.2.spilled = false) →
    ∃ t, exec (.doorbellApply q) s = .next t ∧ (getQueue t q).tail = field w 0 32 ∧ (getQueue t q).cplHead = field w 32 32 ∧
      (∀ e ∈ t.que.fifo, e.1 ≠ q) ∧ (∀ k, k ≠ q → getQueue t k = getQueue s k) ∧
      t = { s with que := t.que, queues := t.queues })

/-- On a running device, for a requester that reaches window n, a defined clearing that is Closed, Open or Quiet and a
queue it owns: CONFIG of a Disabled queue from a staged descriptor that passes R216 copies its fields; ENABLE of a
Disabled queue makes it Enabled with all its pointers 0; DISABLE of an Enabled queue with nothing fetched, no task,
no completion waiting or being written makes it Disabled; READ puts the eight descriptor words in the staging
registers. The window's result names the queue, QS_OK and its state, and every other queue stays as it is. On a
running device a privileged write of STM_QUOTA(n) without reserved bits, of a defined clearing and at most 256 per
plot, sets that quota and changes nothing else but the status register. (R216, R217, R231, R243, R244, R245) -/
def Obligations.QueueCommands : Prop :=
  (∀ (s : State) (rq : Requester) (n : Nat) (w : Word), reachesOwn s rq n → noBits w (bitsFrom 4 15 ||| bitsFrom 36 63) = true →
    ((getClr s n).st = .closed ∨ (getClr s n).st = .opened ∨ (getClr s n).st = .quiet) →
    queueOwner s (field w 16 20) = some n →
    ((getQueue s (field w 16 20)).st = .disabled → firstBad (configChecks s n) = none →
      ∃ t, exec (.queConfig rq n w) s = .next t ∧ getQueue t (field w 16 20) = getQueue (configQueue s n (field w 16 20)) (field w 16 20) ∧
        (getQueue t (field w 16 20)).depth = field (stagedDesc s n 3) 0 32 ∧
        (getQueue t (field w 16 20)).ringBase = (stagedDesc s n 0).toNat ∧
        (getQueue t (field w 16 20)).ctx = field (stagedDesc s n 4) 0 12 ∧
        (getQwin t n).code = qsOk ∧ (getQwin t n).queue = field w 16 20 ∧ (getQwin t n).st = .disabled ∧ (getQwin t n).done = true ∧
        (∀ k, k ≠ field w 16 20 → getQueue t k = getQueue s k) ∧ t = { s with queues := t.queues, qwin := t.qwin, win := t.win }) ∧
    ((getQueue s (field w 16 20)).st = .disabled →
      ∃ t, exec (.queEnable rq n w) s = .next t ∧ (getQueue t (field w 16 20)).st = .enabled ∧
        (getQueue t (field w 16 20)).tail = 0 ∧ (getQueue t (field w 16 20)).head = 0 ∧ (getQueue t (field w 16 20)).cplTail = 0 ∧
        (getQueue t (field w 16 20)).cplHead = 0 ∧ (getQueue t (field w 16 20)).depth = (getQueue s (field w 16 20)).depth ∧
        (getQwin t n).code = qsOk ∧ (getQwin t n).queue = field w 16 20 ∧ (getQwin t n).st = .enabled ∧ (getQwin t n).done = true ∧
        (∀ k, k ≠ field w 16 20 → getQueue t k = getQueue s k) ∧ t = { s with queues := t.queues, qwin := t.qwin, win := t.win }) ∧
    ((getQueue s (field w 16 20)).st = .enabled → (getQueue s (field w 16 20)).buffered = [] → (getQueue s (field w 16 20)).items = [] →
      (getQueue s (field w 16 20)).writing = false → tasksOfQueue s (field w 16 20) = [] →
      ∃ t, exec (.queDisable rq n w) s = .next t ∧ (getQueue t (field w 16 20)).st = .disabled ∧
        (getQueue t (field w 16 20)).fetch = none ∧ (getQwin t n).code = qsOk ∧ (getQwin t n).queue = field w 16 20 ∧
        (getQwin t n).st = .disabled ∧
        (getQwin t n).done = true ∧ (∀ k, k ≠ field w 16 20 → getQueue t k = getQueue s k)) ∧
    (∃ t, exec (.queRead rq n w) s = .next t ∧ (getQwin t n).desc = queueWords (getQueue s (field w 16 20)) ∧
      (getQwin t n).code = qsOk ∧ (getQwin t n).queue = field w 16 20 ∧ (getQwin t n).st = (getQueue s (field w 16 20)).st ∧
      t.queues = s.queues ∧ t = { s with qwin := t.qwin, win := t.win })) ∧
  (∀ (s : State) (q : Requester) (n : Nat) (w : Word), reachesGlobal s q → noBits w (bitsFrom 32 63) = true →
    (getClr s n).st ≠ .absent → field w 0 32 ≤ plotsTotal (getClr s n).cfg * 256 →
    ∃ t, exec (.stmQuotaWrite q n w) s = .next t ∧ t.glob.code = qsOk ∧ quotaOf t n = field w 0 32 ∧
      (∀ m, m ≠ n → quotaOf t m = quotaOf s m) ∧ t = { s with que := t.que, glob := t.glob })

/-- For every envelope command of the table (task, number and opcode as envelopeStart gives them): where the envelope
may not start (it is not waiting, has another opcode, its task is cut, its clearing does not run tasks, a FENCE
stands in the way, or its table lane is not open), nothing changes; where it may, the command completes and the
envelope does not wait any more. NOP and FENCE then are done with QS_OK: the envelope's outcome is QS_OK, other
tasks stay as they are, and nothing but tasks, queues and the queues' window counters changes. (R226, R237, R240,
R290, R500) -/
def Obligations.EnvelopesStart : Prop :=
  (∀ (i : Instr) (s : State) (t e op : Nat), i.envelopeStart = some (t, e, op) →
    (startable s t e op = false → exec i s = .next s) ∧
    (startable s t e op = true → ∃ u, exec i s = .next u ∧ ∃ v, getEnv u t e = some v ∧ v.st ≠ .waiting ∧ v.started = nowCclk s)) ∧
  (∀ (s : State) (t e : Nat),
    (startable s t e 0 = true → ∃ u v, exec (.nop t e) s = .next u ∧ getEnv u t e = some v ∧ v.st = .done ∧ v.code = qsOk ∧
      (∀ r, r ≠ t → getTask u r = getTask s r) ∧ u = { s with tasks := u.tasks, queues := u.queues, qwin := u.qwin }) ∧
    (startable s t e 1 = true → ∃ u v, exec (.fence t e) s = .next u ∧ getEnv u t e = some v ∧ v.st = .done ∧ v.code = qsOk ∧
      (∀ r, r ≠ t → getTask u r = getTask s r) ∧ u = { s with tasks := u.tasks, queues := u.queues, qwin := u.qwin }))

/-- A GATHER_POOL, GATHER or REDUCE envelope that may start: where a check of the table and its names fails, the
envelope is done with the code of the first that fails; where they pass and nothing is to move, it is done with
QS_OK; where a check of its extents, of its core or of the engines fails, it is done with the code of the first that
fails; where those pass too and its pin has expired, with QS_TBL_PIN_EXPIRED; and where nothing fails, it runs on an
engine in service of its clearing, or waits for one, with no outcome yet. ENVELOPE_ASSIGN of the envelope that waits
first in a clearing that is not frozen, with an engine that can take one, assigns it to that engine. Tables,
clearings and contexts stay as they are. (R253, R259, R260, R263, R285) -/
def Obligations.LookupEnvelopesAreCheckedAndAssigned : Prop :=
  (∀ (s : State) (t e op : Nat) (k : Task) (v : EnvRun), startable s t e op = true → getTask s t = some k → getEnv s t e = some v →
    op = 0x10 ∨ op = 0x11 ∨ op = 0x12 →
    ∃ u x, (if op = 0x10 then exec (.gatherPool t e) s else if op = 0x11 then exec (.gather t e) s else exec (.reduce t e) s) = .next u ∧
      getEnv u t e = some x ∧ u.tbl.tbl = s.tbl.tbl ∧ u.clr = s.clr ∧ u.ctx = s.ctx ∧
      (∀ c, firstBad (lookupNames s k.n (gatherOps v.bytes)) = some c → x.st = .done ∧ x.code = c) ∧
      (firstBad (lookupNames s k.n (gatherOps v.bytes)) = none →
        (lookupEmpty (gatherOps v.bytes) = true → x.st = .done ∧ x.code = qsOk) ∧
        (lookupEmpty (gatherOps v.bytes) = false →
          (∀ c, firstBad (lookupExtents s k (gatherOps v.bytes)) = some c → x.st = .done ∧ x.code = c) ∧
          (firstBad (lookupExtents s k (gatherOps v.bytes)) = none →
            (pinExpired s k (gatherOps v.bytes).desc = true → x.st = .done ∧ x.code = qsTblPinExpired) ∧
            (pinExpired s k (gatherOps v.bytes).desc = false →
              (x.st = .running ∧ ∃ g, x.engine = some g ∧ g ∈ enginesIn s k.n) ∨ x.st = .unassigned))))) ∧
  (∀ (s : State) (t e g : Nat) (k : Task) (v : EnvRun), getTask s t = some k → getEnv s t e = some v → v.st = .unassigned →
    lsFrozen s k.n = false → (unassignedOf s k.n).any (fun x => assignBefore x (t, k, e, v)) = false → pickEngine s k.n = some g →
    ∃ u x, exec (.envelopeAssign t e) s = .next u ∧ getEnv u t e = some x ∧ x.st = .running ∧ x.engine = some g ∧
      x.assigned = s.tbl.assigns + 1 ∧ (∀ r, r ≠ t → getTask u r = getTask s r) ∧
      u.tbl.tbl = s.tbl.tbl ∧ u = { s with tasks := u.tasks, tbl := u.tbl, pwr := u.pwr, pwin := u.pwin })

/-- ENVELOPE_FETCH of a queue whose fetch is under way ends it: a failed read of an Enabled queue puts it into Error;
bytes that were read stand behind those already fetched, where the queue is not Enabled or no batch begins at its
head. BATCH_ADMIT of an Enabled queue with no dead letter waiting for an entry returns a head envelope whose batch
is longer than the ring as a dead letter with QS_STM_TOO_BIG (R227). With a whole batch at its head that is not
longer than the ring, the batch not tried since the last boundary or release: one that fails a check of R232 is
returned as dead letters, the failing envelope with the check's code and the others with QS_STM_BATCH_REFUSED, each
with its tag, head passes it, and no task changes; one that passes, may be admitted, fits and is in its turn in a
cclk that has admitted none counts its tasks as admitted and makes the queue's clearing the last served; where it is
one task, that task stands in the stream table with its pin at the current postmark; where nothing more is fetched,
head passes it. COALESCE_TIMEOUT of a queue that interrupts and counts completions with a timer starts the count
afresh and raises the queue's vector where the clearing has a virtual function; of any other queue it changes
nothing. (R227, R228, R231, R232, R233, R236, R241) -/
def Obligations.BatchesAreFetchedAndAdmitted : Prop :=
  (∀ (s : State) (q c : Nat), (getQueue s q).fetch = some c →
    (∃ t, exec (.envelopeFetch q .failed) s = .next t ∧ (getQueue t q).fetch = none ∧
      ((getQueue s q).st = .enabled → (getQueue t q).st = .error) ∧ (∀ k, k ≠ q → getQueue t k = getQueue s k) ∧ t.tasks = s.tasks) ∧
    (∀ bs : List Byte, ∃ t, exec (.envelopeFetch q (.bytes bs)) s = .next t ∧ (getQueue t q).fetch = none ∧
      ((getQueue s q).st ≠ .enabled ∨ (∀ b, ((getQueue s q).buffered ++ chunk64 c bs).head? = some b → envFlag b 3 = false) →
        (getQueue t q).buffered = (getQueue s q).buffered ++ chunk64 c bs) ∧
      (getQueue t q).st = (getQueue s q).st ∧ (∀ k, k ≠ q → getQueue t k = getQueue s k) ∧ t.tasks = s.tasks)) ∧
  (∀ (s : State) (q n : Nat) (bs : List (List Byte)), queueOwner s q = some n → headBatch (getQueue s q) = some bs →
    (getQueue s q).st = .enabled → deadWaits (getQueue s q) = false → notAgain s n q = false →
    (∀ b, (getQueue s q).buffered.head? = some b → envFlag b 3 = true → envBatchLen b ≤ (getQueue s q).depth) →
    (∀ c i, admitRefusal s n (getQueue s q) bs = some (c, i) → (getQueue s q).cplLost = false →
      ∃ t xs, exec (.batchAdmit q) s = .next t ∧ t.tasks = s.tasks ∧ t.que = s.que ∧ (∀ k, k ≠ q → getQueue t k = getQueue s k) ∧
        (getQueue t q).head = ((getQueue s q).head + bs.length) % 2 ^ 32 ∧
        (getQueue t q).buffered = (getQueue s q).buffered.drop bs.length ∧ (getQueue t q).items = (getQueue s q).items ++ xs ∧
        xs.map (fun x => (x.status, x.tag)) =
          bs.zipIdx.map (fun b => (if b.2 = i then c else qsStmBatchRefused, envTag b.1)) ∧ (∀ x ∈ xs, x.dead = true) ∧
        t = { s with queues := t.queues, qwin := t.qwin }) ∧
    (admitRefusal s n (getQueue s q) bs = none → mayAdmit s n bs = true → freeNow s n q bs = true → turnQueue s = some q →
      s.que.admitAt ≠ some (nowCclk s) →
      ∃ t, exec (.batchAdmit q) s = .next t ∧ t.que.admitAt = some (nowCclk s) ∧ t.que.lastClr = n ∧
        t.que.admitted = s.que.admitted + (batchTasks bs).length ∧
        (∀ es, batchTasks bs = [es] → ∃ r k, getTask t r = some k ∧ k.queue = q ∧ k.n = n ∧ k.pin = s.clk.postmark ∧
          k.envs.map (·.bytes) = es) ∧
        ((getQueue s q).buffered = bs → (getQueue t q).head = ((getQueue s q).head + bs.length) % 2 ^ 32) ∧
        (∀ k, k ≠ q → getQueue t k = getQueue s k) ∧
        t = { s with queues := t.queues, qwin := t.qwin, que := t.que, tasks := t.tasks })) ∧
  (∀ (s : State) (q : Nat) (b : List Byte), (getQueue s q).buffered.head? = some b → (getQueue s q).st = .enabled → envFlag b 3 = true →
    (getQueue s q).depth < envBatchLen b → deadWaits (getQueue s q) = false → (getQueue s q).cplLost = false →
    ∃ t, exec (.batchAdmit q) s = .next t ∧
      ∃ x, x ∈ (getQueue t q).items ∧ x.status = qsStmTooBig ∧ x.tag = envTag b ∧ x.dead = true) ∧
  (∀ (s : State) (q : Nat), (getQueue s q).irq = false ∨ (getQueue s q).irqSince = none ∨ (getQueue s q).coalesceUs = 0 →
    exec (.coalesceTimeout q) s = .next s) ∧
  (∀ (s : State) (q : Nat), (getQueue s q).irq = true → (getQueue s q).irqSince ≠ none → (getQueue s q).coalesceUs ≠ 0 →
    ∃ t, exec (.coalesceTimeout q) s = .next t ∧ getQueue t q = { getQueue s q with irqCount := 0, irqSince := none } ∧
      (∀ n, queueOwner s q = some n → n < s.glob.numVfs → t.out = .msix (n + 1) (getQueue s q).vector :: s.out) ∧
      (∀ k, k ≠ q → getQueue t k = getQueue s k) ∧ t = { s with queues := t.queues, out := t.out })

/-- On a running device, for words without reserved bits: a data write by the holder to a mailbox with no posted message
sets that word; a post by the holder, of a free slot and with a vector in range, takes the next sequence number,
records sender, sequence and postmark in the frank, posts the message, frees the lock, keeps the words, and fills
the slot of its parity with no acknowledgement yet; each post to a mailbox with a receiver counts one wake event; a
take by the receiver of a posted message, with none taken, makes it the taken one. QS_OK is in the writer's window,
every other mailbox stays as it is, and only mailboxes, status, power and output change. (R426, R427, R429, R431) -/
def Obligations.MailboxesPostAndTake : Prop :=
  ∀ (s : State) (q : Requester) (m : Nat) (w : Word), s.boot.phase = .running → q ≠ 0 →
    (∀ k, (getMbx s m).holder = q → (getMbx s m).posted = false →
      ∃ t, exec (.mbxDataWrite q m k w) s = .next t ∧ getMbx t m = { getMbx s m with data := (getMbx s m).data.set k w } ∧
        (∀ j, j ≠ m → getMbx t j = getMbx s j) ∧ okRecorded t q ∧ t = { s with mbx := t.mbx, win := t.win, glob := t.glob }) ∧
    (noBits w (bitsFrom 7 63) = true → (getMbx s m).holder = q → (getMbx s m).posted = false →
      vectorFits q (wbit w 0) (field w 1 6) = true →
      ∃ t, exec (.mbxPost q m w) s = .next t ∧ (getMbx t m).seq = ((getMbx s m).seq + 1) % 65536 ∧ (getMbx t m).posted = true ∧
        (getMbx t m).holder = 0 ∧ (getMbx t m).frankSender = q ∧ (getMbx t m).frankSeq = ((getMbx s m).seq + 1) % 65536 ∧
        (getMbx t m).frankPostmark = s.clk.postmark % 2 ^ 40 ∧ (getMbx t m).data = (getMbx s m).data ∧
        msgOf (getMbx t m) (((getMbx s m).seq + 1) % 65536) =
          ⟨0, ((getMbx s m).seq + 1) % 65536, false, q, wbit w 0, field w 1 6⟩ ∧
        t.pwr.wakes = (if (getMbx s m).receiver = 0 then s.pwr.wakes else s.pwr.wakes + 1) ∧
        (∀ k, k ≠ m → getMbx t k = getMbx s k) ∧ okRecorded t q ∧
        t = { s with mbx := t.mbx, pwr := t.pwr, out := t.out, win := t.win, glob := t.glob }) ∧
    (noBits w (bitsFrom 1 63) = true → wbit w 0 = true → (getMbx s m).receiver = q → (getMbx s m).posted = true →
      (getMbx s m).taken = false →
      ∃ t, exec (.mbxTake q m w) s = .next t ∧
        getMbx t m = { getMbx s m with posted := false, taken := true, takenSeq := (getMbx s m).seq, takenMsg := msgOf (getMbx s m) (getMbx s m).seq } ∧
        (∀ k, k ≠ m → getMbx t k = getMbx s k) ∧ okRecorded t q ∧ t = { s with mbx := t.mbx, win := t.win, glob := t.glob })

/-- On a running device, for words without reserved bits: an acknowledgement by the receiver of the taken message (which
= 0), or of the posted one (which = 1), puts the word's code and the message's sequence in the message's slot as
done and leaves no message taken, or none posted. MBX_RECV of a mailbox without a receiver, naming the writer with a
vector in range and no wake domain, registers it as the word says; naming 0, by the receiver, removes it,
acknowledges a taken message as gone, and frees every lock that the receiver holds. QS_OK is in the writer's window,
every other mailbox stays as it is, but for those locks, and only mailboxes, status and output change. (R423, R427,
R428, R430, R431) -/
def Obligations.MailboxesAcknowledgeAndRegister : Prop :=
  ∀ (s : State) (q : Requester) (m : Nat) (w : Word), s.boot.phase = .running → q ≠ 0 →
    (noBits w (bitsFrom 17 63) = true → (getMbx s m).receiver = q →
      ((getMbx s m).taken = true →
        ∃ t, exec (.mbxAckTaken q m w) s = .next t ∧ (getMbx t m).taken = false ∧ (getMbx t m).posted = (getMbx s m).posted ∧
          msgOf (getMbx t m) (getMbx s m).takenSeq = { msgOf (getMbx s m) (getMbx s m).takenSeq with
            code := BitVec.ofNat 16 (field w 0 16), seq := (getMbx s m).takenSeq, done := true } ∧
          (∀ k, k ≠ m → getMbx t k = getMbx s k) ∧ okRecorded t q ∧ t = { s with mbx := t.mbx, out := t.out, win := t.win, glob := t.glob }) ∧
      ((getMbx s m).posted = true →
        ∃ t, exec (.mbxAckPosted q m w) s = .next t ∧ (getMbx t m).posted = false ∧ (getMbx t m).taken = (getMbx s m).taken ∧
          msgOf (getMbx t m) (getMbx s m).seq = { msgOf (getMbx s m) (getMbx s m).seq with
            code := BitVec.ofNat 16 (field w 0 16), seq := (getMbx s m).seq, done := true } ∧
          (∀ k, k ≠ m → getMbx t k = getMbx s k) ∧ okRecorded t q ∧ t = { s with mbx := t.mbx, out := t.out, win := t.win, glob := t.glob })) ∧
    (noBits w (bitsFrom 23 63) = true → BitVec.ofNat 8 (field w 0 8) = q → (getMbx s m).receiver = 0 → wbit w 15 = false →
      vectorFits q (wbit w 8) (field w 9 6) = true →
      ∃ t, exec (.mbxRecvWrite q m w) s = .next t ∧ getMbx t m = { getMbx s m with
          receiver := q, irq := wbit w 8, vector := field w 9 6, wakeValid := false, wakeDomain := field w 16 7 } ∧
        (∀ k, k ≠ m → getMbx t k = getMbx s k) ∧ okRecorded t q ∧ t = { s with mbx := t.mbx, win := t.win, glob := t.glob }) ∧
    (noBits w (bitsFrom 23 63) = true → field w 0 8 = 0 → (getMbx s m).receiver = q →
      ∃ t, exec (.mbxRecvWrite q m w) s = .next t ∧ (getMbx t m).receiver = 0 ∧ (getMbx t m).taken = false ∧
        (∀ k, (getMbx t k).holder ≠ q) ∧
        ((getMbx s m).taken = true → (msgOf (getMbx t m) (getMbx s m).takenSeq).code = qsMbxReceiverGone ∧
          (msgOf (getMbx t m) (getMbx s m).takenSeq).done = true) ∧ okRecorded t q ∧
        (∀ k, k ≠ m → getMbx t k = { getMbx s k with
          holder := if (getMbx s k).holder = q then 0 else (getMbx s k).holder }) ∧
        t = { s with mbx := t.mbx, out := t.out, win := t.win, glob := t.glob })

/-- On a running device, a privileged PWR_CMD without reserved bits of domain 77 to any state, or of domain 79 to On (or
to Off on a solitary chip), whose fault bit is clear, sets that domain's target and commanded state, with QS_OK and
the domain in PWR_RESULT, done where the domain is there already; no other domain changes. POWER_ACK, out of reset
and not Stopped, of a domain with an outstanding request puts it in the requested state with none outstanding, and
sets PWR_RESULT.done where it is the domain of an open PWR_CMD, in its commanded state; a core pair that comes On
from Off has its cores that have not failed in reset and frozen; no other domain's state changes. One without a
request changes nothing. CONTROL_CORE_WFI of control core 2 or 3 notes it and gives domain 77 its commanded target.
(R112, R432, R434, R437, R441) -/
def Obligations.PowerDomainsMove : Prop :=
  (∀ (s : State) (q : Requester) (w : Word), reachesGlobal s q → noBits w (bitsFrom 7 7 ||| bitsFrom 10 63) = true →
    field w 8 2 ≠ 3 →
    (field w 0 7 = 77 ∨ (field w 0 7 = 79 ∧ field w 8 2 ≠ 1 ∧ (field w 8 2 = 0 → s.boot.solitary = true))) →
    (getDom s (field w 0 7)).fault = false →
    ∃ t, exec (.pwrCmd q w) s = .next t ∧ t.glob.code = qsOk ∧ t.pwr.code = qsOk ∧ t.pwr.domain = field w 0 7 ∧
      getDom t (field w 0 7) = { getDom s (field w 0 7) with target := powerOf (field w 8 2), cmd := powerOf (field w 8 2) } ∧
      (t.pwr.done = true ↔ (getDom s (field w 0 7)).st = powerOf (field w 8 2) ∧ (getDom s (field w 0 7)).req = none) ∧
      (∀ d, d ≠ field w 0 7 → getDom t d = getDom s d) ∧ t = { s with pwr := t.pwr, glob := t.glob }) ∧
  (∀ (s : State) (d : Nat), (getDom s d).req = none → exec (.powerAck d) s = .next s) ∧
  (∀ (s : State) (d : Nat) (p : PowerSt), s.boot.phase ≠ .reset → s.boot.phase ≠ .stopped → (getDom s d).req = some p →
    ∃ t, exec (.powerAck d) s = .next t ∧ (getDom t d).st = p ∧ (getDom t d).req = none ∧
      (getDom t d).target = (getDom s d).target ∧ (getDom t d).cmd = (getDom s d).cmd ∧
      (s.pwr.cmdOpen = true → d = s.pwr.domain → p = (getDom s d).cmd → t.pwr.done = true) ∧
      (s.pwr.cmdOpen = false → t.pwr.done = s.pwr.done) ∧
      (d < 64 → (getDom s d).st = .off → p = .on → ∀ c ∈ [2 * d, 2 * d + 1], coreFailed s c = false →
        (getCore t c).rst = true ∧ (getCore t c).frozen = true ∧ (getCore t c).freeze = true ∧ (getCore t c).passes = []) ∧
      (∀ e, e ≠ d → (getDom t e).st = (getDom s e).st ∧ (getDom t e).req = (getDom s e).req) ∧
      t.clr = s.clr ∧ t.ctx = s.ctx ∧ t.tasks = s.tasks ∧ t.img = s.img ∧ t.mbx = s.mbx) ∧
  (∀ (s : State) (c : Nat), c = 2 ∨ c = 3 →
    ∃ t, exec (.controlCoreWfi c) s = .next t ∧ t.pwr.wfi.getLsbD c = true ∧
      getDom t 77 = { getDom s 77 with target := (getDom s 77).cmd } ∧ (∀ d, d ≠ 77 → getDom t d = getDom s d) ∧
      t = { s with pwr := t.pwr })

/-- On a running device, a privileged FAIL_CORE of a core, or FAIL_ENGINE of an engine, that has not failed marks that
unit as failed and no other, with QS_OK in ERR_RESULT and done. Out of reset and not Stopped, POWER_FAULT of domain
d below 80, and POWER_ACK_TIMEOUT of one with an outstanding request, set its fault bit, make it Off with no
request, and leave the state and fault of every other domain; both cores of a pair, or all eight engines of a group,
are then failed; with domain 77 the mailboxes lose the registrations and locks of requesters 0x82 and 0x83; with
domain 79 of a running chip the link is down and the chip solitary; with another domain of 72 to 78 a running device
is halted with cause QS_ERR_POWER_FAULT. The image, the phase map, the keys and time stay as they are, and the
calendar too where no request of a Live context entered a memory store in this cclk (a fence refuses such a request,
R356). (R112, R430, R438, R468, R469, R471, R473, R483) -/
def Obligations.FailedUnitsAndPowerFaults : Prop :=
  (∀ (s : State) (q : Requester) (w : Word), reachesGlobal s q →
    noBits w (bitsFrom 4 7 ||| bitsFrom 15 31 ||| bitsFrom 48 63) = true → field w 32 16 = 0 →
    (coreFailed s (field w 8 7) = false →
      ∃ t, exec (.errFailCore q w) s = .next t ∧ t.glob.code = qsOk ∧ t.err.resCode = qsOk ∧ t.err.resDone = true ∧
        (∀ c, c < 128 → (coreFailed t c = true ↔ coreFailed s c = true ∨ c = field w 8 7)) ∧
        t.err.failedEngines = s.err.failedEngines ∧ t.ctx = s.ctx ∧ t.cal = s.cal ∧ t.img = s.img ∧ t.xlt = s.xlt ∧ t.key = s.key ∧
        t.clk = s.clk) ∧
    (field w 8 7 < 64 → engineFailed s (field w 8 7) = false →
      ∃ t, exec (.errFailEngine q w) s = .next t ∧ t.glob.code = qsOk ∧ t.err.resCode = qsOk ∧ t.err.resDone = true ∧
        (∀ e, e < 64 → (engineFailed t e = true ↔ engineFailed s e = true ∨ e = field w 8 7)) ∧
        t.err.failedCores = s.err.failedCores ∧ t.ctx = s.ctx ∧ t.cal = s.cal ∧ t.img = s.img ∧ t.xlt = s.xlt ∧ t.key = s.key ∧
        t.clk = s.clk)) ∧
  (∀ (s : State) (d : Nat) (c : Instr), d < 80 → s.boot.phase ≠ .reset → s.boot.phase ≠ .stopped →
    c = .powerFault d true ∨ c = .powerFault d false ∨ (c = .powerAckTimeout d ∧ (getDom s d).req ≠ none) →
    ∃ t, exec c s = .next t ∧ (getDom t d).fault = true ∧ (getDom t d).st = .off ∧ (getDom t d).req = none ∧
      (∀ e, e ≠ d → (getDom t e).st = (getDom s e).st ∧ (getDom t e).fault = (getDom s e).fault) ∧
      (d < 64 → coreFailed t (2 * d) = true ∧ coreFailed t (2 * d + 1) = true) ∧
      (64 ≤ d → d < 72 → ∀ i, i < 8 → engineFailed t (8 * (d - 64) + i) = true) ∧
      (d = 77 → s.boot.phase = .running → ∀ m, (getMbx t m).receiver ≠ 0x82 ∧ (getMbx t m).receiver ≠ 0x83 ∧
        (getMbx t m).holder ≠ 0x82 ∧ (getMbx t m).holder ≠ 0x83) ∧
      (d = 79 → s.boot.phase = .running → t.trl.up = false ∧ t.boot.solitary = true) ∧
      (72 ≤ d → d < 79 → d ≠ 77 → s.boot.phase = .running → t.err.halted = true ∧ t.err.cause = qsErrPowerFault) ∧
      t.clk = s.clk ∧ t.img = s.img ∧ t.cal.map = s.cal.map ∧ ((∀ c, enteredNow s c (getCtx s c).gen = []) → t.cal = s.cal) ∧
      t.key = s.key ∧ t.tap = s.tap)

/-- On a running device, for a privileged writer and a word without reserved bits, unit and group 0: DUMP with no dump
held or under way begins one, with its cause (log entry 15) and the postmark; DUMP_COPY of a valid dump begins
copying: the dump's bytes go out to dumpDst on in host writes of the physical function, cut at every 4,096-byte
boundary, as hostWriteSpan gives them (R482); DUMP_RELEASE of a valid dump leaves it not valid and the missed count
0; each with QS_OK. CRASH_DUMP_DONE of a dump under way makes it valid: the header and the sections are its bytes,
and the block's own 64-byte WRITEs to 0x7C000000 on wait to leave (R450, R479, R529), those of the header last (log
entry 149). DUMP_COPY_DONE ends a copy. FW_EXCEPTION of control core 0 or 1 halts the device with QS_ERR_FW_FAULT
and fences every clearing that is Closed, Open, Quiescing or Quiet; of core 2 or 3 it cycles domain 77 and frees
what requesters 0x82 and 0x83 hold. A head that moves neither back nor past the tail is accepted as the ring's head,
of ERR_GPTR or of window n's ERR_WPTR. (R449, R450, R471, R473, R479, R480, R482, R483, R486, R529) -/
def Obligations.DumpsHaltsAndRings : Prop :=
  (∀ (s : State) (q : Requester) (w : Word), reachesGlobal s q →
    noBits w (bitsFrom 4 7 ||| bitsFrom 15 31 ||| bitsFrom 48 63) = true → field w 8 7 = 0 → field w 32 16 = 0 →
    (s.err.dumpValid = false → s.err.dumpBusy = false →
      ∃ t, exec (.errDump q w) s = .next t ∧ t.glob.code = qsOk ∧ t.err = { s.err with
          dumpBusy := true, dumpCause := Config.commandedDumpCause, dumpPostmark := s.clk.postmark, resBusy := true
          resDone := false, resCode := qsOk } ∧ t = { s with err := t.err, glob := t.glob }) ∧
    (s.err.dumpValid = true → s.err.dumpBusy = false →
      ∃ t, exec (.errDumpCopy q w) s = .next t ∧ t.glob.code = qsOk ∧
        t.err = { s.err with copying := true, resDone := false, resCode := qsOk } ∧
        t.out = (hostWriteSpan (s.err.dump.length / 4096 + 2) s s.err.dumpDst.toNat s.err.dump).out ∧
        t = { s with err := t.err, glob := t.glob, out := t.out }) ∧
    (s.err.dumpValid = true →
      ∃ t, exec (.errDumpRelease q w) s = .next t ∧ t.glob.code = qsOk ∧
        t.err = { s.err with dumpValid := false, missed := 0, resDone := true, resCode := qsOk } ∧
        t = { s with err := t.err, glob := t.glob })) ∧
  (∀ (s : State) (sram : List Byte) (lost : List Nat), s.boot.phase = .running → s.err.dumpBusy = true →
    ∃ t, exec (.crashDumpDone sram lost) s = .next t ∧ t.err.dumpValid = true ∧ t.err.dumpBusy = false ∧
      t.err.dump = dumpHeader s ((dumpSections s sram lost).map (·.length)) ++ (dumpSections s sram lost).flatten ∧
      t.err.dumpCause = s.err.dumpCause ∧ t.que.ownWait = s.que.ownWait ++ dumpTraffic t.err.dump ∧
      t = { s with err := t.err, rings := t.rings, que := t.que }) ∧
  (∀ s : State, s.err.copying = true →
    exec (.errDumpCopyDone true) s = .next { s with err := { s.err with copying := false, resDone := true } }) ∧
  (∀ (s : State) (x : FwTrap), s.boot.phase = .running →
    (x.core ≤ 1 → ∃ t, exec (.fwException x) s = .next t ∧ t.err.halted = true ∧ t.err.cause = qsErrFwFault ∧
      (∀ n, n < 64 → (getClr s n).st = .closed ∨ (getClr s n).st = .opened ∨ (getClr s n).st = .quiescing ∨
        (getClr s n).st = .quiet → (getClr t n).st = .fenced) ∧
      t.clk = s.clk ∧ t.img = s.img ∧ t.cal.map = s.cal.map ∧ t.key = s.key ∧ t.mbx = s.mbx) ∧
    (x.core = 2 ∨ x.core = 3 → ∃ t, exec (.fwException x) s = .next t ∧
      (getDom t 77).target = .on ∧ ((getDom t 77).cycle = true ↔ (getDom s 77).st ≠ .off) ∧
      (∀ d, d ≠ 77 → getDom t d = getDom s d) ∧
      (∀ m, (getMbx t m).receiver ≠ 0x82 ∧ (getMbx t m).receiver ≠ 0x83 ∧ (getMbx t m).holder ≠ 0x82 ∧ (getMbx t m).holder ≠ 0x83) ∧
      (s.err.dumpValid = false → s.err.dumpBusy = false → t.err.dumpBusy = true ∧ t.err.dumpCause = qsErrFwFault) ∧
      t = { s with err := t.err, rings := t.rings, pwr := t.pwr, mbx := t.mbx, out := t.out })) ∧
  (∀ (s : State) (q : Requester) (w : Word), reachesGlobal s q →
    u32sub (field w 0 32) (getRing s 64).head ≤ u32sub (getRing s 64).tail (getRing s 64).head →
    ∃ t, exec (.ringHeadWrite q none w) s = .next t ∧ t.glob.code = qsOk ∧
      getRing t 64 = { getRing s 64 with head := field w 0 32 } ∧ (∀ k, k ≠ 64 → getRing t k = getRing s k) ∧
      t = { s with rings := t.rings, glob := t.glob }) ∧
  (∀ (s : State) (q : Requester) (n : Nat) (w : Word), reachesOwn s q n →
    u32sub (field w 0 32) (getRing s n).head ≤ u32sub (getRing s n).tail (getRing s n).head →
    ∃ t, exec (.ringHeadWrite q (some n) w) s = .next t ∧ (getWin t n).code = qsOk ∧
      getRing t n = { getRing s n with head := field w 0 32 } ∧ (∀ k, k ≠ n → getRing t k = getRing s k) ∧
      t = { s with rings := t.rings, win := t.win })

/-- An abort of group g (ABORT by privileged software, ERR_WABORT of a clearing bound to g by a requester that reaches
its window, ABORT_RECEIVED, out of reset and not Stopped, from a peer over a link that is up, to this chip or to
all) cuts every task, not fenced itself, of every local clearing bound to g that is neither Fenced nor Resetting,
with QS_ERR_ABORTED where no other answer has cut it. TASK_DEADLINE of a task with a deadline that nothing has cut,
whose end completion is not written and whose clearing is not frozen cuts it with QS_STM_DEADLINE and counts it,
also where every envelope of it is done (R237, R239). TASK_END of a task that is over, its last completion held,
produces it as the end completion, with an accounting record where the queue has a ring for them; the task stays
until that is written, and every other task as it is. Where the queue's ring has failed it is discarded: the task's
entry and its jobs are freed, and a Quiescing clearing whose last task it was becomes Quiet. FENCE_TIMEOUT of a
Fenced clearing quarantines every host and fabric tag of it that is still waited for; of another clearing, those of
an old generation of the contexts that a TEARDOWN has torn down (R464; log entry 151), and it changes nothing where
there is no such context. (R32, R230, R237, R239, R459, R477, R478) -/
def Obligations.AbortsDeadlinesAndTaskEnds : Prop :=
  (∀ (s : State) (g : Nat) (c : Instr),
    (∃ q w, c = .errAbort q w ∧ reachesGlobal s q ∧ noBits w (bitsFrom 4 7 ||| bitsFrom 15 31 ||| bitsFrom 48 63) = true ∧
      field w 8 7 = 0 ∧ g = field w 32 16) ∨
    (∃ q n w, c = .errWabort q n w ∧ reachesOwn s q n ∧ noBits w (bitsFrom 1 63) = true ∧ wbit w 0 = true ∧ inGroup s g n = true) ∨
    (∃ h p, c = .abortReceived h g p ∧ s.boot.solitary = false ∧ s.trl.up = true ∧ h.src ≠ s.boot.chip ∧ forMe s h.dst.toNat = true ∧ p < 2 ^ 64 ∧
      s.boot.phase ≠ .reset ∧ s.boot.phase ≠ .stopped) →
    ∃ t, exec c s = .next t ∧
      (∀ n i k, n < 64 → inGroup s g n = true → (getClr s n).st ≠ .fenced → (getClr s n).st ≠ .resetting →
        getTask s i = some k → k.n = n → k.fenced = false →
        (getTask t i).bind (·.cut) = some (k.cut.getD qsErrAborted)) ∧
      (∀ n, (getClr t n).st = (getClr s n).st) ∧ t.clk = s.clk ∧ t.boot = s.boot ∧ t.img = s.img ∧ t.ctx = s.ctx ∧ t.cal = s.cal ∧ t.que = s.que ∧
      t.xlt = s.xlt ∧ t.mbx = s.mbx ∧ t.key = s.key ∧ t.bar = s.bar) ∧
  (∀ (s : State) (i : Nat) (k : Task), getTask s i = some k →
    (k.deadline ≠ 0 → k.fenced = false → k.cut = none → endIssued s i k = false → lsFrozen s k.n = false →
      ∃ t, exec (.taskDeadline i) s = .next t ∧ (getTask t i).bind (·.cut) = some qsStmDeadline ∧
        (getTask t i).map (·.expired) = some true ∧ (getQwin t k.n).expired = (getQwin s k.n).expired + 1 ∧
        t = { s with clr := t.clr, queues := t.queues, tasks := t.tasks, acc := t.acc, sch := t.sch, qwin := t.qwin, swin := t.swin }) ∧
    (∀ (x : CplItem) (e : Nat), k.held = some x → x.env = some (i, e) → k.fenced = false → taskOver s i k = true →
      ∃ t, exec (.taskEnd i) s = .next t ∧ (∀ r, r ≠ i → getTask t r = getTask s r) ∧
        ((getQueue s k.queue).cplLost = false → getTask t i = some { k with held := none } ∧
          ∃ y, (getQueue t k.queue).items = (getQueue s k.queue).items ++ [y] ∧ y.last = true ∧ y.status = x.status ∧ y.tag = x.tag ∧
            y.acct = (if (getQueue s k.queue).acctBase = 0 then [] else taskRecord s k)) ∧
        ((getQueue s k.queue).cplLost = true → getTask t i = none ∧ (∀ j z, getJob t j = some z → z.task ≠ i) ∧
          ((getClr s k.n).st = .quiescing → tasksOf t k.n = [] → (getClr t k.n).st = .quiet)) ∧
        (∀ m, m ≠ k.n → (getClr t m).st = (getClr s m).st) ∧
        t = { s with glob := t.glob, clr := t.clr, que := t.que, queues := t.queues, tasks := t.tasks, sch := t.sch, bar := t.bar
                     qwin := t.qwin, swin := t.swin, pwin := t.pwin, cc := t.cc, out := t.out })) ∧
  (∀ (s : State) (n : Nat), (getClr s n).st = .fenced →
    ∃ t, exec (.fenceTimeout n) s = .next t ∧
      (∀ i o, getHostOut s i = some o → hostWaits o = true → o.n = n → getHostOut t i = some { o with use := .dead }) ∧
      (∀ i o, tabGet none s.xlt.fabOut i = some o → fabWaits o = true → o.n = n →
        tabGet none t.xlt.fabOut i = some { o with core := none, acc := none }) ∧
      t = { s with err := t.err, rings := t.rings, acc := t.acc, xlt := t.xlt, sch := t.sch }) ∧
  (∀ (s : State) (n : Nat), (getClr s n).st ≠ .fenced →
    ∃ t, exec (.fenceTimeout n) s = .next t ∧
      (∀ i o c, c ∈ ctxsOf s n → (getCtx s c).tearing = true → getHostOut s i = some o → hostWaits o = true → o.n = n → o.ctx = c →
        o.gen ≠ (getCtx s c).gen → getHostOut t i = some { o with use := .dead }) ∧
      ((∀ c, c ∈ ctxsOf s n → (getCtx s c).tearing = false) → t = s) ∧
      t = { s with err := t.err, rings := t.rings, acc := t.acc, xlt := t.xlt, sch := t.sch })

/-- In every state: IDCODE is selected by its instruction, which shifts out 32 bits, and by TEST_LOGIC_RESET, which
leaves the controller in Test-Logic-Reset; BYPASS of a value that names no other instruction shifts one 0, and there
is no BYPASS of another; SAMPLE/PRELOAD shifts the pins out and loads the boundary cells. EXTEST, DBG_REG, DBG_DMI
and DBG_STATUS act as BYPASS while debug access is closed. While it is open, EXTEST does as SAMPLE/PRELOAD and
drives its cells on the pins that are driven, DBG_STATUS shifts KEY_STATUS bits 31 to 0, DBG_DMI puts its 41 bits on
the debug module interface and shifts the answer (a free value, log entry 14), and DBG_REG shifts out the data
captured before; on a running device its read of CAL_POSTMARK captures the postmark, and its write of a legal
XLT_PRITO is one of requester 0xFE, accepted. A command that scans takes the controller from Test-Logic-Reset or
Run-Test/Idle to Run-Test/Idle. Nothing else of the state changes. (R1, R115, R116, R122, R411, R412) -/
def Obligations.TapInstructionsShift : Prop :=
  (∀ (c : TapCtl) (w : Nat), c = .testLogicReset ∨ c = .runTestIdle → 0 < w → tapWalk c (scanTms w) = .runTestIdle) ∧
  (∀ s : State,
    let scan := fun (ir : BitVec 8) (w v : Nat) =>
      { s with tap := { s.tap with ctl := tapWalk s.tap.ctl (scanTms w), ir := ir }, out := .tapShift w v :: s.out }
    exec .tapIdcode s = .next (scan 0x01 32 idcode) ∧
    (∃ t, exec .tapTestLogicReset s = .next t ∧ t.tap.ctl = .testLogicReset ∧ t.tap.ir = 0x01 ∧ t.tap.cells = s.tap.cells ∧
      t.tap.capture = s.tap.capture ∧ t = { s with tap := t.tap }) ∧
    (∀ ir, (tapNamed ir = false → exec (.tapBypass ir) s = .next (scan ir 1 0)) ∧
      (tapNamed ir = true → exec (.tapBypass ir) s = .next s)) ∧
    (∀ pins cells, pins.length = 28 → cells.length = 28 → ∃ t, exec (.tapSamplePreload pins cells) s = .next t ∧
      t.out = .tapShift 28 (bitsNat pins) :: s.out ∧ t.tap.ir = 0x02 ∧ t.tap.cells = cells ∧
      t = { s with tap := { s.tap with ctl := t.tap.ctl, ir := t.tap.ir, cells := t.tap.cells }, out := t.out }) ∧
    (s.key.debugOpen = false →
      (∀ pins cells, exec (.tapExtest pins cells) s = .next (scan 0x03 1 0)) ∧
      (∀ b off v r, exec (.tapDbgReg b off v r) s = .next (scan 0x40 1 0)) ∧ (∀ d, exec (.tapDbgDmi d) s = .next (scan 0x41 1 0)) ∧
      exec .tapDbgStatus s = .next (scan 0x42 1 0)) ∧
    (s.key.debugOpen = true →
      (∀ pins cells, pins.length = 28 → cells.length = 28 → ∃ t ls, exec (.tapExtest pins cells) s = .next t ∧
        t.out = .boundary ls :: .tapShift 28 (bitsNat pins) :: s.out ∧ t.tap.ir = 0x03 ∧ t.tap.cells = cells ∧
        (∀ i b, (i, b) ∈ ls ↔ cells[i]? = some b ∧ pinDriven s i = true) ∧
        t = { s with tap := { s.tap with ctl := t.tap.ctl, ir := t.tap.ir, cells := t.tap.cells }, out := t.out }) ∧
      (∀ d, ∃ t, exec (.tapDbgDmi d) s = .next t ∧ t.tap.ir = 0x41 ∧ t.tap.dmiCount = s.tap.dmiCount + 1 ∧
        t.out = .tapShift 41 (Config.dmiAnswer s.tap.dmiCount).toNat :: .dmi d.toNat :: s.out ∧
        t = { s with tap := { s.tap with ctl := t.tap.ctl, ir := t.tap.ir, dmiCount := t.tap.dmiCount }, out := t.out }) ∧
      exec .tapDbgStatus s = .next (scan 0x42 32 (field (keyStatusWord s) 0 32)) ∧
      (s.boot.phase = .running →
        (∀ v r, ∃ t, exec (.tapDbgReg false 0x3008 v r) s = .next t ∧ t.tap.ir = 0x40 ∧ t.tap.capture = word s.clk.postmark ∧
          t.out = .tapShift 91 (s.tap.capture.toNat * 2 ^ 27) :: s.out ∧
          t = { s with tap := { s.tap with ctl := t.tap.ctl, ir := t.tap.ir, capture := t.tap.capture }, out := t.out }) ∧
        (∀ v r, 1 ≤ v → v ≤ 1000000 → exec (.tapDbgReg true 0xE018 (word v) r) s =
          .next (recordStatus { scan 0x40 91 (s.tap.capture.toNat * 2 ^ 27) with xlt := { s.xlt with timeout := v } } none reqTap qsOk)))))

/-- A privileged RETRAIN without reserved bits, on a running device or in phase 7 that is not training, whose domain 79
is On and whose start-up is not solitary by solo_next, starts a training with fresh lanes and sends training sets on
every transmit lane; SOLO in phase 7 makes the chip solitary; each records QS_OK. RETRAIN_TIMER trains a link that
is down, on the lanes not retired. Out of reset and not Stopped: TRAINING_DONE ends a training: code errors count; a
lane retired before stays so, another works or is retired as found, or as omitted where it is a transmit lane that
the partner does not report; the link is up where each direction has a working lane, with the delay of its echoes
(log entry 153); a running chip that lost the link records it. LANE_FAULT retires a working lane of a link that is
up and counts its errors; LINK_STATE of a partner retires the transmit lanes that it omits; the link then is up
where both directions still work. TRAIL_FRAME_DROPPED counts a frame that is to be dropped (bad CRC, unknown type, a
non-zero unused byte, another chip's) over a link that is up, and changes nothing else. Other lanes stay as they
are. (R504, R505, R506, R507, R510, R513, R518, R519) -/
def Obligations.TrailLanesTrainAndRetire : Prop :=
  (∀ (s : State) (q : Requester) (w : Word), s.boot.phase = .running ∨ s.boot.phase = .trail → privileged s q = true →
    noBits w (bitsFrom 4 63) = true →
    (trailState s ≠ 1 → (getDom s 79).st = .on → s.trl.solo = false →
      ∃ t, exec (.trlRetrain q w) s = .next t ∧ t.glob.code = qsOk ∧
        t.trl = { s.trl with
          training := true, up := false, lost := s.trl.up || (s.trl.training && s.trl.lost), lanes := t.trl.lanes } ∧
        (∀ l, getLane t l = { trlLane0 with errors := (getLane s l).errors }) ∧
        (∀ l, l < 4 → .trainingSet l (trainingChars t l) ∈ t.out) ∧ t = { s with trl := t.trl, glob := t.glob, out := t.out }) ∧
    (s.boot.phase = .trail →
      ∃ t, exec (.trlSolo q w) s = .next t ∧ t.glob.code = qsOk ∧ t.boot = { s.boot with solitary := true } ∧
        t.trl = { s.trl with training := false, how := 3 } ∧ t = { s with boot := t.boot, trl := t.trl, glob := t.glob })) ∧
  (∀ s : State, s.trl.up = false → s.trl.training = false → s.boot.solitary = false → (getDom s 79).st = .on → s.trl.solo = false →
    s.boot.phase = .running ∨ s.boot.phase = .trail →
    ∃ t, exec .trlRetrainTimer s = .next t ∧ t.trl = { s.trl with training := true, lost := false, up := false } ∧
      (∀ l, l < 4 → (getLane s l).st ≠ 1 → .trainingSet l (trainingChars s l) ∈ t.out) ∧ t = { s with trl := t.trl, out := t.out }) ∧
  (∀ (s : State) (rs : List LaneResult) (ok : BitVec 4) (echoes : List Nat), inert s = false → s.trl.training = true →
    ∃ t, exec (.trlTrainingDone rs ok echoes) s = .next t ∧ t.trl.training = false ∧ t.trl.up = linkWorks t ∧
      t.trl.delay = (if linkWorks t = true ∧ echoes ≠ [] then linkDelay echoes % 65536 else s.trl.delay) ∧
      (∀ l r, l < 8 → rs[l]? = some r → (getLane t l).errors = (getLane s l).errors + r.errors ∧
        ((getLane s l).st = 1 → getLane t l = { getLane s l with errors := (getLane s l).errors + r.errors }) ∧
        ((getLane s l).st ≠ 1 → (getLane t l).inverted = r.inverted ∧ (getLane t l).logical = r.logical % 4 ∧
          (r.fault = none → 4 ≤ l ∨ ok.getLsbD l = true → (getLane t l).st = 0 ∧ (getLane t l).fault = 0) ∧
          (r.fault = none → l < 4 → ok.getLsbD l = false → (getLane t l).st = 1 ∧ (getLane t l).fault = laneFaultNum .omitted) ∧
          (∀ f, r.fault = some f → (getLane t l).st = 1 ∧ (getLane t l).fault = laneFaultNum f))) ∧
      (∀ l, rs[l]? = none ∨ 8 ≤ l → getLane t l = getLane s l) ∧
      (s.boot.phase = .running → s.trl.lost = true → linkWorks t = false →
        ∃ r, r ∈ (getRing t globalRing).arrivals ∧ r.code = qsTrlLinkDown) ∧
      t = { s with trl := t.trl, err := t.err, rings := t.rings }) ∧
  (∀ (s : State) (l : Nat) (f : LaneFault) (n : Nat), inert s = false → s.trl.up = true → l < 8 → (getLane s l).st = 0 →
    ∃ t, exec (.trlLaneFault l f n) s = .next t ∧
      getLane t l = { getLane s l with st := 1, fault := laneFaultNum f, errors := (getLane s l).errors + n } ∧
      (∀ k, k ≠ l → getLane t k = getLane s k) ∧ t.trl.up = linkWorks t ∧
      t = { s with trl := t.trl, err := t.err, rings := t.rings, out := t.out }) ∧
  (∀ (s : State) (h : FrameHead) (m : BitVec 8), inert s = false → s.trl.up = true → s.boot.solitary = false → h.src ≠ s.boot.chip →
    ∃ t, exec (.trlLinkState h m) s = .next t ∧ (tabGet none t.trl.peers h.src).map (·.tick) = some s.sch.ticks ∧
      (∀ l, l < 4 → (getLane s l).st = 0 → m.getLsbD l = false → (getLane t l).st = 1 ∧ (getLane t l).fault = laneFaultNum .omitted) ∧
      (∀ l, 4 ≤ l ∨ m.getLsbD l = true ∨ (getLane s l).st ≠ 0 → getLane t l = getLane s l) ∧
      ((∃ l, l < 4 ∧ (getLane s l).st = 0 ∧ m.getLsbD l = false) → t.trl.up = linkWorks t) ∧
      ((∀ l, l < 4 → (getLane s l).st = 0 → m.getLsbD l = true) → t = { s with trl := { s.trl with peers := t.trl.peers } }) ∧
      t = { s with trl := t.trl, err := t.err, rings := t.rings, out := t.out }) ∧
  (∀ (s : State) (bs : List Byte), inert s = false →
    exec (.trailFrameDropped bs) s = .next (if s.trl.up = true ∧ s.boot.solitary = false ∧ frameDropped s bs = true then
      { s with trl := { s.trl with dropped := s.trl.dropped + 1 } } else s))

/-- On a chip in phase 7 that is not solitary and has no launch agreed, with the link up: HELLO_TIMER broadcasts a HELLO
with its first postmark and tick length; to it, from a chip of another number with the same tick length: a HELLO of
a waiting chip is remembered with its first postmark and time, and a chip not heard before starts the 20 ms afresh;
one of a running chip makes this one wait to join; a LAUNCH with lead 100 agrees its postmark, 100 us after the sent
time; a HEARTBEAT agrees the postmark k ticks after its own, at that boundary, k by R511. A HELLO of another state
and a LAUNCH of another lead are dropped and counted (log entry 154), and so is a frame for another chip.
LAUNCH_MASTER_TIMEOUT of the master that is not to join, 20 ms after the last new chip, agrees the highest first
postmark 100 us ahead and broadcasts LAUNCH; before, it changes nothing. A frame with another tick length launches
solitary. A HEARTBEAT to a running chip agrees nothing and notes drift beyond 100 ns. PEER_LOST after 4 hb ticks
drops the peer. Every frame's sender is a peer. (R507, R508, R509, R510, R511, R512) -/
def Obligations.TrailChipsLaunchAndJoin : Prop :=
  (∀ s : State, s.boot.phase = .trail → s.boot.solitary = false → s.boot.launch = none → s.trl.up = true →
    exec .trlHelloTimer s =
      .next { s with out := trailOut s 1 broadcast (leBytes 8 (ownFirst s) ++ zeroBytes 2 ++ leBytes 2 (tickUs s)) :: s.out } ∧
    (now16 s < s.trl.newAt + 320000000 → exec .trlLaunchMasterTimeout s = .next s) ∧
    (s.trl.joining = false → isMaster s = true → s.trl.newAt + 320000000 ≤ now16 s →
      ∃ t, exec .trlLaunchMasterTimeout s = .next t ∧ t.boot = { s.boot with launch := some (highestFirst s) } ∧
        t.trl = { s.trl with startAt := some (now16 s + 1600000), how := 0, who := s.boot.chip, master := true } ∧
        t.out = trailOut s 3 broadcast (leBytes 8 (highestFirst s) ++ leBytes 4 100 ++ leBytes 2 (tickUs s)) :: s.out ∧
        t = { s with boot := t.boot, trl := t.trl, out := t.out }) ∧
    (∀ (h : FrameHead) (pm st us : Nat), h.src ≠ s.boot.chip → forMe s h.dst.toNat = true →
      (us = tickUs s →
        (st < 2 → ∃ t, exec (.trlHello h pm st us) s = .next t ∧ (tabGet none t.trl.peers h.src).map (·.tick) = some s.sch.ticks ∧
          (st = 1 → t.trl.joining = true ∧ t.trl.heard = s.trl.heard) ∧
          (st = 0 → tabGet none t.trl.heard h.src = some ⟨pm, now16 s⟩ ∧ t.trl.joining = s.trl.joining ∧
            t.trl.newAt = (if tabGet none s.trl.heard h.src = none then now16 s else s.trl.newAt) ∧
            ∀ c, c ≠ h.src → tabGet none t.trl.heard c = tabGet none s.trl.heard c) ∧
          t = { s with trl := t.trl }) ∧
        (∃ t, exec (.trlLaunch h pm 100 us) s = .next t ∧ t.boot = { s.boot with launch := some pm } ∧ t.trl.how = 0 ∧
          t.trl.who = h.src ∧ t.trl.startAt = some (sentTime s h + 1600000) ∧
          (tabGet none t.trl.peers h.src).map (·.tick) = some s.sch.ticks ∧
          t = { s with boot := t.boot, trl := t.trl }) ∧
        (∃ t, exec (.trlHeartbeat h pm us) s = .next t ∧
          t.boot = { s.boot with launch := some (pm + joinStep s pm (16000 + h.age + s.trl.delay)) } ∧ t.trl.how = 1 ∧ t.trl.who = h.src ∧
          t.trl.startAt = some (sentTime s h - 16000 + joinStep s pm (16000 + h.age + s.trl.delay) * tick16 s) ∧
          (tabGet none t.trl.peers h.src).map (·.tick) = some s.sch.ticks ∧ t = { s with boot := t.boot, trl := t.trl })) ∧
      (∀ (c : Instr) (lead : Nat), (c = .trlHello h pm st us ∧ 2 ≤ st) ∨ (c = .trlLaunch h pm lead us ∧ lead ≠ 100) →
        ∃ t, exec c s = .next t ∧ t.trl.dropped = s.trl.dropped + 1 ∧ (tabGet none t.trl.peers h.src).map (·.tick) = some s.sch.ticks ∧
          t = { s with trl := { s.trl with dropped := t.trl.dropped, peers := t.trl.peers } }) ∧
      (us ≠ tickUs s →
        ∀ c : Instr, (c = .trlHello h pm st us ∧ st < 2) ∨ c = .trlLaunch h pm 100 us ∨ c = .trlHeartbeat h pm us →
          ∃ t, exec c s = .next t ∧ t.boot = { s.boot with solitary := true } ∧ t.trl.how = 4 ∧
          (tabGet none t.trl.peers h.src).map (·.tick) = some s.sch.ticks ∧ t = { s with boot := t.boot, trl := t.trl, err := t.err, rings := t.rings })) ∧
    (∀ (h : FrameHead) (pm st lead us : Nat) (c : Instr), h.src ≠ s.boot.chip → forMe s h.dst.toNat = false →
      c = .trlHello h pm st us ∨ c = .trlLaunch h pm lead us ∨ c = .trlHeartbeat h pm us →
      exec c s = .next { s with trl := { s.trl with dropped := s.trl.dropped + 1 } })) ∧
  (∀ (s : State) (h : FrameHead) (pm us : Nat), s.boot.phase = .running → s.boot.solitary = false → s.trl.up = true →
    h.src ≠ s.boot.chip → forMe s h.dst.toNat = true →
    ∃ t, exec (.trlHeartbeat h pm us) s = .next t ∧ (tabGet none t.trl.peers h.src).map (·.tick) = some s.sch.ticks ∧
      ((boundaryOffset s pm (sentTime s h)).natAbs ≤ 1600 → t.trl.drift = s.trl.drift ∧ t.rings = s.rings) ∧
      (1600 < (boundaryOffset s pm (sentTime s h)).natAbs → t.trl.drift = true) ∧
      t = { s with trl := t.trl, err := t.err, rings := t.rings }) ∧
  (∀ (s : State) (chip : Nat) (p : Peer), s.boot.phase = .running → tabGet none s.trl.peers chip = some p →
    p.tick + 4 * s.trl.hb ≤ s.sch.ticks →
    ∃ t, exec (.trlPeerLost chip) s = .next t ∧ tabGet none t.trl.peers chip = none ∧
      (∀ c, c ≠ chip → tabGet none t.trl.peers c = tabGet none s.trl.peers c) ∧
      t = { s with trl := t.trl, err := t.err, rings := t.rings })

/-- A privileged START on a running device with the link up, of a defined clearing whose lock-step is enabled and not
comparing, with a start after the present postmark, begins comparing afresh; STOP turns lock-step off; DET_LSCFG of
one that is off takes its fields; each records QS_OK. A partner's DIGEST of a tick that is not sealed yet is held;
of one that is known and not too old it is compared: equal digests are counted as compared, a difference sets the
freeze for the next postmark with cause 1. LS_FREEZE sets it for the postmark it names with cause 3, or moves it to
the earlier. LOCKSTEP_TIMEOUT sets it with cause 2. Other clearings' lock-step stays as it is. (R497, R499, R500,
R521, R522) -/
def Obligations.LockstepComparesAndFreezes : Prop :=
  (∀ (s : State) (q : Requester) (w : Word), reachesGlobal s q → noBits w (bitsFrom 6 7 ||| bitsFrom 12 15) = true →
    defined s (field w 0 6) = true →
    ((getLs s (field w 0 6)).enable = true → (getLs s (field w 0 6)).st ≠ .comparing → s.clk.postmark < field w 16 48 →
      s.trl.up = true → s.boot.solitary = false →
      ∃ t, exec (.lsStart q w) s = .next t ∧ t.glob.code = qsOk ∧ getLs t (field w 0 6) = { getLs s (field w 0 6) with
          st := .comparing, cause := 0, postmark := 0, start := field w 16 48, sums := [], since := 0
          compared := field w 16 48 - 1, held := [], freezeAt := none } ∧
        (∀ m, m ≠ field w 0 6 → getLs t m = getLs s m) ∧
        t = { s with ls := t.ls, sch := t.sch, out := t.out, glob := t.glob }) ∧
    (field w 16 48 = 0 → (getLs s (field w 0 6)).st ≠ .off →
      ∃ t, exec (.lsStop q w) s = .next t ∧ t.glob.code = qsOk ∧ getLs t (field w 0 6) = { getLs s (field w 0 6) with
          st := .off, sums := [], held := [], freezeAt := none } ∧
        (∀ m, m ≠ field w 0 6 → getLs t m = getLs s m) ∧
        t = { s with ls := t.ls, sch := t.sch, out := t.out, glob := t.glob })) ∧
  (∀ (s : State) (q : Requester) (n : Nat) (w : Word), reachesGlobal s q →
    noBits w (bitsFrom 10 15 ||| bitsFrom 17 31 ||| bitsFrom 48 63) = true → defined s n = true → (getLs s n).st = .off →
    field w 0 10 ≠ s.boot.chip → 1 ≤ field w 32 16 →
    ∃ t, exec (.detLscfgWrite q n w) s = .next t ∧ t.glob.code = qsOk ∧
      getLs t n = { getLs s n with partner := field w 0 10, enable := wbit w 16, timeout := field w 32 16 } ∧
      (∀ m, m ≠ n → getLs t m = getLs s m) ∧ t = { s with ls := t.ls, glob := t.glob }) ∧
  (∀ (s : State) (h : FrameHead) (n : Nat), s.boot.solitary = false → s.trl.up = true → h.src ≠ s.boot.chip →
    forMe s h.dst.toNat = true → (getLs s n).st = .comparing → (getLs s n).partner = h.src →
    (∀ (k : Nat) (d : BitVec 128), ∃ t, exec (.trlDigest h n k d) s = .next t ∧ (getLs t n).since = 0 ∧
      (digestKnown s n k = false → (getLs s n).held.length < 16 → (getLs t n).held = (getLs s n).held ++ [(k, d.toNat)]) ∧
      (digestKnown s n k = true → digestOld s n k = false → (getLs s n).freezeAt = none →
        (getLs t n).compared = max (getLs s n).compared k ∧
        (digestOf s n k = d.toNat → (getLs t n).freezeAt = none) ∧
        (digestOf s n k ≠ d.toNat → (getLs t n).freezeAt = some (s.clk.postmark + 1, 1))) ∧
      (∀ m, m ≠ n → getLs t m = getLs s m) ∧
      t = { s with ls := t.ls, trl := t.trl, err := t.err, rings := t.rings, out := t.out }) ∧
    (∀ cause p, ∃ t, exec (.trlLsFreeze h n cause p) s = .next t ∧
      (getLs t n).freezeAt = (match (getLs s n).freezeAt with
        | none => some (p, 3)
        | some (p0, c) => some (min p0 p, c)) ∧
      (∀ m, m ≠ n → getLs t m = getLs s m) ∧ t = { s with ls := t.ls, trl := t.trl, err := t.err, rings := t.rings })) ∧
  (∀ (s : State) (n : Nat), (getLs s n).st = .comparing → (getLs s n).freezeAt = none → (getLs s n).timeout ≤ (getLs s n).since →
    ∃ t, exec (.lockstepTimeout n) s = .next t ∧ getLs t n = { getLs s n with freezeAt := some (s.clk.postmark + 1, 2) } ∧
      (∀ m, m ≠ n → getLs t m = getLs s m) ∧
      t = { s with ls := t.ls, trl := t.trl, err := t.err, rings := t.rings, out := t.out })

/-- On a running device, an ARRIVE by a requester that reaches window n, of a valid barrier that does not wait and needs
no link or has one, makes it wait with this chip's arrival counted at the present time, and closes the gate where
the word says so. A frame ARRIVE from another chip over a link that is up counts the chip once for each valid
barrier of the group in the frame's epoch, or as early in the next one; no other barrier changes. BARRIER_RELEASE of
a barrier that waits, with every member arrived and the release instant come, starts the next epoch with the early
arrivals and opens the gate. TRL_BARCFG of a barrier that does not wait takes its fields where they lie within their
bounds. (R514, R515, R516, R518, R520) -/
def Obligations.BarriersGatherAndRelease : Prop :=
  (∀ (s : State) (q : Requester) (n : Nat) (w : Word), reachesOwn s q n → noBits w (bitsFrom 2 63) = true → wbit w 0 = true →
    defined s n = true → (getBar s n).valid = true → (getBar s n).waiting = false →
    (getBar s n).members ≤ 1 ∨ (s.trl.up = true ∧ s.boot.solitary = false) →
    ∃ t, exec (.trlWbarcmd q n w) s = .next t ∧ (getWin t n).code = qsOk ∧ getBar t n = { getBar s n with
        waiting := true, arrived := addArrival (getBar s n).arrived s.boot.chip (now16 s) } ∧
      t.que.gate = (if wbit w 1 then setBit s.que.gate n true else s.que.gate) ∧
      (∀ m, m ≠ n → getBar t m = getBar s m) ∧
      t = { s with bar := t.bar, que := { s.que with gate := t.que.gate }, trl := t.trl, out := t.out, win := t.win }) ∧
  (∀ (s : State) (h : FrameHead) (g e : Nat), s.boot.solitary = false → s.trl.up = true → h.src ≠ s.boot.chip →
    forMe s h.dst.toNat = true →
    ∃ t, exec (.trlArrive h g e) s = .next t ∧
      (∀ n, (getBar s n).valid = true → (getBar s n).group = g →
        (e = (getBar s n).epoch → getBar t n = { getBar s n with
          arrived := addArrival (getBar s n).arrived h.src (sentTime s h) }) ∧
        (e = (getBar s n).epoch + 1 → getBar t n = { getBar s n with
          early := addArrival (getBar s n).early h.src (sentTime s h) }) ∧
        (e ≠ (getBar s n).epoch → e ≠ (getBar s n).epoch + 1 → getBar t n = getBar s n)) ∧
      (∀ n, (getBar s n).valid = false ∨ (getBar s n).group ≠ g → getBar t n = getBar s n) ∧
      t = { s with bar := t.bar, trl := t.trl }) ∧
  (∀ (s : State) (n : Nat), (getBar s n).waiting = true → (getBar s n).valid = true →
    (getBar s n).members ≤ (getBar s n).arrived.length → releaseAt (getBar s n) ≤ now16 s →
    ∃ t, exec (.barrierRelease n) s = .next t ∧ (getBar t n).epoch = ((getBar s n).epoch + 1) % 2 ^ 32 ∧
      (getBar t n).waiting = false ∧ (getBar t n).arrived = (getBar s n).early ∧ (getBar t n).early = [] ∧
      (getBar t n).group = (getBar s n).group ∧ (getBar t n).members = (getBar s n).members ∧ (getBar t n).valid = true ∧
      t.que.gate = setBit s.que.gate n false ∧ (∀ m, m ≠ n → getBar t m = getBar s m) ∧
      t = { s with bar := t.bar, que := { s.que with gate := t.que.gate }, err := t.err, rings := t.rings }) ∧
  (∀ (s : State) (q : Requester) (n : Nat) (w : Word), reachesGlobal s q →
    noBits w (bitsFrom 22 31 ||| bitsFrom 45 63) = true → defined s n = true → (getBar s n).waiting = false →
    wbit w 21 = false ∨ (1 ≤ field w 16 5 ∧ field w 16 5 ≤ 16 ∧ 500 ≤ field w 32 13 ∧ field w 32 13 ≤ 8000) →
    ∃ t, exec (.trlBarcfgWrite q n w) s = .next t ∧ t.glob.code = qsOk ∧ (getBar t n).group = field w 0 16 ∧
      (getBar t n).members = field w 16 5 ∧ (getBar t n).valid = wbit w 21 ∧ (getBar t n).lead = field w 32 13 ∧
      (getBar t n).epoch = (getBar s n).epoch ∧ (getBar t n).waiting = false ∧
      (∀ m, m ≠ n → getBar t m = getBar s m) ∧ t = { s with bar := t.bar, glob := t.glob })

/-- A table envelope that may start: where a check of its operands, table, writer and mode fails (steps 1 to 6 of R291),
it is done with the code of the first that fails; where these pass and it is to move no row, it is done with QS_OK;
where a check of its extents and chunks, or of a PUBLISH's postmark and refresh, fails, it is done with that code;
where its clearing has no engine in service, it is done with QS_GPE_ENGINE_NONE; and else it runs on an engine in
service of its clearing, or waits for one. Descriptors, change entries, poison entries, clearings and contexts stay
as they are. (R253, R263, R287, R288, R290, R291, R294, R300) -/
def Obligations.TableEnvelopesAreCheckedAndAssigned : Prop :=
  ∀ (i : Instr) (s : State) (t e op : Nat) (k : Task) (v : EnvRun),
    i = .update t e ∨ i = .publish t e ∨ i = .refreshBegin t e ∨ i = .refreshRows t e ∨ i = .refreshAbort t e →
    i.envelopeStart = some (t, e, op) → startable s t e op = true → getTask s t = some k → getEnv s t e = some v →
    ∃ u x, exec i s = .next u ∧ getEnv u t e = some x ∧
      (∀ c, firstBad (tblNames s k v.bytes) = some c → x.st = .done ∧ x.code = c) ∧
      (firstBad (tblNames s k v.bytes) = none → movesRows v.bytes = true → tblCount v.bytes = 0 → x.st = .done ∧ x.code = qsOk) ∧
      (firstBad (tblNames s k v.bytes) = none → movesRows v.bytes = false ∨ tblCount v.bytes ≠ 0 →
        (∀ c, firstBad (tblExtents s t e k v.bytes ++ publishChecks s v.bytes) = some c → x.st = .done ∧ x.code = c) ∧
        (firstBad (tblExtents s t e k v.bytes ++ publishChecks s v.bytes) = none →
          (enginesIn s k.n = [] → x.st = .done ∧ x.code = qsGpeEngineNone) ∧
          (enginesIn s k.n ≠ [] → (x.st = .running ∧ ∃ g, x.engine = some g ∧ g ∈ enginesIn s k.n) ∨ x.st = .unassigned))) ∧
      (∀ r, r ≠ t → getTask u r = getTask s r) ∧ u.tbl.tbl = s.tbl.tbl ∧ u.tbl.chg = s.tbl.chg ∧ u.tbl.poison = s.tbl.poison ∧
      u = { s with tasks := u.tasks, queues := u.queues, qwin := u.qwin, tbl := u.tbl, pwr := u.pwr, pwin := u.pwin }

/-- On a running device, for a requester that reaches the port (global, or a defined clearing's window) and a word
without reserved bits: a TABLE_WRITE that passes R251 makes the staged words the descriptor; an INVALIDATE of a
valid declared table that the requester may write and no table envelope awaits makes it invalid, Invalidating while
a lookup runs (one answered QS_GPE_TABLE_INVALID is not awaited), and else Idle with its entries freed and the
command done; both send the descriptor's 64 bytes to 0x0400_0000 + 64d as own traffic (the model's choice of the
moment, log entry 150); a TABLE_READ puts the descriptor in the port. INVALIDATE_DONE with no such lookup running
makes the table Idle, frees its change and poison entries, and is done in every port that waits. CHANGE_ENTRY_RETIRE
of an entry that R296 lets retire frees it and advances the horizon; REFRESH_HELD_CLEAR likewise clears
refresh_held. Other descriptors stay. (R248, R251, R296, R303, R304, R310, R311, R529) -/
def Obligations.TableCommandsAndRetirement : Prop :=
  (∀ (s : State) (q : Requester) (n : Option Nat) (w : Word),
    (n = none ∧ reachesGlobal s q) ∨ (∃ m, n = some m ∧ m < 64 ∧ reachesOwn s q m ∧ (getClr s m).st ≠ .absent) →
    noBits w (bitsFrom 4 15 ||| bitsFrom 32 63) = true →
    (firstBad (tableWriteChecks s n (field w 16 16) (stagedTable (getTblPort s n).words)) = none →
      ∃ t, exec (.tableWrite q n w) s = .next t ∧ getDesc t (field w 16 16) = stagedTable (getTblPort s n).words ∧
        (getTblPort t n).code = qsOk ∧ (getTblPort t n).desc = field w 16 16 ∧ (getTblPort t n).done = true ∧
        (∀ d, d ≠ field w 16 16 → getDesc t d = getDesc s d) ∧ t.tbl.chg = s.tbl.chg ∧ t.tbl.poison = s.tbl.poison ∧
        t.que = { s.que with ownWait := s.que.ownWait ++ [ownReq (.own 0) true (0x04000000 + 64 * field w 16 16)
          ((tableWords t (field w 16 16)).flatMap fun v => leBytes 8 v.toNat)] } ∧
        t = { s with tbl := t.tbl, que := t.que, twin := t.twin, glob := t.glob, win := t.win }) ∧
    ((declOf s (field w 16 16)).isSome = true → mayWriteTable s n (field w 16 16) = true →
      (getDesc s (field w 16 16)).valid = true → tableAdmitted s (field w 16 16) = false →
      ∃ t, exec (.tableInvalidate q n w) s = .next t ∧ (getDesc t (field w 16 16)).valid = false ∧
        (getTblPort t n).code = qsOk ∧ (getTblPort t n).desc = field w 16 16 ∧
        (lookupsLeft s (field w 16 16) ≠ [] → (getDesc t (field w 16 16)).mode = .invalidating ∧ (getTblPort t n).done = false ∧
          t.tbl.chg = s.tbl.chg) ∧
        (lookupsLeft s (field w 16 16) = [] → (getDesc t (field w 16 16)).mode = .idle ∧ (getTblPort t n).done = true ∧
          (∀ c ∈ t.tbl.chg, c.desc ≠ field w 16 16) ∧
          ∀ i p, tabGet none t.tbl.poison i = some p → p.desc ≠ field w 16 16) ∧
        (∀ d, d ≠ field w 16 16 → getDesc t d = getDesc s d) ∧
        t.que = { s.que with ownWait := s.que.ownWait ++ [ownReq (.own 0) true (0x04000000 + 64 * field w 16 16)
          ((tableWords t (field w 16 16)).flatMap fun v => leBytes 8 v.toNat)] } ∧
        t = { s with tbl := t.tbl, acc := t.acc, que := t.que, twin := t.twin, glob := t.glob, win := t.win }) ∧
    (∀ x, declOf s (field w 16 16) = some x → n = none ∨ x.owner = none ∨ x.owner = n →
      ∃ t, exec (.tableRead q n w) s = .next t ∧ (getTblPort t n).words = tableWords s (field w 16 16) ∧
        (getTblPort t n).state = tableState s (field w 16 16) ∧ (getTblPort t n).code = qsOk ∧ (getTblPort t n).done = true ∧
        (∀ d, getDesc t d = getDesc s d) ∧ t.tbl.chg = s.tbl.chg ∧
        t = { s with tbl := t.tbl, twin := t.twin, glob := t.glob, win := t.win })) ∧
  (∀ (s : State) (d : Nat), (getDesc s d).mode = .invalidating → lookupsLeft s d = [] →
    ∃ t, exec (.invalidateDone d) s = .next t ∧ getDesc t d = { getDesc s d with mode := .idle, covered := [] } ∧
      (∀ c ∈ t.tbl.chg, c.desc ≠ d) ∧ (∀ i p, tabGet none t.tbl.poison i = some p → p.desc ≠ d) ∧
      (∀ n, n < 64 → (getTwin s n).port.desc = d → (getTwin s n).port.waits = true → (getTwin t n).port.done = true) ∧
      (s.tbl.port.desc = d → s.tbl.port.waits = true → t.tbl.port.done = true) ∧
      (∀ k, k ≠ d → getDesc t k = getDesc s k) ∧ t = { s with tbl := t.tbl, acc := t.acc, twin := t.twin }) ∧
  (∀ (s : State) (d r : Nat) (c : Chg), chgOf s d r = some c → canRetire s c = true →
    ∃ t, exec (.changeEntryRetire d r) s = .next t ∧ chgOf t d r = none ∧
      (getDesc t d).horizon = max (getDesc s d).horizon c.pub ∧ (∀ k, k ≠ d → getDesc t k = getDesc s k) ∧
      (∀ x, x.desc ≠ d ∨ x.row ≠ r → (x ∈ t.tbl.chg ↔ x ∈ s.tbl.chg)) ∧ t = { s with tbl := t.tbl }) ∧
  (∀ (s : State) (d : Nat), (getDesc s d).refreshHeld = true → (getDesc s d).refreshPub + curHold s ≤ s.clk.postmark →
    (∀ l ∈ lookupsOf s d, (getDesc s d).refreshPub ≤ l.1.pin) →
    ∃ t, exec (.refreshHeldClear d) s = .next t ∧ getDesc t d = { getDesc s d with
        refreshHeld := false, horizon := max (getDesc s d).horizon (getDesc s d).refreshPub } ∧
      (∀ k, k ≠ d → getDesc t k = getDesc s k) ∧ t = { s with tbl := t.tbl })

/-- A MODEL_LOAD that may start is done with the code of its first check that fails; with QS_OK where the model is
resident, which is then the most recently used; and else runs. MODEL_LOAD_DONE of one whose copy is written ends it:
with QS_OK and the model resident where the image is a model's, and else with QS_SCH_MODEL_FORMAT and the model's
blocks free. MODEL_EVICT is done: with QS_OK and the model gone, or with the code of what stands against it. On a
running device, for a requester that reaches window n: SCH_WCANOPY of a canopy without models, over plots of its
own, takes the word; SCH_WACCT of a ring in an extent of its own takes the word, empties the ring and drops the
records that wait for it (the model's choice, log entry 139); a head between head and tail is taken. Others'
canopies stay. (R314, R315, R338, R339, R340, R341, R348) -/
def Obligations.ModelsEnterAndLeaveTheCanopy : Prop :=
  (∀ (s : State) (t e : Nat) (k : Task) (v : EnvRun), getTask s t = some k → getEnv s t e = some v →
    (startable s t e 0x32 = true →
      ∃ u x, exec (.modelLoad t e) s = .next u ∧ getEnv u t e = some x ∧
        (∀ c, firstBad (loadChecks s k v.bytes) = some c → x.st = .done ∧ x.code = c) ∧
        (firstBad (loadChecks s k v.bytes) = none →
          (modelOf s k.n (loadId v.bytes) = none → x.st = .running ∧ u.swin = s.swin) ∧
          (∀ i m, modelOf s k.n (loadId v.bytes) = some (i, m) →
            (m.resident = true → x.st = .done ∧ x.code = qsOk ∧ (getSwin u k.n).uses = (getSwin s k.n).uses + 1 ∧
              (tabGet none (getSwin s k.n).models i = some m →
                tabGet none (getSwin u k.n).models i = some { m with used := (getSwin s k.n).uses + 1 })) ∧
            (m.resident = false → x.st = .running ∧ u.swin = s.swin))) ∧
        (∀ n, n ≠ k.n → getSwin u n = getSwin s n) ∧
        u = { s with tasks := u.tasks, queues := u.queues, qwin := u.qwin, swin := u.swin }) ∧
    (envOpcode v.bytes = 0x32 → v.st = .running → v.phase = 2 → envBusy s t e = false →
      ∃ u x, exec (.modelLoadDone t e) s = .next u ∧ getEnv u t e = some x ∧ x.st = .done ∧
        (∀ ps i m, modelPasses v.block (loadLen v.bytes) = some ps → modelOf s k.n (loadId v.bytes) = some (i, m) →
          tabGet none (getSwin s k.n).models i = some m →
          x.code = qsOk ∧ tabGet none (getSwin u k.n).models i = some { m with
            resident := true, passes := ps, used := (getSwin s k.n).uses + 1 }) ∧
        (modelPasses v.block (loadLen v.bytes) = none → x.code = qsSchModelFormat ∧
          ∀ i m, modelOf s k.n (loadId v.bytes) = some (i, m) → m.resident = false → tabGet none (getSwin u k.n).models i = none) ∧
        (∀ n, n ≠ k.n → getSwin u n = getSwin s n) ∧
        u = { s with tasks := u.tasks, queues := u.queues, qwin := u.qwin, swin := u.swin }) ∧
    (startable s t e 0x33 = true →
      ∃ u x, exec (.modelEvict t e) s = .next u ∧ getEnv u t e = some x ∧ x.st = .done ∧
        (zeroAt v.bytes 0x20 8 = true → zeroAt v.bytes 0x30 16 = true →
          (modelOf s k.n (loadId v.bytes) = none → x.code = qsSchModelAbsent ∧ u.swin = s.swin) ∧
          (∀ i m, modelOf s k.n (loadId v.bytes) = some (i, m) →
            (modelHeld s k.n m = true → x.code = qsSchModelHeld ∧ u.swin = s.swin) ∧
            (modelHeld s k.n m = false → x.code = qsOk ∧ tabGet none (getSwin u k.n).models i = none))) ∧
        (zeroAt v.bytes 0x20 8 = false ∨ zeroAt v.bytes 0x30 16 = false → x.code = qsSchOperand ∧ u.swin = s.swin) ∧
        (∀ n, n ≠ k.n → getSwin u n = getSwin s n) ∧
        u = { s with tasks := u.tasks, queues := u.queues, qwin := u.qwin, swin := u.swin })) ∧
  (∀ (s : State) (q : Requester) (n : Nat) (w : Word), reachesOwn s q n →
    (noBits w (bitsFrom 13 15 ||| bitsFrom 29 63) = true → (getSwin s n).models = [] →
      (∀ i, i < field w 16 13 → ownPlot s n (i + field w 0 13) = true) →
      ∃ t, exec (.schWcanopyWrite q n w) s = .next t ∧ (getWin t n).code = qsOk ∧ getSwin t n = { getSwin s n with canopy := w } ∧
        (∀ m, m ≠ n → getSwin t m = getSwin s m) ∧ t = { s with swin := t.swin, win := t.win }) ∧
    (noBits w (bitsFrom 6 11 ||| bitsFrom 41 63) = true →
      wbit w 0 = false ∨ (4 ≤ field w 1 5 ∧ field w 1 5 ≤ 20 ∧ ownExtent s n (acctBase w) (64 * acctDepth w) = true) →
      ∃ t, exec (.schWacctWrite q n false w) s = .next t ∧ (getWin t n).code = qsOk ∧
        getSwin t n = { getSwin s n with
          acct := w, head := 0, tail := 0, records := [], writing := false } ∧ (∀ m, m ≠ n → getSwin t m = getSwin s m) ∧
        t = { s with acc := t.acc, swin := t.swin, win := t.win }) ∧
    (u32sub (field w 0 32) (getSwin s n).head ≤ u32sub (getSwin s n).tail (getSwin s n).head →
      ∃ t, exec (.schWacctWrite q n true w) s = .next t ∧ (getWin t n).code = qsOk ∧
        getSwin t n = { getSwin s n with head := field w 0 32 } ∧ (∀ m, m ≠ n → getSwin t m = getSwin s m) ∧
        t = { s with swin := t.swin, win := t.win }))

/-- A JOB that may start is done with the code of its first check that fails; with QS_OK where it has no pass; with
QS_SCH_MODEL_ABSENT where its model is not in the canopy; with QS_SCH_PASS_RANGE or QS_SCH_CORES where its resident
model has too few passes or its mask too few cores; and else runs, and stands among the jobs with its context,
model, mask, passes and cores, loading while its model loads, and else waiting for cores. A JOB_WAIT that may start
is done with QS_SCH_NO_JOB where it names no JOB, with the job's code where that job has ended, with the JOB's code
where it ended without a job, and else runs. On a running device a privileged write of SCH_WEIGHT of a Live context
of a clearing, without reserved bits and within the clearing's bounds, waits as the context's next weight, and
nothing else changes but the status register. (R318, R319, R320, R321, R324, R326) -/
def Obligations.JobsStartAndWait : Prop :=
  (∀ (s : State) (t e : Nat) (k : Task) (v : EnvRun), getTask s t = some k → getEnv s t e = some v →
    (startable s t e 0x30 = true →
      ∃ u x, exec (.job t e) s = .next u ∧ getEnv u t e = some x ∧
        (zeroAt v.bytes 0x3D 3 = false ∨ jobCores v.bytes = 0 ∨ 128 < jobCores v.bytes → x.st = .done ∧ x.code = qsSchOperand) ∧
        (zeroAt v.bytes 0x3D 3 = true → 1 ≤ jobCores v.bytes → jobCores v.bytes ≤ 128 →
          ((∃ c ∈ maskBits (jobMask v.bytes), coreOwner s c ≠ some k.n) → x.st = .done ∧ x.code = qsNotOwner) ∧
          ((∀ c ∈ maskBits (jobMask v.bytes), coreOwner s c = some k.n) →
            (jobCount v.bytes = 0 → x.st = .done ∧ x.code = qsOk) ∧
            (jobCount v.bytes ≠ 0 →
              (modelOf s k.n (jobModel v.bytes) = none → x.st = .done ∧ x.code = qsSchModelAbsent) ∧
              (∀ i m, modelOf s k.n (jobModel v.bytes) = some (i, m) →
                (m.resident = false → x.st = .running ∧ ∃ y, getJob u (jobKey t e) = some y ∧ y.st = .loading ∧ y.n = k.n ∧
                  y.ctx = k.ctx ∧ y.model = jobModel v.bytes ∧ y.mask = jobMask v.bytes ∧ y.first = jobFirst v.bytes ∧
                  y.count = jobCount v.bytes ∧ y.cores = jobCores v.bytes) ∧
                (m.resident = true → m.passes.length < jobFirst v.bytes + jobCount v.bytes →
                  x.st = .done ∧ x.code = qsSchPassRange) ∧
                (m.resident = true → jobFirst v.bytes + jobCount v.bytes ≤ m.passes.length →
                  ((maskCores s k.n (jobMask v.bytes)).length < jobCores v.bytes → x.st = .done ∧ x.code = qsSchCores) ∧
                  (jobCores v.bytes ≤ (maskCores s k.n (jobMask v.bytes)).length →
                    x.st = .running ∧ ∃ y, getJob u (jobKey t e) = some y ∧ y.st = .waiting ∧ y.n = k.n ∧ y.ctx = k.ctx ∧
                    y.model = jobModel v.bytes ∧ y.mask = jobMask v.bytes ∧ y.first = jobFirst v.bytes ∧ y.count = jobCount v.bytes ∧
                    y.cores = jobCores v.bytes)))))) ∧
        u = { s with ctx := u.ctx, queues := u.queues, tasks := u.tasks, sch := u.sch, qwin := u.qwin, swin := u.swin }) ∧
    (startable s t e 0x31 = true →
      ∃ u x, exec (.jobWait t e) s = .next u ∧ getEnv u t e = some x ∧
        (zeroAt v.bytes 0x20 32 = false → x.st = .done ∧ x.code = qsSchOperand) ∧
        (zeroAt v.bytes 0x20 32 = true →
          (envFlag v.bytes 2 = false ∨ latestJob k e = none → x.st = .done ∧ x.code = qsSchNoJob) ∧
          (∀ b y, envFlag v.bytes 2 = true → latestJob k e = some b → getJob s (jobKey t b) = some y →
            (y.st = .ended → x.st = .done ∧ x.code = y.code) ∧ (y.st ≠ .ended → x.st = .running)) ∧
          (∀ b z, envFlag v.bytes 2 = true → latestJob k e = some b → getJob s (jobKey t b) = none → k.envs[b]? = some z →
            (z.st = .done → x.st = .done ∧ x.code = z.code) ∧ (z.st ≠ .done → x.st = .running))) ∧
        (∀ r, r ≠ t → getTask u r = getTask s r) ∧ u = { s with queues := u.queues, tasks := u.tasks, qwin := u.qwin })) ∧
  (∀ (s : State) (q : Requester) (c n : Nat) (w : Word), reachesGlobal s q → noBits w (bitsFrom 16 63) = true →
    (getCtx s c).st = .live → ctxOwner s c = some n →
    ((getClr s n).cfg.tunable.getLsbD 4 = true ∧ (getClr s n).cfg.weightMin ≤ field w 0 16 ∧
        field w 0 16 ≤ (getClr s n).cfg.weightMax) ∨
      ((getClr s n).cfg.tunable.getLsbD 4 = false ∧ field w 0 16 = (getCtx s c).weightNext.getD (getCtx s c).weight) →
    ∃ t, exec (.schWeightWrite q c w) s = .next t ∧ t.glob.code = qsOk ∧
      getCtx t c = { getCtx s c with weightNext := some (field w 0 16) } ∧ (∀ d, d ≠ c → getCtx t d = getCtx s d) ∧
      t = { s with ctx := t.ctx, glob := t.glob })

/-- PASS_ISSUE of a core whose started job has a further pass issues it (the pass stands first among the core's passes,
its issue time now) where the core is neither frozen nor in reset nor failed, its pair's domain is On with no
request to leave On outstanding, its clearing is not frozen by lock-step, fewer than two of its passes are in
flight, and the clearing is elastic with no barrier to wait for, or fixed at its issue time. Out of reset and not
Stopped, PASS_DONE of a pass in flight ends it at the present cclk and counts it to the job's context; with a status
other than 0, of a started job on a core that is not in reset, the job ends with QS_SCH_PASS_FAULT, or
QS_SCH_PASS_POISONED for status 2. PASS_WATCHDOG of a pass in flight for more than SCH_PASSWD boundaries ends the
started job with QS_SCH_PASS_TIMEOUT. (R103, R321, R327, R329, R333, R334, R435, R500) -/
def Obligations.PassesIssueAndEnd : Prop :=
  (∀ (s : State) (c j : Nat) (x : Job) (p : PassInfo), (getCore s c).job = some j → getJob s j = some x →
    passOf s x (getCore s c).passes.length = some p → x.st = .started → (getCore s c).passes.length < x.count →
    (getCore s c).freeze = false → (getCore s c).frozen = false → (getCore s c).rst = false → coreFailed s c = false →
    domainOn s (c / 2) = true → lsFrozen s x.n = false → ((getCore s c).passes.filter fun r => r.ended.isNone).length < 2 →
    ((getClr s x.n).cfg.fixed = false ∧ (p.barrier = false ∨ (getCore s c).passes.length = 0 ∨
        (allEnded s x ((getCore s c).passes.length - 1)).isSome = true)) ∨
      ((getClr s x.n).cfg.fixed = true ∧ ∃ a, issueCclk s x c (getCore s c).passes.length p = some a ∧ a ≤ nowCclk s) →
    ∃ t, exec (.passIssue c) s = .next t ∧
      getCore t c = { getCore s c with
        passes := ⟨(getCore s c).passes.length, nowCclk s, none, 0⟩ :: (getCore s c).passes, started := (getCore s c).started + 1 } ∧
      t.out = .pass c (getCore s c).passes.length (passAddr s x p) p.fence :: s.out ∧ (∀ d, d ≠ c → getCore t d = getCore s d) ∧
      (∀ i, getJob t i = getJob s i) ∧
      t = { s with sch := t.sch, out := t.out, err := t.err, rings := t.rings, swin := t.swin }) ∧
  (∀ (s : State) (c j tag st : Nat) (d : Bool) (x : Job) (r : PassRun), inert s = false → coreFailed s c = false → (getCore s c).job = some j →
    getJob s j = some x → ((getCore s c).passes.find? fun p => p.pos == tag && p.ended.isNone) = some r →
    (st = 0 →
      ∃ t, exec (.passDone c tag st d) s = .next t ∧ (getCore t c).drained = d ∧
        (∀ p ∈ (getCore t c).passes, p.pos = tag → p.ended = some (nowCclk s)) ∧
        (getCore t c).passes.length = (getCore s c).passes.length ∧
        (tabGet ctxAcct0 t.sch.acct x.ctx).passes = (tabGet ctxAcct0 s.sch.acct x.ctx).passes + 1 ∧
        (∀ b, b ≠ c → getCore t b = getCore s b) ∧
        t = { s with sch := t.sch, err := t.err, rings := t.rings, queues := t.queues, tasks := t.tasks, qwin := t.qwin, swin := t.swin }) ∧
    (st ≠ 0 → st < 16 → (getCore s c).rst = false → x.st = .started →
      ∃ t y, exec (.passDone c tag st d) s = .next t ∧ getJob t j = some y ∧
        y.code = (if st = 2 then qsSchPassPoisoned else qsSchPassFault) ∧ (y.st = .ending ∨ y.st = .ended) ∧
        (∀ p ∈ (getCore t c).passes, p.pos = tag → p.ended = some (nowCclk s)) ∧
        (tabGet ctxAcct0 t.sch.acct x.ctx).passes = (tabGet ctxAcct0 s.sch.acct x.ctx).passes + 1 ∧
        t.img = s.img ∧ t.cal = s.cal ∧ t.ctx = s.ctx ∧ t.xlt = s.xlt ∧ t.key = s.key ∧ t.mbx = s.mbx)) ∧
  (∀ (s : State) (c j : Nat) (x : Job) (r : PassRun), coreFailed s c = false → (getCore s c).job = some j → getJob s j = some x →
    x.st = .started → ((getCore s c).passes.reverse.find? fun p => p.ended.isNone && s.sch.passwd < p.ticks) = some r →
    ∃ t y, exec (.passWatchdog c) s = .next t ∧ getJob t j = some y ∧ y.code = qsSchPassTimeout ∧
      (y.st = .ending ∨ y.st = .ended) ∧ t.img = s.img ∧ t.cal = s.cal ∧ t.ctx = s.ctx ∧ t.xlt = s.xlt ∧ t.key = s.key ∧ t.mbx = s.mbx)

/-- Out of reset and not Stopped: CORE_FROZEN of a core under cp_freeze that is not frozen notes it, and begins the
reset that waits for it. CORE_RESET_ACK of a core in reset drops the reset, and the freeze with it unless its
clearing is frozen by lock-step, with every pass of it over. ENGINE_INTERNAL_FAULT of an engine in service counts
the fault and resets the engine, or fails it with the fourth fault in 10,000 boundaries; ENGINE_RESET_ACK ends its
reset. RESET_HANG of a unit whose reset is two boundaries old fails that unit. On a running device CORE_ERROR_REPORT
brings one record with the core's code to the global ring, in order of source and unit among those of its cclk, and
SPARE_MAP_CHANGE takes a new spare map. Other cores and engines stay as they are in each but the failures. (R104,
R331, R332, R335, R466, R467, R468, R469, R500) -/
def Obligations.CoresAndEnginesFreezeResetAndReport : Prop :=
  (∀ (s : State) (c : Nat), inert s = false → coreFailed s c = false → (getCore s c).freeze = true → (getCore s c).frozen = false →
    ∃ t, exec (.coreFrozen c) s = .next t ∧
      ((getCore s c).wantReset = false → getCore t c = { getCore s c with frozen := true } ∧ t.out = s.out) ∧
      ((getCore s c).wantReset = true → t.out = .coreReset c true :: s.out ∧
        getCore t c = { getCore s c with frozen := true, wantReset := false, rst := true, resetTicks := 0 }) ∧
      (∀ d, d ≠ c → getCore t d = getCore s d) ∧ t = { s with sch := t.sch, out := t.out }) ∧
  (∀ (s : State) (c : Nat), inert s = false → coreFailed s c = false → (getCore s c).rst = true →
    ∃ t, exec (.coreResetAck c) s = .next t ∧ (getCore t c).rst = false ∧ (getCore t c).freeze = keepsFreeze s c ∧
      (getCore t c).frozen = false ∧ (getCore t c).drained = true ∧ (∀ p ∈ (getCore t c).passes, p.ended.isSome = true) ∧
      (∀ d, d ≠ c → getCore t d = getCore s d) ∧
      t = { s with sch := t.sch, out := t.out, queues := t.queues, tasks := t.tasks, qwin := t.qwin, swin := t.swin }) ∧
  (∀ (s : State) (e k : Nat), e < 64 → engineFailed s e = false →
    ∃ t, exec (.engineInternalFault e k) s = .next t ∧
      ((faultAdd s (getEngine s e).faults).length < 4 → engineFailed t e = false ∧ (getEngine t e).resetting = true ∧
        (getEngine t e).faults = faultAdd s (getEngine s e).faults) ∧
      (4 ≤ (faultAdd s (getEngine s e).faults).length → engineFailed t e = true) ∧
      (∀ d, d ≠ e → getEngine t d = getEngine s d) ∧ (∀ m, (getClr t m).st = (getClr s m).st) ∧
      t = { s with clr := t.clr, err := t.err, rings := t.rings, queues := t.queues, tasks := t.tasks, acc := t.acc, tbl := t.tbl
                   qwin := t.qwin, xwin := t.xwin, gwin := t.gwin }) ∧
  (∀ (s : State) (e : Nat), (getEngine s e).resetting = true → engineFailed s e = false →
    ∃ t, exec (.engineResetAck e) s = .next t ∧ getEngine t e = { getEngine s e with resetting := false, resetTicks := 0 } ∧
      (∀ d, d ≠ e → getEngine t d = getEngine s d) ∧ t = { s with tbl := t.tbl }) ∧
  (∀ (s : State) (u : Nat),
    (u < 128 → (getCore s u).rst = true → 2 ≤ (getCore s u).resetTicks → coreFailed s u = false →
      ∃ t, exec (.resetHang true u) s = .next t ∧ coreFailed t u = true ∧ t.err.failedEngines = s.err.failedEngines) ∧
    (u < 64 → (getEngine s u).resetting = true → 2 ≤ (getEngine s u).resetTicks → engineFailed s u = false →
      ∃ t, exec (.resetHang false u) s = .next t ∧ engineFailed t u = true ∧ (getEngine t u).resetting = false ∧
        t.err.failedCores = s.err.failedCores)) ∧
  (∀ (s : State) (c : Nat) (code : BitVec 16), s.boot.phase = .running → c < 128 → coreFailed s c = false →
    ∃ t, exec (.coreErrorReport c code) s = .next t ∧
      (∃ r, r ∈ (getRing t 64).arrivals ∧ (getRing t 64).arrivals = insertRec r (getRing s 64).arrivals ∧ r.code = qsErrCoreReport ∧ r.source = 1 ∧
        r.unit = c ∧ r.detail0 = code.toNat ∧ r.postmark = s.clk.postmark) ∧
      t = { s with rings := t.rings }) ∧
  (∀ (s : State) (c : Nat) (m : BitVec 32), inert s = false → c < 128 → coreFailed s c = false → (getCore s c).spareMap ≠ m →
    ∃ t, exec (.spareMapChange c m) s = .next t ∧ getCore t c = { getCore s c with spareMap := m } ∧
      (∀ d, d ≠ c → getCore t d = getCore s d) ∧ t = { s with sch := t.sch, err := t.err, rings := t.rings })

/-- A COPY, COPY_2D, PREFETCH or ADVISE that may start is done with QS_XLT_OPERAND where its operands break R371, with
QS_OK where nothing is to move, with the code of the first of its form, PASID, ownership, overlap, tile and engine
checks that fails, and else runs on an engine in service of its clearing, or waits for one. An UNSEAL that may start
is done with the code of the first check of its slot that fails, with QS_OK where it has no chunk, with the code of
the first check of its extents that fails, and else runs or waits with the slot's key and generation copied. Key
slots, translations, tables, clearings and contexts stay as they are, but for a slot found unusable. (R370, R371,
R372, R376, R377, R395, R397) -/
def Obligations.TransfersAndUnsealsStart : Prop :=
  (∀ (i : Instr) (s : State) (t e op : Nat) (k : Task) (v : EnvRun),
    i = .copy t e ∨ i = .copy2d t e ∨ i = .prefetch t e ∨ i = .advise t e → i.envelopeStart = some (t, e, op) →
    startable s t e op = true → getTask s t = some k → getEnv s t e = some v →
    ∃ u x, exec i s = .next u ∧ getEnv u t e = some x ∧
      (xferOperands v.bytes = false → x.st = .done ∧ x.code = qsXltOperand) ∧
      (xferOperands v.bytes = true → xferEmpty v.bytes = true → x.st = .done ∧ x.code = qsOk) ∧
      (xferOperands v.bytes = true → xferEmpty v.bytes = false →
        (∀ c, firstBad (xferExtents s k v.bytes) = some c → x.st = .done ∧ x.code = c) ∧
        (firstBad (xferExtents s k v.bytes) = none →
          (x.st = .running ∧ ∃ g, x.engine = some g ∧ g ∈ enginesIn s k.n) ∨ x.st = .unassigned)) ∧
      (∀ r, r ≠ t → getTask u r = getTask s r) ∧ u.tbl.tbl = s.tbl.tbl ∧
      u = { s with tasks := u.tasks, queues := u.queues, qwin := u.qwin, tbl := u.tbl, pwr := u.pwr, pwin := u.pwin }) ∧
  (∀ (s : State) (t e : Nat) (k : Task) (v : EnvRun), startable s t e 0x50 = true → getTask s t = some k → getEnv s t e = some v →
    ∃ u x, exec (.unsealData t e) s = .next u ∧ getEnv u t e = some x ∧
      (∀ c, firstBad (unsealKeyChecks s k v.bytes) = some c → x.st = .done ∧ x.code = c) ∧
      (firstBad (unsealKeyChecks s k v.bytes) = none →
        (unsealChunks v.bytes = 0 → x.st = .done ∧ x.code = qsOk) ∧
        (unsealChunks v.bytes ≠ 0 →
          (∀ c, firstBad (unsealExtents s k v.bytes) = some c → x.st = .done ∧ x.code = c) ∧
          (firstBad (unsealExtents s k v.bytes) = none → ((x.st = .running ∧ ∃ g, x.engine = some g) ∨ x.st = .unassigned) ∧
            x.key = some ((getSlot s (unsealSlot v.bytes)).key, (getSlot s (unsealSlot v.bytes)).gen)))) ∧
      (∀ j, (getSlot u j).key = (getSlot s j).key ∧ (getSlot u j).gen = (getSlot s j).gen ∧ (getSlot u j).attr = (getSlot s j).attr) ∧
      (∀ r, r ≠ t → getTask u r = getTask s r) ∧ u.tbl.tbl = s.tbl.tbl ∧
      u = { s with tasks := u.tasks, queues := u.queues, qwin := u.qwin, tbl := u.tbl, pwr := u.pwr, pwin := u.pwin, key := u.key
                   err := u.err, rings := u.rings })

/-- Out of reset and not Stopped: HOST_READ_COMPLETION and TRANSLATION_COMPLETION of a tag that is free change nothing,
and of a quarantined tag only free it; so does a translation completion of a tag whose context has left Live. A host
read completion of an access of a running envelope frees the tag and the access: with data, the bytes are among the
envelope's answers; poisoned, or with another status, the envelope stops with QS_XLT_SRC_POISONED or
QS_XLT_HOST_ERROR. A translation completion frees the tag: refused, every access that waited on it is answered;
granted untranslated, each such access is ready to use its own address; granted with the permissions that each one
needs, each is ready with the frame, where the completion fills no entry or an entry can be taken; where none can,
the completion is held and the tag stays taken. (R362, R363, R364, R380, R458) -/
def Obligations.HostReadsAndTranslationsAreAnswered : Prop :=
  (∀ (s : State) (i : Nat) (st : HostStatus) (bs : List Byte) (r : AtsReply), getHostOut s i = none →
    exec (.hostReadCompletion i st bs) s = .next s ∧ exec (.translationCompletion i r) s = .next s) ∧
  (∀ (s : State) (i p n : Nat) (r : AtsReply) (o : HostOut), inert s = false → getHostOut s i = some o → o.use = .lost p n →
    (s.xlt.heldFills.any fun h => h.1 == i) = false →
    ∃ t, exec (.translationCompletion i r) s = .next t ∧ getHostOut t i = none ∧
      (∀ j, j ≠ i → getHostOut t j = getHostOut s j) ∧ t.xlt.entries = s.xlt.entries ∧ t = { s with xlt := t.xlt }) ∧
  (∀ (s : State) (i : Nat) (st : HostStatus) (bs : List Byte) (r : AtsReply) (o : HostOut), inert s = false → getHostOut s i = some o → o.use = .dead →
    (s.xlt.heldFills.any fun h => h.1 == i) = false →
    ∃ t, exec (.hostReadCompletion i st bs) s = .next t ∧ exec (.translationCompletion i r) s = .next t ∧ getHostOut t i = none ∧
      (∀ j, j ≠ i → getHostOut t j = getHostOut s j) ∧ t = { s with xlt := t.xlt }) ∧
  (∀ (s : State) (i id t e : Nat) (o : HostOut) (a : Acc) (k : Task) (v : EnvRun), inert s = false → getHostOut s i = some o → o.use = .acc id →
    getAcc s id = some a → a.client = .env t e → a.kind = .read → getTask s t = some k → getEnv s t e = some v → v.st = .running →
    (∀ bs : List Byte, bs.length = a.len →
      ∃ u x, exec (.hostReadCompletion i .ok bs) s = .next u ∧ getHostOut u i = none ∧ getAcc u id = none ∧ getEnv u t e = some x ∧
        x.st = .running ∧ x.got = ⟨a.op, false, bs⟩ :: v.got ∧ (∀ r, r ≠ t → getTask u r = getTask s r) ∧
        u = { s with xlt := u.xlt, acc := u.acc, tasks := u.tasks, sch := u.sch }) ∧
    (∀ (st : HostStatus) (bs : List Byte), st ≠ .ok →
      ∃ u x, exec (.hostReadCompletion i st bs) s = .next u ∧ getHostOut u i = none ∧ getAcc u id = none ∧ getEnv u t e = some x ∧ x.st = .draining ∧
        x.code = (if st = .poisoned then qsXltSrcPoisoned else qsXltHostError) ∧ (∀ r, r ≠ t → getTask u r = getTask s r) ∧
        u = { s with xlt := u.xlt, acc := u.acc, tasks := u.tasks, xwin := u.xwin, gwin := u.gwin })) ∧
  (∀ (s : State) (i p n : Nat) (w0 f : Bool) (o : HostOut), inert s = false → getHostOut s i = some o → o.use = .ats p w0 n f →
    (s.xlt.heldFills.any fun h => h.1 == i) = false →
    (∃ t, exec (.translationCompletion i .failed) s = .next t ∧ getHostOut t i = none ∧
      (∀ id a, getAcc s id = some a → a.st = .xlt i → getAcc t id = none)) ∧
    (∀ r w frame, ∃ t, exec (.translationCompletion i (.granted r w true frame)) s = .next t ∧ getHostOut t i = none ∧
      (∀ id a, getAcc s id = some a → a.st = .xlt i → getAcc t id = some { a with st := .ready, plain := true }) ∧
      t = { s with xlt := t.xlt, acc := t.acc }) ∧
    (∀ r w frame, f = true → (if w0 then w else r) = true → canFill s ⟨o.func, o.pasid.getD 0, p, frame, r, w, false, n⟩ = false →
      exec (.translationCompletion i (.granted r w false frame)) s =
        .next { s with xlt := { s.xlt with heldFills := s.xlt.heldFills ++ [(i, r, w, frame)] } }) ∧
    (∀ r w frame, (∀ x ∈ waitersOf s i, (if needsWrite x.2 then w else r) = true) →
      f = false ∨ canFill s ⟨o.func, o.pasid.getD 0, p, frame, r, w, false, n⟩ = true →
      ∃ t, exec (.translationCompletion i (.granted r w false frame)) s = .next t ∧ getHostOut t i = none ∧
        (∀ id a, getAcc s id = some a → a.st = .xlt i → getAcc t id = some { a with st := .ready, frame := some frame }) ∧
        t = { s with xlt := t.xlt, acc := t.acc }))

/-- Out of reset and not Stopped: an ATS invalidation of a function and PASID that no context is bound to is completed
at once and counted; of a bound one, its translation entries go and it waits for what is old. INVALIDATE_DRAINED of
one with nothing old left completes it. A PRG_RESPONSE that names no outstanding request is dropped and counted; for
one of a bound PASID, success makes every access that faulted on it ready again, code 1 answers each, and any other
code stops the function's page requests. PAGE_REQUEST_TIMEOUT of a request as old as XLT_PRITO marks it late and
answers the accesses that faulted on it. PAGE_REQUEST_INTERFACE_RESET clears the function's bit of XLT_PRISTOP.
(R366, R367, R368, R378, R379, R381) -/
def Obligations.PageRequestsAndInvalidations : Prop :=
  (∀ (s : State) (f tag : Nat) (p : Option Nat), inert s = false →
    ((match p with | some x => ctxBound s f x | none => funcBound s f) = false →
      ∃ t, exec (.atsInvalidate f p tag) s = .next t ∧ t.xlt = { s.xlt with invalDone := s.xlt.invalDone + 1 } ∧
        t.out = .invalidateCompletion f tag :: s.out ∧ t = { s with xlt := t.xlt, out := t.out }) ∧
    ((match p with | some x => ctxBound s f x | none => funcBound s f) = true →
      ∃ t i, exec (.atsInvalidate f p tag) s = .next t ∧ t.xlt.inval = s.xlt.inval ++ [i] ∧ i.func = f ∧ i.itag = tag ∧
        (∀ e, e ∈ t.xlt.entries ↔ e ∈ s.xlt.entries ∧ invalHits f p e.func (some e.pasid) = false) ∧
        t.xlt.pri = s.xlt.pri ∧ t.xlt.bindings = s.xlt.bindings ∧ t = { s with xlt := t.xlt, acc := t.acc })) ∧
  (∀ (s : State) (f tag : Nat) (i : Inval), (s.xlt.inval.find? fun x => x.func == f && x.itag == tag) = some i → i.tags = [] →
    (∀ a ∈ i.accs, getAcc s a = none) → i.tiles = [] →
    exec (.invalidateDrained f tag) s = .next { s with
      xlt := { s.xlt with inval := s.xlt.inval.erase i, invalDone := s.xlt.invalDone + 1 }
      out := .invalidateCompletion f tag :: s.out }) ∧
  (∀ (s : State) (f p i code : Nat), inert s = false → i < 512 →
    (tabGet none s.xlt.pri (priKey f i) = none →
      exec (.prgResponse f p i code) s = .next { s with xlt := { s.xlt with prgDropped := s.xlt.prgDropped + 1 } }) ∧
    (∀ r, tabGet none s.xlt.pri (priKey f i) = some r → r.pasid = p → ctxBound s f p = true → r.late = false →
      (code = 0 → ∃ t, exec (.prgResponse f p i code) s = .next t ∧ tabGet none t.xlt.pri (priKey f i) = none ∧
        (∀ id a, getAcc s id = some a → a.st = .fault (priKey f i) →
          getAcc t id = some { a with st := .ready, asked := true, frame := none }) ∧
        t = { s with xlt := t.xlt, acc := t.acc, accNext := t.accNext, tasks := t.tasks }) ∧
      (code = 1 → ∃ t, exec (.prgResponse f p i code) s = .next t ∧ tabGet none t.xlt.pri (priKey f i) = none ∧
        (∀ id a, getAcc s id = some a → a.st = .fault (priKey f i) → getAcc t id = none) ∧ t.xlt.stopped = s.xlt.stopped) ∧
      (1 < code → f ≤ 64 → ∃ t, exec (.prgResponse f p i code) s = .next t ∧ t.xlt.stopped.getLsbD f = true ∧
        tabGet none t.xlt.pri (priKey f i) = none ∧ (∀ g, g ≠ f → t.xlt.stopped.getLsbD g = s.xlt.stopped.getLsbD g)))) ∧
  (∀ (s : State) (f i : Nat) (r : PageReq), i < 512 → tabGet none s.xlt.pri (priKey f i) = some r → r.late = false →
    s.xlt.timeout ≤ r.ticks →
    ∃ t, exec (.pageRequestTimeout f i) s = .next t ∧ tabGet none t.xlt.pri (priKey f i) = some { r with late := true } ∧
      (∀ k, k ≠ priKey f i → tabGet none t.xlt.pri k = tabGet none s.xlt.pri k) ∧
      (∀ id a, getAcc s id = some a → a.st = .fault (priKey f i) → getAcc t id = none)) ∧
  (∀ (s : State) (f : Nat), inert s = false → exec (.pageRequestInterfaceReset f) s = .next { s with
    xlt := { s.xlt with stopped := setBit s.xlt.stopped f false } })

/-- On a running device, for a privileged writer: BIND of staged fields that meet R360 makes them the binding of the
index, and UNBIND makes it not valid, with QS_OK in the peer status. Out of reset and not Stopped: a fabric request
that no valid binding names, or that its binding or the gate refuses by generation, plot or permission, is answered
with status 2; any other is not answered yet, and changes only the calendar's stores and its clearing's counters. A
fabric answer of a free tag changes nothing, of a quarantined one frees the tag, and of a core's request frees it
and answers that core, or, where its context is no longer of the request's generation, discards it unanswered. A
core's request from a core that holds no job is answered with status 2; so is one that the gate refuses; one that
the gate lets into a local store is outstanding, or is not taken and the stores stay as they are, and one to another
chip with a tag free leaves on the fabric port. (R335, R354, R357, R359, R360, R361, R381, R456) -/
def Obligations.PeersFabricAndCoreRequests : Prop :=
  (∀ (s : State) (q : Requester) (w : Word), reachesGlobal s q → noBits w (bitsFrom 10 15 ||| bitsFrom 20 63) = true →
    (noBits s.xlt.stage0 (bitsFrom 10 15 ||| bitsFrom 28 31 ||| bitsFrom 49 63) = true →
      noBits s.xlt.stage1 (bitsFrom 12 15 ||| bitsFrom 29 31 ||| bitsFrom 45 63) = true →
      (stagedBinding s).srcChip ≠ s.boot.chip → (stagedBinding s).srcGen ≠ 0 → (getCtx s (stagedBinding s).ctx).st = .live →
      (stagedBinding s).count ≠ 0 →
      (∃ n, ctxOwner s (stagedBinding s).ctx = some n ∧ ∀ p, p < (stagedBinding s).count → ownPlot s n (p + (stagedBinding s).plot) = true) →
      (∀ kv ∈ s.xlt.bindings, kv.1 ≠ field w 0 10 → kv.2.valid = true → kv.2.srcChip = (stagedBinding s).srcChip →
        kv.2.srcCtx ≠ (stagedBinding s).srcCtx) →
      ∃ t, exec (.peerBind q w) s = .next t ∧ t.glob.code = qsOk ∧ t.xlt.peerCode = qsOk ∧ t.xlt.peerIndex = field w 0 10 ∧
        tabGet binding0 t.xlt.bindings (field w 0 10) = stagedBinding s ∧
        (∀ i, i ≠ field w 0 10 → tabGet binding0 t.xlt.bindings i = tabGet binding0 s.xlt.bindings i) ∧
        t = { s with xlt := t.xlt, glob := t.glob }) ∧
    (∃ t, exec (.peerUnbind q w) s = .next t ∧ t.glob.code = qsOk ∧ t.xlt.peerCode = qsOk ∧
      tabGet binding0 t.xlt.bindings (field w 0 10) = { tabGet binding0 s.xlt.bindings (field w 0 10) with valid := false } ∧
      (∀ i, i ≠ field w 0 10 → tabGet binding0 t.xlt.bindings i = tabGet binding0 s.xlt.bindings i) ∧
      t = { s with xlt := t.xlt, glob := t.glob })) ∧
  (∀ (s : State) (r : FabricReq), inert s = false →
    ((s.xlt.bindings.find? fun kv => kv.2.valid && kv.2.srcChip == r.chip && kv.2.srcCtx == r.ctx) = none →
      ∃ t, exec (.fabricInboundRequest r) s = .next t ∧ t.out = .fabricResp r.tag 2 [] :: s.out ∧ t.cal = s.cal ∧
        t = { s with out := t.out, err := t.err, rings := t.rings }) ∧
    (∀ i b, (s.xlt.bindings.find? fun kv => kv.2.valid && kv.2.srcChip == r.chip && kv.2.srcCtx == r.ctx) = some (i, b) →
      (b.srcGen ≠ r.gen ∨ bindingStale s b = true ∨ inRange b.plot b.count (r.addr / 2 ^ 28) = false ∨ (r.write = true ∧ b.write = false) ∨
          gate s r.write r.addr b.ctx b.gen = false →
        ∃ t, exec (.fabricInboundRequest r) s = .next t ∧ t.out = .fabricResp r.tag 2 [] :: s.out ∧ t.cal = s.cal ∧
          t = { s with out := t.out, err := t.err, rings := t.rings, xwin := t.xwin }) ∧
      (b.srcGen = r.gen → bindingStale s b = false → inRange b.plot b.count (r.addr / 2 ^ 28) = true →
        (r.write = true → b.write = true) → gate s r.write r.addr b.ctx b.gen = true → (∃ n, ctxOwner s b.ctx = some n) →
        ∃ t, exec (.fabricInboundRequest r) s = .next t ∧ t.out = s.out ∧ t = { s with cal := t.cal, clr := t.clr }))) ∧
  (∀ (s : State) (i st : Nat) (bs : List Byte),
    (tabGet none s.xlt.fabOut i = none → exec (.fabricResponse i st bs) s = .next s) ∧
    (∀ o, inert s = false → tabGet none s.xlt.fabOut i = some o → o.acc = none →
      (o.core = none → ∃ t, exec (.fabricResponse i st bs) s = .next t ∧ tabGet none t.xlt.fabOut i = none ∧ t = { s with xlt := t.xlt }) ∧
      (∀ c tag, o.core = some (c, tag) → genOk s o.ctx o.gen = false →
        ∃ t, exec (.fabricResponse i st bs) s = .next t ∧ tabGet none t.xlt.fabOut i = none ∧ t.out = s.out ∧
          (∀ r ∈ (getCore t c).reqs, r.1 ≠ tag) ∧ (∀ d, d ≠ c → getCore t d = getCore s d)) ∧
      (∀ c tag, o.core = some (c, tag) → coreFailed s c = false → genOk s o.ctx o.gen = true →
        ∃ t, exec (.fabricResponse i st bs) s = .next t ∧ tabGet none t.xlt.fabOut i = none ∧
          t.out = .coreResp c tag (min st 2) (if 2 ≤ st then zeroBytes 256 else if o.write then [] else bs) :: s.out ∧
          (∀ r ∈ (getCore t c).reqs, r.1 ≠ tag) ∧ (∀ d, d ≠ c → getCore t d = getCore s d)))) ∧
  (∀ (s : State) (c : Nat) (r : CoreReq), inert s = false → c < 128 → coreFailed s c = false →
    ((getCore s c).job = none →
      ∃ t, exec (.coreMemoryRequest c r) s = .next t ∧ t.out = .coreResp c r.tag 2 (zeroBytes 256) :: s.out ∧
        getCore t c = { getCore s c with drained := r.drained } ∧ t = { s with sch := t.sch, out := t.out }) ∧
    (∀ j x, (getCore s c).job = some j → getJob s j = some x → c ∈ x.held →
      (∀ a, placeOf s r.addr = .plot a →
        (gate s r.write a x.ctx x.gen = false →
          ∃ t, exec (.coreMemoryRequest c r) s = .next t ∧ t.out = .coreResp c r.tag 2 (zeroBytes 256) :: s.out ∧ t.cal = s.cal) ∧
        (gate s r.write a x.ctx x.gen = true →
          ∃ t, exec (.coreMemoryRequest c r) s = .next t ∧ t.out = s.out ∧
            ((getCore t c).reqs = (getCore s c).reqs ++ [(r.tag, r.write)] ∨ ((getCore t c).reqs = (getCore s c).reqs ∧ t.cal = s.cal)))) ∧
      (∀ chip a g, placeOf s r.addr = .remote chip a → genOk s x.ctx x.gen = true → freeFabTag s = some g →
        ∃ t, exec (.coreMemoryRequest c r) s = .next t ∧ (getCore t c).reqs = (getCore s c).reqs ++ [(r.tag, r.write)] ∧
          t.out = .fabricReq chip a r.write x.ctx x.gen (r.cls % 8) g (if r.write then r.data else []) r.be :: s.out ∧
          tabGet none t.xlt.fabOut g = some ⟨some (c, r.tag), none, x.ctx, x.gen, x.n, r.write, r.addr⟩ ∧ t.cal = s.cal)))

/-- On a running device with no key command or exchange busy, for a privileged writer and legal fields: WRITE whose
attributes and slot pass R393 stores the staged key, attributes and tag with the next generation; ERASE empties the
slot; both with QS_OK. ENROL in Raw with a flash, SETPASS in Provisioned or Deployed, CHALLENGE, and LC_ADVANCE
along a legal transition that needs no authorisation with every clearing shut, are busy with their message to the
RoT. DBG_AUTH and DBG_PASS, not locked out and with every clearing shut, open debug access where the authorisation
or passphrase is valid, and else count one failure. DBG_CLOSE closes it. Other slots stay as they are. (R386, R389,
R391, R392, R393, R413, R414, R415, R416, R417, R418, R419) -/
def Obligations.KeyCommandsActOnSlotsAndDebugAccess : Prop :=
  ∀ (s : State) (q : Requester) (w : Word), reachesGlobal s q →
    noBits w (bitsFrom 4 7 ||| bitsFrom 18 23 ||| bitsFrom 32 63) = true → s.key.busy = false → (getXch s 64).busy = false →
    (field w 24 8 = 0 →
      (firstBad (slotChecks s (field w 8 10) (some s.key.stageAttr)) = none →
        ∃ t, exec (.keyWrite q w) s = .next t ∧ t.glob.code = qsOk ∧ t.key.code = qsOk ∧ t.key.done = true ∧
          getSlot t (field w 8 10) = ⟨s.key.stage.flatMap fun x => leBytes 8 x.toNat, s.key.stageAttr,
            nextGen (getSlot s (field w 8 10)).gen, slotTag s (field w 8 10) (nextGen (getSlot s (field w 8 10)).gen) s.key.stageAttr
              (s.key.stage.flatMap fun x => leBytes 8 x.toNat), false⟩ ∧
          (∀ k, k ≠ field w 8 10 → getSlot t k = getSlot s k) ∧ t = { s with key := t.key, glob := t.glob }) ∧
      (firstBad (slotChecks s (field w 8 10) none) = none →
        ∃ t, exec (.keyErase q w) s = .next t ∧ t.glob.code = qsOk ∧ t.key.code = qsOk ∧
          getSlot t (field w 8 10) = { keySlot0 with gen := nextGen (getSlot s (field w 8 10)).gen } ∧
          (∀ k, k ≠ field w 8 10 → getSlot t k = getSlot s k) ∧ t = { s with key := t.key, glob := t.glob })) ∧
    (field w 8 10 = 0 →
      (field w 24 8 = 0 → s.boot.lc = 0 → s.boot.flashPresent = true →
        ∃ t, exec (.keyEnrol q w) s = .next t ∧ t.key.busy = true ∧ t.key.done = false ∧
          ((getRot s 64).out = none → t.out = .rotMsg 6 (getRot s 64).seq 0xFFFF (leBytes 2 64) :: s.out) ∧
          (∀ k, getSlot t k = getSlot s k) ∧ t = { s with key := t.key, glob := t.glob, out := t.out }) ∧
      (16 ≤ field w 24 8 → field w 24 8 ≤ 64 → s.boot.lc = 1 ∨ s.boot.lc = 2 →
        ∃ t, exec (.keySetpass q w) s = .next t ∧ t.key.busy = true ∧ t.key.done = false ∧
          ((getRot s 64).out = none → t.out = .rotMsg 6 (getRot s 64).seq 0xFFFF (leBytes 2 16) :: s.out) ∧
          (∀ k, getSlot t k = getSlot s k) ∧ t = { s with key := t.key, glob := t.glob, out := t.out }) ∧
      (1 ≤ field w 24 8 → field w 24 8 ≤ 4 → s.boot.rootAbsent = false → lcLegal s.boot.lc (field w 24 8) = true →
        clearingsShut s = true → lcNeedsAuth s.boot.lc (field w 24 8) = false →
        ∃ t, exec (.keyLcAdvance q w) s = .next t ∧ t.key.busy = true ∧ t.key.nonceLc = none ∧
          ((getRot s 64).out = none →
            t.out = .rotMsg 3 (getRot s 64).seq 0xFFFF (leBytes 1 (field w 24 8) ++ zeroBytes 3) :: s.out) ∧
          (∀ k, getSlot t k = getSlot s k) ∧ t = { s with key := t.key, glob := t.glob, out := t.out }) ∧
      (field w 24 8 = 1 ∨ field w 24 8 = 2 →
        ∃ t, exec (.keyChallenge q w) s = .next t ∧ t.key.busy = true ∧
          ((getRot s 64).out = none → t.out = .rotMsg 6 (getRot s 64).seq 0xFFFF (leBytes 2 32) :: s.out) ∧
          (∀ k, getSlot t k = getSlot s k) ∧ t = { s with key := t.key, glob := t.glob, out := t.out }) ∧
      (field w 24 8 = 0 → s.key.lockedOut = false → clearingsShut s = true →
        ∃ t, exec (.keyDbgAuth q w) s = .next t ∧ t.key.nonceDebug = none ∧
          (authValid s 1 0 s.key.nonceDebug (xchBytes s 64 192) = true →
            t.key.code = qsOk ∧ t.key.debugOpen = true ∧ t.key.tainted = true ∧ ∀ k, k < 1024 → (getSlot t k).key = keySlot0.key) ∧
          (authValid s 1 0 s.key.nonceDebug (xchBytes s 64 192) = false →
            t.key.code = qsKeyDebugAuth ∧ t.key.failures = min 8 (s.key.failures + 1) ∧ t.key.debugOpen = s.key.debugOpen ∧
            ∀ k, getSlot t k = getSlot s k) ∧
          t = { s with key := t.key, glob := t.glob, out := t.out, err := t.err, rings := t.rings }) ∧
      (16 ≤ field w 24 8 → field w 24 8 ≤ 64 → s.key.lockedOut = false → s.boot.lc ≠ 3 → clearingsShut s = true →
        ∃ t, exec (.keyDbgPass q w) s = .next t ∧
          (∀ salt ver, s.boot.pass = some (salt, ver) → passVerifier s salt (xchBytes s 64 (field w 24 8)) = ver →
            t.key.code = qsOk ∧ t.key.debugOpen = true ∧ ∀ k, k < 1024 → (getSlot t k).key = keySlot0.key) ∧
          (s.boot.pass = none ∨ (∃ salt ver, s.boot.pass = some (salt, ver) ∧ passVerifier s salt (xchBytes s 64 (field w 24 8)) ≠ ver) →
            t.key.code = qsKeyDebugAuth ∧ t.key.failures = min 8 (s.key.failures + 1) ∧ t.key.debugOpen = s.key.debugOpen ∧
            ∀ k, getSlot t k = getSlot s k) ∧
          t = { s with key := t.key, glob := t.glob, out := t.out, err := t.err, rings := t.rings }) ∧
      (field w 24 8 = 0 →
        ∃ t, exec (.keyDbgClose q w) s = .next t ∧ t.glob.code = qsOk ∧ t.key.debugOpen = false ∧ (∀ k, getSlot t k = getSlot s k) ∧
          t = { s with key := t.key, glob := t.glob }))

/-- On a running device with a root, for a requester that reaches the exchange (global, or a defined clearing's), no
exchange busy, a legal length and no reserved bit: SPDM, and UNWRAP of 272 bytes for a slot of the clearing with no
old generation held, are busy, and their message leaves where none is outstanding for the origin. Out of reset and
not Stopped: ROT_REPLY to the message outstanding with its type, sequence and origin (0 to 63, or 0xFFFF) ends the
exchange with its status; one that matches none changes nothing. ROT_TIMEOUT sets rot_fault and ends the exchange
with QS_KEY_ROT_TIMEOUT. ROT_KEY_RELEASE for a slot whose UNWRAP is outstanding and that passes R403's checks stores
the key; for another it is answered QS_KEY_UNSOLICITED. ROT_LC_CHANGE in reset and in phase 2 changes nothing, in
phase 1 holds a record, and on a running device brings one to the global ring. (R387, R401, R402, R403, R406, R407,
R408, R419, R420) -/
def Obligations.ExchangesWithTheRootOfTrust : Prop :=
  (∀ (s : State) (q : Requester) (n : Option Nat) (w : Word),
    (n = none ∧ reachesGlobal s q ∧ s.key.busy = false) ∨ (∃ m, n = some m ∧ reachesOwn s q m ∧ (getClr s m).st ≠ .absent) →
    noBits w (bitsFrom 4 15 ||| bitsFrom 29 31 ||| bitsFrom 42 63) = true → 1 ≤ field w 16 13 → field w 16 13 ≤ 4096 →
    (getXch s (n.getD 64)).busy = false → s.boot.rootAbsent = false →
    (field w 32 10 = 0 →
      ∃ t, exec (.keySpdm q n w) s = .next t ∧ (getXch t (n.getD 64)).busy = true ∧ (getXch t (n.getD 64)).done = false ∧
        (getXch t (n.getD 64)).code = qsOk ∧
        ((getRot s (n.getD 64)).out = none → t.out = .rotMsg 1 (getRot s (n.getD 64)).seq (n.getD 0xFFFF)
          (xchBytes s (n.getD 64) (field w 16 13)) :: s.out) ∧
        (∀ k, getSlot t k = getSlot s k) ∧ t = { s with key := t.key, out := t.out, glob := t.glob, win := t.win }) ∧
    (∀ m, n = some m → m < 64 → keyOwner s (field w 32 10) = some m → field w 16 13 = 272 → oldHeld s (field w 32 10) = false →
      ∃ t, exec (.keyUnwrap q m w) s = .next t ∧ (getXch t m).busy = true ∧ (getXch t m).code = qsOk ∧ (getWin t m).code = qsOk ∧
        ((getRot s m).out = none → t.out = .rotMsg 2 (getRot s m).seq m (leBytes 2 (field w 32 10) ++ xchBytes s m 272) :: s.out) ∧
        (∀ k, getSlot t k = getSlot s k) ∧ t = { s with key := t.key, out := t.out, win := t.win })) ∧
  (∀ (s : State) (m : RotMsg) (o sq : Nat) (r : RotReq), inert s = false → m.origin < 64 ∨ m.origin = 0xFFFF → o = (if m.origin = 0xFFFF then 64 else m.origin) →
    (getRot s o).out = some (sq, r) → r.use = .spdm ∨ (∃ k, r.use = .unwrap k) →
    (m.type = rotType r.use + 128 → m.seq = sq →
      ∃ t, exec (.rotReply m) s = .next t ∧ (getXch t o).busy = false ∧ (getXch t o).done = true ∧ (getXch t o).code = m.status ∧
        (r.use = .spdm → (getXch t o).rspLen = min m.payload.length 4096) ∧
        ((getRot s o).queue = [] → (getRot t o).out = none) ∧ (∀ k, getSlot t k = getSlot s k) ∧
        t = { s with key := t.key, out := t.out }) ∧
    (1 ≤ m.type % 128 → m.type % 128 ≤ 6 → m.type ≠ rotType r.use + 128 ∨ m.seq ≠ sq → exec (.rotReply m) s = .next s)) ∧
  (∀ (s : State) (m : RotMsg), 64 ≤ m.origin → m.origin ≠ 0xFFFF → 1 ≤ m.type % 128 → m.type % 128 ≤ 6 →
    exec (.rotReply m) s = .next s) ∧
  (∀ (s : State) (o sq : Nat) (r : RotReq), o ≤ 64 → (getRot s o).out = some (sq, r) →
    ∃ t, exec (.rotTimeout o) s = .next t ∧ t.key.rotFault = true ∧
      (r.use = .spdm ∨ (∃ k, r.use = .unwrap k) → (getXch t o).busy = false ∧ (getXch t o).code = qsKeyRotTimeout) ∧
      ((getRot s o).queue = [] → (getRot t o).out = none) ∧ t = { s with key := t.key, out := t.out }) ∧
  (∀ (s : State) (k : Nat) (key : List Byte) (a : BitVec 32), inert s = false → key.length = 32 →
    (unwrapOut s k = false → exec (.rotKeyRelease k key a) s = .next { s with out := .rotKeyDone qsKeyUnsolicited :: s.out }) ∧
    (unwrapOut s k = true → keyAttrOk s k a = true → oldHeld s k = false →
      ∃ t, exec (.rotKeyRelease k key a) s = .next t ∧ t.out = .rotKeyDone qsOk :: s.out ∧ (getSlot t k).key = key ∧
        (getSlot t k).attr = (a ||| 0x10) ∧ (getSlot t k).gen = nextGen (getSlot s k).gen ∧
        (∀ j, j ≠ k → getSlot t j = getSlot s j) ∧ t = { s with key := t.key, out := t.out })) ∧
  (∀ (s : State) (lc : BitVec 3),
    (s.boot.phase = .reset ∨ s.boot.phase = .root → exec (.rotLcChange lc) s = .next s) ∧
    (s.boot.phase = .rom → exec (.rotLcChange lc) s = .next (holdRec s (newRec s qsErrRotEvent 1 11 0 2 lc.toNat 0))) ∧
    (s.boot.phase = .running → ∃ t, exec (.rotLcChange lc) s = .next t ∧
      (getRing t 64).arrivals = insertRec (newRec s qsErrRotEvent 1 11 0 2 lc.toNat 0) (getRing s 64).arrivals ∧
      (∀ k, k ≠ 64 → getRing t k = getRing s k) ∧ t = { s with rings := t.rings }))

/-- On a running device a privileged write of TRL_BARCFG(n), with no reserved bit set, changes nothing but the global
status register in each of these cases: clearing n is Absent, with QS_CLR_ABSENT; it is not, and valid is 1 with
members outside 1 to 16 or lead outside 500 to 8,000 ns (their ranges in the register's table), with
QS_ILLEGAL_VALUE; neither holds and the clearing's barrier is waiting, with QS_TRL_BAR_BUSY. (R520) -/
def Obligations.BarrierConfigurationsAreRefused : Prop :=
  ∀ (s : State) (q : Requester) (n : Nat) (w : Word), reachesGlobal s q → noBits w (bitsFrom 22 31 ||| bitsFrom 45 63) = true →
    ((getClr s n).st = .absent → exec (.trlBarcfgWrite q n w) s = .next (recordStatus s none q qsClrAbsent)) ∧
    ((getClr s n).st ≠ .absent → wbit w 21 = true →
      field w 16 5 < 1 ∨ 16 < field w 16 5 ∨ field w 32 13 < 500 ∨ 8000 < field w 32 13 →
      exec (.trlBarcfgWrite q n w) s = .next (recordStatus s none q qsIllegalValue)) ∧
    ((getClr s n).st ≠ .absent → (getBar s n).waiting = true →
      wbit w 21 = false ∨ (1 ≤ field w 16 5 ∧ field w 16 5 ≤ 16 ∧ 500 ≤ field w 32 13 ∧ field w 32 13 ≤ 8000) →
      exec (.trlBarcfgWrite q n w) s = .next (recordStatus s none q qsTrlBarBusy))

/-- On a running device, for a requester that reaches window n: a write to SCH_WACCT with no reserved bit set, with
enable = 1 and depth_log2 outside 4 to 20, or with a byte of the ring (64 bytes for each of its 2^depth_log2
records, from its base on) outside the clearing's own plots or in commons plots, is refused with QS_SCH_ACCT_RANGE
and changes nothing but the window's status; any other sets the register and head and tail to 0. A write of
SCH_WACCTPTR whose head lies further ahead of the present head than tail does, modulo 2^32 (so back, or past tail),
is refused with QS_SCH_ACCT_RANGE. (R348) -/
def Obligations.AccountingRingsStayInTheirPlots : Prop :=
  ∀ (s : State) (q : Requester) (n : Nat) (w : Word), reachesOwn s q n →
    (noBits w (bitsFrom 6 11 ||| bitsFrom 41 63) = true →
      (wbit w 0 = true →
        field w 1 5 < 4 ∨ 20 < field w 1 5 ∨
          (∃ a, field w 12 29 * 4096 ≤ a ∧ a < field w 12 29 * 4096 + 64 * 2 ^ field w 1 5 ∧ ownPlot s n (a / 2 ^ 28) = false) →
        exec (.schWacctWrite q n false w) s = .next (recordStatus s (some n) q qsSchAcctRange)) ∧
      (wbit w 0 = false ∨ (4 ≤ field w 1 5 ∧ field w 1 5 ≤ 20 ∧
          (∀ a, field w 12 29 * 4096 ≤ a → a < field w 12 29 * 4096 + 64 * 2 ^ field w 1 5 → ownPlot s n (a / 2 ^ 28) = true)) →
        ∃ t, exec (.schWacctWrite q n false w) s = .next t ∧ (getWin t n).code = qsOk ∧
          (getSwin t n).acct = w ∧ (getSwin t n).head = 0 ∧ (getSwin t n).tail = 0)) ∧
    (u32sub (getSwin s n).tail (getSwin s n).head < u32sub (field w 0 32) (getSwin s n).head →
      exec (.schWacctWrite q n true w) s = .next (recordStatus s (some n) q qsSchAcctRange))

/-- Where mailboxes are served (running, or Bare): a read of MBX_LOCK that finds the lock free answers 0 and makes the
reader the holder, and every read after it answers that holder's number and changes nothing, the holder's own too;
so does a read of a held lock. For words without reserved bits: a release by the holder, and a break by privileged
software, leave the lock free and the message words and all else of the mailbox as they were; a release by any other
requester, of a free lock too, is refused with QS_MBX_NOT_LOCKER; release and break together with QS_ILLEGAL_VALUE;
a break by unprivileged software with QS_NOT_OWNER. A refusal changes only the writer's status. (R424, R425) -/
def Obligations.MailboxLocksAreTakenReleasedAndBroken : Prop :=
  ∀ (s : State) (q : Requester) (m : Nat) (w : Word), s.boot.phase = .running ∨ s.boot.phase = .bare → q ≠ 0 →
    ((getMbx s m).holder = 0 →
      ∃ t, exec (.mbxLockAcquire q m) s = .next t ∧ t.out = .regRead 0 :: s.out ∧ getMbx t m = { getMbx s m with holder := q } ∧
        (∀ k, k ≠ m → getMbx t k = getMbx s k) ∧ t = { s with mbx := t.mbx, out := t.out } ∧
        (∀ r, exec (.mbxLockAcquire r m) t = .next { t with out := .regRead (word q.toNat) :: t.out })) ∧
    ((getMbx s m).holder ≠ 0 →
      exec (.mbxLockAcquire q m) s = .next { s with out := .regRead (word (getMbx s m).holder.toNat) :: s.out }) ∧
    (noBits w (bitsFrom 2 63) = true →
      (wbit w 1 = true → exec (.mbxRelease q m w) s = .next (recordStatus s (tenantOf q) q qsIllegalValue)) ∧
      (wbit w 0 = true → exec (.mbxBreak q m w) s = .next (recordStatus s (tenantOf q) q qsIllegalValue)) ∧
      (wbit w 1 = false → (getMbx s m).holder ≠ q →
        exec (.mbxRelease q m w) s = .next (recordStatus s (tenantOf q) q qsMbxNotLocker)) ∧
      (wbit w 0 = false → privileged s q = false → exec (.mbxBreak q m w) s = .next (recordStatus s (tenantOf q) q qsNotOwner)) ∧
      (∀ c, (c = .mbxRelease q m w ∧ wbit w 1 = false ∧ (getMbx s m).holder = q) ∨
          (c = .mbxBreak q m w ∧ wbit w 0 = false ∧ privileged s q = true) →
        ∃ t, exec c s = .next t ∧ getMbx t m = { getMbx s m with holder := 0 } ∧
          (∀ k, k ≠ m → getMbx t k = getMbx s k) ∧ t = { s with mbx := t.mbx, win := t.win, glob := t.glob }))
end

