-- ==== Sys2Proof/Laws/State.lean ====
section
/-! SUPPORT. What each named update of the state leaves as it was: one lemma for each other field of `State`, true by
unfolding, so that no later proof unfolds a record update. -/

namespace Sys2Proof.Machine

@[simp] theorem setClr_clk (s : State) (n : Nat) (c : Clearing) : (setClr s n c).clk = s.clk := rfl
@[simp] theorem setClr_boot (s : State) (n : Nat) (c : Clearing) : (setClr s n c).boot = s.boot := rfl
@[simp] theorem setClr_img (s : State) (n : Nat) (c : Clearing) : (setClr s n c).img = s.img := rfl
@[simp] theorem setClr_glob (s : State) (n : Nat) (c : Clearing) : (setClr s n c).glob = s.glob := rfl
@[simp] theorem setClr_win (s : State) (n : Nat) (c : Clearing) : (setClr s n c).win = s.win := rfl
@[simp] theorem setClr_ctx (s : State) (n : Nat) (c : Clearing) : (setClr s n c).ctx = s.ctx := rfl
@[simp] theorem setClr_cal (s : State) (n : Nat) (c : Clearing) : (setClr s n c).cal = s.cal := rfl
@[simp] theorem setClr_err (s : State) (n : Nat) (c : Clearing) : (setClr s n c).err = s.err := rfl
@[simp] theorem setClr_rings (s : State) (n : Nat) (c : Clearing) : (setClr s n c).rings = s.rings := rfl
@[simp] theorem setClr_que (s : State) (n : Nat) (c : Clearing) : (setClr s n c).que = s.que := rfl
@[simp] theorem setClr_queues (s : State) (n : Nat) (c : Clearing) : (setClr s n c).queues = s.queues := rfl
@[simp] theorem setClr_tasks (s : State) (n : Nat) (c : Clearing) : (setClr s n c).tasks = s.tasks := rfl
@[simp] theorem setClr_acc (s : State) (n : Nat) (c : Clearing) : (setClr s n c).acc = s.acc := rfl
@[simp] theorem setClr_accNext (s : State) (n : Nat) (c : Clearing) : (setClr s n c).accNext = s.accNext := rfl
@[simp] theorem setClr_xlt (s : State) (n : Nat) (c : Clearing) : (setClr s n c).xlt = s.xlt := rfl
@[simp] theorem setClr_tbl (s : State) (n : Nat) (c : Clearing) : (setClr s n c).tbl = s.tbl := rfl
@[simp] theorem setClr_sch (s : State) (n : Nat) (c : Clearing) : (setClr s n c).sch = s.sch := rfl
@[simp] theorem setClr_pwr (s : State) (n : Nat) (c : Clearing) : (setClr s n c).pwr = s.pwr := rfl
@[simp] theorem setClr_mbx (s : State) (n : Nat) (c : Clearing) : (setClr s n c).mbx = s.mbx := rfl
@[simp] theorem setClr_key (s : State) (n : Nat) (c : Clearing) : (setClr s n c).key = s.key := rfl
@[simp] theorem setClr_tap (s : State) (n : Nat) (c : Clearing) : (setClr s n c).tap = s.tap := rfl
@[simp] theorem setClr_trl (s : State) (n : Nat) (c : Clearing) : (setClr s n c).trl = s.trl := rfl
@[simp] theorem setClr_ls (s : State) (n : Nat) (c : Clearing) : (setClr s n c).ls = s.ls := rfl
@[simp] theorem setClr_bar (s : State) (n : Nat) (c : Clearing) : (setClr s n c).bar = s.bar := rfl
@[simp] theorem setClr_det (s : State) (n : Nat) (c : Clearing) : (setClr s n c).det = s.det := rfl
@[simp] theorem setClr_qwin (s : State) (n : Nat) (c : Clearing) : (setClr s n c).qwin = s.qwin := rfl
@[simp] theorem setClr_xwin (s : State) (n : Nat) (c : Clearing) : (setClr s n c).xwin = s.xwin := rfl
@[simp] theorem setClr_gwin (s : State) (n : Nat) (c : Clearing) : (setClr s n c).gwin = s.gwin := rfl
@[simp] theorem setClr_twin (s : State) (n : Nat) (c : Clearing) : (setClr s n c).twin = s.twin := rfl
@[simp] theorem setClr_swin (s : State) (n : Nat) (c : Clearing) : (setClr s n c).swin = s.swin := rfl
@[simp] theorem setClr_pwin (s : State) (n : Nat) (c : Clearing) : (setClr s n c).pwin = s.pwin := rfl
@[simp] theorem setClr_cc (s : State) (n : Nat) (c : Clearing) : (setClr s n c).cc = s.cc := rfl
@[simp] theorem setClr_out (s : State) (n : Nat) (c : Clearing) : (setClr s n c).out = s.out := rfl
@[simp] theorem setClr_pending (s : State) (n : Nat) (c : Clearing) : (setClr s n c).pending = s.pending := rfl

@[simp] theorem updClr_clk (s : State) (n : Nat) (f : Clearing → Clearing) : (updClr s n f).clk = s.clk := rfl
@[simp] theorem updClr_boot (s : State) (n : Nat) (f : Clearing → Clearing) : (updClr s n f).boot = s.boot := rfl
@[simp] theorem updClr_img (s : State) (n : Nat) (f : Clearing → Clearing) : (updClr s n f).img = s.img := rfl
@[simp] theorem updClr_glob (s : State) (n : Nat) (f : Clearing → Clearing) : (updClr s n f).glob = s.glob := rfl
@[simp] theorem updClr_win (s : State) (n : Nat) (f : Clearing → Clearing) : (updClr s n f).win = s.win := rfl
@[simp] theorem updClr_ctx (s : State) (n : Nat) (f : Clearing → Clearing) : (updClr s n f).ctx = s.ctx := rfl
@[simp] theorem updClr_cal (s : State) (n : Nat) (f : Clearing → Clearing) : (updClr s n f).cal = s.cal := rfl
@[simp] theorem updClr_err (s : State) (n : Nat) (f : Clearing → Clearing) : (updClr s n f).err = s.err := rfl
@[simp] theorem updClr_rings (s : State) (n : Nat) (f : Clearing → Clearing) : (updClr s n f).rings = s.rings := rfl
@[simp] theorem updClr_que (s : State) (n : Nat) (f : Clearing → Clearing) : (updClr s n f).que = s.que := rfl
@[simp] theorem updClr_queues (s : State) (n : Nat) (f : Clearing → Clearing) : (updClr s n f).queues = s.queues := rfl
@[simp] theorem updClr_tasks (s : State) (n : Nat) (f : Clearing → Clearing) : (updClr s n f).tasks = s.tasks := rfl
@[simp] theorem updClr_acc (s : State) (n : Nat) (f : Clearing → Clearing) : (updClr s n f).acc = s.acc := rfl
@[simp] theorem updClr_accNext (s : State) (n : Nat) (f : Clearing → Clearing) : (updClr s n f).accNext = s.accNext := rfl
@[simp] theorem updClr_xlt (s : State) (n : Nat) (f : Clearing → Clearing) : (updClr s n f).xlt = s.xlt := rfl
@[simp] theorem updClr_tbl (s : State) (n : Nat) (f : Clearing → Clearing) : (updClr s n f).tbl = s.tbl := rfl
@[simp] theorem updClr_sch (s : State) (n : Nat) (f : Clearing → Clearing) : (updClr s n f).sch = s.sch := rfl
@[simp] theorem updClr_pwr (s : State) (n : Nat) (f : Clearing → Clearing) : (updClr s n f).pwr = s.pwr := rfl
@[simp] theorem updClr_mbx (s : State) (n : Nat) (f : Clearing → Clearing) : (updClr s n f).mbx = s.mbx := rfl
@[simp] theorem updClr_key (s : State) (n : Nat) (f : Clearing → Clearing) : (updClr s n f).key = s.key := rfl
@[simp] theorem updClr_tap (s : State) (n : Nat) (f : Clearing → Clearing) : (updClr s n f).tap = s.tap := rfl
@[simp] theorem updClr_trl (s : State) (n : Nat) (f : Clearing → Clearing) : (updClr s n f).trl = s.trl := rfl
@[simp] theorem updClr_ls (s : State) (n : Nat) (f : Clearing → Clearing) : (updClr s n f).ls = s.ls := rfl
@[simp] theorem updClr_bar (s : State) (n : Nat) (f : Clearing → Clearing) : (updClr s n f).bar = s.bar := rfl
@[simp] theorem updClr_det (s : State) (n : Nat) (f : Clearing → Clearing) : (updClr s n f).det = s.det := rfl
@[simp] theorem updClr_qwin (s : State) (n : Nat) (f : Clearing → Clearing) : (updClr s n f).qwin = s.qwin := rfl
@[simp] theorem updClr_xwin (s : State) (n : Nat) (f : Clearing → Clearing) : (updClr s n f).xwin = s.xwin := rfl
@[simp] theorem updClr_gwin (s : State) (n : Nat) (f : Clearing → Clearing) : (updClr s n f).gwin = s.gwin := rfl
@[simp] theorem updClr_twin (s : State) (n : Nat) (f : Clearing → Clearing) : (updClr s n f).twin = s.twin := rfl
@[simp] theorem updClr_swin (s : State) (n : Nat) (f : Clearing → Clearing) : (updClr s n f).swin = s.swin := rfl
@[simp] theorem updClr_pwin (s : State) (n : Nat) (f : Clearing → Clearing) : (updClr s n f).pwin = s.pwin := rfl
@[simp] theorem updClr_cc (s : State) (n : Nat) (f : Clearing → Clearing) : (updClr s n f).cc = s.cc := rfl
@[simp] theorem updClr_out (s : State) (n : Nat) (f : Clearing → Clearing) : (updClr s n f).out = s.out := rfl
@[simp] theorem updClr_pending (s : State) (n : Nat) (f : Clearing → Clearing) : (updClr s n f).pending = s.pending := rfl

@[simp] theorem updWin_clk (s : State) (n : Nat) (f : Window → Window) : (updWin s n f).clk = s.clk := rfl
@[simp] theorem updWin_boot (s : State) (n : Nat) (f : Window → Window) : (updWin s n f).boot = s.boot := rfl
@[simp] theorem updWin_img (s : State) (n : Nat) (f : Window → Window) : (updWin s n f).img = s.img := rfl
@[simp] theorem updWin_glob (s : State) (n : Nat) (f : Window → Window) : (updWin s n f).glob = s.glob := rfl
@[simp] theorem updWin_clr (s : State) (n : Nat) (f : Window → Window) : (updWin s n f).clr = s.clr := rfl
@[simp] theorem updWin_ctx (s : State) (n : Nat) (f : Window → Window) : (updWin s n f).ctx = s.ctx := rfl
@[simp] theorem updWin_cal (s : State) (n : Nat) (f : Window → Window) : (updWin s n f).cal = s.cal := rfl
@[simp] theorem updWin_err (s : State) (n : Nat) (f : Window → Window) : (updWin s n f).err = s.err := rfl
@[simp] theorem updWin_rings (s : State) (n : Nat) (f : Window → Window) : (updWin s n f).rings = s.rings := rfl
@[simp] theorem updWin_que (s : State) (n : Nat) (f : Window → Window) : (updWin s n f).que = s.que := rfl
@[simp] theorem updWin_queues (s : State) (n : Nat) (f : Window → Window) : (updWin s n f).queues = s.queues := rfl
@[simp] theorem updWin_tasks (s : State) (n : Nat) (f : Window → Window) : (updWin s n f).tasks = s.tasks := rfl
@[simp] theorem updWin_acc (s : State) (n : Nat) (f : Window → Window) : (updWin s n f).acc = s.acc := rfl
@[simp] theorem updWin_accNext (s : State) (n : Nat) (f : Window → Window) : (updWin s n f).accNext = s.accNext := rfl
@[simp] theorem updWin_xlt (s : State) (n : Nat) (f : Window → Window) : (updWin s n f).xlt = s.xlt := rfl
@[simp] theorem updWin_tbl (s : State) (n : Nat) (f : Window → Window) : (updWin s n f).tbl = s.tbl := rfl
@[simp] theorem updWin_sch (s : State) (n : Nat) (f : Window → Window) : (updWin s n f).sch = s.sch := rfl
@[simp] theorem updWin_pwr (s : State) (n : Nat) (f : Window → Window) : (updWin s n f).pwr = s.pwr := rfl
@[simp] theorem updWin_mbx (s : State) (n : Nat) (f : Window → Window) : (updWin s n f).mbx = s.mbx := rfl
@[simp] theorem updWin_key (s : State) (n : Nat) (f : Window → Window) : (updWin s n f).key = s.key := rfl
@[simp] theorem updWin_tap (s : State) (n : Nat) (f : Window → Window) : (updWin s n f).tap = s.tap := rfl
@[simp] theorem updWin_trl (s : State) (n : Nat) (f : Window → Window) : (updWin s n f).trl = s.trl := rfl
@[simp] theorem updWin_ls (s : State) (n : Nat) (f : Window → Window) : (updWin s n f).ls = s.ls := rfl
@[simp] theorem updWin_bar (s : State) (n : Nat) (f : Window → Window) : (updWin s n f).bar = s.bar := rfl
@[simp] theorem updWin_det (s : State) (n : Nat) (f : Window → Window) : (updWin s n f).det = s.det := rfl
@[simp] theorem updWin_qwin (s : State) (n : Nat) (f : Window → Window) : (updWin s n f).qwin = s.qwin := rfl
@[simp] theorem updWin_xwin (s : State) (n : Nat) (f : Window → Window) : (updWin s n f).xwin = s.xwin := rfl
@[simp] theorem updWin_gwin (s : State) (n : Nat) (f : Window → Window) : (updWin s n f).gwin = s.gwin := rfl
@[simp] theorem updWin_twin (s : State) (n : Nat) (f : Window → Window) : (updWin s n f).twin = s.twin := rfl
@[simp] theorem updWin_swin (s : State) (n : Nat) (f : Window → Window) : (updWin s n f).swin = s.swin := rfl
@[simp] theorem updWin_pwin (s : State) (n : Nat) (f : Window → Window) : (updWin s n f).pwin = s.pwin := rfl
@[simp] theorem updWin_cc (s : State) (n : Nat) (f : Window → Window) : (updWin s n f).cc = s.cc := rfl
@[simp] theorem updWin_out (s : State) (n : Nat) (f : Window → Window) : (updWin s n f).out = s.out := rfl
@[simp] theorem updWin_pending (s : State) (n : Nat) (f : Window → Window) : (updWin s n f).pending = s.pending := rfl

@[simp] theorem updCtx_clk (s : State) (c : Nat) (f : Ctx → Ctx) : (updCtx s c f).clk = s.clk := rfl
@[simp] theorem updCtx_boot (s : State) (c : Nat) (f : Ctx → Ctx) : (updCtx s c f).boot = s.boot := rfl
@[simp] theorem updCtx_img (s : State) (c : Nat) (f : Ctx → Ctx) : (updCtx s c f).img = s.img := rfl
@[simp] theorem updCtx_glob (s : State) (c : Nat) (f : Ctx → Ctx) : (updCtx s c f).glob = s.glob := rfl
@[simp] theorem updCtx_clr (s : State) (c : Nat) (f : Ctx → Ctx) : (updCtx s c f).clr = s.clr := rfl
@[simp] theorem updCtx_win (s : State) (c : Nat) (f : Ctx → Ctx) : (updCtx s c f).win = s.win := rfl
@[simp] theorem updCtx_cal (s : State) (c : Nat) (f : Ctx → Ctx) : (updCtx s c f).cal = s.cal := rfl
@[simp] theorem updCtx_err (s : State) (c : Nat) (f : Ctx → Ctx) : (updCtx s c f).err = s.err := rfl
@[simp] theorem updCtx_rings (s : State) (c : Nat) (f : Ctx → Ctx) : (updCtx s c f).rings = s.rings := rfl
@[simp] theorem updCtx_que (s : State) (c : Nat) (f : Ctx → Ctx) : (updCtx s c f).que = s.que := rfl
@[simp] theorem updCtx_queues (s : State) (c : Nat) (f : Ctx → Ctx) : (updCtx s c f).queues = s.queues := rfl
@[simp] theorem updCtx_tasks (s : State) (c : Nat) (f : Ctx → Ctx) : (updCtx s c f).tasks = s.tasks := rfl
@[simp] theorem updCtx_acc (s : State) (c : Nat) (f : Ctx → Ctx) : (updCtx s c f).acc = s.acc := rfl
@[simp] theorem updCtx_accNext (s : State) (c : Nat) (f : Ctx → Ctx) : (updCtx s c f).accNext = s.accNext := rfl
@[simp] theorem updCtx_xlt (s : State) (c : Nat) (f : Ctx → Ctx) : (updCtx s c f).xlt = s.xlt := rfl
@[simp] theorem updCtx_tbl (s : State) (c : Nat) (f : Ctx → Ctx) : (updCtx s c f).tbl = s.tbl := rfl
@[simp] theorem updCtx_sch (s : State) (c : Nat) (f : Ctx → Ctx) : (updCtx s c f).sch = s.sch := rfl
@[simp] theorem updCtx_pwr (s : State) (c : Nat) (f : Ctx → Ctx) : (updCtx s c f).pwr = s.pwr := rfl
@[simp] theorem updCtx_mbx (s : State) (c : Nat) (f : Ctx → Ctx) : (updCtx s c f).mbx = s.mbx := rfl
@[simp] theorem updCtx_key (s : State) (c : Nat) (f : Ctx → Ctx) : (updCtx s c f).key = s.key := rfl
@[simp] theorem updCtx_tap (s : State) (c : Nat) (f : Ctx → Ctx) : (updCtx s c f).tap = s.tap := rfl
@[simp] theorem updCtx_trl (s : State) (c : Nat) (f : Ctx → Ctx) : (updCtx s c f).trl = s.trl := rfl
@[simp] theorem updCtx_ls (s : State) (c : Nat) (f : Ctx → Ctx) : (updCtx s c f).ls = s.ls := rfl
@[simp] theorem updCtx_bar (s : State) (c : Nat) (f : Ctx → Ctx) : (updCtx s c f).bar = s.bar := rfl
@[simp] theorem updCtx_det (s : State) (c : Nat) (f : Ctx → Ctx) : (updCtx s c f).det = s.det := rfl
@[simp] theorem updCtx_qwin (s : State) (c : Nat) (f : Ctx → Ctx) : (updCtx s c f).qwin = s.qwin := rfl
@[simp] theorem updCtx_xwin (s : State) (c : Nat) (f : Ctx → Ctx) : (updCtx s c f).xwin = s.xwin := rfl
@[simp] theorem updCtx_gwin (s : State) (c : Nat) (f : Ctx → Ctx) : (updCtx s c f).gwin = s.gwin := rfl
@[simp] theorem updCtx_twin (s : State) (c : Nat) (f : Ctx → Ctx) : (updCtx s c f).twin = s.twin := rfl
@[simp] theorem updCtx_swin (s : State) (c : Nat) (f : Ctx → Ctx) : (updCtx s c f).swin = s.swin := rfl
@[simp] theorem updCtx_pwin (s : State) (c : Nat) (f : Ctx → Ctx) : (updCtx s c f).pwin = s.pwin := rfl
@[simp] theorem updCtx_cc (s : State) (c : Nat) (f : Ctx → Ctx) : (updCtx s c f).cc = s.cc := rfl
@[simp] theorem updCtx_out (s : State) (c : Nat) (f : Ctx → Ctx) : (updCtx s c f).out = s.out := rfl
@[simp] theorem updCtx_pending (s : State) (c : Nat) (f : Ctx → Ctx) : (updCtx s c f).pending = s.pending := rfl

@[simp] theorem updPch_clk (s : State) (p : Nat) (f : Pch → Pch) : (updPch s p f).clk = s.clk := rfl
@[simp] theorem updPch_boot (s : State) (p : Nat) (f : Pch → Pch) : (updPch s p f).boot = s.boot := rfl
@[simp] theorem updPch_img (s : State) (p : Nat) (f : Pch → Pch) : (updPch s p f).img = s.img := rfl
@[simp] theorem updPch_glob (s : State) (p : Nat) (f : Pch → Pch) : (updPch s p f).glob = s.glob := rfl
@[simp] theorem updPch_clr (s : State) (p : Nat) (f : Pch → Pch) : (updPch s p f).clr = s.clr := rfl
@[simp] theorem updPch_win (s : State) (p : Nat) (f : Pch → Pch) : (updPch s p f).win = s.win := rfl
@[simp] theorem updPch_ctx (s : State) (p : Nat) (f : Pch → Pch) : (updPch s p f).ctx = s.ctx := rfl
@[simp] theorem updPch_err (s : State) (p : Nat) (f : Pch → Pch) : (updPch s p f).err = s.err := rfl
@[simp] theorem updPch_rings (s : State) (p : Nat) (f : Pch → Pch) : (updPch s p f).rings = s.rings := rfl
@[simp] theorem updPch_que (s : State) (p : Nat) (f : Pch → Pch) : (updPch s p f).que = s.que := rfl
@[simp] theorem updPch_queues (s : State) (p : Nat) (f : Pch → Pch) : (updPch s p f).queues = s.queues := rfl
@[simp] theorem updPch_tasks (s : State) (p : Nat) (f : Pch → Pch) : (updPch s p f).tasks = s.tasks := rfl
@[simp] theorem updPch_acc (s : State) (p : Nat) (f : Pch → Pch) : (updPch s p f).acc = s.acc := rfl
@[simp] theorem updPch_accNext (s : State) (p : Nat) (f : Pch → Pch) : (updPch s p f).accNext = s.accNext := rfl
@[simp] theorem updPch_xlt (s : State) (p : Nat) (f : Pch → Pch) : (updPch s p f).xlt = s.xlt := rfl
@[simp] theorem updPch_tbl (s : State) (p : Nat) (f : Pch → Pch) : (updPch s p f).tbl = s.tbl := rfl
@[simp] theorem updPch_sch (s : State) (p : Nat) (f : Pch → Pch) : (updPch s p f).sch = s.sch := rfl
@[simp] theorem updPch_pwr (s : State) (p : Nat) (f : Pch → Pch) : (updPch s p f).pwr = s.pwr := rfl
@[simp] theorem updPch_mbx (s : State) (p : Nat) (f : Pch → Pch) : (updPch s p f).mbx = s.mbx := rfl
@[simp] theorem updPch_key (s : State) (p : Nat) (f : Pch → Pch) : (updPch s p f).key = s.key := rfl
@[simp] theorem updPch_tap (s : State) (p : Nat) (f : Pch → Pch) : (updPch s p f).tap = s.tap := rfl
@[simp] theorem updPch_trl (s : State) (p : Nat) (f : Pch → Pch) : (updPch s p f).trl = s.trl := rfl
@[simp] theorem updPch_ls (s : State) (p : Nat) (f : Pch → Pch) : (updPch s p f).ls = s.ls := rfl
@[simp] theorem updPch_bar (s : State) (p : Nat) (f : Pch → Pch) : (updPch s p f).bar = s.bar := rfl
@[simp] theorem updPch_det (s : State) (p : Nat) (f : Pch → Pch) : (updPch s p f).det = s.det := rfl
@[simp] theorem updPch_qwin (s : State) (p : Nat) (f : Pch → Pch) : (updPch s p f).qwin = s.qwin := rfl
@[simp] theorem updPch_xwin (s : State) (p : Nat) (f : Pch → Pch) : (updPch s p f).xwin = s.xwin := rfl
@[simp] theorem updPch_gwin (s : State) (p : Nat) (f : Pch → Pch) : (updPch s p f).gwin = s.gwin := rfl
@[simp] theorem updPch_twin (s : State) (p : Nat) (f : Pch → Pch) : (updPch s p f).twin = s.twin := rfl
@[simp] theorem updPch_swin (s : State) (p : Nat) (f : Pch → Pch) : (updPch s p f).swin = s.swin := rfl
@[simp] theorem updPch_pwin (s : State) (p : Nat) (f : Pch → Pch) : (updPch s p f).pwin = s.pwin := rfl
@[simp] theorem updPch_cc (s : State) (p : Nat) (f : Pch → Pch) : (updPch s p f).cc = s.cc := rfl
@[simp] theorem updPch_out (s : State) (p : Nat) (f : Pch → Pch) : (updPch s p f).out = s.out := rfl
@[simp] theorem updPch_pending (s : State) (p : Nat) (f : Pch → Pch) : (updPch s p f).pending = s.pending := rfl

@[simp] theorem updRing_clk (s : State) (r : Nat) (f : ErrRing → ErrRing) : (updRing s r f).clk = s.clk := rfl
@[simp] theorem updRing_boot (s : State) (r : Nat) (f : ErrRing → ErrRing) : (updRing s r f).boot = s.boot := rfl
@[simp] theorem updRing_img (s : State) (r : Nat) (f : ErrRing → ErrRing) : (updRing s r f).img = s.img := rfl
@[simp] theorem updRing_glob (s : State) (r : Nat) (f : ErrRing → ErrRing) : (updRing s r f).glob = s.glob := rfl
@[simp] theorem updRing_clr (s : State) (r : Nat) (f : ErrRing → ErrRing) : (updRing s r f).clr = s.clr := rfl
@[simp] theorem updRing_win (s : State) (r : Nat) (f : ErrRing → ErrRing) : (updRing s r f).win = s.win := rfl
@[simp] theorem updRing_ctx (s : State) (r : Nat) (f : ErrRing → ErrRing) : (updRing s r f).ctx = s.ctx := rfl
@[simp] theorem updRing_cal (s : State) (r : Nat) (f : ErrRing → ErrRing) : (updRing s r f).cal = s.cal := rfl
@[simp] theorem updRing_err (s : State) (r : Nat) (f : ErrRing → ErrRing) : (updRing s r f).err = s.err := rfl
@[simp] theorem updRing_que (s : State) (r : Nat) (f : ErrRing → ErrRing) : (updRing s r f).que = s.que := rfl
@[simp] theorem updRing_queues (s : State) (r : Nat) (f : ErrRing → ErrRing) : (updRing s r f).queues = s.queues := rfl
@[simp] theorem updRing_tasks (s : State) (r : Nat) (f : ErrRing → ErrRing) : (updRing s r f).tasks = s.tasks := rfl
@[simp] theorem updRing_acc (s : State) (r : Nat) (f : ErrRing → ErrRing) : (updRing s r f).acc = s.acc := rfl
@[simp] theorem updRing_accNext (s : State) (r : Nat) (f : ErrRing → ErrRing) : (updRing s r f).accNext = s.accNext := rfl
@[simp] theorem updRing_xlt (s : State) (r : Nat) (f : ErrRing → ErrRing) : (updRing s r f).xlt = s.xlt := rfl
@[simp] theorem updRing_tbl (s : State) (r : Nat) (f : ErrRing → ErrRing) : (updRing s r f).tbl = s.tbl := rfl
@[simp] theorem updRing_sch (s : State) (r : Nat) (f : ErrRing → ErrRing) : (updRing s r f).sch = s.sch := rfl
@[simp] theorem updRing_pwr (s : State) (r : Nat) (f : ErrRing → ErrRing) : (updRing s r f).pwr = s.pwr := rfl
@[simp] theorem updRing_mbx (s : State) (r : Nat) (f : ErrRing → ErrRing) : (updRing s r f).mbx = s.mbx := rfl
@[simp] theorem updRing_key (s : State) (r : Nat) (f : ErrRing → ErrRing) : (updRing s r f).key = s.key := rfl
@[simp] theorem updRing_tap (s : State) (r : Nat) (f : ErrRing → ErrRing) : (updRing s r f).tap = s.tap := rfl
@[simp] theorem updRing_trl (s : State) (r : Nat) (f : ErrRing → ErrRing) : (updRing s r f).trl = s.trl := rfl
@[simp] theorem updRing_ls (s : State) (r : Nat) (f : ErrRing → ErrRing) : (updRing s r f).ls = s.ls := rfl
@[simp] theorem updRing_bar (s : State) (r : Nat) (f : ErrRing → ErrRing) : (updRing s r f).bar = s.bar := rfl
@[simp] theorem updRing_det (s : State) (r : Nat) (f : ErrRing → ErrRing) : (updRing s r f).det = s.det := rfl
@[simp] theorem updRing_qwin (s : State) (r : Nat) (f : ErrRing → ErrRing) : (updRing s r f).qwin = s.qwin := rfl
@[simp] theorem updRing_xwin (s : State) (r : Nat) (f : ErrRing → ErrRing) : (updRing s r f).xwin = s.xwin := rfl
@[simp] theorem updRing_gwin (s : State) (r : Nat) (f : ErrRing → ErrRing) : (updRing s r f).gwin = s.gwin := rfl
@[simp] theorem updRing_twin (s : State) (r : Nat) (f : ErrRing → ErrRing) : (updRing s r f).twin = s.twin := rfl
@[simp] theorem updRing_swin (s : State) (r : Nat) (f : ErrRing → ErrRing) : (updRing s r f).swin = s.swin := rfl
@[simp] theorem updRing_pwin (s : State) (r : Nat) (f : ErrRing → ErrRing) : (updRing s r f).pwin = s.pwin := rfl
@[simp] theorem updRing_cc (s : State) (r : Nat) (f : ErrRing → ErrRing) : (updRing s r f).cc = s.cc := rfl
@[simp] theorem updRing_out (s : State) (r : Nat) (f : ErrRing → ErrRing) : (updRing s r f).out = s.out := rfl
@[simp] theorem updRing_pending (s : State) (r : Nat) (f : ErrRing → ErrRing) : (updRing s r f).pending = s.pending := rfl

@[simp] theorem updCal_clk (s : State) (f : Cal → Cal) : (updCal s f).clk = s.clk := rfl
@[simp] theorem updCal_boot (s : State) (f : Cal → Cal) : (updCal s f).boot = s.boot := rfl
@[simp] theorem updCal_img (s : State) (f : Cal → Cal) : (updCal s f).img = s.img := rfl
@[simp] theorem updCal_glob (s : State) (f : Cal → Cal) : (updCal s f).glob = s.glob := rfl
@[simp] theorem updCal_clr (s : State) (f : Cal → Cal) : (updCal s f).clr = s.clr := rfl
@[simp] theorem updCal_win (s : State) (f : Cal → Cal) : (updCal s f).win = s.win := rfl
@[simp] theorem updCal_ctx (s : State) (f : Cal → Cal) : (updCal s f).ctx = s.ctx := rfl
@[simp] theorem updCal_err (s : State) (f : Cal → Cal) : (updCal s f).err = s.err := rfl
@[simp] theorem updCal_rings (s : State) (f : Cal → Cal) : (updCal s f).rings = s.rings := rfl
@[simp] theorem updCal_que (s : State) (f : Cal → Cal) : (updCal s f).que = s.que := rfl
@[simp] theorem updCal_queues (s : State) (f : Cal → Cal) : (updCal s f).queues = s.queues := rfl
@[simp] theorem updCal_tasks (s : State) (f : Cal → Cal) : (updCal s f).tasks = s.tasks := rfl
@[simp] theorem updCal_acc (s : State) (f : Cal → Cal) : (updCal s f).acc = s.acc := rfl
@[simp] theorem updCal_accNext (s : State) (f : Cal → Cal) : (updCal s f).accNext = s.accNext := rfl
@[simp] theorem updCal_xlt (s : State) (f : Cal → Cal) : (updCal s f).xlt = s.xlt := rfl
@[simp] theorem updCal_tbl (s : State) (f : Cal → Cal) : (updCal s f).tbl = s.tbl := rfl
@[simp] theorem updCal_sch (s : State) (f : Cal → Cal) : (updCal s f).sch = s.sch := rfl
@[simp] theorem updCal_pwr (s : State) (f : Cal → Cal) : (updCal s f).pwr = s.pwr := rfl
@[simp] theorem updCal_mbx (s : State) (f : Cal → Cal) : (updCal s f).mbx = s.mbx := rfl
@[simp] theorem updCal_key (s : State) (f : Cal → Cal) : (updCal s f).key = s.key := rfl
@[simp] theorem updCal_tap (s : State) (f : Cal → Cal) : (updCal s f).tap = s.tap := rfl
@[simp] theorem updCal_trl (s : State) (f : Cal → Cal) : (updCal s f).trl = s.trl := rfl
@[simp] theorem updCal_ls (s : State) (f : Cal → Cal) : (updCal s f).ls = s.ls := rfl
@[simp] theorem updCal_bar (s : State) (f : Cal → Cal) : (updCal s f).bar = s.bar := rfl
@[simp] theorem updCal_det (s : State) (f : Cal → Cal) : (updCal s f).det = s.det := rfl
@[simp] theorem updCal_qwin (s : State) (f : Cal → Cal) : (updCal s f).qwin = s.qwin := rfl
@[simp] theorem updCal_xwin (s : State) (f : Cal → Cal) : (updCal s f).xwin = s.xwin := rfl
@[simp] theorem updCal_gwin (s : State) (f : Cal → Cal) : (updCal s f).gwin = s.gwin := rfl
@[simp] theorem updCal_twin (s : State) (f : Cal → Cal) : (updCal s f).twin = s.twin := rfl
@[simp] theorem updCal_swin (s : State) (f : Cal → Cal) : (updCal s f).swin = s.swin := rfl
@[simp] theorem updCal_pwin (s : State) (f : Cal → Cal) : (updCal s f).pwin = s.pwin := rfl
@[simp] theorem updCal_cc (s : State) (f : Cal → Cal) : (updCal s f).cc = s.cc := rfl
@[simp] theorem updCal_out (s : State) (f : Cal → Cal) : (updCal s f).out = s.out := rfl
@[simp] theorem updCal_pending (s : State) (f : Cal → Cal) : (updCal s f).pending = s.pending := rfl

@[simp] theorem updQueue_clk (s : State) (q : Nat) (f : Queue → Queue) : (updQueue s q f).clk = s.clk := rfl
@[simp] theorem updQueue_boot (s : State) (q : Nat) (f : Queue → Queue) : (updQueue s q f).boot = s.boot := rfl
@[simp] theorem updQueue_img (s : State) (q : Nat) (f : Queue → Queue) : (updQueue s q f).img = s.img := rfl
@[simp] theorem updQueue_glob (s : State) (q : Nat) (f : Queue → Queue) : (updQueue s q f).glob = s.glob := rfl
@[simp] theorem updQueue_clr (s : State) (q : Nat) (f : Queue → Queue) : (updQueue s q f).clr = s.clr := rfl
@[simp] theorem updQueue_win (s : State) (q : Nat) (f : Queue → Queue) : (updQueue s q f).win = s.win := rfl
@[simp] theorem updQueue_ctx (s : State) (q : Nat) (f : Queue → Queue) : (updQueue s q f).ctx = s.ctx := rfl
@[simp] theorem updQueue_cal (s : State) (q : Nat) (f : Queue → Queue) : (updQueue s q f).cal = s.cal := rfl
@[simp] theorem updQueue_err (s : State) (q : Nat) (f : Queue → Queue) : (updQueue s q f).err = s.err := rfl
@[simp] theorem updQueue_rings (s : State) (q : Nat) (f : Queue → Queue) : (updQueue s q f).rings = s.rings := rfl
@[simp] theorem updQueue_que (s : State) (q : Nat) (f : Queue → Queue) : (updQueue s q f).que = s.que := rfl
@[simp] theorem updQueue_tasks (s : State) (q : Nat) (f : Queue → Queue) : (updQueue s q f).tasks = s.tasks := rfl
@[simp] theorem updQueue_acc (s : State) (q : Nat) (f : Queue → Queue) : (updQueue s q f).acc = s.acc := rfl
@[simp] theorem updQueue_accNext (s : State) (q : Nat) (f : Queue → Queue) : (updQueue s q f).accNext = s.accNext := rfl
@[simp] theorem updQueue_xlt (s : State) (q : Nat) (f : Queue → Queue) : (updQueue s q f).xlt = s.xlt := rfl
@[simp] theorem updQueue_tbl (s : State) (q : Nat) (f : Queue → Queue) : (updQueue s q f).tbl = s.tbl := rfl
@[simp] theorem updQueue_sch (s : State) (q : Nat) (f : Queue → Queue) : (updQueue s q f).sch = s.sch := rfl
@[simp] theorem updQueue_pwr (s : State) (q : Nat) (f : Queue → Queue) : (updQueue s q f).pwr = s.pwr := rfl
@[simp] theorem updQueue_mbx (s : State) (q : Nat) (f : Queue → Queue) : (updQueue s q f).mbx = s.mbx := rfl
@[simp] theorem updQueue_key (s : State) (q : Nat) (f : Queue → Queue) : (updQueue s q f).key = s.key := rfl
@[simp] theorem updQueue_tap (s : State) (q : Nat) (f : Queue → Queue) : (updQueue s q f).tap = s.tap := rfl
@[simp] theorem updQueue_trl (s : State) (q : Nat) (f : Queue → Queue) : (updQueue s q f).trl = s.trl := rfl
@[simp] theorem updQueue_ls (s : State) (q : Nat) (f : Queue → Queue) : (updQueue s q f).ls = s.ls := rfl
@[simp] theorem updQueue_bar (s : State) (q : Nat) (f : Queue → Queue) : (updQueue s q f).bar = s.bar := rfl
@[simp] theorem updQueue_det (s : State) (q : Nat) (f : Queue → Queue) : (updQueue s q f).det = s.det := rfl
@[simp] theorem updQueue_qwin (s : State) (q : Nat) (f : Queue → Queue) : (updQueue s q f).qwin = s.qwin := rfl
@[simp] theorem updQueue_xwin (s : State) (q : Nat) (f : Queue → Queue) : (updQueue s q f).xwin = s.xwin := rfl
@[simp] theorem updQueue_gwin (s : State) (q : Nat) (f : Queue → Queue) : (updQueue s q f).gwin = s.gwin := rfl
@[simp] theorem updQueue_twin (s : State) (q : Nat) (f : Queue → Queue) : (updQueue s q f).twin = s.twin := rfl
@[simp] theorem updQueue_swin (s : State) (q : Nat) (f : Queue → Queue) : (updQueue s q f).swin = s.swin := rfl
@[simp] theorem updQueue_pwin (s : State) (q : Nat) (f : Queue → Queue) : (updQueue s q f).pwin = s.pwin := rfl
@[simp] theorem updQueue_cc (s : State) (q : Nat) (f : Queue → Queue) : (updQueue s q f).cc = s.cc := rfl
@[simp] theorem updQueue_out (s : State) (q : Nat) (f : Queue → Queue) : (updQueue s q f).out = s.out := rfl
@[simp] theorem updQueue_pending (s : State) (q : Nat) (f : Queue → Queue) : (updQueue s q f).pending = s.pending := rfl

@[simp] theorem updQue_clk (s : State) (f : QueUnit → QueUnit) : (updQue s f).clk = s.clk := rfl
@[simp] theorem updQue_boot (s : State) (f : QueUnit → QueUnit) : (updQue s f).boot = s.boot := rfl
@[simp] theorem updQue_img (s : State) (f : QueUnit → QueUnit) : (updQue s f).img = s.img := rfl
@[simp] theorem updQue_glob (s : State) (f : QueUnit → QueUnit) : (updQue s f).glob = s.glob := rfl
@[simp] theorem updQue_clr (s : State) (f : QueUnit → QueUnit) : (updQue s f).clr = s.clr := rfl
@[simp] theorem updQue_win (s : State) (f : QueUnit → QueUnit) : (updQue s f).win = s.win := rfl
@[simp] theorem updQue_ctx (s : State) (f : QueUnit → QueUnit) : (updQue s f).ctx = s.ctx := rfl
@[simp] theorem updQue_cal (s : State) (f : QueUnit → QueUnit) : (updQue s f).cal = s.cal := rfl
@[simp] theorem updQue_err (s : State) (f : QueUnit → QueUnit) : (updQue s f).err = s.err := rfl
@[simp] theorem updQue_rings (s : State) (f : QueUnit → QueUnit) : (updQue s f).rings = s.rings := rfl
@[simp] theorem updQue_queues (s : State) (f : QueUnit → QueUnit) : (updQue s f).queues = s.queues := rfl
@[simp] theorem updQue_tasks (s : State) (f : QueUnit → QueUnit) : (updQue s f).tasks = s.tasks := rfl
@[simp] theorem updQue_acc (s : State) (f : QueUnit → QueUnit) : (updQue s f).acc = s.acc := rfl
@[simp] theorem updQue_accNext (s : State) (f : QueUnit → QueUnit) : (updQue s f).accNext = s.accNext := rfl
@[simp] theorem updQue_xlt (s : State) (f : QueUnit → QueUnit) : (updQue s f).xlt = s.xlt := rfl
@[simp] theorem updQue_tbl (s : State) (f : QueUnit → QueUnit) : (updQue s f).tbl = s.tbl := rfl
@[simp] theorem updQue_sch (s : State) (f : QueUnit → QueUnit) : (updQue s f).sch = s.sch := rfl
@[simp] theorem updQue_pwr (s : State) (f : QueUnit → QueUnit) : (updQue s f).pwr = s.pwr := rfl
@[simp] theorem updQue_mbx (s : State) (f : QueUnit → QueUnit) : (updQue s f).mbx = s.mbx := rfl
@[simp] theorem updQue_key (s : State) (f : QueUnit → QueUnit) : (updQue s f).key = s.key := rfl
@[simp] theorem updQue_tap (s : State) (f : QueUnit → QueUnit) : (updQue s f).tap = s.tap := rfl
@[simp] theorem updQue_trl (s : State) (f : QueUnit → QueUnit) : (updQue s f).trl = s.trl := rfl
@[simp] theorem updQue_ls (s : State) (f : QueUnit → QueUnit) : (updQue s f).ls = s.ls := rfl
@[simp] theorem updQue_bar (s : State) (f : QueUnit → QueUnit) : (updQue s f).bar = s.bar := rfl
@[simp] theorem updQue_det (s : State) (f : QueUnit → QueUnit) : (updQue s f).det = s.det := rfl
@[simp] theorem updQue_qwin (s : State) (f : QueUnit → QueUnit) : (updQue s f).qwin = s.qwin := rfl
@[simp] theorem updQue_xwin (s : State) (f : QueUnit → QueUnit) : (updQue s f).xwin = s.xwin := rfl
@[simp] theorem updQue_gwin (s : State) (f : QueUnit → QueUnit) : (updQue s f).gwin = s.gwin := rfl
@[simp] theorem updQue_twin (s : State) (f : QueUnit → QueUnit) : (updQue s f).twin = s.twin := rfl
@[simp] theorem updQue_swin (s : State) (f : QueUnit → QueUnit) : (updQue s f).swin = s.swin := rfl
@[simp] theorem updQue_pwin (s : State) (f : QueUnit → QueUnit) : (updQue s f).pwin = s.pwin := rfl
@[simp] theorem updQue_cc (s : State) (f : QueUnit → QueUnit) : (updQue s f).cc = s.cc := rfl
@[simp] theorem updQue_out (s : State) (f : QueUnit → QueUnit) : (updQue s f).out = s.out := rfl
@[simp] theorem updQue_pending (s : State) (f : QueUnit → QueUnit) : (updQue s f).pending = s.pending := rfl

@[simp] theorem updTask_clk (s : State) (t : Nat) (f : Task → Task) : (updTask s t f).clk = s.clk := rfl
@[simp] theorem updTask_boot (s : State) (t : Nat) (f : Task → Task) : (updTask s t f).boot = s.boot := rfl
@[simp] theorem updTask_img (s : State) (t : Nat) (f : Task → Task) : (updTask s t f).img = s.img := rfl
@[simp] theorem updTask_glob (s : State) (t : Nat) (f : Task → Task) : (updTask s t f).glob = s.glob := rfl
@[simp] theorem updTask_clr (s : State) (t : Nat) (f : Task → Task) : (updTask s t f).clr = s.clr := rfl
@[simp] theorem updTask_win (s : State) (t : Nat) (f : Task → Task) : (updTask s t f).win = s.win := rfl
@[simp] theorem updTask_ctx (s : State) (t : Nat) (f : Task → Task) : (updTask s t f).ctx = s.ctx := rfl
@[simp] theorem updTask_cal (s : State) (t : Nat) (f : Task → Task) : (updTask s t f).cal = s.cal := rfl
@[simp] theorem updTask_err (s : State) (t : Nat) (f : Task → Task) : (updTask s t f).err = s.err := rfl
@[simp] theorem updTask_rings (s : State) (t : Nat) (f : Task → Task) : (updTask s t f).rings = s.rings := rfl
@[simp] theorem updTask_que (s : State) (t : Nat) (f : Task → Task) : (updTask s t f).que = s.que := rfl
@[simp] theorem updTask_queues (s : State) (t : Nat) (f : Task → Task) : (updTask s t f).queues = s.queues := rfl
@[simp] theorem updTask_acc (s : State) (t : Nat) (f : Task → Task) : (updTask s t f).acc = s.acc := rfl
@[simp] theorem updTask_accNext (s : State) (t : Nat) (f : Task → Task) : (updTask s t f).accNext = s.accNext := rfl
@[simp] theorem updTask_xlt (s : State) (t : Nat) (f : Task → Task) : (updTask s t f).xlt = s.xlt := rfl
@[simp] theorem updTask_tbl (s : State) (t : Nat) (f : Task → Task) : (updTask s t f).tbl = s.tbl := rfl
@[simp] theorem updTask_sch (s : State) (t : Nat) (f : Task → Task) : (updTask s t f).sch = s.sch := rfl
@[simp] theorem updTask_pwr (s : State) (t : Nat) (f : Task → Task) : (updTask s t f).pwr = s.pwr := rfl
@[simp] theorem updTask_mbx (s : State) (t : Nat) (f : Task → Task) : (updTask s t f).mbx = s.mbx := rfl
@[simp] theorem updTask_key (s : State) (t : Nat) (f : Task → Task) : (updTask s t f).key = s.key := rfl
@[simp] theorem updTask_tap (s : State) (t : Nat) (f : Task → Task) : (updTask s t f).tap = s.tap := rfl
@[simp] theorem updTask_trl (s : State) (t : Nat) (f : Task → Task) : (updTask s t f).trl = s.trl := rfl
@[simp] theorem updTask_ls (s : State) (t : Nat) (f : Task → Task) : (updTask s t f).ls = s.ls := rfl
@[simp] theorem updTask_bar (s : State) (t : Nat) (f : Task → Task) : (updTask s t f).bar = s.bar := rfl
@[simp] theorem updTask_det (s : State) (t : Nat) (f : Task → Task) : (updTask s t f).det = s.det := rfl
@[simp] theorem updTask_qwin (s : State) (t : Nat) (f : Task → Task) : (updTask s t f).qwin = s.qwin := rfl
@[simp] theorem updTask_xwin (s : State) (t : Nat) (f : Task → Task) : (updTask s t f).xwin = s.xwin := rfl
@[simp] theorem updTask_gwin (s : State) (t : Nat) (f : Task → Task) : (updTask s t f).gwin = s.gwin := rfl
@[simp] theorem updTask_twin (s : State) (t : Nat) (f : Task → Task) : (updTask s t f).twin = s.twin := rfl
@[simp] theorem updTask_swin (s : State) (t : Nat) (f : Task → Task) : (updTask s t f).swin = s.swin := rfl
@[simp] theorem updTask_pwin (s : State) (t : Nat) (f : Task → Task) : (updTask s t f).pwin = s.pwin := rfl
@[simp] theorem updTask_cc (s : State) (t : Nat) (f : Task → Task) : (updTask s t f).cc = s.cc := rfl
@[simp] theorem updTask_out (s : State) (t : Nat) (f : Task → Task) : (updTask s t f).out = s.out := rfl
@[simp] theorem updTask_pending (s : State) (t : Nat) (f : Task → Task) : (updTask s t f).pending = s.pending := rfl

@[simp] theorem updEnv_clk (s : State) (t e : Nat) (f : EnvRun → EnvRun) : (updEnv s t e f).clk = s.clk := rfl
@[simp] theorem updEnv_boot (s : State) (t e : Nat) (f : EnvRun → EnvRun) : (updEnv s t e f).boot = s.boot := rfl
@[simp] theorem updEnv_img (s : State) (t e : Nat) (f : EnvRun → EnvRun) : (updEnv s t e f).img = s.img := rfl
@[simp] theorem updEnv_glob (s : State) (t e : Nat) (f : EnvRun → EnvRun) : (updEnv s t e f).glob = s.glob := rfl
@[simp] theorem updEnv_clr (s : State) (t e : Nat) (f : EnvRun → EnvRun) : (updEnv s t e f).clr = s.clr := rfl
@[simp] theorem updEnv_win (s : State) (t e : Nat) (f : EnvRun → EnvRun) : (updEnv s t e f).win = s.win := rfl
@[simp] theorem updEnv_ctx (s : State) (t e : Nat) (f : EnvRun → EnvRun) : (updEnv s t e f).ctx = s.ctx := rfl
@[simp] theorem updEnv_cal (s : State) (t e : Nat) (f : EnvRun → EnvRun) : (updEnv s t e f).cal = s.cal := rfl
@[simp] theorem updEnv_err (s : State) (t e : Nat) (f : EnvRun → EnvRun) : (updEnv s t e f).err = s.err := rfl
@[simp] theorem updEnv_rings (s : State) (t e : Nat) (f : EnvRun → EnvRun) : (updEnv s t e f).rings = s.rings := rfl
@[simp] theorem updEnv_que (s : State) (t e : Nat) (f : EnvRun → EnvRun) : (updEnv s t e f).que = s.que := rfl
@[simp] theorem updEnv_queues (s : State) (t e : Nat) (f : EnvRun → EnvRun) : (updEnv s t e f).queues = s.queues := rfl
@[simp] theorem updEnv_acc (s : State) (t e : Nat) (f : EnvRun → EnvRun) : (updEnv s t e f).acc = s.acc := rfl
@[simp] theorem updEnv_accNext (s : State) (t e : Nat) (f : EnvRun → EnvRun) : (updEnv s t e f).accNext = s.accNext := rfl
@[simp] theorem updEnv_xlt (s : State) (t e : Nat) (f : EnvRun → EnvRun) : (updEnv s t e f).xlt = s.xlt := rfl
@[simp] theorem updEnv_tbl (s : State) (t e : Nat) (f : EnvRun → EnvRun) : (updEnv s t e f).tbl = s.tbl := rfl
@[simp] theorem updEnv_sch (s : State) (t e : Nat) (f : EnvRun → EnvRun) : (updEnv s t e f).sch = s.sch := rfl
@[simp] theorem updEnv_pwr (s : State) (t e : Nat) (f : EnvRun → EnvRun) : (updEnv s t e f).pwr = s.pwr := rfl
@[simp] theorem updEnv_mbx (s : State) (t e : Nat) (f : EnvRun → EnvRun) : (updEnv s t e f).mbx = s.mbx := rfl
@[simp] theorem updEnv_key (s : State) (t e : Nat) (f : EnvRun → EnvRun) : (updEnv s t e f).key = s.key := rfl
@[simp] theorem updEnv_tap (s : State) (t e : Nat) (f : EnvRun → EnvRun) : (updEnv s t e f).tap = s.tap := rfl
@[simp] theorem updEnv_trl (s : State) (t e : Nat) (f : EnvRun → EnvRun) : (updEnv s t e f).trl = s.trl := rfl
@[simp] theorem updEnv_ls (s : State) (t e : Nat) (f : EnvRun → EnvRun) : (updEnv s t e f).ls = s.ls := rfl
@[simp] theorem updEnv_bar (s : State) (t e : Nat) (f : EnvRun → EnvRun) : (updEnv s t e f).bar = s.bar := rfl
@[simp] theorem updEnv_det (s : State) (t e : Nat) (f : EnvRun → EnvRun) : (updEnv s t e f).det = s.det := rfl
@[simp] theorem updEnv_qwin (s : State) (t e : Nat) (f : EnvRun → EnvRun) : (updEnv s t e f).qwin = s.qwin := rfl
@[simp] theorem updEnv_xwin (s : State) (t e : Nat) (f : EnvRun → EnvRun) : (updEnv s t e f).xwin = s.xwin := rfl
@[simp] theorem updEnv_gwin (s : State) (t e : Nat) (f : EnvRun → EnvRun) : (updEnv s t e f).gwin = s.gwin := rfl
@[simp] theorem updEnv_twin (s : State) (t e : Nat) (f : EnvRun → EnvRun) : (updEnv s t e f).twin = s.twin := rfl
@[simp] theorem updEnv_swin (s : State) (t e : Nat) (f : EnvRun → EnvRun) : (updEnv s t e f).swin = s.swin := rfl
@[simp] theorem updEnv_pwin (s : State) (t e : Nat) (f : EnvRun → EnvRun) : (updEnv s t e f).pwin = s.pwin := rfl
@[simp] theorem updEnv_cc (s : State) (t e : Nat) (f : EnvRun → EnvRun) : (updEnv s t e f).cc = s.cc := rfl
@[simp] theorem updEnv_out (s : State) (t e : Nat) (f : EnvRun → EnvRun) : (updEnv s t e f).out = s.out := rfl
@[simp] theorem updEnv_pending (s : State) (t e : Nat) (f : EnvRun → EnvRun) : (updEnv s t e f).pending = s.pending := rfl

@[simp] theorem updAcc_clk (s : State) (a : Nat) (f : Acc → Acc) : (updAcc s a f).clk = s.clk := rfl
@[simp] theorem updAcc_boot (s : State) (a : Nat) (f : Acc → Acc) : (updAcc s a f).boot = s.boot := rfl
@[simp] theorem updAcc_img (s : State) (a : Nat) (f : Acc → Acc) : (updAcc s a f).img = s.img := rfl
@[simp] theorem updAcc_glob (s : State) (a : Nat) (f : Acc → Acc) : (updAcc s a f).glob = s.glob := rfl
@[simp] theorem updAcc_clr (s : State) (a : Nat) (f : Acc → Acc) : (updAcc s a f).clr = s.clr := rfl
@[simp] theorem updAcc_win (s : State) (a : Nat) (f : Acc → Acc) : (updAcc s a f).win = s.win := rfl
@[simp] theorem updAcc_ctx (s : State) (a : Nat) (f : Acc → Acc) : (updAcc s a f).ctx = s.ctx := rfl
@[simp] theorem updAcc_cal (s : State) (a : Nat) (f : Acc → Acc) : (updAcc s a f).cal = s.cal := rfl
@[simp] theorem updAcc_err (s : State) (a : Nat) (f : Acc → Acc) : (updAcc s a f).err = s.err := rfl
@[simp] theorem updAcc_rings (s : State) (a : Nat) (f : Acc → Acc) : (updAcc s a f).rings = s.rings := rfl
@[simp] theorem updAcc_que (s : State) (a : Nat) (f : Acc → Acc) : (updAcc s a f).que = s.que := rfl
@[simp] theorem updAcc_queues (s : State) (a : Nat) (f : Acc → Acc) : (updAcc s a f).queues = s.queues := rfl
@[simp] theorem updAcc_tasks (s : State) (a : Nat) (f : Acc → Acc) : (updAcc s a f).tasks = s.tasks := rfl
@[simp] theorem updAcc_accNext (s : State) (a : Nat) (f : Acc → Acc) : (updAcc s a f).accNext = s.accNext := rfl
@[simp] theorem updAcc_xlt (s : State) (a : Nat) (f : Acc → Acc) : (updAcc s a f).xlt = s.xlt := rfl
@[simp] theorem updAcc_tbl (s : State) (a : Nat) (f : Acc → Acc) : (updAcc s a f).tbl = s.tbl := rfl
@[simp] theorem updAcc_sch (s : State) (a : Nat) (f : Acc → Acc) : (updAcc s a f).sch = s.sch := rfl
@[simp] theorem updAcc_pwr (s : State) (a : Nat) (f : Acc → Acc) : (updAcc s a f).pwr = s.pwr := rfl
@[simp] theorem updAcc_mbx (s : State) (a : Nat) (f : Acc → Acc) : (updAcc s a f).mbx = s.mbx := rfl
@[simp] theorem updAcc_key (s : State) (a : Nat) (f : Acc → Acc) : (updAcc s a f).key = s.key := rfl
@[simp] theorem updAcc_tap (s : State) (a : Nat) (f : Acc → Acc) : (updAcc s a f).tap = s.tap := rfl
@[simp] theorem updAcc_trl (s : State) (a : Nat) (f : Acc → Acc) : (updAcc s a f).trl = s.trl := rfl
@[simp] theorem updAcc_ls (s : State) (a : Nat) (f : Acc → Acc) : (updAcc s a f).ls = s.ls := rfl
@[simp] theorem updAcc_bar (s : State) (a : Nat) (f : Acc → Acc) : (updAcc s a f).bar = s.bar := rfl
@[simp] theorem updAcc_det (s : State) (a : Nat) (f : Acc → Acc) : (updAcc s a f).det = s.det := rfl
@[simp] theorem updAcc_qwin (s : State) (a : Nat) (f : Acc → Acc) : (updAcc s a f).qwin = s.qwin := rfl
@[simp] theorem updAcc_xwin (s : State) (a : Nat) (f : Acc → Acc) : (updAcc s a f).xwin = s.xwin := rfl
@[simp] theorem updAcc_gwin (s : State) (a : Nat) (f : Acc → Acc) : (updAcc s a f).gwin = s.gwin := rfl
@[simp] theorem updAcc_twin (s : State) (a : Nat) (f : Acc → Acc) : (updAcc s a f).twin = s.twin := rfl
@[simp] theorem updAcc_swin (s : State) (a : Nat) (f : Acc → Acc) : (updAcc s a f).swin = s.swin := rfl
@[simp] theorem updAcc_pwin (s : State) (a : Nat) (f : Acc → Acc) : (updAcc s a f).pwin = s.pwin := rfl
@[simp] theorem updAcc_cc (s : State) (a : Nat) (f : Acc → Acc) : (updAcc s a f).cc = s.cc := rfl
@[simp] theorem updAcc_out (s : State) (a : Nat) (f : Acc → Acc) : (updAcc s a f).out = s.out := rfl
@[simp] theorem updAcc_pending (s : State) (a : Nat) (f : Acc → Acc) : (updAcc s a f).pending = s.pending := rfl

@[simp] theorem dropAcc_clk (s : State) (a : Nat) : (dropAcc s a).clk = s.clk := rfl
@[simp] theorem dropAcc_boot (s : State) (a : Nat) : (dropAcc s a).boot = s.boot := rfl
@[simp] theorem dropAcc_img (s : State) (a : Nat) : (dropAcc s a).img = s.img := rfl
@[simp] theorem dropAcc_glob (s : State) (a : Nat) : (dropAcc s a).glob = s.glob := rfl
@[simp] theorem dropAcc_clr (s : State) (a : Nat) : (dropAcc s a).clr = s.clr := rfl
@[simp] theorem dropAcc_win (s : State) (a : Nat) : (dropAcc s a).win = s.win := rfl
@[simp] theorem dropAcc_ctx (s : State) (a : Nat) : (dropAcc s a).ctx = s.ctx := rfl
@[simp] theorem dropAcc_cal (s : State) (a : Nat) : (dropAcc s a).cal = s.cal := rfl
@[simp] theorem dropAcc_err (s : State) (a : Nat) : (dropAcc s a).err = s.err := rfl
@[simp] theorem dropAcc_rings (s : State) (a : Nat) : (dropAcc s a).rings = s.rings := rfl
@[simp] theorem dropAcc_que (s : State) (a : Nat) : (dropAcc s a).que = s.que := rfl
@[simp] theorem dropAcc_queues (s : State) (a : Nat) : (dropAcc s a).queues = s.queues := rfl
@[simp] theorem dropAcc_tasks (s : State) (a : Nat) : (dropAcc s a).tasks = s.tasks := rfl
@[simp] theorem dropAcc_accNext (s : State) (a : Nat) : (dropAcc s a).accNext = s.accNext := rfl
@[simp] theorem dropAcc_xlt (s : State) (a : Nat) : (dropAcc s a).xlt = s.xlt := rfl
@[simp] theorem dropAcc_tbl (s : State) (a : Nat) : (dropAcc s a).tbl = s.tbl := rfl
@[simp] theorem dropAcc_sch (s : State) (a : Nat) : (dropAcc s a).sch = s.sch := rfl
@[simp] theorem dropAcc_pwr (s : State) (a : Nat) : (dropAcc s a).pwr = s.pwr := rfl
@[simp] theorem dropAcc_mbx (s : State) (a : Nat) : (dropAcc s a).mbx = s.mbx := rfl
@[simp] theorem dropAcc_key (s : State) (a : Nat) : (dropAcc s a).key = s.key := rfl
@[simp] theorem dropAcc_tap (s : State) (a : Nat) : (dropAcc s a).tap = s.tap := rfl
@[simp] theorem dropAcc_trl (s : State) (a : Nat) : (dropAcc s a).trl = s.trl := rfl
@[simp] theorem dropAcc_ls (s : State) (a : Nat) : (dropAcc s a).ls = s.ls := rfl
@[simp] theorem dropAcc_bar (s : State) (a : Nat) : (dropAcc s a).bar = s.bar := rfl
@[simp] theorem dropAcc_det (s : State) (a : Nat) : (dropAcc s a).det = s.det := rfl
@[simp] theorem dropAcc_qwin (s : State) (a : Nat) : (dropAcc s a).qwin = s.qwin := rfl
@[simp] theorem dropAcc_xwin (s : State) (a : Nat) : (dropAcc s a).xwin = s.xwin := rfl
@[simp] theorem dropAcc_gwin (s : State) (a : Nat) : (dropAcc s a).gwin = s.gwin := rfl
@[simp] theorem dropAcc_twin (s : State) (a : Nat) : (dropAcc s a).twin = s.twin := rfl
@[simp] theorem dropAcc_swin (s : State) (a : Nat) : (dropAcc s a).swin = s.swin := rfl
@[simp] theorem dropAcc_pwin (s : State) (a : Nat) : (dropAcc s a).pwin = s.pwin := rfl
@[simp] theorem dropAcc_cc (s : State) (a : Nat) : (dropAcc s a).cc = s.cc := rfl
@[simp] theorem dropAcc_out (s : State) (a : Nat) : (dropAcc s a).out = s.out := rfl
@[simp] theorem dropAcc_pending (s : State) (a : Nat) : (dropAcc s a).pending = s.pending := rfl

@[simp] theorem updXlt_clk (s : State) (f : XltUnit → XltUnit) : (updXlt s f).clk = s.clk := rfl
@[simp] theorem updXlt_boot (s : State) (f : XltUnit → XltUnit) : (updXlt s f).boot = s.boot := rfl
@[simp] theorem updXlt_img (s : State) (f : XltUnit → XltUnit) : (updXlt s f).img = s.img := rfl
@[simp] theorem updXlt_glob (s : State) (f : XltUnit → XltUnit) : (updXlt s f).glob = s.glob := rfl
@[simp] theorem updXlt_clr (s : State) (f : XltUnit → XltUnit) : (updXlt s f).clr = s.clr := rfl
@[simp] theorem updXlt_win (s : State) (f : XltUnit → XltUnit) : (updXlt s f).win = s.win := rfl
@[simp] theorem updXlt_ctx (s : State) (f : XltUnit → XltUnit) : (updXlt s f).ctx = s.ctx := rfl
@[simp] theorem updXlt_cal (s : State) (f : XltUnit → XltUnit) : (updXlt s f).cal = s.cal := rfl
@[simp] theorem updXlt_err (s : State) (f : XltUnit → XltUnit) : (updXlt s f).err = s.err := rfl
@[simp] theorem updXlt_rings (s : State) (f : XltUnit → XltUnit) : (updXlt s f).rings = s.rings := rfl
@[simp] theorem updXlt_que (s : State) (f : XltUnit → XltUnit) : (updXlt s f).que = s.que := rfl
@[simp] theorem updXlt_queues (s : State) (f : XltUnit → XltUnit) : (updXlt s f).queues = s.queues := rfl
@[simp] theorem updXlt_tasks (s : State) (f : XltUnit → XltUnit) : (updXlt s f).tasks = s.tasks := rfl
@[simp] theorem updXlt_acc (s : State) (f : XltUnit → XltUnit) : (updXlt s f).acc = s.acc := rfl
@[simp] theorem updXlt_accNext (s : State) (f : XltUnit → XltUnit) : (updXlt s f).accNext = s.accNext := rfl
@[simp] theorem updXlt_tbl (s : State) (f : XltUnit → XltUnit) : (updXlt s f).tbl = s.tbl := rfl
@[simp] theorem updXlt_sch (s : State) (f : XltUnit → XltUnit) : (updXlt s f).sch = s.sch := rfl
@[simp] theorem updXlt_pwr (s : State) (f : XltUnit → XltUnit) : (updXlt s f).pwr = s.pwr := rfl
@[simp] theorem updXlt_mbx (s : State) (f : XltUnit → XltUnit) : (updXlt s f).mbx = s.mbx := rfl
@[simp] theorem updXlt_key (s : State) (f : XltUnit → XltUnit) : (updXlt s f).key = s.key := rfl
@[simp] theorem updXlt_tap (s : State) (f : XltUnit → XltUnit) : (updXlt s f).tap = s.tap := rfl
@[simp] theorem updXlt_trl (s : State) (f : XltUnit → XltUnit) : (updXlt s f).trl = s.trl := rfl
@[simp] theorem updXlt_ls (s : State) (f : XltUnit → XltUnit) : (updXlt s f).ls = s.ls := rfl
@[simp] theorem updXlt_bar (s : State) (f : XltUnit → XltUnit) : (updXlt s f).bar = s.bar := rfl
@[simp] theorem updXlt_det (s : State) (f : XltUnit → XltUnit) : (updXlt s f).det = s.det := rfl
@[simp] theorem updXlt_qwin (s : State) (f : XltUnit → XltUnit) : (updXlt s f).qwin = s.qwin := rfl
@[simp] theorem updXlt_xwin (s : State) (f : XltUnit → XltUnit) : (updXlt s f).xwin = s.xwin := rfl
@[simp] theorem updXlt_gwin (s : State) (f : XltUnit → XltUnit) : (updXlt s f).gwin = s.gwin := rfl
@[simp] theorem updXlt_twin (s : State) (f : XltUnit → XltUnit) : (updXlt s f).twin = s.twin := rfl
@[simp] theorem updXlt_swin (s : State) (f : XltUnit → XltUnit) : (updXlt s f).swin = s.swin := rfl
@[simp] theorem updXlt_pwin (s : State) (f : XltUnit → XltUnit) : (updXlt s f).pwin = s.pwin := rfl
@[simp] theorem updXlt_cc (s : State) (f : XltUnit → XltUnit) : (updXlt s f).cc = s.cc := rfl
@[simp] theorem updXlt_out (s : State) (f : XltUnit → XltUnit) : (updXlt s f).out = s.out := rfl
@[simp] theorem updXlt_pending (s : State) (f : XltUnit → XltUnit) : (updXlt s f).pending = s.pending := rfl

@[simp] theorem updTbl_clk (s : State) (f : TblUnit → TblUnit) : (updTbl s f).clk = s.clk := rfl
@[simp] theorem updTbl_boot (s : State) (f : TblUnit → TblUnit) : (updTbl s f).boot = s.boot := rfl
@[simp] theorem updTbl_img (s : State) (f : TblUnit → TblUnit) : (updTbl s f).img = s.img := rfl
@[simp] theorem updTbl_glob (s : State) (f : TblUnit → TblUnit) : (updTbl s f).glob = s.glob := rfl
@[simp] theorem updTbl_clr (s : State) (f : TblUnit → TblUnit) : (updTbl s f).clr = s.clr := rfl
@[simp] theorem updTbl_win (s : State) (f : TblUnit → TblUnit) : (updTbl s f).win = s.win := rfl
@[simp] theorem updTbl_ctx (s : State) (f : TblUnit → TblUnit) : (updTbl s f).ctx = s.ctx := rfl
@[simp] theorem updTbl_cal (s : State) (f : TblUnit → TblUnit) : (updTbl s f).cal = s.cal := rfl
@[simp] theorem updTbl_err (s : State) (f : TblUnit → TblUnit) : (updTbl s f).err = s.err := rfl
@[simp] theorem updTbl_rings (s : State) (f : TblUnit → TblUnit) : (updTbl s f).rings = s.rings := rfl
@[simp] theorem updTbl_que (s : State) (f : TblUnit → TblUnit) : (updTbl s f).que = s.que := rfl
@[simp] theorem updTbl_queues (s : State) (f : TblUnit → TblUnit) : (updTbl s f).queues = s.queues := rfl
@[simp] theorem updTbl_tasks (s : State) (f : TblUnit → TblUnit) : (updTbl s f).tasks = s.tasks := rfl
@[simp] theorem updTbl_acc (s : State) (f : TblUnit → TblUnit) : (updTbl s f).acc = s.acc := rfl
@[simp] theorem updTbl_accNext (s : State) (f : TblUnit → TblUnit) : (updTbl s f).accNext = s.accNext := rfl
@[simp] theorem updTbl_xlt (s : State) (f : TblUnit → TblUnit) : (updTbl s f).xlt = s.xlt := rfl
@[simp] theorem updTbl_sch (s : State) (f : TblUnit → TblUnit) : (updTbl s f).sch = s.sch := rfl
@[simp] theorem updTbl_pwr (s : State) (f : TblUnit → TblUnit) : (updTbl s f).pwr = s.pwr := rfl
@[simp] theorem updTbl_mbx (s : State) (f : TblUnit → TblUnit) : (updTbl s f).mbx = s.mbx := rfl
@[simp] theorem updTbl_key (s : State) (f : TblUnit → TblUnit) : (updTbl s f).key = s.key := rfl
@[simp] theorem updTbl_tap (s : State) (f : TblUnit → TblUnit) : (updTbl s f).tap = s.tap := rfl
@[simp] theorem updTbl_trl (s : State) (f : TblUnit → TblUnit) : (updTbl s f).trl = s.trl := rfl
@[simp] theorem updTbl_ls (s : State) (f : TblUnit → TblUnit) : (updTbl s f).ls = s.ls := rfl
@[simp] theorem updTbl_bar (s : State) (f : TblUnit → TblUnit) : (updTbl s f).bar = s.bar := rfl
@[simp] theorem updTbl_det (s : State) (f : TblUnit → TblUnit) : (updTbl s f).det = s.det := rfl
@[simp] theorem updTbl_qwin (s : State) (f : TblUnit → TblUnit) : (updTbl s f).qwin = s.qwin := rfl
@[simp] theorem updTbl_xwin (s : State) (f : TblUnit → TblUnit) : (updTbl s f).xwin = s.xwin := rfl
@[simp] theorem updTbl_gwin (s : State) (f : TblUnit → TblUnit) : (updTbl s f).gwin = s.gwin := rfl
@[simp] theorem updTbl_twin (s : State) (f : TblUnit → TblUnit) : (updTbl s f).twin = s.twin := rfl
@[simp] theorem updTbl_swin (s : State) (f : TblUnit → TblUnit) : (updTbl s f).swin = s.swin := rfl
@[simp] theorem updTbl_pwin (s : State) (f : TblUnit → TblUnit) : (updTbl s f).pwin = s.pwin := rfl
@[simp] theorem updTbl_cc (s : State) (f : TblUnit → TblUnit) : (updTbl s f).cc = s.cc := rfl
@[simp] theorem updTbl_out (s : State) (f : TblUnit → TblUnit) : (updTbl s f).out = s.out := rfl
@[simp] theorem updTbl_pending (s : State) (f : TblUnit → TblUnit) : (updTbl s f).pending = s.pending := rfl

@[simp] theorem updDesc_clk (s : State) (d : Nat) (f : Tbl → Tbl) : (updDesc s d f).clk = s.clk := rfl
@[simp] theorem updDesc_boot (s : State) (d : Nat) (f : Tbl → Tbl) : (updDesc s d f).boot = s.boot := rfl
@[simp] theorem updDesc_img (s : State) (d : Nat) (f : Tbl → Tbl) : (updDesc s d f).img = s.img := rfl
@[simp] theorem updDesc_glob (s : State) (d : Nat) (f : Tbl → Tbl) : (updDesc s d f).glob = s.glob := rfl
@[simp] theorem updDesc_clr (s : State) (d : Nat) (f : Tbl → Tbl) : (updDesc s d f).clr = s.clr := rfl
@[simp] theorem updDesc_win (s : State) (d : Nat) (f : Tbl → Tbl) : (updDesc s d f).win = s.win := rfl
@[simp] theorem updDesc_ctx (s : State) (d : Nat) (f : Tbl → Tbl) : (updDesc s d f).ctx = s.ctx := rfl
@[simp] theorem updDesc_cal (s : State) (d : Nat) (f : Tbl → Tbl) : (updDesc s d f).cal = s.cal := rfl
@[simp] theorem updDesc_err (s : State) (d : Nat) (f : Tbl → Tbl) : (updDesc s d f).err = s.err := rfl
@[simp] theorem updDesc_rings (s : State) (d : Nat) (f : Tbl → Tbl) : (updDesc s d f).rings = s.rings := rfl
@[simp] theorem updDesc_que (s : State) (d : Nat) (f : Tbl → Tbl) : (updDesc s d f).que = s.que := rfl
@[simp] theorem updDesc_queues (s : State) (d : Nat) (f : Tbl → Tbl) : (updDesc s d f).queues = s.queues := rfl
@[simp] theorem updDesc_tasks (s : State) (d : Nat) (f : Tbl → Tbl) : (updDesc s d f).tasks = s.tasks := rfl
@[simp] theorem updDesc_acc (s : State) (d : Nat) (f : Tbl → Tbl) : (updDesc s d f).acc = s.acc := rfl
@[simp] theorem updDesc_accNext (s : State) (d : Nat) (f : Tbl → Tbl) : (updDesc s d f).accNext = s.accNext := rfl
@[simp] theorem updDesc_xlt (s : State) (d : Nat) (f : Tbl → Tbl) : (updDesc s d f).xlt = s.xlt := rfl
@[simp] theorem updDesc_sch (s : State) (d : Nat) (f : Tbl → Tbl) : (updDesc s d f).sch = s.sch := rfl
@[simp] theorem updDesc_pwr (s : State) (d : Nat) (f : Tbl → Tbl) : (updDesc s d f).pwr = s.pwr := rfl
@[simp] theorem updDesc_mbx (s : State) (d : Nat) (f : Tbl → Tbl) : (updDesc s d f).mbx = s.mbx := rfl
@[simp] theorem updDesc_key (s : State) (d : Nat) (f : Tbl → Tbl) : (updDesc s d f).key = s.key := rfl
@[simp] theorem updDesc_tap (s : State) (d : Nat) (f : Tbl → Tbl) : (updDesc s d f).tap = s.tap := rfl
@[simp] theorem updDesc_trl (s : State) (d : Nat) (f : Tbl → Tbl) : (updDesc s d f).trl = s.trl := rfl
@[simp] theorem updDesc_ls (s : State) (d : Nat) (f : Tbl → Tbl) : (updDesc s d f).ls = s.ls := rfl
@[simp] theorem updDesc_bar (s : State) (d : Nat) (f : Tbl → Tbl) : (updDesc s d f).bar = s.bar := rfl
@[simp] theorem updDesc_det (s : State) (d : Nat) (f : Tbl → Tbl) : (updDesc s d f).det = s.det := rfl
@[simp] theorem updDesc_qwin (s : State) (d : Nat) (f : Tbl → Tbl) : (updDesc s d f).qwin = s.qwin := rfl
@[simp] theorem updDesc_xwin (s : State) (d : Nat) (f : Tbl → Tbl) : (updDesc s d f).xwin = s.xwin := rfl
@[simp] theorem updDesc_gwin (s : State) (d : Nat) (f : Tbl → Tbl) : (updDesc s d f).gwin = s.gwin := rfl
@[simp] theorem updDesc_twin (s : State) (d : Nat) (f : Tbl → Tbl) : (updDesc s d f).twin = s.twin := rfl
@[simp] theorem updDesc_swin (s : State) (d : Nat) (f : Tbl → Tbl) : (updDesc s d f).swin = s.swin := rfl
@[simp] theorem updDesc_pwin (s : State) (d : Nat) (f : Tbl → Tbl) : (updDesc s d f).pwin = s.pwin := rfl
@[simp] theorem updDesc_cc (s : State) (d : Nat) (f : Tbl → Tbl) : (updDesc s d f).cc = s.cc := rfl
@[simp] theorem updDesc_out (s : State) (d : Nat) (f : Tbl → Tbl) : (updDesc s d f).out = s.out := rfl
@[simp] theorem updDesc_pending (s : State) (d : Nat) (f : Tbl → Tbl) : (updDesc s d f).pending = s.pending := rfl

@[simp] theorem updEngine_clk (s : State) (e : Nat) (f : Engine → Engine) : (updEngine s e f).clk = s.clk := rfl
@[simp] theorem updEngine_boot (s : State) (e : Nat) (f : Engine → Engine) : (updEngine s e f).boot = s.boot := rfl
@[simp] theorem updEngine_img (s : State) (e : Nat) (f : Engine → Engine) : (updEngine s e f).img = s.img := rfl
@[simp] theorem updEngine_glob (s : State) (e : Nat) (f : Engine → Engine) : (updEngine s e f).glob = s.glob := rfl
@[simp] theorem updEngine_clr (s : State) (e : Nat) (f : Engine → Engine) : (updEngine s e f).clr = s.clr := rfl
@[simp] theorem updEngine_win (s : State) (e : Nat) (f : Engine → Engine) : (updEngine s e f).win = s.win := rfl
@[simp] theorem updEngine_ctx (s : State) (e : Nat) (f : Engine → Engine) : (updEngine s e f).ctx = s.ctx := rfl
@[simp] theorem updEngine_cal (s : State) (e : Nat) (f : Engine → Engine) : (updEngine s e f).cal = s.cal := rfl
@[simp] theorem updEngine_err (s : State) (e : Nat) (f : Engine → Engine) : (updEngine s e f).err = s.err := rfl
@[simp] theorem updEngine_rings (s : State) (e : Nat) (f : Engine → Engine) : (updEngine s e f).rings = s.rings := rfl
@[simp] theorem updEngine_que (s : State) (e : Nat) (f : Engine → Engine) : (updEngine s e f).que = s.que := rfl
@[simp] theorem updEngine_queues (s : State) (e : Nat) (f : Engine → Engine) : (updEngine s e f).queues = s.queues := rfl
@[simp] theorem updEngine_tasks (s : State) (e : Nat) (f : Engine → Engine) : (updEngine s e f).tasks = s.tasks := rfl
@[simp] theorem updEngine_acc (s : State) (e : Nat) (f : Engine → Engine) : (updEngine s e f).acc = s.acc := rfl
@[simp] theorem updEngine_accNext (s : State) (e : Nat) (f : Engine → Engine) : (updEngine s e f).accNext = s.accNext := rfl
@[simp] theorem updEngine_xlt (s : State) (e : Nat) (f : Engine → Engine) : (updEngine s e f).xlt = s.xlt := rfl
@[simp] theorem updEngine_sch (s : State) (e : Nat) (f : Engine → Engine) : (updEngine s e f).sch = s.sch := rfl
@[simp] theorem updEngine_pwr (s : State) (e : Nat) (f : Engine → Engine) : (updEngine s e f).pwr = s.pwr := rfl
@[simp] theorem updEngine_mbx (s : State) (e : Nat) (f : Engine → Engine) : (updEngine s e f).mbx = s.mbx := rfl
@[simp] theorem updEngine_key (s : State) (e : Nat) (f : Engine → Engine) : (updEngine s e f).key = s.key := rfl
@[simp] theorem updEngine_tap (s : State) (e : Nat) (f : Engine → Engine) : (updEngine s e f).tap = s.tap := rfl
@[simp] theorem updEngine_trl (s : State) (e : Nat) (f : Engine → Engine) : (updEngine s e f).trl = s.trl := rfl
@[simp] theorem updEngine_ls (s : State) (e : Nat) (f : Engine → Engine) : (updEngine s e f).ls = s.ls := rfl
@[simp] theorem updEngine_bar (s : State) (e : Nat) (f : Engine → Engine) : (updEngine s e f).bar = s.bar := rfl
@[simp] theorem updEngine_det (s : State) (e : Nat) (f : Engine → Engine) : (updEngine s e f).det = s.det := rfl
@[simp] theorem updEngine_qwin (s : State) (e : Nat) (f : Engine → Engine) : (updEngine s e f).qwin = s.qwin := rfl
@[simp] theorem updEngine_xwin (s : State) (e : Nat) (f : Engine → Engine) : (updEngine s e f).xwin = s.xwin := rfl
@[simp] theorem updEngine_gwin (s : State) (e : Nat) (f : Engine → Engine) : (updEngine s e f).gwin = s.gwin := rfl
@[simp] theorem updEngine_twin (s : State) (e : Nat) (f : Engine → Engine) : (updEngine s e f).twin = s.twin := rfl
@[simp] theorem updEngine_swin (s : State) (e : Nat) (f : Engine → Engine) : (updEngine s e f).swin = s.swin := rfl
@[simp] theorem updEngine_pwin (s : State) (e : Nat) (f : Engine → Engine) : (updEngine s e f).pwin = s.pwin := rfl
@[simp] theorem updEngine_cc (s : State) (e : Nat) (f : Engine → Engine) : (updEngine s e f).cc = s.cc := rfl
@[simp] theorem updEngine_out (s : State) (e : Nat) (f : Engine → Engine) : (updEngine s e f).out = s.out := rfl
@[simp] theorem updEngine_pending (s : State) (e : Nat) (f : Engine → Engine) : (updEngine s e f).pending = s.pending := rfl

@[simp] theorem updSch_clk (s : State) (f : SchUnit → SchUnit) : (updSch s f).clk = s.clk := rfl
@[simp] theorem updSch_boot (s : State) (f : SchUnit → SchUnit) : (updSch s f).boot = s.boot := rfl
@[simp] theorem updSch_img (s : State) (f : SchUnit → SchUnit) : (updSch s f).img = s.img := rfl
@[simp] theorem updSch_glob (s : State) (f : SchUnit → SchUnit) : (updSch s f).glob = s.glob := rfl
@[simp] theorem updSch_clr (s : State) (f : SchUnit → SchUnit) : (updSch s f).clr = s.clr := rfl
@[simp] theorem updSch_win (s : State) (f : SchUnit → SchUnit) : (updSch s f).win = s.win := rfl
@[simp] theorem updSch_ctx (s : State) (f : SchUnit → SchUnit) : (updSch s f).ctx = s.ctx := rfl
@[simp] theorem updSch_cal (s : State) (f : SchUnit → SchUnit) : (updSch s f).cal = s.cal := rfl
@[simp] theorem updSch_err (s : State) (f : SchUnit → SchUnit) : (updSch s f).err = s.err := rfl
@[simp] theorem updSch_rings (s : State) (f : SchUnit → SchUnit) : (updSch s f).rings = s.rings := rfl
@[simp] theorem updSch_que (s : State) (f : SchUnit → SchUnit) : (updSch s f).que = s.que := rfl
@[simp] theorem updSch_queues (s : State) (f : SchUnit → SchUnit) : (updSch s f).queues = s.queues := rfl
@[simp] theorem updSch_tasks (s : State) (f : SchUnit → SchUnit) : (updSch s f).tasks = s.tasks := rfl
@[simp] theorem updSch_acc (s : State) (f : SchUnit → SchUnit) : (updSch s f).acc = s.acc := rfl
@[simp] theorem updSch_accNext (s : State) (f : SchUnit → SchUnit) : (updSch s f).accNext = s.accNext := rfl
@[simp] theorem updSch_xlt (s : State) (f : SchUnit → SchUnit) : (updSch s f).xlt = s.xlt := rfl
@[simp] theorem updSch_tbl (s : State) (f : SchUnit → SchUnit) : (updSch s f).tbl = s.tbl := rfl
@[simp] theorem updSch_pwr (s : State) (f : SchUnit → SchUnit) : (updSch s f).pwr = s.pwr := rfl
@[simp] theorem updSch_mbx (s : State) (f : SchUnit → SchUnit) : (updSch s f).mbx = s.mbx := rfl
@[simp] theorem updSch_key (s : State) (f : SchUnit → SchUnit) : (updSch s f).key = s.key := rfl
@[simp] theorem updSch_tap (s : State) (f : SchUnit → SchUnit) : (updSch s f).tap = s.tap := rfl
@[simp] theorem updSch_trl (s : State) (f : SchUnit → SchUnit) : (updSch s f).trl = s.trl := rfl
@[simp] theorem updSch_ls (s : State) (f : SchUnit → SchUnit) : (updSch s f).ls = s.ls := rfl
@[simp] theorem updSch_bar (s : State) (f : SchUnit → SchUnit) : (updSch s f).bar = s.bar := rfl
@[simp] theorem updSch_det (s : State) (f : SchUnit → SchUnit) : (updSch s f).det = s.det := rfl
@[simp] theorem updSch_qwin (s : State) (f : SchUnit → SchUnit) : (updSch s f).qwin = s.qwin := rfl
@[simp] theorem updSch_xwin (s : State) (f : SchUnit → SchUnit) : (updSch s f).xwin = s.xwin := rfl
@[simp] theorem updSch_gwin (s : State) (f : SchUnit → SchUnit) : (updSch s f).gwin = s.gwin := rfl
@[simp] theorem updSch_twin (s : State) (f : SchUnit → SchUnit) : (updSch s f).twin = s.twin := rfl
@[simp] theorem updSch_swin (s : State) (f : SchUnit → SchUnit) : (updSch s f).swin = s.swin := rfl
@[simp] theorem updSch_pwin (s : State) (f : SchUnit → SchUnit) : (updSch s f).pwin = s.pwin := rfl
@[simp] theorem updSch_cc (s : State) (f : SchUnit → SchUnit) : (updSch s f).cc = s.cc := rfl
@[simp] theorem updSch_out (s : State) (f : SchUnit → SchUnit) : (updSch s f).out = s.out := rfl
@[simp] theorem updSch_pending (s : State) (f : SchUnit → SchUnit) : (updSch s f).pending = s.pending := rfl

@[simp] theorem updCore_clk (s : State) (c : Nat) (f : Core → Core) : (updCore s c f).clk = s.clk := rfl
@[simp] theorem updCore_boot (s : State) (c : Nat) (f : Core → Core) : (updCore s c f).boot = s.boot := rfl
@[simp] theorem updCore_img (s : State) (c : Nat) (f : Core → Core) : (updCore s c f).img = s.img := rfl
@[simp] theorem updCore_glob (s : State) (c : Nat) (f : Core → Core) : (updCore s c f).glob = s.glob := rfl
@[simp] theorem updCore_clr (s : State) (c : Nat) (f : Core → Core) : (updCore s c f).clr = s.clr := rfl
@[simp] theorem updCore_win (s : State) (c : Nat) (f : Core → Core) : (updCore s c f).win = s.win := rfl
@[simp] theorem updCore_ctx (s : State) (c : Nat) (f : Core → Core) : (updCore s c f).ctx = s.ctx := rfl
@[simp] theorem updCore_cal (s : State) (c : Nat) (f : Core → Core) : (updCore s c f).cal = s.cal := rfl
@[simp] theorem updCore_err (s : State) (c : Nat) (f : Core → Core) : (updCore s c f).err = s.err := rfl
@[simp] theorem updCore_rings (s : State) (c : Nat) (f : Core → Core) : (updCore s c f).rings = s.rings := rfl
@[simp] theorem updCore_que (s : State) (c : Nat) (f : Core → Core) : (updCore s c f).que = s.que := rfl
@[simp] theorem updCore_queues (s : State) (c : Nat) (f : Core → Core) : (updCore s c f).queues = s.queues := rfl
@[simp] theorem updCore_tasks (s : State) (c : Nat) (f : Core → Core) : (updCore s c f).tasks = s.tasks := rfl
@[simp] theorem updCore_acc (s : State) (c : Nat) (f : Core → Core) : (updCore s c f).acc = s.acc := rfl
@[simp] theorem updCore_accNext (s : State) (c : Nat) (f : Core → Core) : (updCore s c f).accNext = s.accNext := rfl
@[simp] theorem updCore_xlt (s : State) (c : Nat) (f : Core → Core) : (updCore s c f).xlt = s.xlt := rfl
@[simp] theorem updCore_tbl (s : State) (c : Nat) (f : Core → Core) : (updCore s c f).tbl = s.tbl := rfl
@[simp] theorem updCore_pwr (s : State) (c : Nat) (f : Core → Core) : (updCore s c f).pwr = s.pwr := rfl
@[simp] theorem updCore_mbx (s : State) (c : Nat) (f : Core → Core) : (updCore s c f).mbx = s.mbx := rfl
@[simp] theorem updCore_key (s : State) (c : Nat) (f : Core → Core) : (updCore s c f).key = s.key := rfl
@[simp] theorem updCore_tap (s : State) (c : Nat) (f : Core → Core) : (updCore s c f).tap = s.tap := rfl
@[simp] theorem updCore_trl (s : State) (c : Nat) (f : Core → Core) : (updCore s c f).trl = s.trl := rfl
@[simp] theorem updCore_ls (s : State) (c : Nat) (f : Core → Core) : (updCore s c f).ls = s.ls := rfl
@[simp] theorem updCore_bar (s : State) (c : Nat) (f : Core → Core) : (updCore s c f).bar = s.bar := rfl
@[simp] theorem updCore_det (s : State) (c : Nat) (f : Core → Core) : (updCore s c f).det = s.det := rfl
@[simp] theorem updCore_qwin (s : State) (c : Nat) (f : Core → Core) : (updCore s c f).qwin = s.qwin := rfl
@[simp] theorem updCore_xwin (s : State) (c : Nat) (f : Core → Core) : (updCore s c f).xwin = s.xwin := rfl
@[simp] theorem updCore_gwin (s : State) (c : Nat) (f : Core → Core) : (updCore s c f).gwin = s.gwin := rfl
@[simp] theorem updCore_twin (s : State) (c : Nat) (f : Core → Core) : (updCore s c f).twin = s.twin := rfl
@[simp] theorem updCore_swin (s : State) (c : Nat) (f : Core → Core) : (updCore s c f).swin = s.swin := rfl
@[simp] theorem updCore_pwin (s : State) (c : Nat) (f : Core → Core) : (updCore s c f).pwin = s.pwin := rfl
@[simp] theorem updCore_cc (s : State) (c : Nat) (f : Core → Core) : (updCore s c f).cc = s.cc := rfl
@[simp] theorem updCore_out (s : State) (c : Nat) (f : Core → Core) : (updCore s c f).out = s.out := rfl
@[simp] theorem updCore_pending (s : State) (c : Nat) (f : Core → Core) : (updCore s c f).pending = s.pending := rfl

@[simp] theorem updJob_clk (s : State) (j : Nat) (f : Job → Job) : (updJob s j f).clk = s.clk := rfl
@[simp] theorem updJob_boot (s : State) (j : Nat) (f : Job → Job) : (updJob s j f).boot = s.boot := rfl
@[simp] theorem updJob_img (s : State) (j : Nat) (f : Job → Job) : (updJob s j f).img = s.img := rfl
@[simp] theorem updJob_glob (s : State) (j : Nat) (f : Job → Job) : (updJob s j f).glob = s.glob := rfl
@[simp] theorem updJob_clr (s : State) (j : Nat) (f : Job → Job) : (updJob s j f).clr = s.clr := rfl
@[simp] theorem updJob_win (s : State) (j : Nat) (f : Job → Job) : (updJob s j f).win = s.win := rfl
@[simp] theorem updJob_ctx (s : State) (j : Nat) (f : Job → Job) : (updJob s j f).ctx = s.ctx := rfl
@[simp] theorem updJob_cal (s : State) (j : Nat) (f : Job → Job) : (updJob s j f).cal = s.cal := rfl
@[simp] theorem updJob_err (s : State) (j : Nat) (f : Job → Job) : (updJob s j f).err = s.err := rfl
@[simp] theorem updJob_rings (s : State) (j : Nat) (f : Job → Job) : (updJob s j f).rings = s.rings := rfl
@[simp] theorem updJob_que (s : State) (j : Nat) (f : Job → Job) : (updJob s j f).que = s.que := rfl
@[simp] theorem updJob_queues (s : State) (j : Nat) (f : Job → Job) : (updJob s j f).queues = s.queues := rfl
@[simp] theorem updJob_tasks (s : State) (j : Nat) (f : Job → Job) : (updJob s j f).tasks = s.tasks := rfl
@[simp] theorem updJob_acc (s : State) (j : Nat) (f : Job → Job) : (updJob s j f).acc = s.acc := rfl
@[simp] theorem updJob_accNext (s : State) (j : Nat) (f : Job → Job) : (updJob s j f).accNext = s.accNext := rfl
@[simp] theorem updJob_xlt (s : State) (j : Nat) (f : Job → Job) : (updJob s j f).xlt = s.xlt := rfl
@[simp] theorem updJob_tbl (s : State) (j : Nat) (f : Job → Job) : (updJob s j f).tbl = s.tbl := rfl
@[simp] theorem updJob_pwr (s : State) (j : Nat) (f : Job → Job) : (updJob s j f).pwr = s.pwr := rfl
@[simp] theorem updJob_mbx (s : State) (j : Nat) (f : Job → Job) : (updJob s j f).mbx = s.mbx := rfl
@[simp] theorem updJob_key (s : State) (j : Nat) (f : Job → Job) : (updJob s j f).key = s.key := rfl
@[simp] theorem updJob_tap (s : State) (j : Nat) (f : Job → Job) : (updJob s j f).tap = s.tap := rfl
@[simp] theorem updJob_trl (s : State) (j : Nat) (f : Job → Job) : (updJob s j f).trl = s.trl := rfl
@[simp] theorem updJob_ls (s : State) (j : Nat) (f : Job → Job) : (updJob s j f).ls = s.ls := rfl
@[simp] theorem updJob_bar (s : State) (j : Nat) (f : Job → Job) : (updJob s j f).bar = s.bar := rfl
@[simp] theorem updJob_det (s : State) (j : Nat) (f : Job → Job) : (updJob s j f).det = s.det := rfl
@[simp] theorem updJob_qwin (s : State) (j : Nat) (f : Job → Job) : (updJob s j f).qwin = s.qwin := rfl
@[simp] theorem updJob_xwin (s : State) (j : Nat) (f : Job → Job) : (updJob s j f).xwin = s.xwin := rfl
@[simp] theorem updJob_gwin (s : State) (j : Nat) (f : Job → Job) : (updJob s j f).gwin = s.gwin := rfl
@[simp] theorem updJob_twin (s : State) (j : Nat) (f : Job → Job) : (updJob s j f).twin = s.twin := rfl
@[simp] theorem updJob_swin (s : State) (j : Nat) (f : Job → Job) : (updJob s j f).swin = s.swin := rfl
@[simp] theorem updJob_pwin (s : State) (j : Nat) (f : Job → Job) : (updJob s j f).pwin = s.pwin := rfl
@[simp] theorem updJob_cc (s : State) (j : Nat) (f : Job → Job) : (updJob s j f).cc = s.cc := rfl
@[simp] theorem updJob_out (s : State) (j : Nat) (f : Job → Job) : (updJob s j f).out = s.out := rfl
@[simp] theorem updJob_pending (s : State) (j : Nat) (f : Job → Job) : (updJob s j f).pending = s.pending := rfl

@[simp] theorem updAcct_clk (s : State) (c : Nat) (f : CtxAcct → CtxAcct) : (updAcct s c f).clk = s.clk := rfl
@[simp] theorem updAcct_boot (s : State) (c : Nat) (f : CtxAcct → CtxAcct) : (updAcct s c f).boot = s.boot := rfl
@[simp] theorem updAcct_img (s : State) (c : Nat) (f : CtxAcct → CtxAcct) : (updAcct s c f).img = s.img := rfl
@[simp] theorem updAcct_glob (s : State) (c : Nat) (f : CtxAcct → CtxAcct) : (updAcct s c f).glob = s.glob := rfl
@[simp] theorem updAcct_clr (s : State) (c : Nat) (f : CtxAcct → CtxAcct) : (updAcct s c f).clr = s.clr := rfl
@[simp] theorem updAcct_win (s : State) (c : Nat) (f : CtxAcct → CtxAcct) : (updAcct s c f).win = s.win := rfl
@[simp] theorem updAcct_ctx (s : State) (c : Nat) (f : CtxAcct → CtxAcct) : (updAcct s c f).ctx = s.ctx := rfl
@[simp] theorem updAcct_cal (s : State) (c : Nat) (f : CtxAcct → CtxAcct) : (updAcct s c f).cal = s.cal := rfl
@[simp] theorem updAcct_err (s : State) (c : Nat) (f : CtxAcct → CtxAcct) : (updAcct s c f).err = s.err := rfl
@[simp] theorem updAcct_rings (s : State) (c : Nat) (f : CtxAcct → CtxAcct) : (updAcct s c f).rings = s.rings := rfl
@[simp] theorem updAcct_que (s : State) (c : Nat) (f : CtxAcct → CtxAcct) : (updAcct s c f).que = s.que := rfl
@[simp] theorem updAcct_queues (s : State) (c : Nat) (f : CtxAcct → CtxAcct) : (updAcct s c f).queues = s.queues := rfl
@[simp] theorem updAcct_tasks (s : State) (c : Nat) (f : CtxAcct → CtxAcct) : (updAcct s c f).tasks = s.tasks := rfl
@[simp] theorem updAcct_acc (s : State) (c : Nat) (f : CtxAcct → CtxAcct) : (updAcct s c f).acc = s.acc := rfl
@[simp] theorem updAcct_accNext (s : State) (c : Nat) (f : CtxAcct → CtxAcct) : (updAcct s c f).accNext = s.accNext := rfl
@[simp] theorem updAcct_xlt (s : State) (c : Nat) (f : CtxAcct → CtxAcct) : (updAcct s c f).xlt = s.xlt := rfl
@[simp] theorem updAcct_tbl (s : State) (c : Nat) (f : CtxAcct → CtxAcct) : (updAcct s c f).tbl = s.tbl := rfl
@[simp] theorem updAcct_pwr (s : State) (c : Nat) (f : CtxAcct → CtxAcct) : (updAcct s c f).pwr = s.pwr := rfl
@[simp] theorem updAcct_mbx (s : State) (c : Nat) (f : CtxAcct → CtxAcct) : (updAcct s c f).mbx = s.mbx := rfl
@[simp] theorem updAcct_key (s : State) (c : Nat) (f : CtxAcct → CtxAcct) : (updAcct s c f).key = s.key := rfl
@[simp] theorem updAcct_tap (s : State) (c : Nat) (f : CtxAcct → CtxAcct) : (updAcct s c f).tap = s.tap := rfl
@[simp] theorem updAcct_trl (s : State) (c : Nat) (f : CtxAcct → CtxAcct) : (updAcct s c f).trl = s.trl := rfl
@[simp] theorem updAcct_ls (s : State) (c : Nat) (f : CtxAcct → CtxAcct) : (updAcct s c f).ls = s.ls := rfl
@[simp] theorem updAcct_bar (s : State) (c : Nat) (f : CtxAcct → CtxAcct) : (updAcct s c f).bar = s.bar := rfl
@[simp] theorem updAcct_det (s : State) (c : Nat) (f : CtxAcct → CtxAcct) : (updAcct s c f).det = s.det := rfl
@[simp] theorem updAcct_qwin (s : State) (c : Nat) (f : CtxAcct → CtxAcct) : (updAcct s c f).qwin = s.qwin := rfl
@[simp] theorem updAcct_xwin (s : State) (c : Nat) (f : CtxAcct → CtxAcct) : (updAcct s c f).xwin = s.xwin := rfl
@[simp] theorem updAcct_gwin (s : State) (c : Nat) (f : CtxAcct → CtxAcct) : (updAcct s c f).gwin = s.gwin := rfl
@[simp] theorem updAcct_twin (s : State) (c : Nat) (f : CtxAcct → CtxAcct) : (updAcct s c f).twin = s.twin := rfl
@[simp] theorem updAcct_swin (s : State) (c : Nat) (f : CtxAcct → CtxAcct) : (updAcct s c f).swin = s.swin := rfl
@[simp] theorem updAcct_pwin (s : State) (c : Nat) (f : CtxAcct → CtxAcct) : (updAcct s c f).pwin = s.pwin := rfl
@[simp] theorem updAcct_cc (s : State) (c : Nat) (f : CtxAcct → CtxAcct) : (updAcct s c f).cc = s.cc := rfl
@[simp] theorem updAcct_out (s : State) (c : Nat) (f : CtxAcct → CtxAcct) : (updAcct s c f).out = s.out := rfl
@[simp] theorem updAcct_pending (s : State) (c : Nat) (f : CtxAcct → CtxAcct) : (updAcct s c f).pending = s.pending := rfl

@[simp] theorem updQwin_clk (s : State) (n : Nat) (f : QueWin → QueWin) : (updQwin s n f).clk = s.clk := rfl
@[simp] theorem updQwin_boot (s : State) (n : Nat) (f : QueWin → QueWin) : (updQwin s n f).boot = s.boot := rfl
@[simp] theorem updQwin_img (s : State) (n : Nat) (f : QueWin → QueWin) : (updQwin s n f).img = s.img := rfl
@[simp] theorem updQwin_glob (s : State) (n : Nat) (f : QueWin → QueWin) : (updQwin s n f).glob = s.glob := rfl
@[simp] theorem updQwin_clr (s : State) (n : Nat) (f : QueWin → QueWin) : (updQwin s n f).clr = s.clr := rfl
@[simp] theorem updQwin_win (s : State) (n : Nat) (f : QueWin → QueWin) : (updQwin s n f).win = s.win := rfl
@[simp] theorem updQwin_ctx (s : State) (n : Nat) (f : QueWin → QueWin) : (updQwin s n f).ctx = s.ctx := rfl
@[simp] theorem updQwin_cal (s : State) (n : Nat) (f : QueWin → QueWin) : (updQwin s n f).cal = s.cal := rfl
@[simp] theorem updQwin_err (s : State) (n : Nat) (f : QueWin → QueWin) : (updQwin s n f).err = s.err := rfl
@[simp] theorem updQwin_rings (s : State) (n : Nat) (f : QueWin → QueWin) : (updQwin s n f).rings = s.rings := rfl
@[simp] theorem updQwin_que (s : State) (n : Nat) (f : QueWin → QueWin) : (updQwin s n f).que = s.que := rfl
@[simp] theorem updQwin_queues (s : State) (n : Nat) (f : QueWin → QueWin) : (updQwin s n f).queues = s.queues := rfl
@[simp] theorem updQwin_tasks (s : State) (n : Nat) (f : QueWin → QueWin) : (updQwin s n f).tasks = s.tasks := rfl
@[simp] theorem updQwin_acc (s : State) (n : Nat) (f : QueWin → QueWin) : (updQwin s n f).acc = s.acc := rfl
@[simp] theorem updQwin_accNext (s : State) (n : Nat) (f : QueWin → QueWin) : (updQwin s n f).accNext = s.accNext := rfl
@[simp] theorem updQwin_xlt (s : State) (n : Nat) (f : QueWin → QueWin) : (updQwin s n f).xlt = s.xlt := rfl
@[simp] theorem updQwin_tbl (s : State) (n : Nat) (f : QueWin → QueWin) : (updQwin s n f).tbl = s.tbl := rfl
@[simp] theorem updQwin_sch (s : State) (n : Nat) (f : QueWin → QueWin) : (updQwin s n f).sch = s.sch := rfl
@[simp] theorem updQwin_pwr (s : State) (n : Nat) (f : QueWin → QueWin) : (updQwin s n f).pwr = s.pwr := rfl
@[simp] theorem updQwin_mbx (s : State) (n : Nat) (f : QueWin → QueWin) : (updQwin s n f).mbx = s.mbx := rfl
@[simp] theorem updQwin_key (s : State) (n : Nat) (f : QueWin → QueWin) : (updQwin s n f).key = s.key := rfl
@[simp] theorem updQwin_tap (s : State) (n : Nat) (f : QueWin → QueWin) : (updQwin s n f).tap = s.tap := rfl
@[simp] theorem updQwin_trl (s : State) (n : Nat) (f : QueWin → QueWin) : (updQwin s n f).trl = s.trl := rfl
@[simp] theorem updQwin_ls (s : State) (n : Nat) (f : QueWin → QueWin) : (updQwin s n f).ls = s.ls := rfl
@[simp] theorem updQwin_bar (s : State) (n : Nat) (f : QueWin → QueWin) : (updQwin s n f).bar = s.bar := rfl
@[simp] theorem updQwin_det (s : State) (n : Nat) (f : QueWin → QueWin) : (updQwin s n f).det = s.det := rfl
@[simp] theorem updQwin_xwin (s : State) (n : Nat) (f : QueWin → QueWin) : (updQwin s n f).xwin = s.xwin := rfl
@[simp] theorem updQwin_gwin (s : State) (n : Nat) (f : QueWin → QueWin) : (updQwin s n f).gwin = s.gwin := rfl
@[simp] theorem updQwin_twin (s : State) (n : Nat) (f : QueWin → QueWin) : (updQwin s n f).twin = s.twin := rfl
@[simp] theorem updQwin_swin (s : State) (n : Nat) (f : QueWin → QueWin) : (updQwin s n f).swin = s.swin := rfl
@[simp] theorem updQwin_pwin (s : State) (n : Nat) (f : QueWin → QueWin) : (updQwin s n f).pwin = s.pwin := rfl
@[simp] theorem updQwin_cc (s : State) (n : Nat) (f : QueWin → QueWin) : (updQwin s n f).cc = s.cc := rfl
@[simp] theorem updQwin_out (s : State) (n : Nat) (f : QueWin → QueWin) : (updQwin s n f).out = s.out := rfl
@[simp] theorem updQwin_pending (s : State) (n : Nat) (f : QueWin → QueWin) : (updQwin s n f).pending = s.pending := rfl

@[simp] theorem updXwin_clk (s : State) (n : Nat) (f : XltWin → XltWin) : (updXwin s n f).clk = s.clk := rfl
@[simp] theorem updXwin_boot (s : State) (n : Nat) (f : XltWin → XltWin) : (updXwin s n f).boot = s.boot := rfl
@[simp] theorem updXwin_img (s : State) (n : Nat) (f : XltWin → XltWin) : (updXwin s n f).img = s.img := rfl
@[simp] theorem updXwin_glob (s : State) (n : Nat) (f : XltWin → XltWin) : (updXwin s n f).glob = s.glob := rfl
@[simp] theorem updXwin_clr (s : State) (n : Nat) (f : XltWin → XltWin) : (updXwin s n f).clr = s.clr := rfl
@[simp] theorem updXwin_win (s : State) (n : Nat) (f : XltWin → XltWin) : (updXwin s n f).win = s.win := rfl
@[simp] theorem updXwin_ctx (s : State) (n : Nat) (f : XltWin → XltWin) : (updXwin s n f).ctx = s.ctx := rfl
@[simp] theorem updXwin_cal (s : State) (n : Nat) (f : XltWin → XltWin) : (updXwin s n f).cal = s.cal := rfl
@[simp] theorem updXwin_err (s : State) (n : Nat) (f : XltWin → XltWin) : (updXwin s n f).err = s.err := rfl
@[simp] theorem updXwin_rings (s : State) (n : Nat) (f : XltWin → XltWin) : (updXwin s n f).rings = s.rings := rfl
@[simp] theorem updXwin_que (s : State) (n : Nat) (f : XltWin → XltWin) : (updXwin s n f).que = s.que := rfl
@[simp] theorem updXwin_queues (s : State) (n : Nat) (f : XltWin → XltWin) : (updXwin s n f).queues = s.queues := rfl
@[simp] theorem updXwin_tasks (s : State) (n : Nat) (f : XltWin → XltWin) : (updXwin s n f).tasks = s.tasks := rfl
@[simp] theorem updXwin_acc (s : State) (n : Nat) (f : XltWin → XltWin) : (updXwin s n f).acc = s.acc := rfl
@[simp] theorem updXwin_accNext (s : State) (n : Nat) (f : XltWin → XltWin) : (updXwin s n f).accNext = s.accNext := rfl
@[simp] theorem updXwin_xlt (s : State) (n : Nat) (f : XltWin → XltWin) : (updXwin s n f).xlt = s.xlt := rfl
@[simp] theorem updXwin_tbl (s : State) (n : Nat) (f : XltWin → XltWin) : (updXwin s n f).tbl = s.tbl := rfl
@[simp] theorem updXwin_sch (s : State) (n : Nat) (f : XltWin → XltWin) : (updXwin s n f).sch = s.sch := rfl
@[simp] theorem updXwin_pwr (s : State) (n : Nat) (f : XltWin → XltWin) : (updXwin s n f).pwr = s.pwr := rfl
@[simp] theorem updXwin_mbx (s : State) (n : Nat) (f : XltWin → XltWin) : (updXwin s n f).mbx = s.mbx := rfl
@[simp] theorem updXwin_key (s : State) (n : Nat) (f : XltWin → XltWin) : (updXwin s n f).key = s.key := rfl
@[simp] theorem updXwin_tap (s : State) (n : Nat) (f : XltWin → XltWin) : (updXwin s n f).tap = s.tap := rfl
@[simp] theorem updXwin_trl (s : State) (n : Nat) (f : XltWin → XltWin) : (updXwin s n f).trl = s.trl := rfl
@[simp] theorem updXwin_ls (s : State) (n : Nat) (f : XltWin → XltWin) : (updXwin s n f).ls = s.ls := rfl
@[simp] theorem updXwin_bar (s : State) (n : Nat) (f : XltWin → XltWin) : (updXwin s n f).bar = s.bar := rfl
@[simp] theorem updXwin_det (s : State) (n : Nat) (f : XltWin → XltWin) : (updXwin s n f).det = s.det := rfl
@[simp] theorem updXwin_qwin (s : State) (n : Nat) (f : XltWin → XltWin) : (updXwin s n f).qwin = s.qwin := rfl
@[simp] theorem updXwin_gwin (s : State) (n : Nat) (f : XltWin → XltWin) : (updXwin s n f).gwin = s.gwin := rfl
@[simp] theorem updXwin_twin (s : State) (n : Nat) (f : XltWin → XltWin) : (updXwin s n f).twin = s.twin := rfl
@[simp] theorem updXwin_swin (s : State) (n : Nat) (f : XltWin → XltWin) : (updXwin s n f).swin = s.swin := rfl
@[simp] theorem updXwin_pwin (s : State) (n : Nat) (f : XltWin → XltWin) : (updXwin s n f).pwin = s.pwin := rfl
@[simp] theorem updXwin_cc (s : State) (n : Nat) (f : XltWin → XltWin) : (updXwin s n f).cc = s.cc := rfl
@[simp] theorem updXwin_out (s : State) (n : Nat) (f : XltWin → XltWin) : (updXwin s n f).out = s.out := rfl
@[simp] theorem updXwin_pending (s : State) (n : Nat) (f : XltWin → XltWin) : (updXwin s n f).pending = s.pending := rfl

@[simp] theorem updGwin_clk (s : State) (n : Nat) (f : GpeWin → GpeWin) : (updGwin s n f).clk = s.clk := rfl
@[simp] theorem updGwin_boot (s : State) (n : Nat) (f : GpeWin → GpeWin) : (updGwin s n f).boot = s.boot := rfl
@[simp] theorem updGwin_img (s : State) (n : Nat) (f : GpeWin → GpeWin) : (updGwin s n f).img = s.img := rfl
@[simp] theorem updGwin_glob (s : State) (n : Nat) (f : GpeWin → GpeWin) : (updGwin s n f).glob = s.glob := rfl
@[simp] theorem updGwin_clr (s : State) (n : Nat) (f : GpeWin → GpeWin) : (updGwin s n f).clr = s.clr := rfl
@[simp] theorem updGwin_win (s : State) (n : Nat) (f : GpeWin → GpeWin) : (updGwin s n f).win = s.win := rfl
@[simp] theorem updGwin_ctx (s : State) (n : Nat) (f : GpeWin → GpeWin) : (updGwin s n f).ctx = s.ctx := rfl
@[simp] theorem updGwin_cal (s : State) (n : Nat) (f : GpeWin → GpeWin) : (updGwin s n f).cal = s.cal := rfl
@[simp] theorem updGwin_err (s : State) (n : Nat) (f : GpeWin → GpeWin) : (updGwin s n f).err = s.err := rfl
@[simp] theorem updGwin_rings (s : State) (n : Nat) (f : GpeWin → GpeWin) : (updGwin s n f).rings = s.rings := rfl
@[simp] theorem updGwin_que (s : State) (n : Nat) (f : GpeWin → GpeWin) : (updGwin s n f).que = s.que := rfl
@[simp] theorem updGwin_queues (s : State) (n : Nat) (f : GpeWin → GpeWin) : (updGwin s n f).queues = s.queues := rfl
@[simp] theorem updGwin_tasks (s : State) (n : Nat) (f : GpeWin → GpeWin) : (updGwin s n f).tasks = s.tasks := rfl
@[simp] theorem updGwin_acc (s : State) (n : Nat) (f : GpeWin → GpeWin) : (updGwin s n f).acc = s.acc := rfl
@[simp] theorem updGwin_accNext (s : State) (n : Nat) (f : GpeWin → GpeWin) : (updGwin s n f).accNext = s.accNext := rfl
@[simp] theorem updGwin_xlt (s : State) (n : Nat) (f : GpeWin → GpeWin) : (updGwin s n f).xlt = s.xlt := rfl
@[simp] theorem updGwin_tbl (s : State) (n : Nat) (f : GpeWin → GpeWin) : (updGwin s n f).tbl = s.tbl := rfl
@[simp] theorem updGwin_sch (s : State) (n : Nat) (f : GpeWin → GpeWin) : (updGwin s n f).sch = s.sch := rfl
@[simp] theorem updGwin_pwr (s : State) (n : Nat) (f : GpeWin → GpeWin) : (updGwin s n f).pwr = s.pwr := rfl
@[simp] theorem updGwin_mbx (s : State) (n : Nat) (f : GpeWin → GpeWin) : (updGwin s n f).mbx = s.mbx := rfl
@[simp] theorem updGwin_key (s : State) (n : Nat) (f : GpeWin → GpeWin) : (updGwin s n f).key = s.key := rfl
@[simp] theorem updGwin_tap (s : State) (n : Nat) (f : GpeWin → GpeWin) : (updGwin s n f).tap = s.tap := rfl
@[simp] theorem updGwin_trl (s : State) (n : Nat) (f : GpeWin → GpeWin) : (updGwin s n f).trl = s.trl := rfl
@[simp] theorem updGwin_ls (s : State) (n : Nat) (f : GpeWin → GpeWin) : (updGwin s n f).ls = s.ls := rfl
@[simp] theorem updGwin_bar (s : State) (n : Nat) (f : GpeWin → GpeWin) : (updGwin s n f).bar = s.bar := rfl
@[simp] theorem updGwin_det (s : State) (n : Nat) (f : GpeWin → GpeWin) : (updGwin s n f).det = s.det := rfl
@[simp] theorem updGwin_qwin (s : State) (n : Nat) (f : GpeWin → GpeWin) : (updGwin s n f).qwin = s.qwin := rfl
@[simp] theorem updGwin_xwin (s : State) (n : Nat) (f : GpeWin → GpeWin) : (updGwin s n f).xwin = s.xwin := rfl
@[simp] theorem updGwin_twin (s : State) (n : Nat) (f : GpeWin → GpeWin) : (updGwin s n f).twin = s.twin := rfl
@[simp] theorem updGwin_swin (s : State) (n : Nat) (f : GpeWin → GpeWin) : (updGwin s n f).swin = s.swin := rfl
@[simp] theorem updGwin_pwin (s : State) (n : Nat) (f : GpeWin → GpeWin) : (updGwin s n f).pwin = s.pwin := rfl
@[simp] theorem updGwin_cc (s : State) (n : Nat) (f : GpeWin → GpeWin) : (updGwin s n f).cc = s.cc := rfl
@[simp] theorem updGwin_out (s : State) (n : Nat) (f : GpeWin → GpeWin) : (updGwin s n f).out = s.out := rfl
@[simp] theorem updGwin_pending (s : State) (n : Nat) (f : GpeWin → GpeWin) : (updGwin s n f).pending = s.pending := rfl

@[simp] theorem updTwin_clk (s : State) (n : Nat) (f : TblWin → TblWin) : (updTwin s n f).clk = s.clk := rfl
@[simp] theorem updTwin_boot (s : State) (n : Nat) (f : TblWin → TblWin) : (updTwin s n f).boot = s.boot := rfl
@[simp] theorem updTwin_img (s : State) (n : Nat) (f : TblWin → TblWin) : (updTwin s n f).img = s.img := rfl
@[simp] theorem updTwin_glob (s : State) (n : Nat) (f : TblWin → TblWin) : (updTwin s n f).glob = s.glob := rfl
@[simp] theorem updTwin_clr (s : State) (n : Nat) (f : TblWin → TblWin) : (updTwin s n f).clr = s.clr := rfl
@[simp] theorem updTwin_win (s : State) (n : Nat) (f : TblWin → TblWin) : (updTwin s n f).win = s.win := rfl
@[simp] theorem updTwin_ctx (s : State) (n : Nat) (f : TblWin → TblWin) : (updTwin s n f).ctx = s.ctx := rfl
@[simp] theorem updTwin_cal (s : State) (n : Nat) (f : TblWin → TblWin) : (updTwin s n f).cal = s.cal := rfl
@[simp] theorem updTwin_err (s : State) (n : Nat) (f : TblWin → TblWin) : (updTwin s n f).err = s.err := rfl
@[simp] theorem updTwin_rings (s : State) (n : Nat) (f : TblWin → TblWin) : (updTwin s n f).rings = s.rings := rfl
@[simp] theorem updTwin_que (s : State) (n : Nat) (f : TblWin → TblWin) : (updTwin s n f).que = s.que := rfl
@[simp] theorem updTwin_queues (s : State) (n : Nat) (f : TblWin → TblWin) : (updTwin s n f).queues = s.queues := rfl
@[simp] theorem updTwin_tasks (s : State) (n : Nat) (f : TblWin → TblWin) : (updTwin s n f).tasks = s.tasks := rfl
@[simp] theorem updTwin_acc (s : State) (n : Nat) (f : TblWin → TblWin) : (updTwin s n f).acc = s.acc := rfl
@[simp] theorem updTwin_accNext (s : State) (n : Nat) (f : TblWin → TblWin) : (updTwin s n f).accNext = s.accNext := rfl
@[simp] theorem updTwin_xlt (s : State) (n : Nat) (f : TblWin → TblWin) : (updTwin s n f).xlt = s.xlt := rfl
@[simp] theorem updTwin_tbl (s : State) (n : Nat) (f : TblWin → TblWin) : (updTwin s n f).tbl = s.tbl := rfl
@[simp] theorem updTwin_sch (s : State) (n : Nat) (f : TblWin → TblWin) : (updTwin s n f).sch = s.sch := rfl
@[simp] theorem updTwin_pwr (s : State) (n : Nat) (f : TblWin → TblWin) : (updTwin s n f).pwr = s.pwr := rfl
@[simp] theorem updTwin_mbx (s : State) (n : Nat) (f : TblWin → TblWin) : (updTwin s n f).mbx = s.mbx := rfl
@[simp] theorem updTwin_key (s : State) (n : Nat) (f : TblWin → TblWin) : (updTwin s n f).key = s.key := rfl
@[simp] theorem updTwin_tap (s : State) (n : Nat) (f : TblWin → TblWin) : (updTwin s n f).tap = s.tap := rfl
@[simp] theorem updTwin_trl (s : State) (n : Nat) (f : TblWin → TblWin) : (updTwin s n f).trl = s.trl := rfl
@[simp] theorem updTwin_ls (s : State) (n : Nat) (f : TblWin → TblWin) : (updTwin s n f).ls = s.ls := rfl
@[simp] theorem updTwin_bar (s : State) (n : Nat) (f : TblWin → TblWin) : (updTwin s n f).bar = s.bar := rfl
@[simp] theorem updTwin_det (s : State) (n : Nat) (f : TblWin → TblWin) : (updTwin s n f).det = s.det := rfl
@[simp] theorem updTwin_qwin (s : State) (n : Nat) (f : TblWin → TblWin) : (updTwin s n f).qwin = s.qwin := rfl
@[simp] theorem updTwin_xwin (s : State) (n : Nat) (f : TblWin → TblWin) : (updTwin s n f).xwin = s.xwin := rfl
@[simp] theorem updTwin_gwin (s : State) (n : Nat) (f : TblWin → TblWin) : (updTwin s n f).gwin = s.gwin := rfl
@[simp] theorem updTwin_swin (s : State) (n : Nat) (f : TblWin → TblWin) : (updTwin s n f).swin = s.swin := rfl
@[simp] theorem updTwin_pwin (s : State) (n : Nat) (f : TblWin → TblWin) : (updTwin s n f).pwin = s.pwin := rfl
@[simp] theorem updTwin_cc (s : State) (n : Nat) (f : TblWin → TblWin) : (updTwin s n f).cc = s.cc := rfl
@[simp] theorem updTwin_out (s : State) (n : Nat) (f : TblWin → TblWin) : (updTwin s n f).out = s.out := rfl
@[simp] theorem updTwin_pending (s : State) (n : Nat) (f : TblWin → TblWin) : (updTwin s n f).pending = s.pending := rfl

@[simp] theorem updSwin_clk (s : State) (n : Nat) (f : SchWin → SchWin) : (updSwin s n f).clk = s.clk := rfl
@[simp] theorem updSwin_boot (s : State) (n : Nat) (f : SchWin → SchWin) : (updSwin s n f).boot = s.boot := rfl
@[simp] theorem updSwin_img (s : State) (n : Nat) (f : SchWin → SchWin) : (updSwin s n f).img = s.img := rfl
@[simp] theorem updSwin_glob (s : State) (n : Nat) (f : SchWin → SchWin) : (updSwin s n f).glob = s.glob := rfl
@[simp] theorem updSwin_clr (s : State) (n : Nat) (f : SchWin → SchWin) : (updSwin s n f).clr = s.clr := rfl
@[simp] theorem updSwin_win (s : State) (n : Nat) (f : SchWin → SchWin) : (updSwin s n f).win = s.win := rfl
@[simp] theorem updSwin_ctx (s : State) (n : Nat) (f : SchWin → SchWin) : (updSwin s n f).ctx = s.ctx := rfl
@[simp] theorem updSwin_cal (s : State) (n : Nat) (f : SchWin → SchWin) : (updSwin s n f).cal = s.cal := rfl
@[simp] theorem updSwin_err (s : State) (n : Nat) (f : SchWin → SchWin) : (updSwin s n f).err = s.err := rfl
@[simp] theorem updSwin_rings (s : State) (n : Nat) (f : SchWin → SchWin) : (updSwin s n f).rings = s.rings := rfl
@[simp] theorem updSwin_que (s : State) (n : Nat) (f : SchWin → SchWin) : (updSwin s n f).que = s.que := rfl
@[simp] theorem updSwin_queues (s : State) (n : Nat) (f : SchWin → SchWin) : (updSwin s n f).queues = s.queues := rfl
@[simp] theorem updSwin_tasks (s : State) (n : Nat) (f : SchWin → SchWin) : (updSwin s n f).tasks = s.tasks := rfl
@[simp] theorem updSwin_acc (s : State) (n : Nat) (f : SchWin → SchWin) : (updSwin s n f).acc = s.acc := rfl
@[simp] theorem updSwin_accNext (s : State) (n : Nat) (f : SchWin → SchWin) : (updSwin s n f).accNext = s.accNext := rfl
@[simp] theorem updSwin_xlt (s : State) (n : Nat) (f : SchWin → SchWin) : (updSwin s n f).xlt = s.xlt := rfl
@[simp] theorem updSwin_tbl (s : State) (n : Nat) (f : SchWin → SchWin) : (updSwin s n f).tbl = s.tbl := rfl
@[simp] theorem updSwin_sch (s : State) (n : Nat) (f : SchWin → SchWin) : (updSwin s n f).sch = s.sch := rfl
@[simp] theorem updSwin_pwr (s : State) (n : Nat) (f : SchWin → SchWin) : (updSwin s n f).pwr = s.pwr := rfl
@[simp] theorem updSwin_mbx (s : State) (n : Nat) (f : SchWin → SchWin) : (updSwin s n f).mbx = s.mbx := rfl
@[simp] theorem updSwin_key (s : State) (n : Nat) (f : SchWin → SchWin) : (updSwin s n f).key = s.key := rfl
@[simp] theorem updSwin_tap (s : State) (n : Nat) (f : SchWin → SchWin) : (updSwin s n f).tap = s.tap := rfl
@[simp] theorem updSwin_trl (s : State) (n : Nat) (f : SchWin → SchWin) : (updSwin s n f).trl = s.trl := rfl
@[simp] theorem updSwin_ls (s : State) (n : Nat) (f : SchWin → SchWin) : (updSwin s n f).ls = s.ls := rfl
@[simp] theorem updSwin_bar (s : State) (n : Nat) (f : SchWin → SchWin) : (updSwin s n f).bar = s.bar := rfl
@[simp] theorem updSwin_det (s : State) (n : Nat) (f : SchWin → SchWin) : (updSwin s n f).det = s.det := rfl
@[simp] theorem updSwin_qwin (s : State) (n : Nat) (f : SchWin → SchWin) : (updSwin s n f).qwin = s.qwin := rfl
@[simp] theorem updSwin_xwin (s : State) (n : Nat) (f : SchWin → SchWin) : (updSwin s n f).xwin = s.xwin := rfl
@[simp] theorem updSwin_gwin (s : State) (n : Nat) (f : SchWin → SchWin) : (updSwin s n f).gwin = s.gwin := rfl
@[simp] theorem updSwin_twin (s : State) (n : Nat) (f : SchWin → SchWin) : (updSwin s n f).twin = s.twin := rfl
@[simp] theorem updSwin_pwin (s : State) (n : Nat) (f : SchWin → SchWin) : (updSwin s n f).pwin = s.pwin := rfl
@[simp] theorem updSwin_cc (s : State) (n : Nat) (f : SchWin → SchWin) : (updSwin s n f).cc = s.cc := rfl
@[simp] theorem updSwin_out (s : State) (n : Nat) (f : SchWin → SchWin) : (updSwin s n f).out = s.out := rfl
@[simp] theorem updSwin_pending (s : State) (n : Nat) (f : SchWin → SchWin) : (updSwin s n f).pending = s.pending := rfl

@[simp] theorem updPwr_clk (s : State) (f : Power → Power) : (updPwr s f).clk = s.clk := rfl
@[simp] theorem updPwr_boot (s : State) (f : Power → Power) : (updPwr s f).boot = s.boot := rfl
@[simp] theorem updPwr_img (s : State) (f : Power → Power) : (updPwr s f).img = s.img := rfl
@[simp] theorem updPwr_glob (s : State) (f : Power → Power) : (updPwr s f).glob = s.glob := rfl
@[simp] theorem updPwr_clr (s : State) (f : Power → Power) : (updPwr s f).clr = s.clr := rfl
@[simp] theorem updPwr_win (s : State) (f : Power → Power) : (updPwr s f).win = s.win := rfl
@[simp] theorem updPwr_ctx (s : State) (f : Power → Power) : (updPwr s f).ctx = s.ctx := rfl
@[simp] theorem updPwr_cal (s : State) (f : Power → Power) : (updPwr s f).cal = s.cal := rfl
@[simp] theorem updPwr_err (s : State) (f : Power → Power) : (updPwr s f).err = s.err := rfl
@[simp] theorem updPwr_rings (s : State) (f : Power → Power) : (updPwr s f).rings = s.rings := rfl
@[simp] theorem updPwr_que (s : State) (f : Power → Power) : (updPwr s f).que = s.que := rfl
@[simp] theorem updPwr_queues (s : State) (f : Power → Power) : (updPwr s f).queues = s.queues := rfl
@[simp] theorem updPwr_tasks (s : State) (f : Power → Power) : (updPwr s f).tasks = s.tasks := rfl
@[simp] theorem updPwr_acc (s : State) (f : Power → Power) : (updPwr s f).acc = s.acc := rfl
@[simp] theorem updPwr_accNext (s : State) (f : Power → Power) : (updPwr s f).accNext = s.accNext := rfl
@[simp] theorem updPwr_xlt (s : State) (f : Power → Power) : (updPwr s f).xlt = s.xlt := rfl
@[simp] theorem updPwr_tbl (s : State) (f : Power → Power) : (updPwr s f).tbl = s.tbl := rfl
@[simp] theorem updPwr_sch (s : State) (f : Power → Power) : (updPwr s f).sch = s.sch := rfl
@[simp] theorem updPwr_mbx (s : State) (f : Power → Power) : (updPwr s f).mbx = s.mbx := rfl
@[simp] theorem updPwr_key (s : State) (f : Power → Power) : (updPwr s f).key = s.key := rfl
@[simp] theorem updPwr_tap (s : State) (f : Power → Power) : (updPwr s f).tap = s.tap := rfl
@[simp] theorem updPwr_trl (s : State) (f : Power → Power) : (updPwr s f).trl = s.trl := rfl
@[simp] theorem updPwr_ls (s : State) (f : Power → Power) : (updPwr s f).ls = s.ls := rfl
@[simp] theorem updPwr_bar (s : State) (f : Power → Power) : (updPwr s f).bar = s.bar := rfl
@[simp] theorem updPwr_det (s : State) (f : Power → Power) : (updPwr s f).det = s.det := rfl
@[simp] theorem updPwr_qwin (s : State) (f : Power → Power) : (updPwr s f).qwin = s.qwin := rfl
@[simp] theorem updPwr_xwin (s : State) (f : Power → Power) : (updPwr s f).xwin = s.xwin := rfl
@[simp] theorem updPwr_gwin (s : State) (f : Power → Power) : (updPwr s f).gwin = s.gwin := rfl
@[simp] theorem updPwr_twin (s : State) (f : Power → Power) : (updPwr s f).twin = s.twin := rfl
@[simp] theorem updPwr_swin (s : State) (f : Power → Power) : (updPwr s f).swin = s.swin := rfl
@[simp] theorem updPwr_pwin (s : State) (f : Power → Power) : (updPwr s f).pwin = s.pwin := rfl
@[simp] theorem updPwr_cc (s : State) (f : Power → Power) : (updPwr s f).cc = s.cc := rfl
@[simp] theorem updPwr_out (s : State) (f : Power → Power) : (updPwr s f).out = s.out := rfl
@[simp] theorem updPwr_pending (s : State) (f : Power → Power) : (updPwr s f).pending = s.pending := rfl

@[simp] theorem updDom_clk (s : State) (d : Nat) (f : Domain → Domain) : (updDom s d f).clk = s.clk := rfl
@[simp] theorem updDom_boot (s : State) (d : Nat) (f : Domain → Domain) : (updDom s d f).boot = s.boot := rfl
@[simp] theorem updDom_img (s : State) (d : Nat) (f : Domain → Domain) : (updDom s d f).img = s.img := rfl
@[simp] theorem updDom_glob (s : State) (d : Nat) (f : Domain → Domain) : (updDom s d f).glob = s.glob := rfl
@[simp] theorem updDom_clr (s : State) (d : Nat) (f : Domain → Domain) : (updDom s d f).clr = s.clr := rfl
@[simp] theorem updDom_win (s : State) (d : Nat) (f : Domain → Domain) : (updDom s d f).win = s.win := rfl
@[simp] theorem updDom_ctx (s : State) (d : Nat) (f : Domain → Domain) : (updDom s d f).ctx = s.ctx := rfl
@[simp] theorem updDom_cal (s : State) (d : Nat) (f : Domain → Domain) : (updDom s d f).cal = s.cal := rfl
@[simp] theorem updDom_err (s : State) (d : Nat) (f : Domain → Domain) : (updDom s d f).err = s.err := rfl
@[simp] theorem updDom_rings (s : State) (d : Nat) (f : Domain → Domain) : (updDom s d f).rings = s.rings := rfl
@[simp] theorem updDom_que (s : State) (d : Nat) (f : Domain → Domain) : (updDom s d f).que = s.que := rfl
@[simp] theorem updDom_queues (s : State) (d : Nat) (f : Domain → Domain) : (updDom s d f).queues = s.queues := rfl
@[simp] theorem updDom_tasks (s : State) (d : Nat) (f : Domain → Domain) : (updDom s d f).tasks = s.tasks := rfl
@[simp] theorem updDom_acc (s : State) (d : Nat) (f : Domain → Domain) : (updDom s d f).acc = s.acc := rfl
@[simp] theorem updDom_accNext (s : State) (d : Nat) (f : Domain → Domain) : (updDom s d f).accNext = s.accNext := rfl
@[simp] theorem updDom_xlt (s : State) (d : Nat) (f : Domain → Domain) : (updDom s d f).xlt = s.xlt := rfl
@[simp] theorem updDom_tbl (s : State) (d : Nat) (f : Domain → Domain) : (updDom s d f).tbl = s.tbl := rfl
@[simp] theorem updDom_sch (s : State) (d : Nat) (f : Domain → Domain) : (updDom s d f).sch = s.sch := rfl
@[simp] theorem updDom_mbx (s : State) (d : Nat) (f : Domain → Domain) : (updDom s d f).mbx = s.mbx := rfl
@[simp] theorem updDom_key (s : State) (d : Nat) (f : Domain → Domain) : (updDom s d f).key = s.key := rfl
@[simp] theorem updDom_tap (s : State) (d : Nat) (f : Domain → Domain) : (updDom s d f).tap = s.tap := rfl
@[simp] theorem updDom_trl (s : State) (d : Nat) (f : Domain → Domain) : (updDom s d f).trl = s.trl := rfl
@[simp] theorem updDom_ls (s : State) (d : Nat) (f : Domain → Domain) : (updDom s d f).ls = s.ls := rfl
@[simp] theorem updDom_bar (s : State) (d : Nat) (f : Domain → Domain) : (updDom s d f).bar = s.bar := rfl
@[simp] theorem updDom_det (s : State) (d : Nat) (f : Domain → Domain) : (updDom s d f).det = s.det := rfl
@[simp] theorem updDom_qwin (s : State) (d : Nat) (f : Domain → Domain) : (updDom s d f).qwin = s.qwin := rfl
@[simp] theorem updDom_xwin (s : State) (d : Nat) (f : Domain → Domain) : (updDom s d f).xwin = s.xwin := rfl
@[simp] theorem updDom_gwin (s : State) (d : Nat) (f : Domain → Domain) : (updDom s d f).gwin = s.gwin := rfl
@[simp] theorem updDom_twin (s : State) (d : Nat) (f : Domain → Domain) : (updDom s d f).twin = s.twin := rfl
@[simp] theorem updDom_swin (s : State) (d : Nat) (f : Domain → Domain) : (updDom s d f).swin = s.swin := rfl
@[simp] theorem updDom_pwin (s : State) (d : Nat) (f : Domain → Domain) : (updDom s d f).pwin = s.pwin := rfl
@[simp] theorem updDom_cc (s : State) (d : Nat) (f : Domain → Domain) : (updDom s d f).cc = s.cc := rfl
@[simp] theorem updDom_out (s : State) (d : Nat) (f : Domain → Domain) : (updDom s d f).out = s.out := rfl
@[simp] theorem updDom_pending (s : State) (d : Nat) (f : Domain → Domain) : (updDom s d f).pending = s.pending := rfl

@[simp] theorem updPwin_clk (s : State) (n : Nat) (f : PwrWin → PwrWin) : (updPwin s n f).clk = s.clk := rfl
@[simp] theorem updPwin_boot (s : State) (n : Nat) (f : PwrWin → PwrWin) : (updPwin s n f).boot = s.boot := rfl
@[simp] theorem updPwin_img (s : State) (n : Nat) (f : PwrWin → PwrWin) : (updPwin s n f).img = s.img := rfl
@[simp] theorem updPwin_glob (s : State) (n : Nat) (f : PwrWin → PwrWin) : (updPwin s n f).glob = s.glob := rfl
@[simp] theorem updPwin_clr (s : State) (n : Nat) (f : PwrWin → PwrWin) : (updPwin s n f).clr = s.clr := rfl
@[simp] theorem updPwin_win (s : State) (n : Nat) (f : PwrWin → PwrWin) : (updPwin s n f).win = s.win := rfl
@[simp] theorem updPwin_ctx (s : State) (n : Nat) (f : PwrWin → PwrWin) : (updPwin s n f).ctx = s.ctx := rfl
@[simp] theorem updPwin_cal (s : State) (n : Nat) (f : PwrWin → PwrWin) : (updPwin s n f).cal = s.cal := rfl
@[simp] theorem updPwin_err (s : State) (n : Nat) (f : PwrWin → PwrWin) : (updPwin s n f).err = s.err := rfl
@[simp] theorem updPwin_rings (s : State) (n : Nat) (f : PwrWin → PwrWin) : (updPwin s n f).rings = s.rings := rfl
@[simp] theorem updPwin_que (s : State) (n : Nat) (f : PwrWin → PwrWin) : (updPwin s n f).que = s.que := rfl
@[simp] theorem updPwin_queues (s : State) (n : Nat) (f : PwrWin → PwrWin) : (updPwin s n f).queues = s.queues := rfl
@[simp] theorem updPwin_tasks (s : State) (n : Nat) (f : PwrWin → PwrWin) : (updPwin s n f).tasks = s.tasks := rfl
@[simp] theorem updPwin_acc (s : State) (n : Nat) (f : PwrWin → PwrWin) : (updPwin s n f).acc = s.acc := rfl
@[simp] theorem updPwin_accNext (s : State) (n : Nat) (f : PwrWin → PwrWin) : (updPwin s n f).accNext = s.accNext := rfl
@[simp] theorem updPwin_xlt (s : State) (n : Nat) (f : PwrWin → PwrWin) : (updPwin s n f).xlt = s.xlt := rfl
@[simp] theorem updPwin_tbl (s : State) (n : Nat) (f : PwrWin → PwrWin) : (updPwin s n f).tbl = s.tbl := rfl
@[simp] theorem updPwin_sch (s : State) (n : Nat) (f : PwrWin → PwrWin) : (updPwin s n f).sch = s.sch := rfl
@[simp] theorem updPwin_pwr (s : State) (n : Nat) (f : PwrWin → PwrWin) : (updPwin s n f).pwr = s.pwr := rfl
@[simp] theorem updPwin_mbx (s : State) (n : Nat) (f : PwrWin → PwrWin) : (updPwin s n f).mbx = s.mbx := rfl
@[simp] theorem updPwin_key (s : State) (n : Nat) (f : PwrWin → PwrWin) : (updPwin s n f).key = s.key := rfl
@[simp] theorem updPwin_tap (s : State) (n : Nat) (f : PwrWin → PwrWin) : (updPwin s n f).tap = s.tap := rfl
@[simp] theorem updPwin_trl (s : State) (n : Nat) (f : PwrWin → PwrWin) : (updPwin s n f).trl = s.trl := rfl
@[simp] theorem updPwin_ls (s : State) (n : Nat) (f : PwrWin → PwrWin) : (updPwin s n f).ls = s.ls := rfl
@[simp] theorem updPwin_bar (s : State) (n : Nat) (f : PwrWin → PwrWin) : (updPwin s n f).bar = s.bar := rfl
@[simp] theorem updPwin_det (s : State) (n : Nat) (f : PwrWin → PwrWin) : (updPwin s n f).det = s.det := rfl
@[simp] theorem updPwin_qwin (s : State) (n : Nat) (f : PwrWin → PwrWin) : (updPwin s n f).qwin = s.qwin := rfl
@[simp] theorem updPwin_xwin (s : State) (n : Nat) (f : PwrWin → PwrWin) : (updPwin s n f).xwin = s.xwin := rfl
@[simp] theorem updPwin_gwin (s : State) (n : Nat) (f : PwrWin → PwrWin) : (updPwin s n f).gwin = s.gwin := rfl
@[simp] theorem updPwin_twin (s : State) (n : Nat) (f : PwrWin → PwrWin) : (updPwin s n f).twin = s.twin := rfl
@[simp] theorem updPwin_swin (s : State) (n : Nat) (f : PwrWin → PwrWin) : (updPwin s n f).swin = s.swin := rfl
@[simp] theorem updPwin_cc (s : State) (n : Nat) (f : PwrWin → PwrWin) : (updPwin s n f).cc = s.cc := rfl
@[simp] theorem updPwin_out (s : State) (n : Nat) (f : PwrWin → PwrWin) : (updPwin s n f).out = s.out := rfl
@[simp] theorem updPwin_pending (s : State) (n : Nat) (f : PwrWin → PwrWin) : (updPwin s n f).pending = s.pending := rfl

@[simp] theorem updMbx_clk (s : State) (m : Nat) (f : Mailbox → Mailbox) : (updMbx s m f).clk = s.clk := rfl
@[simp] theorem updMbx_boot (s : State) (m : Nat) (f : Mailbox → Mailbox) : (updMbx s m f).boot = s.boot := rfl
@[simp] theorem updMbx_img (s : State) (m : Nat) (f : Mailbox → Mailbox) : (updMbx s m f).img = s.img := rfl
@[simp] theorem updMbx_glob (s : State) (m : Nat) (f : Mailbox → Mailbox) : (updMbx s m f).glob = s.glob := rfl
@[simp] theorem updMbx_clr (s : State) (m : Nat) (f : Mailbox → Mailbox) : (updMbx s m f).clr = s.clr := rfl
@[simp] theorem updMbx_win (s : State) (m : Nat) (f : Mailbox → Mailbox) : (updMbx s m f).win = s.win := rfl
@[simp] theorem updMbx_ctx (s : State) (m : Nat) (f : Mailbox → Mailbox) : (updMbx s m f).ctx = s.ctx := rfl
@[simp] theorem updMbx_cal (s : State) (m : Nat) (f : Mailbox → Mailbox) : (updMbx s m f).cal = s.cal := rfl
@[simp] theorem updMbx_err (s : State) (m : Nat) (f : Mailbox → Mailbox) : (updMbx s m f).err = s.err := rfl
@[simp] theorem updMbx_rings (s : State) (m : Nat) (f : Mailbox → Mailbox) : (updMbx s m f).rings = s.rings := rfl
@[simp] theorem updMbx_que (s : State) (m : Nat) (f : Mailbox → Mailbox) : (updMbx s m f).que = s.que := rfl
@[simp] theorem updMbx_queues (s : State) (m : Nat) (f : Mailbox → Mailbox) : (updMbx s m f).queues = s.queues := rfl
@[simp] theorem updMbx_tasks (s : State) (m : Nat) (f : Mailbox → Mailbox) : (updMbx s m f).tasks = s.tasks := rfl
@[simp] theorem updMbx_acc (s : State) (m : Nat) (f : Mailbox → Mailbox) : (updMbx s m f).acc = s.acc := rfl
@[simp] theorem updMbx_accNext (s : State) (m : Nat) (f : Mailbox → Mailbox) : (updMbx s m f).accNext = s.accNext := rfl
@[simp] theorem updMbx_xlt (s : State) (m : Nat) (f : Mailbox → Mailbox) : (updMbx s m f).xlt = s.xlt := rfl
@[simp] theorem updMbx_tbl (s : State) (m : Nat) (f : Mailbox → Mailbox) : (updMbx s m f).tbl = s.tbl := rfl
@[simp] theorem updMbx_sch (s : State) (m : Nat) (f : Mailbox → Mailbox) : (updMbx s m f).sch = s.sch := rfl
@[simp] theorem updMbx_pwr (s : State) (m : Nat) (f : Mailbox → Mailbox) : (updMbx s m f).pwr = s.pwr := rfl
@[simp] theorem updMbx_key (s : State) (m : Nat) (f : Mailbox → Mailbox) : (updMbx s m f).key = s.key := rfl
@[simp] theorem updMbx_tap (s : State) (m : Nat) (f : Mailbox → Mailbox) : (updMbx s m f).tap = s.tap := rfl
@[simp] theorem updMbx_trl (s : State) (m : Nat) (f : Mailbox → Mailbox) : (updMbx s m f).trl = s.trl := rfl
@[simp] theorem updMbx_ls (s : State) (m : Nat) (f : Mailbox → Mailbox) : (updMbx s m f).ls = s.ls := rfl
@[simp] theorem updMbx_bar (s : State) (m : Nat) (f : Mailbox → Mailbox) : (updMbx s m f).bar = s.bar := rfl
@[simp] theorem updMbx_det (s : State) (m : Nat) (f : Mailbox → Mailbox) : (updMbx s m f).det = s.det := rfl
@[simp] theorem updMbx_qwin (s : State) (m : Nat) (f : Mailbox → Mailbox) : (updMbx s m f).qwin = s.qwin := rfl
@[simp] theorem updMbx_xwin (s : State) (m : Nat) (f : Mailbox → Mailbox) : (updMbx s m f).xwin = s.xwin := rfl
@[simp] theorem updMbx_gwin (s : State) (m : Nat) (f : Mailbox → Mailbox) : (updMbx s m f).gwin = s.gwin := rfl
@[simp] theorem updMbx_twin (s : State) (m : Nat) (f : Mailbox → Mailbox) : (updMbx s m f).twin = s.twin := rfl
@[simp] theorem updMbx_swin (s : State) (m : Nat) (f : Mailbox → Mailbox) : (updMbx s m f).swin = s.swin := rfl
@[simp] theorem updMbx_pwin (s : State) (m : Nat) (f : Mailbox → Mailbox) : (updMbx s m f).pwin = s.pwin := rfl
@[simp] theorem updMbx_cc (s : State) (m : Nat) (f : Mailbox → Mailbox) : (updMbx s m f).cc = s.cc := rfl
@[simp] theorem updMbx_out (s : State) (m : Nat) (f : Mailbox → Mailbox) : (updMbx s m f).out = s.out := rfl
@[simp] theorem updMbx_pending (s : State) (m : Nat) (f : Mailbox → Mailbox) : (updMbx s m f).pending = s.pending := rfl

@[simp] theorem updKey_clk (s : State) (f : KeyUnit → KeyUnit) : (updKey s f).clk = s.clk := rfl
@[simp] theorem updKey_boot (s : State) (f : KeyUnit → KeyUnit) : (updKey s f).boot = s.boot := rfl
@[simp] theorem updKey_img (s : State) (f : KeyUnit → KeyUnit) : (updKey s f).img = s.img := rfl
@[simp] theorem updKey_glob (s : State) (f : KeyUnit → KeyUnit) : (updKey s f).glob = s.glob := rfl
@[simp] theorem updKey_clr (s : State) (f : KeyUnit → KeyUnit) : (updKey s f).clr = s.clr := rfl
@[simp] theorem updKey_win (s : State) (f : KeyUnit → KeyUnit) : (updKey s f).win = s.win := rfl
@[simp] theorem updKey_ctx (s : State) (f : KeyUnit → KeyUnit) : (updKey s f).ctx = s.ctx := rfl
@[simp] theorem updKey_cal (s : State) (f : KeyUnit → KeyUnit) : (updKey s f).cal = s.cal := rfl
@[simp] theorem updKey_err (s : State) (f : KeyUnit → KeyUnit) : (updKey s f).err = s.err := rfl
@[simp] theorem updKey_rings (s : State) (f : KeyUnit → KeyUnit) : (updKey s f).rings = s.rings := rfl
@[simp] theorem updKey_que (s : State) (f : KeyUnit → KeyUnit) : (updKey s f).que = s.que := rfl
@[simp] theorem updKey_queues (s : State) (f : KeyUnit → KeyUnit) : (updKey s f).queues = s.queues := rfl
@[simp] theorem updKey_tasks (s : State) (f : KeyUnit → KeyUnit) : (updKey s f).tasks = s.tasks := rfl
@[simp] theorem updKey_acc (s : State) (f : KeyUnit → KeyUnit) : (updKey s f).acc = s.acc := rfl
@[simp] theorem updKey_accNext (s : State) (f : KeyUnit → KeyUnit) : (updKey s f).accNext = s.accNext := rfl
@[simp] theorem updKey_xlt (s : State) (f : KeyUnit → KeyUnit) : (updKey s f).xlt = s.xlt := rfl
@[simp] theorem updKey_tbl (s : State) (f : KeyUnit → KeyUnit) : (updKey s f).tbl = s.tbl := rfl
@[simp] theorem updKey_sch (s : State) (f : KeyUnit → KeyUnit) : (updKey s f).sch = s.sch := rfl
@[simp] theorem updKey_pwr (s : State) (f : KeyUnit → KeyUnit) : (updKey s f).pwr = s.pwr := rfl
@[simp] theorem updKey_mbx (s : State) (f : KeyUnit → KeyUnit) : (updKey s f).mbx = s.mbx := rfl
@[simp] theorem updKey_tap (s : State) (f : KeyUnit → KeyUnit) : (updKey s f).tap = s.tap := rfl
@[simp] theorem updKey_trl (s : State) (f : KeyUnit → KeyUnit) : (updKey s f).trl = s.trl := rfl
@[simp] theorem updKey_ls (s : State) (f : KeyUnit → KeyUnit) : (updKey s f).ls = s.ls := rfl
@[simp] theorem updKey_bar (s : State) (f : KeyUnit → KeyUnit) : (updKey s f).bar = s.bar := rfl
@[simp] theorem updKey_det (s : State) (f : KeyUnit → KeyUnit) : (updKey s f).det = s.det := rfl
@[simp] theorem updKey_qwin (s : State) (f : KeyUnit → KeyUnit) : (updKey s f).qwin = s.qwin := rfl
@[simp] theorem updKey_xwin (s : State) (f : KeyUnit → KeyUnit) : (updKey s f).xwin = s.xwin := rfl
@[simp] theorem updKey_gwin (s : State) (f : KeyUnit → KeyUnit) : (updKey s f).gwin = s.gwin := rfl
@[simp] theorem updKey_twin (s : State) (f : KeyUnit → KeyUnit) : (updKey s f).twin = s.twin := rfl
@[simp] theorem updKey_swin (s : State) (f : KeyUnit → KeyUnit) : (updKey s f).swin = s.swin := rfl
@[simp] theorem updKey_pwin (s : State) (f : KeyUnit → KeyUnit) : (updKey s f).pwin = s.pwin := rfl
@[simp] theorem updKey_cc (s : State) (f : KeyUnit → KeyUnit) : (updKey s f).cc = s.cc := rfl
@[simp] theorem updKey_out (s : State) (f : KeyUnit → KeyUnit) : (updKey s f).out = s.out := rfl
@[simp] theorem updKey_pending (s : State) (f : KeyUnit → KeyUnit) : (updKey s f).pending = s.pending := rfl

@[simp] theorem updSlot_clk (s : State) (k : Nat) (f : KeySlot → KeySlot) : (updSlot s k f).clk = s.clk := rfl
@[simp] theorem updSlot_boot (s : State) (k : Nat) (f : KeySlot → KeySlot) : (updSlot s k f).boot = s.boot := rfl
@[simp] theorem updSlot_img (s : State) (k : Nat) (f : KeySlot → KeySlot) : (updSlot s k f).img = s.img := rfl
@[simp] theorem updSlot_glob (s : State) (k : Nat) (f : KeySlot → KeySlot) : (updSlot s k f).glob = s.glob := rfl
@[simp] theorem updSlot_clr (s : State) (k : Nat) (f : KeySlot → KeySlot) : (updSlot s k f).clr = s.clr := rfl
@[simp] theorem updSlot_win (s : State) (k : Nat) (f : KeySlot → KeySlot) : (updSlot s k f).win = s.win := rfl
@[simp] theorem updSlot_ctx (s : State) (k : Nat) (f : KeySlot → KeySlot) : (updSlot s k f).ctx = s.ctx := rfl
@[simp] theorem updSlot_cal (s : State) (k : Nat) (f : KeySlot → KeySlot) : (updSlot s k f).cal = s.cal := rfl
@[simp] theorem updSlot_err (s : State) (k : Nat) (f : KeySlot → KeySlot) : (updSlot s k f).err = s.err := rfl
@[simp] theorem updSlot_rings (s : State) (k : Nat) (f : KeySlot → KeySlot) : (updSlot s k f).rings = s.rings := rfl
@[simp] theorem updSlot_que (s : State) (k : Nat) (f : KeySlot → KeySlot) : (updSlot s k f).que = s.que := rfl
@[simp] theorem updSlot_queues (s : State) (k : Nat) (f : KeySlot → KeySlot) : (updSlot s k f).queues = s.queues := rfl
@[simp] theorem updSlot_tasks (s : State) (k : Nat) (f : KeySlot → KeySlot) : (updSlot s k f).tasks = s.tasks := rfl
@[simp] theorem updSlot_acc (s : State) (k : Nat) (f : KeySlot → KeySlot) : (updSlot s k f).acc = s.acc := rfl
@[simp] theorem updSlot_accNext (s : State) (k : Nat) (f : KeySlot → KeySlot) : (updSlot s k f).accNext = s.accNext := rfl
@[simp] theorem updSlot_xlt (s : State) (k : Nat) (f : KeySlot → KeySlot) : (updSlot s k f).xlt = s.xlt := rfl
@[simp] theorem updSlot_tbl (s : State) (k : Nat) (f : KeySlot → KeySlot) : (updSlot s k f).tbl = s.tbl := rfl
@[simp] theorem updSlot_sch (s : State) (k : Nat) (f : KeySlot → KeySlot) : (updSlot s k f).sch = s.sch := rfl
@[simp] theorem updSlot_pwr (s : State) (k : Nat) (f : KeySlot → KeySlot) : (updSlot s k f).pwr = s.pwr := rfl
@[simp] theorem updSlot_mbx (s : State) (k : Nat) (f : KeySlot → KeySlot) : (updSlot s k f).mbx = s.mbx := rfl
@[simp] theorem updSlot_tap (s : State) (k : Nat) (f : KeySlot → KeySlot) : (updSlot s k f).tap = s.tap := rfl
@[simp] theorem updSlot_trl (s : State) (k : Nat) (f : KeySlot → KeySlot) : (updSlot s k f).trl = s.trl := rfl
@[simp] theorem updSlot_ls (s : State) (k : Nat) (f : KeySlot → KeySlot) : (updSlot s k f).ls = s.ls := rfl
@[simp] theorem updSlot_bar (s : State) (k : Nat) (f : KeySlot → KeySlot) : (updSlot s k f).bar = s.bar := rfl
@[simp] theorem updSlot_det (s : State) (k : Nat) (f : KeySlot → KeySlot) : (updSlot s k f).det = s.det := rfl
@[simp] theorem updSlot_qwin (s : State) (k : Nat) (f : KeySlot → KeySlot) : (updSlot s k f).qwin = s.qwin := rfl
@[simp] theorem updSlot_xwin (s : State) (k : Nat) (f : KeySlot → KeySlot) : (updSlot s k f).xwin = s.xwin := rfl
@[simp] theorem updSlot_gwin (s : State) (k : Nat) (f : KeySlot → KeySlot) : (updSlot s k f).gwin = s.gwin := rfl
@[simp] theorem updSlot_twin (s : State) (k : Nat) (f : KeySlot → KeySlot) : (updSlot s k f).twin = s.twin := rfl
@[simp] theorem updSlot_swin (s : State) (k : Nat) (f : KeySlot → KeySlot) : (updSlot s k f).swin = s.swin := rfl
@[simp] theorem updSlot_pwin (s : State) (k : Nat) (f : KeySlot → KeySlot) : (updSlot s k f).pwin = s.pwin := rfl
@[simp] theorem updSlot_cc (s : State) (k : Nat) (f : KeySlot → KeySlot) : (updSlot s k f).cc = s.cc := rfl
@[simp] theorem updSlot_out (s : State) (k : Nat) (f : KeySlot → KeySlot) : (updSlot s k f).out = s.out := rfl
@[simp] theorem updSlot_pending (s : State) (k : Nat) (f : KeySlot → KeySlot) : (updSlot s k f).pending = s.pending := rfl

@[simp] theorem updXch_clk (s : State) (x : Nat) (f : Exchange → Exchange) : (updXch s x f).clk = s.clk := rfl
@[simp] theorem updXch_boot (s : State) (x : Nat) (f : Exchange → Exchange) : (updXch s x f).boot = s.boot := rfl
@[simp] theorem updXch_img (s : State) (x : Nat) (f : Exchange → Exchange) : (updXch s x f).img = s.img := rfl
@[simp] theorem updXch_glob (s : State) (x : Nat) (f : Exchange → Exchange) : (updXch s x f).glob = s.glob := rfl
@[simp] theorem updXch_clr (s : State) (x : Nat) (f : Exchange → Exchange) : (updXch s x f).clr = s.clr := rfl
@[simp] theorem updXch_win (s : State) (x : Nat) (f : Exchange → Exchange) : (updXch s x f).win = s.win := rfl
@[simp] theorem updXch_ctx (s : State) (x : Nat) (f : Exchange → Exchange) : (updXch s x f).ctx = s.ctx := rfl
@[simp] theorem updXch_cal (s : State) (x : Nat) (f : Exchange → Exchange) : (updXch s x f).cal = s.cal := rfl
@[simp] theorem updXch_err (s : State) (x : Nat) (f : Exchange → Exchange) : (updXch s x f).err = s.err := rfl
@[simp] theorem updXch_rings (s : State) (x : Nat) (f : Exchange → Exchange) : (updXch s x f).rings = s.rings := rfl
@[simp] theorem updXch_que (s : State) (x : Nat) (f : Exchange → Exchange) : (updXch s x f).que = s.que := rfl
@[simp] theorem updXch_queues (s : State) (x : Nat) (f : Exchange → Exchange) : (updXch s x f).queues = s.queues := rfl
@[simp] theorem updXch_tasks (s : State) (x : Nat) (f : Exchange → Exchange) : (updXch s x f).tasks = s.tasks := rfl
@[simp] theorem updXch_acc (s : State) (x : Nat) (f : Exchange → Exchange) : (updXch s x f).acc = s.acc := rfl
@[simp] theorem updXch_accNext (s : State) (x : Nat) (f : Exchange → Exchange) : (updXch s x f).accNext = s.accNext := rfl
@[simp] theorem updXch_xlt (s : State) (x : Nat) (f : Exchange → Exchange) : (updXch s x f).xlt = s.xlt := rfl
@[simp] theorem updXch_tbl (s : State) (x : Nat) (f : Exchange → Exchange) : (updXch s x f).tbl = s.tbl := rfl
@[simp] theorem updXch_sch (s : State) (x : Nat) (f : Exchange → Exchange) : (updXch s x f).sch = s.sch := rfl
@[simp] theorem updXch_pwr (s : State) (x : Nat) (f : Exchange → Exchange) : (updXch s x f).pwr = s.pwr := rfl
@[simp] theorem updXch_mbx (s : State) (x : Nat) (f : Exchange → Exchange) : (updXch s x f).mbx = s.mbx := rfl
@[simp] theorem updXch_tap (s : State) (x : Nat) (f : Exchange → Exchange) : (updXch s x f).tap = s.tap := rfl
@[simp] theorem updXch_trl (s : State) (x : Nat) (f : Exchange → Exchange) : (updXch s x f).trl = s.trl := rfl
@[simp] theorem updXch_ls (s : State) (x : Nat) (f : Exchange → Exchange) : (updXch s x f).ls = s.ls := rfl
@[simp] theorem updXch_bar (s : State) (x : Nat) (f : Exchange → Exchange) : (updXch s x f).bar = s.bar := rfl
@[simp] theorem updXch_det (s : State) (x : Nat) (f : Exchange → Exchange) : (updXch s x f).det = s.det := rfl
@[simp] theorem updXch_qwin (s : State) (x : Nat) (f : Exchange → Exchange) : (updXch s x f).qwin = s.qwin := rfl
@[simp] theorem updXch_xwin (s : State) (x : Nat) (f : Exchange → Exchange) : (updXch s x f).xwin = s.xwin := rfl
@[simp] theorem updXch_gwin (s : State) (x : Nat) (f : Exchange → Exchange) : (updXch s x f).gwin = s.gwin := rfl
@[simp] theorem updXch_twin (s : State) (x : Nat) (f : Exchange → Exchange) : (updXch s x f).twin = s.twin := rfl
@[simp] theorem updXch_swin (s : State) (x : Nat) (f : Exchange → Exchange) : (updXch s x f).swin = s.swin := rfl
@[simp] theorem updXch_pwin (s : State) (x : Nat) (f : Exchange → Exchange) : (updXch s x f).pwin = s.pwin := rfl
@[simp] theorem updXch_cc (s : State) (x : Nat) (f : Exchange → Exchange) : (updXch s x f).cc = s.cc := rfl
@[simp] theorem updXch_out (s : State) (x : Nat) (f : Exchange → Exchange) : (updXch s x f).out = s.out := rfl
@[simp] theorem updXch_pending (s : State) (x : Nat) (f : Exchange → Exchange) : (updXch s x f).pending = s.pending := rfl

@[simp] theorem updTrl_clk (s : State) (f : Trail → Trail) : (updTrl s f).clk = s.clk := rfl
@[simp] theorem updTrl_boot (s : State) (f : Trail → Trail) : (updTrl s f).boot = s.boot := rfl
@[simp] theorem updTrl_img (s : State) (f : Trail → Trail) : (updTrl s f).img = s.img := rfl
@[simp] theorem updTrl_glob (s : State) (f : Trail → Trail) : (updTrl s f).glob = s.glob := rfl
@[simp] theorem updTrl_clr (s : State) (f : Trail → Trail) : (updTrl s f).clr = s.clr := rfl
@[simp] theorem updTrl_win (s : State) (f : Trail → Trail) : (updTrl s f).win = s.win := rfl
@[simp] theorem updTrl_ctx (s : State) (f : Trail → Trail) : (updTrl s f).ctx = s.ctx := rfl
@[simp] theorem updTrl_cal (s : State) (f : Trail → Trail) : (updTrl s f).cal = s.cal := rfl
@[simp] theorem updTrl_err (s : State) (f : Trail → Trail) : (updTrl s f).err = s.err := rfl
@[simp] theorem updTrl_rings (s : State) (f : Trail → Trail) : (updTrl s f).rings = s.rings := rfl
@[simp] theorem updTrl_que (s : State) (f : Trail → Trail) : (updTrl s f).que = s.que := rfl
@[simp] theorem updTrl_queues (s : State) (f : Trail → Trail) : (updTrl s f).queues = s.queues := rfl
@[simp] theorem updTrl_tasks (s : State) (f : Trail → Trail) : (updTrl s f).tasks = s.tasks := rfl
@[simp] theorem updTrl_acc (s : State) (f : Trail → Trail) : (updTrl s f).acc = s.acc := rfl
@[simp] theorem updTrl_accNext (s : State) (f : Trail → Trail) : (updTrl s f).accNext = s.accNext := rfl
@[simp] theorem updTrl_xlt (s : State) (f : Trail → Trail) : (updTrl s f).xlt = s.xlt := rfl
@[simp] theorem updTrl_tbl (s : State) (f : Trail → Trail) : (updTrl s f).tbl = s.tbl := rfl
@[simp] theorem updTrl_sch (s : State) (f : Trail → Trail) : (updTrl s f).sch = s.sch := rfl
@[simp] theorem updTrl_pwr (s : State) (f : Trail → Trail) : (updTrl s f).pwr = s.pwr := rfl
@[simp] theorem updTrl_mbx (s : State) (f : Trail → Trail) : (updTrl s f).mbx = s.mbx := rfl
@[simp] theorem updTrl_key (s : State) (f : Trail → Trail) : (updTrl s f).key = s.key := rfl
@[simp] theorem updTrl_tap (s : State) (f : Trail → Trail) : (updTrl s f).tap = s.tap := rfl
@[simp] theorem updTrl_ls (s : State) (f : Trail → Trail) : (updTrl s f).ls = s.ls := rfl
@[simp] theorem updTrl_bar (s : State) (f : Trail → Trail) : (updTrl s f).bar = s.bar := rfl
@[simp] theorem updTrl_det (s : State) (f : Trail → Trail) : (updTrl s f).det = s.det := rfl
@[simp] theorem updTrl_qwin (s : State) (f : Trail → Trail) : (updTrl s f).qwin = s.qwin := rfl
@[simp] theorem updTrl_xwin (s : State) (f : Trail → Trail) : (updTrl s f).xwin = s.xwin := rfl
@[simp] theorem updTrl_gwin (s : State) (f : Trail → Trail) : (updTrl s f).gwin = s.gwin := rfl
@[simp] theorem updTrl_twin (s : State) (f : Trail → Trail) : (updTrl s f).twin = s.twin := rfl
@[simp] theorem updTrl_swin (s : State) (f : Trail → Trail) : (updTrl s f).swin = s.swin := rfl
@[simp] theorem updTrl_pwin (s : State) (f : Trail → Trail) : (updTrl s f).pwin = s.pwin := rfl
@[simp] theorem updTrl_cc (s : State) (f : Trail → Trail) : (updTrl s f).cc = s.cc := rfl
@[simp] theorem updTrl_out (s : State) (f : Trail → Trail) : (updTrl s f).out = s.out := rfl
@[simp] theorem updTrl_pending (s : State) (f : Trail → Trail) : (updTrl s f).pending = s.pending := rfl

@[simp] theorem updLs_clk (s : State) (n : Nat) (f : Lockstep → Lockstep) : (updLs s n f).clk = s.clk := rfl
@[simp] theorem updLs_boot (s : State) (n : Nat) (f : Lockstep → Lockstep) : (updLs s n f).boot = s.boot := rfl
@[simp] theorem updLs_img (s : State) (n : Nat) (f : Lockstep → Lockstep) : (updLs s n f).img = s.img := rfl
@[simp] theorem updLs_glob (s : State) (n : Nat) (f : Lockstep → Lockstep) : (updLs s n f).glob = s.glob := rfl
@[simp] theorem updLs_clr (s : State) (n : Nat) (f : Lockstep → Lockstep) : (updLs s n f).clr = s.clr := rfl
@[simp] theorem updLs_win (s : State) (n : Nat) (f : Lockstep → Lockstep) : (updLs s n f).win = s.win := rfl
@[simp] theorem updLs_ctx (s : State) (n : Nat) (f : Lockstep → Lockstep) : (updLs s n f).ctx = s.ctx := rfl
@[simp] theorem updLs_cal (s : State) (n : Nat) (f : Lockstep → Lockstep) : (updLs s n f).cal = s.cal := rfl
@[simp] theorem updLs_err (s : State) (n : Nat) (f : Lockstep → Lockstep) : (updLs s n f).err = s.err := rfl
@[simp] theorem updLs_rings (s : State) (n : Nat) (f : Lockstep → Lockstep) : (updLs s n f).rings = s.rings := rfl
@[simp] theorem updLs_que (s : State) (n : Nat) (f : Lockstep → Lockstep) : (updLs s n f).que = s.que := rfl
@[simp] theorem updLs_queues (s : State) (n : Nat) (f : Lockstep → Lockstep) : (updLs s n f).queues = s.queues := rfl
@[simp] theorem updLs_tasks (s : State) (n : Nat) (f : Lockstep → Lockstep) : (updLs s n f).tasks = s.tasks := rfl
@[simp] theorem updLs_acc (s : State) (n : Nat) (f : Lockstep → Lockstep) : (updLs s n f).acc = s.acc := rfl
@[simp] theorem updLs_accNext (s : State) (n : Nat) (f : Lockstep → Lockstep) : (updLs s n f).accNext = s.accNext := rfl
@[simp] theorem updLs_xlt (s : State) (n : Nat) (f : Lockstep → Lockstep) : (updLs s n f).xlt = s.xlt := rfl
@[simp] theorem updLs_tbl (s : State) (n : Nat) (f : Lockstep → Lockstep) : (updLs s n f).tbl = s.tbl := rfl
@[simp] theorem updLs_sch (s : State) (n : Nat) (f : Lockstep → Lockstep) : (updLs s n f).sch = s.sch := rfl
@[simp] theorem updLs_pwr (s : State) (n : Nat) (f : Lockstep → Lockstep) : (updLs s n f).pwr = s.pwr := rfl
@[simp] theorem updLs_mbx (s : State) (n : Nat) (f : Lockstep → Lockstep) : (updLs s n f).mbx = s.mbx := rfl
@[simp] theorem updLs_key (s : State) (n : Nat) (f : Lockstep → Lockstep) : (updLs s n f).key = s.key := rfl
@[simp] theorem updLs_tap (s : State) (n : Nat) (f : Lockstep → Lockstep) : (updLs s n f).tap = s.tap := rfl
@[simp] theorem updLs_trl (s : State) (n : Nat) (f : Lockstep → Lockstep) : (updLs s n f).trl = s.trl := rfl
@[simp] theorem updLs_bar (s : State) (n : Nat) (f : Lockstep → Lockstep) : (updLs s n f).bar = s.bar := rfl
@[simp] theorem updLs_det (s : State) (n : Nat) (f : Lockstep → Lockstep) : (updLs s n f).det = s.det := rfl
@[simp] theorem updLs_qwin (s : State) (n : Nat) (f : Lockstep → Lockstep) : (updLs s n f).qwin = s.qwin := rfl
@[simp] theorem updLs_xwin (s : State) (n : Nat) (f : Lockstep → Lockstep) : (updLs s n f).xwin = s.xwin := rfl
@[simp] theorem updLs_gwin (s : State) (n : Nat) (f : Lockstep → Lockstep) : (updLs s n f).gwin = s.gwin := rfl
@[simp] theorem updLs_twin (s : State) (n : Nat) (f : Lockstep → Lockstep) : (updLs s n f).twin = s.twin := rfl
@[simp] theorem updLs_swin (s : State) (n : Nat) (f : Lockstep → Lockstep) : (updLs s n f).swin = s.swin := rfl
@[simp] theorem updLs_pwin (s : State) (n : Nat) (f : Lockstep → Lockstep) : (updLs s n f).pwin = s.pwin := rfl
@[simp] theorem updLs_cc (s : State) (n : Nat) (f : Lockstep → Lockstep) : (updLs s n f).cc = s.cc := rfl
@[simp] theorem updLs_out (s : State) (n : Nat) (f : Lockstep → Lockstep) : (updLs s n f).out = s.out := rfl
@[simp] theorem updLs_pending (s : State) (n : Nat) (f : Lockstep → Lockstep) : (updLs s n f).pending = s.pending := rfl

@[simp] theorem updBar_clk (s : State) (n : Nat) (f : Barrier → Barrier) : (updBar s n f).clk = s.clk := rfl
@[simp] theorem updBar_boot (s : State) (n : Nat) (f : Barrier → Barrier) : (updBar s n f).boot = s.boot := rfl
@[simp] theorem updBar_img (s : State) (n : Nat) (f : Barrier → Barrier) : (updBar s n f).img = s.img := rfl
@[simp] theorem updBar_glob (s : State) (n : Nat) (f : Barrier → Barrier) : (updBar s n f).glob = s.glob := rfl
@[simp] theorem updBar_clr (s : State) (n : Nat) (f : Barrier → Barrier) : (updBar s n f).clr = s.clr := rfl
@[simp] theorem updBar_win (s : State) (n : Nat) (f : Barrier → Barrier) : (updBar s n f).win = s.win := rfl
@[simp] theorem updBar_ctx (s : State) (n : Nat) (f : Barrier → Barrier) : (updBar s n f).ctx = s.ctx := rfl
@[simp] theorem updBar_cal (s : State) (n : Nat) (f : Barrier → Barrier) : (updBar s n f).cal = s.cal := rfl
@[simp] theorem updBar_err (s : State) (n : Nat) (f : Barrier → Barrier) : (updBar s n f).err = s.err := rfl
@[simp] theorem updBar_rings (s : State) (n : Nat) (f : Barrier → Barrier) : (updBar s n f).rings = s.rings := rfl
@[simp] theorem updBar_que (s : State) (n : Nat) (f : Barrier → Barrier) : (updBar s n f).que = s.que := rfl
@[simp] theorem updBar_queues (s : State) (n : Nat) (f : Barrier → Barrier) : (updBar s n f).queues = s.queues := rfl
@[simp] theorem updBar_tasks (s : State) (n : Nat) (f : Barrier → Barrier) : (updBar s n f).tasks = s.tasks := rfl
@[simp] theorem updBar_acc (s : State) (n : Nat) (f : Barrier → Barrier) : (updBar s n f).acc = s.acc := rfl
@[simp] theorem updBar_accNext (s : State) (n : Nat) (f : Barrier → Barrier) : (updBar s n f).accNext = s.accNext := rfl
@[simp] theorem updBar_xlt (s : State) (n : Nat) (f : Barrier → Barrier) : (updBar s n f).xlt = s.xlt := rfl
@[simp] theorem updBar_tbl (s : State) (n : Nat) (f : Barrier → Barrier) : (updBar s n f).tbl = s.tbl := rfl
@[simp] theorem updBar_sch (s : State) (n : Nat) (f : Barrier → Barrier) : (updBar s n f).sch = s.sch := rfl
@[simp] theorem updBar_pwr (s : State) (n : Nat) (f : Barrier → Barrier) : (updBar s n f).pwr = s.pwr := rfl
@[simp] theorem updBar_mbx (s : State) (n : Nat) (f : Barrier → Barrier) : (updBar s n f).mbx = s.mbx := rfl
@[simp] theorem updBar_key (s : State) (n : Nat) (f : Barrier → Barrier) : (updBar s n f).key = s.key := rfl
@[simp] theorem updBar_tap (s : State) (n : Nat) (f : Barrier → Barrier) : (updBar s n f).tap = s.tap := rfl
@[simp] theorem updBar_trl (s : State) (n : Nat) (f : Barrier → Barrier) : (updBar s n f).trl = s.trl := rfl
@[simp] theorem updBar_ls (s : State) (n : Nat) (f : Barrier → Barrier) : (updBar s n f).ls = s.ls := rfl
@[simp] theorem updBar_det (s : State) (n : Nat) (f : Barrier → Barrier) : (updBar s n f).det = s.det := rfl
@[simp] theorem updBar_qwin (s : State) (n : Nat) (f : Barrier → Barrier) : (updBar s n f).qwin = s.qwin := rfl
@[simp] theorem updBar_xwin (s : State) (n : Nat) (f : Barrier → Barrier) : (updBar s n f).xwin = s.xwin := rfl
@[simp] theorem updBar_gwin (s : State) (n : Nat) (f : Barrier → Barrier) : (updBar s n f).gwin = s.gwin := rfl
@[simp] theorem updBar_twin (s : State) (n : Nat) (f : Barrier → Barrier) : (updBar s n f).twin = s.twin := rfl
@[simp] theorem updBar_swin (s : State) (n : Nat) (f : Barrier → Barrier) : (updBar s n f).swin = s.swin := rfl
@[simp] theorem updBar_pwin (s : State) (n : Nat) (f : Barrier → Barrier) : (updBar s n f).pwin = s.pwin := rfl
@[simp] theorem updBar_cc (s : State) (n : Nat) (f : Barrier → Barrier) : (updBar s n f).cc = s.cc := rfl
@[simp] theorem updBar_out (s : State) (n : Nat) (f : Barrier → Barrier) : (updBar s n f).out = s.out := rfl
@[simp] theorem updBar_pending (s : State) (n : Nat) (f : Barrier → Barrier) : (updBar s n f).pending = s.pending := rfl

@[simp] theorem emit_clk (s : State) (o : Output) : (emit s o).clk = s.clk := rfl
@[simp] theorem emit_boot (s : State) (o : Output) : (emit s o).boot = s.boot := rfl
@[simp] theorem emit_img (s : State) (o : Output) : (emit s o).img = s.img := rfl
@[simp] theorem emit_glob (s : State) (o : Output) : (emit s o).glob = s.glob := rfl
@[simp] theorem emit_clr (s : State) (o : Output) : (emit s o).clr = s.clr := rfl
@[simp] theorem emit_win (s : State) (o : Output) : (emit s o).win = s.win := rfl
@[simp] theorem emit_ctx (s : State) (o : Output) : (emit s o).ctx = s.ctx := rfl
@[simp] theorem emit_cal (s : State) (o : Output) : (emit s o).cal = s.cal := rfl
@[simp] theorem emit_err (s : State) (o : Output) : (emit s o).err = s.err := rfl
@[simp] theorem emit_rings (s : State) (o : Output) : (emit s o).rings = s.rings := rfl
@[simp] theorem emit_que (s : State) (o : Output) : (emit s o).que = s.que := rfl
@[simp] theorem emit_queues (s : State) (o : Output) : (emit s o).queues = s.queues := rfl
@[simp] theorem emit_tasks (s : State) (o : Output) : (emit s o).tasks = s.tasks := rfl
@[simp] theorem emit_acc (s : State) (o : Output) : (emit s o).acc = s.acc := rfl
@[simp] theorem emit_accNext (s : State) (o : Output) : (emit s o).accNext = s.accNext := rfl
@[simp] theorem emit_xlt (s : State) (o : Output) : (emit s o).xlt = s.xlt := rfl
@[simp] theorem emit_tbl (s : State) (o : Output) : (emit s o).tbl = s.tbl := rfl
@[simp] theorem emit_sch (s : State) (o : Output) : (emit s o).sch = s.sch := rfl
@[simp] theorem emit_pwr (s : State) (o : Output) : (emit s o).pwr = s.pwr := rfl
@[simp] theorem emit_mbx (s : State) (o : Output) : (emit s o).mbx = s.mbx := rfl
@[simp] theorem emit_key (s : State) (o : Output) : (emit s o).key = s.key := rfl
@[simp] theorem emit_tap (s : State) (o : Output) : (emit s o).tap = s.tap := rfl
@[simp] theorem emit_trl (s : State) (o : Output) : (emit s o).trl = s.trl := rfl
@[simp] theorem emit_ls (s : State) (o : Output) : (emit s o).ls = s.ls := rfl
@[simp] theorem emit_bar (s : State) (o : Output) : (emit s o).bar = s.bar := rfl
@[simp] theorem emit_det (s : State) (o : Output) : (emit s o).det = s.det := rfl
@[simp] theorem emit_qwin (s : State) (o : Output) : (emit s o).qwin = s.qwin := rfl
@[simp] theorem emit_xwin (s : State) (o : Output) : (emit s o).xwin = s.xwin := rfl
@[simp] theorem emit_gwin (s : State) (o : Output) : (emit s o).gwin = s.gwin := rfl
@[simp] theorem emit_twin (s : State) (o : Output) : (emit s o).twin = s.twin := rfl
@[simp] theorem emit_swin (s : State) (o : Output) : (emit s o).swin = s.swin := rfl
@[simp] theorem emit_pwin (s : State) (o : Output) : (emit s o).pwin = s.pwin := rfl
@[simp] theorem emit_cc (s : State) (o : Output) : (emit s o).cc = s.cc := rfl
@[simp] theorem emit_pending (s : State) (o : Output) : (emit s o).pending = s.pending := rfl

@[simp] theorem updMeas_clk (s : State) (n c : Nat) (f : ClassMeas → ClassMeas) : (updMeas s n c f).clk = s.clk := rfl
@[simp] theorem updMeas_boot (s : State) (n c : Nat) (f : ClassMeas → ClassMeas) : (updMeas s n c f).boot = s.boot := rfl
@[simp] theorem updMeas_img (s : State) (n c : Nat) (f : ClassMeas → ClassMeas) : (updMeas s n c f).img = s.img := rfl
@[simp] theorem updMeas_glob (s : State) (n c : Nat) (f : ClassMeas → ClassMeas) : (updMeas s n c f).glob = s.glob := rfl
@[simp] theorem updMeas_win (s : State) (n c : Nat) (f : ClassMeas → ClassMeas) : (updMeas s n c f).win = s.win := rfl
@[simp] theorem updMeas_ctx (s : State) (n c : Nat) (f : ClassMeas → ClassMeas) : (updMeas s n c f).ctx = s.ctx := rfl
@[simp] theorem updMeas_cal (s : State) (n c : Nat) (f : ClassMeas → ClassMeas) : (updMeas s n c f).cal = s.cal := rfl
@[simp] theorem updMeas_err (s : State) (n c : Nat) (f : ClassMeas → ClassMeas) : (updMeas s n c f).err = s.err := rfl
@[simp] theorem updMeas_rings (s : State) (n c : Nat) (f : ClassMeas → ClassMeas) : (updMeas s n c f).rings = s.rings := rfl
@[simp] theorem updMeas_que (s : State) (n c : Nat) (f : ClassMeas → ClassMeas) : (updMeas s n c f).que = s.que := rfl
@[simp] theorem updMeas_queues (s : State) (n c : Nat) (f : ClassMeas → ClassMeas) : (updMeas s n c f).queues = s.queues := rfl
@[simp] theorem updMeas_tasks (s : State) (n c : Nat) (f : ClassMeas → ClassMeas) : (updMeas s n c f).tasks = s.tasks := rfl
@[simp] theorem updMeas_acc (s : State) (n c : Nat) (f : ClassMeas → ClassMeas) : (updMeas s n c f).acc = s.acc := rfl
@[simp] theorem updMeas_accNext (s : State) (n c : Nat) (f : ClassMeas → ClassMeas) : (updMeas s n c f).accNext = s.accNext := rfl
@[simp] theorem updMeas_xlt (s : State) (n c : Nat) (f : ClassMeas → ClassMeas) : (updMeas s n c f).xlt = s.xlt := rfl
@[simp] theorem updMeas_tbl (s : State) (n c : Nat) (f : ClassMeas → ClassMeas) : (updMeas s n c f).tbl = s.tbl := rfl
@[simp] theorem updMeas_sch (s : State) (n c : Nat) (f : ClassMeas → ClassMeas) : (updMeas s n c f).sch = s.sch := rfl
@[simp] theorem updMeas_pwr (s : State) (n c : Nat) (f : ClassMeas → ClassMeas) : (updMeas s n c f).pwr = s.pwr := rfl
@[simp] theorem updMeas_mbx (s : State) (n c : Nat) (f : ClassMeas → ClassMeas) : (updMeas s n c f).mbx = s.mbx := rfl
@[simp] theorem updMeas_key (s : State) (n c : Nat) (f : ClassMeas → ClassMeas) : (updMeas s n c f).key = s.key := rfl
@[simp] theorem updMeas_tap (s : State) (n c : Nat) (f : ClassMeas → ClassMeas) : (updMeas s n c f).tap = s.tap := rfl
@[simp] theorem updMeas_trl (s : State) (n c : Nat) (f : ClassMeas → ClassMeas) : (updMeas s n c f).trl = s.trl := rfl
@[simp] theorem updMeas_ls (s : State) (n c : Nat) (f : ClassMeas → ClassMeas) : (updMeas s n c f).ls = s.ls := rfl
@[simp] theorem updMeas_bar (s : State) (n c : Nat) (f : ClassMeas → ClassMeas) : (updMeas s n c f).bar = s.bar := rfl
@[simp] theorem updMeas_det (s : State) (n c : Nat) (f : ClassMeas → ClassMeas) : (updMeas s n c f).det = s.det := rfl
@[simp] theorem updMeas_qwin (s : State) (n c : Nat) (f : ClassMeas → ClassMeas) : (updMeas s n c f).qwin = s.qwin := rfl
@[simp] theorem updMeas_xwin (s : State) (n c : Nat) (f : ClassMeas → ClassMeas) : (updMeas s n c f).xwin = s.xwin := rfl
@[simp] theorem updMeas_gwin (s : State) (n c : Nat) (f : ClassMeas → ClassMeas) : (updMeas s n c f).gwin = s.gwin := rfl
@[simp] theorem updMeas_twin (s : State) (n c : Nat) (f : ClassMeas → ClassMeas) : (updMeas s n c f).twin = s.twin := rfl
@[simp] theorem updMeas_swin (s : State) (n c : Nat) (f : ClassMeas → ClassMeas) : (updMeas s n c f).swin = s.swin := rfl
@[simp] theorem updMeas_pwin (s : State) (n c : Nat) (f : ClassMeas → ClassMeas) : (updMeas s n c f).pwin = s.pwin := rfl
@[simp] theorem updMeas_cc (s : State) (n c : Nat) (f : ClassMeas → ClassMeas) : (updMeas s n c f).cc = s.cc := rfl
@[simp] theorem updMeas_out (s : State) (n c : Nat) (f : ClassMeas → ClassMeas) : (updMeas s n c f).out = s.out := rfl
@[simp] theorem updMeas_pending (s : State) (n c : Nat) (f : ClassMeas → ClassMeas) : (updMeas s n c f).pending = s.pending := rfl

@[simp] theorem updModel_clk (s : State) (n i : Nat) (f : Model → Model) : (updModel s n i f).clk = s.clk := rfl
@[simp] theorem updModel_boot (s : State) (n i : Nat) (f : Model → Model) : (updModel s n i f).boot = s.boot := rfl
@[simp] theorem updModel_img (s : State) (n i : Nat) (f : Model → Model) : (updModel s n i f).img = s.img := rfl
@[simp] theorem updModel_glob (s : State) (n i : Nat) (f : Model → Model) : (updModel s n i f).glob = s.glob := rfl
@[simp] theorem updModel_clr (s : State) (n i : Nat) (f : Model → Model) : (updModel s n i f).clr = s.clr := rfl
@[simp] theorem updModel_win (s : State) (n i : Nat) (f : Model → Model) : (updModel s n i f).win = s.win := rfl
@[simp] theorem updModel_ctx (s : State) (n i : Nat) (f : Model → Model) : (updModel s n i f).ctx = s.ctx := rfl
@[simp] theorem updModel_cal (s : State) (n i : Nat) (f : Model → Model) : (updModel s n i f).cal = s.cal := rfl
@[simp] theorem updModel_err (s : State) (n i : Nat) (f : Model → Model) : (updModel s n i f).err = s.err := rfl
@[simp] theorem updModel_rings (s : State) (n i : Nat) (f : Model → Model) : (updModel s n i f).rings = s.rings := rfl
@[simp] theorem updModel_que (s : State) (n i : Nat) (f : Model → Model) : (updModel s n i f).que = s.que := rfl
@[simp] theorem updModel_queues (s : State) (n i : Nat) (f : Model → Model) : (updModel s n i f).queues = s.queues := rfl
@[simp] theorem updModel_tasks (s : State) (n i : Nat) (f : Model → Model) : (updModel s n i f).tasks = s.tasks := rfl
@[simp] theorem updModel_acc (s : State) (n i : Nat) (f : Model → Model) : (updModel s n i f).acc = s.acc := rfl
@[simp] theorem updModel_accNext (s : State) (n i : Nat) (f : Model → Model) : (updModel s n i f).accNext = s.accNext := rfl
@[simp] theorem updModel_xlt (s : State) (n i : Nat) (f : Model → Model) : (updModel s n i f).xlt = s.xlt := rfl
@[simp] theorem updModel_tbl (s : State) (n i : Nat) (f : Model → Model) : (updModel s n i f).tbl = s.tbl := rfl
@[simp] theorem updModel_sch (s : State) (n i : Nat) (f : Model → Model) : (updModel s n i f).sch = s.sch := rfl
@[simp] theorem updModel_pwr (s : State) (n i : Nat) (f : Model → Model) : (updModel s n i f).pwr = s.pwr := rfl
@[simp] theorem updModel_mbx (s : State) (n i : Nat) (f : Model → Model) : (updModel s n i f).mbx = s.mbx := rfl
@[simp] theorem updModel_key (s : State) (n i : Nat) (f : Model → Model) : (updModel s n i f).key = s.key := rfl
@[simp] theorem updModel_tap (s : State) (n i : Nat) (f : Model → Model) : (updModel s n i f).tap = s.tap := rfl
@[simp] theorem updModel_trl (s : State) (n i : Nat) (f : Model → Model) : (updModel s n i f).trl = s.trl := rfl
@[simp] theorem updModel_ls (s : State) (n i : Nat) (f : Model → Model) : (updModel s n i f).ls = s.ls := rfl
@[simp] theorem updModel_bar (s : State) (n i : Nat) (f : Model → Model) : (updModel s n i f).bar = s.bar := rfl
@[simp] theorem updModel_det (s : State) (n i : Nat) (f : Model → Model) : (updModel s n i f).det = s.det := rfl
@[simp] theorem updModel_qwin (s : State) (n i : Nat) (f : Model → Model) : (updModel s n i f).qwin = s.qwin := rfl
@[simp] theorem updModel_xwin (s : State) (n i : Nat) (f : Model → Model) : (updModel s n i f).xwin = s.xwin := rfl
@[simp] theorem updModel_gwin (s : State) (n i : Nat) (f : Model → Model) : (updModel s n i f).gwin = s.gwin := rfl
@[simp] theorem updModel_twin (s : State) (n i : Nat) (f : Model → Model) : (updModel s n i f).twin = s.twin := rfl
@[simp] theorem updModel_pwin (s : State) (n i : Nat) (f : Model → Model) : (updModel s n i f).pwin = s.pwin := rfl
@[simp] theorem updModel_cc (s : State) (n i : Nat) (f : Model → Model) : (updModel s n i f).cc = s.cc := rfl
@[simp] theorem updModel_out (s : State) (n i : Nat) (f : Model → Model) : (updModel s n i f).out = s.out := rfl
@[simp] theorem updModel_pending (s : State) (n i : Nat) (f : Model → Model) : (updModel s n i f).pending = s.pending := rfl

@[simp] theorem updRot_clk (s : State) (o : Nat) (f : RotPort → RotPort) : (updRot s o f).clk = s.clk := rfl
@[simp] theorem updRot_boot (s : State) (o : Nat) (f : RotPort → RotPort) : (updRot s o f).boot = s.boot := rfl
@[simp] theorem updRot_img (s : State) (o : Nat) (f : RotPort → RotPort) : (updRot s o f).img = s.img := rfl
@[simp] theorem updRot_glob (s : State) (o : Nat) (f : RotPort → RotPort) : (updRot s o f).glob = s.glob := rfl
@[simp] theorem updRot_clr (s : State) (o : Nat) (f : RotPort → RotPort) : (updRot s o f).clr = s.clr := rfl
@[simp] theorem updRot_win (s : State) (o : Nat) (f : RotPort → RotPort) : (updRot s o f).win = s.win := rfl
@[simp] theorem updRot_ctx (s : State) (o : Nat) (f : RotPort → RotPort) : (updRot s o f).ctx = s.ctx := rfl
@[simp] theorem updRot_cal (s : State) (o : Nat) (f : RotPort → RotPort) : (updRot s o f).cal = s.cal := rfl
@[simp] theorem updRot_err (s : State) (o : Nat) (f : RotPort → RotPort) : (updRot s o f).err = s.err := rfl
@[simp] theorem updRot_rings (s : State) (o : Nat) (f : RotPort → RotPort) : (updRot s o f).rings = s.rings := rfl
@[simp] theorem updRot_que (s : State) (o : Nat) (f : RotPort → RotPort) : (updRot s o f).que = s.que := rfl
@[simp] theorem updRot_queues (s : State) (o : Nat) (f : RotPort → RotPort) : (updRot s o f).queues = s.queues := rfl
@[simp] theorem updRot_tasks (s : State) (o : Nat) (f : RotPort → RotPort) : (updRot s o f).tasks = s.tasks := rfl
@[simp] theorem updRot_acc (s : State) (o : Nat) (f : RotPort → RotPort) : (updRot s o f).acc = s.acc := rfl
@[simp] theorem updRot_accNext (s : State) (o : Nat) (f : RotPort → RotPort) : (updRot s o f).accNext = s.accNext := rfl
@[simp] theorem updRot_xlt (s : State) (o : Nat) (f : RotPort → RotPort) : (updRot s o f).xlt = s.xlt := rfl
@[simp] theorem updRot_tbl (s : State) (o : Nat) (f : RotPort → RotPort) : (updRot s o f).tbl = s.tbl := rfl
@[simp] theorem updRot_sch (s : State) (o : Nat) (f : RotPort → RotPort) : (updRot s o f).sch = s.sch := rfl
@[simp] theorem updRot_pwr (s : State) (o : Nat) (f : RotPort → RotPort) : (updRot s o f).pwr = s.pwr := rfl
@[simp] theorem updRot_mbx (s : State) (o : Nat) (f : RotPort → RotPort) : (updRot s o f).mbx = s.mbx := rfl
@[simp] theorem updRot_tap (s : State) (o : Nat) (f : RotPort → RotPort) : (updRot s o f).tap = s.tap := rfl
@[simp] theorem updRot_trl (s : State) (o : Nat) (f : RotPort → RotPort) : (updRot s o f).trl = s.trl := rfl
@[simp] theorem updRot_ls (s : State) (o : Nat) (f : RotPort → RotPort) : (updRot s o f).ls = s.ls := rfl
@[simp] theorem updRot_bar (s : State) (o : Nat) (f : RotPort → RotPort) : (updRot s o f).bar = s.bar := rfl
@[simp] theorem updRot_det (s : State) (o : Nat) (f : RotPort → RotPort) : (updRot s o f).det = s.det := rfl
@[simp] theorem updRot_qwin (s : State) (o : Nat) (f : RotPort → RotPort) : (updRot s o f).qwin = s.qwin := rfl
@[simp] theorem updRot_xwin (s : State) (o : Nat) (f : RotPort → RotPort) : (updRot s o f).xwin = s.xwin := rfl
@[simp] theorem updRot_gwin (s : State) (o : Nat) (f : RotPort → RotPort) : (updRot s o f).gwin = s.gwin := rfl
@[simp] theorem updRot_twin (s : State) (o : Nat) (f : RotPort → RotPort) : (updRot s o f).twin = s.twin := rfl
@[simp] theorem updRot_swin (s : State) (o : Nat) (f : RotPort → RotPort) : (updRot s o f).swin = s.swin := rfl
@[simp] theorem updRot_pwin (s : State) (o : Nat) (f : RotPort → RotPort) : (updRot s o f).pwin = s.pwin := rfl
@[simp] theorem updRot_cc (s : State) (o : Nat) (f : RotPort → RotPort) : (updRot s o f).cc = s.cc := rfl
@[simp] theorem updRot_out (s : State) (o : Nat) (f : RotPort → RotPort) : (updRot s o f).out = s.out := rfl
@[simp] theorem updRot_pending (s : State) (o : Nat) (f : RotPort → RotPort) : (updRot s o f).pending = s.pending := rfl

@[simp] theorem updLane_clk (s : State) (l : Nat) (f : TrlLane → TrlLane) : (updLane s l f).clk = s.clk := rfl
@[simp] theorem updLane_boot (s : State) (l : Nat) (f : TrlLane → TrlLane) : (updLane s l f).boot = s.boot := rfl
@[simp] theorem updLane_img (s : State) (l : Nat) (f : TrlLane → TrlLane) : (updLane s l f).img = s.img := rfl
@[simp] theorem updLane_glob (s : State) (l : Nat) (f : TrlLane → TrlLane) : (updLane s l f).glob = s.glob := rfl
@[simp] theorem updLane_clr (s : State) (l : Nat) (f : TrlLane → TrlLane) : (updLane s l f).clr = s.clr := rfl
@[simp] theorem updLane_win (s : State) (l : Nat) (f : TrlLane → TrlLane) : (updLane s l f).win = s.win := rfl
@[simp] theorem updLane_ctx (s : State) (l : Nat) (f : TrlLane → TrlLane) : (updLane s l f).ctx = s.ctx := rfl
@[simp] theorem updLane_cal (s : State) (l : Nat) (f : TrlLane → TrlLane) : (updLane s l f).cal = s.cal := rfl
@[simp] theorem updLane_err (s : State) (l : Nat) (f : TrlLane → TrlLane) : (updLane s l f).err = s.err := rfl
@[simp] theorem updLane_rings (s : State) (l : Nat) (f : TrlLane → TrlLane) : (updLane s l f).rings = s.rings := rfl
@[simp] theorem updLane_que (s : State) (l : Nat) (f : TrlLane → TrlLane) : (updLane s l f).que = s.que := rfl
@[simp] theorem updLane_queues (s : State) (l : Nat) (f : TrlLane → TrlLane) : (updLane s l f).queues = s.queues := rfl
@[simp] theorem updLane_tasks (s : State) (l : Nat) (f : TrlLane → TrlLane) : (updLane s l f).tasks = s.tasks := rfl
@[simp] theorem updLane_acc (s : State) (l : Nat) (f : TrlLane → TrlLane) : (updLane s l f).acc = s.acc := rfl
@[simp] theorem updLane_accNext (s : State) (l : Nat) (f : TrlLane → TrlLane) : (updLane s l f).accNext = s.accNext := rfl
@[simp] theorem updLane_xlt (s : State) (l : Nat) (f : TrlLane → TrlLane) : (updLane s l f).xlt = s.xlt := rfl
@[simp] theorem updLane_tbl (s : State) (l : Nat) (f : TrlLane → TrlLane) : (updLane s l f).tbl = s.tbl := rfl
@[simp] theorem updLane_sch (s : State) (l : Nat) (f : TrlLane → TrlLane) : (updLane s l f).sch = s.sch := rfl
@[simp] theorem updLane_pwr (s : State) (l : Nat) (f : TrlLane → TrlLane) : (updLane s l f).pwr = s.pwr := rfl
@[simp] theorem updLane_mbx (s : State) (l : Nat) (f : TrlLane → TrlLane) : (updLane s l f).mbx = s.mbx := rfl
@[simp] theorem updLane_key (s : State) (l : Nat) (f : TrlLane → TrlLane) : (updLane s l f).key = s.key := rfl
@[simp] theorem updLane_tap (s : State) (l : Nat) (f : TrlLane → TrlLane) : (updLane s l f).tap = s.tap := rfl
@[simp] theorem updLane_ls (s : State) (l : Nat) (f : TrlLane → TrlLane) : (updLane s l f).ls = s.ls := rfl
@[simp] theorem updLane_bar (s : State) (l : Nat) (f : TrlLane → TrlLane) : (updLane s l f).bar = s.bar := rfl
@[simp] theorem updLane_det (s : State) (l : Nat) (f : TrlLane → TrlLane) : (updLane s l f).det = s.det := rfl
@[simp] theorem updLane_qwin (s : State) (l : Nat) (f : TrlLane → TrlLane) : (updLane s l f).qwin = s.qwin := rfl
@[simp] theorem updLane_xwin (s : State) (l : Nat) (f : TrlLane → TrlLane) : (updLane s l f).xwin = s.xwin := rfl
@[simp] theorem updLane_gwin (s : State) (l : Nat) (f : TrlLane → TrlLane) : (updLane s l f).gwin = s.gwin := rfl
@[simp] theorem updLane_twin (s : State) (l : Nat) (f : TrlLane → TrlLane) : (updLane s l f).twin = s.twin := rfl
@[simp] theorem updLane_swin (s : State) (l : Nat) (f : TrlLane → TrlLane) : (updLane s l f).swin = s.swin := rfl
@[simp] theorem updLane_pwin (s : State) (l : Nat) (f : TrlLane → TrlLane) : (updLane s l f).pwin = s.pwin := rfl
@[simp] theorem updLane_cc (s : State) (l : Nat) (f : TrlLane → TrlLane) : (updLane s l f).cc = s.cc := rfl
@[simp] theorem updLane_out (s : State) (l : Nat) (f : TrlLane → TrlLane) : (updLane s l f).out = s.out := rfl
@[simp] theorem updLane_pending (s : State) (l : Nat) (f : TrlLane → TrlLane) : (updLane s l f).pending = s.pending := rfl

@[simp] theorem updImg_clk (s : State) (f : Img → Img) : (updImg s f).clk = s.clk := rfl
@[simp] theorem updImg_boot (s : State) (f : Img → Img) : (updImg s f).boot = s.boot := rfl
@[simp] theorem updImg_glob (s : State) (f : Img → Img) : (updImg s f).glob = s.glob := rfl
@[simp] theorem updImg_clr (s : State) (f : Img → Img) : (updImg s f).clr = s.clr := rfl
@[simp] theorem updImg_win (s : State) (f : Img → Img) : (updImg s f).win = s.win := rfl
@[simp] theorem updImg_ctx (s : State) (f : Img → Img) : (updImg s f).ctx = s.ctx := rfl
@[simp] theorem updImg_cal (s : State) (f : Img → Img) : (updImg s f).cal = s.cal := rfl
@[simp] theorem updImg_err (s : State) (f : Img → Img) : (updImg s f).err = s.err := rfl
@[simp] theorem updImg_rings (s : State) (f : Img → Img) : (updImg s f).rings = s.rings := rfl
@[simp] theorem updImg_que (s : State) (f : Img → Img) : (updImg s f).que = s.que := rfl
@[simp] theorem updImg_queues (s : State) (f : Img → Img) : (updImg s f).queues = s.queues := rfl
@[simp] theorem updImg_tasks (s : State) (f : Img → Img) : (updImg s f).tasks = s.tasks := rfl
@[simp] theorem updImg_acc (s : State) (f : Img → Img) : (updImg s f).acc = s.acc := rfl
@[simp] theorem updImg_accNext (s : State) (f : Img → Img) : (updImg s f).accNext = s.accNext := rfl
@[simp] theorem updImg_xlt (s : State) (f : Img → Img) : (updImg s f).xlt = s.xlt := rfl
@[simp] theorem updImg_tbl (s : State) (f : Img → Img) : (updImg s f).tbl = s.tbl := rfl
@[simp] theorem updImg_sch (s : State) (f : Img → Img) : (updImg s f).sch = s.sch := rfl
@[simp] theorem updImg_pwr (s : State) (f : Img → Img) : (updImg s f).pwr = s.pwr := rfl
@[simp] theorem updImg_mbx (s : State) (f : Img → Img) : (updImg s f).mbx = s.mbx := rfl
@[simp] theorem updImg_key (s : State) (f : Img → Img) : (updImg s f).key = s.key := rfl
@[simp] theorem updImg_tap (s : State) (f : Img → Img) : (updImg s f).tap = s.tap := rfl
@[simp] theorem updImg_trl (s : State) (f : Img → Img) : (updImg s f).trl = s.trl := rfl
@[simp] theorem updImg_ls (s : State) (f : Img → Img) : (updImg s f).ls = s.ls := rfl
@[simp] theorem updImg_bar (s : State) (f : Img → Img) : (updImg s f).bar = s.bar := rfl
@[simp] theorem updImg_det (s : State) (f : Img → Img) : (updImg s f).det = s.det := rfl
@[simp] theorem updImg_qwin (s : State) (f : Img → Img) : (updImg s f).qwin = s.qwin := rfl
@[simp] theorem updImg_xwin (s : State) (f : Img → Img) : (updImg s f).xwin = s.xwin := rfl
@[simp] theorem updImg_gwin (s : State) (f : Img → Img) : (updImg s f).gwin = s.gwin := rfl
@[simp] theorem updImg_twin (s : State) (f : Img → Img) : (updImg s f).twin = s.twin := rfl
@[simp] theorem updImg_swin (s : State) (f : Img → Img) : (updImg s f).swin = s.swin := rfl
@[simp] theorem updImg_pwin (s : State) (f : Img → Img) : (updImg s f).pwin = s.pwin := rfl
@[simp] theorem updImg_cc (s : State) (f : Img → Img) : (updImg s f).cc = s.cc := rfl
@[simp] theorem updImg_out (s : State) (f : Img → Img) : (updImg s f).out = s.out := rfl
@[simp] theorem updImg_pending (s : State) (f : Img → Img) : (updImg s f).pending = s.pending := rfl

@[simp] theorem updBoot_clk (s : State) (f : Boot → Boot) : (updBoot s f).clk = s.clk := rfl
@[simp] theorem updBoot_img (s : State) (f : Boot → Boot) : (updBoot s f).img = s.img := rfl
@[simp] theorem updBoot_glob (s : State) (f : Boot → Boot) : (updBoot s f).glob = s.glob := rfl
@[simp] theorem updBoot_clr (s : State) (f : Boot → Boot) : (updBoot s f).clr = s.clr := rfl
@[simp] theorem updBoot_win (s : State) (f : Boot → Boot) : (updBoot s f).win = s.win := rfl
@[simp] theorem updBoot_ctx (s : State) (f : Boot → Boot) : (updBoot s f).ctx = s.ctx := rfl
@[simp] theorem updBoot_cal (s : State) (f : Boot → Boot) : (updBoot s f).cal = s.cal := rfl
@[simp] theorem updBoot_err (s : State) (f : Boot → Boot) : (updBoot s f).err = s.err := rfl
@[simp] theorem updBoot_rings (s : State) (f : Boot → Boot) : (updBoot s f).rings = s.rings := rfl
@[simp] theorem updBoot_que (s : State) (f : Boot → Boot) : (updBoot s f).que = s.que := rfl
@[simp] theorem updBoot_queues (s : State) (f : Boot → Boot) : (updBoot s f).queues = s.queues := rfl
@[simp] theorem updBoot_tasks (s : State) (f : Boot → Boot) : (updBoot s f).tasks = s.tasks := rfl
@[simp] theorem updBoot_acc (s : State) (f : Boot → Boot) : (updBoot s f).acc = s.acc := rfl
@[simp] theorem updBoot_accNext (s : State) (f : Boot → Boot) : (updBoot s f).accNext = s.accNext := rfl
@[simp] theorem updBoot_xlt (s : State) (f : Boot → Boot) : (updBoot s f).xlt = s.xlt := rfl
@[simp] theorem updBoot_tbl (s : State) (f : Boot → Boot) : (updBoot s f).tbl = s.tbl := rfl
@[simp] theorem updBoot_sch (s : State) (f : Boot → Boot) : (updBoot s f).sch = s.sch := rfl
@[simp] theorem updBoot_pwr (s : State) (f : Boot → Boot) : (updBoot s f).pwr = s.pwr := rfl
@[simp] theorem updBoot_mbx (s : State) (f : Boot → Boot) : (updBoot s f).mbx = s.mbx := rfl
@[simp] theorem updBoot_key (s : State) (f : Boot → Boot) : (updBoot s f).key = s.key := rfl
@[simp] theorem updBoot_tap (s : State) (f : Boot → Boot) : (updBoot s f).tap = s.tap := rfl
@[simp] theorem updBoot_trl (s : State) (f : Boot → Boot) : (updBoot s f).trl = s.trl := rfl
@[simp] theorem updBoot_ls (s : State) (f : Boot → Boot) : (updBoot s f).ls = s.ls := rfl
@[simp] theorem updBoot_bar (s : State) (f : Boot → Boot) : (updBoot s f).bar = s.bar := rfl
@[simp] theorem updBoot_det (s : State) (f : Boot → Boot) : (updBoot s f).det = s.det := rfl
@[simp] theorem updBoot_qwin (s : State) (f : Boot → Boot) : (updBoot s f).qwin = s.qwin := rfl
@[simp] theorem updBoot_xwin (s : State) (f : Boot → Boot) : (updBoot s f).xwin = s.xwin := rfl
@[simp] theorem updBoot_gwin (s : State) (f : Boot → Boot) : (updBoot s f).gwin = s.gwin := rfl
@[simp] theorem updBoot_twin (s : State) (f : Boot → Boot) : (updBoot s f).twin = s.twin := rfl
@[simp] theorem updBoot_swin (s : State) (f : Boot → Boot) : (updBoot s f).swin = s.swin := rfl
@[simp] theorem updBoot_pwin (s : State) (f : Boot → Boot) : (updBoot s f).pwin = s.pwin := rfl
@[simp] theorem updBoot_cc (s : State) (f : Boot → Boot) : (updBoot s f).cc = s.cc := rfl
@[simp] theorem updBoot_out (s : State) (f : Boot → Boot) : (updBoot s f).out = s.out := rfl
@[simp] theorem updBoot_pending (s : State) (f : Boot → Boot) : (updBoot s f).pending = s.pending := rfl

@[simp] theorem updDet_clk (s : State) (n : Nat) (f : DetWin → DetWin) : (updDet s n f).clk = s.clk := rfl
@[simp] theorem updDet_boot (s : State) (n : Nat) (f : DetWin → DetWin) : (updDet s n f).boot = s.boot := rfl
@[simp] theorem updDet_img (s : State) (n : Nat) (f : DetWin → DetWin) : (updDet s n f).img = s.img := rfl
@[simp] theorem updDet_glob (s : State) (n : Nat) (f : DetWin → DetWin) : (updDet s n f).glob = s.glob := rfl
@[simp] theorem updDet_clr (s : State) (n : Nat) (f : DetWin → DetWin) : (updDet s n f).clr = s.clr := rfl
@[simp] theorem updDet_win (s : State) (n : Nat) (f : DetWin → DetWin) : (updDet s n f).win = s.win := rfl
@[simp] theorem updDet_ctx (s : State) (n : Nat) (f : DetWin → DetWin) : (updDet s n f).ctx = s.ctx := rfl
@[simp] theorem updDet_cal (s : State) (n : Nat) (f : DetWin → DetWin) : (updDet s n f).cal = s.cal := rfl
@[simp] theorem updDet_err (s : State) (n : Nat) (f : DetWin → DetWin) : (updDet s n f).err = s.err := rfl
@[simp] theorem updDet_rings (s : State) (n : Nat) (f : DetWin → DetWin) : (updDet s n f).rings = s.rings := rfl
@[simp] theorem updDet_que (s : State) (n : Nat) (f : DetWin → DetWin) : (updDet s n f).que = s.que := rfl
@[simp] theorem updDet_queues (s : State) (n : Nat) (f : DetWin → DetWin) : (updDet s n f).queues = s.queues := rfl
@[simp] theorem updDet_tasks (s : State) (n : Nat) (f : DetWin → DetWin) : (updDet s n f).tasks = s.tasks := rfl
@[simp] theorem updDet_acc (s : State) (n : Nat) (f : DetWin → DetWin) : (updDet s n f).acc = s.acc := rfl
@[simp] theorem updDet_accNext (s : State) (n : Nat) (f : DetWin → DetWin) : (updDet s n f).accNext = s.accNext := rfl
@[simp] theorem updDet_xlt (s : State) (n : Nat) (f : DetWin → DetWin) : (updDet s n f).xlt = s.xlt := rfl
@[simp] theorem updDet_tbl (s : State) (n : Nat) (f : DetWin → DetWin) : (updDet s n f).tbl = s.tbl := rfl
@[simp] theorem updDet_sch (s : State) (n : Nat) (f : DetWin → DetWin) : (updDet s n f).sch = s.sch := rfl
@[simp] theorem updDet_pwr (s : State) (n : Nat) (f : DetWin → DetWin) : (updDet s n f).pwr = s.pwr := rfl
@[simp] theorem updDet_mbx (s : State) (n : Nat) (f : DetWin → DetWin) : (updDet s n f).mbx = s.mbx := rfl
@[simp] theorem updDet_key (s : State) (n : Nat) (f : DetWin → DetWin) : (updDet s n f).key = s.key := rfl
@[simp] theorem updDet_tap (s : State) (n : Nat) (f : DetWin → DetWin) : (updDet s n f).tap = s.tap := rfl
@[simp] theorem updDet_trl (s : State) (n : Nat) (f : DetWin → DetWin) : (updDet s n f).trl = s.trl := rfl
@[simp] theorem updDet_ls (s : State) (n : Nat) (f : DetWin → DetWin) : (updDet s n f).ls = s.ls := rfl
@[simp] theorem updDet_bar (s : State) (n : Nat) (f : DetWin → DetWin) : (updDet s n f).bar = s.bar := rfl
@[simp] theorem updDet_qwin (s : State) (n : Nat) (f : DetWin → DetWin) : (updDet s n f).qwin = s.qwin := rfl
@[simp] theorem updDet_xwin (s : State) (n : Nat) (f : DetWin → DetWin) : (updDet s n f).xwin = s.xwin := rfl
@[simp] theorem updDet_gwin (s : State) (n : Nat) (f : DetWin → DetWin) : (updDet s n f).gwin = s.gwin := rfl
@[simp] theorem updDet_twin (s : State) (n : Nat) (f : DetWin → DetWin) : (updDet s n f).twin = s.twin := rfl
@[simp] theorem updDet_swin (s : State) (n : Nat) (f : DetWin → DetWin) : (updDet s n f).swin = s.swin := rfl
@[simp] theorem updDet_pwin (s : State) (n : Nat) (f : DetWin → DetWin) : (updDet s n f).pwin = s.pwin := rfl
@[simp] theorem updDet_cc (s : State) (n : Nat) (f : DetWin → DetWin) : (updDet s n f).cc = s.cc := rfl
@[simp] theorem updDet_out (s : State) (n : Nat) (f : DetWin → DetWin) : (updDet s n f).out = s.out := rfl
@[simp] theorem updDet_pending (s : State) (n : Nat) (f : DetWin → DetWin) : (updDet s n f).pending = s.pending := rfl

@[simp] theorem updErr_clk (s : State) (f : ErrUnit → ErrUnit) : (updErr s f).clk = s.clk := rfl
@[simp] theorem updErr_boot (s : State) (f : ErrUnit → ErrUnit) : (updErr s f).boot = s.boot := rfl
@[simp] theorem updErr_img (s : State) (f : ErrUnit → ErrUnit) : (updErr s f).img = s.img := rfl
@[simp] theorem updErr_glob (s : State) (f : ErrUnit → ErrUnit) : (updErr s f).glob = s.glob := rfl
@[simp] theorem updErr_clr (s : State) (f : ErrUnit → ErrUnit) : (updErr s f).clr = s.clr := rfl
@[simp] theorem updErr_win (s : State) (f : ErrUnit → ErrUnit) : (updErr s f).win = s.win := rfl
@[simp] theorem updErr_ctx (s : State) (f : ErrUnit → ErrUnit) : (updErr s f).ctx = s.ctx := rfl
@[simp] theorem updErr_cal (s : State) (f : ErrUnit → ErrUnit) : (updErr s f).cal = s.cal := rfl
@[simp] theorem updErr_rings (s : State) (f : ErrUnit → ErrUnit) : (updErr s f).rings = s.rings := rfl
@[simp] theorem updErr_que (s : State) (f : ErrUnit → ErrUnit) : (updErr s f).que = s.que := rfl
@[simp] theorem updErr_queues (s : State) (f : ErrUnit → ErrUnit) : (updErr s f).queues = s.queues := rfl
@[simp] theorem updErr_tasks (s : State) (f : ErrUnit → ErrUnit) : (updErr s f).tasks = s.tasks := rfl
@[simp] theorem updErr_acc (s : State) (f : ErrUnit → ErrUnit) : (updErr s f).acc = s.acc := rfl
@[simp] theorem updErr_accNext (s : State) (f : ErrUnit → ErrUnit) : (updErr s f).accNext = s.accNext := rfl
@[simp] theorem updErr_xlt (s : State) (f : ErrUnit → ErrUnit) : (updErr s f).xlt = s.xlt := rfl
@[simp] theorem updErr_tbl (s : State) (f : ErrUnit → ErrUnit) : (updErr s f).tbl = s.tbl := rfl
@[simp] theorem updErr_sch (s : State) (f : ErrUnit → ErrUnit) : (updErr s f).sch = s.sch := rfl
@[simp] theorem updErr_pwr (s : State) (f : ErrUnit → ErrUnit) : (updErr s f).pwr = s.pwr := rfl
@[simp] theorem updErr_mbx (s : State) (f : ErrUnit → ErrUnit) : (updErr s f).mbx = s.mbx := rfl
@[simp] theorem updErr_key (s : State) (f : ErrUnit → ErrUnit) : (updErr s f).key = s.key := rfl
@[simp] theorem updErr_tap (s : State) (f : ErrUnit → ErrUnit) : (updErr s f).tap = s.tap := rfl
@[simp] theorem updErr_trl (s : State) (f : ErrUnit → ErrUnit) : (updErr s f).trl = s.trl := rfl
@[simp] theorem updErr_ls (s : State) (f : ErrUnit → ErrUnit) : (updErr s f).ls = s.ls := rfl
@[simp] theorem updErr_bar (s : State) (f : ErrUnit → ErrUnit) : (updErr s f).bar = s.bar := rfl
@[simp] theorem updErr_det (s : State) (f : ErrUnit → ErrUnit) : (updErr s f).det = s.det := rfl
@[simp] theorem updErr_qwin (s : State) (f : ErrUnit → ErrUnit) : (updErr s f).qwin = s.qwin := rfl
@[simp] theorem updErr_xwin (s : State) (f : ErrUnit → ErrUnit) : (updErr s f).xwin = s.xwin := rfl
@[simp] theorem updErr_gwin (s : State) (f : ErrUnit → ErrUnit) : (updErr s f).gwin = s.gwin := rfl
@[simp] theorem updErr_twin (s : State) (f : ErrUnit → ErrUnit) : (updErr s f).twin = s.twin := rfl
@[simp] theorem updErr_swin (s : State) (f : ErrUnit → ErrUnit) : (updErr s f).swin = s.swin := rfl
@[simp] theorem updErr_pwin (s : State) (f : ErrUnit → ErrUnit) : (updErr s f).pwin = s.pwin := rfl
@[simp] theorem updErr_cc (s : State) (f : ErrUnit → ErrUnit) : (updErr s f).cc = s.cc := rfl
@[simp] theorem updErr_out (s : State) (f : ErrUnit → ErrUnit) : (updErr s f).out = s.out := rfl
@[simp] theorem updErr_pending (s : State) (f : ErrUnit → ErrUnit) : (updErr s f).pending = s.pending := rfl

@[simp] theorem updTap_clk (s : State) (f : Tap → Tap) : (updTap s f).clk = s.clk := rfl
@[simp] theorem updTap_boot (s : State) (f : Tap → Tap) : (updTap s f).boot = s.boot := rfl
@[simp] theorem updTap_img (s : State) (f : Tap → Tap) : (updTap s f).img = s.img := rfl
@[simp] theorem updTap_glob (s : State) (f : Tap → Tap) : (updTap s f).glob = s.glob := rfl
@[simp] theorem updTap_clr (s : State) (f : Tap → Tap) : (updTap s f).clr = s.clr := rfl
@[simp] theorem updTap_win (s : State) (f : Tap → Tap) : (updTap s f).win = s.win := rfl
@[simp] theorem updTap_ctx (s : State) (f : Tap → Tap) : (updTap s f).ctx = s.ctx := rfl
@[simp] theorem updTap_cal (s : State) (f : Tap → Tap) : (updTap s f).cal = s.cal := rfl
@[simp] theorem updTap_err (s : State) (f : Tap → Tap) : (updTap s f).err = s.err := rfl
@[simp] theorem updTap_rings (s : State) (f : Tap → Tap) : (updTap s f).rings = s.rings := rfl
@[simp] theorem updTap_que (s : State) (f : Tap → Tap) : (updTap s f).que = s.que := rfl
@[simp] theorem updTap_queues (s : State) (f : Tap → Tap) : (updTap s f).queues = s.queues := rfl
@[simp] theorem updTap_tasks (s : State) (f : Tap → Tap) : (updTap s f).tasks = s.tasks := rfl
@[simp] theorem updTap_acc (s : State) (f : Tap → Tap) : (updTap s f).acc = s.acc := rfl
@[simp] theorem updTap_accNext (s : State) (f : Tap → Tap) : (updTap s f).accNext = s.accNext := rfl
@[simp] theorem updTap_xlt (s : State) (f : Tap → Tap) : (updTap s f).xlt = s.xlt := rfl
@[simp] theorem updTap_tbl (s : State) (f : Tap → Tap) : (updTap s f).tbl = s.tbl := rfl
@[simp] theorem updTap_sch (s : State) (f : Tap → Tap) : (updTap s f).sch = s.sch := rfl
@[simp] theorem updTap_pwr (s : State) (f : Tap → Tap) : (updTap s f).pwr = s.pwr := rfl
@[simp] theorem updTap_mbx (s : State) (f : Tap → Tap) : (updTap s f).mbx = s.mbx := rfl
@[simp] theorem updTap_key (s : State) (f : Tap → Tap) : (updTap s f).key = s.key := rfl
@[simp] theorem updTap_trl (s : State) (f : Tap → Tap) : (updTap s f).trl = s.trl := rfl
@[simp] theorem updTap_ls (s : State) (f : Tap → Tap) : (updTap s f).ls = s.ls := rfl
@[simp] theorem updTap_bar (s : State) (f : Tap → Tap) : (updTap s f).bar = s.bar := rfl
@[simp] theorem updTap_det (s : State) (f : Tap → Tap) : (updTap s f).det = s.det := rfl
@[simp] theorem updTap_qwin (s : State) (f : Tap → Tap) : (updTap s f).qwin = s.qwin := rfl
@[simp] theorem updTap_xwin (s : State) (f : Tap → Tap) : (updTap s f).xwin = s.xwin := rfl
@[simp] theorem updTap_gwin (s : State) (f : Tap → Tap) : (updTap s f).gwin = s.gwin := rfl
@[simp] theorem updTap_twin (s : State) (f : Tap → Tap) : (updTap s f).twin = s.twin := rfl
@[simp] theorem updTap_swin (s : State) (f : Tap → Tap) : (updTap s f).swin = s.swin := rfl
@[simp] theorem updTap_pwin (s : State) (f : Tap → Tap) : (updTap s f).pwin = s.pwin := rfl
@[simp] theorem updTap_cc (s : State) (f : Tap → Tap) : (updTap s f).cc = s.cc := rfl
@[simp] theorem updTap_out (s : State) (f : Tap → Tap) : (updTap s f).out = s.out := rfl
@[simp] theorem updTap_pending (s : State) (f : Tap → Tap) : (updTap s f).pending = s.pending := rfl

@[simp] theorem updCc_clk (s : State) (f : CclkView → CclkView) : (updCc s f).clk = s.clk := rfl
@[simp] theorem updCc_boot (s : State) (f : CclkView → CclkView) : (updCc s f).boot = s.boot := rfl
@[simp] theorem updCc_img (s : State) (f : CclkView → CclkView) : (updCc s f).img = s.img := rfl
@[simp] theorem updCc_glob (s : State) (f : CclkView → CclkView) : (updCc s f).glob = s.glob := rfl
@[simp] theorem updCc_clr (s : State) (f : CclkView → CclkView) : (updCc s f).clr = s.clr := rfl
@[simp] theorem updCc_win (s : State) (f : CclkView → CclkView) : (updCc s f).win = s.win := rfl
@[simp] theorem updCc_ctx (s : State) (f : CclkView → CclkView) : (updCc s f).ctx = s.ctx := rfl
@[simp] theorem updCc_cal (s : State) (f : CclkView → CclkView) : (updCc s f).cal = s.cal := rfl
@[simp] theorem updCc_err (s : State) (f : CclkView → CclkView) : (updCc s f).err = s.err := rfl
@[simp] theorem updCc_rings (s : State) (f : CclkView → CclkView) : (updCc s f).rings = s.rings := rfl
@[simp] theorem updCc_que (s : State) (f : CclkView → CclkView) : (updCc s f).que = s.que := rfl
@[simp] theorem updCc_queues (s : State) (f : CclkView → CclkView) : (updCc s f).queues = s.queues := rfl
@[simp] theorem updCc_tasks (s : State) (f : CclkView → CclkView) : (updCc s f).tasks = s.tasks := rfl
@[simp] theorem updCc_acc (s : State) (f : CclkView → CclkView) : (updCc s f).acc = s.acc := rfl
@[simp] theorem updCc_accNext (s : State) (f : CclkView → CclkView) : (updCc s f).accNext = s.accNext := rfl
@[simp] theorem updCc_xlt (s : State) (f : CclkView → CclkView) : (updCc s f).xlt = s.xlt := rfl
@[simp] theorem updCc_tbl (s : State) (f : CclkView → CclkView) : (updCc s f).tbl = s.tbl := rfl
@[simp] theorem updCc_sch (s : State) (f : CclkView → CclkView) : (updCc s f).sch = s.sch := rfl
@[simp] theorem updCc_pwr (s : State) (f : CclkView → CclkView) : (updCc s f).pwr = s.pwr := rfl
@[simp] theorem updCc_mbx (s : State) (f : CclkView → CclkView) : (updCc s f).mbx = s.mbx := rfl
@[simp] theorem updCc_key (s : State) (f : CclkView → CclkView) : (updCc s f).key = s.key := rfl
@[simp] theorem updCc_tap (s : State) (f : CclkView → CclkView) : (updCc s f).tap = s.tap := rfl
@[simp] theorem updCc_trl (s : State) (f : CclkView → CclkView) : (updCc s f).trl = s.trl := rfl
@[simp] theorem updCc_ls (s : State) (f : CclkView → CclkView) : (updCc s f).ls = s.ls := rfl
@[simp] theorem updCc_bar (s : State) (f : CclkView → CclkView) : (updCc s f).bar = s.bar := rfl
@[simp] theorem updCc_det (s : State) (f : CclkView → CclkView) : (updCc s f).det = s.det := rfl
@[simp] theorem updCc_qwin (s : State) (f : CclkView → CclkView) : (updCc s f).qwin = s.qwin := rfl
@[simp] theorem updCc_xwin (s : State) (f : CclkView → CclkView) : (updCc s f).xwin = s.xwin := rfl
@[simp] theorem updCc_gwin (s : State) (f : CclkView → CclkView) : (updCc s f).gwin = s.gwin := rfl
@[simp] theorem updCc_twin (s : State) (f : CclkView → CclkView) : (updCc s f).twin = s.twin := rfl
@[simp] theorem updCc_swin (s : State) (f : CclkView → CclkView) : (updCc s f).swin = s.swin := rfl
@[simp] theorem updCc_pwin (s : State) (f : CclkView → CclkView) : (updCc s f).pwin = s.pwin := rfl
@[simp] theorem updCc_out (s : State) (f : CclkView → CclkView) : (updCc s f).out = s.out := rfl
@[simp] theorem updCc_pending (s : State) (f : CclkView → CclkView) : (updCc s f).pending = s.pending := rfl

@[simp] theorem openCclk_clk (s : State) : (openCclk s).clk = s.clk := rfl
@[simp] theorem openCclk_boot (s : State) : (openCclk s).boot = s.boot := rfl
@[simp] theorem openCclk_img (s : State) : (openCclk s).img = s.img := rfl
@[simp] theorem openCclk_glob (s : State) : (openCclk s).glob = s.glob := rfl
@[simp] theorem openCclk_clr (s : State) : (openCclk s).clr = s.clr := rfl
@[simp] theorem openCclk_win (s : State) : (openCclk s).win = s.win := rfl
@[simp] theorem openCclk_ctx (s : State) : (openCclk s).ctx = s.ctx := rfl
@[simp] theorem openCclk_cal (s : State) : (openCclk s).cal = s.cal := rfl
@[simp] theorem openCclk_err (s : State) : (openCclk s).err = s.err := rfl
@[simp] theorem openCclk_rings (s : State) : (openCclk s).rings = s.rings := rfl
@[simp] theorem openCclk_que (s : State) : (openCclk s).que = s.que := rfl
@[simp] theorem openCclk_queues (s : State) : (openCclk s).queues = s.queues := rfl
@[simp] theorem openCclk_tasks (s : State) : (openCclk s).tasks = s.tasks := rfl
@[simp] theorem openCclk_acc (s : State) : (openCclk s).acc = s.acc := rfl
@[simp] theorem openCclk_accNext (s : State) : (openCclk s).accNext = s.accNext := rfl
@[simp] theorem openCclk_xlt (s : State) : (openCclk s).xlt = s.xlt := rfl
@[simp] theorem openCclk_tbl (s : State) : (openCclk s).tbl = s.tbl := rfl
@[simp] theorem openCclk_sch (s : State) : (openCclk s).sch = s.sch := rfl
@[simp] theorem openCclk_pwr (s : State) : (openCclk s).pwr = s.pwr := rfl
@[simp] theorem openCclk_mbx (s : State) : (openCclk s).mbx = s.mbx := rfl
@[simp] theorem openCclk_key (s : State) : (openCclk s).key = s.key := rfl
@[simp] theorem openCclk_tap (s : State) : (openCclk s).tap = s.tap := rfl
@[simp] theorem openCclk_trl (s : State) : (openCclk s).trl = s.trl := rfl
@[simp] theorem openCclk_ls (s : State) : (openCclk s).ls = s.ls := rfl
@[simp] theorem openCclk_bar (s : State) : (openCclk s).bar = s.bar := rfl
@[simp] theorem openCclk_det (s : State) : (openCclk s).det = s.det := rfl
@[simp] theorem openCclk_qwin (s : State) : (openCclk s).qwin = s.qwin := rfl
@[simp] theorem openCclk_xwin (s : State) : (openCclk s).xwin = s.xwin := rfl
@[simp] theorem openCclk_gwin (s : State) : (openCclk s).gwin = s.gwin := rfl
@[simp] theorem openCclk_twin (s : State) : (openCclk s).twin = s.twin := rfl
@[simp] theorem openCclk_swin (s : State) : (openCclk s).swin = s.swin := rfl
@[simp] theorem openCclk_pwin (s : State) : (openCclk s).pwin = s.pwin := rfl
@[simp] theorem openCclk_out (s : State) : (openCclk s).out = s.out := rfl
@[simp] theorem openCclk_pending (s : State) : (openCclk s).pending = s.pending := rfl

end Sys2Proof.Machine
end

