-- ==== Sys2Proof/Laws/Tables.lean ====
section
/-! SUPPORT. The laws of the sparse tables: a read after a write, that a write keeps the canonical form, and what each
named update of a numbered thing leaves at every number. -/

namespace Sys2Proof.Machine

theorem tabGet_tabPut {α : Type} (d : α) (t : Tab α) (i j : Nat) (v : α) :
    tabGet d (tabPut t i v) j = if j = i then v else tabGet d t j := by
  induction t with
  | nil =>
    by_cases h : j = i
    · simp [tabPut, tabGet, h]
    · simp [tabPut, tabGet, h, Ne.symm h]
  | cons kv r ih =>
    obtain ⟨k, w⟩ := kv
    by_cases hlt : i < k
    · by_cases h : j = i
      · simp [tabPut, tabGet, hlt, h]
      · simp [tabPut, tabGet, hlt, h, Ne.symm h]
    · by_cases hk : i = k
      · subst hk
        by_cases h : j = i
        · simp [tabPut, tabGet, h]
        · simp [tabPut, tabGet, h, Ne.symm h]
      · by_cases h : j = i
        · subst h
          simp [tabPut, tabGet, hlt, hk, Ne.symm hk, ih]
        · simp [tabPut, tabGet, hlt, hk, ih, h]

theorem tabGet_erase {α : Type} (d : α) (t : Tab α) (i j : Nat) :
    tabGet d (t.filter fun kv => kv.1 != i) j = if j = i then d else tabGet d t j := by
  induction t with
  | nil => by_cases h : j = i <;> simp [tabGet, h]
  | cons kv r ih =>
    obtain ⟨k, w⟩ := kv
    by_cases hk : k = i
    · subst hk
      by_cases h : j = k
      · subst h
        simpa using ih
      · simp [ih, h, tabGet, Ne.symm h]
    · by_cases h : j = i
      · subst h
        simp [hk, tabGet, ih]
      · simp [hk, tabGet, ih, h]

/-- A read after a write of a table. -/
@[simp] theorem tabGet_tabSet {α : Type} [DecidableEq α] (d : α) (t : Tab α) (i j : Nat) (v : α) :
    tabGet d (tabSet d t i v) j = if j = i then v else tabGet d t j := by
  unfold tabSet
  by_cases h : v = d
  · simp [h, tabGet_erase]
  · simp [h, tabGet_tabPut]

/-- A read after a change of one entry. -/
@[simp] theorem tabGet_tabUpd {α : Type} [DecidableEq α] (d : α) (t : Tab α) (i j : Nat) (f : α → α) :
    tabGet d (tabUpd d t i f) j = if j = i then f (tabGet d t i) else tabGet d t j := by
  simp [tabUpd]

theorem tabWfFrom_mono {α : Type} [DecidableEq α] (d : α) {a b : Nat} (h : a ≤ b) :
    ∀ t : Tab α, tabWfFrom d b t = true → tabWfFrom d a t = true
  | [], _ => rfl
  | (k, v) :: r, hw => by
    simp only [tabWfFrom, Bool.and_eq_true, decide_eq_true_eq] at hw ⊢
    exact ⟨⟨le_trans h hw.1.1, hw.1.2⟩, hw.2⟩

theorem tabWfFrom_filter {α : Type} [DecidableEq α] (d : α) (p : Nat × α → Bool) :
    ∀ (t : Tab α) (a : Nat), tabWfFrom d a t = true → tabWfFrom d a (t.filter p) = true
  | [], _, _ => rfl
  | (k, v) :: r, a, hw => by
    simp only [tabWfFrom, Bool.and_eq_true, decide_eq_true_eq] at hw
    have hr := tabWfFrom_filter d p r (k + 1) hw.2
    by_cases hp : p (k, v) = true
    · simp only [List.filter_cons, hp, if_true, tabWfFrom, Bool.and_eq_true, decide_eq_true_eq]
      exact ⟨⟨hw.1.1, hw.1.2⟩, hr⟩
    · simp only [List.filter_cons, hp]
      exact tabWfFrom_mono d (Nat.le_succ_of_le hw.1.1) _ hr

theorem tabWfFrom_put {α : Type} [DecidableEq α] (d : α) (i : Nat) (v : α) (hv : v ≠ d) :
    ∀ (t : Tab α) (a : Nat), a ≤ i → tabWfFrom d a t = true → tabWfFrom d a (tabPut t i v) = true
  | [], a, ha, _ => by simp [tabPut, tabWfFrom, ha, hv]
  | (k, w) :: r, a, ha, hw => by
    simp only [tabWfFrom, Bool.and_eq_true, decide_eq_true_eq] at hw
    by_cases hlt : i < k
    · have h1 : i + 1 ≤ k := hlt
      simp only [tabPut, hlt, if_true, tabWfFrom, Bool.and_eq_true, decide_eq_true_eq]
      exact ⟨⟨ha, by simp [hv]⟩, ⟨h1, hw.1.2⟩, hw.2⟩
    · by_cases hk : i = k
      · subst hk
        simp only [tabPut, lt_irrefl, if_false, if_true, tabWfFrom, Bool.and_eq_true, decide_eq_true_eq]
        exact ⟨⟨ha, by simp [hv]⟩, hw.2⟩
      · have h1 : k + 1 ≤ i := by omega
        simp only [tabPut, hlt, hk, if_false, tabWfFrom, Bool.and_eq_true, decide_eq_true_eq]
        exact ⟨⟨hw.1.1, hw.1.2⟩, tabWfFrom_put d i v hv r (k + 1) h1 hw.2⟩

/-- A write keeps a table's canonical form. -/
theorem tabWf_tabSet {α : Type} [DecidableEq α] (d : α) (t : Tab α) (i : Nat) (v : α) (h : tabWf d t = true) :
    tabWf d (tabSet d t i v) = true := by
  unfold tabSet
  by_cases hv : v = d
  · simp only [hv, if_true]
    exact tabWfFrom_filter d _ t 0 h
  · simp only [hv, if_false]
    exact tabWfFrom_put d i v hv t 0 (Nat.zero_le i) h

/-- A change of one entry keeps a table's canonical form. -/
theorem tabWf_tabUpd {α : Type} [DecidableEq α] (d : α) (t : Tab α) (i : Nat) (f : α → α) (h : tabWf d t = true) :
    tabWf d (tabUpd d t i f) = true := tabWf_tabSet d t i _ h

/-- A read after a change of every entry. -/
@[simp] theorem tabGet_tabMap {α : Type} [DecidableEq α] (d : α) (f : α → α) (h : f d = d) (t : Tab α) (j : Nat) :
    tabGet d (tabMap d f t) j = f (tabGet d t j) := by
  induction t with
  | nil => simp [tabMap, tabGet, h]
  | cons kv r ih =>
    obtain ⟨k, v⟩ := kv
    have e : tabMap d f ((k, v) :: r) = tabSet d (tabMap d f r) k (f v) := rfl
    rw [e, tabGet_tabSet, ih]
    by_cases hk : k = j
    · simp [tabGet, hk]
    · simp [tabGet, hk, Ne.symm hk]

/-- A change of every entry gives a table in canonical form. -/
theorem tabWf_tabMap {α : Type} [DecidableEq α] (d : α) (f : α → α) (t : Tab α) : tabWf d (tabMap d f t) = true := by
  induction t with
  | nil => rfl
  | cons kv r ih => exact tabWf_tabSet d _ kv.1 (f kv.2) ih

/-! A read after each named update. -/

@[simp] theorem getClr_setClr (s : State) (n m : Nat) (c : Clearing) : getClr (setClr s n c) m = if m = n then c else getClr s m := by
  simp [getClr, setClr]

@[simp] theorem getClr_updClr (s : State) (n m : Nat) (f : Clearing → Clearing) :
    getClr (updClr s n f) m = if m = n then f (getClr s n) else getClr s m := by simp [updClr]

@[simp] theorem getWin_updWin (s : State) (i j : Nat) (f : Window → Window) :
    getWin (updWin s i f) j = if j = i then f (getWin s i) else getWin s j := by simp [getWin, updWin]

@[simp] theorem getCtx_updCtx (s : State) (i j : Nat) (f : Ctx → Ctx) :
    getCtx (updCtx s i f) j = if j = i then f (getCtx s i) else getCtx s j := by simp [getCtx, updCtx]

@[simp] theorem getPch_updPch (s : State) (i j : Nat) (f : Pch → Pch) :
    getPch (updPch s i f) j = if j = i then f (getPch s i) else getPch s j := by simp [getPch, updPch]

@[simp] theorem getRing_updRing (s : State) (i j : Nat) (f : ErrRing → ErrRing) :
    getRing (updRing s i f) j = if j = i then f (getRing s i) else getRing s j := by simp [getRing, updRing]

@[simp] theorem getQueue_updQueue (s : State) (i j : Nat) (f : Queue → Queue) :
    getQueue (updQueue s i f) j = if j = i then f (getQueue s i) else getQueue s j := by simp [getQueue, updQueue]

@[simp] theorem getDesc_updDesc (s : State) (i j : Nat) (f : Tbl → Tbl) :
    getDesc (updDesc s i f) j = if j = i then f (getDesc s i) else getDesc s j := by simp [getDesc, updDesc, updTbl]

@[simp] theorem getEngine_updEngine (s : State) (i j : Nat) (f : Engine → Engine) :
    getEngine (updEngine s i f) j = if j = i then f (getEngine s i) else getEngine s j := by simp [getEngine, updEngine, updTbl]

@[simp] theorem getCore_updCore (s : State) (i j : Nat) (f : Core → Core) :
    getCore (updCore s i f) j = if j = i then f (getCore s i) else getCore s j := by simp [getCore, updCore, updSch]

@[simp] theorem getQwin_updQwin (s : State) (i j : Nat) (f : QueWin → QueWin) :
    getQwin (updQwin s i f) j = if j = i then f (getQwin s i) else getQwin s j := by simp [getQwin, updQwin]

@[simp] theorem getXwin_updXwin (s : State) (i j : Nat) (f : XltWin → XltWin) :
    getXwin (updXwin s i f) j = if j = i then f (getXwin s i) else getXwin s j := by simp [getXwin, updXwin]

@[simp] theorem getGwin_updGwin (s : State) (i j : Nat) (f : GpeWin → GpeWin) :
    getGwin (updGwin s i f) j = if j = i then f (getGwin s i) else getGwin s j := by simp [getGwin, updGwin]

@[simp] theorem getTwin_updTwin (s : State) (i j : Nat) (f : TblWin → TblWin) :
    getTwin (updTwin s i f) j = if j = i then f (getTwin s i) else getTwin s j := by simp [getTwin, updTwin]

@[simp] theorem getSwin_updSwin (s : State) (i j : Nat) (f : SchWin → SchWin) :
    getSwin (updSwin s i f) j = if j = i then f (getSwin s i) else getSwin s j := by simp [getSwin, updSwin]

@[simp] theorem getDom_updDom (s : State) (i j : Nat) (f : Domain → Domain) :
    getDom (updDom s i f) j = if j = i then f (getDom s i) else getDom s j := by simp [getDom, updDom, updPwr]

@[simp] theorem getPwin_updPwin (s : State) (i j : Nat) (f : PwrWin → PwrWin) :
    getPwin (updPwin s i f) j = if j = i then f (getPwin s i) else getPwin s j := by simp [getPwin, updPwin]

@[simp] theorem getMbx_updMbx (s : State) (i j : Nat) (f : Mailbox → Mailbox) :
    getMbx (updMbx s i f) j = if j = i then f (getMbx s i) else getMbx s j := by simp [getMbx, updMbx]

@[simp] theorem getSlot_updSlot (s : State) (i j : Nat) (f : KeySlot → KeySlot) :
    getSlot (updSlot s i f) j = if j = i then f (getSlot s i) else getSlot s j := by simp [getSlot, updSlot, updKey]

@[simp] theorem getXch_updXch (s : State) (i j : Nat) (f : Exchange → Exchange) :
    getXch (updXch s i f) j = if j = i then f (getXch s i) else getXch s j := by simp [getXch, updXch, updKey]

@[simp] theorem getLs_updLs (s : State) (i j : Nat) (f : Lockstep → Lockstep) :
    getLs (updLs s i f) j = if j = i then f (getLs s i) else getLs s j := by simp [getLs, updLs]

@[simp] theorem getBar_updBar (s : State) (i j : Nat) (f : Barrier → Barrier) :
    getBar (updBar s i f) j = if j = i then f (getBar s i) else getBar s j := by simp [getBar, updBar]

@[simp] theorem getRot_updRot (s : State) (i j : Nat) (f : RotPort → RotPort) :
    getRot (updRot s i f) j = if j = i then f (getRot s i) else getRot s j := by simp [getRot, updRot, updKey]

@[simp] theorem getLane_updLane (s : State) (i j : Nat) (f : TrlLane → TrlLane) :
    getLane (updLane s i f) j = if j = i then f (getLane s i) else getLane s j := by simp [getLane, updLane, updTrl]

@[simp] theorem getTask_updTask (s : State) (i j : Nat) (f : Task → Task) :
    getTask (updTask s i f) j = if j = i then (getTask s i).map f else getTask s j := by simp [getTask, updTask]

@[simp] theorem getAcc_updAcc (s : State) (i j : Nat) (f : Acc → Acc) :
    getAcc (updAcc s i f) j = if j = i then (getAcc s i).map f else getAcc s j := by simp [getAcc, updAcc]

@[simp] theorem getJob_updJob (s : State) (i j : Nat) (f : Job → Job) :
    getJob (updJob s i f) j = if j = i then (getJob s i).map f else getJob s j := by simp [getJob, updJob, updSch]

@[simp] theorem emit_out (s : State) (o : Output) : (emit s o).out = o :: s.out := rfl

end Sys2Proof.Machine
end

