-- ==== Sys2Proof/Laws/Commands.lean ====
section
/-! SUPPORT. What the shared forms of commands do: checks in their order, a command of the global space, of a window and
of a mailbox, and the recording of a status. -/

namespace Sys2Proof.Machine

@[simp] theorem firstBad_nil {α : Type} : firstBad ([] : List (Bool × α)) = none := rfl

/-- The checks of a command are taken in their order. -/
@[simp] theorem firstBad_cons {α : Type} (b : Bool) (a : α) (r : List (Bool × α)) :
    firstBad ((b, a) :: r) = if b = true then firstBad r else some a := by
  cases b <;> rfl

/-- A command whose checks all pass has its effect. -/
theorem checked_ok {cs : List (Bool × Code)} {s : State} {effect : Unit → State} (h : firstBad cs = none) :
    checked cs s effect = (qsOk, effect ()) := by
  simp [checked, h]

/-- A command with a check that fails has none, and answers that check's code. -/
theorem checked_bad {cs : List (Bool × Code)} {s : State} {effect : Unit → State} {c : Code} (h : firstBad cs = some c) :
    checked cs s effect = (c, s) := by
  simp [checked, h]

/-- A privileged command of the global space on a running device. -/
theorem globalCmd_run {s : State} {q : Requester} (h : reachesGlobal s q) (body : State → Checked) :
    globalCmd q s body = recordStatus (body s).2 none q (body s).1 := by
  simp [globalCmd, portClosed, running, h.1, h.2]

/-- A command of window `n` on a running device, by a requester that reaches it. -/
theorem windowCmd_run {s : State} {q : Requester} {n : Nat} (h : reachesOwn s q n) (body : State → Checked) :
    windowCmd q n s body = recordStatus (body s).2 (some n) q (body s).1 := by
  simp [windowCmd, portClosed, running, h.1, h.2]

/-- A command of a mailbox, on a running device or in Bare. -/
theorem mbxCmd_run {s : State} {q : Requester} (h : s.boot.phase = .running ∨ s.boot.phase = .bare) (body : State → Checked) :
    mbxCmd q s body = recordStatus (body s).2 (tenantOf q) q (body s).1 := by
  rcases h with h | h <;> simp [mbxCmd, portClosed, running, homeWindow, h]

/-- A command of the global space by a requester that does not reach it. -/
theorem globalCmd_foreign {s : State} {q : Requester} (h1 : s.boot.phase ≠ .reset) (h2 : s.boot.phase ≠ .rom)
    (h : privileged s q = false) (body : State → Checked) :
    globalCmd q s body = recordStatus s (tenantOf q) q qsNotOwner := by
  simp [globalCmd, portClosed, homeWindow, h1, h2, h]

/-- A command of window `n` by a requester that does not reach it. -/
theorem windowCmd_foreign {s : State} {q : Requester} {n : Nat} (h1 : s.boot.phase ≠ .reset) (h2 : s.boot.phase ≠ .rom)
    (h : reachesWindow s q n = false) (body : State → Checked) :
    windowCmd q n s body = recordStatus s (tenantOf q) q qsNotOwner := by
  simp [windowCmd, portClosed, homeWindow, h1, h2, h]

/-- A status recorded in a window changes that window alone. -/
theorem recordStatus_window (s : State) (n : Nat) (q : Requester) (c : Code) :
    recordStatus s (some n) q c = updWin s n fun w =>
      { w with code := c, refused := w.refused + if c = qsOk then 0 else 1 } := rfl

/-- A status recorded in the global space changes the global status alone. -/
theorem recordStatus_global (s : State) (q : Requester) (c : Code) :
    recordStatus s none q c = { s with glob := { s.glob with
      code := c, refused := s.glob.refused + if c = qsOk then 0 else 1, requester := q.toNat } } := rfl

@[simp] theorem getWin_recordStatus (s : State) (n : Nat) (q : Requester) (c : Code) :
    (getWin (recordStatus s (some n) q c) n).code = c := by
  simp [recordStatus_window]

@[simp] theorem glob_recordStatus (s : State) (q : Requester) (c : Code) : (recordStatus s none q c).glob.code = c := rfl

/-- Wherever a status is recorded, only the global status and the windows change. -/
theorem recordStatus_frame_eq (s : State) (win : Option Nat) (q : Requester) (c : Code) :
    recordStatus s win q c = { s with
      glob := (recordStatus s win q c).glob, win := (recordStatus s win q c).win } := by
  cases win <;> rfl

@[simp] theorem recordStatus_clk (s : State) (win : Option Nat) (q : Requester) (c : Code) :
    (recordStatus s win q c).clk = s.clk := by cases win <;> rfl

@[simp] theorem recordStatus_boot (s : State) (win : Option Nat) (q : Requester) (c : Code) :
    (recordStatus s win q c).boot = s.boot := by cases win <;> rfl

@[simp] theorem recordStatus_img (s : State) (win : Option Nat) (q : Requester) (c : Code) :
    (recordStatus s win q c).img = s.img := by cases win <;> rfl

@[simp] theorem recordStatus_clr (s : State) (win : Option Nat) (q : Requester) (c : Code) :
    (recordStatus s win q c).clr = s.clr := by cases win <;> rfl

@[simp] theorem recordStatus_ctx (s : State) (win : Option Nat) (q : Requester) (c : Code) :
    (recordStatus s win q c).ctx = s.ctx := by cases win <;> rfl

@[simp] theorem recordStatus_cal (s : State) (win : Option Nat) (q : Requester) (c : Code) :
    (recordStatus s win q c).cal = s.cal := by cases win <;> rfl

@[simp] theorem recordStatus_err (s : State) (win : Option Nat) (q : Requester) (c : Code) :
    (recordStatus s win q c).err = s.err := by cases win <;> rfl

@[simp] theorem recordStatus_rings (s : State) (win : Option Nat) (q : Requester) (c : Code) :
    (recordStatus s win q c).rings = s.rings := by cases win <;> rfl

@[simp] theorem recordStatus_que (s : State) (win : Option Nat) (q : Requester) (c : Code) :
    (recordStatus s win q c).que = s.que := by cases win <;> rfl

@[simp] theorem recordStatus_queues (s : State) (win : Option Nat) (q : Requester) (c : Code) :
    (recordStatus s win q c).queues = s.queues := by cases win <;> rfl

@[simp] theorem recordStatus_tasks (s : State) (win : Option Nat) (q : Requester) (c : Code) :
    (recordStatus s win q c).tasks = s.tasks := by cases win <;> rfl

@[simp] theorem recordStatus_acc (s : State) (win : Option Nat) (q : Requester) (c : Code) :
    (recordStatus s win q c).acc = s.acc := by cases win <;> rfl

@[simp] theorem recordStatus_accNext (s : State) (win : Option Nat) (q : Requester) (c : Code) :
    (recordStatus s win q c).accNext = s.accNext := by cases win <;> rfl

@[simp] theorem recordStatus_xlt (s : State) (win : Option Nat) (q : Requester) (c : Code) :
    (recordStatus s win q c).xlt = s.xlt := by cases win <;> rfl

@[simp] theorem recordStatus_tbl (s : State) (win : Option Nat) (q : Requester) (c : Code) :
    (recordStatus s win q c).tbl = s.tbl := by cases win <;> rfl

@[simp] theorem recordStatus_sch (s : State) (win : Option Nat) (q : Requester) (c : Code) :
    (recordStatus s win q c).sch = s.sch := by cases win <;> rfl

@[simp] theorem recordStatus_pwr (s : State) (win : Option Nat) (q : Requester) (c : Code) :
    (recordStatus s win q c).pwr = s.pwr := by cases win <;> rfl

@[simp] theorem recordStatus_mbx (s : State) (win : Option Nat) (q : Requester) (c : Code) :
    (recordStatus s win q c).mbx = s.mbx := by cases win <;> rfl

@[simp] theorem recordStatus_key (s : State) (win : Option Nat) (q : Requester) (c : Code) :
    (recordStatus s win q c).key = s.key := by cases win <;> rfl

@[simp] theorem recordStatus_tap (s : State) (win : Option Nat) (q : Requester) (c : Code) :
    (recordStatus s win q c).tap = s.tap := by cases win <;> rfl

@[simp] theorem recordStatus_trl (s : State) (win : Option Nat) (q : Requester) (c : Code) :
    (recordStatus s win q c).trl = s.trl := by cases win <;> rfl

@[simp] theorem recordStatus_ls (s : State) (win : Option Nat) (q : Requester) (c : Code) :
    (recordStatus s win q c).ls = s.ls := by cases win <;> rfl

@[simp] theorem recordStatus_bar (s : State) (win : Option Nat) (q : Requester) (c : Code) :
    (recordStatus s win q c).bar = s.bar := by cases win <;> rfl

@[simp] theorem recordStatus_det (s : State) (win : Option Nat) (q : Requester) (c : Code) :
    (recordStatus s win q c).det = s.det := by cases win <;> rfl

@[simp] theorem recordStatus_qwin (s : State) (win : Option Nat) (q : Requester) (c : Code) :
    (recordStatus s win q c).qwin = s.qwin := by cases win <;> rfl

@[simp] theorem recordStatus_xwin (s : State) (win : Option Nat) (q : Requester) (c : Code) :
    (recordStatus s win q c).xwin = s.xwin := by cases win <;> rfl

@[simp] theorem recordStatus_gwin (s : State) (win : Option Nat) (q : Requester) (c : Code) :
    (recordStatus s win q c).gwin = s.gwin := by cases win <;> rfl

@[simp] theorem recordStatus_twin (s : State) (win : Option Nat) (q : Requester) (c : Code) :
    (recordStatus s win q c).twin = s.twin := by cases win <;> rfl

@[simp] theorem recordStatus_swin (s : State) (win : Option Nat) (q : Requester) (c : Code) :
    (recordStatus s win q c).swin = s.swin := by cases win <;> rfl

@[simp] theorem recordStatus_pwin (s : State) (win : Option Nat) (q : Requester) (c : Code) :
    (recordStatus s win q c).pwin = s.pwin := by cases win <;> rfl

@[simp] theorem recordStatus_out (s : State) (win : Option Nat) (q : Requester) (c : Code) :
    (recordStatus s win q c).out = s.out := by cases win <;> rfl

@[simp] theorem recordStatus_pending (s : State) (win : Option Nat) (q : Requester) (c : Code) :
    (recordStatus s win q c).pending = s.pending := by cases win <;> rfl

@[simp] theorem getClr_recordStatus (s : State) (win : Option Nat) (q : Requester) (c : Code) (k : Nat) :
    getClr (recordStatus s win q c) k = getClr s k := by cases win <;> rfl

@[simp] theorem getCtx_recordStatus (s : State) (win : Option Nat) (q : Requester) (c : Code) (k : Nat) :
    getCtx (recordStatus s win q c) k = getCtx s k := by cases win <;> rfl

@[simp] theorem getPch_recordStatus (s : State) (win : Option Nat) (q : Requester) (c : Code) (k : Nat) :
    getPch (recordStatus s win q c) k = getPch s k := by cases win <;> rfl

@[simp] theorem getRing_recordStatus (s : State) (win : Option Nat) (q : Requester) (c : Code) (k : Nat) :
    getRing (recordStatus s win q c) k = getRing s k := by cases win <;> rfl

@[simp] theorem getQueue_recordStatus (s : State) (win : Option Nat) (q : Requester) (c : Code) (k : Nat) :
    getQueue (recordStatus s win q c) k = getQueue s k := by cases win <;> rfl

@[simp] theorem getTask_recordStatus (s : State) (win : Option Nat) (q : Requester) (c : Code) (k : Nat) :
    getTask (recordStatus s win q c) k = getTask s k := by cases win <;> rfl

@[simp] theorem getAcc_recordStatus (s : State) (win : Option Nat) (q : Requester) (c : Code) (k : Nat) :
    getAcc (recordStatus s win q c) k = getAcc s k := by cases win <;> rfl

@[simp] theorem getDesc_recordStatus (s : State) (win : Option Nat) (q : Requester) (c : Code) (k : Nat) :
    getDesc (recordStatus s win q c) k = getDesc s k := by cases win <;> rfl

@[simp] theorem getEngine_recordStatus (s : State) (win : Option Nat) (q : Requester) (c : Code) (k : Nat) :
    getEngine (recordStatus s win q c) k = getEngine s k := by cases win <;> rfl

@[simp] theorem getCore_recordStatus (s : State) (win : Option Nat) (q : Requester) (c : Code) (k : Nat) :
    getCore (recordStatus s win q c) k = getCore s k := by cases win <;> rfl

@[simp] theorem getJob_recordStatus (s : State) (win : Option Nat) (q : Requester) (c : Code) (k : Nat) :
    getJob (recordStatus s win q c) k = getJob s k := by cases win <;> rfl

@[simp] theorem getDom_recordStatus (s : State) (win : Option Nat) (q : Requester) (c : Code) (k : Nat) :
    getDom (recordStatus s win q c) k = getDom s k := by cases win <;> rfl

@[simp] theorem getMbx_recordStatus (s : State) (win : Option Nat) (q : Requester) (c : Code) (k : Nat) :
    getMbx (recordStatus s win q c) k = getMbx s k := by cases win <;> rfl

@[simp] theorem getSlot_recordStatus (s : State) (win : Option Nat) (q : Requester) (c : Code) (k : Nat) :
    getSlot (recordStatus s win q c) k = getSlot s k := by cases win <;> rfl

@[simp] theorem getXch_recordStatus (s : State) (win : Option Nat) (q : Requester) (c : Code) (k : Nat) :
    getXch (recordStatus s win q c) k = getXch s k := by cases win <;> rfl

@[simp] theorem getLs_recordStatus (s : State) (win : Option Nat) (q : Requester) (c : Code) (k : Nat) :
    getLs (recordStatus s win q c) k = getLs s k := by cases win <;> rfl

@[simp] theorem getBar_recordStatus (s : State) (win : Option Nat) (q : Requester) (c : Code) (k : Nat) :
    getBar (recordStatus s win q c) k = getBar s k := by cases win <;> rfl

@[simp] theorem getQwin_recordStatus (s : State) (win : Option Nat) (q : Requester) (c : Code) (k : Nat) :
    getQwin (recordStatus s win q c) k = getQwin s k := by cases win <;> rfl

@[simp] theorem getXwin_recordStatus (s : State) (win : Option Nat) (q : Requester) (c : Code) (k : Nat) :
    getXwin (recordStatus s win q c) k = getXwin s k := by cases win <;> rfl

@[simp] theorem getGwin_recordStatus (s : State) (win : Option Nat) (q : Requester) (c : Code) (k : Nat) :
    getGwin (recordStatus s win q c) k = getGwin s k := by cases win <;> rfl

@[simp] theorem getTwin_recordStatus (s : State) (win : Option Nat) (q : Requester) (c : Code) (k : Nat) :
    getTwin (recordStatus s win q c) k = getTwin s k := by cases win <;> rfl

@[simp] theorem getSwin_recordStatus (s : State) (win : Option Nat) (q : Requester) (c : Code) (k : Nat) :
    getSwin (recordStatus s win q c) k = getSwin s k := by cases win <;> rfl

@[simp] theorem getPwin_recordStatus (s : State) (win : Option Nat) (q : Requester) (c : Code) (k : Nat) :
    getPwin (recordStatus s win q c) k = getPwin s k := by cases win <;> rfl

end Sys2Proof.Machine
end

