-- ==== Sys2Proof/Laws/FrameBase.lean ====
section
/-! SUPPORT. Which fields of the state each operation leaves as they were: from the named updates to the forms of commands. A field set `K` that leaves out
what the operation changes is observed alike before and after. -/

namespace Sys2Proof.Machine

set_option Elab.async false
set_option linter.unusedTactic false
set_option linter.unreachableTactic false

/-- Which fields of the state an equation is about. -/
structure Keep where
  clk : Bool
  boot : Bool
  img : Bool
  glob : Bool
  clr : Bool
  win : Bool
  ctx : Bool
  cal : Bool
  err : Bool
  rings : Bool
  que : Bool
  queues : Bool
  tasks : Bool
  acc : Bool
  accNext : Bool
  xlt : Bool
  tbl : Bool
  sch : Bool
  pwr : Bool
  mbx : Bool
  key : Bool
  tap : Bool
  trl : Bool
  ls : Bool
  bar : Bool
  det : Bool
  qwin : Bool
  xwin : Bool
  gwin : Bool
  twin : Bool
  swin : Bool
  pwin : Bool
  cc : Bool
  out : Bool
  pending : Bool

/-- All of them. -/
def Keep.all : Keep := ⟨true, true, true, true, true, true, true, true, true, true, true, true, true, true, true, true, true,
  true, true, true, true, true, true, true, true, true, true, true, true, true, true, true, true, true, true⟩

/-- Those fields of a state; the others as at reset. -/
def obs (K : Keep) (s : State) : State :=
  { clk := bif K.clk then s.clk else State.reset.clk
    boot := bif K.boot then s.boot else State.reset.boot
    img := bif K.img then s.img else State.reset.img
    glob := bif K.glob then s.glob else State.reset.glob
    clr := bif K.clr then s.clr else State.reset.clr
    win := bif K.win then s.win else State.reset.win
    ctx := bif K.ctx then s.ctx else State.reset.ctx
    cal := bif K.cal then s.cal else State.reset.cal
    err := bif K.err then s.err else State.reset.err
    rings := bif K.rings then s.rings else State.reset.rings
    que := bif K.que then s.que else State.reset.que
    queues := bif K.queues then s.queues else State.reset.queues
    tasks := bif K.tasks then s.tasks else State.reset.tasks
    acc := bif K.acc then s.acc else State.reset.acc
    accNext := bif K.accNext then s.accNext else State.reset.accNext
    xlt := bif K.xlt then s.xlt else State.reset.xlt
    tbl := bif K.tbl then s.tbl else State.reset.tbl
    sch := bif K.sch then s.sch else State.reset.sch
    pwr := bif K.pwr then s.pwr else State.reset.pwr
    mbx := bif K.mbx then s.mbx else State.reset.mbx
    key := bif K.key then s.key else State.reset.key
    tap := bif K.tap then s.tap else State.reset.tap
    trl := bif K.trl then s.trl else State.reset.trl
    ls := bif K.ls then s.ls else State.reset.ls
    bar := bif K.bar then s.bar else State.reset.bar
    det := bif K.det then s.det else State.reset.det
    qwin := bif K.qwin then s.qwin else State.reset.qwin
    xwin := bif K.xwin then s.xwin else State.reset.xwin
    gwin := bif K.gwin then s.gwin else State.reset.gwin
    twin := bif K.twin then s.twin else State.reset.twin
    swin := bif K.swin then s.swin else State.reset.swin
    pwin := bif K.pwin then s.pwin else State.reset.pwin
    cc := bif K.cc then s.cc else State.reset.cc
    out := bif K.out then s.out else State.reset.out
    pending := bif K.pending then s.pending else State.reset.pending }

/-- `t` with those fields as in `s`. -/
def mergeKept (K : Keep) (s t : State) : State :=
  { clk := bif K.clk then s.clk else t.clk
    boot := bif K.boot then s.boot else t.boot
    img := bif K.img then s.img else t.img
    glob := bif K.glob then s.glob else t.glob
    clr := bif K.clr then s.clr else t.clr
    win := bif K.win then s.win else t.win
    ctx := bif K.ctx then s.ctx else t.ctx
    cal := bif K.cal then s.cal else t.cal
    err := bif K.err then s.err else t.err
    rings := bif K.rings then s.rings else t.rings
    que := bif K.que then s.que else t.que
    queues := bif K.queues then s.queues else t.queues
    tasks := bif K.tasks then s.tasks else t.tasks
    acc := bif K.acc then s.acc else t.acc
    accNext := bif K.accNext then s.accNext else t.accNext
    xlt := bif K.xlt then s.xlt else t.xlt
    tbl := bif K.tbl then s.tbl else t.tbl
    sch := bif K.sch then s.sch else t.sch
    pwr := bif K.pwr then s.pwr else t.pwr
    mbx := bif K.mbx then s.mbx else t.mbx
    key := bif K.key then s.key else t.key
    tap := bif K.tap then s.tap else t.tap
    trl := bif K.trl then s.trl else t.trl
    ls := bif K.ls then s.ls else t.ls
    bar := bif K.bar then s.bar else t.bar
    det := bif K.det then s.det else t.det
    qwin := bif K.qwin then s.qwin else t.qwin
    xwin := bif K.xwin then s.xwin else t.xwin
    gwin := bif K.gwin then s.gwin else t.gwin
    twin := bif K.twin then s.twin else t.twin
    swin := bif K.swin then s.swin else t.swin
    pwin := bif K.pwin then s.pwin else t.pwin
    cc := bif K.cc then s.cc else t.cc
    out := bif K.out then s.out else t.out
    pending := bif K.pending then s.pending else t.pending }

theorem of_bif {α : Type} {b : Bool} {x y d : α} (h : (bif b then x else d) = bif b then y else d) : x = bif b then y else x
    := by
  cases b
  · rfl
  · exact h

/-- States that agree on some fields: the one is the other with the rest changed. -/
theorem eq_mergeKept {K : Keep} {s t : State} (h : obs K t = obs K s) : t = mergeKept K s t := by
  unfold mergeKept
  rw [← of_bif (congrArg State.clk h : (bif K.clk then t.clk else _) = bif K.clk then s.clk else _),
    ← of_bif (congrArg State.boot h : (bif K.boot then t.boot else _) = bif K.boot then s.boot else _),
    ← of_bif (congrArg State.img h : (bif K.img then t.img else _) = bif K.img then s.img else _),
    ← of_bif (congrArg State.glob h : (bif K.glob then t.glob else _) = bif K.glob then s.glob else _),
    ← of_bif (congrArg State.clr h : (bif K.clr then t.clr else _) = bif K.clr then s.clr else _),
    ← of_bif (congrArg State.win h : (bif K.win then t.win else _) = bif K.win then s.win else _),
    ← of_bif (congrArg State.ctx h : (bif K.ctx then t.ctx else _) = bif K.ctx then s.ctx else _),
    ← of_bif (congrArg State.cal h : (bif K.cal then t.cal else _) = bif K.cal then s.cal else _),
    ← of_bif (congrArg State.err h : (bif K.err then t.err else _) = bif K.err then s.err else _),
    ← of_bif (congrArg State.rings h : (bif K.rings then t.rings else _) = bif K.rings then s.rings else _),
    ← of_bif (congrArg State.que h : (bif K.que then t.que else _) = bif K.que then s.que else _),
    ← of_bif (congrArg State.queues h : (bif K.queues then t.queues else _) = bif K.queues then s.queues else _),
    ← of_bif (congrArg State.tasks h : (bif K.tasks then t.tasks else _) = bif K.tasks then s.tasks else _),
    ← of_bif (congrArg State.acc h : (bif K.acc then t.acc else _) = bif K.acc then s.acc else _),
    ← of_bif (congrArg State.accNext h : (bif K.accNext then t.accNext else _) = bif K.accNext then s.accNext else _),
    ← of_bif (congrArg State.xlt h : (bif K.xlt then t.xlt else _) = bif K.xlt then s.xlt else _),
    ← of_bif (congrArg State.tbl h : (bif K.tbl then t.tbl else _) = bif K.tbl then s.tbl else _),
    ← of_bif (congrArg State.sch h : (bif K.sch then t.sch else _) = bif K.sch then s.sch else _),
    ← of_bif (congrArg State.pwr h : (bif K.pwr then t.pwr else _) = bif K.pwr then s.pwr else _),
    ← of_bif (congrArg State.mbx h : (bif K.mbx then t.mbx else _) = bif K.mbx then s.mbx else _),
    ← of_bif (congrArg State.key h : (bif K.key then t.key else _) = bif K.key then s.key else _),
    ← of_bif (congrArg State.tap h : (bif K.tap then t.tap else _) = bif K.tap then s.tap else _),
    ← of_bif (congrArg State.trl h : (bif K.trl then t.trl else _) = bif K.trl then s.trl else _),
    ← of_bif (congrArg State.ls h : (bif K.ls then t.ls else _) = bif K.ls then s.ls else _),
    ← of_bif (congrArg State.bar h : (bif K.bar then t.bar else _) = bif K.bar then s.bar else _),
    ← of_bif (congrArg State.det h : (bif K.det then t.det else _) = bif K.det then s.det else _),
    ← of_bif (congrArg State.qwin h : (bif K.qwin then t.qwin else _) = bif K.qwin then s.qwin else _),
    ← of_bif (congrArg State.xwin h : (bif K.xwin then t.xwin else _) = bif K.xwin then s.xwin else _),
    ← of_bif (congrArg State.gwin h : (bif K.gwin then t.gwin else _) = bif K.gwin then s.gwin else _),
    ← of_bif (congrArg State.twin h : (bif K.twin then t.twin else _) = bif K.twin then s.twin else _),
    ← of_bif (congrArg State.swin h : (bif K.swin then t.swin else _) = bif K.swin then s.swin else _),
    ← of_bif (congrArg State.pwin h : (bif K.pwin then t.pwin else _) = bif K.pwin then s.pwin else _),
    ← of_bif (congrArg State.cc h : (bif K.cc then t.cc else _) = bif K.cc then s.cc else _),
    ← of_bif (congrArg State.out h : (bif K.out then t.out else _) = bif K.out then s.out else _),
    ← of_bif (congrArg State.pending h : (bif K.pending then t.pending else _) = bif K.pending then s.pending else _)]

theorem obs_clk {K : Keep} {s t : State} (h : obs K t = obs K s) (hk : K.clk = true := by rfl) : t.clk = s.clk := by
  have := congrArg State.clk h
  simpa [obs, hk] using this

theorem obs_boot {K : Keep} {s t : State} (h : obs K t = obs K s) (hk : K.boot = true := by rfl) : t.boot = s.boot := by
  have := congrArg State.boot h
  simpa [obs, hk] using this

theorem obs_img {K : Keep} {s t : State} (h : obs K t = obs K s) (hk : K.img = true := by rfl) : t.img = s.img := by
  have := congrArg State.img h
  simpa [obs, hk] using this

theorem obs_glob {K : Keep} {s t : State} (h : obs K t = obs K s) (hk : K.glob = true := by rfl) : t.glob = s.glob := by
  have := congrArg State.glob h
  simpa [obs, hk] using this

theorem obs_clr {K : Keep} {s t : State} (h : obs K t = obs K s) (hk : K.clr = true := by rfl) : t.clr = s.clr := by
  have := congrArg State.clr h
  simpa [obs, hk] using this

theorem obs_win {K : Keep} {s t : State} (h : obs K t = obs K s) (hk : K.win = true := by rfl) : t.win = s.win := by
  have := congrArg State.win h
  simpa [obs, hk] using this

theorem obs_ctx {K : Keep} {s t : State} (h : obs K t = obs K s) (hk : K.ctx = true := by rfl) : t.ctx = s.ctx := by
  have := congrArg State.ctx h
  simpa [obs, hk] using this

theorem obs_cal {K : Keep} {s t : State} (h : obs K t = obs K s) (hk : K.cal = true := by rfl) : t.cal = s.cal := by
  have := congrArg State.cal h
  simpa [obs, hk] using this

theorem obs_err {K : Keep} {s t : State} (h : obs K t = obs K s) (hk : K.err = true := by rfl) : t.err = s.err := by
  have := congrArg State.err h
  simpa [obs, hk] using this

theorem obs_rings {K : Keep} {s t : State} (h : obs K t = obs K s) (hk : K.rings = true := by rfl) : t.rings = s.rings := by
  have := congrArg State.rings h
  simpa [obs, hk] using this

theorem obs_que {K : Keep} {s t : State} (h : obs K t = obs K s) (hk : K.que = true := by rfl) : t.que = s.que := by
  have := congrArg State.que h
  simpa [obs, hk] using this

theorem obs_queues {K : Keep} {s t : State} (h : obs K t = obs K s) (hk : K.queues = true := by rfl) : t.queues = s.queues :=
    by
  have := congrArg State.queues h
  simpa [obs, hk] using this

theorem obs_tasks {K : Keep} {s t : State} (h : obs K t = obs K s) (hk : K.tasks = true := by rfl) : t.tasks = s.tasks := by
  have := congrArg State.tasks h
  simpa [obs, hk] using this

theorem obs_acc {K : Keep} {s t : State} (h : obs K t = obs K s) (hk : K.acc = true := by rfl) : t.acc = s.acc := by
  have := congrArg State.acc h
  simpa [obs, hk] using this

theorem obs_accNext {K : Keep} {s t : State} (h : obs K t = obs K s) (hk : K.accNext = true := by rfl) : t.accNext = s.accNext
    := by
  have := congrArg State.accNext h
  simpa [obs, hk] using this

theorem obs_xlt {K : Keep} {s t : State} (h : obs K t = obs K s) (hk : K.xlt = true := by rfl) : t.xlt = s.xlt := by
  have := congrArg State.xlt h
  simpa [obs, hk] using this

theorem obs_tbl {K : Keep} {s t : State} (h : obs K t = obs K s) (hk : K.tbl = true := by rfl) : t.tbl = s.tbl := by
  have := congrArg State.tbl h
  simpa [obs, hk] using this

theorem obs_sch {K : Keep} {s t : State} (h : obs K t = obs K s) (hk : K.sch = true := by rfl) : t.sch = s.sch := by
  have := congrArg State.sch h
  simpa [obs, hk] using this

theorem obs_pwr {K : Keep} {s t : State} (h : obs K t = obs K s) (hk : K.pwr = true := by rfl) : t.pwr = s.pwr := by
  have := congrArg State.pwr h
  simpa [obs, hk] using this

theorem obs_mbx {K : Keep} {s t : State} (h : obs K t = obs K s) (hk : K.mbx = true := by rfl) : t.mbx = s.mbx := by
  have := congrArg State.mbx h
  simpa [obs, hk] using this

theorem obs_key {K : Keep} {s t : State} (h : obs K t = obs K s) (hk : K.key = true := by rfl) : t.key = s.key := by
  have := congrArg State.key h
  simpa [obs, hk] using this

theorem obs_tap {K : Keep} {s t : State} (h : obs K t = obs K s) (hk : K.tap = true := by rfl) : t.tap = s.tap := by
  have := congrArg State.tap h
  simpa [obs, hk] using this

theorem obs_trl {K : Keep} {s t : State} (h : obs K t = obs K s) (hk : K.trl = true := by rfl) : t.trl = s.trl := by
  have := congrArg State.trl h
  simpa [obs, hk] using this

theorem obs_ls {K : Keep} {s t : State} (h : obs K t = obs K s) (hk : K.ls = true := by rfl) : t.ls = s.ls := by
  have := congrArg State.ls h
  simpa [obs, hk] using this

theorem obs_bar {K : Keep} {s t : State} (h : obs K t = obs K s) (hk : K.bar = true := by rfl) : t.bar = s.bar := by
  have := congrArg State.bar h
  simpa [obs, hk] using this

theorem obs_det {K : Keep} {s t : State} (h : obs K t = obs K s) (hk : K.det = true := by rfl) : t.det = s.det := by
  have := congrArg State.det h
  simpa [obs, hk] using this

theorem obs_qwin {K : Keep} {s t : State} (h : obs K t = obs K s) (hk : K.qwin = true := by rfl) : t.qwin = s.qwin := by
  have := congrArg State.qwin h
  simpa [obs, hk] using this

theorem obs_xwin {K : Keep} {s t : State} (h : obs K t = obs K s) (hk : K.xwin = true := by rfl) : t.xwin = s.xwin := by
  have := congrArg State.xwin h
  simpa [obs, hk] using this

theorem obs_gwin {K : Keep} {s t : State} (h : obs K t = obs K s) (hk : K.gwin = true := by rfl) : t.gwin = s.gwin := by
  have := congrArg State.gwin h
  simpa [obs, hk] using this

theorem obs_twin {K : Keep} {s t : State} (h : obs K t = obs K s) (hk : K.twin = true := by rfl) : t.twin = s.twin := by
  have := congrArg State.twin h
  simpa [obs, hk] using this

theorem obs_swin {K : Keep} {s t : State} (h : obs K t = obs K s) (hk : K.swin = true := by rfl) : t.swin = s.swin := by
  have := congrArg State.swin h
  simpa [obs, hk] using this

theorem obs_pwin {K : Keep} {s t : State} (h : obs K t = obs K s) (hk : K.pwin = true := by rfl) : t.pwin = s.pwin := by
  have := congrArg State.pwin h
  simpa [obs, hk] using this

theorem obs_cc {K : Keep} {s t : State} (h : obs K t = obs K s) (hk : K.cc = true := by rfl) : t.cc = s.cc := by
  have := congrArg State.cc h
  simpa [obs, hk] using this

theorem obs_out {K : Keep} {s t : State} (h : obs K t = obs K s) (hk : K.out = true := by rfl) : t.out = s.out := by
  have := congrArg State.out h
  simpa [obs, hk] using this

theorem obs_pending {K : Keep} {s t : State} (h : obs K t = obs K s) (hk : K.pending = true := by rfl) : t.pending = s.pending
    := by
  have := congrArg State.pending h
  simpa [obs, hk] using this

@[simp] theorem obs_set_clk {K : Keep} (u : State) (v : Clk) (_ : K.clk = false := by trivial) :
    obs K { u with clk := v } = obs K u := by
  simp [obs, *]

@[simp] theorem obs_set_boot {K : Keep} (u : State) (v : Boot) (_ : K.boot = false := by trivial) :
    obs K { u with boot := v } = obs K u := by
  simp [obs, *]

@[simp] theorem obs_set_img {K : Keep} (u : State) (v : Img) (_ : K.img = false := by trivial) :
    obs K { u with img := v } = obs K u := by
  simp [obs, *]

@[simp] theorem obs_set_glob {K : Keep} (u : State) (v : Glob) (_ : K.glob = false := by trivial) :
    obs K { u with glob := v } = obs K u := by
  simp [obs, *]

@[simp] theorem obs_set_clr {K : Keep} (u : State) (v : Tab Clearing) (_ : K.clr = false := by trivial) :
    obs K { u with clr := v } = obs K u := by
  simp [obs, *]

@[simp] theorem obs_set_win {K : Keep} (u : State) (v : Tab Window) (_ : K.win = false := by trivial) :
    obs K { u with win := v } = obs K u := by
  simp [obs, *]

@[simp] theorem obs_set_ctx {K : Keep} (u : State) (v : Tab Ctx) (_ : K.ctx = false := by trivial) :
    obs K { u with ctx := v } = obs K u := by
  simp [obs, *]

@[simp] theorem obs_set_cal {K : Keep} (u : State) (v : Cal) (_ : K.cal = false := by trivial) :
    obs K { u with cal := v } = obs K u := by
  simp [obs, *]

@[simp] theorem obs_set_err {K : Keep} (u : State) (v : ErrUnit) (_ : K.err = false := by trivial) :
    obs K { u with err := v } = obs K u := by
  simp [obs, *]

@[simp] theorem obs_set_rings {K : Keep} (u : State) (v : Tab ErrRing) (_ : K.rings = false := by trivial) :
    obs K { u with rings := v } = obs K u := by
  simp [obs, *]

@[simp] theorem obs_set_que {K : Keep} (u : State) (v : QueUnit) (_ : K.que = false := by trivial) :
    obs K { u with que := v } = obs K u := by
  simp [obs, *]

@[simp] theorem obs_set_queues {K : Keep} (u : State) (v : Tab Queue) (_ : K.queues = false := by trivial) :
    obs K { u with queues := v } = obs K u := by
  simp [obs, *]

@[simp] theorem obs_set_tasks {K : Keep} (u : State) (v : Tab (Option Task)) (_ : K.tasks = false := by trivial) :
    obs K { u with tasks := v } = obs K u := by
  simp [obs, *]

@[simp] theorem obs_set_acc {K : Keep} (u : State) (v : Tab (Option Acc)) (_ : K.acc = false := by trivial) :
    obs K { u with acc := v } = obs K u := by
  simp [obs, *]

@[simp] theorem obs_set_accNext {K : Keep} (u : State) (v : Nat) (_ : K.accNext = false := by trivial) :
    obs K { u with accNext := v } = obs K u := by
  simp [obs, *]

@[simp] theorem obs_set_xlt {K : Keep} (u : State) (v : XltUnit) (_ : K.xlt = false := by trivial) :
    obs K { u with xlt := v } = obs K u := by
  simp [obs, *]

@[simp] theorem obs_set_tbl {K : Keep} (u : State) (v : TblUnit) (_ : K.tbl = false := by trivial) :
    obs K { u with tbl := v } = obs K u := by
  simp [obs, *]

@[simp] theorem obs_set_sch {K : Keep} (u : State) (v : SchUnit) (_ : K.sch = false := by trivial) :
    obs K { u with sch := v } = obs K u := by
  simp [obs, *]

@[simp] theorem obs_set_pwr {K : Keep} (u : State) (v : Power) (_ : K.pwr = false := by trivial) :
    obs K { u with pwr := v } = obs K u := by
  simp [obs, *]

@[simp] theorem obs_set_mbx {K : Keep} (u : State) (v : Tab Mailbox) (_ : K.mbx = false := by trivial) :
    obs K { u with mbx := v } = obs K u := by
  simp [obs, *]

@[simp] theorem obs_set_key {K : Keep} (u : State) (v : KeyUnit) (_ : K.key = false := by trivial) :
    obs K { u with key := v } = obs K u := by
  simp [obs, *]

@[simp] theorem obs_set_tap {K : Keep} (u : State) (v : Tap) (_ : K.tap = false := by trivial) :
    obs K { u with tap := v } = obs K u := by
  simp [obs, *]

@[simp] theorem obs_set_trl {K : Keep} (u : State) (v : Trail) (_ : K.trl = false := by trivial) :
    obs K { u with trl := v } = obs K u := by
  simp [obs, *]

@[simp] theorem obs_set_ls {K : Keep} (u : State) (v : Tab Lockstep) (_ : K.ls = false := by trivial) :
    obs K { u with ls := v } = obs K u := by
  simp [obs, *]

@[simp] theorem obs_set_bar {K : Keep} (u : State) (v : Tab Barrier) (_ : K.bar = false := by trivial) :
    obs K { u with bar := v } = obs K u := by
  simp [obs, *]

@[simp] theorem obs_set_det {K : Keep} (u : State) (v : Tab DetWin) (_ : K.det = false := by trivial) :
    obs K { u with det := v } = obs K u := by
  simp [obs, *]

@[simp] theorem obs_set_qwin {K : Keep} (u : State) (v : Tab QueWin) (_ : K.qwin = false := by trivial) :
    obs K { u with qwin := v } = obs K u := by
  simp [obs, *]

@[simp] theorem obs_set_xwin {K : Keep} (u : State) (v : Tab XltWin) (_ : K.xwin = false := by trivial) :
    obs K { u with xwin := v } = obs K u := by
  simp [obs, *]

@[simp] theorem obs_set_gwin {K : Keep} (u : State) (v : Tab GpeWin) (_ : K.gwin = false := by trivial) :
    obs K { u with gwin := v } = obs K u := by
  simp [obs, *]

@[simp] theorem obs_set_twin {K : Keep} (u : State) (v : Tab TblWin) (_ : K.twin = false := by trivial) :
    obs K { u with twin := v } = obs K u := by
  simp [obs, *]

@[simp] theorem obs_set_swin {K : Keep} (u : State) (v : Tab SchWin) (_ : K.swin = false := by trivial) :
    obs K { u with swin := v } = obs K u := by
  simp [obs, *]

@[simp] theorem obs_set_pwin {K : Keep} (u : State) (v : Tab PwrWin) (_ : K.pwin = false := by trivial) :
    obs K { u with pwin := v } = obs K u := by
  simp [obs, *]

@[simp] theorem obs_set_cc {K : Keep} (u : State) (v : CclkView) (_ : K.cc = false := by trivial) :
    obs K { u with cc := v } = obs K u := by
  simp [obs, *]

@[simp] theorem obs_set_out {K : Keep} (u : State) (v : List Output) (_ : K.out = false := by trivial) :
    obs K { u with out := v } = obs K u := by
  simp [obs, *]

@[simp] theorem obs_set_pending {K : Keep} (u : State) (v : List Instr) (_ : K.pending = false := by trivial) :
    obs K { u with pending := v } = obs K u := by
  simp [obs, *]

@[simp] theorem obs_set_acc_accNext {K : Keep} (u : State) (v : Tab (Option Acc)) (w : Nat) (_ : K.acc = false := by trivial)
    (_ : K.accNext = false := by trivial) : obs K { u with acc := v, accNext := w } = obs K u := by
  simp [obs, *]

@[simp] theorem obs_ite (K : Keep) (c : Prop) [Decidable c] (s t : State) :
    obs K (if c then s else t) = if c then obs K s else obs K t := apply_ite (obs K) c s t

theorem foldl_frame {K : Keep} {α : Type} (f : State → α → State) (h : ∀ s x, obs K (f s x) = obs K s) :
    ∀ (l : List α) (s : State), obs K (l.foldl f s) = obs K s
  | [], _ => rfl
  | x :: l, s => (foldl_frame f h l (f s x)).trans (h s x)

@[simp] theorem forEach_frame {K : Keep} {α : Type} (xs : List α) (s : State) (f : State → α → State)
    (h : ∀ s x, obs K (f s x) = obs K s) : obs K (forEach xs s f) = obs K s := foldl_frame f h xs s

/-! Ops. -/

@[simp] theorem setClr_frame {K : Keep} (s : State) (n : Nat) (c : Clearing) (_ : K.clr = false := by assumption) : obs K
    (setClr s n c) = obs K s :=
  by simp [setClr, *]

@[simp] theorem updClr_frame {K : Keep} (s : State) (n : Nat) (f : Clearing → Clearing) (_ : K.clr = false := by assumption) :
    obs K (updClr s n f) = obs K s :=
  by simp [updClr, *]

@[simp] theorem updWin_frame {K : Keep} (s : State) (n : Nat) (f : Window → Window) (_ : K.win = false := by assumption) : obs
    K (updWin s n f) = obs K s :=
  by simp [updWin, *]

@[simp] theorem updCtx_frame {K : Keep} (s : State) (c : Nat) (f : Ctx → Ctx) (_ : K.ctx = false := by assumption) : obs K
    (updCtx s c f) = obs K s :=
  by simp [updCtx, *]

@[simp] theorem updPch_frame {K : Keep} (s : State) (p : Nat) (f : Pch → Pch) (_ : K.cal = false := by assumption) : obs K
    (updPch s p f) = obs K s :=
  by simp [updPch, *]

@[simp] theorem updRing_frame {K : Keep} (s : State) (r : Nat) (f : ErrRing → ErrRing) (_ : K.rings = false := by assumption)
    : obs K (updRing s r f) = obs K s :=
  by simp [updRing, *]

@[simp] theorem updCal_frame {K : Keep} (s : State) (f : Cal → Cal) (_ : K.cal = false := by assumption) : obs K (updCal s f)
    = obs K s :=
  by simp [updCal, *]

@[simp] theorem updQueue_frame {K : Keep} (s : State) (q : Nat) (f : Queue → Queue) (_ : K.queues = false := by assumption) :
    obs K (updQueue s q f) = obs K s :=
  by simp [updQueue, *]

@[simp] theorem updQue_frame {K : Keep} (s : State) (f : QueUnit → QueUnit) (_ : K.que = false := by assumption) : obs K
    (updQue s f) = obs K s :=
  by simp [updQue, *]

@[simp] theorem updTask_frame {K : Keep} (s : State) (t : Nat) (f : Task → Task) (_ : K.tasks = false := by assumption) : obs
    K (updTask s t f) = obs K s :=
  by simp [updTask, *]

@[simp] theorem updEnv_frame {K : Keep} (s : State) (t : Nat) (e : Nat) (f : EnvRun → EnvRun) (_ : K.tasks = false := by
    assumption) : obs K (updEnv s t e f) = obs K s :=
  by simp [updEnv, *]

@[simp] theorem updAcc_frame {K : Keep} (s : State) (a : Nat) (f : Acc → Acc) (_ : K.acc = false := by assumption) : obs K
    (updAcc s a f) = obs K s :=
  by simp [updAcc, *]

@[simp] theorem dropAcc_frame {K : Keep} (s : State) (a : Nat) (_ : K.acc = false := by assumption) : obs K (dropAcc s a) =
    obs K s :=
  by simp [dropAcc, *]

@[simp] theorem updXlt_frame {K : Keep} (s : State) (f : XltUnit → XltUnit) (_ : K.xlt = false := by assumption) : obs K
    (updXlt s f) = obs K s :=
  by simp [updXlt, *]

@[simp] theorem updTbl_frame {K : Keep} (s : State) (f : TblUnit → TblUnit) (_ : K.tbl = false := by assumption) : obs K
    (updTbl s f) = obs K s :=
  by simp [updTbl, *]

@[simp] theorem updDesc_frame {K : Keep} (s : State) (d : Nat) (f : Tbl → Tbl) (_ : K.tbl = false := by assumption) : obs K
    (updDesc s d f) = obs K s :=
  by simp [updDesc, *]

@[simp] theorem updEngine_frame {K : Keep} (s : State) (e : Nat) (f : Engine → Engine) (_ : K.tbl = false := by assumption) :
    obs K (updEngine s e f) = obs K s :=
  by simp [updEngine, *]

@[simp] theorem updSch_frame {K : Keep} (s : State) (f : SchUnit → SchUnit) (_ : K.sch = false := by assumption) : obs K
    (updSch s f) = obs K s :=
  by simp [updSch, *]

@[simp] theorem updCore_frame {K : Keep} (s : State) (c : Nat) (f : Core → Core) (_ : K.sch = false := by assumption) : obs K
    (updCore s c f) = obs K s :=
  by simp [updCore, *]

@[simp] theorem updJob_frame {K : Keep} (s : State) (j : Nat) (f : Job → Job) (_ : K.sch = false := by assumption) : obs K
    (updJob s j f) = obs K s :=
  by simp [updJob, *]

@[simp] theorem updAcct_frame {K : Keep} (s : State) (c : Nat) (f : CtxAcct → CtxAcct) (_ : K.sch = false := by assumption) :
    obs K (updAcct s c f) = obs K s :=
  by simp [updAcct, *]

@[simp] theorem updQwin_frame {K : Keep} (s : State) (n : Nat) (f : QueWin → QueWin) (_ : K.qwin = false := by assumption) :
    obs K (updQwin s n f) = obs K s :=
  by simp [updQwin, *]

@[simp] theorem updXwin_frame {K : Keep} (s : State) (n : Nat) (f : XltWin → XltWin) (_ : K.xwin = false := by assumption) :
    obs K (updXwin s n f) = obs K s :=
  by simp [updXwin, *]

@[simp] theorem updGwin_frame {K : Keep} (s : State) (n : Nat) (f : GpeWin → GpeWin) (_ : K.gwin = false := by assumption) :
    obs K (updGwin s n f) = obs K s :=
  by simp [updGwin, *]

@[simp] theorem updTwin_frame {K : Keep} (s : State) (n : Nat) (f : TblWin → TblWin) (_ : K.twin = false := by assumption) :
    obs K (updTwin s n f) = obs K s :=
  by simp [updTwin, *]

@[simp] theorem updSwin_frame {K : Keep} (s : State) (n : Nat) (f : SchWin → SchWin) (_ : K.swin = false := by assumption) :
    obs K (updSwin s n f) = obs K s :=
  by simp [updSwin, *]

@[simp] theorem updPwr_frame {K : Keep} (s : State) (f : Power → Power) (_ : K.pwr = false := by assumption) : obs K (updPwr s
    f) = obs K s :=
  by simp [updPwr, *]

@[simp] theorem updDom_frame {K : Keep} (s : State) (d : Nat) (f : Domain → Domain) (_ : K.pwr = false := by assumption) : obs
    K (updDom s d f) = obs K s :=
  by simp [updDom, *]

@[simp] theorem updPwin_frame {K : Keep} (s : State) (n : Nat) (f : PwrWin → PwrWin) (_ : K.pwin = false := by assumption) :
    obs K (updPwin s n f) = obs K s :=
  by simp [updPwin, *]

@[simp] theorem updMbx_frame {K : Keep} (s : State) (m : Nat) (f : Mailbox → Mailbox) (_ : K.mbx = false := by assumption) :
    obs K (updMbx s m f) = obs K s :=
  by simp [updMbx, *]

@[simp] theorem updKey_frame {K : Keep} (s : State) (f : KeyUnit → KeyUnit) (_ : K.key = false := by assumption) : obs K
    (updKey s f) = obs K s :=
  by simp [updKey, *]

@[simp] theorem updSlot_frame {K : Keep} (s : State) (k : Nat) (f : KeySlot → KeySlot) (_ : K.key = false := by assumption) :
    obs K (updSlot s k f) = obs K s :=
  by simp [updSlot, *]

@[simp] theorem updXch_frame {K : Keep} (s : State) (x : Nat) (f : Exchange → Exchange) (_ : K.key = false := by assumption) :
    obs K (updXch s x f) = obs K s :=
  by simp [updXch, *]

@[simp] theorem updTrl_frame {K : Keep} (s : State) (f : Trail → Trail) (_ : K.trl = false := by assumption) : obs K (updTrl s
    f) = obs K s :=
  by simp [updTrl, *]

@[simp] theorem updLs_frame {K : Keep} (s : State) (n : Nat) (f : Lockstep → Lockstep) (_ : K.ls = false := by assumption) :
    obs K (updLs s n f) = obs K s :=
  by simp [updLs, *]

@[simp] theorem updBar_frame {K : Keep} (s : State) (n : Nat) (f : Barrier → Barrier) (_ : K.bar = false := by assumption) :
    obs K (updBar s n f) = obs K s :=
  by simp [updBar, *]

@[simp] theorem updCc_frame {K : Keep} (s : State) (f : CclkView → CclkView) (_ : K.cc = false := by assumption) : obs K
    (updCc s f) = obs K s :=
  by simp [updCc, *]

@[simp] theorem openCclk_frame {K : Keep} (s : State) (_ : K.cc = false := by assumption) : obs K (openCclk s) = obs K s := by
  unfold openCclk
  try dsimp only
  repeat' first
    | with_reducible rfl
    | (simp only [obs_set_cc, *]; done)
    | split

@[simp] theorem keepStart_frame {K : Keep} (s : State) (t : State) (_ : K.cc = false := by assumption) : obs K (keepStart s t)
    = obs K s :=
  by simp [keepStart, *]

@[simp] theorem emit_frame {K : Keep} (s : State) (o : Output) (_ : K.out = false := by assumption) : obs K (emit s o) = obs K
    s :=
  by simp [emit, *]

@[simp] theorem heard_frame {K : Keep} (s : State) (f : State → State) (hf : ∀ x0, obs K (f x0) = obs K x0) : obs K (heard s
    f) = obs K s :=
  by simp [heard, *]

@[simp] theorem recordStatus_frame {K : Keep} (s : State) (win : Option Nat) (q : Requester) (c : Code) (_ : K.glob = false :=
    by assumption) (_ : K.win = false := by assumption) : obs K (recordStatus s win q c) = obs K s := by
  unfold recordStatus
  try dsimp only
  repeat' first
    | with_reducible rfl
    | (simp only [updWin_frame, obs_set_glob, *]; done)
    | split

@[simp] theorem recordRead_frame {K : Keep} (s : State) (win : Option Nat) (c : Code) (_ : K.glob = false := by assumption) (_
    : K.win = false := by assumption) : obs K (recordRead s win c) = obs K s := by
  unfold recordRead
  try dsimp only
  repeat' first
    | with_reducible rfl
    | (simp only [updWin_frame, obs_set_glob, *]; done)
    | split

@[simp] theorem msix_frame {K : Keep} (s : State) (func : Nat) (vec : Nat) (_ : K.out = false := by assumption) : obs K (msix
    s func vec) = obs K s :=
  by simp [msix, *]

@[simp] theorem clrEvent_frame {K : Keep} (s : State) (n : Nat) (_ : K.glob = false := by assumption) (_ : K.cc = false := by
    assumption) (_ : K.out = false := by assumption) : obs K (clrEvent s n) = obs K s := by
  unfold clrEvent
  simp only [msix_frame, obs_set_glob, updCc_frame, *]

/-! CalStore. -/

@[simp] theorem updMeas_frame {K : Keep} (s : State) (n : Nat) (c : Nat) (f : ClassMeas → ClassMeas) (_ : K.clr = false := by
    assumption) : obs K (updMeas s n c f) = obs K s :=
  by simp [updMeas, *]

@[simp] theorem pushStore_frame {K : Keep} (s : State) (p : Nat) (r : MemReq) (_ : K.cal = false := by assumption) : obs K
    (pushStore s p r) = obs K s := by
  unfold pushStore
  try dsimp only
  repeat' first
    | with_reducible rfl
    | (simp only [updPch_frame, *, obs_ite, ite_self]; done)
    | split

@[simp] theorem countOutstanding_frame {K : Keep} (s : State) (r : MemReq) (up : Bool) (_ : K.clr = false := by assumption) :
    obs K (countOutstanding s r up) = obs K s := by
  unfold countOutstanding
  try dsimp only
  repeat' first
    | with_reducible rfl
    | (simp only [updMeas_frame, *, obs_ite, ite_self]; done)
    | split

theorem enterStore_frame {K : Keep} (s : State) (r : MemReq) (t : State) (h : enterStore s r = some t) (_ : K.clr = false :=
    by trivial) (_ : K.cal = false := by trivial) : obs K t = obs K s := by
  unfold enterStore at h
  dsimp only at h
  split at h
  · cases h
  · cases h
    simp [*]

/-! ErrorOps. -/

@[simp] theorem stageIn_frame {K : Keep} (s : State) (k : Nat) (r : ErrRec) (_ : K.rings = false := by assumption) : obs K
    (stageIn s k r) = obs K s :=
  by simp [stageIn, *]

@[simp] theorem holdRec_frame {K : Keep} (s : State) (r : ErrRec) (_ : K.err = false := by assumption) (_ : K.rings = false :=
    by assumption) : obs K (holdRec s r) = obs K s :=
  by simp [holdRec, *]

@[simp] theorem raise_frame {K : Keep} (s : State) (r : ErrRec) (_ : K.err = false := by assumption) (_ : K.rings = false :=
    by assumption) : obs K (raise s r) = obs K s := by
  unfold raise
  try dsimp only
  repeat' first
    | with_reducible rfl
    | (simp only [holdRec_frame, stageIn_frame, *, obs_ite]; done)
    | split

@[simp] theorem raiseWide_frame {K : Keep} (s : State) (r : ErrRec) (affected : List Nat) (_ : K.err = false := by assumption)
    (_ : K.rings = false := by assumption) : obs K (raiseWide s r affected) = obs K s :=
  by simp [raiseWide, *]

@[simp] theorem ringIssue_frame {K : Keep} (s : State) (k : Nat) (_ : K.clr = false := by assumption) (_ : K.cal = false := by
    assumption) (_ : K.rings = false := by assumption) : obs K (ringIssue s k) = obs K s := by
  unfold ringIssue
  dsimp only
  split
  · split
    · simp [*]
    · split
      · simp [*]
      · next h =>
          have h' := enterStore_frame (K := K) _ _ _ h
          simpa [*] using h'
  · simp [*]

@[simp] theorem ringIssueAll_frame {K : Keep} (s : State) (_ : K.clr = false := by assumption) (_ : K.cal = false := by
    assumption) (_ : K.rings = false := by assumption) : obs K (ringIssueAll s) = obs K s :=
  by simp [ringIssueAll, *]

@[simp] theorem ringCommit_frame {K : Keep} (s : State) (k : Nat) (_ : K.rings = false := by assumption) (_ : K.out = false :=
    by assumption) : obs K (ringCommit s k) = obs K s := by
  unfold ringCommit
  try dsimp only
  repeat' first
    | with_reducible rfl
    | (simp only [updRing_frame, msix_frame, *, obs_ite, ite_self]; done)
    | split

@[simp] theorem emptyRing_frame {K : Keep} (s : State) (n : Nat) (_ : K.rings = false := by assumption) : obs K (emptyRing s
    n) = obs K s :=
  by simp [emptyRing, *]

/-! QueueBase. -/

@[simp] theorem disableDone_frame {K : Keep} (s : State) (q : Nat) (_ : K.qwin = false := by assumption) : obs K (disableDone
    s q) = obs K s := by
  unfold disableDone
  try dsimp only
  repeat' first
    | with_reducible rfl
    | (simp only [updQwin_frame, *]; done)
    | split

@[simp] theorem queueSettle_frame {K : Keep} (s : State) (q : Nat) (_ : K.queues = false := by assumption) (_ : K.qwin = false
    := by assumption) : obs K (queueSettle s q) = obs K s :=
  by simp [queueSettle, *]

@[simp] theorem countLost_frame {K : Keep} (s : State) (q : Nat) (k : Nat) (_ : K.qwin = false := by assumption) : obs K
    (countLost s q k) = obs K s := by
  unfold countLost
  try dsimp only
  repeat' first
    | with_reducible rfl
    | (simp only [updQwin_frame, *]; done)
    | split

@[simp] theorem reachClosed_frame {K : Keep} (s : State) (n : Nat) (_ : K.bar = false := by assumption) (_ : K.swin = false :=
    by assumption) (_ : K.pwin = false := by assumption) : obs K (reachClosed s n) = obs K s :=
  by simp [reachClosed, *]

@[simp] theorem setClrState_frame {K : Keep} (s : State) (n : Nat) (st : ClrState) (_ : K.glob = false := by assumption) (_ :
    K.clr = false := by assumption) (_ : K.bar = false := by assumption) (_ : K.swin = false := by assumption) (_ : K.pwin =
    false := by assumption) (_ : K.cc = false := by assumption) (_ : K.out = false := by assumption) : obs K (setClrState s n
    st) = obs K s :=
  by simp [setClrState, *]

@[simp] theorem quiesceCheck_frame {K : Keep} (s : State) (n : Nat) (_ : K.glob = false := by assumption) (_ : K.clr = false
    := by assumption) (_ : K.bar = false := by assumption) (_ : K.swin = false := by assumption) (_ : K.pwin = false := by
    assumption) (_ : K.cc = false := by assumption) (_ : K.out = false := by assumption) : obs K (quiesceCheck s n) = obs K s
    :=
  by simp [quiesceCheck, *]

@[simp] theorem measureTask_frame {K : Keep} (s : State) (k : Task) (us : Nat) (_ : K.clr = false := by assumption) : obs K
    (measureTask s k us) = obs K s :=
  by simp [measureTask, *]

@[simp] theorem releaseTask_frame {K : Keep} (s : State) (t : Nat) (_ : K.que = false := by assumption) (_ : K.tasks = false
    := by assumption) (_ : K.sch = false := by assumption) : obs K (releaseTask s t) = obs K s := by
  unfold releaseTask
  simp only [updQue_frame, obs_set_tasks, updSch_frame, *]

@[simp] theorem envWritten_frame {K : Keep} (s : State) (i : CplItem) (_ : K.tasks = false := by assumption) : obs K
    (envWritten s i) = obs K s := by
  unfold envWritten
  try dsimp only
  repeat' first
    | with_reducible rfl
    | (simp only [updEnv_frame, *]; done)
    | split

@[simp] theorem endOf_frame {K : Keep} (s : State) (i : CplItem) (_ : K.glob = false := by assumption) (_ : K.clr = false :=
    by assumption) (_ : K.que = false := by assumption) (_ : K.tasks = false := by assumption) (_ : K.sch = false := by
    assumption) (_ : K.bar = false := by assumption) (_ : K.swin = false := by assumption) (_ : K.pwin = false := by
    assumption) (_ : K.cc = false := by assumption) (_ : K.out = false := by assumption) : obs K (endOf s i) = obs K s := by
  unfold endOf
  try dsimp only
  repeat' first
    | with_reducible rfl
    | (simp only [envWritten_frame, quiesceCheck_frame, releaseTask_frame, measureTask_frame, *, obs_ite, ite_self]; done)
    | split

@[simp] theorem addItem_frame {K : Keep} (s : State) (q : Nat) (i : CplItem) (_ : K.queues = false := by assumption) (_ :
    K.tasks = false := by assumption) (_ : K.qwin = false := by assumption) : obs K (addItem s q i) = obs K s :=
  by simp [addItem, *]

@[simp] theorem addLast_frame {K : Keep} (s : State) (q : Nat) (i : CplItem) (_ : K.glob = false := by assumption) (_ : K.clr
    = false := by assumption) (_ : K.que = false := by assumption) (_ : K.queues = false := by assumption) (_ : K.tasks =
    false := by assumption) (_ : K.sch = false := by assumption) (_ : K.bar = false := by assumption) (_ : K.qwin = false :=
    by assumption) (_ : K.swin = false := by assumption) (_ : K.pwin = false := by assumption) (_ : K.cc = false := by
    assumption) (_ : K.out = false := by assumption) : obs K (addLast s q i) = obs K s :=
  by simp [addLast, *]

@[simp] theorem returnDead_frame {K : Keep} (s : State) (q : Nat) (ds : List (Code × Nat × Bool)) (_ : K.queues = false := by
    assumption) (_ : K.tasks = false := by assumption) (_ : K.qwin = false := by assumption) : obs K (returnDead s q ds) = obs
    K s :=
  by simp [returnDead, *]

@[simp] theorem queueInterrupt_frame {K : Keep} (s : State) (q : Nat) (_ : K.queues = false := by assumption) (_ : K.out =
    false := by assumption) : obs K (queueInterrupt s q) = obs K s := by
  unfold queueInterrupt
  try dsimp only
  repeat' first
    | with_reducible rfl
    | (simp only [updQueue_frame, msix_frame, *, obs_ite, ite_self]; done)
    | split

@[simp] theorem countInterrupt_frame {K : Keep} (s : State) (q : Nat) (i : CplItem) (_ : K.queues = false := by assumption) (_
    : K.out = false := by assumption) : obs K (countInterrupt s q i) = obs K s :=
  by simp [countInterrupt, *]

@[simp] theorem itemWritten_frame {K : Keep} (s : State) (q : Nat) (isAcct : Bool) (_ : K.glob = false := by assumption) (_ :
    K.clr = false := by assumption) (_ : K.que = false := by assumption) (_ : K.queues = false := by assumption) (_ : K.tasks
    = false := by assumption) (_ : K.sch = false := by assumption) (_ : K.bar = false := by assumption) (_ : K.qwin = false :=
    by assumption) (_ : K.swin = false := by assumption) (_ : K.pwin = false := by assumption) (_ : K.cc = false := by
    assumption) (_ : K.out = false := by assumption) : obs K (itemWritten s q isAcct) = obs K s := by
  unfold itemWritten
  try dsimp only
  repeat' first
    | with_reducible rfl
    | (simp only [updQueue_frame, updQwin_frame, queueSettle_frame, countInterrupt_frame, endOf_frame, *, obs_ite, ite_self]; done)
    | split

@[simp] theorem ringRec_frame {K : Keep} (s : State) (code : Code) (q : Nat) (addr : Nat) (_ : K.err = false := by assumption)
    (_ : K.rings = false := by assumption) : obs K (ringRec s code q addr) = obs K s :=
  by simp [ringRec, *]

@[simp] theorem stopWaiting_frame {K : Keep} (s : State) (q : Nat) (_ : K.queues = false := by assumption) : obs K
    (stopWaiting s q) = obs K s :=
  by simp [stopWaiting, *]

@[simp] theorem cplFailed_frame {K : Keep} (s : State) (q : Nat) (addr : Nat) (_ : K.glob = false := by assumption) (_ : K.clr
    = false := by assumption) (_ : K.err = false := by assumption) (_ : K.rings = false := by assumption) (_ : K.que = false
    := by assumption) (_ : K.queues = false := by assumption) (_ : K.tasks = false := by assumption) (_ : K.sch = false := by
    assumption) (_ : K.bar = false := by assumption) (_ : K.qwin = false := by assumption) (_ : K.swin = false := by
    assumption) (_ : K.pwin = false := by assumption) (_ : K.cc = false := by assumption) (_ : K.out = false := by assumption)
    : obs K (cplFailed s q addr) = obs K s := by
  unfold cplFailed
  dsimp only
  simp only [updQueue_frame, stopWaiting_frame, queueSettle_frame, ringRec_frame, countLost_frame, endOf_frame, *, forEach_frame, implies_true]

@[simp] theorem fetchFailed_frame {K : Keep} (s : State) (q : Nat) (addr : Nat) (_ : K.err = false := by assumption) (_ :
    K.rings = false := by assumption) (_ : K.queues = false := by assumption) (_ : K.tasks = false := by assumption) (_ :
    K.qwin = false := by assumption) : obs K (fetchFailed s q addr) = obs K s :=
  by simp [fetchFailed, *]

@[simp] theorem completeEnv_frame {K : Keep} (s : State) (t : Nat) (e : Nat) (code : Code) (dead : Bool) (expired : Bool) (_ :
    K.queues = false := by assumption) (_ : K.tasks = false := by assumption) (_ : K.qwin = false := by assumption) : obs K
    (completeEnv s t e code dead expired) = obs K s := by
  unfold completeEnv
  try dsimp only
  repeat' first
    | with_reducible rfl
    | (simp only [updTask_frame, addItem_frame, *, obs_ite, ite_self]; done)
    | split

/-! Manifest. -/

@[simp] theorem beginIssue_frame {K : Keep} (s : State) (n : Nat) (_ : K.clr = false := by assumption) : obs K (beginIssue s
    n) = obs K s :=
  by simp [beginIssue, *]

@[simp] theorem issueManifest_frame {K : Keep} (s : State) (n : Nat) (_ : K.clr = false := by assumption) : obs K
    (issueManifest s n) = obs K s :=
  by simp [issueManifest, *]

@[simp] theorem degrade_frame {K : Keep} (s : State) (n : Nat) (_ : K.clr = false := by assumption) : obs K (degrade s n) =
    obs K s :=
  by simp [degrade, *]

@[simp] theorem issueAll_frame {K : Keep} (s : State) (_ : K.clr = false := by assumption) : obs K (issueAll s) = obs K s :=
  by simp [issueAll, *]

@[simp] theorem finishIssue_frame {K : Keep} (s : State) (n : Nat) (_ : K.glob = false := by assumption) (_ : K.clr = false :=
    by assumption) (_ : K.cc = false := by assumption) (_ : K.out = false := by assumption) : obs K (finishIssue s n) = obs K
    s := by
  unfold finishIssue
  try dsimp only
  repeat' first
    | with_reducible rfl
    | (simp only [updClr_frame, clrEvent_frame, issueManifest_frame, obs_set_glob, *, obs_ite, ite_self]; done)
    | split

/-! Calendar. -/

@[simp] theorem chargeHbm_frame {K : Keep} (s : State) (r : MemReq) (_ : K.sch = false := by assumption) : obs K (chargeHbm s
    r) = obs K s := by
  unfold chargeHbm
  try dsimp only
  repeat' first
    | with_reducible rfl
    | (simp only [updAcct_frame, *]; done)
    | split

@[simp] theorem countHbm_frame {K : Keep} (s : State) (r : MemReq) (_ : K.tasks = false := by assumption) (_ : K.gwin = false
    := by assumption) : obs K (countHbm s r) = obs K s := by
  unfold countHbm
  try dsimp only
  repeat' first
    | with_reducible rfl
    | (simp only [updTask_frame, updGwin_frame, *, obs_ite, ite_self]; done)
    | split

@[simp] theorem presentReq_frame {K : Keep} (s : State) (p : Nat) (at' : Nat) (r : MemReq) (_ : K.cal = false := by
    assumption) (_ : K.tasks = false := by assumption) (_ : K.sch = false := by assumption) (_ : K.gwin = false := by
    assumption) (_ : K.out = false := by assumption) : obs K (presentReq s p at' r) = obs K s :=
  by simp [presentReq, *]

@[simp] theorem zeroTaken_frame {K : Keep} (s : State) (r : MemReq) (_ : K.clr = false := by assumption) : obs K (zeroTaken s
    r) = obs K s := by
  unfold zeroTaken
  try dsimp only
  repeat' first
    | with_reducible rfl
    | (simp only [updClr_frame, *]; done)
    | split

@[simp] theorem takeReq_frame {K : Keep} (s : State) (p : Nat) (r : MemReq) (_ : K.clr = false := by assumption) (_ : K.cal =
    false := by assumption) : obs K (takeReq s p r) = obs K s :=
  by simp [takeReq, *]

@[simp] theorem serveReq_frame {K : Keep} (s : State) (p : Nat) (at' : Nat) (r : MemReq) (_ : K.clr = false := by assumption)
    (_ : K.cal = false := by assumption) (_ : K.tasks = false := by assumption) (_ : K.sch = false := by assumption) (_ :
    K.gwin = false := by assumption) (_ : K.out = false := by assumption) : obs K (serveReq s p at' r) = obs K s :=
  by simp [serveReq, *]

@[simp] theorem serveElastic_frame {K : Keep} (s : State) (w : PhaseWires) (p : Nat) (at' : Nat) (r : MemReq) (_ : K.clr =
    false := by assumption) (_ : K.cal = false := by assumption) (_ : K.tasks = false := by assumption) (_ : K.sch = false :=
    by assumption) (_ : K.gwin = false := by assumption) (_ : K.out = false := by assumption) : obs K (serveElastic s w p at'
    r) = obs K s := by
  unfold serveElastic
  try dsimp only
  repeat' first
    | with_reducible rfl
    | (simp only [updPch_frame, updClr_frame, updMeas_frame, serveReq_frame, *, obs_ite, ite_self]; done)
    | split

@[simp] theorem serveShared_frame {K : Keep} (s : State) (w : PhaseWires) (p : Nat) (at' : Nat) (_ : K.clr = false := by
    assumption) (_ : K.cal = false := by assumption) (_ : K.tasks = false := by assumption) (_ : K.sch = false := by
    assumption) (_ : K.gwin = false := by assumption) (_ : K.out = false := by assumption) : obs K (serveShared s w p at') =
    obs K s := by
  unfold serveShared
  try dsimp only
  repeat' first
    | with_reducible rfl
    | (simp only [serveReq_frame, serveElastic_frame, *]; done)
    | split

@[simp] theorem phaseFixed_frame {K : Keep} (s : State) (w : PhaseWires) (p : Nat) (at' : Nat) (n : Nat) (_ : K.clr = false :=
    by assumption) (_ : K.cal = false := by assumption) (_ : K.tasks = false := by assumption) (_ : K.sch = false := by
    assumption) (_ : K.gwin = false := by assumption) (_ : K.out = false := by assumption) : obs K (phaseFixed s w p at' n) =
    obs K s := by
  unfold phaseFixed
  try dsimp only
  repeat' first
    | with_reducible rfl
    | (simp only [updPch_frame, serveReq_frame, serveShared_frame, *]; done)
    | split

@[simp] theorem phaseElastic_frame {K : Keep} (s : State) (w : PhaseWires) (p : Nat) (at' : Nat) (_ : K.clr = false := by
    assumption) (_ : K.cal = false := by assumption) (_ : K.tasks = false := by assumption) (_ : K.sch = false := by
    assumption) (_ : K.gwin = false := by assumption) (_ : K.out = false := by assumption) : obs K (phaseElastic s w p at') =
    obs K s := by
  unfold phaseElastic
  try dsimp only
  repeat' first
    | with_reducible rfl
    | (simp only [serveReq_frame, updPch_frame, serveShared_frame, *]; done)
    | split

@[simp] theorem presentMaint_frame {K : Keep} (s : State) (p : Nat) (h : Nat) (op : Nat) (_ : K.out = false := by assumption)
    : obs K (presentMaint s p h op) = obs K s :=
  by simp [presentMaint, *]

@[simp] theorem phaseMaint_frame {K : Keep} (s : State) (w : PhaseWires) (p : Nat) (ordinal : Nat) (_ : K.out = false := by
    assumption) : obs K (phaseMaint s w p ordinal) = obs K s :=
  by simp [phaseMaint, *]

@[simp] theorem phaseHeld_frame {K : Keep} (s : State) (p : Nat) (owner : Nat) (_ : K.cal = false := by assumption) : obs K
    (phaseHeld s p owner) = obs K s :=
  by simp [phaseHeld, *]

@[simp] theorem phaseOn_frame {K : Keep} (w : PhaseWires) (j : Nat) (at' : Nat) (s : State) (p : Nat) (_ : K.clr = false := by
    assumption) (_ : K.cal = false := by assumption) (_ : K.tasks = false := by assumption) (_ : K.sch = false := by
    assumption) (_ : K.gwin = false := by assumption) (_ : K.out = false := by assumption) : obs K (phaseOn w j at' s p) = obs
    K s :=
  by simp [phaseOn, *]

@[simp] theorem startupScrub_frame {K : Keep} (s : State) (p : Nat) (at' : Nat) (_ : K.boot = false := by assumption) (_ :
    K.cal = false := by assumption) (_ : K.tasks = false := by assumption) (_ : K.sch = false := by assumption) (_ : K.gwin =
    false := by assumption) (_ : K.out = false := by assumption) : obs K (startupScrub s p at') = obs K s := by
  unfold startupScrub
  try dsimp only
  repeat' first
    | with_reducible rfl
    | (simp only [presentReq_frame, obs_set_boot, *]; done)
    | split

@[simp] theorem phaseStartup_frame {K : Keep} (w : PhaseWires) (j : Nat) (at' : Nat) (s : State) (p : Nat) (_ : K.boot = false
    := by assumption) (_ : K.clr = false := by assumption) (_ : K.cal = false := by assumption) (_ : K.tasks = false := by
    assumption) (_ : K.sch = false := by assumption) (_ : K.gwin = false := by assumption) (_ : K.out = false := by
    assumption) : obs K (phaseStartup w j at' s p) = obs K s := by
  unfold phaseStartup
  try dsimp only
  repeat' first
    | with_reducible rfl
    | (simp only [updPch_frame, phaseMaint_frame, serveReq_frame, startupScrub_frame, *, obs_ite, ite_self]; done)
    | split

@[simp] theorem scrubFill_frame {K : Keep} (n : Nat) (s : State) (_ : K.img = false := by trivial) (_ : K.clr = false := by
    trivial) (_ : K.cal = false := by trivial) : obs K (scrubFill n s) = obs K s := by
  induction n generalizing s with
  | zero => rfl
  | succ n ih =>
    unfold scrubFill
    dsimp only
    split
    · rfl
    · split
      · rfl
      · split
        · rfl
        · next h =>
          rw [ih]
          exact (obs_set_img _ _).trans (enterStore_frame _ _ _ h)

/-! AccBase. -/

@[simp] theorem newAcc_frame {K : Keep} (s : State) (a : Acc) (_ : K.acc = false := by assumption) (_ : K.accNext = false :=
    by assumption) : obs K (newAcc s a) = obs K s :=
  by simp [newAcc, *]

@[simp] theorem readExtentFor_frame {K : Keep} (s : State) (t : Nat) (e : Nat) (op : Nat) (addr : Nat) (len : Nat) (_ : K.acc
    = false := by assumption) (_ : K.accNext = false := by assumption) : obs K (readExtentFor s t e op addr len) = obs K s := by
  unfold readExtentFor
  try dsimp only
  repeat' first
    | with_reducible rfl
    | (simp only [newAcc_frame, *, forEach_frame, implies_true]; done)
    | split

@[simp] theorem writeExtentFor_frame {K : Keep} (s : State) (t : Nat) (e : Nat) (op : Nat) (addr : Nat) (bs : List Byte) (_ :
    K.acc = false := by assumption) (_ : K.accNext = false := by assumption) : obs K (writeExtentFor s t e op addr bs) = obs K
    s := by
  unfold writeExtentFor
  try dsimp only
  repeat' first
    | with_reducible rfl
    | (simp only [newAcc_frame, *, forEach_frame, implies_true]; done)
    | split

@[simp] theorem dropUnissued_frame {K : Keep} (s : State) (t : Nat) (e : Nat) (_ : K.acc = false := by assumption) : obs K
    (dropUnissued s t e) = obs K s :=
  by simp [dropUnissued, *]

@[simp] theorem gpeFault_frame {K : Keep} (s : State) (k : Task) (v : EnvRun) (code : Code) (pos : Nat) (_ : K.gwin = false :=
    by assumption) : obs K (gpeFault s k v code pos) = obs K s :=
  by simp [gpeFault, *]

@[simp] theorem xltFault_frame {K : Keep} (s : State) (k : Task) (v : EnvRun) (code : Code) (addr : Nat) (_ : K.xwin = false
    := by assumption) : obs K (xltFault s k v code addr) = obs K s :=
  by simp [xltFault, *]

@[simp] theorem stopEnv_frame {K : Keep} (s : State) (t : Nat) (e : Nat) (code : Code) (expired : Bool) (_ : K.tasks = false
    := by assumption) (_ : K.acc = false := by assumption) : obs K (stopEnv s t e code expired) = obs K s :=
  by simp [stopEnv, *]

@[simp] theorem failEnv_frame {K : Keep} (s : State) (t : Nat) (e : Nat) (code : Code) (pos : Nat) (addr : Nat) (_ : K.tasks =
    false := by assumption) (_ : K.acc = false := by assumption) (_ : K.xwin = false := by assumption) (_ : K.gwin = false :=
    by assumption) : obs K (failEnv s t e code pos addr) = obs K s := by
  unfold failEnv
  try dsimp only
  repeat' first
    | with_reducible rfl
    | (simp only [gpeFault_frame, xltFault_frame, stopEnv_frame, *, obs_ite, ite_self]; done)
    | split

@[simp] theorem countHost_frame {K : Keep} (s : State) (a : Acc) (k : Nat) (_ : K.tasks = false := by assumption) (_ : K.sch =
    false := by assumption) : obs K (countHost s a k) = obs K s := by
  unfold countHost
  try dsimp only
  repeat' first
    | with_reducible rfl
    | (simp only [updAcct_frame, updTask_frame, *]; done)
    | split

@[simp] theorem countRemote_frame {K : Keep} (s : State) (ctx : Nat) (k : Nat) (_ : K.sch = false := by assumption) : obs K
    (countRemote s ctx k) = obs K s :=
  by simp [countRemote, *]

@[simp] theorem refusalRec_frame {K : Keep} (s : State) (src : Nat) (unit : Nat) (addr : Nat) (why : Nat) (n : Nat) (ctx :
    Nat) (gen : Nat) (tag : Nat) (queue : Option Nat) (_ : K.err = false := by assumption) (_ : K.rings = false := by
    assumption) (_ : K.xwin = false := by assumption) : obs K (refusalRec s src unit addr why n ctx gen tag queue) = obs K s
    :=
  by simp [refusalRec, *]

@[simp] theorem bitsWritten_frame {K : Keep} (s : State) (d : Nat) (g : Nat) (_ : K.tbl = false := by assumption) : obs K
    (bitsWritten s d g) = obs K s :=
  by simp [bitsWritten, *]

@[simp] theorem bitmapWrite_frame {K : Keep} (s : State) (d : Nat) (g : Nat) (bs : List Byte) (a : Acc) (_ : K.acc = false :=
    by assumption) (_ : K.accNext = false := by assumption) (_ : K.tbl = false := by assumption) : obs K (bitmapWrite s d g bs
    a) = obs K s := by
  unfold bitmapWrite
  dsimp only
  simp only [updTbl_frame, bitsWritten_frame, newAcc_frame, *, obs_ite, ite_self]

@[simp] theorem answerEnv_frame {K : Keep} (s : State) (a : Acc) (t : Nat) (e : Nat) (r : AccRes) (_ : K.err = false := by
    assumption) (_ : K.rings = false := by assumption) (_ : K.tasks = false := by assumption) (_ : K.acc = false := by
    assumption) (_ : K.tbl = false := by assumption) (_ : K.xwin = false := by assumption) (_ : K.gwin = false := by
    assumption) : obs K (answerEnv s a t e r) = obs K s := by
  unfold answerEnv
  try dsimp only
  repeat' first
    | with_reducible rfl
    | (simp only [updEnv_frame, bitsWritten_frame, failEnv_frame, refusalRec_frame, *, obs_ite, ite_self]; done)
    | split

@[simp] theorem dropClient_frame {K : Keep} (s : State) (c : Client) (_ : K.acc = false := by assumption) : obs K (dropClient
    s c) = obs K s :=
  by simp [dropClient, *]

@[simp] theorem answerFetch_frame {K : Keep} (s : State) (a : Acc) (q : Nat) (r : AccRes) (_ : K.err = false := by assumption)
    (_ : K.rings = false := by assumption) (_ : K.queues = false := by assumption) (_ : K.tasks = false := by assumption) (_ :
    K.acc = false := by assumption) (_ : K.qwin = false := by assumption) (_ : K.xwin = false := by assumption) : obs K
    (answerFetch s a q r) = obs K s := by
  unfold answerFetch
  try dsimp only
  repeat' first
    | with_reducible rfl
    | (simp only [updQueue_frame, fetchFailed_frame, dropClient_frame, refusalRec_frame, *]; done)
    | split

@[simp] theorem answerCpl_frame {K : Keep} (s : State) (a : Acc) (q : Nat) (r : AccRes) (_ : K.glob = false := by assumption)
    (_ : K.clr = false := by assumption) (_ : K.err = false := by assumption) (_ : K.rings = false := by assumption) (_ :
    K.que = false := by assumption) (_ : K.queues = false := by assumption) (_ : K.tasks = false := by assumption) (_ : K.sch
    = false := by assumption) (_ : K.bar = false := by assumption) (_ : K.qwin = false := by assumption) (_ : K.xwin = false
    := by assumption) (_ : K.swin = false := by assumption) (_ : K.pwin = false := by assumption) (_ : K.cc = false := by
    assumption) (_ : K.out = false := by assumption) : obs K (answerCpl s a q r) = obs K s := by
  unfold answerCpl
  try dsimp only
  repeat' first
    | with_reducible rfl
    | (simp only [itemWritten_frame, cplFailed_frame, refusalRec_frame, *]; done)
    | split

@[simp] theorem answerBitmap_frame {K : Keep} (s : State) (a : Acc) (d : Nat) (r : AccRes) (_ : K.acc = false := by
    assumption) (_ : K.accNext = false := by assumption) (_ : K.tbl = false := by assumption) : obs K (answerBitmap s a d r) =
    obs K s := by
  unfold answerBitmap
  try dsimp only
  repeat' first
    | with_reducible rfl
    | (simp only [bitmapWrite_frame, bitsWritten_frame, *]; done)
    | split

@[simp] theorem answerAcct_frame {K : Keep} (s : State) (n : Nat) (r : AccRes) (_ : K.swin = false := by assumption) : obs K
    (answerAcct s n r) = obs K s :=
  by simp [answerAcct, *]

@[simp] theorem answerAcc_frame {K : Keep} (s : State) (id : Nat) (r : AccRes) (_ : K.glob = false := by assumption) (_ :
    K.clr = false := by assumption) (_ : K.err = false := by assumption) (_ : K.rings = false := by assumption) (_ : K.que =
    false := by assumption) (_ : K.queues = false := by assumption) (_ : K.tasks = false := by assumption) (_ : K.acc = false
    := by assumption) (_ : K.accNext = false := by assumption) (_ : K.tbl = false := by assumption) (_ : K.sch = false := by
    assumption) (_ : K.bar = false := by assumption) (_ : K.qwin = false := by assumption) (_ : K.xwin = false := by
    assumption) (_ : K.gwin = false := by assumption) (_ : K.swin = false := by assumption) (_ : K.pwin = false := by
    assumption) (_ : K.cc = false := by assumption) (_ : K.out = false := by assumption) : obs K (answerAcc s id r) = obs K s
    := by
  unfold answerAcc
  try dsimp only
  repeat' first
    | with_reducible rfl
    | (simp only [dropAcc_frame, answerEnv_frame, answerFetch_frame, answerCpl_frame, answerBitmap_frame, answerAcct_frame, *]; done)
    | split

/-! Xlt. -/

@[simp] theorem fillEntry_frame {K : Keep} (s : State) (e : XltEntry) (_ : K.xlt = false := by assumption) : obs K (fillEntry
    s e) = obs K s := by
  unfold fillEntry
  try dsimp only
  repeat' first
    | with_reducible rfl
    | (simp only [updXlt_frame, *, obs_ite]; done)
    | split

@[simp] theorem touchEntry_frame {K : Keep} (s : State) (e : XltEntry) (_ : K.xlt = false := by assumption) : obs K
    (touchEntry s e) = obs K s :=
  by simp [touchEntry, *]

@[simp] theorem setHostOut_frame {K : Keep} (s : State) (t : Nat) (o : Option HostOut) (_ : K.xlt = false := by assumption) :
    obs K (setHostOut s t o) = obs K s :=
  by simp [setHostOut, *]

@[simp] theorem freeHostOut_frame {K : Keep} (s : State) (t : Nat) (_ : K.xlt = false := by assumption) : obs K (freeHostOut s
    t) = obs K s :=
  by simp [freeHostOut, *]

theorem sendAts_frame {K : Keep} {s : State} {f pasid page n c gen : Nat} {w : Bool} {x : Nat × State}
    (h : sendAts s f pasid page n c gen w = some x) (_ : K.xlt = false := by assumption) (_ : K.xwin = false := by assumption)
    (_ : K.out = false := by assumption) : obs K x.2 = obs K s := by
  unfold sendAts at h
  dsimp only at h
  split at h
  · obtain ⟨t, -, rfl⟩ := Option.map_eq_some_iff.mp h
    simp [*]
  · cases h

@[simp] theorem startMiss_frame {K : Keep} (s : State) (id : Nat) (a : Acc) (_ : K.acc = false := by assumption) (_ : K.xlt =
    false := by assumption) (_ : K.xwin = false := by assumption) (_ : K.out = false := by assumption) : obs K (startMiss s id
    a) = obs K s := by
  unfold startMiss
  dsimp only
  split
  · simp [*]
  · split
    · rfl
    · next h => simpa [*] using sendAts_frame (K := K) h

@[simp] theorem translateAhead_frame {K : Keep} (s : State) (n c addr : Nat) (write : Bool) (_ : K.xlt = false := by assumption)
    (_ : K.xwin = false := by assumption) (_ : K.out = false := by assumption) :
    obs K (translateAhead s n c addr write) = obs K s := by
  unfold translateAhead
  dsimp only
  split
  · rfl
  · split
    · rfl
    · next h => exact sendAts_frame h

@[simp] theorem switchOut_frame {K : Keep} (s : State) (a : Acc) (_ : K.tasks = false := by assumption) (_ : K.xwin = false :=
    by assumption) : obs K (switchOut s a) = obs K s := by
  unfold switchOut
  try dsimp only
  repeat' first
    | with_reducible rfl
    | (simp only [updEnv_frame, updXwin_frame, xltFault_frame, *, obs_ite, ite_self]; done)
    | split

@[simp] theorem pageFault_frame {K : Keep} (s : State) (id : Nat) (a : Acc) (_ : K.glob = false := by assumption) (_ : K.clr =
    false := by assumption) (_ : K.err = false := by assumption) (_ : K.rings = false := by assumption) (_ : K.que = false :=
    by assumption) (_ : K.queues = false := by assumption) (_ : K.tasks = false := by assumption) (_ : K.acc = false := by
    assumption) (_ : K.accNext = false := by assumption) (_ : K.xlt = false := by assumption) (_ : K.tbl = false := by
    assumption) (_ : K.sch = false := by assumption) (_ : K.bar = false := by assumption) (_ : K.qwin = false := by
    assumption) (_ : K.xwin = false := by assumption) (_ : K.gwin = false := by assumption) (_ : K.swin = false := by
    assumption) (_ : K.pwin = false := by assumption) (_ : K.cc = false := by assumption) (_ : K.out = false := by assumption)
    : obs K (pageFault s id a) = obs K s := by
  unfold pageFault
  try dsimp only
  repeat' first
    | with_reducible rfl
    | (simp only [answerAcc_frame, switchOut_frame, updAcc_frame, updXlt_frame, emit_frame, *, obs_ite]; done)
    | split

@[simp] theorem grantWaiters_frame {K : Keep} (s : State) (t : Nat) (r : Bool) (w : Bool) (frame : Nat) (_ : K.glob = false :=
    by assumption) (_ : K.clr = false := by assumption) (_ : K.err = false := by assumption) (_ : K.rings = false := by
    assumption) (_ : K.que = false := by assumption) (_ : K.queues = false := by assumption) (_ : K.tasks = false := by
    assumption) (_ : K.acc = false := by assumption) (_ : K.accNext = false := by assumption) (_ : K.xlt = false := by
    assumption) (_ : K.tbl = false := by assumption) (_ : K.sch = false := by assumption) (_ : K.bar = false := by assumption)
    (_ : K.qwin = false := by assumption) (_ : K.xwin = false := by assumption) (_ : K.gwin = false := by assumption) (_ :
    K.swin = false := by assumption) (_ : K.pwin = false := by assumption) (_ : K.cc = false := by assumption) (_ : K.out =
    false := by assumption) : obs K (grantWaiters s t r w frame) = obs K s :=
  by simp [grantWaiters, *]

@[simp] theorem joinInvals_frame {K : Keep} (was : State) (s : State) (t : Nat) (ids : List Nat) (_ : K.xlt = false := by
    assumption) : obs K (joinInvals was s t ids) = obs K s :=
  by simp [joinInvals, *]

@[simp] theorem translated_frame {K : Keep} (s : State) (t : Nat) (r : AtsReply) (_ : K.glob = false := by assumption) (_ :
    K.clr = false := by assumption) (_ : K.err = false := by assumption) (_ : K.rings = false := by assumption) (_ : K.que =
    false := by assumption) (_ : K.queues = false := by assumption) (_ : K.tasks = false := by assumption) (_ : K.acc = false
    := by assumption) (_ : K.accNext = false := by assumption) (_ : K.xlt = false := by assumption) (_ : K.tbl = false := by
    assumption) (_ : K.sch = false := by assumption) (_ : K.bar = false := by assumption) (_ : K.qwin = false := by
    assumption) (_ : K.xwin = false := by assumption) (_ : K.gwin = false := by assumption) (_ : K.swin = false := by
    assumption) (_ : K.pwin = false := by assumption) (_ : K.cc = false := by assumption) (_ : K.out = false := by assumption)
    : obs K (translated s t r) = obs K s := by
  unfold translated
  try dsimp only
  repeat' first
    | with_reducible rfl
    | (simp only [freeHostOut_frame, answerAcc_frame, updXlt_frame, joinInvals_frame, updAcc_frame, fillEntry_frame,
       grantWaiters_frame, *, obs_ite, ite_self, forEach_frame, implies_true]; done)
    | split

@[simp] theorem translationDone_frame {K : Keep} (s : State) (t : Nat) (r : AtsReply) (_ : K.glob = false := by assumption) (_
    : K.clr = false := by assumption) (_ : K.err = false := by assumption) (_ : K.rings = false := by assumption) (_ : K.que =
    false := by assumption) (_ : K.queues = false := by assumption) (_ : K.tasks = false := by assumption) (_ : K.acc = false
    := by assumption) (_ : K.accNext = false := by assumption) (_ : K.xlt = false := by assumption) (_ : K.tbl = false := by
    assumption) (_ : K.sch = false := by assumption) (_ : K.bar = false := by assumption) (_ : K.qwin = false := by
    assumption) (_ : K.xwin = false := by assumption) (_ : K.gwin = false := by assumption) (_ : K.swin = false := by
    assumption) (_ : K.pwin = false := by assumption) (_ : K.cc = false := by assumption) (_ : K.out = false := by assumption)
    : obs K (translationDone s t r) = obs K s :=
  by simp [translationDone, *]

@[simp] theorem fillsTurn_frame {K : Keep} (s : State) (_ : K.glob = false := by assumption) (_ : K.clr = false := by
    assumption) (_ : K.err = false := by assumption) (_ : K.rings = false := by assumption) (_ : K.que = false := by
    assumption) (_ : K.queues = false := by assumption) (_ : K.tasks = false := by assumption) (_ : K.acc = false := by
    assumption) (_ : K.accNext = false := by assumption) (_ : K.xlt = false := by assumption) (_ : K.tbl = false := by
    assumption) (_ : K.sch = false := by assumption) (_ : K.bar = false := by assumption) (_ : K.qwin = false := by
    assumption) (_ : K.xwin = false := by assumption) (_ : K.gwin = false := by assumption) (_ : K.swin = false := by
    assumption) (_ : K.pwin = false := by assumption) (_ : K.cc = false := by assumption) (_ : K.out = false := by assumption)
    : obs K (fillsTurn s) = obs K s :=
  by simp [fillsTurn, *]

@[simp] theorem switchIn_frame {K : Keep} (s : State) (a : Acc) (_ : K.tasks = false := by assumption) (_ : K.acc = false :=
    by assumption) (_ : K.accNext = false := by assumption) : obs K (switchIn s a) = obs K s := by
  unfold switchIn
  try dsimp only
  repeat' first
    | with_reducible rfl
    | (simp only [updEnv_frame, newAcc_frame, *, obs_ite, ite_self, forEach_frame, implies_true]; done)
    | split

@[simp] theorem prgAnswer_frame {K : Keep} (s : State) (f : Nat) (pasid : Nat) (i : Nat) (code : Nat) (_ : K.glob = false :=
    by assumption) (_ : K.clr = false := by assumption) (_ : K.err = false := by assumption) (_ : K.rings = false := by
    assumption) (_ : K.que = false := by assumption) (_ : K.queues = false := by assumption) (_ : K.tasks = false := by
    assumption) (_ : K.acc = false := by assumption) (_ : K.accNext = false := by assumption) (_ : K.xlt = false := by
    assumption) (_ : K.tbl = false := by assumption) (_ : K.sch = false := by assumption) (_ : K.bar = false := by assumption)
    (_ : K.qwin = false := by assumption) (_ : K.xwin = false := by assumption) (_ : K.gwin = false := by assumption) (_ :
    K.swin = false := by assumption) (_ : K.pwin = false := by assumption) (_ : K.cc = false := by assumption) (_ : K.out =
    false := by assumption) : obs K (prgAnswer s f pasid i code) = obs K s := by
  unfold prgAnswer
  try dsimp only
  repeat' first
    | with_reducible rfl
    | (simp only [updXlt_frame, switchIn_frame, updAcc_frame, answerAcc_frame, *, obs_ite, ite_self, forEach_frame,
       implies_true]; done)
    | split

@[simp] theorem prgTimeout_frame {K : Keep} (s : State) (f : Nat) (i : Nat) (_ : K.glob = false := by assumption) (_ : K.clr =
    false := by assumption) (_ : K.err = false := by assumption) (_ : K.rings = false := by assumption) (_ : K.que = false :=
    by assumption) (_ : K.queues = false := by assumption) (_ : K.tasks = false := by assumption) (_ : K.acc = false := by
    assumption) (_ : K.accNext = false := by assumption) (_ : K.xlt = false := by assumption) (_ : K.tbl = false := by
    assumption) (_ : K.sch = false := by assumption) (_ : K.bar = false := by assumption) (_ : K.qwin = false := by
    assumption) (_ : K.xwin = false := by assumption) (_ : K.gwin = false := by assumption) (_ : K.swin = false := by
    assumption) (_ : K.pwin = false := by assumption) (_ : K.cc = false := by assumption) (_ : K.out = false := by assumption)
    : obs K (prgTimeout s f i) = obs K s := by
  unfold prgTimeout
  try dsimp only
  repeat' first
    | with_reducible rfl
    | (simp only [updXlt_frame, answerAcc_frame, *, obs_ite, ite_self, forEach_frame, implies_true]; done)
    | split

@[simp] theorem invalCompletion_frame {K : Keep} (s : State) (f : Nat) (itag : Nat) (_ : K.xlt = false := by assumption) (_ :
    K.out = false := by assumption) : obs K (invalCompletion s f itag) = obs K s :=
  by simp [invalCompletion, *]

@[simp] theorem atsInvalidate_frame {K : Keep} (s : State) (f : Nat) (pasid : Option Nat) (itag : Nat) (_ : K.acc = false :=
    by assumption) (_ : K.xlt = false := by assumption) (_ : K.out = false := by assumption) : obs K (atsInvalidate s f pasid
    itag) = obs K s := by
  unfold atsInvalidate
  dsimp only
  simp only [invalCompletion_frame, updXlt_frame, obs_set_acc, *, obs_ite, ite_self]

@[simp] theorem invalDrained_frame {K : Keep} (s : State) (f : Nat) (itag : Nat) (_ : K.xlt = false := by assumption) (_ :
    K.out = false := by assumption) : obs K (invalDrained s f itag) = obs K s := by
  unfold invalDrained
  try dsimp only
  repeat' first
    | with_reducible rfl
    | (simp only [invalCompletion_frame, updXlt_frame, *, obs_ite, ite_self]; done)
    | split

@[simp] theorem restartAccs_frame {K : Keep} (s : State) (f : Nat) (pasid : Option Nat) (_ : K.acc = false := by assumption) :
    obs K (restartAccs s f pasid) = obs K s :=
  by simp [restartAccs, *]

@[simp] theorem xltCtxLeft_frame {K : Keep} (s : State) (c : Nat) (_ : K.acc = false := by assumption) (_ : K.xlt = false :=
    by assumption) : obs K (xltCtxLeft s c) = obs K s := by
  unfold xltCtxLeft
  try dsimp only
  repeat' first
    | with_reducible rfl
    | (simp only [restartAccs_frame, updXlt_frame, *, obs_ite, ite_self]; done)
    | split

@[simp] theorem xltFuncReset_frame {K : Keep} (s : State) (f : Nat) (_ : K.acc = false := by assumption) (_ : K.xlt = false :=
    by assumption) : obs K (xltFuncReset s f) = obs K s :=
  by simp [xltFuncReset, *]

@[simp] theorem hostReadDone_frame {K : Keep} (s : State) (t : Nat) (st : HostStatus) (data : List Byte) (_ : K.glob = false
    := by assumption) (_ : K.clr = false := by assumption) (_ : K.err = false := by assumption) (_ : K.rings = false := by
    assumption) (_ : K.que = false := by assumption) (_ : K.queues = false := by assumption) (_ : K.tasks = false := by
    assumption) (_ : K.acc = false := by assumption) (_ : K.accNext = false := by assumption) (_ : K.xlt = false := by
    assumption) (_ : K.tbl = false := by assumption) (_ : K.sch = false := by assumption) (_ : K.bar = false := by assumption)
    (_ : K.qwin = false := by assumption) (_ : K.xwin = false := by assumption) (_ : K.gwin = false := by assumption) (_ :
    K.swin = false := by assumption) (_ : K.pwin = false := by assumption) (_ : K.cc = false := by assumption) (_ : K.out =
    false := by assumption) : obs K (hostReadDone s t st data) = obs K s := by
  unfold hostReadDone
  try dsimp only
  repeat' first
    | with_reducible rfl
    | (simp only [freeHostOut_frame, answerAcc_frame, countHost_frame, *]; done)
    | split

/-! LockBase. -/

@[simp] theorem foldGranule_frame {K : Keep} (s : State) (n : Nat) (pin : Nat) (a : Nat) (data : List Byte) (be : BitVec 256)
    (_ : K.ls = false := by assumption) : obs K (foldGranule s n pin a data be) = obs K s :=
  by simp [foldGranule, *]

@[simp] theorem unfoldGranule_frame {K : Keep} (s : State) (n : Nat) (pin : Nat) (a : Nat) (data : List Byte) (be : BitVec
    256) (_ : K.ls = false := by assumption) : obs K (unfoldGranule s n pin a data be) = obs K s :=
  by simp [unfoldGranule, *]

@[simp] theorem foldRun_frame {K : Keep} (s : State) (n : Nat) (pin : Nat) (a : Nat) (bs : List Byte) (_ : K.ls = false := by
    assumption) : obs K (foldRun s n pin a bs) = obs K s :=
  by simp [foldRun, *]

/-! Access. -/

@[simp] theorem markPace_frame {K : Keep} (s : State) (a : Acc) (_ : K.tbl = false := by assumption) : obs K (markPace s a) =
    obs K s := by
  unfold markPace
  try dsimp only
  repeat' first
    | with_reducible rfl
    | (simp only [updEngine_frame, *]; done)
    | split

@[simp] theorem foldAcc_frame {K : Keep} (was : State) (a : Acc) (_ : K.tbl = false := by assumption) (_ : K.ls = false := by
    assumption) : obs K (foldAcc was a) = obs K was := by
  unfold foldAcc
  try dsimp only
  repeat' first
    | with_reducible rfl
    | (simp only [markPace_frame, foldGranule_frame, foldRun_frame, *]; done)
    | split

@[simp] theorem issuePlot_frame {K : Keep} (s : State) (id : Nat) (a : Acc) (p : Nat) (_ : K.glob = false := by assumption) (_
    : K.clr = false := by assumption) (_ : K.cal = false := by assumption) (_ : K.err = false := by assumption) (_ : K.rings =
    false := by assumption) (_ : K.que = false := by assumption) (_ : K.queues = false := by assumption) (_ : K.tasks = false
    := by assumption) (_ : K.acc = false := by assumption) (_ : K.accNext = false := by assumption) (_ : K.tbl = false := by
    assumption) (_ : K.sch = false := by assumption) (_ : K.ls = false := by assumption) (_ : K.bar = false := by assumption)
    (_ : K.qwin = false := by assumption) (_ : K.xwin = false := by assumption) (_ : K.gwin = false := by assumption) (_ :
    K.swin = false := by assumption) (_ : K.pwin = false := by assumption) (_ : K.cc = false := by assumption) (_ : K.out =
    false := by assumption) : obs K (issuePlot s id a p) = obs K s := by
  unfold issuePlot
  try dsimp only
  repeat' first
    | with_reducible rfl
    | (simp only [answerAcc_frame, foldAcc_frame, updAcc_frame, *, obs_ite]; done)
    | with_reducible refine (forEach_frame _ _ _ fun _ _ => ?_).trans ?_
    | (simp only [answerAcc_frame, foldAcc_frame, updAcc_frame, *, obs_ite]; with_reducible refine (forEach_frame _ _ _ fun _ _ => ?_).trans ?_)
    | (simp only [answerAcc_frame, foldAcc_frame, updAcc_frame, *, obs_ite]; exact enterStore_frame _ _ _ (by assumption))
    | exact enterStore_frame _ _ _ (by assumption)
    | (simp only [answerAcc_frame, *, obs_ite]; split)
    | split
    | (simp [*]; done)

@[simp] theorem issueBus_frame {K : Keep} (s : State) (id : Nat) (a : Acc) (f : Nat) (at' : Nat) (bus : Nat) (_ : K.glob =
    false := by assumption) (_ : K.clr = false := by assumption) (_ : K.err = false := by assumption) (_ : K.rings = false :=
    by assumption) (_ : K.que = false := by assumption) (_ : K.queues = false := by assumption) (_ : K.tasks = false := by
    assumption) (_ : K.acc = false := by assumption) (_ : K.accNext = false := by assumption) (_ : K.xlt = false := by
    assumption) (_ : K.tbl = false := by assumption) (_ : K.sch = false := by assumption) (_ : K.ls = false := by assumption)
    (_ : K.bar = false := by assumption) (_ : K.qwin = false := by assumption) (_ : K.xwin = false := by assumption) (_ :
    K.gwin = false := by assumption) (_ : K.swin = false := by assumption) (_ : K.pwin = false := by assumption) (_ : K.cc =
    false := by assumption) (_ : K.out = false := by assumption) : obs K (issueBus s id a f at' bus) = obs K s := by
  unfold issueBus
  try dsimp only
  repeat' first
    | with_reducible rfl
    | (simp only [answerAcc_frame, emit_frame, countHost_frame, foldAcc_frame, setHostOut_frame, updXlt_frame, updAcc_frame, *,
       obs_ite, ite_self]; done)
    | split

@[simp] theorem issueHost_frame {K : Keep} (s : State) (id : Nat) (a : Acc) (va : Nat) (_ : K.glob = false := by assumption)
    (_ : K.clr = false := by assumption) (_ : K.err = false := by assumption) (_ : K.rings = false := by assumption) (_ :
    K.que = false := by assumption) (_ : K.queues = false := by assumption) (_ : K.tasks = false := by assumption) (_ : K.acc
    = false := by assumption) (_ : K.accNext = false := by assumption) (_ : K.xlt = false := by assumption) (_ : K.tbl = false
    := by assumption) (_ : K.sch = false := by assumption) (_ : K.ls = false := by assumption) (_ : K.bar = false := by
    assumption) (_ : K.qwin = false := by assumption) (_ : K.xwin = false := by assumption) (_ : K.gwin = false := by
    assumption) (_ : K.swin = false := by assumption) (_ : K.pwin = false := by assumption) (_ : K.cc = false := by
    assumption) (_ : K.out = false := by assumption) : obs K (issueHost s id a va) = obs K s := by
  unfold issueHost
  try dsimp only
  repeat' first
    | with_reducible rfl
    | (simp only [answerAcc_frame, issueBus_frame, touchEntry_frame, startMiss_frame, *, obs_ite, ite_self]; done)
    | split

@[simp] theorem setFabOut_frame {K : Keep} (s : State) (t : Nat) (o : Option FabOut) (_ : K.xlt = false := by assumption) :
    obs K (setFabOut s t o) = obs K s :=
  by simp [setFabOut, *]

@[simp] theorem issueFab_frame {K : Keep} (s : State) (id : Nat) (a : Acc) (chip : Nat) (addr : Nat) (_ : K.glob = false := by
    assumption) (_ : K.clr = false := by assumption) (_ : K.err = false := by assumption) (_ : K.rings = false := by
    assumption) (_ : K.que = false := by assumption) (_ : K.queues = false := by assumption) (_ : K.tasks = false := by
    assumption) (_ : K.acc = false := by assumption) (_ : K.accNext = false := by assumption) (_ : K.xlt = false := by
    assumption) (_ : K.tbl = false := by assumption) (_ : K.sch = false := by assumption) (_ : K.ls = false := by assumption)
    (_ : K.bar = false := by assumption) (_ : K.qwin = false := by assumption) (_ : K.xwin = false := by assumption) (_ :
    K.gwin = false := by assumption) (_ : K.swin = false := by assumption) (_ : K.pwin = false := by assumption) (_ : K.cc =
    false := by assumption) (_ : K.out = false := by assumption) : obs K (issueFab s id a chip addr) = obs K s := by
  unfold issueFab
  try dsimp only
  repeat' first
    | with_reducible rfl
    | (simp only [answerAcc_frame, setFabOut_frame, countRemote_frame, foldAcc_frame, emit_frame, updAcc_frame, *, obs_ite,
       ite_self]; done)
    | split

@[simp] theorem issueRecord_frame {K : Keep} (s : State) (t : Nat) (e : Nat) (_ : K.glob = false := by assumption) (_ : K.clr
    = false := by assumption) (_ : K.cal = false := by assumption) (_ : K.err = false := by assumption) (_ : K.rings = false
    := by assumption) (_ : K.que = false := by assumption) (_ : K.queues = false := by assumption) (_ : K.tasks = false := by
    assumption) (_ : K.acc = false := by assumption) (_ : K.accNext = false := by assumption) (_ : K.tbl = false := by
    assumption) (_ : K.sch = false := by assumption) (_ : K.ls = false := by assumption) (_ : K.bar = false := by assumption)
    (_ : K.qwin = false := by assumption) (_ : K.xwin = false := by assumption) (_ : K.gwin = false := by assumption) (_ :
    K.swin = false := by assumption) (_ : K.pwin = false := by assumption) (_ : K.cc = false := by assumption) (_ : K.out =
    false := by assumption) : obs K (issueRecord s t e) = obs K s := by
  unfold issueRecord
  try dsimp only
  repeat' first
    | with_reducible rfl
    | (simp only [answerAcc_frame, issuePlot_frame, *, obs_ite, ite_self, forEach_frame, implies_true]; done)
    | split

@[simp] theorem issueOne_frame {K : Keep} (s : State) (id : Nat) (a : Acc) (_ : K.glob = false := by assumption) (_ : K.clr =
    false := by assumption) (_ : K.cal = false := by assumption) (_ : K.err = false := by assumption) (_ : K.rings = false :=
    by assumption) (_ : K.que = false := by assumption) (_ : K.queues = false := by assumption) (_ : K.tasks = false := by
    assumption) (_ : K.acc = false := by assumption) (_ : K.accNext = false := by assumption) (_ : K.xlt = false := by
    assumption) (_ : K.tbl = false := by assumption) (_ : K.sch = false := by assumption) (_ : K.ls = false := by assumption)
    (_ : K.bar = false := by assumption) (_ : K.qwin = false := by assumption) (_ : K.xwin = false := by assumption) (_ :
    K.gwin = false := by assumption) (_ : K.swin = false := by assumption) (_ : K.pwin = false := by assumption) (_ : K.cc =
    false := by assumption) (_ : K.out = false := by assumption) : obs K (issueOne s id a) = obs K s := by
  unfold issueOne
  try dsimp only
  repeat' first
    | with_reducible rfl
    | (simp only [issuePlot_frame, issueHost_frame, issueFab_frame, answerAcc_frame, pageFault_frame, *]; done)
    | split

@[simp] theorem issueAcc_frame {K : Keep} (s : State) (id : Nat) (_ : K.glob = false := by assumption) (_ : K.clr = false :=
    by assumption) (_ : K.cal = false := by assumption) (_ : K.err = false := by assumption) (_ : K.rings = false := by
    assumption) (_ : K.que = false := by assumption) (_ : K.queues = false := by assumption) (_ : K.tasks = false := by
    assumption) (_ : K.acc = false := by assumption) (_ : K.accNext = false := by assumption) (_ : K.xlt = false := by
    assumption) (_ : K.tbl = false := by assumption) (_ : K.sch = false := by assumption) (_ : K.ls = false := by assumption)
    (_ : K.bar = false := by assumption) (_ : K.qwin = false := by assumption) (_ : K.xwin = false := by assumption) (_ :
    K.gwin = false := by assumption) (_ : K.swin = false := by assumption) (_ : K.pwin = false := by assumption) (_ : K.cc =
    false := by assumption) (_ : K.out = false := by assumption) : obs K (issueAcc s id) = obs K s := by
  unfold issueAcc
  try dsimp only
  repeat' first
    | with_reducible rfl
    | (simp only [issueRecord_frame, issueOne_frame, *, obs_ite, ite_self]; done)
    | split

@[simp] theorem issueAccs_frame {K : Keep} (s : State) (_ : K.glob = false := by assumption) (_ : K.clr = false := by
    assumption) (_ : K.cal = false := by assumption) (_ : K.err = false := by assumption) (_ : K.rings = false := by
    assumption) (_ : K.que = false := by assumption) (_ : K.queues = false := by assumption) (_ : K.tasks = false := by
    assumption) (_ : K.acc = false := by assumption) (_ : K.accNext = false := by assumption) (_ : K.xlt = false := by
    assumption) (_ : K.tbl = false := by assumption) (_ : K.sch = false := by assumption) (_ : K.ls = false := by assumption)
    (_ : K.bar = false := by assumption) (_ : K.qwin = false := by assumption) (_ : K.xwin = false := by assumption) (_ :
    K.gwin = false := by assumption) (_ : K.swin = false := by assumption) (_ : K.pwin = false := by assumption) (_ : K.cc =
    false := by assumption) (_ : K.out = false := by assumption) : obs K (issueAccs s) = obs K s :=
  by simp [issueAccs, *]

@[simp] theorem accMemory_frame {K : Keep} (s : State) (id : Nat) (write : Bool) (bad : Bool) (granule : List Byte) (_ :
    K.glob = false := by assumption) (_ : K.clr = false := by assumption) (_ : K.err = false := by assumption) (_ : K.rings =
    false := by assumption) (_ : K.que = false := by assumption) (_ : K.queues = false := by assumption) (_ : K.tasks = false
    := by assumption) (_ : K.acc = false := by assumption) (_ : K.accNext = false := by assumption) (_ : K.tbl = false := by
    assumption) (_ : K.sch = false := by assumption) (_ : K.bar = false := by assumption) (_ : K.qwin = false := by
    assumption) (_ : K.xwin = false := by assumption) (_ : K.gwin = false := by assumption) (_ : K.swin = false := by
    assumption) (_ : K.pwin = false := by assumption) (_ : K.cc = false := by assumption) (_ : K.out = false := by assumption)
    : obs K (accMemory s id write bad granule) = obs K s := by
  unfold accMemory
  try dsimp only
  repeat' first
    | with_reducible rfl
    | (simp only [answerAcc_frame, *, obs_ite, ite_self]; done)
    | split

@[simp] theorem accFabric_frame {K : Keep} (s : State) (id : Nat) (status : Nat) (granule : List Byte) (_ : K.glob = false :=
    by assumption) (_ : K.clr = false := by assumption) (_ : K.err = false := by assumption) (_ : K.rings = false := by
    assumption) (_ : K.que = false := by assumption) (_ : K.queues = false := by assumption) (_ : K.tasks = false := by
    assumption) (_ : K.acc = false := by assumption) (_ : K.accNext = false := by assumption) (_ : K.tbl = false := by
    assumption) (_ : K.sch = false := by assumption) (_ : K.bar = false := by assumption) (_ : K.qwin = false := by
    assumption) (_ : K.xwin = false := by assumption) (_ : K.gwin = false := by assumption) (_ : K.swin = false := by
    assumption) (_ : K.pwin = false := by assumption) (_ : K.cc = false := by assumption) (_ : K.out = false := by assumption)
    : obs K (accFabric s id status granule) = obs K s := by
  unfold accFabric
  try dsimp only
  repeat' first
    | with_reducible rfl
    | (simp only [countRemote_frame, answerAcc_frame, *, obs_ite, ite_self]; done)
    | split

theorem execHostReadCompletion_frame {K : Keep} (tag : Nat) (st : HostStatus) (data : List Byte) (s : State) (_ : K.glob =
    false := by assumption) (_ : K.clr = false := by assumption) (_ : K.err = false := by assumption) (_ : K.rings = false :=
    by assumption) (_ : K.que = false := by assumption) (_ : K.queues = false := by assumption) (_ : K.tasks = false := by
    assumption) (_ : K.acc = false := by assumption) (_ : K.accNext = false := by assumption) (_ : K.xlt = false := by
    assumption) (_ : K.tbl = false := by assumption) (_ : K.sch = false := by assumption) (_ : K.bar = false := by assumption)
    (_ : K.qwin = false := by assumption) (_ : K.xwin = false := by assumption) (_ : K.gwin = false := by assumption) (_ :
    K.swin = false := by assumption) (_ : K.pwin = false := by assumption) (_ : K.cc = false := by assumption) (_ : K.out =
    false := by assumption) : ∃ out, execHostReadCompletion tag st data s = .next out ∧ obs K out = obs K s :=
  ⟨_, rfl, by simp [*]⟩

theorem execTranslationCompletion_frame {K : Keep} (tag : Nat) (r : AtsReply) (s : State) (_ : K.glob = false := by
    assumption) (_ : K.clr = false := by assumption) (_ : K.err = false := by assumption) (_ : K.rings = false := by
    assumption) (_ : K.que = false := by assumption) (_ : K.queues = false := by assumption) (_ : K.tasks = false := by
    assumption) (_ : K.acc = false := by assumption) (_ : K.accNext = false := by assumption) (_ : K.xlt = false := by
    assumption) (_ : K.tbl = false := by assumption) (_ : K.sch = false := by assumption) (_ : K.bar = false := by assumption)
    (_ : K.qwin = false := by assumption) (_ : K.xwin = false := by assumption) (_ : K.gwin = false := by assumption) (_ :
    K.swin = false := by assumption) (_ : K.pwin = false := by assumption) (_ : K.cc = false := by assumption) (_ : K.out =
    false := by assumption) : ∃ out, execTranslationCompletion tag r s = .next out ∧ obs K out = obs K s :=
  ⟨_, rfl, by simp [*]⟩

theorem execAtsInvalidate_frame {K : Keep} (func : Nat) (pasid : Option Nat) (itag : Nat) (s : State) (_ : K.acc = false := by
    assumption) (_ : K.xlt = false := by assumption) (_ : K.out = false := by assumption) : ∃ out, execAtsInvalidate func
    pasid itag s = .next out ∧ obs K out = obs K s :=
  ⟨_, rfl, by simp [*]⟩

theorem execInvalidateDrained_frame {K : Keep} (func : Nat) (itag : Nat) (s : State) (_ : K.xlt = false := by assumption) (_ :
    K.out = false := by assumption) : ∃ out, execInvalidateDrained func itag s = .next out ∧ obs K out = obs K s :=
  ⟨_, rfl, by simp [*]⟩

theorem execPrgResponse_frame {K : Keep} (func : Nat) (pasid : Nat) (index : Nat) (code : Nat) (s : State) (_ : K.glob = false
    := by assumption) (_ : K.clr = false := by assumption) (_ : K.err = false := by assumption) (_ : K.rings = false := by
    assumption) (_ : K.que = false := by assumption) (_ : K.queues = false := by assumption) (_ : K.tasks = false := by
    assumption) (_ : K.acc = false := by assumption) (_ : K.accNext = false := by assumption) (_ : K.xlt = false := by
    assumption) (_ : K.tbl = false := by assumption) (_ : K.sch = false := by assumption) (_ : K.bar = false := by assumption)
    (_ : K.qwin = false := by assumption) (_ : K.xwin = false := by assumption) (_ : K.gwin = false := by assumption) (_ :
    K.swin = false := by assumption) (_ : K.pwin = false := by assumption) (_ : K.cc = false := by assumption) (_ : K.out =
    false := by assumption) : ∃ out, execPrgResponse func pasid index code s = .next out ∧ obs K out = obs K s :=
  ⟨_, rfl, by simp [*]⟩

theorem execPageRequestTimeout_frame {K : Keep} (func : Nat) (index : Nat) (s : State) (_ : K.glob = false := by assumption)
    (_ : K.clr = false := by assumption) (_ : K.err = false := by assumption) (_ : K.rings = false := by assumption) (_ :
    K.que = false := by assumption) (_ : K.queues = false := by assumption) (_ : K.tasks = false := by assumption) (_ : K.acc
    = false := by assumption) (_ : K.accNext = false := by assumption) (_ : K.xlt = false := by assumption) (_ : K.tbl = false
    := by assumption) (_ : K.sch = false := by assumption) (_ : K.bar = false := by assumption) (_ : K.qwin = false := by
    assumption) (_ : K.xwin = false := by assumption) (_ : K.gwin = false := by assumption) (_ : K.swin = false := by
    assumption) (_ : K.pwin = false := by assumption) (_ : K.cc = false := by assumption) (_ : K.out = false := by assumption)
    : ∃ out, execPageRequestTimeout func index s = .next out ∧ obs K out = obs K s :=
  ⟨_, rfl, by simp [*]⟩

theorem execPageRequestInterfaceReset_frame {K : Keep} (func : Nat) (s : State) (_ : K.xlt = false := by assumption) : ∃ out,
    execPageRequestInterfaceReset func s = .next out ∧ obs K out = obs K s :=
  ⟨_, rfl, by simp [*]⟩

/-! Operands. -/

@[simp] theorem checked_frame {K : Keep} (cs : List (Bool × Code)) (s : State) (effect : Unit → State) (h : obs K (effect ())
    = obs K s) : obs K (checked cs s effect).2 = obs K s := by
  unfold checked
  split
  · rfl
  · exact h

@[simp] theorem globalCmd_frame {K : Keep} (q : Requester) (s : State) (body : State → Checked) (h : obs K (body s).2 = obs K
    s) (_ : K.glob = false := by trivial) (_ : K.win = false := by trivial) : obs K (globalCmd q s body) = obs K s := by
  unfold globalCmd
  (repeat' split) <;> simp [*]

@[simp] theorem windowCmd_frame {K : Keep} (q : Requester) (n : Nat) (s : State) (body : State → Checked) (h : obs K (body
    s).2 = obs K s) (_ : K.glob = false := by trivial) (_ : K.win = false := by trivial) : obs K (windowCmd q n s body) = obs
    K s := by
  unfold windowCmd
  (repeat' split) <;> simp [*]

@[simp] theorem anyWindowCmd_frame {K : Keep} (q : Requester) (n : Option Nat) (s : State) (body : State → Checked) (h : obs K
    (body s).2 = obs K s) (_ : K.glob = false := by trivial) (_ : K.win = false := by trivial) : obs K (anyWindowCmd q n s
    body) = obs K s := by
  unfold anyWindowCmd
  (repeat' split) <;> simp [*]

end Sys2Proof.Machine
end

