-- ==== Sys2Proof/Laws/FrameWork.lean ====
section
/-! SUPPORT. Which fields of the state each operation leaves as they were: the calendar, queues, envelopes, jobs, transfers and keys. A field set `K` that leaves out
what the operation changes is observed alike before and after. -/

namespace Sys2Proof.Machine

set_option Elab.async false
set_option linter.unusedTactic false
set_option linter.unreachableTactic false

/-! RemapOps. -/

@[simp] theorem lateCause_frame {K : Keep} (s : State) (b : Nat) (_ : K.cal = false := by assumption) : obs K (lateCause s b)
    = obs K s :=
  by simp [lateCause, *]

@[simp] theorem heldNow_frame {K : Keep} (s : State) (p : Nat) (_ : K.cal = false := by assumption) : obs K (heldNow s p) =
    obs K s :=
  by simp [heldNow, *]

@[simp] theorem killInflight_frame {K : Keep} (s : State) (h : Nat) (_ : K.cal = false := by assumption) : obs K (killInflight
    s h) = obs K s :=
  by simp [killInflight, *]

@[simp] theorem reinsert_frame {K : Keep} (s : State) (p : Nat) (r : MemReq) (_ : K.cal = false := by assumption) : obs K
    (reinsert s p r) = obs K s := by
  unfold reinsert
  try dsimp only
  repeat' first
    | with_reducible rfl
    | (simp only [updPch_frame, *, obs_ite, ite_self]; done)
    | split

@[simp] theorem remapRec_frame {K : Keep} (s : State) (h : Nat) (g : Nat) (cause : Nat) (done : Nat) (_ : K.err = false := by
    assumption) (_ : K.rings = false := by assumption) : obs K (remapRec s h g cause done) = obs K s :=
  by simp [remapRec, *]

@[simp] theorem degradeAll_frame {K : Keep} (s : State) (_ : K.clr = false := by assumption) : obs K (degradeAll s) = obs K s
    :=
  by simp [degradeAll, *]

@[simp] theorem overcommitNow_frame {K : Keep} (s : State) (_ : K.cal = false := by assumption) : obs K (overcommitNow s) =
    obs K s :=
  by simp [overcommitNow, *]

@[simp] theorem afterRemap_frame {K : Keep} (s : State) (_ : K.clr = false := by assumption) (_ : K.cal = false := by
    assumption) : obs K (afterRemap s) = obs K s :=
  by simp [afterRemap, *]

@[simp] theorem cutMargin_frame {K : Keep} (s : State) (p : Nat) (_ : K.cal = false := by assumption) : obs K (cutMargin s p)
    = obs K s :=
  by simp [cutMargin, *]

@[simp] theorem beginRemap_frame {K : Keep} (s : State) (h : Nat) (g : Nat) (cause : Nat) (_ : K.clr = false := by assumption)
    (_ : K.cal = false := by assumption) (_ : K.err = false := by assumption) (_ : K.rings = false := by assumption) : obs K
    (beginRemap s h g cause) = obs K s := by
  unfold beginRemap
  dsimp only
  simp only [cutMargin_frame, killInflight_frame, updPch_frame, reinsert_frame, afterRemap_frame, degradeAll_frame,
    remapRec_frame, *, forEach_frame, implies_true]

@[simp] theorem markDeviceFault_frame {K : Keep} (s : State) (c : Code) (_ : K.err = false := by trivial) (_ : K.rings = false
    := by trivial) : obs K (markDeviceFault s c) = obs K s := by
  unfold markDeviceFault
  rw [raiseWide_frame, obs_set_err]

@[simp] theorem triggerDump_frame {K : Keep} (s : State) (c : Code) (_ : K.err = false := by assumption) : obs K (triggerDump
    s c) = obs K s :=
  by simp [triggerDump, *]

@[simp] theorem unhost_frame {K : Keep} (s : State) (h : Nat) (g : Nat) (_ : K.cal = false := by assumption) : obs K (unhost s
    h g) = obs K s := by
  unfold unhost
  dsimp only
  simp only [updPch_frame, *]

@[simp] theorem makeUnreachable_frame {K : Keep} (s : State) (p : Nat) (cause : Nat) (_ : K.clr = false := by assumption) (_ :
    K.cal = false := by assumption) (_ : K.err = false := by assumption) (_ : K.rings = false := by assumption) : obs K
    (makeUnreachable s p cause) = obs K s :=
  by simp [makeUnreachable, *]

@[simp] theorem countHold_frame {K : Keep} (s : State) (p : Nat) (_ : K.cal = false := by assumption) (_ : K.cc = false := by
    assumption) : obs K (countHold s p) = obs K s :=
  by simp [countHold, *]

@[simp] theorem failPch_frame {K : Keep} (s : State) (p : Nat) (cause : Nat) (_ : K.clr = false := by assumption) (_ : K.cal =
    false := by assumption) (_ : K.err = false := by assumption) (_ : K.rings = false := by assumption) (_ : K.cc = false :=
    by assumption) : obs K (failPch s p cause) = obs K s :=
  by simp [failPch, *]

@[simp] theorem remapByRanger_frame {K : Keep} (s : State) (p : Nat) (_ : K.clr = false := by assumption) (_ : K.cal = false
    := by assumption) (_ : K.err = false := by assumption) (_ : K.rings = false := by assumption) (_ : K.cc = false := by
    assumption) : obs K (remapByRanger s p) = obs K s :=
  by simp [remapByRanger, *]

@[simp] theorem dropFrom_frame {K : Keep} (s : State) (g : Nat) (r : MemReq) (_ : K.cal = false := by assumption) : obs K
    (dropFrom s g r) = obs K s :=
  by simp [dropFrom, *]

@[simp] theorem moveHome_frame {K : Keep} (s : State) (h : Nat) (g : Nat) (_ : K.cal = false := by assumption) : obs K
    (moveHome s h g) = obs K s := by
  unfold moveHome
  try dsimp only
  repeat' first
    | with_reducible rfl
    | (simp only [reinsert_frame, dropFrom_frame, *]; done)
    | with_reducible refine (forEach_frame _ _ _ fun _ _ => ?_).trans ?_
    | split

@[simp] theorem endRemap_frame {K : Keep} (s : State) (h : Nat) (_ : K.clr = false := by assumption) (_ : K.cal = false := by
    assumption) (_ : K.err = false := by assumption) (_ : K.rings = false := by assumption) : obs K (endRemap s h) = obs K s
    :=
  by simp [endRemap, *]

@[simp] theorem guestBoundary_frame {K : Keep} (s : State) (_ : K.clr = false := by assumption) (_ : K.cal = false := by
    assumption) (_ : K.err = false := by assumption) (_ : K.rings = false := by assumption) (_ : K.cc = false := by
    assumption) : obs K (guestBoundary s) = obs K s := by
  unfold guestBoundary
  try dsimp only
  repeat' first
    | with_reducible rfl
    | (simp only [updCal_frame, remapByRanger_frame, endRemap_frame, *, obs_ite, ite_self]; done)
    | split

@[simp] theorem drainRestored_frame {K : Keep} (s : State) (_ : K.cal = false := by assumption) : obs K (drainRestored s) =
    obs K s := by
  unfold drainRestored
  try dsimp only
  repeat' first
    | with_reducible rfl
    | (simp only [moveHome_frame, *, obs_ite, ite_self, forEach_frame, implies_true]; done)
    | with_reducible refine (forEach_frame _ _ _ fun _ _ => ?_).trans ?_
    | split

@[simp] theorem guestCommand_frame {K : Keep} (q : Requester) (w : Word) (s : State) (_ : K.glob = false := by trivial) (_ :
    K.win = false := by trivial) (_ : K.cal = false := by trivial) : obs K (guestCommand q w s) = obs K s := by
  unfold guestCommand
  refine globalCmd_frame q s _ ?_
  dsimp only
  split
  · exact checked_frame _ _ _ (updCal_frame s _)
  · exact updCal_frame s _

@[simp] theorem marginCommand_frame {K : Keep} (q : Requester) (w : Word) (s : State) (_ : K.glob = false := by assumption) (_
    : K.win = false := by assumption) (_ : K.cal = false := by assumption) (_ : K.out = false := by assumption) : obs K
    (marginCommand q w s) = obs K s := by
  unfold marginCommand
  refine globalCmd_frame _ _ _ (checked_frame _ _ _ ?_)
  simp [*]

/-! CalendarCmds. -/

@[simp] theorem ibWires_frame {K : Keep} (s : State) (held : List Nat) (_ : K.sch = false := by assumption) : obs K (ibWires s
    held) = obs K s :=
  by simp [ibWires, *]

@[simp] theorem pchFails_frame {K : Keep} (s : State) (p : Nat) (cause : Nat) (_ : K.boot = false := by assumption) (_ : K.clr
    = false := by assumption) (_ : K.cal = false := by assumption) (_ : K.err = false := by assumption) (_ : K.rings = false
    := by assumption) (_ : K.cc = false := by assumption) : obs K (pchFails s p cause) = obs K s :=
  by simp [pchFails, *]

@[simp] theorem holdLimits_frame {K : Keep} (s : State) (_ : K.boot = false := by assumption) (_ : K.clr = false := by
    assumption) (_ : K.cal = false := by assumption) (_ : K.err = false := by assumption) (_ : K.rings = false := by
    assumption) (_ : K.cc = false := by assumption) : obs K (holdLimits s) = obs K s :=
  by simp [holdLimits, *]

@[simp] theorem calendarPhase_frame {K : Keep} (w : PhaseWires) (s : State) (_ : K.clk = false := by assumption) (_ : K.boot =
    false := by assumption) (_ : K.img = false := by assumption) (_ : K.clr = false := by assumption) (_ : K.cal = false := by
    assumption) (_ : K.err = false := by assumption) (_ : K.rings = false := by assumption) (_ : K.tasks = false := by
    assumption) (_ : K.sch = false := by assumption) (_ : K.gwin = false := by assumption) (_ : K.cc = false := by assumption)
    (_ : K.out = false := by assumption) : obs K (calendarPhase w s) = obs K s := by
  unfold calendarPhase
  try dsimp only
  repeat' first
    | with_reducible rfl
    | (simp only [drainRestored_frame, holdLimits_frame, phaseStartup_frame, obs_set_clk, *,
       obs_ite, ite_self, forEach_frame, implies_true]; done)
    | with_reducible refine (forEach_frame _ _ _ fun _ _ => ?_).trans ?_
    | split
    | (simp [*]; done)

theorem execCalendarPhase_frame {K : Keep} (wires : PhaseWires) (s : State) (_ : K.clk = false := by assumption) (_ : K.boot =
    false := by assumption) (_ : K.img = false := by assumption) (_ : K.clr = false := by assumption) (_ : K.cal = false := by
    assumption) (_ : K.err = false := by assumption) (_ : K.rings = false := by assumption) (_ : K.tasks = false := by
    assumption) (_ : K.sch = false := by assumption) (_ : K.gwin = false := by assumption) (_ : K.cc = false := by assumption)
    (_ : K.out = false := by assumption) : ∃ out, execCalendarPhase wires s = .next out ∧ obs K out = obs K s :=
  ⟨_, rfl, by simp [*]⟩

@[simp] theorem standingCauses_frame {K : Keep} (s : State) (_ : K.cal = false := by assumption) : obs K (standingCauses s) =
    obs K s :=
  by simp [standingCauses, *]

@[simp] theorem markHeld_frame {K : Keep} (s : State) (p : Nat) (_ : K.cal = false := by assumption) : obs K (markHeld s p) =
    obs K s :=
  by simp [markHeld, *]

@[simp] theorem holdBegin_frame {K : Keep} (s : State) (p : Nat) (_ : K.boot = false := by assumption) (_ : K.clr = false :=
    by assumption) (_ : K.cal = false := by assumption) (_ : K.err = false := by assumption) (_ : K.rings = false := by
    assumption) (_ : K.cc = false := by assumption) : obs K (holdBegin s p) = obs K s := by
  unfold holdBegin
  dsimp only
  simp only [updPch_frame, markHeld_frame, lateCause_frame, pchFails_frame, *, obs_ite, ite_self]

theorem execHoldBegin_frame {K : Keep} (p : Nat) (s : State) (_ : K.boot = false := by assumption) (_ : K.clr = false := by
    assumption) (_ : K.cal = false := by assumption) (_ : K.err = false := by assumption) (_ : K.rings = false := by
    assumption) (_ : K.cc = false := by assumption) : ∃ out, execHoldBegin p s = .next out ∧ obs K out = obs K s :=
  ⟨_, rfl, by simp [*]⟩

@[simp] theorem holdEnd_frame {K : Keep} (s : State) (p : Nat) (_ : K.cal = false := by assumption) (_ : K.cc = false := by
    assumption) : obs K (holdEnd s p) = obs K s :=
  by simp [holdEnd, *]

theorem execHoldEnd_frame {K : Keep} (p : Nat) (s : State) (_ : K.cal = false := by assumption) (_ : K.cc = false := by
    assumption) : ∃ out, execHoldEnd p s = .next out ∧ obs K out = obs K s :=
  ⟨_, rfl, by simp [*]⟩

theorem execHoldLimit_frame {K : Keep} (p : Nat) (s : State) (_ : K.boot = false := by assumption) (_ : K.clr = false := by
    assumption) (_ : K.cal = false := by assumption) (_ : K.err = false := by assumption) (_ : K.rings = false := by
    assumption) (_ : K.cc = false := by assumption) : ∃ out, execHoldLimit p s = .next out ∧ obs K out = obs K s :=
  ⟨_, rfl, by simp [*]⟩

@[simp] theorem pchFailLevel_frame {K : Keep} (s : State) (p : Nat) (level : Bool) (_ : K.boot = false := by assumption) (_ :
    K.clr = false := by assumption) (_ : K.cal = false := by assumption) (_ : K.err = false := by assumption) (_ : K.rings =
    false := by assumption) (_ : K.cc = false := by assumption) : obs K (pchFailLevel s p level) = obs K s :=
  by simp [pchFailLevel, *]

theorem execPchFail_frame {K : Keep} (p : Nat) (level : Bool) (s : State) (_ : K.boot = false := by assumption) (_ : K.clr =
    false := by assumption) (_ : K.cal = false := by assumption) (_ : K.err = false := by assumption) (_ : K.rings = false :=
    by assumption) (_ : K.cc = false := by assumption) : ∃ out, execPchFail p level s = .next out ∧ obs K out = obs K s :=
  ⟨_, rfl, by simp [*]⟩

theorem execRemap_frame {K : Keep} (q : Requester) (w : Word) (s : State) (_ : K.glob = false := by assumption) (_ : K.win =
    false := by assumption) (_ : K.cal = false := by assumption) : ∃ out, execRemap q w s = .next out ∧ obs K out = obs K s :=
  ⟨_, rfl, by simp [*]⟩

theorem execRestore_frame {K : Keep} (q : Requester) (w : Word) (s : State) (_ : K.glob = false := by assumption) (_ : K.win =
    false := by assumption) (_ : K.cal = false := by assumption) : ∃ out, execRestore q w s = .next out ∧ obs K out = obs K s
    :=
  ⟨_, rfl, by simp [*]⟩

theorem execMarginingRequest_frame {K : Keep} (q : Requester) (w : Word) (s : State) (_ : K.glob = false := by assumption) (_
    : K.win = false := by assumption) (_ : K.cal = false := by assumption) (_ : K.out = false := by assumption) : ∃ out,
    execMarginingRequest q w s = .next out ∧ obs K out = obs K s :=
  ⟨_, rfl, by simp [*]⟩

@[simp] theorem marginResponse_frame {K : Keep} (s : State) (stack : Nat) (rsp : BitVec 32) (_ : K.cal = false := by
    assumption) : obs K (marginResponse s stack rsp) = obs K s :=
  by simp [marginResponse, *]

theorem execMarginingResponse_frame {K : Keep} (stack : Nat) (rsp : BitVec 32) (s : State) (_ : K.cal = false := by
    assumption) : ∃ out, execMarginingResponse stack rsp s = .next out ∧ obs K out = obs K s :=
  ⟨_, rfl, by simp [*]⟩

@[simp] theorem acceptTun_frame {K : Keep} (s : State) (n : Nat) (t : Tunables) (_ : K.clr = false := by assumption) : obs K
    (acceptTun s n t) = obs K s :=
  by simp [acceptTun, *]

@[simp] theorem elaClass_frame {K : Keep} (q : Requester) (n : Nat) (c : Nat) (w : Word) (s : State) (_ : K.glob = false := by
    assumption) (_ : K.clr = false := by assumption) (_ : K.win = false := by assumption) : obs K (elaClass q n c w s) = obs K
    s := by
  unfold elaClass
  refine globalCmd_frame _ _ _ (checked_frame _ _ _ ?_)
  simp [*]

theorem execElaClassWrite_frame {K : Keep} (q : Requester) (n : Nat) (c : Nat) (w : Word) (s : State) (_ : K.glob = false :=
    by assumption) (_ : K.clr = false := by assumption) (_ : K.win = false := by assumption) : ∃ out, execElaClassWrite q n c
    w s = .next out ∧ obs K out = obs K s :=
  ⟨_, rfl, by simp [*]⟩

@[simp] theorem elaCtrl_frame {K : Keep} (q : Requester) (n : Nat) (w : Word) (s : State) (_ : K.glob = false := by
    assumption) (_ : K.clr = false := by assumption) (_ : K.win = false := by assumption) : obs K (elaCtrl q n w s) = obs K s
    := by
  unfold elaCtrl
  refine globalCmd_frame _ _ _ (checked_frame _ _ _ ?_)
  simp [*]

theorem execElaCtrlWrite_frame {K : Keep} (q : Requester) (n : Nat) (w : Word) (s : State) (_ : K.glob = false := by
    assumption) (_ : K.clr = false := by assumption) (_ : K.win = false := by assumption) : ∃ out, execElaCtrlWrite q n w s =
    .next out ∧ obs K out = obs K s :=
  ⟨_, rfl, by simp [*]⟩

@[simp] theorem driveUrgency_frame {K : Keep} (s : State) (_ : K.sch = false := by assumption) (_ : K.out = false := by
    assumption) : obs K (driveUrgency s) = obs K s :=
  by simp [driveUrgency, *]

@[simp] theorem resetTun_frame {K : Keep} (s : State) (n : Nat) (_ : K.clr = false := by assumption) : obs K (resetTun s n) =
    obs K s :=
  by simp [resetTun, *]

@[simp] theorem resetMeas_frame {K : Keep} (s : State) (n : Nat) (_ : K.clr = false := by assumption) : obs K (resetMeas s n)
    = obs K s :=
  by simp [resetMeas, *]

@[simp] theorem tunBoundary_frame {K : Keep} (s : State) (n : Nat) (_ : K.clr = false := by assumption) : obs K (tunBoundary s
    n).1 = obs K s := by
  unfold tunBoundary
  try dsimp only
  repeat' first
    | with_reducible rfl
    | (simp only [updClr_frame, *]; done)
    | split

/-! QueueOps. -/

@[simp] theorem pushOwn_frame {K : Keep} (s : State) (r : MemReq) (_ : K.que = false := by assumption) : obs K (pushOwn s r) =
    obs K s :=
  by simp [pushOwn, *]

@[simp] theorem issueOwn_frame {K : Keep} (s : State) (_ : K.clr = false := by trivial) (_ : K.cal = false := by trivial) (_ :
    K.que = false := by trivial) : obs K (issueOwn s) = obs K s := by
  unfold issueOwn
  refine forEach_frame _ _ _ fun s r => ?_
  split
  · rfl
  · split
    · split
      · rfl
      · next h => exact (updQue_frame _ _).trans (enterStore_frame _ _ _ h)
    · rfl

@[simp] theorem touchQueue_frame {K : Keep} (s : State) (q : Nat) (_ : K.que = false := by assumption) : obs K (touchQueue s
    q) = obs K s :=
  by simp [touchQueue, *]

@[simp] theorem pushPending_frame {K : Keep} (s : State) (q : Nat) (_ : K.que = false := by assumption) : obs K (pushPending s
    q) = obs K s :=
  by simp [pushPending, *]

@[simp] theorem fifoPut_frame {K : Keep} (s : State) (q : Nat) (w : Word) (_ : K.que = false := by assumption) (_ : K.queues =
    false := by assumption) : obs K (fifoPut s q w) = obs K s := by
  unfold fifoPut
  dsimp only
  simp only [updQue_frame, pushOwn_frame, pushPending_frame, updQueue_frame, *, obs_ite, ite_self]

@[simp] theorem descArrived_frame {K : Keep} (s : State) (q : Nat) (_ : K.que = false := by assumption) : obs K (descArrived s
    q) = obs K s :=
  by simp [descArrived, *]

@[simp] theorem evict_frame {K : Keep} (s : State) (q : Nat) (_ : K.que = false := by assumption) (_ : K.queues = false := by
    assumption) (_ : K.acc = false := by assumption) : obs K (evict s q) = obs K s := by
  unfold evict
  dsimp only
  simp only [updQue_frame, updQueue_frame, dropClient_frame, pushOwn_frame, fifoPut_frame, *, obs_ite,
    ite_self]

theorem enterCache_frame {K : Keep} (s : State) (q : Nat) (t : State) (h : enterCache s q = some t) (_ : K.que = false := by
    trivial) (_ : K.queues = false := by trivial) (_ : K.acc = false := by trivial) : obs K t = obs K s := by
  unfold enterCache at h
  split at h
  · cases h; simp [*]
  · split at h
    · cases h
    · split at h
      · cases h; simp [*]
      · obtain ⟨v, -, rfl⟩ := Option.map_eq_some_iff.mp h
        simp [*]

@[simp] theorem dbRefuse_frame {K : Keep} (s : State) (q : Nat) (c : Code) (_ : K.qwin = false := by assumption) : obs K
    (dbRefuse s q c) = obs K s := by
  unfold dbRefuse
  try dsimp only
  repeat' first
    | with_reducible rfl
    | (simp only [updQwin_frame, *]; done)
    | split

@[simp] theorem dbApply_frame {K : Keep} (s : State) (q : Nat) (w : Word) (_ : K.queues = false := by assumption) (_ : K.qwin
    = false := by assumption) : obs K (dbApply s q w) = obs K s := by
  unfold dbApply
  dsimp only
  simp only [dbRefuse_frame, updQueue_frame, *, obs_ite, ite_self]

@[simp] theorem unspillAll_frame {K : Keep} (s : State) (_ : K.que = false := by assumption) (_ : K.queues = false := by
    assumption) : obs K (unspillAll s) = obs K s :=
  by simp [unspillAll, *]

@[simp] theorem ringAhead_frame {K : Keep} (s : State) (q : Nat) (_ : K.xlt = false := by assumption) (_ : K.xwin = false :=
    by assumption) (_ : K.out = false := by assumption) : obs K (ringAhead s q) = obs K s := by
  unfold ringAhead
  dsimp only
  split
  · rfl
  · simp [*]

@[simp] theorem doorbellApply_frame {K : Keep} (s : State) (q : Nat) (_ : K.que = false := by assumption) (_ : K.queues =
    false := by assumption) (_ : K.acc = false := by assumption) (_ : K.xlt = false := by assumption) (_ : K.qwin = false :=
    by assumption) (_ : K.xwin = false := by assumption) (_ : K.out = false := by assumption) : obs K (doorbellApply s q) =
    obs K s := by
  unfold doorbellApply
  split
  · rfl
  · split
    · rfl
    · split
      · rfl
      · next h => simpa [*] using enterCache_frame (K := K) _ _ _ h

theorem execDoorbellApply_frame {K : Keep} (queue : Nat) (s : State) (_ : K.que = false := by assumption) (_ : K.queues =
    false := by assumption) (_ : K.acc = false := by assumption) (_ : K.xlt = false := by assumption) (_ : K.qwin = false :=
    by assumption) (_ : K.xwin = false := by assumption) (_ : K.out = false := by assumption) : ∃ out, execDoorbellApply queue
    s = .next out ∧ obs K out = obs K s :=
  ⟨_, rfl, by simp [*]⟩

@[simp] theorem doorbellWrite_frame {K : Keep} (rq : Requester) (p : Nat) (d : Nat) (w : Word) (s : State) (_ : K.glob = false
    := by assumption) (_ : K.win = false := by assumption) (_ : K.que = false := by assumption) (_ : K.queues = false := by
    assumption) (_ : K.qwin = false := by assumption) : obs K (doorbellWrite rq p d w s) = obs K s := by
  unfold doorbellWrite
  try dsimp only
  repeat' first
    | with_reducible rfl
    | (simp only [recordStatus_frame, dbApply_frame, touchQueue_frame, updQue_frame, fifoPut_frame, *, obs_ite, ite_self]; done)
    | split

@[simp] theorem refuseHead_frame {K : Keep} (s : State) (q : Nat) (codes : List Code) (_ : K.queues = false := by assumption)
    (_ : K.tasks = false := by assumption) (_ : K.qwin = false := by assumption) : obs K (refuseHead s q codes) = obs K s :=
  by simp [refuseHead, *]

@[simp] theorem fetchStart_frame {K : Keep} (s : State) (q : Nat) (_ : K.queues = false := by assumption) (_ : K.acc = false
    := by assumption) (_ : K.accNext = false := by assumption) : obs K (fetchStart s q) = obs K s := by
  unfold fetchStart
  try dsimp only
  repeat' first
    | with_reducible rfl
    | (simp only [updQueue_frame, newAcc_frame, *, obs_ite, ite_self, forEach_frame, implies_true]; done)
    | split

@[simp] theorem oversizeHead_frame {K : Keep} (s : State) (q : Nat) (_ : K.queues = false := by assumption) (_ : K.tasks =
    false := by assumption) (_ : K.qwin = false := by assumption) : obs K (oversizeHead s q) = obs K s := by
  unfold oversizeHead
  try dsimp only
  repeat' first
    | with_reducible rfl
    | (simp only [refuseHead_frame, *, obs_ite, ite_self]; done)
    | split

@[simp] theorem fetchArrive_frame {K : Keep} (s : State) (q : Nat) (r : HostRead) (_ : K.err = false := by assumption) (_ :
    K.rings = false := by assumption) (_ : K.queues = false := by assumption) (_ : K.tasks = false := by assumption) (_ :
    K.acc = false := by assumption) (_ : K.qwin = false := by assumption) : obs K (fetchArrive s q r) = obs K s := by
  unfold fetchArrive
  try dsimp only
  repeat' first
    | with_reducible rfl
    | (simp only [fetchFailed_frame, dropClient_frame, updQueue_frame, oversizeHead_frame, *]; done)
    | split

theorem execEnvelopeFetch_frame {K : Keep} (queue : Nat) (r : HostRead) (s : State) (_ : K.err = false := by assumption) (_ :
    K.rings = false := by assumption) (_ : K.queues = false := by assumption) (_ : K.tasks = false := by assumption) (_ :
    K.acc = false := by assumption) (_ : K.qwin = false := by assumption) : ∃ out, execEnvelopeFetch queue r s = .next out ∧
    obs K out = obs K s :=
  ⟨_, rfl, by simp [*]⟩

@[simp] theorem fetchSettle_frame {K : Keep} (s : State) (q : Nat) (_ : K.err = false := by assumption) (_ : K.rings = false
    := by assumption) (_ : K.queues = false := by assumption) (_ : K.tasks = false := by assumption) (_ : K.acc = false := by
    assumption) (_ : K.qwin = false := by assumption) : obs K (fetchSettle s q) = obs K s :=
  by simp [fetchSettle, *]

@[simp] theorem cplStart_frame {K : Keep} (s : State) (q : Nat) (_ : K.queues = false := by assumption) (_ : K.acc = false :=
    by assumption) (_ : K.accNext = false := by assumption) : obs K (cplStart s q) = obs K s := by
  unfold cplStart
  try dsimp only
  repeat' first
    | with_reducible rfl
    | (simp only [updQueue_frame, newAcc_frame, *, obs_ite, ite_self]; done)
    | split

@[simp] theorem queuesTurn_frame {K : Keep} (s : State) (_ : K.err = false := by assumption) (_ : K.rings = false := by
    assumption) (_ : K.queues = false := by assumption) (_ : K.tasks = false := by assumption) (_ : K.acc = false := by
    assumption) (_ : K.accNext = false := by assumption) (_ : K.qwin = false := by assumption) : obs K (queuesTurn s) = obs K
    s :=
  by simp [queuesTurn, *]

@[simp] theorem configQueue_frame {K : Keep} (s : State) (n : Nat) (q : Nat) (_ : K.queues = false := by assumption) : obs K
    (configQueue s n q) = obs K s := by
  unfold configQueue
  dsimp only
  simp only [updQueue_frame, *]

@[simp] theorem enableQueue_frame {K : Keep} (s : State) (q : Nat) (_ : K.queues = false := by assumption) : obs K
    (enableQueue s q) = obs K s :=
  by simp [enableQueue, *]

@[simp] theorem disableQueue_frame {K : Keep} (s : State) (q : Nat) (_ : K.queues = false := by assumption) (_ : K.tasks =
    false := by assumption) (_ : K.acc = false := by assumption) (_ : K.qwin = false := by assumption) : obs K (disableQueue s
    q) = obs K s :=
  by simp [disableQueue, *]

@[simp] theorem queCommand_frame {K : Keep} (rq : Requester) (n : Nat) (w : Word) (s : State) (_ : K.glob = false := by
    trivial) (_ : K.win = false := by trivial) (_ : K.queues = false := by trivial) (_ : K.tasks = false := by trivial) (_ :
    K.acc = false := by trivial) (_ : K.qwin = false := by trivial) : obs K (queCommand rq n w s) = obs K s := by
  unfold queCommand
  refine windowCmd_frame rq n s _ ((updQwin_frame _ _ _).trans (checked_frame _ _ _ ?_))
  split <;> simp [*]

theorem execQueConfig_frame {K : Keep} (q : Requester) (n : Nat) (w : Word) (s : State) (_ : K.glob = false := by assumption)
    (_ : K.win = false := by assumption) (_ : K.queues = false := by assumption) (_ : K.tasks = false := by assumption) (_ :
    K.acc = false := by assumption) (_ : K.qwin = false := by assumption) : ∃ out, execQueConfig q n w s = .next out ∧ obs K
    out = obs K s :=
  ⟨_, rfl, by simp [*]⟩

theorem execQueEnable_frame {K : Keep} (q : Requester) (n : Nat) (w : Word) (s : State) (_ : K.glob = false := by assumption)
    (_ : K.win = false := by assumption) (_ : K.queues = false := by assumption) (_ : K.tasks = false := by assumption) (_ :
    K.acc = false := by assumption) (_ : K.qwin = false := by assumption) : ∃ out, execQueEnable q n w s = .next out ∧ obs K
    out = obs K s :=
  ⟨_, rfl, by simp [*]⟩

theorem execQueDisable_frame {K : Keep} (q : Requester) (n : Nat) (w : Word) (s : State) (_ : K.glob = false := by assumption)
    (_ : K.win = false := by assumption) (_ : K.queues = false := by assumption) (_ : K.tasks = false := by assumption) (_ :
    K.acc = false := by assumption) (_ : K.qwin = false := by assumption) : ∃ out, execQueDisable q n w s = .next out ∧ obs K
    out = obs K s :=
  ⟨_, rfl, by simp [*]⟩

theorem execQueRead_frame {K : Keep} (q : Requester) (n : Nat) (w : Word) (s : State) (_ : K.glob = false := by assumption) (_
    : K.win = false := by assumption) (_ : K.queues = false := by assumption) (_ : K.tasks = false := by assumption) (_ :
    K.acc = false := by assumption) (_ : K.qwin = false := by assumption) : ∃ out, execQueRead q n w s = .next out ∧ obs K out
    = obs K s :=
  ⟨_, rfl, by simp [*]⟩

@[simp] theorem stmQuota_frame {K : Keep} (q : Requester) (n : Nat) (w : Word) (s : State) (_ : K.glob = false := by
    assumption) (_ : K.win = false := by assumption) (_ : K.que = false := by assumption) : obs K (stmQuota q n w s) = obs K s
    := by
  unfold stmQuota
  refine globalCmd_frame _ _ _ (checked_frame _ _ _ ?_)
  simp [*]

theorem execStmQuotaWrite_frame {K : Keep} (q : Requester) (n : Nat) (w : Word) (s : State) (_ : K.glob = false := by
    assumption) (_ : K.win = false := by assumption) (_ : K.que = false := by assumption) : ∃ out, execStmQuotaWrite q n w s =
    .next out ∧ obs K out = obs K s :=
  ⟨_, rfl, by simp [*]⟩

theorem execCoalesceTimeout_frame {K : Keep} (queue : Nat) (s : State) (_ : K.queues = false := by assumption) (_ : K.out =
    false := by assumption) : ∃ out, execCoalesceTimeout queue s = .next out ∧ obs K out = obs K s :=
  ⟨_, rfl, by simp [*]⟩

@[simp] theorem admitBatch_frame {K : Keep} (s : State) (q : Nat) (n : Nat) (bs : List (List Byte)) (_ : K.que = false := by
    assumption) (_ : K.queues = false := by assumption) (_ : K.tasks = false := by assumption) (_ : K.qwin = false := by
    assumption) : obs K (admitBatch s q n bs) = obs K s := by
  unfold admitBatch
  dsimp only
  simp only [updQueue_frame, stopWaiting_frame, updQwin_frame, updQue_frame, obs_set_tasks, *, forEach_frame, implies_true]

@[simp] theorem refuseBatch_frame {K : Keep} (s : State) (q : Nat) (n : Nat) (bs : List (List Byte)) (c : Code) (i : Nat) (_ :
    K.queues = false := by assumption) (_ : K.tasks = false := by assumption) (_ : K.qwin = false := by assumption) : obs K
    (refuseBatch s q n bs c i) = obs K s :=
  by simp [refuseBatch, *]

@[simp] theorem waitBatch_frame {K : Keep} (s : State) (q : Nat) (n : Nat) (bs : List (List Byte)) (_ : K.que = false := by
    assumption) (_ : K.queues = false := by assumption) (_ : K.qwin = false := by assumption) : obs K (waitBatch s q n bs) =
    obs K s :=
  by simp [waitBatch, *]

@[simp] theorem batchAdmit_frame {K : Keep} (s : State) (q : Nat) (_ : K.que = false := by assumption) (_ : K.queues = false
    := by assumption) (_ : K.tasks = false := by assumption) (_ : K.qwin = false := by assumption) : obs K (batchAdmit s q) =
    obs K s := by
  unfold batchAdmit
  try dsimp only
  repeat' first
    | with_reducible rfl
    | (simp only [oversizeHead_frame, refuseBatch_frame, waitBatch_frame, admitBatch_frame, *, obs_ite, ite_self]; done)
    | split

theorem execBatchAdmit_frame {K : Keep} (queue : Nat) (s : State) (_ : K.que = false := by assumption) (_ : K.queues = false
    := by assumption) (_ : K.tasks = false := by assumption) (_ : K.qwin = false := by assumption) : ∃ out, execBatchAdmit
    queue s = .next out ∧ obs K out = obs K s :=
  ⟨_, rfl, by simp [*]⟩

/-! Tables. -/

@[simp] theorem addChg_frame {K : Keep} (s : State) (d : Nat) (r : Nat) (v : Bool) (n : Nat) (_ : K.tbl = false := by
    assumption) : obs K (addChg s d r v n) = obs K s :=
  by simp [addChg, *]

@[simp] theorem dropPending_frame {K : Keep} (s : State) (d : Nat) (_ : K.tbl = false := by assumption) : obs K (dropPending s
    d) = obs K s :=
  by simp [dropPending, *]

@[simp] theorem discardPending_frame {K : Keep} (s : State) (d : Nat) (_ : K.tbl = false := by assumption) (_ : K.twin = false
    := by assumption) : obs K (discardPending s d) = obs K s := by
  unfold discardPending
  try dsimp only
  repeat' first
    | with_reducible rfl
    | (simp only [dropPending_frame, updTwin_frame, *]; done)
    | split

@[simp] theorem abortRefresh_frame {K : Keep} (s : State) (d : Nat) (_ : K.tbl = false := by assumption) : obs K (abortRefresh
    s d) = obs K s :=
  by simp [abortRefresh, *]

@[simp] theorem poisonEvent_frame {K : Keep} (s : State) (x : ErrRec → ErrRec) (d : Nat) (r : Nat) (v : Bool) (full : Bool) (_
    : K.err = false := by assumption) (_ : K.rings = false := by assumption) (_ : K.twin = false := by assumption) (_ : K.cc =
    false := by assumption) : obs K (poisonEvent s x d r v full) = obs K s :=
  by simp [poisonEvent, *]

@[simp] theorem addPoison_frame {K : Keep} (s : State) (x : ErrRec → ErrRec) (d : Nat) (r : Nat) (v : Bool) (_ : K.err = false
    := by assumption) (_ : K.rings = false := by assumption) (_ : K.tbl = false := by assumption) (_ : K.twin = false := by
    assumption) (_ : K.cc = false := by assumption) : obs K (addPoison s x d r v) = obs K s := by
  unfold addPoison
  dsimp only
  simp only [updTbl_frame, poisonEvent_frame, raiseWide_frame, *, obs_ite, ite_self]

@[simp] theorem clearPoison_frame {K : Keep} (s : State) (f : Poison → Bool) (_ : K.tbl = false := by assumption) : obs K
    (clearPoison s f) = obs K s :=
  by simp [clearPoison, *]

@[simp] theorem poisonGranule_frame {K : Keep} (s : State) (x : ErrRec → ErrRec) (d : Nat) (v : Bool) (g : Nat) (_ : K.err =
    false := by assumption) (_ : K.rings = false := by assumption) (_ : K.tbl = false := by assumption) (_ : K.twin = false :=
    by assumption) (_ : K.cc = false := by assumption) : obs K (poisonGranule s x d v g) = obs K s :=
  by simp [poisonGranule, *]

@[simp] theorem setHold_frame {K : Keep} (s : State) (v : Nat) (_ : K.tbl = false := by assumption) : obs K (setHold s v) =
    obs K s :=
  by simp [setHold, *]

@[simp] theorem retire_frame {K : Keep} (s : State) (d : Nat) (r : Nat) (_ : K.tbl = false := by assumption) : obs K (retire s
    d r) = obs K s := by
  unfold retire
  try dsimp only
  repeat' first
    | with_reducible rfl
    | (simp only [updTbl_frame, updDesc_frame, *, obs_ite, ite_self]; done)
    | split

theorem execChangeEntryRetire_frame {K : Keep} (desc : Nat) (row : Nat) (s : State) (_ : K.tbl = false := by assumption) : ∃
    out, execChangeEntryRetire desc row s = .next out ∧ obs K out = obs K s :=
  ⟨_, rfl, by simp [*]⟩

@[simp] theorem heldClear_frame {K : Keep} (s : State) (d : Nat) (_ : K.tbl = false := by assumption) : obs K (heldClear s d)
    = obs K s :=
  by simp [heldClear, *]

theorem execRefreshHeldClear_frame {K : Keep} (desc : Nat) (s : State) (_ : K.tbl = false := by assumption) : ∃ out,
    execRefreshHeldClear desc s = .next out ∧ obs K out = obs K s :=
  ⟨_, rfl, by simp [*]⟩

@[simp] theorem storeDesc_frame {K : Keep} (s : State) (d : Nat) (_ : K.que = false := by assumption) : obs K (storeDesc s d)
    = obs K s :=
  by simp [storeDesc, *]

@[simp] theorem updTblPort_frame {K : Keep} (s : State) (n : Option Nat) (f : TblPort → TblPort) (_ : K.tbl = false := by
    assumption) (_ : K.twin = false := by assumption) : obs K (updTblPort s n f) = obs K s := by
  unfold updTblPort
  try dsimp only
  repeat' first
    | with_reducible rfl
    | (simp only [updTwin_frame, updTbl_frame, *]; done)
    | split

@[simp] theorem portsDone_frame {K : Keep} (s : State) (d : Nat) (_ : K.tbl = false := by assumption) (_ : K.twin = false :=
    by assumption) : obs K (portsDone s d) = obs K s :=
  by simp [portsDone, *]

@[simp] theorem invalidateEnd_frame {K : Keep} (s : State) (d : Nat) (_ : K.acc = false := by assumption) (_ : K.tbl = false
    := by assumption) (_ : K.twin = false := by assumption) : obs K (invalidateEnd s d) = obs K s :=
  by simp [invalidateEnd, *]

@[simp] theorem invalidateDone_frame {K : Keep} (s : State) (d : Nat) (_ : K.acc = false := by assumption) (_ : K.tbl = false
    := by assumption) (_ : K.twin = false := by assumption) : obs K (invalidateDone s d) = obs K s :=
  by simp [invalidateDone, *]

theorem execInvalidateDone_frame {K : Keep} (desc : Nat) (s : State) (_ : K.acc = false := by assumption) (_ : K.tbl = false
    := by assumption) (_ : K.twin = false := by assumption) : ∃ out, execInvalidateDone desc s = .next out ∧ obs K out = obs K
    s :=
  ⟨_, rfl, by simp [*]⟩

@[simp] theorem invalidateStart_frame {K : Keep} (s : State) (d : Nat) (_ : K.que = false := by assumption) (_ : K.acc = false
    := by assumption) (_ : K.tbl = false := by assumption) (_ : K.twin = false := by assumption) : obs K (invalidateStart s d)
    = obs K s :=
  by simp [invalidateStart, *]

@[simp] theorem tableReset_frame {K : Keep} (s : State) (d : Nat) (_ : K.que = false := by assumption) (_ : K.acc = false :=
    by assumption) (_ : K.tbl = false := by assumption) (_ : K.twin = false := by assumption) : obs K (tableReset s d) = obs K
    s :=
  by simp [tableReset, *]

@[simp] theorem tblCommand_frame {K : Keep} (q : Requester) (n : Option Nat) (w : Word) (s : State) (_ : K.glob = false := by
    assumption) (_ : K.win = false := by assumption) (_ : K.que = false := by assumption) (_ : K.acc = false := by assumption)
    (_ : K.tbl = false := by assumption) (_ : K.twin = false := by assumption) : obs K (tblCommand q n w s) = obs K s := by
  unfold tblCommand
  refine anyWindowCmd_frame q n s _ ?_
  dsimp only
  rw [apply_ite Prod.snd, apply_ite (obs K)]
  refine ite_eq_iff'.mpr ⟨fun _ => checked_frame _ _ _ ?_, fun _ => updTblPort_frame s n _⟩
  split <;> simp [*]

theorem execTableWrite_frame {K : Keep} (q : Requester) (n : Option Nat) (w : Word) (s : State) (_ : K.glob = false := by
    assumption) (_ : K.win = false := by assumption) (_ : K.que = false := by assumption) (_ : K.acc = false := by assumption)
    (_ : K.tbl = false := by assumption) (_ : K.twin = false := by assumption) : ∃ out, execTableWrite q n w s = .next out ∧
    obs K out = obs K s :=
  ⟨_, rfl, by simp [*]⟩

theorem execTableInvalidate_frame {K : Keep} (q : Requester) (n : Option Nat) (w : Word) (s : State) (_ : K.glob = false := by
    assumption) (_ : K.win = false := by assumption) (_ : K.que = false := by assumption) (_ : K.acc = false := by assumption)
    (_ : K.tbl = false := by assumption) (_ : K.twin = false := by assumption) : ∃ out, execTableInvalidate q n w s = .next
    out ∧ obs K out = obs K s :=
  ⟨_, rfl, by simp [*]⟩

theorem execTableRead_frame {K : Keep} (q : Requester) (n : Option Nat) (w : Word) (s : State) (_ : K.glob = false := by
    assumption) (_ : K.win = false := by assumption) (_ : K.que = false := by assumption) (_ : K.acc = false := by assumption)
    (_ : K.tbl = false := by assumption) (_ : K.twin = false := by assumption) : ∃ out, execTableRead q n w s = .next out ∧
    obs K out = obs K s :=
  ⟨_, rfl, by simp [*]⟩

@[simp] theorem writerFenced_frame {K : Keep} (s : State) (n : Nat) (_ : K.tbl = false := by assumption) (_ : K.twin = false
    := by assumption) : obs K (writerFenced s n) = obs K s :=
  by simp [writerFenced, *]

/-! Engines. -/

@[simp] theorem startEnv_frame {K : Keep} (s : State) (t : Nat) (e : Nat) (op : Nat) (body : Task → EnvRun → State → State)
    (hbody : ∀ x0 x1 x2, obs K (body x0 x1 x2) = obs K x2) (_ : K.tasks = false := by assumption) : obs K (startEnv s t e op
    body) = obs K s := by
  unfold startEnv
  try dsimp only
  repeat' first
    | with_reducible rfl
    | (simp only [updEnv_frame, *, obs_ite]; done)
    | split

@[simp] theorem endEnv_frame {K : Keep} (s : State) (t : Nat) (e : Nat) (code : Code) (_ : K.queues = false := by assumption)
    (_ : K.tasks = false := by assumption) (_ : K.qwin = false := by assumption) : obs K (endEnv s t e code) = obs K s :=
  by simp [endEnv, *]

@[simp] theorem countWait_frame {K : Keep} (s : State) (t : Nat) (g : Nat) (_ : K.pwr = false := by assumption) (_ : K.pwin =
    false := by assumption) : obs K (countWait s t g) = obs K s := by
  unfold countWait
  try dsimp only
  repeat' first
    | with_reducible rfl
    | (simp only [updPwr_frame, updPwin_frame, *, obs_ite]; done)
    | split

@[simp] theorem assignTo_frame {K : Keep} (s : State) (t : Nat) (e : Nat) (g : Nat) (_ : K.tasks = false := by assumption) (_
    : K.tbl = false := by assumption) (_ : K.pwr = false := by assumption) (_ : K.pwin = false := by assumption) : obs K
    (assignTo s t e g) = obs K s :=
  by simp [assignTo, *]

@[simp] theorem assignEnv_frame {K : Keep} (s : State) (t : Nat) (e : Nat) (n : Nat) (_ : K.tasks = false := by assumption) (_
    : K.tbl = false := by assumption) (_ : K.pwr = false := by assumption) (_ : K.pwin = false := by assumption) : obs K
    (assignEnv s t e n) = obs K s := by
  unfold assignEnv
  try dsimp only
  repeat' first
    | with_reducible rfl
    | (simp only [assignTo_frame, updEnv_frame, *]; done)
    | split

@[simp] theorem envelopeAssign_frame {K : Keep} (s : State) (t : Nat) (e : Nat) (_ : K.tasks = false := by assumption) (_ :
    K.tbl = false := by assumption) (_ : K.pwr = false := by assumption) (_ : K.pwin = false := by assumption) : obs K
    (envelopeAssign s t e) = obs K s := by
  unfold envelopeAssign
  try dsimp only
  repeat' first
    | with_reducible rfl
    | (simp only [assignTo_frame, *, obs_ite]; done)
    | split

theorem execEnvelopeAssign_frame {K : Keep} (task : Nat) (env : Nat) (s : State) (_ : K.tasks = false := by assumption) (_ :
    K.tbl = false := by assumption) (_ : K.pwr = false := by assumption) (_ : K.pwin = false := by assumption) : ∃ out,
    execEnvelopeAssign task env s = .next out ∧ obs K out = obs K s :=
  ⟨_, rfl, by simp [*]⟩

theorem execNop_frame {K : Keep} (task : Nat) (env : Nat) (s : State) (_ : K.queues = false := by assumption) (_ : K.tasks =
    false := by assumption) (_ : K.qwin = false := by assumption) : ∃ out, execNop task env s = .next out ∧ obs K out = obs K
    s :=
  ⟨_, rfl, by simp [*]⟩

theorem execFence_frame {K : Keep} (task : Nat) (env : Nat) (s : State) (_ : K.queues = false := by assumption) (_ : K.tasks =
    false := by assumption) (_ : K.qwin = false := by assumption) : ∃ out, execFence task env s = .next out ∧ obs K out = obs
    K s :=
  ⟨_, rfl, by simp [*]⟩

/-! Gather. -/

@[simp] theorem lookupStart_frame {K : Keep} (t : Nat) (e : Nat) (k : Task) (v : EnvRun) (s : State) (_ : K.queues = false :=
    by assumption) (_ : K.tasks = false := by assumption) (_ : K.tbl = false := by assumption) (_ : K.pwr = false := by
    assumption) (_ : K.qwin = false := by assumption) (_ : K.twin = false := by assumption) (_ : K.pwin = false := by
    assumption) : obs K (lookupStart t e k v s) = obs K s := by
  unfold lookupStart
  try dsimp only
  repeat' first
    | with_reducible rfl
    | (simp only [endEnv_frame, updTwin_frame, assignEnv_frame, updEnv_frame, *, obs_ite, ite_self]; done)
    | split

theorem execGatherPool_frame {K : Keep} (task : Nat) (env : Nat) (s : State) (_ : K.queues = false := by assumption) (_ :
    K.tasks = false := by assumption) (_ : K.tbl = false := by assumption) (_ : K.pwr = false := by assumption) (_ : K.qwin =
    false := by assumption) (_ : K.twin = false := by assumption) (_ : K.pwin = false := by assumption) : ∃ out,
    execGatherPool task env s = .next out ∧ obs K out = obs K s :=
  ⟨_, rfl, by simp [*]⟩

theorem execGather_frame {K : Keep} (task : Nat) (env : Nat) (s : State) (_ : K.queues = false := by assumption) (_ : K.tasks
    = false := by assumption) (_ : K.tbl = false := by assumption) (_ : K.pwr = false := by assumption) (_ : K.qwin = false :=
    by assumption) (_ : K.twin = false := by assumption) (_ : K.pwin = false := by assumption) : ∃ out, execGather task env s
    = .next out ∧ obs K out = obs K s :=
  ⟨_, rfl, by simp [*]⟩

theorem execReduce_frame {K : Keep} (task : Nat) (env : Nat) (s : State) (_ : K.queues = false := by assumption) (_ : K.tasks
    = false := by assumption) (_ : K.tbl = false := by assumption) (_ : K.pwr = false := by assumption) (_ : K.qwin = false :=
    by assumption) (_ : K.twin = false := by assumption) (_ : K.pwin = false := by assumption) : ∃ out, execReduce task env s
    = .next out ∧ obs K out = obs K s :=
  ⟨_, rfl, by simp [*]⟩

@[simp] theorem readGranules_frame {K : Keep} (s : State) (t : Nat) (e : Nat) (gs : List Nat) (_ : K.acc = false := by
    assumption) (_ : K.accNext = false := by assumption) : obs K (readGranules s t e gs) = obs K s := by
  unfold readGranules
  try dsimp only
  repeat' first
    | with_reducible rfl
    | (simp only [newAcc_frame, *, forEach_frame, implies_true]; done)
    | split

@[simp] theorem enterPhase_frame {K : Keep} (s : State) (t : Nat) (e : Nat) (p : Nat) (_ : K.tasks = false := by assumption) :
    obs K (enterPhase s t e p) = obs K s :=
  by simp [enterPhase, *]

/-! Lookups. -/

@[simp] theorem updLook_frame {K : Keep} (s : State) (t : Nat) (e : Nat) (f : LookRun → LookRun) (_ : K.tasks = false := by
    assumption) : obs K (updLook s t e f) = obs K s :=
  by simp [updLook, *]

@[simp] theorem whileRuns_frame {K : Keep} (t : Nat) (e : Nat) (f : State → EnvRun → State) (s : State) (hf : ∀ x0 x1, obs K
    (f x0 x1) = obs K x0) : obs K (whileRuns t e f s) = obs K s := by
  unfold whileRuns
  try dsimp only
  repeat' first
    | with_reducible rfl
    | (simp only [*, obs_ite, ite_self]; done)
    | split

@[simp] theorem readSource_frame {K : Keep} (s : State) (t : Nat) (e : Nat) (op : Nat) (addr : Nat) (len : Nat) (_ : K.acc =
    false := by assumption) (_ : K.accNext = false := by assumption) : obs K (readSource s t e op addr len) = obs K s := by
  unfold readSource
  try dsimp only
  repeat' first
    | with_reducible rfl
    | (simp only [newAcc_frame, *, forEach_frame, implies_true]; done)
    | split

@[simp] theorem reduceReads_frame {K : Keep} (s : State) (t : Nat) (e : Nat) (g : GatherOps) (_ : K.acc = false := by
    assumption) (_ : K.accNext = false := by assumption) : obs K (reduceReads s t e g) = obs K s :=
  by simp [reduceReads, *]

@[simp] theorem lookBegin_frame {K : Keep} (t : Nat) (e : Nat) (s : State) (v : EnvRun) (_ : K.tasks = false := by assumption)
    (_ : K.acc = false := by assumption) (_ : K.accNext = false := by assumption) : obs K (lookBegin t e s v) = obs K s :=
  by simp [lookBegin, *]

@[simp] theorem notePoison_frame {K : Keep} (s : State) (t : Nat) (e : Nat) (v : EnvRun) (_ : K.err = false := by assumption)
    (_ : K.rings = false := by assumption) (_ : K.tasks = false := by assumption) (_ : K.tbl = false := by assumption) (_ :
    K.twin = false := by assumption) (_ : K.cc = false := by assumption) : obs K (notePoison s t e v) = obs K s :=
  by simp [notePoison, *]

@[simp] theorem lookTake_frame {K : Keep} (t : Nat) (e : Nat) (s : State) (v : EnvRun) (_ : K.err = false := by assumption) (_
    : K.rings = false := by assumption) (_ : K.tasks = false := by assumption) (_ : K.tbl = false := by assumption) (_ :
    K.twin = false := by assumption) (_ : K.cc = false := by assumption) : obs K (lookTake t e s v) = obs K s := by
  unfold lookTake
  dsimp only
  simp only [notePoison_frame, updEnv_frame, *]

@[simp] theorem bufferTouch_frame {K : Keep} (s : State) (g : Nat) (b : Nat × Nat) (_ : K.tbl = false := by assumption) : obs
    K (bufferTouch s g b) = obs K s :=
  by simp [bufferTouch, *]

theorem granAsk_frame {K : Keep} (s : State) (t e n cls : Nat) (gs : List Nat) (x : State × Nat) (h : granAsk s t e n cls gs =
    some x) (_ : K.tasks = false := by trivial) (_ : K.acc = false := by trivial) (_ : K.accNext = false := by trivial) (_ :
    K.tbl = false := by trivial) : obs K x.1 = obs K s := by
  unfold granAsk at h
  dsimp only at h
  split at h
  · cases h
  · split at h
    · cases h
    · cases h
      refine (forEach_frame _ _ _ fun _ _ => ?_).trans ((forEach_frame _ _ _ fun _ _ => ?_).trans ?_) <;> first
        | (simp [*]; done)
        | (split <;> simp [*])

theorem resolveBag_frame {K : Keep} (t e : Nat) (s : State) (v : EnvRun) (x : State) (h : resolveBag t e s v = some x) (_ :
    K.tasks = false := by trivial) (_ : K.acc = false := by trivial) (_ : K.xwin = false := by trivial) (_ : K.gwin = false :=
    by trivial) : obs K x = obs K s := by
  unfold resolveBag at h
  dsimp only at h
  (repeat' split at h) <;> first | (cases h; done) | (cases h; simp [*]; done)

@[simp] theorem bitmapLost_frame {K : Keep} (s : State) (x : ErrRec → ErrRec) (d : Nat) (r : Nat) (_ : K.err = false := by
    assumption) (_ : K.rings = false := by assumption) (_ : K.twin = false := by assumption) (_ : K.cc = false := by
    assumption) : obs K (bitmapLost s x d r) = obs K s :=
  by simp [bitmapLost, *]

@[simp] theorem resolveRow_frame {K : Keep} (t : Nat) (e : Nat) (n : Nat) (r : Nat) (x : Bool × Bool) (s : State) (v : EnvRun)
    (_ : K.err = false := by assumption) (_ : K.rings = false := by assumption) (_ : K.tasks = false := by assumption) (_ :
    K.gwin = false := by assumption) (_ : K.twin = false := by assumption) (_ : K.cc = false := by assumption) : obs K
    (resolveRow t e n r x s v) = obs K s := by
  unfold resolveRow
  dsimp only
  simp only [bitmapLost_frame, updTwin_frame, updGwin_frame, updLook_frame, *, obs_ite, ite_self]

theorem resolveIndex_frame {K : Keep} (t e : Nat) (k : Task) (eng : Nat) (s : State) (v : EnvRun) (x : State) (h :
    resolveIndex t e k eng s v = some x) (_ : K.err = false := by trivial) (_ : K.rings = false := by trivial) (_ : K.tasks =
    false := by trivial) (_ : K.acc = false := by trivial) (_ : K.accNext = false := by trivial) (_ : K.tbl = false := by
    trivial) (_ : K.xwin = false := by trivial) (_ : K.gwin = false := by trivial) (_ : K.twin = false := by trivial) (_ :
    K.cc = false := by trivial) : obs K x = obs K s := by
  unfold resolveIndex at h
  dsimp only at h
  split at h
  · cases h
  · split at h
    · cases h; simp [*]
    · split at h
      · split at h
        · cases h
        · obtain ⟨y, hy, rfl⟩ := Option.map_eq_some_iff.mp h
          exact granAsk_frame _ _ _ _ _ _ _ hy
      · cases h; simp [*]

@[simp] theorem resolveLoop_frame {K : Keep} (t e : Nat) (k : Task) (eng n : Nat) (s : State) (_ : K.err = false := by
    trivial) (_ : K.rings = false := by trivial) (_ : K.tasks = false := by trivial) (_ : K.acc = false := by trivial) (_ :
    K.accNext = false := by trivial) (_ : K.tbl = false := by trivial) (_ : K.xwin = false := by trivial) (_ : K.gwin = false
    := by trivial) (_ : K.twin = false := by trivial) (_ : K.cc = false := by trivial) : obs K (resolveLoop t e k eng n s) =
    obs K s := by
  induction n generalizing s with
  | zero => rfl
  | succ n ih =>
    unfold resolveLoop
    split
    · rfl
    · split
      · rfl
      · split
        · rfl
        · next h =>
          rw [ih]
          split at h
          · exact resolveBag_frame _ _ _ _ _ h
          · exact resolveIndex_frame _ _ _ _ _ _ _ h

@[simp] theorem rowsLoop_frame {K : Keep} (t e n eng m : Nat) (s : State) (_ : K.tasks = false := by trivial) (_ : K.acc =
    false := by trivial) (_ : K.accNext = false := by trivial) (_ : K.tbl = false := by trivial) (_ : K.gwin = false := by
    trivial) : obs K (rowsLoop t e n eng m s) = obs K s := by
  induction m generalizing s with
  | zero => rfl
  | succ m ih =>
    unfold rowsLoop
    split
    · rfl
    · split
      · rfl
      · split
        · rfl
        · next h =>
          have h' := granAsk_frame _ _ _ _ _ _ _ h
          dsimp only at h'
          dsimp only
          rw [ih, updLook_frame, updGwin_frame]
          exact h'

@[simp] theorem bagsFinish_frame {K : Keep} (t : Nat) (e : Nat) (s : State) (v : EnvRun) (_ : K.tasks = false := by
    assumption) : obs K (bagsFinish t e s v) = obs K s :=
  by simp [bagsFinish, *]

@[simp] theorem poolStep_frame {K : Keep} (t : Nat) (e : Nat) (eng : Nat) (s : State) (v : EnvRun) (_ : K.tasks = false := by
    assumption) (_ : K.tbl = false := by assumption) : obs K (poolStep t e eng s v) = obs K s := by
  unfold poolStep
  try dsimp only
  repeat' first
    | with_reducible rfl
    | (simp only [updEngine_frame, updLook_frame, updTbl_frame, whileRuns_frame, bagsFinish_frame, *, obs_ite, ite_self,
       implies_true]; done)
    | split

@[simp] theorem reduceStep_frame {K : Keep} (t : Nat) (e : Nat) (s : State) (v : EnvRun) (_ : K.tasks = false := by
    assumption) : obs K (reduceStep t e s v) = obs K s :=
  by simp [reduceStep, *]

@[simp] theorem countVectors_frame {K : Keep} (t : Nat) (e : Nat) (n : Nat) (os : List OutVec) (s : State) (_ : K.tasks =
    false := by assumption) (_ : K.tbl = false := by assumption) (_ : K.gwin = false := by assumption) : obs K (countVectors t
    e n os s) = obs K s := by
  unfold countVectors
  dsimp only
  simp only [updGwin_frame, updTbl_frame, updEnv_frame, *]

@[simp] theorem formLoop_frame {K : Keep} (t e dim : Nat) (g : GatherOps) (os : List OutVec) (l : List ((Nat × Nat) × Nat))
    (s : State) (_ : K.tasks = false := by trivial) (_ : K.acc = false := by trivial) (_ : K.accNext = false := by trivial) :
      obs K (formLoop t e dim g os l s) = obs K s := by
  induction l generalizing s with
  | nil => rfl
  | cons p ps ih =>
    unfold formLoop
    split
    · rw [ih]; simp [*]
    · rfl

@[simp] theorem finishMemory_frame {K : Keep} (t e n : Nat) (s : State) (v : EnvRun) (_ : K.tasks = false := by trivial) (_ :
    K.acc = false := by trivial) (_ : K.accNext = false := by trivial) (_ : K.tbl = false := by trivial) (_ : K.gwin = false
    := by trivial) : obs K (finishMemory t e n s v) = obs K s := by
  unfold finishMemory
  dsimp only
  rw [whileRuns_frame _ _ _ _ (fun s v => countVectors_frame _ _ _ _ _), formLoop_frame]

@[simp] theorem finishCore_frame {K : Keep} (t : Nat) (e : Nat) (eng : Nat) (k : Task) (s : State) (v : EnvRun) (_ : K.tasks =
    false := by assumption) (_ : K.acc = false := by assumption) (_ : K.tbl = false := by assumption) (_ : K.xwin = false :=
    by assumption) (_ : K.gwin = false := by assumption) (_ : K.out = false := by assumption) : obs K (finishCore t e eng k s
    v) = obs K s := by
  unfold finishCore
  try dsimp only
  repeat' first
    | with_reducible rfl
    | (simp only [failEnv_frame, emit_frame, updEngine_frame, updLook_frame, countVectors_frame, *, obs_ite, ite_self]; done)
    | split

@[simp] theorem lookEnd_frame {K : Keep} (t : Nat) (e : Nat) (s : State) (v : EnvRun) (_ : K.queues = false := by assumption)
    (_ : K.tasks = false := by assumption) (_ : K.qwin = false := by assumption) : obs K (lookEnd t e s v) = obs K s :=
  by simp [lookEnd, *]

@[simp] theorem lookupNext_frame {K : Keep} (s : State) (t e : Nat) (k : Task) (v : EnvRun) (_ : K.err = false := by trivial)
    (_ : K.rings = false := by trivial) (_ : K.queues = false := by trivial) (_ : K.tasks = false := by trivial) (_ : K.acc =
    false := by trivial) (_ : K.accNext = false := by trivial) (_ : K.tbl = false := by trivial) (_ : K.qwin = false := by
    trivial) (_ : K.xwin = false := by trivial) (_ : K.gwin = false := by trivial) (_ : K.twin = false := by trivial) (_ :
    K.cc = false := by trivial) (_ : K.out = false := by trivial) : obs K (lookupNext s t e k v) = obs K s := by
  have mine : ∀ (p : Stage) (f : State → EnvRun → State) (_ : ∀ s v, obs K (f s v) = obs K s) (s : State),
      obs K (whileRuns t e (fun s v => if stageMine s v p then f s v else s) s) = obs K s := by
    intro p f hf s
    refine whileRuns_frame _ _ _ _ fun s v => ?_
    split
    · exact hf s v
    · rfl
  unfold lookupNext
  dsimp only
  split
  · simp [*]
  · rw [whileRuns_frame _ _ _ _ (fun s v => lookEnd_frame _ _ _ _),
      mine _ _ (by intro s v; split <;> simp [*])]
    split
    · rw [whileRuns_frame _ _ _ _ (fun s v => reduceStep_frame _ _ _ _), whileRuns_frame _ _ _ _ (fun s v => lookTake_frame _
      _ _ _)]
    · rw [mine _ _ (by intro s v; simp [*]), mine _ _ (by intro s v; simp [*]), mine _ _ (by intro s v; simp [*]),
        whileRuns_frame _ _ _ _ (fun s v => lookTake_frame _ _ _ _)]

/-! TableEnvs. -/

@[simp] theorem tblStart_frame {K : Keep} (t : Nat) (e : Nat) (k : Task) (v : EnvRun) (s : State) (_ : K.queues = false := by
    assumption) (_ : K.tasks = false := by assumption) (_ : K.tbl = false := by assumption) (_ : K.pwr = false := by
    assumption) (_ : K.qwin = false := by assumption) (_ : K.pwin = false := by assumption) : obs K (tblStart t e k v s) = obs
    K s := by
  unfold tblStart
  try dsimp only
  repeat' first
    | with_reducible rfl
    | (simp only [endEnv_frame, assignEnv_frame, *, obs_ite]; done)
    | split

theorem execUpdate_frame {K : Keep} (task : Nat) (env : Nat) (s : State) (_ : K.queues = false := by assumption) (_ : K.tasks
    = false := by assumption) (_ : K.tbl = false := by assumption) (_ : K.pwr = false := by assumption) (_ : K.qwin = false :=
    by assumption) (_ : K.pwin = false := by assumption) : ∃ out, execUpdate task env s = .next out ∧ obs K out = obs K s :=
  ⟨_, rfl, by simp [*]⟩

theorem execPublish_frame {K : Keep} (task : Nat) (env : Nat) (s : State) (_ : K.queues = false := by assumption) (_ : K.tasks
    = false := by assumption) (_ : K.tbl = false := by assumption) (_ : K.pwr = false := by assumption) (_ : K.qwin = false :=
    by assumption) (_ : K.pwin = false := by assumption) : ∃ out, execPublish task env s = .next out ∧ obs K out = obs K s :=
  ⟨_, rfl, by simp [*]⟩

theorem execRefreshBegin_frame {K : Keep} (task : Nat) (env : Nat) (s : State) (_ : K.queues = false := by assumption) (_ :
    K.tasks = false := by assumption) (_ : K.tbl = false := by assumption) (_ : K.pwr = false := by assumption) (_ : K.qwin =
    false := by assumption) (_ : K.pwin = false := by assumption) : ∃ out, execRefreshBegin task env s = .next out ∧ obs K out
    = obs K s :=
  ⟨_, rfl, by simp [*]⟩

theorem execRefreshRows_frame {K : Keep} (task : Nat) (env : Nat) (s : State) (_ : K.queues = false := by assumption) (_ :
    K.tasks = false := by assumption) (_ : K.tbl = false := by assumption) (_ : K.pwr = false := by assumption) (_ : K.qwin =
    false := by assumption) (_ : K.pwin = false := by assumption) : ∃ out, execRefreshRows task env s = .next out ∧ obs K out
    = obs K s :=
  ⟨_, rfl, by simp [*]⟩

theorem execRefreshAbort_frame {K : Keep} (task : Nat) (env : Nat) (s : State) (_ : K.queues = false := by assumption) (_ :
    K.tasks = false := by assumption) (_ : K.tbl = false := by assumption) (_ : K.pwr = false := by assumption) (_ : K.qwin =
    false := by assumption) (_ : K.pwin = false := by assumption) : ∃ out, execRefreshAbort task env s = .next out ∧ obs K out
    = obs K s :=
  ⟨_, rfl, by simp [*]⟩

@[simp] theorem rowSource_frame {K : Keep} (s : State) (t : Nat) (e : Nat) (v : EnvRun) (ver : Bool) (_ : K.tasks = false :=
    by assumption) (_ : K.acc = false := by assumption) (_ : K.accNext = false := by assumption) : obs K (rowSource s t e v
    ver) = obs K s :=
  by simp [rowSource, *]

@[simp] theorem updateCheck_frame {K : Keep} (s : State) (t : Nat) (e : Nat) (v : EnvRun) (_ : K.tasks = false := by
    assumption) (_ : K.acc = false := by assumption) (_ : K.xwin = false := by assumption) (_ : K.gwin = false := by
    assumption) : obs K (updateCheck s t e v) = obs K s := by
  unfold updateCheck
  try dsimp only
  repeat' first
    | with_reducible rfl
    | (simp only [failEnv_frame, updEnv_frame, enterPhase_frame, *, obs_ite]; done)
    | split

@[simp] theorem rowBegin_frame {K : Keep} (s : State) (t : Nat) (e : Nat) (v : EnvRun) (_ : K.queues = false := by assumption)
    (_ : K.tasks = false := by assumption) (_ : K.acc = false := by assumption) (_ : K.accNext = false := by assumption) (_ :
    K.tbl = false := by assumption) (_ : K.qwin = false := by assumption) : obs K (rowBegin s t e v) = obs K s := by
  unfold rowBegin
  try dsimp only
  repeat' first
    | with_reducible rfl
    | (simp only [updDesc_frame, endEnv_frame, rowSource_frame, readGranules_frame, enterPhase_frame, *, obs_ite, ite_self]; done)
    | split

@[simp] theorem rowVersion_frame {K : Keep} (s : State) (t : Nat) (e : Nat) (k : Task) (v : EnvRun) (_ : K.tasks = false := by
    assumption) (_ : K.acc = false := by assumption) (_ : K.accNext = false := by assumption) (_ : K.tbl = false := by
    assumption) (_ : K.xwin = false := by assumption) (_ : K.gwin = false := by assumption) : obs K (rowVersion s t e k v) =
    obs K s := by
  unfold rowVersion
  dsimp only
  simp only [failEnv_frame, updDesc_frame, rowSource_frame, addChg_frame, *, obs_ite, ite_self]

@[simp] theorem rowWrite_frame {K : Keep} (s : State) (t : Nat) (e : Nat) (v : EnvRun) (_ : K.tasks = false := by assumption)
    (_ : K.acc = false := by assumption) (_ : K.accNext = false := by assumption) (_ : K.xwin = false := by assumption) (_ :
    K.gwin = false := by assumption) : obs K (rowWrite s t e v) = obs K s :=
  by simp [rowWrite, *]

@[simp] theorem rowCleared_frame {K : Keep} (s : State) (v : EnvRun) (_ : K.tbl = false := by assumption) : obs K (rowCleared
    s v) = obs K s :=
  by simp [rowCleared, *]

@[simp] theorem rowWritten_frame {K : Keep} (s : State) (t : Nat) (e : Nat) (k : Task) (v : EnvRun) (_ : K.tasks = false := by
    assumption) (_ : K.tbl = false := by assumption) (_ : K.twin = false := by assumption) : obs K (rowWritten s t e k v) =
    obs K s :=
  by simp [rowWritten, *]

@[simp] theorem rowLanded_frame {K : Keep} (s : State) (t : Nat) (e : Nat) (k : Task) (v : EnvRun) (_ : K.tasks = false := by
    assumption) (_ : K.tbl = false := by assumption) (_ : K.twin = false := by assumption) : obs K (rowLanded s t e k v) = obs
    K s :=
  by simp [rowLanded, *]

@[simp] theorem rowsNext_frame {K : Keep} (s : State) (t : Nat) (e : Nat) (k : Task) (v : EnvRun) (_ : K.queues = false := by
    assumption) (_ : K.tasks = false := by assumption) (_ : K.acc = false := by assumption) (_ : K.accNext = false := by
    assumption) (_ : K.tbl = false := by assumption) (_ : K.qwin = false := by assumption) (_ : K.xwin = false := by
    assumption) (_ : K.gwin = false := by assumption) (_ : K.twin = false := by assumption) : obs K (rowsNext s t e k v) = obs
    K s := by
  unfold rowsNext
  try dsimp only
  repeat' first
    | with_reducible rfl
    | (simp only [readExtentFor_frame, enterPhase_frame, updateCheck_frame, rowBegin_frame, rowVersion_frame, rowWrite_frame,
       rowWritten_frame, *, obs_ite, ite_self]; done)
    | split

@[simp] theorem finishRewrites_frame {K : Keep} (s : State) (d : Nat) (n : Nat) (_ : K.acc = false := by assumption) (_ :
    K.accNext = false := by assumption) : obs K (finishRewrites s d n) = obs K s :=
  by simp [finishRewrites, *]

@[simp] theorem leftRewrites_frame {K : Keep} (s : State) (n : Nat) (v : EnvRun) (_ : K.acc = false := by assumption) (_ :
    K.accNext = false := by assumption) : obs K (leftRewrites s n v) = obs K s :=
  by simp [leftRewrites, *]

@[simp] theorem publishWrite_frame {K : Keep} (s : State) (t : Nat) (e : Nat) (k : Task) (v : EnvRun) (_ : K.tasks = false :=
    by assumption) (_ : K.acc = false := by assumption) (_ : K.accNext = false := by assumption) (_ : K.tbl = false := by
    assumption) : obs K (publishWrite s t e k v) = obs K s :=
  by simp [publishWrite, *]

@[simp] theorem publishNext_frame {K : Keep} (s : State) (t : Nat) (e : Nat) (k : Task) (v : EnvRun) (_ : K.queues = false :=
    by assumption) (_ : K.tasks = false := by assumption) (_ : K.acc = false := by assumption) (_ : K.accNext = false := by
    assumption) (_ : K.tbl = false := by assumption) (_ : K.qwin = false := by assumption) : obs K (publishNext s t e k v) =
    obs K s := by
  unfold publishNext
  try dsimp only
  repeat' first
    | with_reducible rfl
    | (simp only [readGranules_frame, enterPhase_frame, publishWrite_frame, endEnv_frame, *, obs_ite, ite_self]; done)
    | split

@[simp] theorem publishTable_frame {K : Keep} (s : State) (d : Nat) (n : Nat) (_ : K.que = false := by assumption) (_ : K.tbl
    = false := by assumption) (_ : K.twin = false := by assumption) : obs K (publishTable s d n).1 = obs K s := by
  unfold publishTable
  try dsimp only
  repeat' first
    | with_reducible rfl
    | (simp only [updTwin_frame, storeDesc_frame, updDesc_frame, updTbl_frame, *]; done)
    | split

@[simp] theorem publishOne_frame {K : Keep} (b : Nat) (s : State) (x : Nat × Task × Nat × EnvRun) (_ : K.que = false := by
    assumption) (_ : K.queues = false := by assumption) (_ : K.tasks = false := by assumption) (_ : K.tbl = false := by
    assumption) (_ : K.qwin = false := by assumption) (_ : K.twin = false := by assumption) : obs K (publishOne b s x) = obs K
    s := by
  unfold publishOne
  dsimp only
  simp only [endEnv_frame, publishTable_frame, enterPhase_frame, *, obs_ite, ite_self]

@[simp] theorem publishBoundary_frame {K : Keep} (s : State) (b : Nat) (_ : K.que = false := by assumption) (_ : K.queues =
    false := by assumption) (_ : K.tasks = false := by assumption) (_ : K.tbl = false := by assumption) (_ : K.qwin = false :=
    by assumption) (_ : K.twin = false := by assumption) : obs K (publishBoundary s b) = obs K s :=
  by simp [publishBoundary, *]

@[simp] theorem refreshBegin_frame {K : Keep} (s : State) (t : Nat) (e : Nat) (v : EnvRun) (_ : K.queues = false := by
    assumption) (_ : K.tasks = false := by assumption) (_ : K.tbl = false := by assumption) (_ : K.qwin = false := by
    assumption) : obs K (refreshBegin s t e v) = obs K s :=
  by simp [refreshBegin, *]

@[simp] theorem tblNext_frame {K : Keep} (s : State) (t : Nat) (e : Nat) (k : Task) (v : EnvRun) (_ : K.queues = false := by
    assumption) (_ : K.tasks = false := by assumption) (_ : K.acc = false := by assumption) (_ : K.accNext = false := by
    assumption) (_ : K.tbl = false := by assumption) (_ : K.qwin = false := by assumption) (_ : K.xwin = false := by
    assumption) (_ : K.gwin = false := by assumption) (_ : K.twin = false := by assumption) : obs K (tblNext s t e k v) = obs
    K s := by
  unfold tblNext
  try dsimp only
  repeat' first
    | with_reducible rfl
    | (simp only [rowsNext_frame, publishNext_frame, refreshBegin_frame, endEnv_frame, abortRefresh_frame, *]; done)
    | split

/-! Canopy. -/

@[simp] theorem updModel_frame {K : Keep} (s : State) (n : Nat) (i : Nat) (f : Model → Model) (_ : K.swin = false := by
    assumption) : obs K (updModel s n i f) = obs K s :=
  by simp [updModel, *]

@[simp] theorem dropModel_frame {K : Keep} (s : State) (n : Nat) (i : Nat) (_ : K.swin = false := by assumption) : obs K
    (dropModel s n i) = obs K s :=
  by simp [dropModel, *]

@[simp] theorem useModel_frame {K : Keep} (s : State) (n : Nat) (i : Nat) (_ : K.swin = false := by assumption) : obs K
    (useModel s n i) = obs K s :=
  by simp [useModel, *]

@[simp] theorem placeModel_frame {K : Keep} (m : Nat) (s : State) (n k : Nat) (_ : K.swin = false := by trivial) : obs K
    (placeModel m s n k).1 = obs K s := by
  induction m generalizing s with
  | zero => rfl
  | succ m ih =>
    unfold placeModel
    dsimp only
    (repeat' split) <;> first | rfl | (rw [ih]; simp [*]) | simp [*]

@[simp] theorem loadStart_frame {K : Keep} (t : Nat) (e : Nat) (k : Task) (v : EnvRun) (s : State) (_ : K.queues = false := by
    assumption) (_ : K.tasks = false := by assumption) (_ : K.qwin = false := by assumption) (_ : K.swin = false := by
    assumption) : obs K (loadStart t e k v s) = obs K s := by
  unfold loadStart
  try dsimp only
  repeat' first
    | with_reducible rfl
    | (simp only [endEnv_frame, updEnv_frame, useModel_frame, *, obs_ite, ite_self]; done)
    | split

theorem execModelLoad_frame {K : Keep} (task : Nat) (env : Nat) (s : State) (_ : K.queues = false := by assumption) (_ :
    K.tasks = false := by assumption) (_ : K.qwin = false := by assumption) (_ : K.swin = false := by assumption) : ∃ out,
    execModelLoad task env s = .next out ∧ obs K out = obs K s :=
  ⟨_, rfl, by simp [*]⟩

@[simp] theorem loadEnd_frame {K : Keep} (s : State) (t : Nat) (e : Nat) (n : Nat) (id : Word) (code : Code) (expired : Bool)
    (_ : K.queues = false := by assumption) (_ : K.tasks = false := by assumption) (_ : K.qwin = false := by assumption) (_ :
    K.swin = false := by assumption) : obs K (loadEnd s t e n id code expired) = obs K s := by
  unfold loadEnd
  try dsimp only
  repeat' first
    | with_reducible rfl
    | (simp only [dropModel_frame, completeEnv_frame, endEnv_frame, *, obs_ite, ite_self, forEach_frame, implies_true]; done)
    | split

@[simp] theorem loadNext_frame {K : Keep} (s : State) (t e : Nat) (k : Task) (v : EnvRun) (_ : K.tasks = false := by trivial)
    (_ : K.acc = false := by trivial) (_ : K.accNext = false := by trivial) (_ : K.xwin = false := by trivial) (_ : K.gwin =
    false := by trivial) (_ : K.swin = false := by trivial) : obs K (loadNext s t e k v) = obs K s := by
  unfold loadNext
  dsimp only
  split
  · split
    · simp [*]
    · split <;> simp [*]
  · split
    · simp [*]
    · split <;> simp [*]
  · rfl

@[simp] theorem loadDone_frame {K : Keep} (s : State) (t : Nat) (e : Nat) (_ : K.queues = false := by assumption) (_ : K.tasks
    = false := by assumption) (_ : K.qwin = false := by assumption) (_ : K.swin = false := by assumption) : obs K (loadDone s
    t e) = obs K s := by
  unfold loadDone
  try dsimp only
  repeat' first
    | with_reducible rfl
    | (simp only [loadEnd_frame, useModel_frame, updModel_frame, *, obs_ite]; done)
    | split

theorem execModelLoadDone_frame {K : Keep} (task : Nat) (env : Nat) (s : State) (_ : K.queues = false := by assumption) (_ :
    K.tasks = false := by assumption) (_ : K.qwin = false := by assumption) (_ : K.swin = false := by assumption) : ∃ out,
    execModelLoadDone task env s = .next out ∧ obs K out = obs K s :=
  ⟨_, rfl, by simp [*]⟩

@[simp] theorem evictStart_frame {K : Keep} (t : Nat) (e : Nat) (k : Task) (v : EnvRun) (s : State) (_ : K.queues = false :=
    by assumption) (_ : K.tasks = false := by assumption) (_ : K.qwin = false := by assumption) (_ : K.swin = false := by
    assumption) : obs K (evictStart t e k v s) = obs K s := by
  unfold evictStart
  try dsimp only
  repeat' first
    | with_reducible rfl
    | (simp only [endEnv_frame, dropModel_frame, *, obs_ite, ite_self]; done)
    | split

theorem execModelEvict_frame {K : Keep} (task : Nat) (env : Nat) (s : State) (_ : K.queues = false := by assumption) (_ :
    K.tasks = false := by assumption) (_ : K.qwin = false := by assumption) (_ : K.swin = false := by assumption) : ∃ out,
    execModelEvict task env s = .next out ∧ obs K out = obs K s :=
  ⟨_, rfl, by simp [*]⟩

@[simp] theorem canopyReset_frame {K : Keep} (s : State) (n : Nat) (_ : K.swin = false := by assumption) : obs K (canopyReset
    s n) = obs K s :=
  by simp [canopyReset, *]

@[simp] theorem canopyWrite_frame {K : Keep} (q : Requester) (n : Nat) (w : Word) (s : State) (_ : K.glob = false := by
    assumption) (_ : K.win = false := by assumption) (_ : K.swin = false := by assumption) : obs K (canopyWrite q n w s) = obs
    K s := by
  unfold canopyWrite
  refine windowCmd_frame _ _ _ _ (checked_frame _ _ _ ?_)
  simp [*]

theorem execSchWcanopyWrite_frame {K : Keep} (q : Requester) (n : Nat) (w : Word) (s : State) (_ : K.glob = false := by
    assumption) (_ : K.win = false := by assumption) (_ : K.swin = false := by assumption) : ∃ out, execSchWcanopyWrite q n w
    s = .next out ∧ obs K out = obs K s :=
  ⟨_, rfl, by simp [*]⟩

@[simp] theorem acctWrite_frame {K : Keep} (q : Requester) (n : Nat) (ptr : Bool) (w : Word) (s : State) (_ : K.glob = false
    := by trivial) (_ : K.win = false := by trivial) (_ : K.acc = false := by trivial) (_ : K.swin = false := by trivial) :
    obs K (acctWrite q n ptr w s) = obs K s := by
  unfold acctWrite
  refine windowCmd_frame q n s _ ?_
  dsimp only
  split
  · exact checked_frame _ _ _ (updSwin_frame s n _)
  · exact checked_frame _ _ _ ((updSwin_frame _ n _).trans (dropClient_frame s _))

theorem execSchWacctWrite_frame {K : Keep} (q : Requester) (n : Nat) (ptr : Bool) (w : Word) (s : State) (_ : K.glob = false
    := by assumption) (_ : K.win = false := by assumption) (_ : K.acc = false := by assumption) (_ : K.swin = false := by
    assumption) : ∃ out, execSchWacctWrite q n ptr w s = .next out ∧ obs K out = obs K s :=
  ⟨_, rfl, by simp [*]⟩

/-! Jobs. -/

@[simp] theorem accrue_frame {K : Keep} (s : State) (j : Nat) (_ : K.sch = false := by assumption) : obs K (accrue s j) = obs
    K s :=
  by simp [accrue, *]

@[simp] theorem chargeCtx_frame {K : Keep} (s : State) (c : Nat) (_ : K.ctx = false := by assumption) (_ : K.sch = false := by
    assumption) : obs K (chargeCtx s c) = obs K s := by
  unfold chargeCtx
  dsimp only
  simp only [accrue_frame, updJob_frame, updCtx_frame, updAcct_frame, *, forEach_frame, implies_true]

@[simp] theorem enterCtx_frame {K : Keep} (s : State) (n : Nat) (c : Nat) (_ : K.ctx = false := by assumption) : obs K
    (enterCtx s n c) = obs K s := by
  unfold enterCtx
  try dsimp only
  repeat' first
    | with_reducible rfl
    | (simp only [updCtx_frame, *, obs_ite]; done)
    | split

@[simp] theorem chargeRows_frame {K : Keep} (s : State) (c : Nat) (ctx : Nat) (_ : K.sch = false := by assumption) (_ : K.pwr
    = false := by assumption) : obs K (chargeRows s c ctx) = obs K s :=
  by simp [chargeRows, *]

@[simp] theorem freezeReset_frame {K : Keep} (s : State) (c : Nat) (_ : K.sch = false := by assumption) (_ : K.out = false :=
    by assumption) : obs K (freezeReset s c) = obs K s :=
  by simp [freezeReset, *]

@[simp] theorem freezeSoon_frame {K : Keep} (s : State) (c : Nat) (_ : K.sch = false := by assumption) : obs K (freezeSoon s
    c) = obs K s :=
  by simp [freezeSoon, *]

@[simp] theorem freezesTurn_frame {K : Keep} (s : State) (_ : K.sch = false := by assumption) (_ : K.out = false := by
    assumption) : obs K (freezesTurn s) = obs K s :=
  by simp [freezesTurn, *]

@[simp] theorem jobReport_frame {K : Keep} (s : State) (t : Nat) (e : Nat) (code : Code) (expired : Bool) (_ : K.queues =
    false := by assumption) (_ : K.tasks = false := by assumption) (_ : K.qwin = false := by assumption) : obs K (jobReport s
    t e code expired) = obs K s := by
  unfold jobReport
  try dsimp only
  repeat' first
    | with_reducible rfl
    | (simp only [completeEnv_frame, updTask_frame, *, obs_ite, ite_self]; done)
    | with_reducible refine (forEach_frame _ _ _ fun _ _ => ?_).trans ?_
    | (simp only [updTask_frame, *, obs_ite, ite_self]; with_reducible refine (forEach_frame _ _ _ fun _ _ => ?_).trans ?_)
    | (simp only [completeEnv_frame, updTask_frame, *, obs_ite, ite_self, forEach_frame, implies_true]; exact enterStore_frame _ _ _ (by assumption))
    | exact enterStore_frame _ _ _ (by assumption)
    | (simp only [completeEnv_frame, updTask_frame, *, obs_ite, ite_self, forEach_frame, implies_true]; split)
    | split
    | (simp [*]; done)

@[simp] theorem jobEnd_frame {K : Keep} (s : State) (j : Nat) (_ : K.queues = false := by assumption) (_ : K.tasks = false :=
    by assumption) (_ : K.sch = false := by assumption) (_ : K.qwin = false := by assumption) (_ : K.swin = false := by
    assumption) : obs K (jobEnd s j) = obs K s := by
  unfold jobEnd
  try dsimp only
  repeat' first
    | with_reducible rfl
    | (simp only [updJob_frame, updSwin_frame, jobReport_frame, *, obs_ite, ite_self]; done)
    | split

@[simp] theorem jobSettle_frame {K : Keep} (s : State) (j : Nat) (_ : K.queues = false := by assumption) (_ : K.tasks = false
    := by assumption) (_ : K.sch = false := by assumption) (_ : K.qwin = false := by assumption) (_ : K.swin = false := by
    assumption) : obs K (jobSettle s j) = obs K s := by
  unfold jobSettle
  try dsimp only
  repeat' first
    | with_reducible rfl
    | (simp only [jobEnd_frame, *, obs_ite, ite_self]; done)
    | split

@[simp] theorem releaseCores_frame {K : Keep} (s : State) (j : Nat) (_ : K.ctx = false := by assumption) (_ : K.sch = false :=
    by assumption) (_ : K.pwr = false := by assumption) : obs K (releaseCores s j) = obs K s := by
  unfold releaseCores
  try dsimp only
  repeat' first
    | with_reducible rfl
    | (simp only [chargeRows_frame, chargeCtx_frame, updJob_frame, updCore_frame, *, forEach_frame,
       implies_true]; done)
    | split

@[simp] theorem jobStop_frame {K : Keep} (s : State) (j : Nat) (code : Code) (expired : Bool) (core : Nat) (keep : Option Nat)
    (_ : K.queues = false := by assumption) (_ : K.tasks = false := by assumption) (_ : K.sch = false := by assumption) (_ :
    K.qwin = false := by assumption) (_ : K.swin = false := by assumption) : obs K (jobStop s j code expired core keep) = obs
    K s := by
  unfold jobStop
  try dsimp only
  repeat' first
    | with_reducible rfl
    | (simp only [updJob_frame, jobEnd_frame, freezeSoon_frame, *, obs_ite, ite_self, forEach_frame, implies_true]; done)
    | split

@[simp] theorem takeFree_frame {K : Keep} (s : State) (j : Nat) (_ : K.sch = false := by assumption) : obs K (takeFree s j) =
    obs K s := by
  unfold takeFree
  try dsimp only
  repeat' first
    | with_reducible rfl
    | (simp only [updJob_frame, accrue_frame, updCore_frame, *, forEach_frame, implies_true]; done)
    | split

@[simp] theorem startJob_frame {K : Keep} (s : State) (j : Nat) (_ : K.queues = false := by assumption) (_ : K.tasks = false
    := by assumption) (_ : K.sch = false := by assumption) (_ : K.pwr = false := by assumption) (_ : K.qwin = false := by
    assumption) (_ : K.swin = false := by assumption) (_ : K.pwin = false := by assumption) : obs K (startJob s j) = obs K s
    := by
  unfold startJob
  try dsimp only
  repeat' first
    | with_reducible rfl
    | (simp only [updJob_frame, updSwin_frame, updPwr_frame, updPwin_frame, completeEnv_frame, *, obs_ite, ite_self]; done)
    | split

@[simp] theorem placeClaimant_frame {K : Keep} (s : State) (n : Nat) (_ : K.queues = false := by assumption) (_ : K.tasks =
    false := by assumption) (_ : K.sch = false := by assumption) (_ : K.pwr = false := by assumption) (_ : K.qwin = false :=
    by assumption) (_ : K.swin = false := by assumption) (_ : K.pwin = false := by assumption) : obs K (placeClaimant s n) =
    obs K s := by
  unfold placeClaimant
  try dsimp only
  repeat' first
    | with_reducible rfl
    | (simp only [jobStop_frame, takeFree_frame, startJob_frame, *, obs_ite, ite_self]; done)
    | split

@[simp] theorem placeSoon_frame {K : Keep} (s : State) (n : Nat) (_ : K.sch = false := by assumption) : obs K (placeSoon s n)
    = obs K s :=
  by simp [placeSoon, *]

@[simp] theorem place_frame {K : Keep} (s : State) (n : Nat) (_ : K.queues = false := by assumption) (_ : K.tasks = false :=
    by assumption) (_ : K.sch = false := by assumption) (_ : K.pwr = false := by assumption) (_ : K.qwin = false := by
    assumption) (_ : K.swin = false := by assumption) (_ : K.pwin = false := by assumption) : obs K (place s n) = obs K s :=
  by simp [place, *]

@[simp] theorem placesTurn_frame {K : Keep} (s : State) (_ : K.queues = false := by assumption) (_ : K.tasks = false := by
    assumption) (_ : K.sch = false := by assumption) (_ : K.pwr = false := by assumption) (_ : K.qwin = false := by
    assumption) (_ : K.swin = false := by assumption) (_ : K.pwin = false := by assumption) : obs K (placesTurn s) = obs K s
    :=
  by simp [placesTurn, *]

@[simp] theorem jobAdmit_frame {K : Keep} (s : State) (j : Nat) (_ : K.ctx = false := by assumption) (_ : K.queues = false :=
    by assumption) (_ : K.tasks = false := by assumption) (_ : K.sch = false := by assumption) (_ : K.qwin = false := by
    assumption) (_ : K.swin = false := by assumption) : obs K (jobAdmit s j) = obs K s := by
  unfold jobAdmit
  try dsimp only
  repeat' first
    | with_reducible rfl
    | (simp only [jobStop_frame, useModel_frame, enterCtx_frame, placeSoon_frame, updJob_frame, *, obs_ite, ite_self]; done)
    | split

@[simp] theorem jobStart_frame {K : Keep} (t : Nat) (e : Nat) (k : Task) (v : EnvRun) (s : State) (_ : K.ctx = false := by
    assumption) (_ : K.queues = false := by assumption) (_ : K.tasks = false := by assumption) (_ : K.sch = false := by
    assumption) (_ : K.qwin = false := by assumption) (_ : K.swin = false := by assumption) : obs K (jobStart t e k v s) = obs
    K s := by
  unfold jobStart
  try dsimp only
  repeat' first
    | with_reducible rfl
    | (simp only [jobReport_frame, updEnv_frame, jobAdmit_frame, updSch_frame, *, obs_ite, ite_self]; done)
    | split

theorem execJob_frame {K : Keep} (task : Nat) (env : Nat) (s : State) (_ : K.ctx = false := by assumption) (_ : K.queues =
    false := by assumption) (_ : K.tasks = false := by assumption) (_ : K.sch = false := by assumption) (_ : K.qwin = false :=
    by assumption) (_ : K.swin = false := by assumption) : ∃ out, execJob task env s = .next out ∧ obs K out = obs K s :=
  ⟨_, rfl, by simp [*]⟩

@[simp] theorem waitStart_frame {K : Keep} (t : Nat) (e : Nat) (k : Task) (v : EnvRun) (s : State) (_ : K.queues = false := by
    assumption) (_ : K.tasks = false := by assumption) (_ : K.qwin = false := by assumption) : obs K (waitStart t e k v s) =
    obs K s := by
  unfold waitStart
  try dsimp only
  repeat' first
    | with_reducible rfl
    | (simp only [endEnv_frame, updEnv_frame, completeEnv_frame, *, obs_ite, ite_self]; done)
    | split

theorem execJobWait_frame {K : Keep} (task : Nat) (env : Nat) (s : State) (_ : K.queues = false := by assumption) (_ : K.tasks
    = false := by assumption) (_ : K.qwin = false := by assumption) : ∃ out, execJobWait task env s = .next out ∧ obs K out =
    obs K s :=
  ⟨_, rfl, by simp [*]⟩

@[simp] theorem jobsTurn_frame {K : Keep} (s : State) (_ : K.ctx = false := by assumption) (_ : K.queues = false := by
    assumption) (_ : K.tasks = false := by assumption) (_ : K.sch = false := by assumption) (_ : K.pwr = false := by
    assumption) (_ : K.qwin = false := by assumption) (_ : K.swin = false := by assumption) : obs K (jobsTurn s) = obs K s := by
  unfold jobsTurn
  try dsimp only
  repeat' first
    | with_reducible rfl
    | (simp only [jobAdmit_frame, jobSettle_frame, placeSoon_frame, releaseCores_frame, *, obs_ite, ite_self]; done)
    | with_reducible refine (forEach_frame _ _ _ fun _ _ => ?_).trans ?_
    | split

@[simp] theorem failCore_frame {K : Keep} (s : State) (c : Nat) (reason : Nat) (_ : K.clr = false := by assumption) (_ : K.err
    = false := by assumption) (_ : K.rings = false := by assumption) (_ : K.queues = false := by assumption) (_ : K.tasks =
    false := by assumption) (_ : K.sch = false := by assumption) (_ : K.qwin = false := by assumption) (_ : K.swin = false :=
    by assumption) (_ : K.out = false := by assumption) : obs K (failCore s c reason) = obs K s := by
  unfold failCore
  try dsimp only
  repeat' first
    | with_reducible rfl
    | (simp only [raise_frame, updCore_frame, emit_frame, updJob_frame, accrue_frame, placeSoon_frame, jobStop_frame,
       issueManifest_frame, degrade_frame, obs_set_err, *, obs_ite, ite_self]; done)
    | split

@[simp] theorem arrayFault_frame {K : Keep} (s : State) (c : Nat) (_ : K.clr = false := by assumption) (_ : K.err = false :=
    by assumption) (_ : K.rings = false := by assumption) (_ : K.queues = false := by assumption) (_ : K.tasks = false := by
    assumption) (_ : K.sch = false := by assumption) (_ : K.qwin = false := by assumption) (_ : K.swin = false := by
    assumption) (_ : K.out = false := by assumption) : obs K (arrayFault s c) = obs K s :=
  by simp [arrayFault, *]

@[simp] theorem passFault_frame {K : Keep} (s : State) (j : Nat) (c : Nat) (status : Nat) (tag : Nat) (_ : K.clr = false := by
    assumption) (_ : K.err = false := by assumption) (_ : K.rings = false := by assumption) (_ : K.queues = false := by
    assumption) (_ : K.tasks = false := by assumption) (_ : K.sch = false := by assumption) (_ : K.qwin = false := by
    assumption) (_ : K.swin = false := by assumption) (_ : K.out = false := by assumption) : obs K (passFault s j c status
    tag) = obs K s := by
  unfold passFault
  try dsimp only
  repeat' first
    | with_reducible rfl
    | (simp only [raise_frame, jobStop_frame, arrayFault_frame, *, obs_ite, ite_self]; done)
    | split

@[simp] theorem overrunRec_frame {K : Keep} (s : State) (n : Nat) (c : Nat) (tag : Nat) (beyond : Nat) (_ : K.err = false :=
    by assumption) (_ : K.rings = false := by assumption) (_ : K.swin = false := by assumption) : obs K (overrunRec s n c tag
    beyond) = obs K s :=
  by simp [overrunRec, *]

@[simp] theorem passIssue_frame {K : Keep} (s : State) (c : Nat) (_ : K.err = false := by assumption) (_ : K.rings = false :=
    by assumption) (_ : K.sch = false := by assumption) (_ : K.swin = false := by assumption) (_ : K.out = false := by
    assumption) : obs K (passIssue s c) = obs K s := by
  unfold passIssue
  try dsimp only
  repeat' first
    | with_reducible rfl
    | (simp only [updCore_frame, emit_frame, overrunRec_frame, *, obs_ite, ite_self]; done)
    | split

theorem execPassIssue_frame {K : Keep} (core : Nat) (s : State) (_ : K.err = false := by assumption) (_ : K.rings = false :=
    by assumption) (_ : K.sch = false := by assumption) (_ : K.swin = false := by assumption) (_ : K.out = false := by
    assumption) : ∃ out, execPassIssue core s = .next out ∧ obs K out = obs K s :=
  ⟨_, rfl, by simp [*]⟩

@[simp] theorem passDone_frame {K : Keep} (s : State) (c : Nat) (tag : Nat) (status : Nat) (drained : Bool) (_ : K.clr = false
    := by assumption) (_ : K.err = false := by assumption) (_ : K.rings = false := by assumption) (_ : K.queues = false := by
    assumption) (_ : K.tasks = false := by assumption) (_ : K.sch = false := by assumption) (_ : K.qwin = false := by
    assumption) (_ : K.swin = false := by assumption) (_ : K.out = false := by assumption) : obs K (passDone s c tag status
    drained) = obs K s := by
  unfold passDone
  try dsimp only
  repeat' first
    | with_reducible rfl
    | (simp only [updCore_frame, updAcct_frame, overrunRec_frame, arrayFault_frame, passFault_frame, jobSettle_frame, *,
       obs_ite, ite_self]; done)
    | split

theorem execPassDone_frame {K : Keep} (core : Nat) (tag : Nat) (status : Nat) (drained : Bool) (s : State) (_ : K.clr = false
    := by assumption) (_ : K.err = false := by assumption) (_ : K.rings = false := by assumption) (_ : K.queues = false := by
    assumption) (_ : K.tasks = false := by assumption) (_ : K.sch = false := by assumption) (_ : K.qwin = false := by
    assumption) (_ : K.swin = false := by assumption) (_ : K.out = false := by assumption) : ∃ out, execPassDone core tag
    status drained s = .next out ∧ obs K out = obs K s :=
  ⟨_, rfl, by simp [*]⟩

@[simp] theorem passWatchdog_frame {K : Keep} (s : State) (c : Nat) (_ : K.clr = false := by assumption) (_ : K.err = false :=
    by assumption) (_ : K.rings = false := by assumption) (_ : K.queues = false := by assumption) (_ : K.tasks = false := by
    assumption) (_ : K.sch = false := by assumption) (_ : K.qwin = false := by assumption) (_ : K.swin = false := by
    assumption) (_ : K.out = false := by assumption) : obs K (passWatchdog s c) = obs K s := by
  unfold passWatchdog
  try dsimp only
  repeat' first
    | with_reducible rfl
    | (simp only [passFault_frame, *, obs_ite, ite_self]; done)
    | split

theorem execPassWatchdog_frame {K : Keep} (core : Nat) (s : State) (_ : K.clr = false := by assumption) (_ : K.err = false :=
    by assumption) (_ : K.rings = false := by assumption) (_ : K.queues = false := by assumption) (_ : K.tasks = false := by
    assumption) (_ : K.sch = false := by assumption) (_ : K.qwin = false := by assumption) (_ : K.swin = false := by
    assumption) (_ : K.out = false := by assumption) : ∃ out, execPassWatchdog core s = .next out ∧ obs K out = obs K s :=
  ⟨_, rfl, by simp [*]⟩

@[simp] theorem coreFrozen_frame {K : Keep} (s : State) (c : Nat) (_ : K.sch = false := by assumption) (_ : K.out = false :=
    by assumption) : obs K (coreFrozen s c) = obs K s :=
  by simp [coreFrozen, *]

theorem execCoreFrozen_frame {K : Keep} (core : Nat) (s : State) (_ : K.sch = false := by assumption) (_ : K.out = false := by
    assumption) : ∃ out, execCoreFrozen core s = .next out ∧ obs K out = obs K s :=
  ⟨_, rfl, by simp [*]⟩

@[simp] theorem coreResetAck_frame {K : Keep} (s : State) (c : Nat) (_ : K.queues = false := by assumption) (_ : K.tasks =
    false := by assumption) (_ : K.sch = false := by assumption) (_ : K.qwin = false := by assumption) (_ : K.swin = false :=
    by assumption) (_ : K.out = false := by assumption) : obs K (coreResetAck s c) = obs K s := by
  unfold coreResetAck
  try dsimp only
  repeat' first
    | with_reducible rfl
    | (simp only [updCore_frame, emit_frame, jobSettle_frame, *, obs_ite]; done)
    | split

theorem execCoreResetAck_frame {K : Keep} (core : Nat) (s : State) (_ : K.queues = false := by assumption) (_ : K.tasks =
    false := by assumption) (_ : K.sch = false := by assumption) (_ : K.qwin = false := by assumption) (_ : K.swin = false :=
    by assumption) (_ : K.out = false := by assumption) : ∃ out, execCoreResetAck core s = .next out ∧ obs K out = obs K s :=
  ⟨_, rfl, by simp [*]⟩

theorem execCoreErrorReport_frame {K : Keep} (core : Nat) (code : BitVec 16) (s : State) (_ : K.err = false := by assumption)
    (_ : K.rings = false := by assumption) : ∃ out, execCoreErrorReport core code s = .next out ∧ obs K out = obs K s :=
  ⟨_, rfl, by simp [*]⟩

theorem execSpareMapChange_frame {K : Keep} (core : Nat) (map : BitVec 32) (s : State) (_ : K.err = false := by assumption) (_
    : K.rings = false := by assumption) (_ : K.sch = false := by assumption) : ∃ out, execSpareMapChange core map s = .next
    out ∧ obs K out = obs K s :=
  ⟨_, rfl, by simp [*]⟩

@[simp] theorem weightWrite_frame {K : Keep} (q : Requester) (c : Nat) (w : Word) (s : State) (_ : K.glob = false := by
    assumption) (_ : K.win = false := by assumption) (_ : K.ctx = false := by assumption) : obs K (weightWrite q c w s) = obs
    K s := by
  unfold weightWrite
  refine globalCmd_frame _ _ _ (checked_frame _ _ _ ?_)
  simp [*]

theorem execSchWeightWrite_frame {K : Keep} (q : Requester) (c : Nat) (w : Word) (s : State) (_ : K.glob = false := by
    assumption) (_ : K.win = false := by assumption) (_ : K.ctx = false := by assumption) : ∃ out, execSchWeightWrite q c w s
    = .next out ∧ obs K out = obs K s :=
  ⟨_, rfl, by simp [*]⟩

/-! Transfers. -/

@[simp] theorem xferStart_frame {K : Keep} (t : Nat) (e : Nat) (k : Task) (v : EnvRun) (s : State) (_ : K.queues = false := by
    assumption) (_ : K.tasks = false := by assumption) (_ : K.tbl = false := by assumption) (_ : K.pwr = false := by
    assumption) (_ : K.qwin = false := by assumption) (_ : K.pwin = false := by assumption) : obs K (xferStart t e k v s) =
    obs K s := by
  unfold xferStart
  try dsimp only
  repeat' first
    | with_reducible rfl
    | (simp only [endEnv_frame, assignEnv_frame, *, obs_ite]; done)
    | split

theorem execCopy_frame {K : Keep} (task : Nat) (env : Nat) (s : State) (_ : K.queues = false := by assumption) (_ : K.tasks =
    false := by assumption) (_ : K.tbl = false := by assumption) (_ : K.pwr = false := by assumption) (_ : K.qwin = false :=
    by assumption) (_ : K.pwin = false := by assumption) : ∃ out, execCopy task env s = .next out ∧ obs K out = obs K s :=
  ⟨_, rfl, by simp [*]⟩

theorem execCopy2d_frame {K : Keep} (task : Nat) (env : Nat) (s : State) (_ : K.queues = false := by assumption) (_ : K.tasks
    = false := by assumption) (_ : K.tbl = false := by assumption) (_ : K.pwr = false := by assumption) (_ : K.qwin = false :=
    by assumption) (_ : K.pwin = false := by assumption) : ∃ out, execCopy2d task env s = .next out ∧ obs K out = obs K s :=
  ⟨_, rfl, by simp [*]⟩

theorem execPrefetch_frame {K : Keep} (task : Nat) (env : Nat) (s : State) (_ : K.queues = false := by assumption) (_ :
    K.tasks = false := by assumption) (_ : K.tbl = false := by assumption) (_ : K.pwr = false := by assumption) (_ : K.qwin =
    false := by assumption) (_ : K.pwin = false := by assumption) : ∃ out, execPrefetch task env s = .next out ∧ obs K out =
    obs K s :=
  ⟨_, rfl, by simp [*]⟩

theorem execAdvise_frame {K : Keep} (task : Nat) (env : Nat) (s : State) (_ : K.queues = false := by assumption) (_ : K.tasks
    = false := by assumption) (_ : K.tbl = false := by assumption) (_ : K.pwr = false := by assumption) (_ : K.qwin = false :=
    by assumption) (_ : K.pwin = false := by assumption) : ∃ out, execAdvise task env s = .next out ∧ obs K out = obs K s :=
  ⟨_, rfl, by simp [*]⟩

@[simp] theorem translatePages_frame {K : Keep} (s : State) (t : Nat) (e : Nat) (ps : List (Nat × Bool)) (_ : K.acc = false :=
    by assumption) (_ : K.accNext = false := by assumption) : obs K (translatePages s t e ps) = obs K s := by
  unfold translatePages
  try dsimp only
  repeat' first
    | with_reducible rfl
    | (simp only [newAcc_frame, *, forEach_frame, implies_true]; done)
    | split

@[simp] theorem withFrames_frame {K : Keep} (s : State) (t : Nat) (e : Nat) (v : EnvRun) (_ : K.acc = false := by assumption)
    : obs K (withFrames s t e v) = obs K s :=
  by simp [withFrames, *]

@[simp] theorem tileRead_frame {K : Keep} (s : State) (t : Nat) (e : Nat) (k : Task) (v : EnvRun) (_ : K.err = false := by
    assumption) (_ : K.rings = false := by assumption) (_ : K.tasks = false := by assumption) (_ : K.acc = false := by
    assumption) (_ : K.accNext = false := by assumption) (_ : K.xwin = false := by assumption) (_ : K.gwin = false := by
    assumption) : obs K (tileRead s t e k v) = obs K s := by
  unfold tileRead
  try dsimp only
  repeat' first
    | with_reducible rfl
    | (simp only [translatePages_frame, updEnv_frame, failEnv_frame, refusalRec_frame, enterPhase_frame, readExtentFor_frame,
       withFrames_frame, *, obs_ite, forEach_frame, implies_true]; done)
    | split

@[simp] theorem tileWrite_frame {K : Keep} (s : State) (t : Nat) (e : Nat) (v : EnvRun) (_ : K.tasks = false := by assumption)
    (_ : K.acc = false := by assumption) (_ : K.accNext = false := by assumption) (_ : K.xwin = false := by assumption) (_ :
    K.gwin = false := by assumption) : obs K (tileWrite s t e v) = obs K s :=
  by simp [tileWrite, *]

@[simp] theorem copyNext_frame {K : Keep} (s : State) (t : Nat) (e : Nat) (k : Task) (v : EnvRun) (_ : K.err = false := by
    assumption) (_ : K.rings = false := by assumption) (_ : K.queues = false := by assumption) (_ : K.tasks = false := by
    assumption) (_ : K.acc = false := by assumption) (_ : K.accNext = false := by assumption) (_ : K.qwin = false := by
    assumption) (_ : K.xwin = false := by assumption) (_ : K.gwin = false := by assumption) : obs K (copyNext s t e k v) = obs
    K s := by
  unfold copyNext
  try dsimp only
  repeat' first
    | with_reducible rfl
    | (simp only [translatePages_frame, enterPhase_frame, endEnv_frame, tileRead_frame, tileWrite_frame, updEnv_frame, *,
       obs_ite, ite_self]; done)
    | split

@[simp] theorem prefetchNext_frame {K : Keep} (s : State) (t : Nat) (e : Nat) (v : EnvRun) (_ : K.queues = false := by
    assumption) (_ : K.tasks = false := by assumption) (_ : K.acc = false := by assumption) (_ : K.accNext = false := by
    assumption) (_ : K.qwin = false := by assumption) : obs K (prefetchNext s t e v) = obs K s := by
  unfold prefetchNext
  try dsimp only
  repeat' first
    | with_reducible rfl
    | (simp only [endEnv_frame, updEnv_frame, enterPhase_frame, translatePages_frame, *]; done)
    | split

@[simp] theorem adviseNext_frame {K : Keep} (s : State) (t e : Nat) (k : Task) (v : EnvRun) (_ : K.queues = false := by
    trivial) (_ : K.tasks = false := by trivial) (_ : K.xlt = false := by trivial) (_ : K.qwin = false := by trivial) : obs K
    (adviseNext s t e k v) = obs K s := by
  have fold : ∀ (l : List XltEntry) (a : State × Bool), obs K (l.foldl (fun (a : State × Bool) x =>
      if x.sticky then a
      else if stickyOf a.1 (entryUnit x) x.n < 32 then
        (updXlt a.1 fun u => { u with entries := u.entries.map fun y => if y = x then { y with sticky := true } else y }, a.2)
      else (a.1, true)) a).1 = obs K a.1 := by
    intro l
    induction l with
    | nil => intro a; rfl
    | cons x l ih =>
      intro a
      rw [List.foldl_cons, ih]
      split
      · rfl
      · split
        · exact updXlt_frame _ _
        · rfl
  unfold adviseNext
  dsimp only
  split
  · rw [endEnv_frame, updXlt_frame _ _]
  · rw [endEnv_frame, fold]

@[simp] theorem xferNext_frame {K : Keep} (s : State) (t : Nat) (e : Nat) (k : Task) (v : EnvRun) (_ : K.err = false := by
    assumption) (_ : K.rings = false := by assumption) (_ : K.queues = false := by assumption) (_ : K.tasks = false := by
    assumption) (_ : K.acc = false := by assumption) (_ : K.accNext = false := by assumption) (_ : K.xlt = false := by
    assumption) (_ : K.qwin = false := by assumption) (_ : K.xwin = false := by assumption) (_ : K.gwin = false := by
    assumption) : obs K (xferNext s t e k v) = obs K s := by
  unfold xferNext
  try dsimp only
  repeat' first
    | with_reducible rfl
    | (simp only [prefetchNext_frame, adviseNext_frame, copyNext_frame, *]; done)
    | split

@[simp] theorem peerCommand_frame {K : Keep} (q : Requester) (w : Word) (s : State) (_ : K.glob = false := by trivial) (_ :
    K.win = false := by trivial) (_ : K.xlt = false := by trivial) : obs K (peerCommand q w s) = obs K s := by
  unfold peerCommand
  refine globalCmd_frame q s _ ?_
  exact (updXlt_frame _ _).trans (checked_frame _ _ _ (updXlt_frame _ _))

theorem execPeerBind_frame {K : Keep} (q : Requester) (w : Word) (s : State) (_ : K.glob = false := by assumption) (_ : K.win
    = false := by assumption) (_ : K.xlt = false := by assumption) : ∃ out, execPeerBind q w s = .next out ∧ obs K out = obs K
    s :=
  ⟨_, rfl, by simp [*]⟩

theorem execPeerUnbind_frame {K : Keep} (q : Requester) (w : Word) (s : State) (_ : K.glob = false := by assumption) (_ :
    K.win = false := by assumption) (_ : K.xlt = false := by assumption) : ∃ out, execPeerUnbind q w s = .next out ∧ obs K out
    = obs K s :=
  ⟨_, rfl, by simp [*]⟩

@[simp] theorem fixClass_frame {K : Keep} (s : State) (n : Nat) (c : Nat) (_ : K.clr = false := by assumption) : obs K
    (fixClass s n c).1 = obs K s := by
  unfold fixClass
  try dsimp only
  repeat' first
    | with_reducible rfl
    | (simp only [updClr_frame, *]; done)
    | split

@[simp] theorem fabricInbound_frame {K : Keep} (s : State) (r : FabricReq) (_ : K.clr = false := by trivial) (_ : K.cal =
    false := by trivial) (_ : K.err = false := by trivial) (_ : K.rings = false := by trivial) (_ : K.xwin = false := by
    trivial) (_ : K.out = false := by trivial) : obs K (fabricInbound s r) = obs K s := by
  unfold fabricInbound
  dsimp only
  split
  · simp [*]
  · split
    · split <;> simp [*]
    · split
      · split <;> simp [*]
      · split
        · simp [*]
        · split
          · rfl
          · next h => exact (enterStore_frame _ _ _ h).trans (fixClass_frame _ _ _)

theorem execFabricInboundRequest_frame {K : Keep} (r : FabricReq) (s : State) (_ : K.clr = false := by assumption) (_ : K.cal
    = false := by assumption) (_ : K.err = false := by assumption) (_ : K.rings = false := by assumption) (_ : K.xwin = false
    := by assumption) (_ : K.out = false := by assumption) : ∃ out, execFabricInboundRequest r s = .next out ∧ obs K out = obs
    K s :=
  ⟨_, rfl, by simp [*]⟩

@[simp] theorem coreRespond_frame {K : Keep} (s : State) (c : Nat) (tag : Nat) (status : Nat) (data : List Byte) (_ : K.sch =
    false := by assumption) (_ : K.out = false := by assumption) : obs K (coreRespond s c tag status data) = obs K s :=
  by simp [coreRespond, *]

@[simp] theorem foldCore_frame {K : Keep} (s : State) (x : Job) (a : Nat) (r : CoreReq) (_ : K.ls = false := by assumption) :
    obs K (foldCore s x a r) = obs K s := by
  unfold foldCore
  try dsimp only
  repeat' first
    | with_reducible rfl
    | (simp only [foldGranule_frame, *]; done)
    | split

@[simp] theorem coreRequest_frame {K : Keep} (s : State) (c : Nat) (x : Job) (r : CoreReq) (_ : K.clr = false := by trivial)
    (_ : K.cal = false := by trivial) (_ : K.err = false := by trivial) (_ : K.rings = false := by trivial) (_ : K.xlt = false
    := by trivial) (_ : K.sch = false := by trivial) (_ : K.ls = false := by trivial) (_ : K.xwin = false := by trivial) (_ :
    K.out = false := by trivial) : obs K (coreRequest s c x r) = obs K s := by
  unfold coreRequest
  dsimp only
  split
  · simp [*]
  · simp [*]
  · split
    · simp [*]
    · split
      · rfl
      · next h =>
        have h' := enterStore_frame _ _ _ h
        rw [updCore_frame, obs_ite, foldCore_frame, ite_self, h']
        (repeat' split) <;> simp [*]
  · split
    · simp [*]
    · split
      · rfl
      · simp [*]

@[simp] theorem coreMemory_frame {K : Keep} (s : State) (c : Nat) (r : CoreReq) (_ : K.clr = false := by assumption) (_ :
    K.cal = false := by assumption) (_ : K.err = false := by assumption) (_ : K.rings = false := by assumption) (_ : K.xlt =
    false := by assumption) (_ : K.sch = false := by assumption) (_ : K.ls = false := by assumption) (_ : K.xwin = false := by
    assumption) (_ : K.out = false := by assumption) : obs K (coreMemory s c r) = obs K s := by
  unfold coreMemory
  try dsimp only
  repeat' first
    | with_reducible rfl
    | (simp only [updCore_frame, emit_frame, coreRequest_frame, *, obs_ite, ite_self]; done)
    | split

theorem execCoreMemoryRequest_frame {K : Keep} (core : Nat) (r : CoreReq) (s : State) (_ : K.clr = false := by assumption) (_
    : K.cal = false := by assumption) (_ : K.err = false := by assumption) (_ : K.rings = false := by assumption) (_ : K.xlt =
    false := by assumption) (_ : K.sch = false := by assumption) (_ : K.ls = false := by assumption) (_ : K.xwin = false := by
    assumption) (_ : K.out = false := by assumption) : ∃ out, execCoreMemoryRequest core r s = .next out ∧ obs K out = obs K s
    :=
  ⟨_, rfl, by simp [*]⟩

@[simp] theorem fabricResponse_frame {K : Keep} (s : State) (tag : Nat) (status : Nat) (data : List Byte) (_ : K.glob = false
    := by assumption) (_ : K.clr = false := by assumption) (_ : K.err = false := by assumption) (_ : K.rings = false := by
    assumption) (_ : K.que = false := by assumption) (_ : K.queues = false := by assumption) (_ : K.tasks = false := by
    assumption) (_ : K.acc = false := by assumption) (_ : K.accNext = false := by assumption) (_ : K.xlt = false := by
    assumption) (_ : K.tbl = false := by assumption) (_ : K.sch = false := by assumption) (_ : K.bar = false := by assumption)
    (_ : K.qwin = false := by assumption) (_ : K.xwin = false := by assumption) (_ : K.gwin = false := by assumption) (_ :
    K.swin = false := by assumption) (_ : K.pwin = false := by assumption) (_ : K.cc = false := by assumption) (_ : K.out =
    false := by assumption) : obs K (fabricResponse s tag status data) = obs K s := by
  unfold fabricResponse
  try dsimp only
  repeat' first
    | with_reducible rfl
    | (simp only [setFabOut_frame, countRemote_frame, updCore_frame, coreRespond_frame, refusalRec_frame, accFabric_frame, *,
       obs_ite, ite_self]; done)
    | split

theorem execFabricResponse_frame {K : Keep} (tag : Nat) (status : Nat) (data : List Byte) (s : State) (_ : K.glob = false :=
    by assumption) (_ : K.clr = false := by assumption) (_ : K.err = false := by assumption) (_ : K.rings = false := by
    assumption) (_ : K.que = false := by assumption) (_ : K.queues = false := by assumption) (_ : K.tasks = false := by
    assumption) (_ : K.acc = false := by assumption) (_ : K.accNext = false := by assumption) (_ : K.xlt = false := by
    assumption) (_ : K.tbl = false := by assumption) (_ : K.sch = false := by assumption) (_ : K.bar = false := by assumption)
    (_ : K.qwin = false := by assumption) (_ : K.xwin = false := by assumption) (_ : K.gwin = false := by assumption) (_ :
    K.swin = false := by assumption) (_ : K.pwin = false := by assumption) (_ : K.cc = false := by assumption) (_ : K.out =
    false := by assumption) : ∃ out, execFabricResponse tag status data s = .next out ∧ obs K out = obs K s :=
  ⟨_, rfl, by simp [*]⟩

/-! Keys. -/

@[simp] theorem writeSlot_frame {K : Keep} (s : State) (k : Nat) (key : List Byte) (attr : BitVec 32) (_ : K.key = false := by
    assumption) : obs K (writeSlot s k key attr) = obs K s :=
  by simp [writeSlot, *]

@[simp] theorem clearSlot_frame {K : Keep} (s : State) (k : Nat) (_ : K.key = false := by assumption) : obs K (clearSlot s k)
    = obs K s :=
  by simp [clearSlot, *]

@[simp] theorem zeroiseSlots_frame {K : Keep} (s : State) (ks : List Nat) (_ : K.key = false := by assumption) : obs K
    (zeroiseSlots s ks) = obs K s :=
  by simp [zeroiseSlots, *]

@[simp] theorem noteTag_frame {K : Keep} (s : State) (k : Task) (bs : List Byte) (_ : K.err = false := by assumption) (_ :
    K.rings = false := by assumption) (_ : K.key = false := by assumption) : obs K (noteTag s k bs) = obs K s :=
  by simp [noteTag, *]

@[simp] theorem slotsAtStart_frame {K : Keep} (s : State) (i : Nat) (_ : K.key = false := by assumption) : obs K (slotsAtStart
    s i) = obs K s :=
  by simp [slotsAtStart, *]

@[simp] theorem unsealStart_frame {K : Keep} (t : Nat) (e : Nat) (k : Task) (v : EnvRun) (s : State) (_ : K.err = false := by
    assumption) (_ : K.rings = false := by assumption) (_ : K.queues = false := by assumption) (_ : K.tasks = false := by
    assumption) (_ : K.tbl = false := by assumption) (_ : K.pwr = false := by assumption) (_ : K.key = false := by assumption)
    (_ : K.qwin = false := by assumption) (_ : K.pwin = false := by assumption) : obs K (unsealStart t e k v s) = obs K s := by
  unfold unsealStart
  try dsimp only
  repeat' first
    | with_reducible rfl
    | (simp only [endEnv_frame, noteTag_frame, assignEnv_frame, updEnv_frame, *, obs_ite, ite_self]; done)
    | split

theorem execUnsealData_frame {K : Keep} (task : Nat) (env : Nat) (s : State) (_ : K.err = false := by assumption) (_ : K.rings
    = false := by assumption) (_ : K.queues = false := by assumption) (_ : K.tasks = false := by assumption) (_ : K.tbl =
    false := by assumption) (_ : K.pwr = false := by assumption) (_ : K.key = false := by assumption) (_ : K.qwin = false :=
    by assumption) (_ : K.pwin = false := by assumption) : ∃ out, execUnsealData task env s = .next out ∧ obs K out = obs K s
    :=
  ⟨_, rfl, by simp [*]⟩

@[simp] theorem unsealFail_frame {K : Keep} (s : State) (t : Nat) (e : Nat) (n : Nat) (c : Code) (_ : K.tasks = false := by
    assumption) (_ : K.acc = false := by assumption) (_ : K.key = false := by assumption) (_ : K.xwin = false := by
    assumption) (_ : K.gwin = false := by assumption) : obs K (unsealFail s t e n c) = obs K s :=
  by simp [unsealFail, *]

@[simp] theorem unsealNext_frame {K : Keep} (s : State) (t : Nat) (e : Nat) (k : Task) (v : EnvRun) (_ : K.queues = false :=
    by assumption) (_ : K.tasks = false := by assumption) (_ : K.acc = false := by assumption) (_ : K.accNext = false := by
    assumption) (_ : K.key = false := by assumption) (_ : K.qwin = false := by assumption) (_ : K.xwin = false := by
    assumption) (_ : K.gwin = false := by assumption) : obs K (unsealNext s t e k v) = obs K s := by
  unfold unsealNext
  try dsimp only
  repeat' first
    | with_reducible rfl
    | (simp only [unsealFail_frame, readExtentFor_frame, enterPhase_frame, endEnv_frame, updEnv_frame, writeExtentFor_frame,
       updXch_frame, *, obs_ite, ite_self]; done)
    | split

@[simp] theorem recordLanded_frame {K : Keep} (s : State) (t : Nat) (e : Nat) (k : Task) (v : EnvRun) (_ : K.tasks = false :=
    by assumption) (_ : K.key = false := by assumption) : obs K (recordLanded s t e k v) = obs K s :=
  by simp [recordLanded, *]

@[simp] theorem updRot_frame {K : Keep} (s : State) (o : Nat) (f : RotPort → RotPort) (_ : K.key = false := by assumption) :
    obs K (updRot s o f) = obs K s :=
  by simp [updRot, *]

@[simp] theorem rotEmit_frame {K : Keep} (s : State) (o : Nat) (r : RotReq) (_ : K.key = false := by assumption) (_ : K.out =
    false := by assumption) : obs K (rotEmit s o r) = obs K s :=
  by simp [rotEmit, *]

@[simp] theorem rotSend_frame {K : Keep} (s : State) (o : Nat) (use : RotUse) (payload : List Byte) (_ : K.key = false := by
    assumption) (_ : K.out = false := by assumption) : obs K (rotSend s o use payload) = obs K s :=
  by simp [rotSend, *]

@[simp] theorem rotNext_frame {K : Keep} (s : State) (o : Nat) (_ : K.key = false := by assumption) (_ : K.out = false := by
    assumption) : obs K (rotNext s o) = obs K s := by
  unfold rotNext
  try dsimp only
  repeat' first
    | with_reducible rfl
    | (simp only [updRot_frame, rotEmit_frame, *]; done)
    | split

@[simp] theorem rotRandom_frame {K : Keep} (s : State) (use : RandomUse) (count : Nat) (_ : K.key = false := by assumption) (_
    : K.out = false := by assumption) : obs K (rotRandom s use count) = obs K s :=
  by simp [rotRandom, *]

@[simp] theorem measure_frame {K : Keep} (s : State) (i : Nat) (_ : K.key = false := by assumption) (_ : K.out = false := by
    assumption) : obs K (measure s i) = obs K s :=
  by simp [measure, *]

@[simp] theorem firstTickTrust_frame {K : Keep} (s : State) (_ : K.key = false := by assumption) (_ : K.out = false := by
    assumption) : obs K (firstTickTrust s) = obs K s := by
  unfold firstTickTrust
  try dsimp only
  repeat' first
    | with_reducible rfl
    | (simp only [rotSend_frame, measure_frame, *, forEach_frame, implies_true]; done)
    | split

@[simp] theorem xchPut_frame {K : Keep} (s : State) (x : Nat) (bs : List Byte) (_ : K.key = false := by assumption) : obs K
    (xchPut s x bs) = obs K s :=
  by simp [xchPut, *]

@[simp] theorem keyEnd_frame {K : Keep} (s : State) (c : Code) (_ : K.key = false := by assumption) : obs K (keyEnd s c) = obs
    K s :=
  by simp [keyEnd, *]

@[simp] theorem keyBusy_frame {K : Keep} (s : State) (_ : K.key = false := by assumption) : obs K (keyBusy s) = obs K s :=
  by simp [keyBusy, *]

@[simp] theorem unlockFailed_frame {K : Keep} (s : State) (_ : K.key = false := by assumption) : obs K (unlockFailed s) = obs
    K s :=
  by simp [unlockFailed, *]

@[simp] theorem unlocked_frame {K : Keep} (s : State) (_ : K.err = false := by assumption) (_ : K.rings = false := by
    assumption) (_ : K.key = false := by assumption) (_ : K.out = false := by assumption) : obs K (unlocked s) = obs K s :=
  by simp [unlocked, *]

@[simp] theorem keyOperation_frame {K : Keep} (s : State) (op slot arg : Nat) (_ : K.err = false := by trivial) (_ : K.rings =
    false := by trivial) (_ : K.key = false := by trivial) (_ : K.out = false := by trivial) : obs K (keyOperation s op slot
    arg).2 = obs K s := by
  unfold keyOperation
  dsimp only
  split <;> (try rw [updKey_frame])
  case h_6 => simp [*]
  case h_9 => simp [*]
  all_goals (repeat' (first | split | dsimp only)) <;> simp [*]

@[simp] theorem keyCommand_frame {K : Keep} (q : Requester) (w : Word) (s : State) (_ : K.glob = false := by trivial) (_ :
    K.win = false := by trivial) (_ : K.err = false := by trivial) (_ : K.rings = false := by trivial) (_ : K.key = false :=
    by trivial) (_ : K.out = false := by trivial) : obs K (keyCommand q w s) = obs K s := by
  unfold keyCommand
  refine globalCmd_frame q s _ ?_
  dsimp only
  split
  · exact updKey_frame s _
  · exact keyOperation_frame s _ _ _

theorem execKeyWrite_frame {K : Keep} (q : Requester) (w : Word) (s : State) (_ : K.glob = false := by assumption) (_ : K.win
    = false := by assumption) (_ : K.err = false := by assumption) (_ : K.rings = false := by assumption) (_ : K.key = false
    := by assumption) (_ : K.out = false := by assumption) : ∃ out, execKeyWrite q w s = .next out ∧ obs K out = obs K s :=
  ⟨_, rfl, by simp [*]⟩

theorem execKeyErase_frame {K : Keep} (q : Requester) (w : Word) (s : State) (_ : K.glob = false := by assumption) (_ : K.win
    = false := by assumption) (_ : K.err = false := by assumption) (_ : K.rings = false := by assumption) (_ : K.key = false
    := by assumption) (_ : K.out = false := by assumption) : ∃ out, execKeyErase q w s = .next out ∧ obs K out = obs K s :=
  ⟨_, rfl, by simp [*]⟩

theorem execKeyEnrol_frame {K : Keep} (q : Requester) (w : Word) (s : State) (_ : K.glob = false := by assumption) (_ : K.win
    = false := by assumption) (_ : K.err = false := by assumption) (_ : K.rings = false := by assumption) (_ : K.key = false
    := by assumption) (_ : K.out = false := by assumption) : ∃ out, execKeyEnrol q w s = .next out ∧ obs K out = obs K s :=
  ⟨_, rfl, by simp [*]⟩

theorem execKeySetpass_frame {K : Keep} (q : Requester) (w : Word) (s : State) (_ : K.glob = false := by assumption) (_ :
    K.win = false := by assumption) (_ : K.err = false := by assumption) (_ : K.rings = false := by assumption) (_ : K.key =
    false := by assumption) (_ : K.out = false := by assumption) : ∃ out, execKeySetpass q w s = .next out ∧ obs K out = obs K
    s :=
  ⟨_, rfl, by simp [*]⟩

theorem execKeyLcAdvance_frame {K : Keep} (q : Requester) (w : Word) (s : State) (_ : K.glob = false := by assumption) (_ :
    K.win = false := by assumption) (_ : K.err = false := by assumption) (_ : K.rings = false := by assumption) (_ : K.key =
    false := by assumption) (_ : K.out = false := by assumption) : ∃ out, execKeyLcAdvance q w s = .next out ∧ obs K out = obs
    K s :=
  ⟨_, rfl, by simp [*]⟩

theorem execKeyChallenge_frame {K : Keep} (q : Requester) (w : Word) (s : State) (_ : K.glob = false := by assumption) (_ :
    K.win = false := by assumption) (_ : K.err = false := by assumption) (_ : K.rings = false := by assumption) (_ : K.key =
    false := by assumption) (_ : K.out = false := by assumption) : ∃ out, execKeyChallenge q w s = .next out ∧ obs K out = obs
    K s :=
  ⟨_, rfl, by simp [*]⟩

theorem execKeyDbgAuth_frame {K : Keep} (q : Requester) (w : Word) (s : State) (_ : K.glob = false := by assumption) (_ :
    K.win = false := by assumption) (_ : K.err = false := by assumption) (_ : K.rings = false := by assumption) (_ : K.key =
    false := by assumption) (_ : K.out = false := by assumption) : ∃ out, execKeyDbgAuth q w s = .next out ∧ obs K out = obs K
    s :=
  ⟨_, rfl, by simp [*]⟩

theorem execKeyDbgPass_frame {K : Keep} (q : Requester) (w : Word) (s : State) (_ : K.glob = false := by assumption) (_ :
    K.win = false := by assumption) (_ : K.err = false := by assumption) (_ : K.rings = false := by assumption) (_ : K.key =
    false := by assumption) (_ : K.out = false := by assumption) : ∃ out, execKeyDbgPass q w s = .next out ∧ obs K out = obs K
    s :=
  ⟨_, rfl, by simp [*]⟩

theorem execKeyDbgClose_frame {K : Keep} (q : Requester) (w : Word) (s : State) (_ : K.glob = false := by assumption) (_ :
    K.win = false := by assumption) (_ : K.err = false := by assumption) (_ : K.rings = false := by assumption) (_ : K.key =
    false := by assumption) (_ : K.out = false := by assumption) : ∃ out, execKeyDbgClose q w s = .next out ∧ obs K out = obs
    K s :=
  ⟨_, rfl, by simp [*]⟩

@[simp] theorem xchBegin_frame {K : Keep} (s : State) (x : Nat) (_ : K.key = false := by assumption) : obs K (xchBegin s x) =
    obs K s :=
  by simp [xchBegin, *]

@[simp] theorem exchangeSend_frame {K : Keep} (s : State) (x : Nat) (w : Word) (_ : K.key = false := by assumption) (_ : K.out
    = false := by assumption) : obs K (exchangeSend s x w) = obs K s :=
  by simp [exchangeSend, *]

@[simp] theorem exchangeCommand_frame {K : Keep} (q : Requester) (n : Option Nat) (w : Word) (s : State) (_ : K.glob = false
    := by assumption) (_ : K.win = false := by assumption) (_ : K.key = false := by assumption) (_ : K.out = false := by
    assumption) : obs K (exchangeCommand q n w s) = obs K s := by
  unfold exchangeCommand
  refine anyWindowCmd_frame q n s _ ?_
  dsimp only
  split
  · rfl
  · unfold exchangeEnd
    dsimp only
    split <;> simp [*]

theorem execKeySpdm_frame {K : Keep} (q : Requester) (n : Option Nat) (w : Word) (s : State) (_ : K.glob = false := by
    assumption) (_ : K.win = false := by assumption) (_ : K.key = false := by assumption) (_ : K.out = false := by assumption)
    : ∃ out, execKeySpdm q n w s = .next out ∧ obs K out = obs K s :=
  ⟨_, rfl, by simp [*]⟩

theorem execKeyUnwrap_frame {K : Keep} (q : Requester) (n : Nat) (w : Word) (s : State) (_ : K.glob = false := by assumption)
    (_ : K.win = false := by assumption) (_ : K.key = false := by assumption) (_ : K.out = false := by assumption) : ∃ out,
    execKeyUnwrap q n w s = .next out ∧ obs K out = obs K s :=
  ⟨_, rfl, by simp [*]⟩

@[simp] theorem keyRelease_frame {K : Keep} (s : State) (k : Nat) (key : List Byte) (attr : BitVec 32) (_ : K.key = false :=
    by assumption) (_ : K.out = false := by assumption) : obs K (keyRelease s k key attr) = obs K s := by
  unfold keyRelease
  try dsimp only
  repeat' first
    | with_reducible rfl
    | (simp only [emit_frame, writeSlot_frame, *, obs_ite]; done)
    | split

theorem execRotKeyRelease_frame {K : Keep} (slot : Nat) (key : List Byte) (attr : BitVec 32) (s : State) (_ : K.key = false :=
    by assumption) (_ : K.out = false := by assumption) : ∃ out, execRotKeyRelease slot key attr s = .next out ∧ obs K out =
    obs K s :=
  ⟨_, rfl, by simp [*]⟩

@[simp] theorem lcChange_frame {K : Keep} (s : State) (lc : Nat) (_ : K.err = false := by assumption) (_ : K.rings = false :=
    by assumption) : obs K (lcChange s lc) = obs K s :=
  by simp [lcChange, *]

theorem execRotLcChange_frame {K : Keep} (lc : BitVec 3) (s : State) (_ : K.err = false := by assumption) (_ : K.rings = false
    := by assumption) : ∃ out, execRotLcChange lc s = .next out ∧ obs K out = obs K s :=
  ⟨_, rfl, by simp [*]⟩

/-! Units. -/

@[simp] theorem takeBack_frame {K : Keep} (s : State) (t : Nat) (e : Nat) (_ : K.tasks = false := by assumption) (_ : K.acc =
    false := by assumption) : obs K (takeBack s t e) = obs K s :=
  by simp [takeBack, *]

@[simp] theorem leaveEngine_frame {K : Keep} (s : State) (g : Nat) (code : Code) (_ : K.tasks = false := by assumption) (_ :
    K.acc = false := by assumption) (_ : K.xwin = false := by assumption) (_ : K.gwin = false := by assumption) : obs K
    (leaveEngine s g code) = obs K s :=
  by simp [leaveEngine, *]

@[simp] theorem noEngineLeft_frame {K : Keep} (s : State) (n : Nat) (_ : K.queues = false := by assumption) (_ : K.tasks =
    false := by assumption) (_ : K.acc = false := by assumption) (_ : K.accNext = false := by assumption) (_ : K.qwin = false
    := by assumption) : obs K (noEngineLeft s n) = obs K s :=
  by simp [noEngineLeft, *]

@[simp] theorem engineReset_frame {K : Keep} (s : State) (g : Nat) (_ : K.tasks = false := by assumption) (_ : K.tbl = false
    := by assumption) : obs K (engineReset s g) = obs K s :=
  by simp [engineReset, *]

@[simp] theorem failEngine_frame {K : Keep} (s : State) (g : Nat) (reason : Nat) (_ : K.clr = false := by assumption) (_ :
    K.err = false := by assumption) (_ : K.rings = false := by assumption) (_ : K.queues = false := by assumption) (_ :
    K.tasks = false := by assumption) (_ : K.acc = false := by assumption) (_ : K.accNext = false := by assumption) (_ : K.tbl
    = false := by assumption) (_ : K.qwin = false := by assumption) (_ : K.xwin = false := by assumption) (_ : K.gwin = false
    := by assumption) : obs K (failEngine s g reason) = obs K s := by
  unfold failEngine
  try dsimp only
  repeat' first
    | with_reducible rfl
    | (simp only [raise_frame, leaveEngine_frame, updEngine_frame, issueManifest_frame, degrade_frame, noEngineLeft_frame,
       obs_set_err, *, obs_ite]; done)
    | split

@[simp] theorem engineFault_frame {K : Keep} (s : State) (g : Nat) (kind : Nat) (_ : K.clr = false := by assumption) (_ :
    K.err = false := by assumption) (_ : K.rings = false := by assumption) (_ : K.queues = false := by assumption) (_ :
    K.tasks = false := by assumption) (_ : K.acc = false := by assumption) (_ : K.accNext = false := by assumption) (_ : K.tbl
    = false := by assumption) (_ : K.qwin = false := by assumption) (_ : K.xwin = false := by assumption) (_ : K.gwin = false
    := by assumption) : obs K (engineFault s g kind) = obs K s :=
  by simp [engineFault, *]

theorem execEngineInternalFault_frame {K : Keep} (e : Nat) (kind : Nat) (s : State) (_ : K.clr = false := by assumption) (_ :
    K.err = false := by assumption) (_ : K.rings = false := by assumption) (_ : K.queues = false := by assumption) (_ :
    K.tasks = false := by assumption) (_ : K.acc = false := by assumption) (_ : K.accNext = false := by assumption) (_ : K.tbl
    = false := by assumption) (_ : K.qwin = false := by assumption) (_ : K.xwin = false := by assumption) (_ : K.gwin = false
    := by assumption) : ∃ out, execEngineInternalFault e kind s = .next out ∧ obs K out = obs K s :=
  ⟨_, rfl, by simp [*]⟩

theorem execEngineResetAck_frame {K : Keep} (e : Nat) (s : State) (_ : K.tbl = false := by assumption) : ∃ out,
    execEngineResetAck e s = .next out ∧ obs K out = obs K s :=
  ⟨_, rfl, by simp [*]⟩

@[simp] theorem resetHang_frame {K : Keep} (s : State) (isCore : Bool) (u : Nat) (_ : K.clr = false := by assumption) (_ :
    K.err = false := by assumption) (_ : K.rings = false := by assumption) (_ : K.queues = false := by assumption) (_ :
    K.tasks = false := by assumption) (_ : K.acc = false := by assumption) (_ : K.accNext = false := by assumption) (_ : K.tbl
    = false := by assumption) (_ : K.sch = false := by assumption) (_ : K.qwin = false := by assumption) (_ : K.xwin = false
    := by assumption) (_ : K.gwin = false := by assumption) (_ : K.swin = false := by assumption) (_ : K.out = false := by
    assumption) : obs K (resetHang s isCore u) = obs K s := by
  unfold resetHang
  dsimp only
  simp only [failCore_frame, raise_frame, failEngine_frame, *, obs_ite, ite_self]

theorem execResetHang_frame {K : Keep} (isCore : Bool) (unit : Nat) (s : State) (_ : K.clr = false := by assumption) (_ :
    K.err = false := by assumption) (_ : K.rings = false := by assumption) (_ : K.queues = false := by assumption) (_ :
    K.tasks = false := by assumption) (_ : K.acc = false := by assumption) (_ : K.accNext = false := by assumption) (_ : K.tbl
    = false := by assumption) (_ : K.sch = false := by assumption) (_ : K.qwin = false := by assumption) (_ : K.xwin = false
    := by assumption) (_ : K.gwin = false := by assumption) (_ : K.swin = false := by assumption) (_ : K.out = false := by
    assumption) : ∃ out, execResetHang isCore unit s = .next out ∧ obs K out = obs K s :=
  ⟨_, rfl, by simp [*]⟩

@[simp] theorem envNext_frame {K : Keep} (s : State) (t : Nat) (e : Nat) (k : Task) (v : EnvRun) (_ : K.err = false := by
    assumption) (_ : K.rings = false := by assumption) (_ : K.queues = false := by assumption) (_ : K.tasks = false := by
    assumption) (_ : K.acc = false := by assumption) (_ : K.accNext = false := by assumption) (_ : K.xlt = false := by
    assumption) (_ : K.tbl = false := by assumption) (_ : K.key = false := by assumption) (_ : K.qwin = false := by
    assumption) (_ : K.xwin = false := by assumption) (_ : K.gwin = false := by assumption) (_ : K.twin = false := by
    assumption) (_ : K.swin = false := by assumption) (_ : K.cc = false := by assumption) (_ : K.out = false := by assumption)
    : obs K (envNext s t e k v) = obs K s :=
  by simp [envNext, *]

@[simp] theorem envsTurn_frame {K : Keep} (s : State) (_ : K.err = false := by assumption) (_ : K.rings = false := by
    assumption) (_ : K.queues = false := by assumption) (_ : K.tasks = false := by assumption) (_ : K.acc = false := by
    assumption) (_ : K.accNext = false := by assumption) (_ : K.xlt = false := by assumption) (_ : K.tbl = false := by
    assumption) (_ : K.key = false := by assumption) (_ : K.qwin = false := by assumption) (_ : K.xwin = false := by
    assumption) (_ : K.gwin = false := by assumption) (_ : K.twin = false := by assumption) (_ : K.swin = false := by
    assumption) (_ : K.cc = false := by assumption) (_ : K.out = false := by assumption) : obs K (envsTurn s) = obs K s := by
  unfold envsTurn
  try dsimp only
  repeat' first
    | with_reducible rfl
    | (simp only [envNext_frame, *, obs_ite, ite_self]; done)
    | with_reducible refine (forEach_frame _ _ _ fun _ _ => ?_).trans ?_
    | split

@[simp] theorem drainEnd_frame {K : Keep} (s : State) (t : Nat) (e : Nat) (k : Task) (v : EnvRun) (_ : K.queues = false := by
    assumption) (_ : K.tasks = false := by assumption) (_ : K.acc = false := by assumption) (_ : K.accNext = false := by
    assumption) (_ : K.tbl = false := by assumption) (_ : K.qwin = false := by assumption) (_ : K.twin = false := by
    assumption) (_ : K.swin = false := by assumption) : obs K (drainEnd s t e k v) = obs K s :=
  by simp [drainEnd, *]

@[simp] theorem drainsTurn_frame {K : Keep} (s : State) (_ : K.err = false := by assumption) (_ : K.rings = false := by
    assumption) (_ : K.queues = false := by assumption) (_ : K.tasks = false := by assumption) (_ : K.acc = false := by
    assumption) (_ : K.accNext = false := by assumption) (_ : K.tbl = false := by assumption) (_ : K.key = false := by
    assumption) (_ : K.qwin = false := by assumption) (_ : K.twin = false := by assumption) (_ : K.swin = false := by
    assumption) (_ : K.cc = false := by assumption) : obs K (drainsTurn s) = obs K s := by
  unfold drainsTurn
  try dsimp only
  repeat' first
    | with_reducible rfl
    | (simp only [recordLanded_frame, rowLanded_frame, notePoison_frame, drainEnd_frame, *, obs_ite, ite_self]; done)
    | with_reducible refine (forEach_frame _ _ _ fun _ _ => ?_).trans ?_
    | split

@[simp] theorem engineCharge_frame {K : Keep} (s : State) (_ : K.sch = false := by assumption) (_ : K.pwr = false := by
    assumption) : obs K (engineCharge s) = obs K s := by
  unfold engineCharge
  try dsimp only
  repeat' first
    | with_reducible rfl
    | (simp only [updDom_frame, updAcct_frame, *, obs_ite, ite_self]; done)
    | with_reducible refine (forEach_frame _ _ _ fun _ _ => ?_).trans ?_
    | split

end Sys2Proof.Machine
end

