-- ==== Sys2Proof/Laws/FrameSystem.lean ====
section
/-! SUPPORT. Which fields of the state each operation leaves as they were: power, mailboxes, fences, images, the start-up, recovery and the Trail. A field set `K` that leaves out
what the operation changes is observed alike before and after. -/

namespace Sys2Proof.Machine

set_option Elab.async false
set_option linter.unusedTactic false
set_option linter.unreachableTactic false

/-! TrailBase. -/

@[simp] theorem updLane_frame {K : Keep} (s : State) (l : Nat) (f : TrlLane → TrlLane) (_ : K.trl = false := by assumption) :
    obs K (updLane s l f) = obs K s :=
  by simp [updLane, *]

@[simp] theorem trailSend_frame {K : Keep} (s : State) (type : Nat) (dst : Nat) (body : List Byte) (_ : K.trl = false := by
    assumption) (_ : K.out = false := by assumption) : obs K (trailSend s type dst body) = obs K s :=
  by simp [trailSend, *]

@[simp] theorem dropFrame_frame {K : Keep} (s : State) (_ : K.trl = false := by assumption) : obs K (dropFrame s) = obs K s :=
  by simp [dropFrame, *]

@[simp] theorem sendSets_frame {K : Keep} (s : State) (_ : K.out = false := by assumption) : obs K (sendSets s) = obs K s :=
  by simp [sendSets, *]

@[simp] theorem linkLost_frame {K : Keep} (wasUp : Bool) (s : State) (_ : K.err = false := by assumption) (_ : K.rings = false
    := by assumption) : obs K (linkLost wasUp s) = obs K s :=
  by simp [linkLost, *]

@[simp] theorem trainBegin_frame {K : Keep} (s : State) (fresh : Bool) (_ : K.trl = false := by assumption) (_ : K.out = false
    := by assumption) : obs K (trainBegin s fresh) = obs K s :=
  by simp [trainBegin, *]

@[simp] theorem trailOff_frame {K : Keep} (s : State) (_ : K.err = false := by assumption) (_ : K.rings = false := by
    assumption) (_ : K.trl = false := by assumption) : obs K (trailOff s) = obs K s :=
  by simp [trailOff, *]

@[simp] theorem trailRec_frame {K : Keep} (s : State) (code : Code) (sev : Nat) (d0 : Nat) (d1 : Nat) (d2 : Nat) (_ : K.err =
    false := by assumption) (_ : K.rings = false := by assumption) : obs K (trailRec s code sev d0 d1 d2) = obs K s :=
  by simp [trailRec, *]

@[simp] theorem heartbeatSend_frame {K : Keep} (s : State) (_ : K.trl = false := by assumption) (_ : K.out = false := by
    assumption) : obs K (heartbeatSend s) = obs K s :=
  by simp [heartbeatSend, *]

@[simp] theorem sendAbort_frame {K : Keep} (s : State) (n : Nat) (g : Nat) (ended : Option Nat) (_ : K.err = false := by
    assumption) (_ : K.rings = false := by assumption) (_ : K.trl = false := by assumption) (_ : K.out = false := by
    assumption) : obs K (sendAbort s n g ended) = obs K s := by
  unfold sendAbort
  try dsimp only
  repeat' first
    | with_reducible rfl
    | (simp only [emit_frame, raise_frame, updTrl_frame, *, obs_ite]; done)
    | split

/-! Power. -/

@[simp] theorem powerRequest_frame {K : Keep} (s : State) (d : Nat) (t : PowerSt) (_ : K.pwr = false := by assumption) (_ :
    K.out = false := by assumption) : obs K (powerRequest s d t) = obs K s :=
  by simp [powerRequest, *]

@[simp] theorem powerMove_frame {K : Keep} (s : State) (d : Nat) (t : PowerSt) (now : Bool) (_ : K.pwr = false := by
    assumption) (_ : K.out = false := by assumption) : obs K (powerMove s d t now) = obs K s :=
  by simp [powerMove, *]

@[simp] theorem powerTurn_frame {K : Keep} (s : State) (_ : K.pwr = false := by assumption) (_ : K.out = false := by
    assumption) : obs K (powerTurn s) = obs K s :=
  by simp [powerTurn, *]

@[simp] theorem coreUp_frame {K : Keep} (s : State) (c : Nat) (_ : K.sch = false := by assumption) (_ : K.out = false := by
    assumption) : obs K (coreUp s c) = obs K s :=
  by simp [coreUp, *]

@[simp] theorem domainDown_frame {K : Keep} (s : State) (d : Nat) (_ : K.tbl = false := by assumption) (_ : K.sch = false :=
    by assumption) : obs K (domainDown s d) = obs K s :=
  by simp [domainDown, *]

@[simp] theorem commandDone_frame {K : Keep} (s : State) (d : Nat) (_ : K.pwr = false := by assumption) : obs K (commandDone s
    d) = obs K s :=
  by simp [commandDone, *]

@[simp] theorem powerAck_frame {K : Keep} (s : State) (d : Nat) (_ : K.err = false := by assumption) (_ : K.rings = false :=
    by assumption) (_ : K.tbl = false := by assumption) (_ : K.sch = false := by assumption) (_ : K.pwr = false := by
    assumption) (_ : K.trl = false := by assumption) (_ : K.out = false := by assumption) : obs K (powerAck s d) = obs K s := by
  unfold powerAck
  try dsimp only
  repeat' first
    | with_reducible rfl
    | (simp only [updDom_frame, coreUp_frame, domainDown_frame, updPwr_frame, trainBegin_frame, trailOff_frame,
       commandDone_frame, *, obs_ite, ite_self, forEach_frame, implies_true]; done)
    | split

theorem execPowerAck_frame {K : Keep} (d : Nat) (s : State) (_ : K.err = false := by assumption) (_ : K.rings = false := by
    assumption) (_ : K.tbl = false := by assumption) (_ : K.sch = false := by assumption) (_ : K.pwr = false := by assumption)
    (_ : K.trl = false := by assumption) (_ : K.out = false := by assumption) : ∃ out, execPowerAck d s = .next out ∧ obs K
    out = obs K s :=
  ⟨_, rfl, by simp [*]⟩

@[simp] theorem chargeDomain_frame {K : Keep} (s : State) (d : Nat) (_ : K.pwr = false := by assumption) (_ : K.pwin = false
    := by assumption) : obs K (chargeDomain s d) = obs K s := by
  unfold chargeDomain
  try dsimp only
  repeat' first
    | with_reducible rfl
    | (simp only [updDom_frame, updPwin_frame, *]; done)
    | split

@[simp] theorem powerBoundary_frame {K : Keep} (s : State) (_ : K.pwr = false := by assumption) (_ : K.pwin = false := by
    assumption) : obs K (powerBoundary s) = obs K s :=
  by simp [powerBoundary, *]

@[simp] theorem pwrCommand_frame {K : Keep} (q : Requester) (w : Word) (s : State) (_ : K.glob = false := by trivial) (_ :
    K.win = false := by trivial) (_ : K.pwr = false := by trivial) : obs K (pwrCommand q w s) = obs K s := by
  unfold pwrCommand
  exact globalCmd_frame q s _ ((updPwr_frame _ _).trans (checked_frame _ _ _ (updDom_frame _ _ _)))

theorem execPwrCmd_frame {K : Keep} (q : Requester) (w : Word) (s : State) (_ : K.glob = false := by assumption) (_ : K.win =
    false := by assumption) (_ : K.pwr = false := by assumption) : ∃ out, execPwrCmd q w s = .next out ∧ obs K out = obs K s
    :=
  ⟨_, rfl, by simp [*]⟩

@[simp] theorem coreWfi_frame {K : Keep} (s : State) (c : Nat) (_ : K.pwr = false := by assumption) : obs K (coreWfi s c) =
    obs K s :=
  by simp [coreWfi, *]

theorem execControlCoreWfi_frame {K : Keep} (core : Nat) (s : State) (_ : K.pwr = false := by assumption) : ∃ out,
    execControlCoreWfi core s = .next out ∧ obs K out = obs K s :=
  ⟨_, rfl, by simp [*]⟩

/-! Mailboxes. -/

@[simp] theorem mbxCmd_frame {K : Keep} (q : Requester) (s : State) (body : State → Checked) (h : obs K (body s).2 = obs K s)
    (_ : K.glob = false := by trivial) (_ : K.win = false := by trivial) : obs K (mbxCmd q s body) = obs K s := by
  unfold mbxCmd
  (repeat' split) <;> simp [*]

@[simp] theorem lockRead_frame {K : Keep} (s : State) (q : Requester) (m : Nat) (_ : K.mbx = false := by assumption) (_ :
    K.out = false := by assumption) : obs K (lockRead s q m) = obs K s :=
  by simp [lockRead, *]

theorem execMbxLockAcquire_frame {K : Keep} (q : Requester) (m : Nat) (s : State) (_ : K.mbx = false := by assumption) (_ :
    K.out = false := by assumption) : ∃ out, execMbxLockAcquire q m s = .next out ∧ obs K out = obs K s :=
  ⟨_, rfl, by simp [*]⟩

@[simp] theorem unlockWrite_frame {K : Keep} (q : Requester) (m : Nat) (w : Word) (s : State) (_ : K.glob = false := by
    assumption) (_ : K.win = false := by assumption) (_ : K.mbx = false := by assumption) : obs K (unlockWrite q m w s) = obs
    K s := by
  unfold unlockWrite
  refine mbxCmd_frame _ _ _ (checked_frame _ _ _ ?_)
  simp [*]

theorem execMbxRelease_frame {K : Keep} (q : Requester) (m : Nat) (w : Word) (s : State) (_ : K.glob = false := by assumption)
    (_ : K.win = false := by assumption) (_ : K.mbx = false := by assumption) : ∃ out, execMbxRelease q m w s = .next out ∧
    obs K out = obs K s :=
  ⟨_, rfl, by simp [*]⟩

theorem execMbxBreak_frame {K : Keep} (q : Requester) (m : Nat) (w : Word) (s : State) (_ : K.glob = false := by assumption)
    (_ : K.win = false := by assumption) (_ : K.mbx = false := by assumption) : ∃ out, execMbxBreak q m w s = .next out ∧ obs
    K out = obs K s :=
  ⟨_, rfl, by simp [*]⟩

@[simp] theorem notify_frame {K : Keep} (s : State) (q : Requester) (v : Nat) (_ : K.out = false := by assumption) : obs K
    (notify s q v) = obs K s := by
  unfold notify
  try dsimp only
  repeat' first
    | with_reducible rfl
    | (simp only [msix_frame, emit_frame, *, obs_ite, ite_self]; done)
    | split

@[simp] theorem ackMsg_frame {K : Keep} (s : State) (m : Nat) (g : MbxMsg) (seq : Nat) (c : Code) (_ : K.mbx = false := by assumption) (_ :
    K.out = false := by assumption) : obs K (ackMsg s m g seq c) = obs K s :=
  by simp [ackMsg, *]

@[simp] theorem ackTaken_frame {K : Keep} (s : State) (m : Nat) (c : Code) (_ : K.mbx = false := by assumption) (_ : K.out =
    false := by assumption) : obs K (ackTaken s m c) = obs K s :=
  by simp [ackTaken, *]

@[simp] theorem ackPosted_frame {K : Keep} (s : State) (m : Nat) (c : Code) (_ : K.mbx = false := by assumption) (_ : K.out =
    false := by assumption) : obs K (ackPosted s m c) = obs K s :=
  by simp [ackPosted, *]

@[simp] theorem wakeEvent_frame {K : Keep} (s : State) (m : Nat) (_ : K.pwr = false := by assumption) (_ : K.out = false := by
    assumption) : obs K (wakeEvent s m) = obs K s := by
  unfold wakeEvent
  dsimp only
  simp only [updPwr_frame, notify_frame, updDom_frame, *, obs_ite, ite_self]

@[simp] theorem postMsg_frame {K : Keep} (s : State) (q : Requester) (m : Nat) (ackIrq : Bool) (v : Nat) (_ : K.pwr = false :=
    by assumption) (_ : K.mbx = false := by assumption) (_ : K.out = false := by assumption) : obs K (postMsg s q m ackIrq v)
    = obs K s := by
  unfold postMsg
  dsimp only
  simp only [updMbx_frame, wakeEvent_frame, ackPosted_frame, *, obs_ite, ite_self]

@[simp] theorem dataWrite_frame {K : Keep} (q : Requester) (m : Nat) (k : Nat) (w : Word) (s : State) (_ : K.glob = false :=
    by assumption) (_ : K.win = false := by assumption) (_ : K.mbx = false := by assumption) : obs K (dataWrite q m k w s) =
    obs K s := by
  unfold dataWrite
  refine mbxCmd_frame _ _ _ (checked_frame _ _ _ ?_)
  simp [*]

theorem execMbxDataWrite_frame {K : Keep} (q : Requester) (m : Nat) (k : Nat) (w : Word) (s : State) (_ : K.glob = false := by
    assumption) (_ : K.win = false := by assumption) (_ : K.mbx = false := by assumption) : ∃ out, execMbxDataWrite q m k w s
    = .next out ∧ obs K out = obs K s :=
  ⟨_, rfl, by simp [*]⟩

@[simp] theorem postWrite_frame {K : Keep} (q : Requester) (m : Nat) (w : Word) (s : State) (_ : K.glob = false := by
    assumption) (_ : K.win = false := by assumption) (_ : K.pwr = false := by assumption) (_ : K.mbx = false := by assumption)
    (_ : K.out = false := by assumption) : obs K (postWrite q m w s) = obs K s := by
  unfold postWrite
  refine mbxCmd_frame _ _ _ (checked_frame _ _ _ ?_)
  simp [*]

theorem execMbxPost_frame {K : Keep} (q : Requester) (m : Nat) (w : Word) (s : State) (_ : K.glob = false := by assumption) (_
    : K.win = false := by assumption) (_ : K.pwr = false := by assumption) (_ : K.mbx = false := by assumption) (_ : K.out =
    false := by assumption) : ∃ out, execMbxPost q m w s = .next out ∧ obs K out = obs K s :=
  ⟨_, rfl, by simp [*]⟩

@[simp] theorem takeMsg_frame {K : Keep} (s : State) (m : Nat) (_ : K.mbx = false := by assumption) : obs K (takeMsg s m) =
    obs K s :=
  by simp [takeMsg, *]

@[simp] theorem takeWrite_frame {K : Keep} (q : Requester) (m : Nat) (w : Word) (s : State) (_ : K.glob = false := by
    assumption) (_ : K.win = false := by assumption) (_ : K.mbx = false := by assumption) : obs K (takeWrite q m w s) = obs K
    s := by
  unfold takeWrite
  refine mbxCmd_frame _ _ _ (checked_frame _ _ _ ?_)
  simp [*]

theorem execMbxTake_frame {K : Keep} (q : Requester) (m : Nat) (w : Word) (s : State) (_ : K.glob = false := by assumption) (_
    : K.win = false := by assumption) (_ : K.mbx = false := by assumption) : ∃ out, execMbxTake q m w s = .next out ∧ obs K
    out = obs K s :=
  ⟨_, rfl, by simp [*]⟩

@[simp] theorem ackWrite_frame {K : Keep} (q : Requester) (m : Nat) (w : Word) (s : State) (_ : K.glob = false := by
    assumption) (_ : K.win = false := by assumption) (_ : K.mbx = false := by assumption) (_ : K.out = false := by assumption)
    : obs K (ackWrite q m w s) = obs K s := by
  unfold ackWrite
  refine mbxCmd_frame _ _ _ (checked_frame _ _ _ ?_)
  simp [*]

theorem execMbxAckTaken_frame {K : Keep} (q : Requester) (m : Nat) (w : Word) (s : State) (_ : K.glob = false := by
    assumption) (_ : K.win = false := by assumption) (_ : K.mbx = false := by assumption) (_ : K.out = false := by assumption)
    : ∃ out, execMbxAckTaken q m w s = .next out ∧ obs K out = obs K s :=
  ⟨_, rfl, by simp [*]⟩

theorem execMbxAckPosted_frame {K : Keep} (q : Requester) (m : Nat) (w : Word) (s : State) (_ : K.glob = false := by
    assumption) (_ : K.win = false := by assumption) (_ : K.mbx = false := by assumption) (_ : K.out = false := by assumption)
    : ∃ out, execMbxAckPosted q m w s = .next out ∧ obs K out = obs K s :=
  ⟨_, rfl, by simp [*]⟩

@[simp] theorem freeLocks_frame {K : Keep} (s : State) (q : Requester) (_ : K.mbx = false := by assumption) : obs K (freeLocks
    s q) = obs K s :=
  by simp [freeLocks, *]

@[simp] theorem removeRecv_frame {K : Keep} (s : State) (m : Nat) (_ : K.mbx = false := by assumption) (_ : K.out = false :=
    by assumption) : obs K (removeRecv s m) = obs K s :=
  by simp [removeRecv, *]

@[simp] theorem requesterGone_frame {K : Keep} (s : State) (q : Requester) (_ : K.mbx = false := by assumption) (_ : K.out =
    false := by assumption) : obs K (requesterGone s q) = obs K s :=
  by simp [requesterGone, *]

@[simp] theorem recvWrite_frame {K : Keep} (q : Requester) (m : Nat) (w : Word) (s : State) (_ : K.glob = false := by
    assumption) (_ : K.win = false := by assumption) (_ : K.mbx = false := by assumption) (_ : K.out = false := by assumption)
    : obs K (recvWrite q m w s) = obs K s := by
  unfold recvWrite
  refine mbxCmd_frame _ _ _ (checked_frame _ _ _ ?_)
  simp [*]

theorem execMbxRecvWrite_frame {K : Keep} (q : Requester) (m : Nat) (w : Word) (s : State) (_ : K.glob = false := by
    assumption) (_ : K.win = false := by assumption) (_ : K.mbx = false := by assumption) (_ : K.out = false := by assumption)
    : ∃ out, execMbxRecvWrite q m w s = .next out ∧ obs K out = obs K s :=
  ⟨_, rfl, by simp [*]⟩

@[simp] theorem bootRegister_frame {K : Keep} (s : State) (_ : K.mbx = false := by assumption) : obs K (bootRegister s) = obs
    K s :=
  by simp [bootRegister, *]

/-! Cuts. -/

@[simp] theorem cutEnv_frame {K : Keep} (code : Code) (expired : Bool) (t : Nat) (s : State) (e : Nat) (_ : K.queues = false
    := by assumption) (_ : K.tasks = false := by assumption) (_ : K.acc = false := by assumption) (_ : K.qwin = false := by
    assumption) : obs K (cutEnv code expired t s e) = obs K s := by
  unfold cutEnv
  try dsimp only
  repeat' first
    | with_reducible rfl
    | (simp only [completeEnv_frame, stopEnv_frame, *, obs_ite, ite_self]; done)
    | split

@[simp] theorem cutJobs_frame {K : Keep} (code : Code) (expired : Bool) (t : Nat) (s : State) (_ : K.queues = false := by
    assumption) (_ : K.tasks = false := by assumption) (_ : K.sch = false := by assumption) (_ : K.qwin = false := by
    assumption) (_ : K.swin = false := by assumption) : obs K (cutJobs code expired t s) = obs K s := by
  unfold cutJobs
  try dsimp only
  repeat' first
    | with_reducible rfl
    | (simp only [jobStop_frame, completeEnv_frame, *, obs_ite, ite_self, forEach_frame, implies_true]; done)
    | with_reducible refine (forEach_frame _ _ _ fun _ _ => ?_).trans ?_
    | split

@[simp] theorem cutTask_frame {K : Keep} (s : State) (t : Nat) (code : Code) (expired : Bool) (_ : K.queues = false := by
    assumption) (_ : K.tasks = false := by assumption) (_ : K.acc = false := by assumption) (_ : K.sch = false := by
    assumption) (_ : K.qwin = false := by assumption) (_ : K.swin = false := by assumption) : obs K (cutTask s t code expired)
    = obs K s := by
  unfold cutTask
  try dsimp only
  repeat' first
    | with_reducible rfl
    | (simp only [updTask_frame, cutJobs_frame, cutEnv_frame, *, forEach_frame, implies_true]; done)
    | split

@[simp] theorem endMeasure_frame {K : Keep} (s : State) (t : Nat) (us : Nat) (_ : K.clr = false := by assumption) (_ : K.tasks
    = false := by assumption) : obs K (endMeasure s t us) = obs K s := by
  unfold endMeasure
  try dsimp only
  repeat' first
    | with_reducible rfl
    | (simp only [measureTask_frame, updTask_frame, *, obs_ite, ite_self]; done)
    | split

@[simp] theorem expireItems_frame {K : Keep} (s : State) (t : Nat) (_ : K.queues = false := by assumption) (_ : K.tasks =
    false := by assumption) : obs K (expireItems s t) = obs K s := by
  unfold expireItems
  try dsimp only
  repeat' first
    | with_reducible rfl
    | (simp only [updTask_frame, updQueue_frame, *]; done)
    | split

@[simp] theorem taskDeadline_frame {K : Keep} (s : State) (t : Nat) (_ : K.clr = false := by assumption) (_ : K.queues = false
    := by assumption) (_ : K.tasks = false := by assumption) (_ : K.acc = false := by assumption) (_ : K.sch = false := by
    assumption) (_ : K.qwin = false := by assumption) (_ : K.swin = false := by assumption) : obs K (taskDeadline s t) = obs K
    s := by
  unfold taskDeadline
  try dsimp only
  repeat' first
    | with_reducible rfl
    | (simp only [updQwin_frame, cutTask_frame, expireItems_frame, endMeasure_frame, *, obs_ite, ite_self]; done)
    | split

theorem execTaskDeadline_frame {K : Keep} (task : Nat) (s : State) (_ : K.clr = false := by assumption) (_ : K.queues = false
    := by assumption) (_ : K.tasks = false := by assumption) (_ : K.acc = false := by assumption) (_ : K.sch = false := by
    assumption) (_ : K.qwin = false := by assumption) (_ : K.swin = false := by assumption) : ∃ out, execTaskDeadline task s =
    .next out ∧ obs K out = obs K s :=
  ⟨_, rfl, by simp [*]⟩

@[simp] theorem unfoldReq_frame {K : Keep} (s : State) (t : Nat) (r : MemReq) (_ : K.ls = false := by assumption) : obs K
    (unfoldReq s t r) = obs K s := by
  unfold unfoldReq
  try dsimp only
  repeat' first
    | with_reducible rfl
    | (simp only [unfoldGranule_frame, *, obs_ite, ite_self]; done)
    | split

@[simp] theorem withdraw_frame {K : Keep} (s : State) (x : Nat × MemReq) (_ : K.glob = false := by assumption) (_ : K.clr =
    false := by assumption) (_ : K.cal = false := by assumption) (_ : K.err = false := by assumption) (_ : K.rings = false :=
    by assumption) (_ : K.que = false := by assumption) (_ : K.queues = false := by assumption) (_ : K.tasks = false := by
    assumption) (_ : K.acc = false := by assumption) (_ : K.accNext = false := by assumption) (_ : K.tbl = false := by
    assumption) (_ : K.sch = false := by assumption) (_ : K.ls = false := by assumption) (_ : K.bar = false := by assumption)
    (_ : K.qwin = false := by assumption) (_ : K.xwin = false := by assumption) (_ : K.gwin = false := by assumption) (_ :
    K.swin = false := by assumption) (_ : K.pwin = false := by assumption) (_ : K.cc = false := by assumption) (_ : K.out =
    false := by assumption) : obs K (withdraw s x) = obs K s := by
  unfold withdraw
  try dsimp only
  repeat' first
    | with_reducible rfl
    | (simp only [countOutstanding_frame, takeReq_frame, unfoldReq_frame, coreRespond_frame, refusalRec_frame, emit_frame,
       answerAcc_frame, *]; done)
    | split

@[simp] theorem ctxLeft_frame {K : Keep} (s : State) (c : Nat) (old : Nat) (_ : K.glob = false := by assumption) (_ : K.clr =
    false := by assumption) (_ : K.cal = false := by assumption) (_ : K.err = false := by assumption) (_ : K.rings = false :=
    by assumption) (_ : K.que = false := by assumption) (_ : K.queues = false := by assumption) (_ : K.tasks = false := by
    assumption) (_ : K.acc = false := by assumption) (_ : K.accNext = false := by assumption) (_ : K.xlt = false := by
    assumption) (_ : K.tbl = false := by assumption) (_ : K.sch = false := by assumption) (_ : K.ls = false := by assumption)
    (_ : K.bar = false := by assumption) (_ : K.qwin = false := by assumption) (_ : K.xwin = false := by assumption) (_ :
    K.gwin = false := by assumption) (_ : K.swin = false := by assumption) (_ : K.pwin = false := by assumption) (_ : K.cc =
    false := by assumption) (_ : K.out = false := by assumption) : obs K (ctxLeft s c old) = obs K s := by
  unfold ctxLeft
  rw [updAcct_frame, xltCtxLeft_frame]
  exact foldl_frame withdraw (fun s x => withdraw_frame s x) _ s

@[simp] theorem tearTasks_frame {K : Keep} (s : State) (n : Nat) (c : Nat) (old : Nat) (_ : K.err = false := by assumption) (_
    : K.rings = false := by assumption) (_ : K.queues = false := by assumption) (_ : K.tasks = false := by assumption) (_ :
    K.acc = false := by assumption) (_ : K.sch = false := by assumption) (_ : K.qwin = false := by assumption) (_ : K.swin =
    false := by assumption) : obs K (tearTasks s n c old) = obs K s :=
  by simp [tearTasks, *]

@[simp] theorem abortClearing_frame {K : Keep} (g : Nat) (src : Nat) (s : State) (n : Nat) (_ : K.clr = false := by
    assumption) (_ : K.err = false := by assumption) (_ : K.rings = false := by assumption) (_ : K.queues = false := by
    assumption) (_ : K.tasks = false := by assumption) (_ : K.acc = false := by assumption) (_ : K.sch = false := by
    assumption) (_ : K.qwin = false := by assumption) (_ : K.swin = false := by assumption) : obs K (abortClearing g src s n)
    = obs K s := by
  unfold abortClearing
  try dsimp only
  repeat' first
    | with_reducible rfl
    | (simp only [cutTask_frame, endMeasure_frame, raise_frame, *, obs_ite, ite_self]; done)
    | with_reducible refine (forEach_frame _ _ _ fun _ _ => ?_).trans ?_
    | (simp only [raise_frame, *, obs_ite]; with_reducible refine (forEach_frame _ _ _ fun _ _ => ?_).trans ?_)
    | (simp only [raise_frame, *, obs_ite]; exact enterStore_frame _ _ _ (by assumption))
    | exact enterStore_frame _ _ _ (by assumption)
    | (simp only [raise_frame, *, obs_ite]; split)
    | split
    | (simp [*]; done)

@[simp] theorem localAbort_frame {K : Keep} (s : State) (g : Nat) (src : Nat) (_ : K.clr = false := by assumption) (_ : K.err
    = false := by assumption) (_ : K.rings = false := by assumption) (_ : K.queues = false := by assumption) (_ : K.tasks =
    false := by assumption) (_ : K.acc = false := by assumption) (_ : K.sch = false := by assumption) (_ : K.qwin = false :=
    by assumption) (_ : K.swin = false := by assumption) : obs K (localAbort s g src) = obs K s :=
  by simp [localAbort, *]

@[simp] theorem fenceTask_frame {K : Keep} (s : State) (t : Nat) (_ : K.tasks = false := by assumption) (_ : K.acc = false :=
    by assumption) (_ : K.accNext = false := by assumption) : obs K (fenceTask s t) = obs K s := by
  unfold fenceTask
  try dsimp only
  repeat' first
    | with_reducible rfl
    | (simp only [updTask_frame, updEnv_frame, leftRewrites_frame, stopEnv_frame, *, obs_ite, ite_self]; done)
    | with_reducible refine (forEach_frame _ _ _ fun _ _ => ?_).trans ?_
    | split

@[simp] theorem endTasks_frame {K : Keep} (s : State) (n : Nat) (_ : K.queues = false := by assumption) (_ : K.tasks = false
    := by assumption) (_ : K.acc = false := by assumption) (_ : K.accNext = false := by assumption) : obs K (endTasks s n) =
    obs K s :=
  by simp [endTasks, *]

@[simp] theorem fenceShared_frame {K : Keep} (s : State) (n : Nat) (_ : K.que = false := by assumption) (_ : K.tbl = false :=
    by assumption) (_ : K.ls = false := by assumption) (_ : K.bar = false := by assumption) (_ : K.twin = false := by
    assumption) : obs K (fenceShared s n) = obs K s :=
  by simp [fenceShared, *]

@[simp] theorem stopUnits_frame {K : Keep} (s : State) (n : Nat) (_ : K.ctx = false := by assumption) (_ : K.tasks = false :=
    by assumption) (_ : K.tbl = false := by assumption) (_ : K.sch = false := by assumption) (_ : K.pwr = false := by
    assumption) (_ : K.out = false := by assumption) : obs K (stopUnits s n) = obs K s := by
  unfold stopUnits
  try dsimp only
  repeat' first
    | with_reducible rfl
    | (simp only [engineReset_frame, updJob_frame, freezeReset_frame, releaseCores_frame, *, forEach_frame,
       implies_true]; done)
    | with_reducible refine (forEach_frame _ _ _ fun _ _ => ?_).trans ?_
    | split

@[simp] theorem clearQueues_frame {K : Keep} (s : State) (base : Nat) (count : Nat) (_ : K.que = false := by assumption) (_ :
    K.queues = false := by assumption) (_ : K.qwin = false := by assumption) : obs K (clearQueues s base count) = obs K s := by
  unfold clearQueues
  dsimp only
  simp only [disableDone_frame, unspillAll_frame, updQue_frame, obs_set_queues, *, forEach_frame,
    implies_true]

@[simp] theorem leaveRewrites_frame {K : Keep} (s : State) (n : Nat) (_ : K.acc = false := by assumption) (_ : K.accNext =
    false := by assumption) : obs K (leaveRewrites s n) = obs K s :=
  by simp [leaveRewrites, *]

@[simp] theorem leaveRows_frame {K : Keep} (s : State) (n : Nat) (_ : K.tasks = false := by assumption) (_ : K.tbl = false :=
    by assumption) (_ : K.key = false := by assumption) (_ : K.twin = false := by assumption) : obs K (leaveRows s n) = obs K
    s :=
  by simp [leaveRows, *]

@[simp] theorem leaveUpdates_frame {K : Keep} (s : State) (n : Nat) (_ : K.tbl = false := by assumption) (_ : K.twin = false
    := by assumption) : obs K (leaveUpdates s n) = obs K s :=
  by simp [leaveUpdates, *]

@[simp] theorem clearStreams_frame {K : Keep} (s : State) (n : Nat) (_ : K.ctx = false := by assumption) (_ : K.tasks = false
    := by assumption) (_ : K.acc = false := by assumption) (_ : K.accNext = false := by assumption) (_ : K.tbl = false := by
    assumption) (_ : K.sch = false := by assumption) (_ : K.pwr = false := by assumption) (_ : K.key = false := by assumption)
    (_ : K.twin = false := by assumption) : obs K (clearStreams s n) = obs K s := by
  unfold clearStreams
  refine (obs_set_acc _ _).trans ((obs_set_tasks _ _).trans ((updSch_frame _ _).trans ?_))
  refine (forEach_frame _ _ _ fun s j => releaseCores_frame s j).trans ?_
  rw [leaveUpdates_frame, leaveRewrites_frame, leaveRows_frame]

@[simp] theorem resetCore_frame {K : Keep} (s : State) (c : Nat) (_ : K.sch = false := by assumption) (_ : K.out = false := by
    assumption) : obs K (resetCore s c) = obs K s :=
  by simp [resetCore, *]

@[simp] theorem enterResetting_frame {K : Keep} (s : State) (n : Nat) (_ : K.ctx = false := by assumption) (_ : K.que = false
    := by assumption) (_ : K.queues = false := by assumption) (_ : K.tasks = false := by assumption) (_ : K.acc = false := by
    assumption) (_ : K.accNext = false := by assumption) (_ : K.tbl = false := by assumption) (_ : K.sch = false := by
    assumption) (_ : K.pwr = false := by assumption) (_ : K.mbx = false := by assumption) (_ : K.key = false := by assumption)
    (_ : K.qwin = false := by assumption) (_ : K.twin = false := by assumption) (_ : K.swin = false := by assumption) (_ :
    K.out = false := by assumption) : obs K (enterResetting s n) = obs K s :=
  by simp [enterResetting, *]

@[simp] theorem releaseUnits_frame {K : Keep} (s : State) (n : Nat) (new : Option ClearingCfg) (_ : K.ctx = false := by
    assumption) (_ : K.que = false := by assumption) (_ : K.queues = false := by assumption) (_ : K.tasks = false := by
    assumption) (_ : K.acc = false := by assumption) (_ : K.accNext = false := by assumption) (_ : K.tbl = false := by
    assumption) (_ : K.sch = false := by assumption) (_ : K.pwr = false := by assumption) (_ : K.mbx = false := by assumption)
    (_ : K.key = false := by assumption) (_ : K.qwin = false := by assumption) (_ : K.twin = false := by assumption) (_ :
    K.swin = false := by assumption) (_ : K.out = false := by assumption) : obs K (releaseUnits s n new) = obs K s := by
  unfold releaseUnits
  dsimp only
  simp only [clearStreams_frame, clearQueues_frame, zeroiseSlots_frame, engineReset_frame, resetCore_frame,
    requesterGone_frame, canopyReset_frame, tableReset_frame, updQue_frame, *, forEach_frame, implies_true]

@[simp] theorem reserveQuota_frame {K : Keep} (s : State) (n : Nat) (_ : K.que = false := by assumption) : obs K (reserveQuota
    s n) = obs K s :=
  by simp [reserveQuota, *]

/-! FenceOps. -/

@[simp] theorem leaveLive_frame {K : Keep} (s : State) (c : Nat) (st : CtxState) (_ : K.glob = false := by assumption) (_ :
    K.clr = false := by assumption) (_ : K.ctx = false := by assumption) (_ : K.cal = false := by assumption) (_ : K.err =
    false := by assumption) (_ : K.rings = false := by assumption) (_ : K.que = false := by assumption) (_ : K.queues = false
    := by assumption) (_ : K.tasks = false := by assumption) (_ : K.acc = false := by assumption) (_ : K.accNext = false := by
    assumption) (_ : K.xlt = false := by assumption) (_ : K.tbl = false := by assumption) (_ : K.sch = false := by assumption)
    (_ : K.ls = false := by assumption) (_ : K.bar = false := by assumption) (_ : K.qwin = false := by assumption) (_ : K.xwin
    = false := by assumption) (_ : K.gwin = false := by assumption) (_ : K.swin = false := by assumption) (_ : K.pwin = false
    := by assumption) (_ : K.cc = false := by assumption) (_ : K.out = false := by assumption) : obs K (leaveLive s c st) =
    obs K s :=
  by simp [leaveLive, *]

@[simp] theorem freeCtx_frame {K : Keep} (s : State) (c : Nat) (_ : K.win = false := by assumption) (_ : K.ctx = false := by
    assumption) : obs K (freeCtx s c) = obs K s := by
  unfold freeCtx
  try dsimp only
  repeat' first
    | with_reducible rfl
    | (simp only [updCtx_frame, updWin_frame, *, obs_ite, ite_self]; done)
    | split

@[simp] theorem beginFence_frame {K : Keep} (s : State) (n : Nat) (cause : Nat) (_ : K.glob = false := by assumption) (_ :
    K.clr = false := by assumption) (_ : K.win = false := by assumption) (_ : K.ctx = false := by assumption) (_ : K.cal =
    false := by assumption) (_ : K.err = false := by assumption) (_ : K.rings = false := by assumption) (_ : K.que = false :=
    by assumption) (_ : K.queues = false := by assumption) (_ : K.tasks = false := by assumption) (_ : K.acc = false := by
    assumption) (_ : K.accNext = false := by assumption) (_ : K.xlt = false := by assumption) (_ : K.tbl = false := by
    assumption) (_ : K.sch = false := by assumption) (_ : K.trl = false := by assumption) (_ : K.ls = false := by assumption)
    (_ : K.bar = false := by assumption) (_ : K.qwin = false := by assumption) (_ : K.xwin = false := by assumption) (_ :
    K.gwin = false := by assumption) (_ : K.twin = false := by assumption) (_ : K.swin = false := by assumption) (_ : K.pwin =
    false := by assumption) (_ : K.cc = false := by assumption) (_ : K.out = false := by assumption) : obs K (beginFence s n
    cause) = obs K s := by
  unfold beginFence
  dsimp only
  simp only [leaveLive_frame, updClr_frame, updWin_frame, setClrState_frame, sendAbort_frame, raise_frame, fenceShared_frame,
    endTasks_frame, obs_set_err, *, obs_ite, ite_self, forEach_frame, implies_true]

@[simp] theorem resetEvent_frame {K : Keep} (s : State) (n : Nat) (cause : Nat) (_ : K.glob = false := by assumption) (_ :
    K.clr = false := by assumption) (_ : K.win = false := by assumption) (_ : K.ctx = false := by assumption) (_ : K.cal =
    false := by assumption) (_ : K.err = false := by assumption) (_ : K.rings = false := by assumption) (_ : K.que = false :=
    by assumption) (_ : K.queues = false := by assumption) (_ : K.tasks = false := by assumption) (_ : K.acc = false := by
    assumption) (_ : K.accNext = false := by assumption) (_ : K.xlt = false := by assumption) (_ : K.tbl = false := by
    assumption) (_ : K.sch = false := by assumption) (_ : K.trl = false := by assumption) (_ : K.ls = false := by assumption)
    (_ : K.bar = false := by assumption) (_ : K.qwin = false := by assumption) (_ : K.xwin = false := by assumption) (_ :
    K.gwin = false := by assumption) (_ : K.twin = false := by assumption) (_ : K.swin = false := by assumption) (_ : K.pwin =
    false := by assumption) (_ : K.cc = false := by assumption) (_ : K.out = false := by assumption) : obs K (resetEvent s n
    cause) = obs K s := by
  unfold resetEvent
  try dsimp only
  repeat' first
    | with_reducible rfl
    | (simp only [beginFence_frame, *]; done)
    | split

@[simp] theorem fenceStop_frame {K : Keep} (s : State) (n : Nat) (_ : K.clr = false := by assumption) (_ : K.ctx = false := by
    assumption) (_ : K.tasks = false := by assumption) (_ : K.tbl = false := by assumption) (_ : K.sch = false := by
    assumption) (_ : K.pwr = false := by assumption) (_ : K.out = false := by assumption) : obs K (fenceStop s n) = obs K s := by
  unfold fenceStop
  try dsimp only
  repeat' first
    | with_reducible rfl
    | (simp only [stopUnits_frame, updClr_frame, *, obs_ite, ite_self]; done)
    | split

@[simp] theorem fenceDrained_frame {K : Keep} (s : State) (n : Nat) (_ : K.glob = false := by assumption) (_ : K.clr = false
    := by assumption) (_ : K.win = false := by assumption) (_ : K.ctx = false := by assumption) (_ : K.que = false := by
    assumption) (_ : K.queues = false := by assumption) (_ : K.tasks = false := by assumption) (_ : K.acc = false := by
    assumption) (_ : K.accNext = false := by assumption) (_ : K.tbl = false := by assumption) (_ : K.sch = false := by
    assumption) (_ : K.pwr = false := by assumption) (_ : K.mbx = false := by assumption) (_ : K.key = false := by assumption)
    (_ : K.bar = false := by assumption) (_ : K.qwin = false := by assumption) (_ : K.twin = false := by assumption) (_ :
    K.swin = false := by assumption) (_ : K.pwin = false := by assumption) (_ : K.cc = false := by assumption) (_ : K.out =
    false := by assumption) : obs K (fenceDrained s n) = obs K s :=
  by simp [fenceDrained, *]

@[simp] theorem flrRaise_frame {K : Keep} (s : State) (_ : K.err = false := by assumption) (_ : K.out = false := by
    assumption) : obs K (flrRaise s) = obs K s :=
  by simp [flrRaise, *]

@[simp] theorem resetDone_frame {K : Keep} (s : State) (n : Nat) (_ : K.glob = false := by assumption) (_ : K.clr = false :=
    by assumption) (_ : K.win = false := by assumption) (_ : K.err = false := by assumption) (_ : K.rings = false := by
    assumption) (_ : K.bar = false := by assumption) (_ : K.swin = false := by assumption) (_ : K.pwin = false := by
    assumption) (_ : K.cc = false := by assumption) (_ : K.out = false := by assumption) : obs K (resetDone s n) = obs K s := by
  unfold resetDone
  dsimp only
  simp only [updClr_frame, updWin_frame, setClrState_frame, resetMeas_frame, resetTun_frame, raise_frame, flrRaise_frame,
    issueManifest_frame, *, obs_ite, ite_self]

theorem clrOperation_frame {K : Keep} (s : State) (n : Nat) (op : Nat) (timeout : Nat) (_ : K.glob = false := by assumption)
    (_ : K.clr = false := by assumption) (_ : K.win = false := by assumption) (_ : K.ctx = false := by assumption) (_ : K.cal
    = false := by assumption) (_ : K.err = false := by assumption) (_ : K.rings = false := by assumption) (_ : K.que = false
    := by assumption) (_ : K.queues = false := by assumption) (_ : K.tasks = false := by assumption) (_ : K.acc = false := by
    assumption) (_ : K.accNext = false := by assumption) (_ : K.xlt = false := by assumption) (_ : K.tbl = false := by
    assumption) (_ : K.sch = false := by assumption) (_ : K.trl = false := by assumption) (_ : K.ls = false := by assumption)
    (_ : K.bar = false := by assumption) (_ : K.qwin = false := by assumption) (_ : K.xwin = false := by assumption) (_ :
    K.gwin = false := by assumption) (_ : K.twin = false := by assumption) (_ : K.swin = false := by assumption) (_ : K.pwin =
    false := by assumption) (_ : K.cc = false := by assumption) (_ : K.out = false := by assumption) : obs K ((clrOperation s
    n op timeout).getD s) = obs K s := by
  unfold clrOperation
  split <;> simp [*]

@[simp] theorem clrCommand_frame {K : Keep} (q : Requester) (w : Word) (s : State) (_ : K.glob = false := by assumption) (_ :
    K.clr = false := by assumption) (_ : K.win = false := by assumption) (_ : K.ctx = false := by assumption) (_ : K.cal =
    false := by assumption) (_ : K.err = false := by assumption) (_ : K.rings = false := by assumption) (_ : K.que = false :=
    by assumption) (_ : K.queues = false := by assumption) (_ : K.tasks = false := by assumption) (_ : K.acc = false := by
    assumption) (_ : K.accNext = false := by assumption) (_ : K.xlt = false := by assumption) (_ : K.tbl = false := by
    assumption) (_ : K.sch = false := by assumption) (_ : K.trl = false := by assumption) (_ : K.ls = false := by assumption)
    (_ : K.bar = false := by assumption) (_ : K.qwin = false := by assumption) (_ : K.xwin = false := by assumption) (_ :
    K.gwin = false := by assumption) (_ : K.twin = false := by assumption) (_ : K.swin = false := by assumption) (_ : K.pwin =
    false := by assumption) (_ : K.cc = false := by assumption) (_ : K.out = false := by assumption) : obs K (clrCommand q w
    s) = obs K s := by
  unfold clrCommand
  refine globalCmd_frame q s _ ?_
  exact checked_frame _ _ _ (clrOperation_frame s _ _ _)

theorem execClrOpen_frame {K : Keep} (q : Requester) (w : Word) (s : State) (_ : K.glob = false := by assumption) (_ : K.clr =
    false := by assumption) (_ : K.win = false := by assumption) (_ : K.ctx = false := by assumption) (_ : K.cal = false := by
    assumption) (_ : K.err = false := by assumption) (_ : K.rings = false := by assumption) (_ : K.que = false := by
    assumption) (_ : K.queues = false := by assumption) (_ : K.tasks = false := by assumption) (_ : K.acc = false := by
    assumption) (_ : K.accNext = false := by assumption) (_ : K.xlt = false := by assumption) (_ : K.tbl = false := by
    assumption) (_ : K.sch = false := by assumption) (_ : K.trl = false := by assumption) (_ : K.ls = false := by assumption)
    (_ : K.bar = false := by assumption) (_ : K.qwin = false := by assumption) (_ : K.xwin = false := by assumption) (_ :
    K.gwin = false := by assumption) (_ : K.twin = false := by assumption) (_ : K.swin = false := by assumption) (_ : K.pwin =
    false := by assumption) (_ : K.cc = false := by assumption) (_ : K.out = false := by assumption) : ∃ out, execClrOpen q w
    s = .next out ∧ obs K out = obs K s :=
  ⟨_, rfl, by simp [*]⟩

theorem execClrQuiesce_frame {K : Keep} (q : Requester) (w : Word) (s : State) (_ : K.glob = false := by assumption) (_ :
    K.clr = false := by assumption) (_ : K.win = false := by assumption) (_ : K.ctx = false := by assumption) (_ : K.cal =
    false := by assumption) (_ : K.err = false := by assumption) (_ : K.rings = false := by assumption) (_ : K.que = false :=
    by assumption) (_ : K.queues = false := by assumption) (_ : K.tasks = false := by assumption) (_ : K.acc = false := by
    assumption) (_ : K.accNext = false := by assumption) (_ : K.xlt = false := by assumption) (_ : K.tbl = false := by
    assumption) (_ : K.sch = false := by assumption) (_ : K.trl = false := by assumption) (_ : K.ls = false := by assumption)
    (_ : K.bar = false := by assumption) (_ : K.qwin = false := by assumption) (_ : K.xwin = false := by assumption) (_ :
    K.gwin = false := by assumption) (_ : K.twin = false := by assumption) (_ : K.swin = false := by assumption) (_ : K.pwin =
    false := by assumption) (_ : K.cc = false := by assumption) (_ : K.out = false := by assumption) : ∃ out, execClrQuiesce q
    w s = .next out ∧ obs K out = obs K s :=
  ⟨_, rfl, by simp [*]⟩

theorem execClrClose_frame {K : Keep} (q : Requester) (w : Word) (s : State) (_ : K.glob = false := by assumption) (_ : K.clr
    = false := by assumption) (_ : K.win = false := by assumption) (_ : K.ctx = false := by assumption) (_ : K.cal = false :=
    by assumption) (_ : K.err = false := by assumption) (_ : K.rings = false := by assumption) (_ : K.que = false := by
    assumption) (_ : K.queues = false := by assumption) (_ : K.tasks = false := by assumption) (_ : K.acc = false := by
    assumption) (_ : K.accNext = false := by assumption) (_ : K.xlt = false := by assumption) (_ : K.tbl = false := by
    assumption) (_ : K.sch = false := by assumption) (_ : K.trl = false := by assumption) (_ : K.ls = false := by assumption)
    (_ : K.bar = false := by assumption) (_ : K.qwin = false := by assumption) (_ : K.xwin = false := by assumption) (_ :
    K.gwin = false := by assumption) (_ : K.twin = false := by assumption) (_ : K.swin = false := by assumption) (_ : K.pwin =
    false := by assumption) (_ : K.cc = false := by assumption) (_ : K.out = false := by assumption) : ∃ out, execClrClose q w
    s = .next out ∧ obs K out = obs K s :=
  ⟨_, rfl, by simp [*]⟩

theorem execClrReset_frame {K : Keep} (q : Requester) (w : Word) (s : State) (_ : K.glob = false := by assumption) (_ : K.clr
    = false := by assumption) (_ : K.win = false := by assumption) (_ : K.ctx = false := by assumption) (_ : K.cal = false :=
    by assumption) (_ : K.err = false := by assumption) (_ : K.rings = false := by assumption) (_ : K.que = false := by
    assumption) (_ : K.queues = false := by assumption) (_ : K.tasks = false := by assumption) (_ : K.acc = false := by
    assumption) (_ : K.accNext = false := by assumption) (_ : K.xlt = false := by assumption) (_ : K.tbl = false := by
    assumption) (_ : K.sch = false := by assumption) (_ : K.trl = false := by assumption) (_ : K.ls = false := by assumption)
    (_ : K.bar = false := by assumption) (_ : K.qwin = false := by assumption) (_ : K.xwin = false := by assumption) (_ :
    K.gwin = false := by assumption) (_ : K.twin = false := by assumption) (_ : K.swin = false := by assumption) (_ : K.pwin =
    false := by assumption) (_ : K.cc = false := by assumption) (_ : K.out = false := by assumption) : ∃ out, execClrReset q w
    s = .next out ∧ obs K out = obs K s :=
  ⟨_, rfl, by simp [*]⟩

theorem execQuiesceTimerExpire_frame {K : Keep} (n : Nat) (s : State) (_ : K.glob = false := by assumption) (_ : K.clr = false
    := by assumption) (_ : K.win = false := by assumption) (_ : K.ctx = false := by assumption) (_ : K.cal = false := by
    assumption) (_ : K.err = false := by assumption) (_ : K.rings = false := by assumption) (_ : K.que = false := by
    assumption) (_ : K.queues = false := by assumption) (_ : K.tasks = false := by assumption) (_ : K.acc = false := by
    assumption) (_ : K.accNext = false := by assumption) (_ : K.xlt = false := by assumption) (_ : K.tbl = false := by
    assumption) (_ : K.sch = false := by assumption) (_ : K.trl = false := by assumption) (_ : K.ls = false := by assumption)
    (_ : K.bar = false := by assumption) (_ : K.qwin = false := by assumption) (_ : K.xwin = false := by assumption) (_ :
    K.gwin = false := by assumption) (_ : K.twin = false := by assumption) (_ : K.swin = false := by assumption) (_ : K.pwin =
    false := by assumption) (_ : K.cc = false := by assumption) (_ : K.out = false := by assumption) : ∃ out,
    execQuiesceTimerExpire n s = .next out ∧ obs K out = obs K s :=
  ⟨_, rfl, by simp [*]⟩

theorem execFenceDrained_frame {K : Keep} (n : Nat) (s : State) (_ : K.glob = false := by assumption) (_ : K.clr = false := by
    assumption) (_ : K.win = false := by assumption) (_ : K.ctx = false := by assumption) (_ : K.que = false := by assumption)
    (_ : K.queues = false := by assumption) (_ : K.tasks = false := by assumption) (_ : K.acc = false := by assumption) (_ :
    K.accNext = false := by assumption) (_ : K.tbl = false := by assumption) (_ : K.sch = false := by assumption) (_ : K.pwr =
    false := by assumption) (_ : K.mbx = false := by assumption) (_ : K.key = false := by assumption) (_ : K.bar = false := by
    assumption) (_ : K.qwin = false := by assumption) (_ : K.twin = false := by assumption) (_ : K.swin = false := by
    assumption) (_ : K.pwin = false := by assumption) (_ : K.cc = false := by assumption) (_ : K.out = false := by assumption)
    : ∃ out, execFenceDrained n s = .next out ∧ obs K out = obs K s :=
  ⟨_, rfl, by simp [*]⟩

theorem execClearingResetDone_frame {K : Keep} (n : Nat) (s : State) (_ : K.glob = false := by assumption) (_ : K.clr = false
    := by assumption) (_ : K.win = false := by assumption) (_ : K.err = false := by assumption) (_ : K.rings = false := by
    assumption) (_ : K.bar = false := by assumption) (_ : K.swin = false := by assumption) (_ : K.pwin = false := by
    assumption) (_ : K.cc = false := by assumption) (_ : K.out = false := by assumption) : ∃ out, execClearingResetDone n s =
    .next out ∧ obs K out = obs K s :=
  ⟨_, rfl, by simp [*]⟩

theorem execManifestIssueDone_frame {K : Keep} (n : Nat) (s : State) (_ : K.glob = false := by assumption) (_ : K.clr = false
    := by assumption) (_ : K.cc = false := by assumption) (_ : K.out = false := by assumption) : ∃ out, execManifestIssueDone
    n s = .next out ∧ obs K out = obs K s :=
  ⟨_, rfl, by simp [*]⟩

@[simp] theorem nonce1Write_frame {K : Keep} (q : Requester) (n : Nat) (w : Word) (s : State) (_ : K.glob = false := by
    assumption) (_ : K.clr = false := by assumption) (_ : K.win = false := by assumption) : obs K (nonce1Write q n w s) = obs
    K s := by
  unfold nonce1Write
  refine windowCmd_frame _ _ _ _ (checked_frame _ _ _ ?_)
  simp [*]

theorem execClrNonce1Write_frame {K : Keep} (q : Requester) (n : Nat) (w : Word) (s : State) (_ : K.glob = false := by
    assumption) (_ : K.clr = false := by assumption) (_ : K.win = false := by assumption) : ∃ out, execClrNonce1Write q n w s
    = .next out ∧ obs K out = obs K s :=
  ⟨_, rfl, by simp [*]⟩

@[simp] theorem createCtx_frame {K : Keep} (s : State) (n : Nat) (c : Nat) (_ : K.ctx = false := by assumption) (_ : K.sch =
    false := by assumption) : obs K (createCtx s n c) = obs K s := by
  unfold createCtx
  dsimp only
  simp only [updAcct_frame, updCtx_frame, *]

@[simp] theorem tearDown_frame {K : Keep} (s : State) (n : Nat) (c : Nat) (_ : K.glob = false := by assumption) (_ : K.clr =
    false := by assumption) (_ : K.ctx = false := by assumption) (_ : K.cal = false := by assumption) (_ : K.err = false := by
    assumption) (_ : K.rings = false := by assumption) (_ : K.que = false := by assumption) (_ : K.queues = false := by
    assumption) (_ : K.tasks = false := by assumption) (_ : K.acc = false := by assumption) (_ : K.accNext = false := by
    assumption) (_ : K.xlt = false := by assumption) (_ : K.tbl = false := by assumption) (_ : K.sch = false := by assumption)
    (_ : K.ls = false := by assumption) (_ : K.bar = false := by assumption) (_ : K.qwin = false := by assumption) (_ : K.xwin
    = false := by assumption) (_ : K.gwin = false := by assumption) (_ : K.swin = false := by assumption) (_ : K.pwin = false
    := by assumption) (_ : K.cc = false := by assumption) (_ : K.out = false := by assumption) : obs K (tearDown s n c) = obs
    K s :=
  by simp [tearDown, *]

@[simp] theorem ctxCommand_frame {K : Keep} (q : Requester) (n : Nat) (w : Word) (s : State) (_ : K.glob = false := by
    assumption) (_ : K.clr = false := by assumption) (_ : K.win = false := by assumption) (_ : K.ctx = false := by assumption)
    (_ : K.cal = false := by assumption) (_ : K.err = false := by assumption) (_ : K.rings = false := by assumption) (_ :
    K.que = false := by assumption) (_ : K.queues = false := by assumption) (_ : K.tasks = false := by assumption) (_ : K.acc
    = false := by assumption) (_ : K.accNext = false := by assumption) (_ : K.xlt = false := by assumption) (_ : K.tbl = false
    := by assumption) (_ : K.sch = false := by assumption) (_ : K.ls = false := by assumption) (_ : K.bar = false := by
    assumption) (_ : K.qwin = false := by assumption) (_ : K.xwin = false := by assumption) (_ : K.gwin = false := by
    assumption) (_ : K.swin = false := by assumption) (_ : K.pwin = false := by assumption) (_ : K.cc = false := by
    assumption) (_ : K.out = false := by assumption) : obs K (ctxCommand q n w s) = obs K s := by
  unfold ctxCommand
  refine windowCmd_frame q n s _ ((updWin_frame _ _ _).trans (checked_frame _ _ _ ?_))
  split <;> simp [*]

theorem execCtxCreate_frame {K : Keep} (q : Requester) (n : Nat) (w : Word) (s : State) (_ : K.glob = false := by assumption)
    (_ : K.clr = false := by assumption) (_ : K.win = false := by assumption) (_ : K.ctx = false := by assumption) (_ : K.cal
    = false := by assumption) (_ : K.err = false := by assumption) (_ : K.rings = false := by assumption) (_ : K.que = false
    := by assumption) (_ : K.queues = false := by assumption) (_ : K.tasks = false := by assumption) (_ : K.acc = false := by
    assumption) (_ : K.accNext = false := by assumption) (_ : K.xlt = false := by assumption) (_ : K.tbl = false := by
    assumption) (_ : K.sch = false := by assumption) (_ : K.ls = false := by assumption) (_ : K.bar = false := by assumption)
    (_ : K.qwin = false := by assumption) (_ : K.xwin = false := by assumption) (_ : K.gwin = false := by assumption) (_ :
    K.swin = false := by assumption) (_ : K.pwin = false := by assumption) (_ : K.cc = false := by assumption) (_ : K.out =
    false := by assumption) : ∃ out, execCtxCreate q n w s = .next out ∧ obs K out = obs K s :=
  ⟨_, rfl, by simp [*]⟩

theorem execCtxDestroy_frame {K : Keep} (q : Requester) (n : Nat) (w : Word) (s : State) (_ : K.glob = false := by assumption)
    (_ : K.clr = false := by assumption) (_ : K.win = false := by assumption) (_ : K.ctx = false := by assumption) (_ : K.cal
    = false := by assumption) (_ : K.err = false := by assumption) (_ : K.rings = false := by assumption) (_ : K.que = false
    := by assumption) (_ : K.queues = false := by assumption) (_ : K.tasks = false := by assumption) (_ : K.acc = false := by
    assumption) (_ : K.accNext = false := by assumption) (_ : K.xlt = false := by assumption) (_ : K.tbl = false := by
    assumption) (_ : K.sch = false := by assumption) (_ : K.ls = false := by assumption) (_ : K.bar = false := by assumption)
    (_ : K.qwin = false := by assumption) (_ : K.xwin = false := by assumption) (_ : K.gwin = false := by assumption) (_ :
    K.swin = false := by assumption) (_ : K.pwin = false := by assumption) (_ : K.cc = false := by assumption) (_ : K.out =
    false := by assumption) : ∃ out, execCtxDestroy q n w s = .next out ∧ obs K out = obs K s :=
  ⟨_, rfl, by simp [*]⟩

theorem execCtxTeardown_frame {K : Keep} (q : Requester) (n : Nat) (w : Word) (s : State) (_ : K.glob = false := by
    assumption) (_ : K.clr = false := by assumption) (_ : K.win = false := by assumption) (_ : K.ctx = false := by assumption)
    (_ : K.cal = false := by assumption) (_ : K.err = false := by assumption) (_ : K.rings = false := by assumption) (_ :
    K.que = false := by assumption) (_ : K.queues = false := by assumption) (_ : K.tasks = false := by assumption) (_ : K.acc
    = false := by assumption) (_ : K.accNext = false := by assumption) (_ : K.xlt = false := by assumption) (_ : K.tbl = false
    := by assumption) (_ : K.sch = false := by assumption) (_ : K.ls = false := by assumption) (_ : K.bar = false := by
    assumption) (_ : K.qwin = false := by assumption) (_ : K.xwin = false := by assumption) (_ : K.gwin = false := by
    assumption) (_ : K.swin = false := by assumption) (_ : K.pwin = false := by assumption) (_ : K.cc = false := by
    assumption) (_ : K.out = false := by assumption) : ∃ out, execCtxTeardown q n w s = .next out ∧ obs K out = obs K s :=
  ⟨_, rfl, by simp [*]⟩

theorem execContextDrained_frame {K : Keep} (c : Nat) (s : State) (_ : K.win = false := by assumption) (_ : K.ctx = false :=
    by assumption) : ∃ out, execContextDrained c s = .next out ∧ obs K out = obs K s :=
  ⟨_, rfl, by simp [*]⟩

@[simp] theorem functionGone_frame {K : Keep} (s : State) (f : Nat) (_ : K.acc = false := by assumption) (_ : K.xlt = false :=
    by assumption) (_ : K.mbx = false := by assumption) (_ : K.out = false := by assumption) : obs K (functionGone s f) = obs
    K s :=
  by simp [functionGone, *]

@[simp] theorem functionReset_frame {K : Keep} (s : State) (f : Nat) (_ : K.glob = false := by assumption) (_ : K.clr = false
    := by assumption) (_ : K.win = false := by assumption) (_ : K.ctx = false := by assumption) (_ : K.cal = false := by
    assumption) (_ : K.err = false := by assumption) (_ : K.rings = false := by assumption) (_ : K.que = false := by
    assumption) (_ : K.queues = false := by assumption) (_ : K.tasks = false := by assumption) (_ : K.acc = false := by
    assumption) (_ : K.accNext = false := by assumption) (_ : K.xlt = false := by assumption) (_ : K.tbl = false := by
    assumption) (_ : K.sch = false := by assumption) (_ : K.mbx = false := by assumption) (_ : K.trl = false := by assumption)
    (_ : K.ls = false := by assumption) (_ : K.bar = false := by assumption) (_ : K.qwin = false := by assumption) (_ : K.xwin
    = false := by assumption) (_ : K.gwin = false := by assumption) (_ : K.twin = false := by assumption) (_ : K.swin = false
    := by assumption) (_ : K.pwin = false := by assumption) (_ : K.cc = false := by assumption) (_ : K.out = false := by
    assumption) : obs K (functionReset s f) = obs K s :=
  by simp [functionReset, *]

/-! ImageCmds. -/

@[simp] theorem updImg_frame {K : Keep} (s : State) (f : Img → Img) (_ : K.img = false := by assumption) : obs K (updImg s f)
    = obs K s :=
  by simp [updImg, *]

@[simp] theorem remeasure_frame {K : Keep} (was : State) (i : Nat) (s : State) (_ : K.key = false := by assumption) (_ : K.out
    = false := by assumption) : obs K (remeasure was i s) = obs K s :=
  by simp [remeasure, *]

@[simp] theorem emptyStaging_frame {K : Keep} (s : State) (_ : K.img = false := by assumption) : obs K (emptyStaging s) = obs
    K s :=
  by simp [emptyStaging, *]

@[simp] theorem endImgCmd_frame {K : Keep} (s : State) (c : Code) (_ : K.img = false := by assumption) : obs K (endImgCmd s c)
    = obs K s :=
  by simp [endImgCmd, *]

@[simp] theorem hostReadSpan_frame {K : Keep} (k : Nat) (s : State) (a n : Nat) (_ : K.out = false := by trivial) : obs K
    (hostReadSpan k s a n) = obs K s := by
  induction k generalizing s a n with
  | zero => rfl
  | succ k ih =>
    unfold hostReadSpan
    dsimp only
    split
    · rfl
    · rw [ih, emit_frame]

@[simp] theorem imgLoadBegin_frame {K : Keep} (s : State) (_ : K.img = false := by assumption) (_ : K.out = false := by
    assumption) : obs K (imgLoadBegin s) = obs K s :=
  by simp [imgLoadBegin, *]

@[simp] theorem stageTraffic_frame {K : Keep} (s : State) (bs : List Byte) (_ : K.que = false := by assumption) : obs K
    (stageTraffic s bs) = obs K s :=
  by simp [stageTraffic, *]

@[simp] theorem imgLoadEnd_frame {K : Keep} (s : State) (r : HostRead) (_ : K.img = false := by assumption) (_ : K.que = false
    := by assumption) : obs K (imgLoadEnd s r) = obs K s := by
  unfold imgLoadEnd
  try dsimp only
  repeat' first
    | with_reducible rfl
    | (simp only [endImgCmd_frame, stageTraffic_frame, updImg_frame, *]; done)
    | split

@[simp] theorem releaseClearing_frame {K : Keep} (s : State) (n : Nat) (new : Option ClearingCfg) (_ : K.img = false := by
    assumption) (_ : K.glob = false := by assumption) (_ : K.clr = false := by assumption) (_ : K.win = false := by
    assumption) (_ : K.ctx = false := by assumption) (_ : K.cal = false := by assumption) (_ : K.err = false := by assumption)
    (_ : K.rings = false := by assumption) (_ : K.que = false := by assumption) (_ : K.queues = false := by assumption) (_ :
    K.tasks = false := by assumption) (_ : K.acc = false := by assumption) (_ : K.accNext = false := by assumption) (_ : K.xlt
    = false := by assumption) (_ : K.tbl = false := by assumption) (_ : K.sch = false := by assumption) (_ : K.pwr = false :=
    by assumption) (_ : K.mbx = false := by assumption) (_ : K.key = false := by assumption) (_ : K.ls = false := by
    assumption) (_ : K.bar = false := by assumption) (_ : K.qwin = false := by assumption) (_ : K.xwin = false := by
    assumption) (_ : K.gwin = false := by assumption) (_ : K.twin = false := by assumption) (_ : K.swin = false := by
    assumption) (_ : K.pwin = false := by assumption) (_ : K.cc = false := by assumption) (_ : K.out = false := by assumption)
    : obs K (releaseClearing s n new) = obs K s := by
  unfold releaseClearing
  try dsimp only
  repeat' first
    | with_reducible rfl
    | (simp only [releaseUnits_frame, freeCtx_frame, leaveLive_frame, updImg_frame, *]; done)
    | with_reducible refine (forEach_frame _ _ _ fun _ _ => ?_).trans ?_
    | (simp only [updImg_frame, *]; with_reducible refine (forEach_frame _ _ _ fun _ _ => ?_).trans ?_)
    | (simp only [releaseUnits_frame, freeCtx_frame, leaveLive_frame, updImg_frame, *, obs_ite, ite_self, forEach_frame,
       implies_true]; exact enterStore_frame _ _ _ (by assumption))
    | exact enterStore_frame _ _ _ (by assumption)
    | (simp only [releaseUnits_frame, freeCtx_frame, leaveLive_frame, updImg_frame, *, obs_ite, ite_self, forEach_frame,
       implies_true]; split)
    | split
    | (simp [*]; done)

@[simp] theorem defineClearing_frame {K : Keep} (s : State) (n : Nat) (g : ClearingCfg) (digest : BitVec 384) (staged : Bool)
    (_ : K.glob = false := by assumption) (_ : K.clr = false := by assumption) (_ : K.win = false := by assumption) (_ : K.que
    = false := by assumption) (_ : K.bar = false := by assumption) (_ : K.swin = false := by assumption) (_ : K.pwin = false
    := by assumption) (_ : K.cc = false := by assumption) (_ : K.out = false := by assumption) : obs K (defineClearing s n g
    digest staged) = obs K s := by
  unfold defineClearing
  dsimp only
  simp only [setClr_frame, updWin_frame, reserveQuota_frame, setClrState_frame, resetMeas_frame, resetTun_frame, *]

@[simp] theorem deferMap_frame {K : Keep} (s : State) (im : Image) (n : Nat) (_ : K.cal = false := by assumption) : obs K
    (deferMap s im n) = obs K s :=
  by simp [deferMap, *]

@[simp] theorem applyChange_frame {K : Keep} (s : State) (im : Image) (n : Nat) (_ : K.img = false := by assumption) (_ :
    K.glob = false := by assumption) (_ : K.clr = false := by assumption) (_ : K.win = false := by assumption) (_ : K.ctx =
    false := by assumption) (_ : K.cal = false := by assumption) (_ : K.err = false := by assumption) (_ : K.rings = false :=
    by assumption) (_ : K.que = false := by assumption) (_ : K.queues = false := by assumption) (_ : K.tasks = false := by
    assumption) (_ : K.acc = false := by assumption) (_ : K.accNext = false := by assumption) (_ : K.xlt = false := by
    assumption) (_ : K.tbl = false := by assumption) (_ : K.sch = false := by assumption) (_ : K.pwr = false := by assumption)
    (_ : K.mbx = false := by assumption) (_ : K.key = false := by assumption) (_ : K.ls = false := by assumption) (_ : K.bar =
    false := by assumption) (_ : K.qwin = false := by assumption) (_ : K.xwin = false := by assumption) (_ : K.gwin = false :=
    by assumption) (_ : K.twin = false := by assumption) (_ : K.swin = false := by assumption) (_ : K.pwin = false := by
    assumption) (_ : K.cc = false := by assumption) (_ : K.out = false := by assumption) : obs K (applyChange s im n) = obs K
    s := by
  unfold applyChange
  try dsimp only
  repeat' first
    | with_reducible rfl
    | (simp only [releaseClearing_frame, deferMap_frame, updImg_frame, remeasure_frame, issueManifest_frame, emptyRing_frame,
       defineClearing_frame, setClrState_frame, setClr_frame, *, obs_ite, ite_self]; done)
    | split

@[simp] theorem applyOutcome_frame {K : Keep} (s : State) (n : Nat) (_ : K.img = false := by assumption) (_ : K.glob = false
    := by assumption) (_ : K.clr = false := by assumption) (_ : K.win = false := by assumption) (_ : K.ctx = false := by
    assumption) (_ : K.cal = false := by assumption) (_ : K.err = false := by assumption) (_ : K.rings = false := by
    assumption) (_ : K.que = false := by assumption) (_ : K.queues = false := by assumption) (_ : K.tasks = false := by
    assumption) (_ : K.acc = false := by assumption) (_ : K.accNext = false := by assumption) (_ : K.xlt = false := by
    assumption) (_ : K.tbl = false := by assumption) (_ : K.sch = false := by assumption) (_ : K.pwr = false := by assumption)
    (_ : K.mbx = false := by assumption) (_ : K.key = false := by assumption) (_ : K.ls = false := by assumption) (_ : K.bar =
    false := by assumption) (_ : K.qwin = false := by assumption) (_ : K.xwin = false := by assumption) (_ : K.gwin = false :=
    by assumption) (_ : K.twin = false := by assumption) (_ : K.swin = false := by assumption) (_ : K.pwin = false := by
    assumption) (_ : K.cc = false := by assumption) (_ : K.out = false := by assumption) : obs K (applyOutcome s n).2 = obs K
    s := by
  unfold applyOutcome
  try dsimp only
  repeat' first
    | with_reducible rfl
    | (simp only [applyChange_frame, *]; done)
    | split

@[simp] theorem flashImageBegin_frame {K : Keep} (s : State) (bs : List Byte) (_ : K.img = false := by assumption) (_ : K.out
    = false := by assumption) : obs K (flashImageBegin s bs) = obs K s :=
  by simp [flashImageBegin, *]

@[simp] theorem commitImage_frame {K : Keep} (s : State) (im : Image) (_ : K.img = false := by assumption) (_ : K.clr = false
    := by assumption) (_ : K.key = false := by assumption) (_ : K.out = false := by assumption) : obs K (commitImage s im) =
    obs K s :=
  by simp [commitImage, *]

@[simp] theorem commitRun_frame {K : Keep} (s : State) (flash : Bool) (_ : K.img = false := by assumption) (_ : K.clr = false
    := by assumption) (_ : K.key = false := by assumption) (_ : K.out = false := by assumption) : obs K (commitRun s flash) =
    obs K s := by
  unfold commitRun
  try dsimp only
  repeat' first
    | with_reducible rfl
    | (simp only [endImgCmd_frame, commitImage_frame, flashImageBegin_frame, *, obs_ite, ite_self]; done)
    | split

@[simp] theorem flashRun_frame {K : Keep} (s : State) (_ : K.img = false := by assumption) (_ : K.out = false := by
    assumption) : obs K (flashRun s) = obs K s := by
  unfold flashRun
  try dsimp only
  repeat' first
    | with_reducible rfl
    | (simp only [endImgCmd_frame, flashImageBegin_frame, *, obs_ite, ite_self]; done)
    | split

@[simp] theorem discardRun_frame {K : Keep} (s : State) (_ : K.img = false := by assumption) : obs K (discardRun s) = obs K s
    :=
  by simp [discardRun, *]

@[simp] theorem settingsBegin_frame {K : Keep} (s : State) (t : Settings) (_ : K.img = false := by assumption) (_ : K.out =
    false := by assumption) : obs K (settingsBegin s t) = obs K s :=
  by simp [settingsBegin, *]

@[simp] theorem settingsRun_frame {K : Keep} (s : State) (r : HostRead) (_ : K.img = false := by assumption) (_ : K.out =
    false := by assumption) : obs K (settingsRun s r) = obs K s := by
  unfold settingsRun
  try dsimp only
  repeat' first
    | with_reducible rfl
    | (simp only [endImgCmd_frame, hostReadSpan_frame, settingsBegin_frame, *, obs_ite, ite_self]; done)
    | split

@[simp] theorem settingsWritten_frame {K : Keep} (s : State) (t : Settings) (_ : K.boot = false := by assumption) (_ : K.key =
    false := by assumption) (_ : K.out = false := by assumption) : obs K (settingsWritten s t) = obs K s :=
  by simp [settingsWritten, *]

@[simp] theorem flashEnd_frame {K : Keep} (s : State) (ok : Bool) (_ : K.boot = false := by assumption) (_ : K.img = false :=
    by assumption) (_ : K.key = false := by assumption) (_ : K.out = false := by assumption) : obs K (flashEnd s ok) = obs K s
    := by
  unfold flashEnd
  try dsimp only
  repeat' first
    | with_reducible rfl
    | (simp only [endImgCmd_frame, updImg_frame, settingsWritten_frame, *]; done)
    | split

@[simp] theorem imgCommand_frame {K : Keep} (q : Requester) (w : Word) (r : HostRead) (s : State) (_ : K.img = false := by
    assumption) (_ : K.glob = false := by assumption) (_ : K.clr = false := by assumption) (_ : K.win = false := by
    assumption) (_ : K.ctx = false := by assumption) (_ : K.cal = false := by assumption) (_ : K.err = false := by assumption)
    (_ : K.rings = false := by assumption) (_ : K.que = false := by assumption) (_ : K.queues = false := by assumption) (_ :
    K.tasks = false := by assumption) (_ : K.acc = false := by assumption) (_ : K.accNext = false := by assumption) (_ : K.xlt
    = false := by assumption) (_ : K.tbl = false := by assumption) (_ : K.sch = false := by assumption) (_ : K.pwr = false :=
    by assumption) (_ : K.mbx = false := by assumption) (_ : K.key = false := by assumption) (_ : K.ls = false := by
    assumption) (_ : K.bar = false := by assumption) (_ : K.qwin = false := by assumption) (_ : K.xwin = false := by
    assumption) (_ : K.gwin = false := by assumption) (_ : K.twin = false := by assumption) (_ : K.swin = false := by
    assumption) (_ : K.pwin = false := by assumption) (_ : K.cc = false := by assumption) (_ : K.out = false := by assumption)
    : obs K (imgCommand q w r s) = obs K s := by
  unfold imgCommand
  refine globalCmd_frame q s _ (checked_frame _ _ _ ?_)
  split <;> simp [*]

theorem execImgLoad_frame {K : Keep} (q : Requester) (w : Word) (s : State) (_ : K.img = false := by assumption) (_ : K.glob =
    false := by assumption) (_ : K.clr = false := by assumption) (_ : K.win = false := by assumption) (_ : K.ctx = false := by
    assumption) (_ : K.cal = false := by assumption) (_ : K.err = false := by assumption) (_ : K.rings = false := by
    assumption) (_ : K.que = false := by assumption) (_ : K.queues = false := by assumption) (_ : K.tasks = false := by
    assumption) (_ : K.acc = false := by assumption) (_ : K.accNext = false := by assumption) (_ : K.xlt = false := by
    assumption) (_ : K.tbl = false := by assumption) (_ : K.sch = false := by assumption) (_ : K.pwr = false := by assumption)
    (_ : K.mbx = false := by assumption) (_ : K.key = false := by assumption) (_ : K.ls = false := by assumption) (_ : K.bar =
    false := by assumption) (_ : K.qwin = false := by assumption) (_ : K.xwin = false := by assumption) (_ : K.gwin = false :=
    by assumption) (_ : K.twin = false := by assumption) (_ : K.swin = false := by assumption) (_ : K.pwin = false := by
    assumption) (_ : K.cc = false := by assumption) (_ : K.out = false := by assumption) : ∃ out, execImgLoad q w s = .next
    out ∧ obs K out = obs K s :=
  ⟨_, rfl, by simp [*]⟩

theorem execImgLoadDone_frame {K : Keep} (r : HostRead) (s : State) (_ : K.img = false := by assumption) (_ : K.que = false :=
    by assumption) : ∃ out, execImgLoadDone r s = .next out ∧ obs K out = obs K s :=
  ⟨_, rfl, by simp [*]⟩

theorem execImgApply_frame {K : Keep} (q : Requester) (w : Word) (s : State) (_ : K.img = false := by assumption) (_ : K.glob
    = false := by assumption) (_ : K.clr = false := by assumption) (_ : K.win = false := by assumption) (_ : K.ctx = false :=
    by assumption) (_ : K.cal = false := by assumption) (_ : K.err = false := by assumption) (_ : K.rings = false := by
    assumption) (_ : K.que = false := by assumption) (_ : K.queues = false := by assumption) (_ : K.tasks = false := by
    assumption) (_ : K.acc = false := by assumption) (_ : K.accNext = false := by assumption) (_ : K.xlt = false := by
    assumption) (_ : K.tbl = false := by assumption) (_ : K.sch = false := by assumption) (_ : K.pwr = false := by assumption)
    (_ : K.mbx = false := by assumption) (_ : K.key = false := by assumption) (_ : K.ls = false := by assumption) (_ : K.bar =
    false := by assumption) (_ : K.qwin = false := by assumption) (_ : K.xwin = false := by assumption) (_ : K.gwin = false :=
    by assumption) (_ : K.twin = false := by assumption) (_ : K.swin = false := by assumption) (_ : K.pwin = false := by
    assumption) (_ : K.cc = false := by assumption) (_ : K.out = false := by assumption) : ∃ out, execImgApply q w s = .next
    out ∧ obs K out = obs K s :=
  ⟨_, rfl, by simp [*]⟩

theorem execImgCommit_frame {K : Keep} (q : Requester) (w : Word) (s : State) (_ : K.img = false := by assumption) (_ : K.glob
    = false := by assumption) (_ : K.clr = false := by assumption) (_ : K.win = false := by assumption) (_ : K.ctx = false :=
    by assumption) (_ : K.cal = false := by assumption) (_ : K.err = false := by assumption) (_ : K.rings = false := by
    assumption) (_ : K.que = false := by assumption) (_ : K.queues = false := by assumption) (_ : K.tasks = false := by
    assumption) (_ : K.acc = false := by assumption) (_ : K.accNext = false := by assumption) (_ : K.xlt = false := by
    assumption) (_ : K.tbl = false := by assumption) (_ : K.sch = false := by assumption) (_ : K.pwr = false := by assumption)
    (_ : K.mbx = false := by assumption) (_ : K.key = false := by assumption) (_ : K.ls = false := by assumption) (_ : K.bar =
    false := by assumption) (_ : K.qwin = false := by assumption) (_ : K.xwin = false := by assumption) (_ : K.gwin = false :=
    by assumption) (_ : K.twin = false := by assumption) (_ : K.swin = false := by assumption) (_ : K.pwin = false := by
    assumption) (_ : K.cc = false := by assumption) (_ : K.out = false := by assumption) : ∃ out, execImgCommit q w s = .next
    out ∧ obs K out = obs K s :=
  ⟨_, rfl, by simp [*]⟩

theorem execImgDiscard_frame {K : Keep} (q : Requester) (w : Word) (s : State) (_ : K.img = false := by assumption) (_ :
    K.glob = false := by assumption) (_ : K.clr = false := by assumption) (_ : K.win = false := by assumption) (_ : K.ctx =
    false := by assumption) (_ : K.cal = false := by assumption) (_ : K.err = false := by assumption) (_ : K.rings = false :=
    by assumption) (_ : K.que = false := by assumption) (_ : K.queues = false := by assumption) (_ : K.tasks = false := by
    assumption) (_ : K.acc = false := by assumption) (_ : K.accNext = false := by assumption) (_ : K.xlt = false := by
    assumption) (_ : K.tbl = false := by assumption) (_ : K.sch = false := by assumption) (_ : K.pwr = false := by assumption)
    (_ : K.mbx = false := by assumption) (_ : K.key = false := by assumption) (_ : K.ls = false := by assumption) (_ : K.bar =
    false := by assumption) (_ : K.qwin = false := by assumption) (_ : K.xwin = false := by assumption) (_ : K.gwin = false :=
    by assumption) (_ : K.twin = false := by assumption) (_ : K.swin = false := by assumption) (_ : K.pwin = false := by
    assumption) (_ : K.cc = false := by assumption) (_ : K.out = false := by assumption) : ∃ out, execImgDiscard q w s = .next
    out ∧ obs K out = obs K s :=
  ⟨_, rfl, by simp [*]⟩

theorem execImgFlash_frame {K : Keep} (q : Requester) (w : Word) (s : State) (_ : K.img = false := by assumption) (_ : K.glob
    = false := by assumption) (_ : K.clr = false := by assumption) (_ : K.win = false := by assumption) (_ : K.ctx = false :=
    by assumption) (_ : K.cal = false := by assumption) (_ : K.err = false := by assumption) (_ : K.rings = false := by
    assumption) (_ : K.que = false := by assumption) (_ : K.queues = false := by assumption) (_ : K.tasks = false := by
    assumption) (_ : K.acc = false := by assumption) (_ : K.accNext = false := by assumption) (_ : K.xlt = false := by
    assumption) (_ : K.tbl = false := by assumption) (_ : K.sch = false := by assumption) (_ : K.pwr = false := by assumption)
    (_ : K.mbx = false := by assumption) (_ : K.key = false := by assumption) (_ : K.ls = false := by assumption) (_ : K.bar =
    false := by assumption) (_ : K.qwin = false := by assumption) (_ : K.xwin = false := by assumption) (_ : K.gwin = false :=
    by assumption) (_ : K.twin = false := by assumption) (_ : K.swin = false := by assumption) (_ : K.pwin = false := by
    assumption) (_ : K.cc = false := by assumption) (_ : K.out = false := by assumption) : ∃ out, execImgFlash q w s = .next
    out ∧ obs K out = obs K s :=
  ⟨_, rfl, by simp [*]⟩

theorem execImgSettings_frame {K : Keep} (q : Requester) (w : Word) (r : HostRead) (s : State) (_ : K.img = false := by
    assumption) (_ : K.glob = false := by assumption) (_ : K.clr = false := by assumption) (_ : K.win = false := by
    assumption) (_ : K.ctx = false := by assumption) (_ : K.cal = false := by assumption) (_ : K.err = false := by assumption)
    (_ : K.rings = false := by assumption) (_ : K.que = false := by assumption) (_ : K.queues = false := by assumption) (_ :
    K.tasks = false := by assumption) (_ : K.acc = false := by assumption) (_ : K.accNext = false := by assumption) (_ : K.xlt
    = false := by assumption) (_ : K.tbl = false := by assumption) (_ : K.sch = false := by assumption) (_ : K.pwr = false :=
    by assumption) (_ : K.mbx = false := by assumption) (_ : K.key = false := by assumption) (_ : K.ls = false := by
    assumption) (_ : K.bar = false := by assumption) (_ : K.qwin = false := by assumption) (_ : K.xwin = false := by
    assumption) (_ : K.gwin = false := by assumption) (_ : K.twin = false := by assumption) (_ : K.swin = false := by
    assumption) (_ : K.pwin = false := by assumption) (_ : K.cc = false := by assumption) (_ : K.out = false := by assumption)
    : ∃ out, execImgSettings q w r s = .next out ∧ obs K out = obs K s :=
  ⟨_, rfl, by simp [*]⟩

@[simp] theorem plotScrubDone_frame {K : Keep} (s : State) (p : Nat) (_ : K.img = false := by assumption) : obs K
    (plotScrubDone s p) = obs K s := by
  unfold plotScrubDone
  try dsimp only
  repeat' first
    | with_reducible rfl
    | (simp only [updImg_frame, *, obs_ite, ite_self]; done)
    | split

theorem execPlotScrubDone_frame {K : Keep} (plot : Nat) (s : State) (_ : K.img = false := by assumption) : ∃ out,
    execPlotScrubDone plot s = .next out ∧ obs K out = obs K s :=
  ⟨_, rfl, by simp [*]⟩

theorem execFunctionLevelReset_frame {K : Keep} (f : Nat) (s : State) (_ : K.glob = false := by assumption) (_ : K.clr = false
    := by assumption) (_ : K.win = false := by assumption) (_ : K.ctx = false := by assumption) (_ : K.cal = false := by
    assumption) (_ : K.err = false := by assumption) (_ : K.rings = false := by assumption) (_ : K.que = false := by
    assumption) (_ : K.queues = false := by assumption) (_ : K.tasks = false := by assumption) (_ : K.acc = false := by
    assumption) (_ : K.accNext = false := by assumption) (_ : K.xlt = false := by assumption) (_ : K.tbl = false := by
    assumption) (_ : K.sch = false := by assumption) (_ : K.mbx = false := by assumption) (_ : K.trl = false := by assumption)
    (_ : K.ls = false := by assumption) (_ : K.bar = false := by assumption) (_ : K.qwin = false := by assumption) (_ : K.xwin
    = false := by assumption) (_ : K.gwin = false := by assumption) (_ : K.twin = false := by assumption) (_ : K.swin = false
    := by assumption) (_ : K.pwin = false := by assumption) (_ : K.cc = false := by assumption) (_ : K.out = false := by
    assumption) : ∃ out, execFunctionLevelReset f s = .next out ∧ obs K out = obs K s :=
  ⟨_, rfl, by simp [*]⟩

@[simp] theorem globalFields_frame {K : Keep} (s : State) (_ : K.img = false := by trivial) (_ : K.clr = false := by trivial)
    (_ : K.que = false := by trivial) (_ : K.xlt = false := by trivial) (_ : K.tbl = false := by trivial) (_ : K.sch = false
    := by trivial) (_ : K.ls = false := by trivial) : obs K (globalFields s) = obs K s := by
  unfold globalFields
  refine (forEach_frame _ _ _ fun s n => ?_).trans ((forEach_frame _ _ _ fun s n => ?_).trans ?_) <;> simp [*]

@[simp] theorem freeQuarantine_frame {K : Keep} (s : State) (_ : K.xlt = false := by assumption) : obs K (freeQuarantine s) =
    obs K s :=
  by simp [freeQuarantine, *]

@[simp] theorem issueRetuned_frame {K : Keep} (was : State) (s : State) (_ : K.clr = false := by assumption) : obs K
    (issueRetuned was s) = obs K s :=
  by simp [issueRetuned, *]

@[simp] theorem dropWeights_frame {K : Keep} (s : State) (n : Nat) (_ : K.ctx = false := by assumption) : obs K (dropWeights s
    n) = obs K s :=
  by simp [dropWeights, *]

@[simp] theorem physicalReset_frame {K : Keep} (s : State) (fs : List Nat) (_ : K.img = false := by assumption) (_ : K.glob =
    false := by assumption) (_ : K.clr = false := by assumption) (_ : K.win = false := by assumption) (_ : K.ctx = false := by
    assumption) (_ : K.cal = false := by assumption) (_ : K.err = false := by assumption) (_ : K.rings = false := by
    assumption) (_ : K.que = false := by assumption) (_ : K.queues = false := by assumption) (_ : K.tasks = false := by
    assumption) (_ : K.acc = false := by assumption) (_ : K.accNext = false := by assumption) (_ : K.xlt = false := by
    assumption) (_ : K.tbl = false := by assumption) (_ : K.sch = false := by assumption) (_ : K.mbx = false := by assumption)
    (_ : K.trl = false := by assumption) (_ : K.ls = false := by assumption) (_ : K.bar = false := by assumption) (_ : K.qwin
    = false := by assumption) (_ : K.xwin = false := by assumption) (_ : K.gwin = false := by assumption) (_ : K.twin = false
    := by assumption) (_ : K.swin = false := by assumption) (_ : K.pwin = false := by assumption) (_ : K.cc = false := by
    assumption) (_ : K.out = false := by assumption) : obs K (physicalReset s fs) = obs K s := by
  unfold physicalReset
  dsimp only
  refine (flrRaise_frame _).trans ((obs_set_err _ _).trans ?_)
  refine (forEach_frame _ _ _ fun s n => dropWeights_frame s n).trans ?_
  rw [issueRetuned_frame (K := K), globalFields_frame (K := K),
    forEach_frame (K := K) _ _ _ fun s f => functionGone_frame s f, freeQuarantine_frame (K := K),
    forEach_frame (K := K) _ _ _ fun s n => resetEvent_frame s n 2]
  (repeat' split) <;> simp [*]

@[simp] theorem earlyReset_frame {K : Keep} (s : State) (fs : List Nat) (_ : K.mbx = false := by assumption) (_ : K.out =
    false := by assumption) : obs K (earlyReset s fs) = obs K s :=
  by simp [earlyReset, *]

@[simp] theorem vfEnable_frame {K : Keep} (s : State) (k : Nat) (_ : K.glob = false := by assumption) (_ : K.clr = false := by
    assumption) (_ : K.win = false := by assumption) (_ : K.ctx = false := by assumption) (_ : K.cal = false := by assumption)
    (_ : K.err = false := by assumption) (_ : K.rings = false := by assumption) (_ : K.que = false := by assumption) (_ :
    K.queues = false := by assumption) (_ : K.tasks = false := by assumption) (_ : K.acc = false := by assumption) (_ :
    K.accNext = false := by assumption) (_ : K.xlt = false := by assumption) (_ : K.tbl = false := by assumption) (_ : K.sch =
    false := by assumption) (_ : K.mbx = false := by assumption) (_ : K.trl = false := by assumption) (_ : K.ls = false := by
    assumption) (_ : K.bar = false := by assumption) (_ : K.qwin = false := by assumption) (_ : K.xwin = false := by
    assumption) (_ : K.gwin = false := by assumption) (_ : K.twin = false := by assumption) (_ : K.swin = false := by
    assumption) (_ : K.pwin = false := by assumption) (_ : K.cc = false := by assumption) (_ : K.out = false := by assumption)
    : obs K (vfEnable s k) = obs K s :=
  by simp [vfEnable, *]

theorem execVfEnableChange_frame {K : Keep} (numVfs : Nat) (s : State) (_ : K.glob = false := by assumption) (_ : K.clr =
    false := by assumption) (_ : K.win = false := by assumption) (_ : K.ctx = false := by assumption) (_ : K.cal = false := by
    assumption) (_ : K.err = false := by assumption) (_ : K.rings = false := by assumption) (_ : K.que = false := by
    assumption) (_ : K.queues = false := by assumption) (_ : K.tasks = false := by assumption) (_ : K.acc = false := by
    assumption) (_ : K.accNext = false := by assumption) (_ : K.xlt = false := by assumption) (_ : K.tbl = false := by
    assumption) (_ : K.sch = false := by assumption) (_ : K.mbx = false := by assumption) (_ : K.trl = false := by assumption)
    (_ : K.ls = false := by assumption) (_ : K.bar = false := by assumption) (_ : K.qwin = false := by assumption) (_ : K.xwin
    = false := by assumption) (_ : K.gwin = false := by assumption) (_ : K.twin = false := by assumption) (_ : K.swin = false
    := by assumption) (_ : K.pwin = false := by assumption) (_ : K.cc = false := by assumption) (_ : K.out = false := by
    assumption) : ∃ out, execVfEnableChange numVfs s = .next out ∧ obs K out = obs K s :=
  ⟨_, rfl, by simp [*]⟩

@[simp] theorem resetSlow_frame {K : Keep} (s : State) (n : Nat) (_ : K.err = false := by assumption) (_ : K.rings = false :=
    by assumption) (_ : K.out = false := by assumption) : obs K (resetSlow s n) = obs K s := by
  unfold resetSlow
  dsimp only
  simp only [raise_frame, emit_frame, obs_set_err, *, obs_ite, ite_self, forEach_frame, implies_true]

theorem execResetSlow_frame {K : Keep} (n : Nat) (s : State) (_ : K.err = false := by assumption) (_ : K.rings = false := by
    assumption) (_ : K.out = false := by assumption) : ∃ out, execResetSlow n s = .next out ∧ obs K out = obs K s :=
  ⟨_, rfl, by simp [*]⟩

/-! BringUp. -/

@[simp] theorem updBoot_frame {K : Keep} (s : State) (f : Boot → Boot) (_ : K.boot = false := by assumption) : obs K (updBoot
    s f) = obs K s :=
  by simp [updBoot, *]

@[simp] theorem stopBoot_frame {K : Keep} (s : State) (cause : Nat) (detail : Nat) (whr : Nat) (_ : K.boot = false := by
    assumption) (_ : K.err = false := by assumption) : obs K (stopBoot s cause detail whr) = obs K s := by
  unfold stopBoot
  simp only [obs_set_err, updBoot_frame, *]

@[simp] theorem noteCause_frame {K : Keep} (s : State) (cause : Nat) (detail : Code) (_ : K.boot = false := by assumption) :
    obs K (noteCause s cause detail) = obs K s :=
  by simp [noteCause, *]

@[simp] theorem resetDeasserted_frame {K : Keep} (s : State) (puf : List Bool) (_ : K.boot = false := by assumption) (_ :
    K.pwr = false := by assumption) (_ : K.out = false := by assumption) : obs K (resetDeasserted s puf) = obs K s :=
  by simp [resetDeasserted, *]

theorem execResetDeasserted_frame {K : Keep} (puf : List Bool) (s : State) (_ : K.boot = false := by assumption) (_ : K.pwr =
    false := by assumption) (_ : K.out = false := by assumption) : ∃ out, execResetDeasserted puf s = .next out ∧ obs K out =
    obs K s :=
  ⟨_, rfl, by simp [*]⟩

theorem execRomPhaseEnd_frame {K : Keep} (s : State) (_ : K.boot = false := by assumption) : ∃ out, execRomPhaseEnd s = .next
    out ∧ obs K out = obs K s :=
  ⟨_, rfl, by simp [*]⟩

@[simp] theorem startupRec_frame {K : Keep} (s : State) (what : Nat) (lines : Nat) (_ : K.err = false := by assumption) (_ :
    K.rings = false := by assumption) : obs K (startupRec s what lines) = obs K s :=
  by simp [startupRec, *]

@[simp] theorem findFlash_frame {K : Keep} (s : State) (i : RootInputs) (_ : K.boot = false := by assumption) (_ : K.err =
    false := by assumption) (_ : K.rings = false := by assumption) : obs K (findFlash s i) = obs K s := by
  unfold findFlash
  dsimp only
  simp only [updBoot_frame, noteCause_frame, stopBoot_frame, startupRec_frame, *, obs_ite, ite_self]

@[simp] theorem findRoot_frame {K : Keep} (s : State) (i : RootInputs) (_ : K.boot = false := by assumption) (_ : K.err =
    false := by assumption) : obs K (findRoot s i) = obs K s := by
  unfold findRoot
  try dsimp only
  repeat' first
    | with_reducible rfl
    | (simp only [updBoot_frame, noteCause_frame, stopBoot_frame, *, obs_ite, ite_self]; done)
    | split

@[simp] theorem chooseSettings_frame {K : Keep} (s : State) (i : RootInputs) (_ : K.boot = false := by assumption) (_ : K.err
    = false := by assumption) (_ : K.rings = false := by assumption) : obs K (chooseSettings s i) = obs K s := by
  unfold chooseSettings
  dsimp only
  simp only [updBoot_frame, startupRec_frame, *, obs_ite, ite_self]

@[simp] theorem rootPhase_frame {K : Keep} (s : State) (i : RootInputs) (_ : K.boot = false := by assumption) (_ : K.err =
    false := by assumption) (_ : K.rings = false := by assumption) (_ : K.key = false := by assumption) : obs K (rootPhase s
    i) = obs K s :=
  by simp [rootPhase, *]

theorem execRotLcValid_frame {K : Keep} (inp : RootInputs) (s : State) (_ : K.boot = false := by assumption) (_ : K.err =
    false := by assumption) (_ : K.rings = false := by assumption) (_ : K.key = false := by assumption) : ∃ out,
    execRotLcValid inp s = .next out ∧ obs K out = obs K s :=
  ⟨_, rfl, by simp [*]⟩

theorem execRotLcTimeout_frame {K : Keep} (s : State) (_ : K.boot = false := by assumption) (_ : K.err = false := by
    assumption) : ∃ out, execRotLcTimeout s = .next out ∧ obs K out = obs K s :=
  ⟨_, rfl, by simp [*]⟩

@[simp] theorem enterBare_frame {K : Keep} (s : State) (_ : K.boot = false := by assumption) (_ : K.mbx = false := by
    assumption) : obs K (enterBare s) = obs K s :=
  by simp [enterBare, *]

@[simp] theorem memoryEnd_frame {K : Keep} (s : State) (i : MemoryInputs) (_ : K.clk = false := by assumption) (_ : K.boot =
    false := by assumption) (_ : K.cal = false := by assumption) (_ : K.err = false := by assumption) (_ : K.mbx = false := by
    assumption) : obs K (memoryEnd s i) = obs K s := by
  unfold memoryEnd
  try dsimp only
  repeat' first
    | with_reducible rfl
    | (simp only [stopBoot_frame, updBoot_frame, updPch_frame, enterBare_frame, obs_set_clk, *, obs_ite, ite_self,
       forEach_frame, implies_true]; done)
    | split

theorem execMemoryPhaseEnd_frame {K : Keep} (inp : MemoryInputs) (s : State) (_ : K.clk = false := by assumption) (_ : K.boot
    = false := by assumption) (_ : K.cal = false := by assumption) (_ : K.err = false := by assumption) (_ : K.mbx = false :=
    by assumption) : ∃ out, execMemoryPhaseEnd inp s = .next out ∧ obs K out = obs K s :=
  ⟨_, rfl, by simp [*]⟩

theorem execMemoryPhaseTimeout_frame {K : Keep} (stack : Nat) (s : State) (_ : K.boot = false := by assumption) (_ : K.err =
    false := by assumption) : ∃ out, execMemoryPhaseTimeout stack s = .next out ∧ obs K out = obs K s :=
  ⟨_, rfl, by simp [*]⟩

@[simp] theorem acceptImage_frame {K : Keep} (s : State) (im : Image) (inFlash : Bool) (_ : K.boot = false := by assumption)
    (_ : K.img = false := by assumption) (_ : K.glob = false := by assumption) (_ : K.clr = false := by assumption) (_ : K.win
    = false := by assumption) (_ : K.cal = false := by assumption) (_ : K.err = false := by assumption) (_ : K.rings = false
    := by assumption) (_ : K.que = false := by assumption) (_ : K.bar = false := by assumption) (_ : K.swin = false := by
    assumption) (_ : K.pwin = false := by assumption) (_ : K.cc = false := by assumption) (_ : K.out = false := by assumption)
    : obs K (acceptImage s im inFlash) = obs K s := by
  unfold acceptImage
  try dsimp only
  repeat' first
    | with_reducible rfl
    | (simp only [stopBoot_frame, updImg_frame, updCal_frame, defineClearing_frame, failPch_frame, updBoot_frame, *, forEach_frame, implies_true]; done)
    | split

@[simp] theorem flashImageRead_frame {K : Keep} (s : State) (bs : List Byte) (_ : K.boot = false := by assumption) (_ : K.img
    = false := by assumption) (_ : K.glob = false := by assumption) (_ : K.clr = false := by assumption) (_ : K.win = false :=
    by assumption) (_ : K.cal = false := by assumption) (_ : K.err = false := by assumption) (_ : K.rings = false := by
    assumption) (_ : K.que = false := by assumption) (_ : K.mbx = false := by assumption) (_ : K.bar = false := by assumption)
    (_ : K.swin = false := by assumption) (_ : K.pwin = false := by assumption) (_ : K.cc = false := by assumption) (_ : K.out
    = false := by assumption) : obs K (flashImageRead s bs) = obs K s := by
  unfold flashImageRead
  try dsimp only
  repeat' first
    | with_reducible rfl
    | (simp only [stageTraffic_frame, acceptImage_frame, updImg_frame, enterBare_frame, noteCause_frame, *]; done)
    | split

theorem execFlashImageReadDone_frame {K : Keep} (bs : List Byte) (s : State) (_ : K.boot = false := by assumption) (_ : K.img
    = false := by assumption) (_ : K.glob = false := by assumption) (_ : K.clr = false := by assumption) (_ : K.win = false :=
    by assumption) (_ : K.cal = false := by assumption) (_ : K.err = false := by assumption) (_ : K.rings = false := by
    assumption) (_ : K.que = false := by assumption) (_ : K.mbx = false := by assumption) (_ : K.bar = false := by assumption)
    (_ : K.swin = false := by assumption) (_ : K.pwin = false := by assumption) (_ : K.cc = false := by assumption) (_ : K.out
    = false := by assumption) : ∃ out, execFlashImageReadDone bs s = .next out ∧ obs K out = obs K s :=
  ⟨_, rfl, by simp [*]⟩

theorem execImageReadTimeout_frame {K : Keep} (s : State) (_ : K.boot = false := by assumption) (_ : K.mbx = false := by
    assumption) : ∃ out, execImageReadTimeout s = .next out ∧ obs K out = obs K s :=
  ⟨_, rfl, by simp [*]⟩

theorem execStartupScrubDone_frame {K : Keep} (s : State) (_ : K.boot = false := by assumption) (_ : K.pwr = false := by
    assumption) (_ : K.out = false := by assumption) : ∃ out, execStartupScrubDone s = .next out ∧ obs K out = obs K s :=
  ⟨_, rfl, by simp [*]⟩

@[simp] theorem startSolitary_frame {K : Keep} (s : State) (how : Nat) (_ : K.boot = false := by assumption) (_ : K.trl =
    false := by assumption) : obs K (startSolitary s how) = obs K s :=
  by simp [startSolitary, *]

@[simp] theorem trailPhase_frame {K : Keep} (s : State) (_ : K.boot = false := by assumption) (_ : K.trl = false := by
    assumption) (_ : K.out = false := by assumption) : obs K (trailPhase s) = obs K s := by
  unfold trailPhase
  dsimp only
  simp only [updBoot_frame, startSolitary_frame, updTrl_frame, trainBegin_frame, *, obs_ite, ite_self]

theorem execPowerPhaseEnd_frame {K : Keep} (s : State) (_ : K.boot = false := by assumption) (_ : K.trl = false := by
    assumption) (_ : K.out = false := by assumption) : ∃ out, execPowerPhaseEnd s = .next out ∧ obs K out = obs K s :=
  ⟨_, rfl, by simp [*]⟩

@[simp] theorem stopLate_frame {K : Keep} (s : State) (n : Nat) (_ : K.boot = false := by assumption) (_ : K.err = false := by
    assumption) : obs K (stopLate s n) = obs K s :=
  by simp [stopLate, *]

@[simp] theorem phaseTimeout_frame {K : Keep} (s : State) (_ : K.boot = false := by assumption) (_ : K.err = false := by
    assumption) : obs K (phaseTimeout s) = obs K s := by
  unfold phaseTimeout
  try dsimp only
  repeat' first
    | with_reducible rfl
    | (simp only [stopLate_frame, *]; done)
    | split

theorem execPhaseTimeout_frame {K : Keep} (s : State) (_ : K.boot = false := by assumption) (_ : K.err = false := by
    assumption) : ∃ out, execPhaseTimeout s = .next out ∧ obs K out = obs K s :=
  ⟨_, rfl, by simp [*]⟩

theorem execStartupBoundary_frame {K : Keep} (s : State) (_ : K.clk = false := by trivial) (_ : K.cc = false := by trivial) :
    ∃ out, execStartupBoundary s = .next out ∧ obs K out = obs K s := by
  refine ⟨_, rfl, ?_⟩
  rw [obs_ite]
  split
  · exact (obs_set_clk _ _).trans (openCclk_frame _)
  · rfl

theorem execTrailTrainingTimeout_frame {K : Keep} (s : State) (_ : K.boot = false := by assumption) (_ : K.trl = false := by
    assumption) : ∃ out, execTrailTrainingTimeout s = .next out ∧ obs K out = obs K s :=
  ⟨_, rfl, by simp [*]⟩

theorem execLaunchWaitTimeout_frame {K : Keep} (s : State) (_ : K.boot = false := by assumption) (_ : K.trl = false := by
    assumption) : ∃ out, execLaunchWaitTimeout s = .next out ∧ obs K out = obs K s :=
  ⟨_, rfl, by simp [*]⟩

@[simp] theorem advanceGens_frame {K : Keep} (s : State) (_ : K.ctx = false := by assumption) : obs K (advanceGens s) = obs K
    s :=
  by simp [advanceGens, *]

@[simp] theorem firstTick_frame {K : Keep} (s : State) (_ : K.clk = false := by assumption) (_ : K.boot = false := by
    assumption) (_ : K.clr = false := by assumption) (_ : K.ctx = false := by assumption) (_ : K.cal = false := by assumption)
    (_ : K.err = false := by assumption) (_ : K.rings = false := by assumption) (_ : K.sch = false := by assumption) (_ :
    K.mbx = false := by assumption) (_ : K.key = false := by assumption) (_ : K.trl = false := by assumption) (_ : K.cc =
    false := by assumption) (_ : K.out = false := by assumption) : obs K (firstTick s) = obs K s := by
  unfold firstTick
  dsimp only
  simp only [openCclk_frame, advanceGens_frame, updBoot_frame, standingCauses_frame, updCal_frame, stageIn_frame,
    freeLocks_frame, removeRecv_frame, heartbeatSend_frame, trailRec_frame, firstTickTrust_frame, driveUrgency_frame,
    overcommitNow_frame, issueAll_frame, obs_set_clk, obs_set_err, *, obs_ite, ite_self, forEach_frame, implies_true]

theorem execFirstTick_frame {K : Keep} (s : State) (_ : K.clk = false := by assumption) (_ : K.boot = false := by assumption)
    (_ : K.clr = false := by assumption) (_ : K.ctx = false := by assumption) (_ : K.cal = false := by assumption) (_ : K.err
    = false := by assumption) (_ : K.rings = false := by assumption) (_ : K.sch = false := by assumption) (_ : K.mbx = false
    := by assumption) (_ : K.key = false := by assumption) (_ : K.trl = false := by assumption) (_ : K.cc = false := by
    assumption) (_ : K.out = false := by assumption) : ∃ out, execFirstTick s = .next out ∧ obs K out = obs K s :=
  ⟨_, rfl, by simp [*]⟩

@[simp] theorem bootAck_frame {K : Keep} (s : State) (c : Code) (_ : K.mbx = false := by assumption) (_ : K.out = false := by
    assumption) : obs K (bootAck s c) = obs K s :=
  by simp [bootAck, *]

@[simp] theorem bootMessage_frame {K : Keep} (s : State) (_ : K.boot = false := by assumption) (_ : K.mbx = false := by
    assumption) (_ : K.out = false := by assumption) : obs K (bootMessage s) = obs K s := by
  unfold bootMessage
  try dsimp only
  repeat' first
    | with_reducible rfl
    | (simp only [takeMsg_frame, ackTaken_frame, updBoot_frame, hostReadSpan_frame, *]; done)
    | split

theorem execBootImage_frame {K : Keep} (s : State) (_ : K.boot = false := by assumption) (_ : K.mbx = false := by assumption)
    (_ : K.out = false := by assumption) : ∃ out, execBootImage s = .next out ∧ obs K out = obs K s :=
  ⟨_, rfl, by simp [*]⟩

theorem execBootSettings_frame {K : Keep} (s : State) (_ : K.boot = false := by assumption) (_ : K.mbx = false := by
    assumption) (_ : K.out = false := by assumption) : ∃ out, execBootSettings s = .next out ∧ obs K out = obs K s :=
  ⟨_, rfl, by simp [*]⟩

@[simp] theorem bootImageRead_frame {K : Keep} (s : State) (flash : Bool) (len : Nat) (bs : List Byte) (_ : K.boot = false :=
    by assumption) (_ : K.img = false := by assumption) (_ : K.glob = false := by assumption) (_ : K.clr = false := by
    assumption) (_ : K.win = false := by assumption) (_ : K.cal = false := by assumption) (_ : K.err = false := by assumption)
    (_ : K.rings = false := by assumption) (_ : K.que = false := by assumption) (_ : K.mbx = false := by assumption) (_ :
    K.bar = false := by assumption) (_ : K.swin = false := by assumption) (_ : K.pwin = false := by assumption) (_ : K.cc =
    false := by assumption) (_ : K.out = false := by assumption) : obs K (bootImageRead s flash len bs) = obs K s := by
  unfold bootImageRead
  try dsimp only
  repeat' first
    | with_reducible rfl
    | (simp only [stageTraffic_frame, bootAck_frame, updImg_frame, emit_frame, acceptImage_frame, *, obs_ite, ite_self]; done)
    | split

@[simp] theorem bootSettingsRead_frame {K : Keep} (s : State) (bs : List Byte) (_ : K.img = false := by assumption) (_ : K.mbx
    = false := by assumption) (_ : K.out = false := by assumption) : obs K (bootSettingsRead s bs) = obs K s :=
  by simp [bootSettingsRead, *]

@[simp] theorem bootDelivery_frame {K : Keep} (s : State) (r : HostRead) (_ : K.boot = false := by assumption) (_ : K.img =
    false := by assumption) (_ : K.glob = false := by assumption) (_ : K.clr = false := by assumption) (_ : K.win = false :=
    by assumption) (_ : K.cal = false := by assumption) (_ : K.err = false := by assumption) (_ : K.rings = false := by
    assumption) (_ : K.que = false := by assumption) (_ : K.mbx = false := by assumption) (_ : K.bar = false := by assumption)
    (_ : K.swin = false := by assumption) (_ : K.pwin = false := by assumption) (_ : K.cc = false := by assumption) (_ : K.out
    = false := by assumption) : obs K (bootDelivery s r) = obs K s := by
  unfold bootDelivery
  try dsimp only
  repeat' first
    | with_reducible rfl
    | (simp only [bootAck_frame, updBoot_frame, bootImageRead_frame, bootSettingsRead_frame, *, obs_ite, ite_self]; done)
    | split

theorem execBootDeliveryDone_frame {K : Keep} (r : HostRead) (s : State) (_ : K.boot = false := by assumption) (_ : K.img =
    false := by assumption) (_ : K.glob = false := by assumption) (_ : K.clr = false := by assumption) (_ : K.win = false :=
    by assumption) (_ : K.cal = false := by assumption) (_ : K.err = false := by assumption) (_ : K.rings = false := by
    assumption) (_ : K.que = false := by assumption) (_ : K.mbx = false := by assumption) (_ : K.bar = false := by assumption)
    (_ : K.swin = false := by assumption) (_ : K.pwin = false := by assumption) (_ : K.cc = false := by assumption) (_ : K.out
    = false := by assumption) : ∃ out, execBootDeliveryDone r s = .next out ∧ obs K out = obs K s :=
  ⟨_, rfl, by simp [*]⟩

@[simp] theorem bootFlashEnd_frame {K : Keep} (s : State) (ok : Bool) (_ : K.boot = false := by assumption) (_ : K.img = false
    := by assumption) (_ : K.glob = false := by assumption) (_ : K.clr = false := by assumption) (_ : K.win = false := by
    assumption) (_ : K.cal = false := by assumption) (_ : K.err = false := by assumption) (_ : K.rings = false := by
    assumption) (_ : K.que = false := by assumption) (_ : K.mbx = false := by assumption) (_ : K.key = false := by assumption)
    (_ : K.bar = false := by assumption) (_ : K.swin = false := by assumption) (_ : K.pwin = false := by assumption) (_ : K.cc
    = false := by assumption) (_ : K.out = false := by assumption) : obs K (bootFlashEnd s ok) = obs K s := by
  unfold bootFlashEnd
  try dsimp only
  repeat' first
    | with_reducible rfl
    | (simp only [updImg_frame, acceptImage_frame, bootAck_frame, updBoot_frame, settingsWritten_frame, *, obs_ite, ite_self]; done)
    | split

@[simp] theorem keyFlashEnd_frame {K : Keep} (s : State) (ok : Bool) (_ : K.boot = false := by assumption) (_ : K.key = false
    := by assumption) : obs K (keyFlashEnd s ok) = obs K s := by
  unfold keyFlashEnd
  try dsimp only
  repeat' first
    | with_reducible rfl
    | (simp only [updKey_frame, keyEnd_frame, updBoot_frame, *, obs_ite, ite_self]; done)
    | split

@[simp] theorem flashOpEnd_frame {K : Keep} (s : State) (ok : Bool) (_ : K.boot = false := by assumption) (_ : K.img = false
    := by assumption) (_ : K.glob = false := by assumption) (_ : K.clr = false := by assumption) (_ : K.win = false := by
    assumption) (_ : K.cal = false := by assumption) (_ : K.err = false := by assumption) (_ : K.rings = false := by
    assumption) (_ : K.que = false := by assumption) (_ : K.mbx = false := by assumption) (_ : K.key = false := by assumption)
    (_ : K.bar = false := by assumption) (_ : K.swin = false := by assumption) (_ : K.pwin = false := by assumption) (_ : K.cc
    = false := by assumption) (_ : K.out = false := by assumption) : obs K (flashOpEnd s ok) = obs K s :=
  by simp [flashOpEnd, *]

theorem execFlashWriteDone_frame {K : Keep} (s : State) (_ : K.boot = false := by assumption) (_ : K.img = false := by
    assumption) (_ : K.glob = false := by assumption) (_ : K.clr = false := by assumption) (_ : K.win = false := by
    assumption) (_ : K.cal = false := by assumption) (_ : K.err = false := by assumption) (_ : K.rings = false := by
    assumption) (_ : K.que = false := by assumption) (_ : K.mbx = false := by assumption) (_ : K.key = false := by assumption)
    (_ : K.bar = false := by assumption) (_ : K.swin = false := by assumption) (_ : K.pwin = false := by assumption) (_ : K.cc
    = false := by assumption) (_ : K.out = false := by assumption) : ∃ out, execFlashWriteDone s = .next out ∧ obs K out = obs
    K s :=
  ⟨_, rfl, by simp [*]⟩

theorem execFlashOpTimeout_frame {K : Keep} (s : State) (_ : K.boot = false := by assumption) (_ : K.img = false := by
    assumption) (_ : K.glob = false := by assumption) (_ : K.clr = false := by assumption) (_ : K.win = false := by
    assumption) (_ : K.cal = false := by assumption) (_ : K.err = false := by assumption) (_ : K.rings = false := by
    assumption) (_ : K.que = false := by assumption) (_ : K.mbx = false := by assumption) (_ : K.key = false := by assumption)
    (_ : K.bar = false := by assumption) (_ : K.swin = false := by assumption) (_ : K.pwin = false := by assumption) (_ : K.cc
    = false := by assumption) (_ : K.out = false := by assumption) : ∃ out, execFlashOpTimeout s = .next out ∧ obs K out = obs
    K s :=
  ⟨_, rfl, by simp [*]⟩

@[simp] theorem abandonDelivery_frame {K : Keep} (s : State) (_ : K.boot = false := by assumption) (_ : K.mbx = false := by
    assumption) (_ : K.out = false := by assumption) : obs K (abandonDelivery s) = obs K s := by
  unfold abandonDelivery
  try dsimp only
  repeat' first
    | with_reducible rfl
    | (simp only [bootAck_frame, updBoot_frame, *]; done)
    | split

@[simp] theorem linkReset_frame {K : Keep} (s : State) (fs : List Nat) (_ : K.boot = false := by assumption) (_ : K.img =
    false := by assumption) (_ : K.glob = false := by assumption) (_ : K.clr = false := by assumption) (_ : K.win = false :=
    by assumption) (_ : K.ctx = false := by assumption) (_ : K.cal = false := by assumption) (_ : K.err = false := by
    assumption) (_ : K.rings = false := by assumption) (_ : K.que = false := by assumption) (_ : K.queues = false := by
    assumption) (_ : K.tasks = false := by assumption) (_ : K.acc = false := by assumption) (_ : K.accNext = false := by
    assumption) (_ : K.xlt = false := by assumption) (_ : K.tbl = false := by assumption) (_ : K.sch = false := by assumption)
    (_ : K.mbx = false := by assumption) (_ : K.trl = false := by assumption) (_ : K.ls = false := by assumption) (_ : K.bar =
    false := by assumption) (_ : K.qwin = false := by assumption) (_ : K.xwin = false := by assumption) (_ : K.gwin = false :=
    by assumption) (_ : K.twin = false := by assumption) (_ : K.swin = false := by assumption) (_ : K.pwin = false := by
    assumption) (_ : K.cc = false := by assumption) (_ : K.out = false := by assumption) : obs K (linkReset s fs) = obs K s :=
  by simp [linkReset, *]

theorem execPfFunctionLevelReset_frame {K : Keep} (s : State) (_ : K.boot = false := by assumption) (_ : K.img = false := by
    assumption) (_ : K.glob = false := by assumption) (_ : K.clr = false := by assumption) (_ : K.win = false := by
    assumption) (_ : K.ctx = false := by assumption) (_ : K.cal = false := by assumption) (_ : K.err = false := by assumption)
    (_ : K.rings = false := by assumption) (_ : K.que = false := by assumption) (_ : K.queues = false := by assumption) (_ :
    K.tasks = false := by assumption) (_ : K.acc = false := by assumption) (_ : K.accNext = false := by assumption) (_ : K.xlt
    = false := by assumption) (_ : K.tbl = false := by assumption) (_ : K.sch = false := by assumption) (_ : K.mbx = false :=
    by assumption) (_ : K.trl = false := by assumption) (_ : K.ls = false := by assumption) (_ : K.bar = false := by
    assumption) (_ : K.qwin = false := by assumption) (_ : K.xwin = false := by assumption) (_ : K.gwin = false := by
    assumption) (_ : K.twin = false := by assumption) (_ : K.swin = false := by assumption) (_ : K.pwin = false := by
    assumption) (_ : K.cc = false := by assumption) (_ : K.out = false := by assumption) : ∃ out, execPfFunctionLevelReset s =
    .next out ∧ obs K out = obs K s :=
  ⟨_, rfl, by simp [*]⟩

theorem execHotReset_frame {K : Keep} (s : State) (_ : K.boot = false := by assumption) (_ : K.img = false := by assumption)
    (_ : K.glob = false := by assumption) (_ : K.clr = false := by assumption) (_ : K.win = false := by assumption) (_ : K.ctx
    = false := by assumption) (_ : K.cal = false := by assumption) (_ : K.err = false := by assumption) (_ : K.rings = false
    := by assumption) (_ : K.que = false := by assumption) (_ : K.queues = false := by assumption) (_ : K.tasks = false := by
    assumption) (_ : K.acc = false := by assumption) (_ : K.accNext = false := by assumption) (_ : K.xlt = false := by
    assumption) (_ : K.tbl = false := by assumption) (_ : K.sch = false := by assumption) (_ : K.mbx = false := by assumption)
    (_ : K.trl = false := by assumption) (_ : K.ls = false := by assumption) (_ : K.bar = false := by assumption) (_ : K.qwin
    = false := by assumption) (_ : K.xwin = false := by assumption) (_ : K.gwin = false := by assumption) (_ : K.twin = false
    := by assumption) (_ : K.swin = false := by assumption) (_ : K.pwin = false := by assumption) (_ : K.cc = false := by
    assumption) (_ : K.out = false := by assumption) : ∃ out, execHotReset s = .next out ∧ obs K out = obs K s :=
  ⟨_, rfl, by simp [*]⟩

/-! Recovery. -/

@[simp] theorem taskEnd_frame {K : Keep} (s : State) (t : Nat) (_ : K.glob = false := by assumption) (_ : K.clr = false := by
    assumption) (_ : K.que = false := by assumption) (_ : K.queues = false := by assumption) (_ : K.tasks = false := by
    assumption) (_ : K.sch = false := by assumption) (_ : K.bar = false := by assumption) (_ : K.qwin = false := by
    assumption) (_ : K.swin = false := by assumption) (_ : K.pwin = false := by assumption) (_ : K.cc = false := by
    assumption) (_ : K.out = false := by assumption) : obs K (taskEnd s t) = obs K s := by
  unfold taskEnd
  try dsimp only
  repeat' first
    | with_reducible rfl
    | (simp only [queueSettle_frame, addLast_frame, updTask_frame, *, obs_ite, ite_self]; done)
    | split

theorem execTaskEnd_frame {K : Keep} (task : Nat) (s : State) (_ : K.glob = false := by assumption) (_ : K.clr = false := by
    assumption) (_ : K.que = false := by assumption) (_ : K.queues = false := by assumption) (_ : K.tasks = false := by
    assumption) (_ : K.sch = false := by assumption) (_ : K.bar = false := by assumption) (_ : K.qwin = false := by
    assumption) (_ : K.swin = false := by assumption) (_ : K.pwin = false := by assumption) (_ : K.cc = false := by
    assumption) (_ : K.out = false := by assumption) : ∃ out, execTaskEnd task s = .next out ∧ obs K out = obs K s :=
  ⟨_, rfl, by simp [*]⟩

@[simp] theorem abortGroup_frame {K : Keep} (s : State) (g : Nat) (_ : K.err = false := by assumption) (_ : K.rings = false :=
    by assumption) (_ : K.trl = false := by assumption) (_ : K.out = false := by assumption) : obs K (abortGroup s g) = obs K
    s := by
  unfold abortGroup
  try dsimp only
  repeat' first
    | with_reducible rfl
    | (simp only [sendAbort_frame, raise_frame, emit_frame, updTrl_frame, *, obs_ite, ite_self]; done)
    | split

@[simp] theorem halt_frame {K : Keep} (s : State) (c : Code) (_ : K.glob = false := by assumption) (_ : K.clr = false := by
    assumption) (_ : K.win = false := by assumption) (_ : K.ctx = false := by assumption) (_ : K.cal = false := by assumption)
    (_ : K.err = false := by assumption) (_ : K.rings = false := by assumption) (_ : K.que = false := by assumption) (_ :
    K.queues = false := by assumption) (_ : K.tasks = false := by assumption) (_ : K.acc = false := by assumption) (_ :
    K.accNext = false := by assumption) (_ : K.xlt = false := by assumption) (_ : K.tbl = false := by assumption) (_ : K.sch =
    false := by assumption) (_ : K.trl = false := by assumption) (_ : K.ls = false := by assumption) (_ : K.bar = false := by
    assumption) (_ : K.qwin = false := by assumption) (_ : K.xwin = false := by assumption) (_ : K.gwin = false := by
    assumption) (_ : K.twin = false := by assumption) (_ : K.swin = false := by assumption) (_ : K.pwin = false := by
    assumption) (_ : K.cc = false := by assumption) (_ : K.out = false := by assumption) : obs K (halt s c) = obs K s := by
  unfold halt
  dsimp only
  simp only [raiseWide_frame, triggerDump_frame, beginFence_frame, sendAbort_frame, obs_set_err, *, forEach_frame, implies_true]

@[simp] theorem faultEffect_frame {K : Keep} (s : State) (d : Nat) (_ : K.boot = false := by assumption) (_ : K.glob = false
    := by assumption) (_ : K.clr = false := by assumption) (_ : K.win = false := by assumption) (_ : K.ctx = false := by
    assumption) (_ : K.cal = false := by assumption) (_ : K.err = false := by assumption) (_ : K.rings = false := by
    assumption) (_ : K.que = false := by assumption) (_ : K.queues = false := by assumption) (_ : K.tasks = false := by
    assumption) (_ : K.acc = false := by assumption) (_ : K.accNext = false := by assumption) (_ : K.xlt = false := by
    assumption) (_ : K.tbl = false := by assumption) (_ : K.sch = false := by assumption) (_ : K.mbx = false := by assumption)
    (_ : K.trl = false := by assumption) (_ : K.ls = false := by assumption) (_ : K.bar = false := by assumption) (_ : K.qwin
    = false := by assumption) (_ : K.xwin = false := by assumption) (_ : K.gwin = false := by assumption) (_ : K.twin = false
    := by assumption) (_ : K.swin = false := by assumption) (_ : K.pwin = false := by assumption) (_ : K.cc = false := by
    assumption) (_ : K.out = false := by assumption) : obs K (faultEffect s d) = obs K s := by
  unfold faultEffect
  dsimp only
  simp only [failCore_frame, failEngine_frame, trailOff_frame, startSolitary_frame, updBoot_frame, stopBoot_frame,
    requesterGone_frame, halt_frame, *, obs_ite, ite_self, forEach_frame, implies_true]

@[simp] theorem fwException_frame {K : Keep} (s : State) (t : FwTrap) (_ : K.glob = false := by assumption) (_ : K.clr = false
    := by assumption) (_ : K.win = false := by assumption) (_ : K.ctx = false := by assumption) (_ : K.cal = false := by
    assumption) (_ : K.err = false := by assumption) (_ : K.rings = false := by assumption) (_ : K.que = false := by
    assumption) (_ : K.queues = false := by assumption) (_ : K.tasks = false := by assumption) (_ : K.acc = false := by
    assumption) (_ : K.accNext = false := by assumption) (_ : K.xlt = false := by assumption) (_ : K.tbl = false := by
    assumption) (_ : K.sch = false := by assumption) (_ : K.pwr = false := by assumption) (_ : K.mbx = false := by assumption)
    (_ : K.trl = false := by assumption) (_ : K.ls = false := by assumption) (_ : K.bar = false := by assumption) (_ : K.qwin
    = false := by assumption) (_ : K.xwin = false := by assumption) (_ : K.gwin = false := by assumption) (_ : K.twin = false
    := by assumption) (_ : K.swin = false := by assumption) (_ : K.pwin = false := by assumption) (_ : K.cc = false := by
    assumption) (_ : K.out = false := by assumption) : obs K (fwException s t) = obs K s :=
  by simp [fwException, *]

theorem execFwException_frame {K : Keep} (t : FwTrap) (s : State) (_ : K.glob = false := by assumption) (_ : K.clr = false :=
    by assumption) (_ : K.win = false := by assumption) (_ : K.ctx = false := by assumption) (_ : K.cal = false := by
    assumption) (_ : K.err = false := by assumption) (_ : K.rings = false := by assumption) (_ : K.que = false := by
    assumption) (_ : K.queues = false := by assumption) (_ : K.tasks = false := by assumption) (_ : K.acc = false := by
    assumption) (_ : K.accNext = false := by assumption) (_ : K.xlt = false := by assumption) (_ : K.tbl = false := by
    assumption) (_ : K.sch = false := by assumption) (_ : K.pwr = false := by assumption) (_ : K.mbx = false := by assumption)
    (_ : K.trl = false := by assumption) (_ : K.ls = false := by assumption) (_ : K.bar = false := by assumption) (_ : K.qwin
    = false := by assumption) (_ : K.xwin = false := by assumption) (_ : K.gwin = false := by assumption) (_ : K.twin = false
    := by assumption) (_ : K.swin = false := by assumption) (_ : K.pwin = false := by assumption) (_ : K.cc = false := by
    assumption) (_ : K.out = false := by assumption) : ∃ out, execFwException t s = .next out ∧ obs K out = obs K s :=
  ⟨_, rfl, by simp [*]⟩

@[simp] theorem timeoutRec_frame {K : Keep} (s : State) (n : Nat) (x : ErrRec → ErrRec) (source : Nat) (count : Nat) (_ :
    K.err = false := by assumption) (_ : K.rings = false := by assumption) : obs K (timeoutRec s n x source count) = obs K s
    :=
  by simp [timeoutRec, *]

@[simp] theorem dropWaiting_frame {K : Keep} (s : State) (use : Option Nat) (_ : K.acc = false := by assumption) : obs K
    (dropWaiting s use) = obs K s := by
  unfold dropWaiting
  try dsimp only
  repeat' first
    | with_reducible rfl
    | (simp only [dropAcc_frame, *]; done)
    | split

@[simp] theorem quarantineHost_frame {K : Keep} (s : State) (t : Nat) (_ : K.acc = false := by assumption) (_ : K.xlt = false
    := by assumption) : obs K (quarantineHost s t) = obs K s := by
  unfold quarantineHost
  try dsimp only
  repeat' first
    | with_reducible rfl
    | (simp only [dropWaiting_frame, setHostOut_frame, *]; done)
    | split

@[simp] theorem quarantineFab_frame {K : Keep} (s : State) (t : Nat) (_ : K.acc = false := by assumption) (_ : K.xlt = false
    := by assumption) (_ : K.sch = false := by assumption) : obs K (quarantineFab s t) = obs K s := by
  unfold quarantineFab
  try dsimp only
  repeat' first
    | with_reducible rfl
    | (simp only [dropWaiting_frame, updCore_frame, setFabOut_frame, *]; done)
    | split

@[simp] theorem quarantine_frame {K : Keep} (s : State) (n : Nat) (x : ErrRec → ErrRec) (host : Nat × Option HostOut → Bool)
    (fab : Nat × Option FabOut → Bool) (_ : K.err = false := by assumption) (_ : K.rings = false := by assumption) (_ : K.acc
    = false := by assumption) (_ : K.xlt = false := by assumption) (_ : K.sch = false := by assumption) : obs K (quarantine s
    n x host fab) = obs K s :=
  by simp [quarantine, *]

@[simp] theorem tornTimeout_frame {K : Keep} (n : Nat) (s : State) (c : Nat) (_ : K.err = false := by assumption) (_ : K.rings
    = false := by assumption) (_ : K.acc = false := by assumption) (_ : K.xlt = false := by assumption) (_ : K.sch = false :=
    by assumption) : obs K (tornTimeout n s c) = obs K s :=
  by simp [tornTimeout, *]

@[simp] theorem fenceTimeout_frame {K : Keep} (s : State) (n : Nat) (_ : K.err = false := by assumption) (_ : K.rings = false
    := by assumption) (_ : K.acc = false := by assumption) (_ : K.xlt = false := by assumption) (_ : K.sch = false := by
    assumption) : obs K (fenceTimeout s n) = obs K s :=
  by simp [fenceTimeout, *]

theorem execFenceTimeout_frame {K : Keep} (n : Nat) (s : State) (_ : K.err = false := by assumption) (_ : K.rings = false :=
    by assumption) (_ : K.acc = false := by assumption) (_ : K.xlt = false := by assumption) (_ : K.sch = false := by
    assumption) : ∃ out, execFenceTimeout n s = .next out ∧ obs K out = obs K s :=
  ⟨_, rfl, by simp [*]⟩

@[simp] theorem hostWriteSpan_frame {K : Keep} (k : Nat) (s : State) (a : Nat) (l : List Byte) (_ : K.out = false := by
    trivial) : obs K (hostWriteSpan k s a l) = obs K s := by
  induction k generalizing s a l with
  | zero => rfl
  | succ k ih =>
    unfold hostWriteSpan
    dsimp only
    split
    · rfl
    · rw [ih, emit_frame]

theorem execErrDumpCopyDone_frame {K : Keep} (ok : Bool) (s : State) (_ : K.err = false := by assumption) : ∃ out,
    execErrDumpCopyDone ok s = .next out ∧ obs K out = obs K s :=
  ⟨_, rfl, by simp [*]⟩

@[simp] theorem errDone_frame {K : Keep} (d : Bool) (s : State) (_ : K.err = false := by trivial) : obs K (errDone d s) = obs
    K s := obs_set_err _ _

@[simp] theorem errEffect_frame {K : Keep} (s : State) (op : Nat) (unit : Nat) (group : Nat) (_ : K.clr = false := by
    assumption) (_ : K.err = false := by assumption) (_ : K.rings = false := by assumption) (_ : K.queues = false := by
    assumption) (_ : K.tasks = false := by assumption) (_ : K.acc = false := by assumption) (_ : K.accNext = false := by
    assumption) (_ : K.tbl = false := by assumption) (_ : K.sch = false := by assumption) (_ : K.trl = false := by assumption)
    (_ : K.qwin = false := by assumption) (_ : K.xwin = false := by assumption) (_ : K.gwin = false := by assumption) (_ :
    K.swin = false := by assumption) (_ : K.out = false := by assumption) : obs K (errEffect s op unit group) = obs K s := by
  unfold errEffect
  try dsimp only
  repeat' first
    | with_reducible rfl
    | (simp only [triggerDump_frame, errDone_frame, failCore_frame, failEngine_frame, localAbort_frame, abortGroup_frame,
       obs_set_err, *]; done)
    | with_reducible refine (forEach_frame _ _ _ fun _ _ => ?_).trans ?_
    | split
    | (simp [*]; done)

@[simp] theorem errCommand_frame {K : Keep} (q : Requester) (w : Word) (s : State) (_ : K.glob = false := by assumption) (_ :
    K.clr = false := by assumption) (_ : K.win = false := by assumption) (_ : K.err = false := by assumption) (_ : K.rings =
    false := by assumption) (_ : K.queues = false := by assumption) (_ : K.tasks = false := by assumption) (_ : K.acc = false
    := by assumption) (_ : K.accNext = false := by assumption) (_ : K.tbl = false := by assumption) (_ : K.sch = false := by
    assumption) (_ : K.trl = false := by assumption) (_ : K.qwin = false := by assumption) (_ : K.xwin = false := by
    assumption) (_ : K.gwin = false := by assumption) (_ : K.swin = false := by assumption) (_ : K.out = false := by
    assumption) : obs K (errCommand q w s) = obs K s := by
  unfold errCommand
  exact globalCmd_frame q s _ ((obs_set_err _ _).trans (checked_frame _ _ _ (errEffect_frame _ _ _ _)))

theorem execErrDump_frame {K : Keep} (q : Requester) (w : Word) (s : State) (_ : K.glob = false := by assumption) (_ : K.clr =
    false := by assumption) (_ : K.win = false := by assumption) (_ : K.err = false := by assumption) (_ : K.rings = false :=
    by assumption) (_ : K.queues = false := by assumption) (_ : K.tasks = false := by assumption) (_ : K.acc = false := by
    assumption) (_ : K.accNext = false := by assumption) (_ : K.tbl = false := by assumption) (_ : K.sch = false := by
    assumption) (_ : K.trl = false := by assumption) (_ : K.qwin = false := by assumption) (_ : K.xwin = false := by
    assumption) (_ : K.gwin = false := by assumption) (_ : K.swin = false := by assumption) (_ : K.out = false := by
    assumption) : ∃ out, execErrDump q w s = .next out ∧ obs K out = obs K s :=
  ⟨_, rfl, by simp [*]⟩

theorem execErrDumpCopy_frame {K : Keep} (q : Requester) (w : Word) (s : State) (_ : K.glob = false := by assumption) (_ :
    K.clr = false := by assumption) (_ : K.win = false := by assumption) (_ : K.err = false := by assumption) (_ : K.rings =
    false := by assumption) (_ : K.queues = false := by assumption) (_ : K.tasks = false := by assumption) (_ : K.acc = false
    := by assumption) (_ : K.accNext = false := by assumption) (_ : K.tbl = false := by assumption) (_ : K.sch = false := by
    assumption) (_ : K.trl = false := by assumption) (_ : K.qwin = false := by assumption) (_ : K.xwin = false := by
    assumption) (_ : K.gwin = false := by assumption) (_ : K.swin = false := by assumption) (_ : K.out = false := by
    assumption) : ∃ out, execErrDumpCopy q w s = .next out ∧ obs K out = obs K s :=
  ⟨_, rfl, by simp [*]⟩

theorem execErrDumpRelease_frame {K : Keep} (q : Requester) (w : Word) (s : State) (_ : K.glob = false := by assumption) (_ :
    K.clr = false := by assumption) (_ : K.win = false := by assumption) (_ : K.err = false := by assumption) (_ : K.rings =
    false := by assumption) (_ : K.queues = false := by assumption) (_ : K.tasks = false := by assumption) (_ : K.acc = false
    := by assumption) (_ : K.accNext = false := by assumption) (_ : K.tbl = false := by assumption) (_ : K.sch = false := by
    assumption) (_ : K.trl = false := by assumption) (_ : K.qwin = false := by assumption) (_ : K.xwin = false := by
    assumption) (_ : K.gwin = false := by assumption) (_ : K.swin = false := by assumption) (_ : K.out = false := by
    assumption) : ∃ out, execErrDumpRelease q w s = .next out ∧ obs K out = obs K s :=
  ⟨_, rfl, by simp [*]⟩

theorem execErrFailCore_frame {K : Keep} (q : Requester) (w : Word) (s : State) (_ : K.glob = false := by assumption) (_ :
    K.clr = false := by assumption) (_ : K.win = false := by assumption) (_ : K.err = false := by assumption) (_ : K.rings =
    false := by assumption) (_ : K.queues = false := by assumption) (_ : K.tasks = false := by assumption) (_ : K.acc = false
    := by assumption) (_ : K.accNext = false := by assumption) (_ : K.tbl = false := by assumption) (_ : K.sch = false := by
    assumption) (_ : K.trl = false := by assumption) (_ : K.qwin = false := by assumption) (_ : K.xwin = false := by
    assumption) (_ : K.gwin = false := by assumption) (_ : K.swin = false := by assumption) (_ : K.out = false := by
    assumption) : ∃ out, execErrFailCore q w s = .next out ∧ obs K out = obs K s :=
  ⟨_, rfl, by simp [*]⟩

theorem execErrFailEngine_frame {K : Keep} (q : Requester) (w : Word) (s : State) (_ : K.glob = false := by assumption) (_ :
    K.clr = false := by assumption) (_ : K.win = false := by assumption) (_ : K.err = false := by assumption) (_ : K.rings =
    false := by assumption) (_ : K.queues = false := by assumption) (_ : K.tasks = false := by assumption) (_ : K.acc = false
    := by assumption) (_ : K.accNext = false := by assumption) (_ : K.tbl = false := by assumption) (_ : K.sch = false := by
    assumption) (_ : K.trl = false := by assumption) (_ : K.qwin = false := by assumption) (_ : K.xwin = false := by
    assumption) (_ : K.gwin = false := by assumption) (_ : K.swin = false := by assumption) (_ : K.out = false := by
    assumption) : ∃ out, execErrFailEngine q w s = .next out ∧ obs K out = obs K s :=
  ⟨_, rfl, by simp [*]⟩

theorem execErrAbort_frame {K : Keep} (q : Requester) (w : Word) (s : State) (_ : K.glob = false := by assumption) (_ : K.clr
    = false := by assumption) (_ : K.win = false := by assumption) (_ : K.err = false := by assumption) (_ : K.rings = false
    := by assumption) (_ : K.queues = false := by assumption) (_ : K.tasks = false := by assumption) (_ : K.acc = false := by
    assumption) (_ : K.accNext = false := by assumption) (_ : K.tbl = false := by assumption) (_ : K.sch = false := by
    assumption) (_ : K.trl = false := by assumption) (_ : K.qwin = false := by assumption) (_ : K.xwin = false := by
    assumption) (_ : K.gwin = false := by assumption) (_ : K.swin = false := by assumption) (_ : K.out = false := by
    assumption) : ∃ out, execErrAbort q w s = .next out ∧ obs K out = obs K s :=
  ⟨_, rfl, by simp [*]⟩

@[simp] theorem wabortWrite_frame {K : Keep} (q : Requester) (n : Nat) (w : Word) (s : State) (_ : K.glob = false := by
    assumption) (_ : K.clr = false := by assumption) (_ : K.win = false := by assumption) (_ : K.err = false := by assumption)
    (_ : K.rings = false := by assumption) (_ : K.queues = false := by assumption) (_ : K.tasks = false := by assumption) (_ :
    K.acc = false := by assumption) (_ : K.sch = false := by assumption) (_ : K.trl = false := by assumption) (_ : K.qwin =
    false := by assumption) (_ : K.swin = false := by assumption) (_ : K.out = false := by assumption) : obs K (wabortWrite q
    n w s) = obs K s := by
  unfold wabortWrite
  refine windowCmd_frame _ _ _ _ (checked_frame _ _ _ ?_)
  simp [*]

theorem execErrWabort_frame {K : Keep} (q : Requester) (n : Nat) (w : Word) (s : State) (_ : K.glob = false := by assumption)
    (_ : K.clr = false := by assumption) (_ : K.win = false := by assumption) (_ : K.err = false := by assumption) (_ :
    K.rings = false := by assumption) (_ : K.queues = false := by assumption) (_ : K.tasks = false := by assumption) (_ :
    K.acc = false := by assumption) (_ : K.sch = false := by assumption) (_ : K.trl = false := by assumption) (_ : K.qwin =
    false := by assumption) (_ : K.swin = false := by assumption) (_ : K.out = false := by assumption) : ∃ out, execErrWabort
    q n w s = .next out ∧ obs K out = obs K s :=
  ⟨_, rfl, by simp [*]⟩

@[simp] theorem headWrite_frame {K : Keep} (s : State) (k v : Nat) (_ : K.rings = false := by trivial) : obs K (headWrite s k
    v).2 = obs K s := by
  simp [headWrite, *]

@[simp] theorem ringHead_frame {K : Keep} (q : Requester) (n : Option Nat) (w : Word) (s : State) (_ : K.glob = false := by
    trivial) (_ : K.win = false := by trivial) (_ : K.rings = false := by trivial) : obs K (ringHead q n w s) = obs K s :=
  anyWindowCmd_frame q n s _ (headWrite_frame s _ _)

theorem execRingHeadWrite_frame {K : Keep} (q : Requester) (n : Option Nat) (w : Word) (s : State) (_ : K.glob = false := by
    assumption) (_ : K.win = false := by assumption) (_ : K.rings = false := by assumption) : ∃ out, execRingHeadWrite q n w s
    = .next out ∧ obs K out = obs K s :=
  ⟨_, rfl, by simp [*]⟩

/-! Responses. -/

@[simp] theorem leaveOutstanding_frame {K : Keep} (s : State) (r : MemReq) (_ : K.clr = false := by assumption) : obs K
    (leaveOutstanding s r) = obs K s := by
  unfold leaveOutstanding
  try dsimp only
  repeat' first
    | with_reducible rfl
    | (simp only [countOutstanding_frame, *]; done)
    | split

@[simp] theorem scrubAnswered_frame {K : Keep} (s : State) (p : Nat) (_ : K.img = false := by assumption) : obs K
    (scrubAnswered s p) = obs K s := by
  unfold scrubAnswered
  try dsimp only
  repeat' first
    | with_reducible rfl
    | (simp only [obs_set_img, *, obs_ite, ite_self]; done)
    | split

@[simp] theorem recordAnswered_frame {K : Keep} (s : State) (k : Nat) (_ : K.clr = false := by assumption) (_ : K.rings =
    false := by assumption) (_ : K.out = false := by assumption) : obs K (recordAnswered s k) = obs K s :=
  by simp [recordAnswered, *]

@[simp] theorem deliver_frame {K : Keep} (s : State) (r : MemReq) (a : MemAnswer) (data : List Byte) (_ : K.img = false := by
    assumption) (_ : K.glob = false := by assumption) (_ : K.clr = false := by assumption) (_ : K.err = false := by
    assumption) (_ : K.rings = false := by assumption) (_ : K.que = false := by assumption) (_ : K.queues = false := by
    assumption) (_ : K.tasks = false := by assumption) (_ : K.acc = false := by assumption) (_ : K.accNext = false := by
    assumption) (_ : K.tbl = false := by assumption) (_ : K.sch = false := by assumption) (_ : K.bar = false := by assumption)
    (_ : K.qwin = false := by assumption) (_ : K.xwin = false := by assumption) (_ : K.gwin = false := by assumption) (_ :
    K.swin = false := by assumption) (_ : K.pwin = false := by assumption) (_ : K.cc = false := by assumption) (_ : K.out =
    false := by assumption) : obs K (deliver s r a data) = obs K s := by
  unfold deliver
  try dsimp only
  repeat' first
    | with_reducible rfl
    | (simp only [leaveOutstanding_frame, coreRespond_frame, accMemory_frame, emit_frame, recordAnswered_frame,
       scrubAnswered_frame, descArrived_frame, *]; done)
    | split

@[simp] theorem countCorrected_frame {K : Keep} (s : State) (h : Nat) (_ : K.cal = false := by assumption) (_ : K.err = false
    := by assumption) (_ : K.rings = false := by assumption) : obs K (countCorrected s h) = obs K s :=
  by simp [countCorrected, *]

@[simp] theorem spoiledRec_frame {K : Keep} (s : State) (r : MemReq) (_ : K.err = false := by assumption) (_ : K.rings = false
    := by assumption) : obs K (spoiledRec s r) = obs K s :=
  by simp [spoiledRec, *]

@[simp] theorem countEcc_frame {K : Keep} (s : State) (r : MemReq) (e : Ecc) (_ : K.cal = false := by assumption) (_ : K.err =
    false := by assumption) (_ : K.rings = false := by assumption) : obs K (countEcc s r e) = obs K s := by
  unfold countEcc
  try dsimp only
  repeat' first
    | with_reducible rfl
    | (simp only [countCorrected_frame, spoiledRec_frame, obs_set_err, *]; done)
    | split

@[simp] theorem latencyRec_frame {K : Keep} (s : State) (r : MemReq) (latency : Nat) (tag : Nat) (_ : K.cal = false := by
    assumption) (_ : K.err = false := by assumption) (_ : K.rings = false := by assumption) : obs K (latencyRec s r latency
    tag) = obs K s :=
  by simp [latencyRec, *]

@[simp] theorem memoryResponse_frame {K : Keep} (s : State) (stack : Nat) (lane : Nat) (tag : Nat) (ecc : Ecc) (data : List
    Byte) (_ : K.img = false := by assumption) (_ : K.glob = false := by assumption) (_ : K.clr = false := by assumption) (_ :
    K.cal = false := by assumption) (_ : K.err = false := by assumption) (_ : K.rings = false := by assumption) (_ : K.que =
    false := by assumption) (_ : K.queues = false := by assumption) (_ : K.tasks = false := by assumption) (_ : K.acc = false
    := by assumption) (_ : K.accNext = false := by assumption) (_ : K.tbl = false := by assumption) (_ : K.sch = false := by
    assumption) (_ : K.bar = false := by assumption) (_ : K.qwin = false := by assumption) (_ : K.xwin = false := by
    assumption) (_ : K.gwin = false := by assumption) (_ : K.swin = false := by assumption) (_ : K.pwin = false := by
    assumption) (_ : K.cc = false := by assumption) (_ : K.out = false := by assumption) : obs K (memoryResponse s stack lane
    tag ecc data) = obs K s := by
  unfold memoryResponse
  try dsimp only
  repeat' first
    | with_reducible rfl
    | (simp only [updCal_frame, countEcc_frame, latencyRec_frame, deliver_frame, *, obs_ite, ite_self]; done)
    | split

theorem execMemoryResponse_frame {K : Keep} (stack : Nat) (lane : Nat) (tag : Nat) (ecc : Ecc) (data : List Byte) (s : State)
    (_ : K.img = false := by assumption) (_ : K.glob = false := by assumption) (_ : K.clr = false := by assumption) (_ : K.cal
    = false := by assumption) (_ : K.err = false := by assumption) (_ : K.rings = false := by assumption) (_ : K.que = false
    := by assumption) (_ : K.queues = false := by assumption) (_ : K.tasks = false := by assumption) (_ : K.acc = false := by
    assumption) (_ : K.accNext = false := by assumption) (_ : K.tbl = false := by assumption) (_ : K.sch = false := by
    assumption) (_ : K.bar = false := by assumption) (_ : K.qwin = false := by assumption) (_ : K.xwin = false := by
    assumption) (_ : K.gwin = false := by assumption) (_ : K.swin = false := by assumption) (_ : K.pwin = false := by
    assumption) (_ : K.cc = false := by assumption) (_ : K.out = false := by assumption) : ∃ out, execMemoryResponse stack
    lane tag ecc data s = .next out ∧ obs K out = obs K s :=
  ⟨_, rfl, by simp [*]⟩

@[simp] theorem memoryTimeout_frame {K : Keep} (s : State) (stack : Nat) (lane : Nat) (tag : Nat) (_ : K.img = false := by
    assumption) (_ : K.glob = false := by assumption) (_ : K.clr = false := by assumption) (_ : K.cal = false := by
    assumption) (_ : K.err = false := by assumption) (_ : K.rings = false := by assumption) (_ : K.que = false := by
    assumption) (_ : K.queues = false := by assumption) (_ : K.tasks = false := by assumption) (_ : K.acc = false := by
    assumption) (_ : K.accNext = false := by assumption) (_ : K.tbl = false := by assumption) (_ : K.sch = false := by
    assumption) (_ : K.bar = false := by assumption) (_ : K.qwin = false := by assumption) (_ : K.xwin = false := by
    assumption) (_ : K.gwin = false := by assumption) (_ : K.swin = false := by assumption) (_ : K.pwin = false := by
    assumption) (_ : K.cc = false := by assumption) (_ : K.out = false := by assumption) : obs K (memoryTimeout s stack lane
    tag) = obs K s := by
  unfold memoryTimeout
  try dsimp only
  repeat' first
    | with_reducible rfl
    | (simp only [updCal_frame, deliver_frame, latencyRec_frame, *, obs_ite, ite_self]; done)
    | split

theorem execMemoryResponseTimeout_frame {K : Keep} (stack : Nat) (lane : Nat) (tag : Nat) (s : State) (_ : K.img = false := by
    assumption) (_ : K.glob = false := by assumption) (_ : K.clr = false := by assumption) (_ : K.cal = false := by
    assumption) (_ : K.err = false := by assumption) (_ : K.rings = false := by assumption) (_ : K.que = false := by
    assumption) (_ : K.queues = false := by assumption) (_ : K.tasks = false := by assumption) (_ : K.acc = false := by
    assumption) (_ : K.accNext = false := by assumption) (_ : K.tbl = false := by assumption) (_ : K.sch = false := by
    assumption) (_ : K.bar = false := by assumption) (_ : K.qwin = false := by assumption) (_ : K.xwin = false := by
    assumption) (_ : K.gwin = false := by assumption) (_ : K.swin = false := by assumption) (_ : K.pwin = false := by
    assumption) (_ : K.cc = false := by assumption) (_ : K.out = false := by assumption) : ∃ out, execMemoryResponseTimeout
    stack lane tag s = .next out ∧ obs K out = obs K s :=
  ⟨_, rfl, by simp [*]⟩

@[simp] theorem poisonTurn_frame {K : Keep} (s : State) (_ : K.img = false := by assumption) (_ : K.glob = false := by
    assumption) (_ : K.clr = false := by assumption) (_ : K.cal = false := by assumption) (_ : K.err = false := by assumption)
    (_ : K.rings = false := by assumption) (_ : K.que = false := by assumption) (_ : K.queues = false := by assumption) (_ :
    K.tasks = false := by assumption) (_ : K.acc = false := by assumption) (_ : K.accNext = false := by assumption) (_ : K.tbl
    = false := by assumption) (_ : K.sch = false := by assumption) (_ : K.bar = false := by assumption) (_ : K.qwin = false :=
    by assumption) (_ : K.xwin = false := by assumption) (_ : K.gwin = false := by assumption) (_ : K.swin = false := by
    assumption) (_ : K.pwin = false := by assumption) (_ : K.cc = false := by assumption) (_ : K.out = false := by assumption)
    : obs K (poisonTurn s) = obs K s :=
  by simp [poisonTurn, *]

/-! RotReplies. -/

@[simp] theorem xchEnd_frame {K : Keep} (s : State) (x : Nat) (c : Code) (rsp : List Byte) (_ : K.key = false := by
    assumption) : obs K (xchEnd s x c rsp) = obs K s :=
  by simp [xchEnd, *]

@[simp] theorem randomCame_frame {K : Keep} (s : State) (use : RandomUse) (bs : List Byte) (_ : K.key = false := by
    assumption) (_ : K.out = false := by assumption) : obs K (randomCame s use bs) = obs K s := by
  unfold randomCame
  try dsimp only
  repeat' first
    | with_reducible rfl
    | (simp only [emit_frame, updKey_frame, xchPut_frame, keyEnd_frame, *]; done)
    | split

@[simp] theorem settingsMoved_frame {K : Keep} (s : State) (target : Nat) (_ : K.out = false := by assumption) : obs K
    (settingsMoved s target) = obs K s :=
  by simp [settingsMoved, *]

@[simp] theorem rotGiveUp_frame {K : Keep} (s : State) (o : Nat) (use : RotUse) (_ : K.key = false := by assumption) (_ :
    K.out = false := by assumption) : obs K (rotGiveUp s o use) = obs K s := by
  unfold rotGiveUp
  try dsimp only
  repeat' first
    | with_reducible rfl
    | (simp only [xchEnd_frame, keyEnd_frame, *]; done)
    | split

@[simp] theorem rotTimeout_frame {K : Keep} (s : State) (o : Nat) (_ : K.key = false := by assumption) (_ : K.out = false :=
    by assumption) : obs K (rotTimeout s o) = obs K s := by
  unfold rotTimeout
  try dsimp only
  repeat' first
    | with_reducible rfl
    | (simp only [rotNext_frame, rotGiveUp_frame, updKey_frame, *]; done)
    | split

theorem execRotTimeout_frame {K : Keep} (origin : Nat) (s : State) (_ : K.key = false := by assumption) (_ : K.out = false :=
    by assumption) : ∃ out, execRotTimeout origin s = .next out ∧ obs K out = obs K s :=
  ⟨_, rfl, by simp [*]⟩

/-! TrailLink. -/

@[simp] theorem markPeer_frame {K : Keep} (s : State) (chip : Nat) (_ : K.trl = false := by assumption) : obs K (markPeer s
    chip) = obs K s :=
  by simp [markPeer, *]

@[simp] theorem duplicateChip_frame {K : Keep} (s : State) (_ : K.boot = false := by assumption) (_ : K.err = false := by
    assumption) (_ : K.rings = false := by assumption) (_ : K.trl = false := by assumption) : obs K (duplicateChip s) = obs K
    s :=
  by simp [duplicateChip, *]

@[simp] theorem frameIn_frame {K : Keep} (s : State) (h : FrameHead) (f : State → State) (hf : ∀ x0, obs K (f x0) = obs K x0)
    (_ : K.boot = false := by assumption) (_ : K.err = false := by assumption) (_ : K.rings = false := by assumption) (_ :
    K.trl = false := by assumption) : obs K (frameIn s h f) = obs K s :=
  by simp [frameIn, *]

@[simp] theorem tickFrame_frame {K : Keep} (s : State) (h : FrameHead) (us : Nat) (f : State → State) (hf : ∀ x0, obs K (f x0)
    = obs K x0) (_ : K.boot = false := by assumption) (_ : K.err = false := by assumption) (_ : K.rings = false := by
    assumption) (_ : K.trl = false := by assumption) : obs K (tickFrame s h us f) = obs K s :=
  by simp [tickFrame, *]

@[simp] theorem retireLane_frame {K : Keep} (s : State) (l : Nat) (f : LaneFault) (when' : Nat) (_ : K.err = false := by
    assumption) (_ : K.rings = false := by assumption) (_ : K.trl = false := by assumption) : obs K (retireLane s l f when') =
    obs K s :=
  by simp [retireLane, *]

@[simp] theorem trainedLane_frame {K : Keep} (rs : List LaneResult) (ok : BitVec 4) (s : State) (l : Nat) (_ : K.err = false
    := by assumption) (_ : K.rings = false := by assumption) (_ : K.trl = false := by assumption) : obs K (trainedLane rs ok s
    l) = obs K s := by
  unfold trainedLane
  try dsimp only
  repeat' first
    | with_reducible rfl
    | (simp only [updLane_frame, retireLane_frame, *, obs_ite, ite_self]; done)
    | split

@[simp] theorem trainingDone_frame {K : Keep} (s : State) (rs : List LaneResult) (ok : BitVec 4) (echoes : List Nat) (_ :
    K.err = false := by assumption) (_ : K.rings = false := by assumption) (_ : K.trl = false := by assumption) : obs K
    (trainingDone s rs ok echoes) = obs K s :=
  by simp [trainingDone, *]

theorem execTrlTrainingDone_frame {K : Keep} (lanes : List LaneResult) (ok : BitVec 4) (echoes : List Nat) (s : State) (_ :
    K.err = false := by assumption) (_ : K.rings = false := by assumption) (_ : K.trl = false := by assumption) : ∃ out,
    execTrlTrainingDone lanes ok echoes s = .next out ∧ obs K out = obs K s :=
  ⟨_, rfl, by simp [*]⟩

@[simp] theorem lanesChanged_frame {K : Keep} (s : State) (_ : K.err = false := by assumption) (_ : K.rings = false := by
    assumption) (_ : K.trl = false := by assumption) (_ : K.out = false := by assumption) : obs K (lanesChanged s) = obs K s
    :=
  by simp [lanesChanged, *]

@[simp] theorem laneFaulted_frame {K : Keep} (s : State) (l : Nat) (f : LaneFault) (errors : Nat) (_ : K.err = false := by
    assumption) (_ : K.rings = false := by assumption) (_ : K.trl = false := by assumption) (_ : K.out = false := by
    assumption) : obs K (laneFaulted s l f errors) = obs K s :=
  by simp [laneFaulted, *]

theorem execTrlLaneFault_frame {K : Keep} (lane : Nat) (f : LaneFault) (errors : Nat) (s : State) (_ : K.err = false := by
    assumption) (_ : K.rings = false := by assumption) (_ : K.trl = false := by assumption) (_ : K.out = false := by
    assumption) : ∃ out, execTrlLaneFault lane f errors s = .next out ∧ obs K out = obs K s :=
  ⟨_, rfl, by simp [*]⟩

@[simp] theorem linkState_frame {K : Keep} (s : State) (h : FrameHead) (mask : BitVec 8) (_ : K.boot = false := by assumption)
    (_ : K.err = false := by assumption) (_ : K.rings = false := by assumption) (_ : K.trl = false := by assumption) (_ :
    K.out = false := by assumption) : obs K (linkState s h mask) = obs K s := by
  unfold linkState
  refine frameIn_frame _ _ _ fun s => ?_
  simp [*]

theorem execTrlLinkState_frame {K : Keep} (h : FrameHead) (mask : BitVec 8) (s : State) (_ : K.boot = false := by assumption)
    (_ : K.err = false := by assumption) (_ : K.rings = false := by assumption) (_ : K.trl = false := by assumption) (_ :
    K.out = false := by assumption) : ∃ out, execTrlLinkState h mask s = .next out ∧ obs K out = obs K s :=
  ⟨_, rfl, by simp [*]⟩

@[simp] theorem retrainTimer_frame {K : Keep} (s : State) (_ : K.trl = false := by assumption) (_ : K.out = false := by
    assumption) : obs K (retrainTimer s) = obs K s :=
  by simp [retrainTimer, *]

theorem execTrlRetrainTimer_frame {K : Keep} (s : State) (_ : K.trl = false := by assumption) (_ : K.out = false := by
    assumption) : ∃ out, execTrlRetrainTimer s = .next out ∧ obs K out = obs K s :=
  ⟨_, rfl, by simp [*]⟩

@[simp] theorem trlCmd_frame {K : Keep} (q : Requester) (s : State) (body : State → Checked) (h : obs K (body s).2 = obs K s)
    (_ : K.glob = false := by trivial) (_ : K.win = false := by trivial) : obs K (trlCmd q s body) = obs K s := by
  unfold trlCmd
  (repeat' split) <;> simp [*]

@[simp] theorem trailCommand_frame {K : Keep} (q : Requester) (w : Word) (s : State) (_ : K.boot = false := by assumption) (_
    : K.glob = false := by assumption) (_ : K.win = false := by assumption) (_ : K.trl = false := by assumption) (_ : K.out =
    false := by assumption) : obs K (trailCommand q w s) = obs K s := by
  unfold trailCommand
  refine trlCmd_frame _ _ _ (checked_frame _ _ _ ?_)
  simp [*]

theorem execTrlRetrain_frame {K : Keep} (q : Requester) (w : Word) (s : State) (_ : K.boot = false := by assumption) (_ :
    K.glob = false := by assumption) (_ : K.win = false := by assumption) (_ : K.trl = false := by assumption) (_ : K.out =
    false := by assumption) : ∃ out, execTrlRetrain q w s = .next out ∧ obs K out = obs K s :=
  ⟨_, rfl, by simp [*]⟩

theorem execTrlSolo_frame {K : Keep} (q : Requester) (w : Word) (s : State) (_ : K.boot = false := by assumption) (_ : K.glob
    = false := by assumption) (_ : K.win = false := by assumption) (_ : K.trl = false := by assumption) (_ : K.out = false :=
    by assumption) : ∃ out, execTrlSolo q w s = .next out ∧ obs K out = obs K s :=
  ⟨_, rfl, by simp [*]⟩

@[simp] theorem helloTimer_frame {K : Keep} (s : State) (_ : K.trl = false := by assumption) (_ : K.out = false := by
    assumption) : obs K (helloTimer s) = obs K s :=
  by simp [helloTimer, *]

theorem execTrlHelloTimer_frame {K : Keep} (s : State) (_ : K.trl = false := by assumption) (_ : K.out = false := by
    assumption) : ∃ out, execTrlHelloTimer s = .next out ∧ obs K out = obs K s :=
  ⟨_, rfl, by simp [*]⟩

@[simp] theorem helloHeard_frame {K : Keep} (s : State) (h : FrameHead) (pm : Nat) (state : Nat) (us : Nat) (_ : K.boot =
    false := by assumption) (_ : K.err = false := by assumption) (_ : K.rings = false := by assumption) (_ : K.trl = false :=
    by assumption) : obs K (helloHeard s h pm state us) = obs K s :=
  by simp [helloHeard, *]

theorem execTrlHello_frame {K : Keep} (h : FrameHead) (firstPm : Nat) (state : Nat) (tickUs : Nat) (s : State) (_ : K.boot =
    false := by assumption) (_ : K.err = false := by assumption) (_ : K.rings = false := by assumption) (_ : K.trl = false :=
    by assumption) : ∃ out, execTrlHello h firstPm state tickUs s = .next out ∧ obs K out = obs K s :=
  ⟨_, rfl, by simp [*]⟩

@[simp] theorem agree_frame {K : Keep} (s : State) (pm : Nat) (at' : Nat) (how : Nat) (who : Nat) (_ : K.boot = false := by
    assumption) (_ : K.trl = false := by assumption) : obs K (agree s pm at' how who) = obs K s :=
  by simp [agree, *]

@[simp] theorem launchMaster_frame {K : Keep} (s : State) (_ : K.boot = false := by assumption) (_ : K.trl = false := by
    assumption) (_ : K.out = false := by assumption) : obs K (launchMaster s) = obs K s :=
  by simp [launchMaster, *]

theorem execTrlLaunchMasterTimeout_frame {K : Keep} (s : State) (_ : K.boot = false := by assumption) (_ : K.trl = false := by
    assumption) (_ : K.out = false := by assumption) : ∃ out, execTrlLaunchMasterTimeout s = .next out ∧ obs K out = obs K s
    :=
  ⟨_, rfl, by simp [*]⟩

@[simp] theorem launchHeard_frame {K : Keep} (s : State) (h : FrameHead) (pm : Nat) (us : Nat) (_ : K.boot = false := by
    assumption) (_ : K.err = false := by assumption) (_ : K.rings = false := by assumption) (_ : K.trl = false := by
    assumption) : obs K (launchHeard s h pm us) = obs K s :=
  by simp [launchHeard, *]

theorem execTrlLaunch_frame {K : Keep} (h : FrameHead) (pm : Nat) (leadUs : Nat) (tickUs : Nat) (s : State) (_ : K.boot =
    false := by assumption) (_ : K.err = false := by assumption) (_ : K.rings = false := by assumption) (_ : K.trl = false :=
    by assumption) : ∃ out, execTrlLaunch h pm leadUs tickUs s = .next out ∧ obs K out = obs K s := by
  unfold execTrlLaunch
  refine ⟨_, rfl, heard_frame _ _ fun s => ?_⟩
  split
  · exact launchHeard_frame _ _ _ _
  · exact frameIn_frame _ _ _ fun s => dropFrame_frame s

@[simp] theorem checkDrift_frame {K : Keep} (s : State) (h : FrameHead) (pm : Nat) (_ : K.err = false := by assumption) (_ :
    K.rings = false := by assumption) (_ : K.trl = false := by assumption) : obs K (checkDrift s h pm) = obs K s := by
  unfold checkDrift
  try dsimp only
  repeat' first
    | with_reducible rfl
    | (simp only [updTrl_frame, trailRec_frame, *, obs_ite, ite_self]; done)
    | split

@[simp] theorem heartbeatHeard_frame {K : Keep} (s : State) (h : FrameHead) (pm : Nat) (us : Nat) (_ : K.boot = false := by
    assumption) (_ : K.err = false := by assumption) (_ : K.rings = false := by assumption) (_ : K.trl = false := by
    assumption) : obs K (heartbeatHeard s h pm us) = obs K s :=
  by simp [heartbeatHeard, *]

theorem execTrlHeartbeat_frame {K : Keep} (h : FrameHead) (pm : Nat) (tickUs : Nat) (s : State) (_ : K.boot = false := by
    assumption) (_ : K.err = false := by assumption) (_ : K.rings = false := by assumption) (_ : K.trl = false := by
    assumption) : ∃ out, execTrlHeartbeat h pm tickUs s = .next out ∧ obs K out = obs K s :=
  ⟨_, rfl, by simp [*]⟩

@[simp] theorem peerLost_frame {K : Keep} (s : State) (chip : Nat) (_ : K.err = false := by assumption) (_ : K.rings = false
    := by assumption) (_ : K.trl = false := by assumption) : obs K (peerLost s chip) = obs K s := by
  unfold peerLost
  try dsimp only
  repeat' first
    | with_reducible rfl
    | (simp only [trailRec_frame, updTrl_frame, *, obs_ite, ite_self]; done)
    | split

theorem execTrlPeerLost_frame {K : Keep} (chip : Nat) (s : State) (_ : K.err = false := by assumption) (_ : K.rings = false :=
    by assumption) (_ : K.trl = false := by assumption) : ∃ out, execTrlPeerLost chip s = .next out ∧ obs K out = obs K s :=
  ⟨_, rfl, by simp [*]⟩

theorem execTrailFrameDropped_frame {K : Keep} (frame : List Byte) (s : State) (_ : K.trl = false := by assumption) : ∃ out,
    execTrailFrameDropped frame s = .next out ∧ obs K out = obs K s :=
  ⟨_, rfl, by simp [*]⟩

theorem execAbortReceived_frame {K : Keep} (h : FrameHead) (group postmark : Nat) (s : State) (_ : K.boot = false := by
    trivial) (_ : K.clr = false := by trivial) (_ : K.err = false := by trivial) (_ : K.rings = false := by trivial) (_ :
    K.queues = false := by trivial) (_ : K.tasks = false := by trivial) (_ : K.acc = false := by trivial) (_ : K.sch = false
    := by trivial) (_ : K.trl = false := by trivial) (_ : K.qwin = false := by trivial) (_ : K.swin = false := by trivial) :
    ∃ out, execAbortReceived h group postmark s = .next out ∧ obs K out = obs K s := by
  refine ⟨_, rfl, heard_frame _ _ fun s => frameIn_frame _ _ _ fun s => ?_⟩
  split
  · exact localAbort_frame _ _ _
  · rfl

/-! Lockstep. -/

@[simp] theorem freezeCores_frame {K : Keep} (s : State) (n : Nat) (_ : K.sch = false := by assumption) (_ : K.out = false :=
    by assumption) : obs K (freezeCores s n) = obs K s :=
  by simp [freezeCores, *]

@[simp] theorem thawCores_frame {K : Keep} (s : State) (n : Nat) (_ : K.sch = false := by assumption) (_ : K.out = false := by
    assumption) : obs K (thawCores s n) = obs K s :=
  by simp [thawCores, *]

@[simp] theorem freezeNow_frame {K : Keep} (s : State) (n : Nat) (p : Nat) (cause : Nat) (_ : K.sch = false := by assumption)
    (_ : K.ls = false := by assumption) (_ : K.out = false := by assumption) : obs K (freezeNow s n p cause) = obs K s :=
  by simp [freezeNow, *]

@[simp] theorem freezeDue_frame {K : Keep} (s : State) (n : Nat) (_ : K.sch = false := by assumption) (_ : K.ls = false := by
    assumption) (_ : K.out = false := by assumption) : obs K (freezeDue s n) = obs K s := by
  unfold freezeDue
  try dsimp only
  repeat' first
    | with_reducible rfl
    | (simp only [freezeNow_frame, freezeCores_frame, *, obs_ite, ite_self]; done)
    | split

@[simp] theorem mismatchRec_frame {K : Keep} (s : State) (n : Nat) (t : Nat) (own : Nat) (other : Nat) (_ : K.err = false :=
    by assumption) (_ : K.rings = false := by assumption) : obs K (mismatchRec s n t own other) = obs K s :=
  by simp [mismatchRec, *]

@[simp] theorem missingRec_frame {K : Keep} (s : State) (n : Nat) (_ : K.err = false := by assumption) (_ : K.rings = false :=
    by assumption) : obs K (missingRec s n) = obs K s :=
  by simp [missingRec, *]

@[simp] theorem lsFind_frame {K : Keep} (s : State) (n : Nat) (cause : Nat) (_ : K.trl = false := by assumption) (_ : K.ls =
    false := by assumption) (_ : K.out = false := by assumption) : obs K (lsFind s n cause) = obs K s :=
  by simp [lsFind, *]

@[simp] theorem lsCompare_frame {K : Keep} (s : State) (n : Nat) (t : Nat) (d : Nat) (_ : K.err = false := by assumption) (_ :
    K.rings = false := by assumption) (_ : K.trl = false := by assumption) (_ : K.ls = false := by assumption) (_ : K.out =
    false := by assumption) : obs K (lsCompare s n t d) = obs K s :=
  by simp [lsCompare, *]

@[simp] theorem lsHeldTurn_frame {K : Keep} (s : State) (n : Nat) (_ : K.err = false := by assumption) (_ : K.rings = false :=
    by assumption) (_ : K.trl = false := by assumption) (_ : K.ls = false := by assumption) (_ : K.out = false := by
    assumption) : obs K (lsHeldTurn s n) = obs K s :=
  by simp [lsHeldTurn, *]

@[simp] theorem lsTurn_frame {K : Keep} (s : State) (_ : K.err = false := by assumption) (_ : K.rings = false := by
    assumption) (_ : K.sch = false := by assumption) (_ : K.trl = false := by assumption) (_ : K.ls = false := by assumption)
    (_ : K.out = false := by assumption) : obs K (lsTurn s) = obs K s :=
  by simp [lsTurn, *]

@[simp] theorem lsBoundary_frame {K : Keep} (s : State) (_ : K.sch = false := by assumption) (_ : K.trl = false := by
    assumption) (_ : K.ls = false := by assumption) (_ : K.out = false := by assumption) : obs K (lsBoundary s) = obs K s :=
  by simp [lsBoundary, *]

@[simp] theorem digestHeard_frame {K : Keep} (s : State) (h : FrameHead) (n : Nat) (t : Nat) (d : Nat) (_ : K.boot = false :=
    by assumption) (_ : K.err = false := by assumption) (_ : K.rings = false := by assumption) (_ : K.trl = false := by
    assumption) (_ : K.ls = false := by assumption) (_ : K.out = false := by assumption) : obs K (digestHeard s h n t d) = obs
    K s :=
  by simp [digestHeard, *]

theorem execTrlDigest_frame {K : Keep} (h : FrameHead) (n : Nat) (t : Nat) (d : BitVec 128) (s : State) (_ : K.boot = false :=
    by assumption) (_ : K.err = false := by assumption) (_ : K.rings = false := by assumption) (_ : K.trl = false := by
    assumption) (_ : K.ls = false := by assumption) (_ : K.out = false := by assumption) : ∃ out, execTrlDigest h n t d s =
    .next out ∧ obs K out = obs K s :=
  ⟨_, rfl, by simp [*]⟩

@[simp] theorem freezeHeard_frame {K : Keep} (s : State) (h : FrameHead) (n cause p : Nat) (_ : K.boot = false := by trivial)
    (_ : K.err = false := by trivial) (_ : K.rings = false := by trivial) (_ : K.trl = false := by trivial) (_ : K.ls = false
    := by trivial) : obs K (freezeHeard s h n cause p) = obs K s := by
  unfold freezeHeard
  refine frameIn_frame s h _ fun s => ?_
  split
  · rfl
  · split
    · simp [*]
    · dsimp only
      rw [updLs_frame]
      split <;> simp [*]

theorem execTrlLsFreeze_frame {K : Keep} (h : FrameHead) (n : Nat) (cause : Nat) (postmark : Nat) (s : State) (_ : K.boot =
    false := by assumption) (_ : K.err = false := by assumption) (_ : K.rings = false := by assumption) (_ : K.trl = false :=
    by assumption) (_ : K.ls = false := by assumption) : ∃ out, execTrlLsFreeze h n cause postmark s = .next out ∧ obs K out =
    obs K s :=
  ⟨_, rfl, by simp [*]⟩

@[simp] theorem lockstepTimeout_frame {K : Keep} (s : State) (n : Nat) (_ : K.err = false := by assumption) (_ : K.rings =
    false := by assumption) (_ : K.trl = false := by assumption) (_ : K.ls = false := by assumption) (_ : K.out = false := by
    assumption) : obs K (lockstepTimeout s n) = obs K s :=
  by simp [lockstepTimeout, *]

theorem execLockstepTimeout_frame {K : Keep} (n : Nat) (s : State) (_ : K.err = false := by assumption) (_ : K.rings = false
    := by assumption) (_ : K.trl = false := by assumption) (_ : K.ls = false := by assumption) (_ : K.out = false := by
    assumption) : ∃ out, execLockstepTimeout n s = .next out ∧ obs K out = obs K s :=
  ⟨_, rfl, by simp [*]⟩

@[simp] theorem lsBegin_frame {K : Keep} (s : State) (n : Nat) (start : Nat) (_ : K.sch = false := by assumption) (_ : K.ls =
    false := by assumption) (_ : K.out = false := by assumption) : obs K (lsBegin s n start) = obs K s :=
  by simp [lsBegin, *]

@[simp] theorem lsEnd_frame {K : Keep} (s : State) (n : Nat) (_ : K.sch = false := by assumption) (_ : K.ls = false := by
    assumption) (_ : K.out = false := by assumption) : obs K (lsEnd s n) = obs K s :=
  by simp [lsEnd, *]

@[simp] theorem lsCommand_frame {K : Keep} (q : Requester) (w : Word) (s : State) (_ : K.glob = false := by assumption) (_ :
    K.win = false := by assumption) (_ : K.sch = false := by assumption) (_ : K.ls = false := by assumption) (_ : K.out =
    false := by assumption) : obs K (lsCommand q w s) = obs K s := by
  unfold lsCommand
  refine globalCmd_frame _ _ _ (checked_frame _ _ _ ?_)
  simp [*]

theorem execLsStart_frame {K : Keep} (q : Requester) (w : Word) (s : State) (_ : K.glob = false := by assumption) (_ : K.win =
    false := by assumption) (_ : K.sch = false := by assumption) (_ : K.ls = false := by assumption) (_ : K.out = false := by
    assumption) : ∃ out, execLsStart q w s = .next out ∧ obs K out = obs K s :=
  ⟨_, rfl, by simp [*]⟩

theorem execLsStop_frame {K : Keep} (q : Requester) (w : Word) (s : State) (_ : K.glob = false := by assumption) (_ : K.win =
    false := by assumption) (_ : K.sch = false := by assumption) (_ : K.ls = false := by assumption) (_ : K.out = false := by
    assumption) : ∃ out, execLsStop q w s = .next out ∧ obs K out = obs K s :=
  ⟨_, rfl, by simp [*]⟩

@[simp] theorem lscfgWrite_frame {K : Keep} (q : Requester) (n : Nat) (w : Word) (s : State) (_ : K.glob = false := by
    assumption) (_ : K.win = false := by assumption) (_ : K.ls = false := by assumption) : obs K (lscfgWrite q n w s) = obs K
    s := by
  unfold lscfgWrite
  refine globalCmd_frame _ _ _ (checked_frame _ _ _ ?_)
  simp [*]

theorem execDetLscfgWrite_frame {K : Keep} (q : Requester) (n : Nat) (w : Word) (s : State) (_ : K.glob = false := by
    assumption) (_ : K.win = false := by assumption) (_ : K.ls = false := by assumption) : ∃ out, execDetLscfgWrite q n w s =
    .next out ∧ obs K out = obs K s :=
  ⟨_, rfl, by simp [*]⟩

@[simp] theorem barrierWrite_frame {K : Keep} (q : Requester) (n : Nat) (w : Word) (s : State) (_ : K.glob = false := by
    assumption) (_ : K.win = false := by assumption) (_ : K.que = false := by assumption) (_ : K.trl = false := by assumption)
    (_ : K.bar = false := by assumption) (_ : K.out = false := by assumption) : obs K (barrierWrite q n w s) = obs K s := by
  unfold barrierWrite
  refine windowCmd_frame _ _ _ _ (checked_frame _ _ _ ?_)
  simp [*]

theorem execTrlWbarcmd_frame {K : Keep} (q : Requester) (n : Nat) (w : Word) (s : State) (_ : K.glob = false := by assumption)
    (_ : K.win = false := by assumption) (_ : K.que = false := by assumption) (_ : K.trl = false := by assumption) (_ : K.bar
    = false := by assumption) (_ : K.out = false := by assumption) : ∃ out, execTrlWbarcmd q n w s = .next out ∧ obs K out =
    obs K s :=
  ⟨_, rfl, by simp [*]⟩

@[simp] theorem arriveAt_frame {K : Keep} (group : Nat) (epoch : Nat) (chip : Nat) (sent : Nat) (s : State) (n : Nat) (_ :
    K.bar = false := by assumption) : obs K (arriveAt group epoch chip sent s n) = obs K s :=
  by simp [arriveAt, *]

@[simp] theorem arriveHeard_frame {K : Keep} (s : State) (h : FrameHead) (group epoch : Nat) (_ : K.boot = false := by
    trivial) (_ : K.err = false := by trivial) (_ : K.rings = false := by trivial) (_ : K.trl = false := by trivial) (_ :
    K.bar = false := by trivial) : obs K (arriveHeard s h group epoch) = obs K s := by
  unfold arriveHeard
  exact frameIn_frame _ _ _ fun s => forEach_frame _ _ _ fun s n => arriveAt_frame _ _ _ _ s n

theorem execTrlArrive_frame {K : Keep} (h : FrameHead) (group : Nat) (epoch : Nat) (s : State) (_ : K.boot = false := by
    assumption) (_ : K.err = false := by assumption) (_ : K.rings = false := by assumption) (_ : K.trl = false := by
    assumption) (_ : K.bar = false := by assumption) : ∃ out, execTrlArrive h group epoch s = .next out ∧ obs K out = obs K s
    :=
  ⟨_, rfl, by simp [*]⟩

@[simp] theorem barrierRelease_frame {K : Keep} (s : State) (n : Nat) (_ : K.err = false := by assumption) (_ : K.rings =
    false := by assumption) (_ : K.que = false := by assumption) (_ : K.bar = false := by assumption) : obs K (barrierRelease
    s n) = obs K s := by
  unfold barrierRelease
  dsimp only
  simp only [updBar_frame, updQue_frame, raise_frame, *, obs_ite, ite_self]

theorem execBarrierRelease_frame {K : Keep} (n : Nat) (s : State) (_ : K.err = false := by assumption) (_ : K.rings = false :=
    by assumption) (_ : K.que = false := by assumption) (_ : K.bar = false := by assumption) : ∃ out, execBarrierRelease n s =
    .next out ∧ obs K out = obs K s :=
  ⟨_, rfl, by simp [*]⟩

@[simp] theorem barcfgWrite_frame {K : Keep} (q : Requester) (n : Nat) (w : Word) (s : State) (_ : K.glob = false := by
    assumption) (_ : K.win = false := by assumption) (_ : K.bar = false := by assumption) : obs K (barcfgWrite q n w s) = obs
    K s := by
  unfold barcfgWrite
  refine globalCmd_frame _ _ _ (checked_frame _ _ _ ?_)
  simp [*]

theorem execTrlBarcfgWrite_frame {K : Keep} (q : Requester) (n : Nat) (w : Word) (s : State) (_ : K.glob = false := by
    assumption) (_ : K.win = false := by assumption) (_ : K.bar = false := by assumption) : ∃ out, execTrlBarcfgWrite q n w s
    = .next out ∧ obs K out = obs K s :=
  ⟨_, rfl, by simp [*]⟩

/-! Ticks. -/

@[simp] theorem markLate_frame {K : Keep} (s : State) (n : Nat) (_ : K.clr = false := by assumption) (_ : K.cal = false := by
    assumption) (_ : K.tasks = false := by assumption) (_ : K.cc = false := by assumption) : obs K (markLate s n) = obs K s := by
  unfold markLate
  dsimp only
  simp only [updCc_frame, updCal_frame, updClr_frame, updTask_frame, *, forEach_frame,
    implies_true]

@[simp] theorem lateTick_frame {K : Keep} (s : State) (_ : K.clr = false := by assumption) (_ : K.cal = false := by
    assumption) (_ : K.err = false := by assumption) (_ : K.rings = false := by assumption) (_ : K.tasks = false := by
    assumption) (_ : K.cc = false := by assumption) : obs K (lateTick s) = obs K s :=
  by simp [lateTick, *]

@[simp] theorem gateRows_frame {K : Keep} (s : State) (g : Nat × List Nat) (_ : K.sch = false := by assumption) (_ : K.pwr =
    false := by assumption) : obs K (gateRows s g) = obs K s :=
  by simp [gateRows, *]

@[simp] theorem chargeAll_frame {K : Keep} (s : State) (rows : List (Nat × List Nat)) (_ : K.ctx = false := by assumption) (_
    : K.sch = false := by assumption) (_ : K.pwr = false := by assumption) : obs K (chargeAll s rows) = obs K s := by
  unfold chargeAll
  try dsimp only
  repeat' first
    | with_reducible rfl
    | (simp only [chargeRows_frame, chargeCtx_frame, gateRows_frame, updSch_frame, *, forEach_frame,
       implies_true]; done)
    | with_reducible refine (forEach_frame _ _ _ fun _ _ => ?_).trans ?_
    | (simp only [chargeCtx_frame, gateRows_frame, updSch_frame, *, forEach_frame,
       implies_true]; with_reducible refine (forEach_frame _ _ _ fun _ _ => ?_).trans ?_)
    | (simp only [chargeRows_frame, chargeCtx_frame, gateRows_frame, updSch_frame, *, obs_ite, ite_self, forEach_frame,
       implies_true]; exact enterStore_frame _ _ _ (by assumption))
    | exact enterStore_frame _ _ _ (by assumption)
    | (simp only [chargeRows_frame, chargeCtx_frame, gateRows_frame, updSch_frame, *, obs_ite, ite_self, forEach_frame,
       implies_true]; split)
    | split
    | (simp [*]; done)

@[simp] theorem putRecord_frame {K : Keep} (s : State) (n : Nat) (rec' : Bool → List Byte) (_ : K.swin = false := by
    assumption) : obs K (putRecord s n rec') = obs K s :=
  by simp [putRecord, *]

@[simp] theorem acctCtx_frame {K : Keep} (late : List Nat) (s : State) (kv : Nat × CtxAcct) (_ : K.sch = false := by
    assumption) (_ : K.swin = false := by assumption) : obs K (acctCtx late s kv) = obs K s := by
  unfold acctCtx
  try dsimp only
  repeat' first
    | with_reducible rfl
    | (simp only [updSch_frame, putRecord_frame, updSwin_frame, *, obs_ite, ite_self]; done)
    | split

@[simp] theorem acctTick_frame {K : Keep} (s : State) (late : List Nat) (_ : K.sch = false := by assumption) (_ : K.swin =
    false := by assumption) : obs K (acctTick s late) = obs K s :=
  by simp [acctTick, *]

@[simp] theorem acctWriteNext_frame {K : Keep} (s : State) (n : Nat) (_ : K.acc = false := by assumption) (_ : K.accNext =
    false := by assumption) (_ : K.swin = false := by assumption) : obs K (acctWriteNext s n) = obs K s := by
  unfold acctWriteNext
  try dsimp only
  repeat' first
    | with_reducible rfl
    | (simp only [newAcc_frame, updSwin_frame, *, obs_ite, ite_self]; done)
    | split

@[simp] theorem acctTurn_frame {K : Keep} (s : State) (_ : K.acc = false := by assumption) (_ : K.accNext = false := by
    assumption) (_ : K.swin = false := by assumption) : obs K (acctTurn s) = obs K s :=
  by simp [acctTurn, *]

@[simp] theorem mapBoundary_frame {K : Keep} (s : State) (_ : K.clr = false := by assumption) (_ : K.cal = false := by
    assumption) (_ : K.err = false := by assumption) (_ : K.rings = false := by assumption) (_ : K.cc = false := by
    assumption) : obs K (mapBoundary s) = obs K s := by
  unfold mapBoundary
  try dsimp only
  repeat' first
    | with_reducible rfl
    | (simp only [updCal_frame, overcommitNow_frame, guestBoundary_frame, *]; done)
    | split

@[simp] theorem weightBoundary_frame {K : Keep} (s : State) (n : Nat) (_ : K.ctx = false := by assumption) (_ : K.sch = false
    := by assumption) : obs K (weightBoundary s n) = obs K s :=
  by simp [weightBoundary, *]

@[simp] theorem rampBoundary_frame {K : Keep} (s : State) (n : Nat) (_ : K.clr = false := by assumption) : obs K (rampBoundary
    s n) = obs K s :=
  by simp [rampBoundary, *]

@[simp] theorem clearingBoundary_frame {K : Keep} (s : State) (n : Nat) (_ : K.clr = false := by assumption) (_ : K.ctx =
    false := by assumption) (_ : K.sch = false := by assumption) : obs K (clearingBoundary s n) = obs K s :=
  by simp [clearingBoundary, *]

@[simp] theorem countBoundary_frame {K : Keep} (s : State) (_ : K.queues = false := by assumption) (_ : K.xlt = false := by
    assumption) (_ : K.tbl = false := by assumption) (_ : K.sch = false := by assumption) : obs K (countBoundary s) = obs K s
    := by
  unfold countBoundary
  dsimp only
  simp only [updXlt_frame, updTbl_frame, updSch_frame, obs_set_queues, *]

@[simp] theorem openTick_frame {K : Keep} (s : State) (lock : Nat) (_ : K.clk = false := by assumption) : obs K (openTick s
    lock) = obs K s :=
  by simp [openTick, *]

@[simp] theorem ringsBoundary_frame {K : Keep} (s : State) (_ : K.rings = false := by assumption) : obs K (ringsBoundary s) =
    obs K s :=
  by simp [ringsBoundary, *]

@[simp] theorem favourBoundary_frame {K : Keep} (s : State) (_ : K.cal = false := by assumption) : obs K (favourBoundary s) =
    obs K s :=
  by simp [favourBoundary, *]

@[simp] theorem cclkOpen_frame {K : Keep} (s : State) (_ : K.clk = false := by assumption) : obs K (cclkOpen s) = obs K s :=
  by simp [cclkOpen, *]

@[simp] theorem closeTick_frame {K : Keep} (s : State) (rows : List (Nat × List Nat)) (_ : K.clk = false := by assumption) (_
    : K.clr = false := by assumption) (_ : K.ctx = false := by assumption) (_ : K.cal = false := by assumption) (_ : K.err =
    false := by assumption) (_ : K.rings = false := by assumption) (_ : K.tasks = false := by assumption) (_ : K.sch = false
    := by assumption) (_ : K.pwr = false := by assumption) (_ : K.swin = false := by assumption) (_ : K.pwin = false := by
    assumption) (_ : K.cc = false := by assumption) : obs K (closeTick s rows) = obs K s := by
  unfold closeTick
  dsimp only
  rw [powerBoundary_frame, acctTick_frame, chargeAll_frame, cclkOpen_frame]
  exact lateTick_frame s

@[simp] theorem fencesTurn_frame {K : Keep} (s : State) (_ : K.clr = false := by assumption) (_ : K.ctx = false := by
    assumption) (_ : K.tasks = false := by assumption) (_ : K.tbl = false := by assumption) (_ : K.sch = false := by
    assumption) (_ : K.pwr = false := by assumption) (_ : K.out = false := by assumption) : obs K (fencesTurn s) = obs K s :=
  by simp [fencesTurn, *]

@[simp] theorem unitsTurn_frame {K : Keep} (s : State) (_ : K.clr = false := by assumption) (_ : K.ctx = false := by
    assumption) (_ : K.queues = false := by assumption) (_ : K.tasks = false := by assumption) (_ : K.tbl = false := by
    assumption) (_ : K.sch = false := by assumption) (_ : K.pwr = false := by assumption) (_ : K.qwin = false := by
    assumption) (_ : K.swin = false := by assumption) (_ : K.out = false := by assumption) : obs K (unitsTurn s) = obs K s :=
  by simp [unitsTurn, *]

@[simp] theorem tickBoundary_frame {K : Keep} (s : State) (w : TickWires) (_ : K.clk = false := by assumption) (_ : K.clr =
    false := by assumption) (_ : K.ctx = false := by assumption) (_ : K.cal = false := by assumption) (_ : K.err = false := by
    assumption) (_ : K.rings = false := by assumption) (_ : K.que = false := by assumption) (_ : K.queues = false := by
    assumption) (_ : K.tasks = false := by assumption) (_ : K.xlt = false := by assumption) (_ : K.tbl = false := by
    assumption) (_ : K.sch = false := by assumption) (_ : K.pwr = false := by assumption) (_ : K.trl = false := by assumption)
    (_ : K.ls = false := by assumption) (_ : K.qwin = false := by assumption) (_ : K.twin = false := by assumption) (_ :
    K.swin = false := by assumption) (_ : K.pwin = false := by assumption) (_ : K.cc = false := by assumption) (_ : K.out =
    false := by assumption) : obs K (tickBoundary s w) = obs K s := by
  unfold tickBoundary
  split
  · rfl
  · simp [*]

theorem execTickBoundary_frame {K : Keep} (wires : TickWires) (s : State) (_ : K.clk = false := by assumption) (_ : K.clr =
    false := by assumption) (_ : K.ctx = false := by assumption) (_ : K.cal = false := by assumption) (_ : K.err = false := by
    assumption) (_ : K.rings = false := by assumption) (_ : K.que = false := by assumption) (_ : K.queues = false := by
    assumption) (_ : K.tasks = false := by assumption) (_ : K.xlt = false := by assumption) (_ : K.tbl = false := by
    assumption) (_ : K.sch = false := by assumption) (_ : K.pwr = false := by assumption) (_ : K.trl = false := by assumption)
    (_ : K.ls = false := by assumption) (_ : K.qwin = false := by assumption) (_ : K.twin = false := by assumption) (_ :
    K.swin = false := by assumption) (_ : K.pwin = false := by assumption) (_ : K.cc = false := by assumption) (_ : K.out =
    false := by assumption) : ∃ out, execTickBoundary wires s = .next out ∧ obs K out = obs K s :=
  ⟨_, rfl, by simp [*]⟩

@[simp] theorem stageTurn_frame {K : Keep} (s : State) (_ : K.key = false := by assumption) : obs K (stageTurn s) = obs K s :=
  by simp [stageTurn, *]

end Sys2Proof.Machine
end

