-- ==== Sys2Proof/Laws/FramePorts.lean ====
section
/-! SUPPORT. Which fields of the state each operation leaves as they were: the register port and the TAP. A field set `K` that leaves out
what the operation changes is observed alike before and after. -/

namespace Sys2Proof.Machine

set_option Elab.async false
set_option linter.unusedTactic false
set_option linter.unreachableTactic false

/-! RegRead. -/

@[simp] theorem winAfterRead_frame {K : Keep} (b s : State) (n : Nat) (p : Part) (r : WinReg) (_ : K.clr = false := by
    trivial) (_ : K.win = false := by trivial) (_ : K.rings = false := by trivial) (_ : K.key = false := by trivial) (_ :
    K.qwin = false := by trivial) (_ : K.xwin = false := by trivial) (_ : K.gwin = false := by trivial) (_ : K.twin = false :=
    by trivial) (_ : K.swin = false := by trivial) (_ : K.pwin = false := by trivial) : obs K (winAfterRead b s n p r) = obs K
    s := by
  cases r <;> simp [winAfterRead, *]

@[simp] theorem globAfterRead_frame {K : Keep} (b s : State) (p : Part) (r : GlobReg) (_ : K.glob = false := by trivial) (_ :
    K.cal = false := by trivial) (_ : K.err = false := by trivial) (_ : K.rings = false := by trivial) (_ : K.que = false :=
    by trivial) (_ : K.xlt = false := by trivial) (_ : K.tbl = false := by trivial) (_ : K.pwr = false := by trivial) (_ :
    K.trl = false := by trivial) : obs K (globAfterRead b s p r) = obs K s := by
  cases r <;> simp [globAfterRead, *]

@[simp] theorem winTaken_frame {K : Keep} (s : State) (n : Nat) (p : Part) (r : WinReg) (_ : K.glob = false := by trivial) (_
    : K.clr = false := by trivial) (_ : K.win = false := by trivial) (_ : K.cal = false := by trivial) (_ : K.err = false :=
    by trivial) (_ : K.rings = false := by trivial) (_ : K.que = false := by trivial) (_ : K.xlt = false := by trivial) (_ :
    K.tbl = false := by trivial) (_ : K.pwr = false := by trivial) (_ : K.key = false := by trivial) (_ : K.trl = false := by
    trivial) (_ : K.qwin = false := by trivial) (_ : K.xwin = false := by trivial) (_ : K.gwin = false := by trivial) (_ :
    K.twin = false := by trivial) (_ : K.swin = false := by trivial) (_ : K.pwin = false := by trivial) (_ : K.cc = false :=
    by trivial) : obs K (winTaken s n p r) = obs K s := by
  simp [winTaken, *]

@[simp] theorem globTaken_frame {K : Keep} (s : State) (p : Part) (r : GlobReg) (_ : K.glob = false := by trivial) (_ : K.clr
    = false := by trivial) (_ : K.win = false := by trivial) (_ : K.cal = false := by trivial) (_ : K.err = false := by
    trivial) (_ : K.rings = false := by trivial) (_ : K.que = false := by trivial) (_ : K.xlt = false := by trivial) (_ :
    K.tbl = false := by trivial) (_ : K.pwr = false := by trivial) (_ : K.key = false := by trivial) (_ : K.trl = false := by
    trivial) (_ : K.qwin = false := by trivial) (_ : K.xwin = false := by trivial) (_ : K.gwin = false := by trivial) (_ :
    K.twin = false := by trivial) (_ : K.swin = false := by trivial) (_ : K.pwin = false := by trivial) (_ : K.cc = false :=
    by trivial) : obs K (globTaken s p r) = obs K s := by
  simp [globTaken, *]

@[simp] theorem postmarkLatch_frame {K : Keep} (s : State) (q : Requester) (win : Option Nat) (p : Part) (_ : K.clk = false :=
    by assumption) : obs K (postmarkLatch s q win p) = obs K s :=
  by simp [postmarkLatch, *]

@[simp] theorem placeRead_frame {K : Keep} (s : State) (q : Requester) (p : Part) (x : Place8) (_ : K.clk = false := by
    trivial) (_ : K.glob = false := by trivial) (_ : K.clr = false := by trivial) (_ : K.win = false := by trivial) (_ : K.cal
    = false := by trivial) (_ : K.err = false := by trivial) (_ : K.rings = false := by trivial) (_ : K.que = false := by
    trivial) (_ : K.xlt = false := by trivial) (_ : K.tbl = false := by trivial) (_ : K.pwr = false := by trivial) (_ : K.mbx
    = false := by trivial) (_ : K.key = false := by trivial) (_ : K.trl = false := by trivial) (_ : K.qwin = false := by
    trivial) (_ : K.xwin = false := by trivial) (_ : K.gwin = false := by trivial) (_ : K.twin = false := by trivial) (_ :
    K.swin = false := by trivial) (_ : K.pwin = false := by trivial) (_ : K.cc = false := by trivial) : obs K (placeRead s q p
    x).2 = obs K s := by
  cases x <;> simp only [placeRead] <;> (repeat' split) <;> simp [*]

/-! RegWrite. -/

@[simp] theorem winPlain_frame {K : Keep} (q : Requester) (n : Nat) (r : WinReg) (w : Word) (cs : State → List (Bool × Code))
    (effect : State → State) (s : State) (heffect : ∀ x0, obs K (effect x0) = obs K x0) (_ : K.glob = false := by assumption)
    (_ : K.win = false := by assumption) : obs K (winPlain q n r w cs effect s) = obs K s :=
  by simp [winPlain, *]

@[simp] theorem globPlain_frame {K : Keep} (q : Requester) (r : GlobReg) (w : Word) (cs : State → List (Bool × Code)) (effect
    : State → State) (s : State) (heffect : ∀ x0, obs K (effect x0) = obs K x0) (_ : K.glob = false := by assumption) (_ :
    K.win = false := by assumption) : obs K (globPlain q r w cs effect s) = obs K s :=
  by simp [globPlain, *]

@[simp] theorem xbufPut_frame {K : Keep} (x : Nat) (k : Nat) (w : Word) (s : State) (_ : K.key = false := by assumption) : obs
    K (xbufPut x k w s) = obs K s :=
  by simp [xbufPut, *]

@[simp] theorem updDet_frame {K : Keep} (s : State) (n : Nat) (f : DetWin → DetWin) (_ : K.det = false := by assumption) : obs
    K (updDet s n f) = obs K s :=
  by simp [updDet, *]

@[simp] theorem winWrite_frame {K : Keep} (q : Requester) (n : Nat) (w : Word) (r : WinReg) (s : State) (_ : K.glob = false :=
    by assumption) (_ : K.clr = false := by assumption) (_ : K.win = false := by assumption) (_ : K.ctx = false := by
    assumption) (_ : K.cal = false := by assumption) (_ : K.err = false := by assumption) (_ : K.rings = false := by
    assumption) (_ : K.que = false := by assumption) (_ : K.queues = false := by assumption) (_ : K.tasks = false := by
    assumption) (_ : K.acc = false := by assumption) (_ : K.accNext = false := by assumption) (_ : K.xlt = false := by
    assumption) (_ : K.tbl = false := by assumption) (_ : K.sch = false := by assumption) (_ : K.key = false := by assumption)
    (_ : K.trl = false := by assumption) (_ : K.ls = false := by assumption) (_ : K.bar = false := by assumption) (_ : K.det =
    false := by assumption) (_ : K.qwin = false := by assumption) (_ : K.xwin = false := by assumption) (_ : K.gwin = false :=
    by assumption) (_ : K.twin = false := by assumption) (_ : K.swin = false := by assumption) (_ : K.pwin = false := by
    assumption) (_ : K.cc = false := by assumption) (_ : K.out = false := by assumption) : obs K (winWrite q n w r s) = obs K
    s := by
  cases r <;> simp [winWrite, *]

@[simp] theorem clearFaults_frame {K : Keep} (from' : Nat) (count : Nat) (w : Word) (s : State) (_ : K.pwr = false := by
    assumption) : obs K (clearFaults from' count w s) = obs K s :=
  by simp [clearFaults, *]

@[simp] theorem policyWrite_frame {K : Keep} (d : Nat) (w : Word) (s : State) (_ : K.pwr = false := by assumption) : obs K
    (policyWrite d w s) = obs K s :=
  by simp [policyWrite, *]

@[simp] theorem trlCtrlWrite_frame {K : Keep} (q : Requester) (w : Word) (s : State) (_ : K.glob = false := by assumption) (_
    : K.win = false := by assumption) (_ : K.trl = false := by assumption) : obs K (trlCtrlWrite q w s) = obs K s := by
  unfold trlCtrlWrite
  refine trlCmd_frame _ _ _ (checked_frame _ _ _ ?_)
  simp [*]

@[simp] theorem updErr_frame {K : Keep} (s : State) (f : ErrUnit → ErrUnit) (_ : K.err = false := by assumption) : obs K
    (updErr s f) = obs K s :=
  by simp [updErr, *]

@[simp] theorem mbxWrite_frame {K : Keep} (q : Requester) (m : Nat) (w : Word) (r : MbxReg) (s : State) (_ : K.glob = false :=
    by assumption) (_ : K.win = false := by assumption) (_ : K.pwr = false := by assumption) (_ : K.mbx = false := by
    assumption) (_ : K.out = false := by assumption) : obs K (mbxWrite q m w r s) = obs K s := by
  unfold mbxWrite
  try dsimp only
  repeat' first
    | with_reducible rfl
    | (simp only [mbxCmd_frame, checked_frame, dataWrite_frame, unlockWrite_frame, postWrite_frame, takeWrite_frame,
       ackWrite_frame, recvWrite_frame, *]; done)
    | split

/-! Bus. -/

@[simp] theorem portRead_frame {K : Keep} (a : Access) (s : State) (_ : K.clk = false := by assumption) (_ : K.glob = false :=
    by assumption) (_ : K.clr = false := by assumption) (_ : K.win = false := by assumption) (_ : K.cal = false := by
    assumption) (_ : K.err = false := by assumption) (_ : K.rings = false := by assumption) (_ : K.que = false := by
    assumption) (_ : K.xlt = false := by assumption) (_ : K.tbl = false := by assumption) (_ : K.pwr = false := by assumption)
    (_ : K.mbx = false := by assumption) (_ : K.key = false := by assumption) (_ : K.trl = false := by assumption) (_ : K.qwin
    = false := by assumption) (_ : K.xwin = false := by assumption) (_ : K.gwin = false := by assumption) (_ : K.twin = false
    := by assumption) (_ : K.swin = false := by assumption) (_ : K.pwin = false := by assumption) (_ : K.cc = false := by
    assumption) : obs K (portRead a s).2 = obs K s := by
  unfold portRead
  try dsimp only
  repeat' first
    | with_reducible rfl
    | (simp only [recordRead_frame, placeRead_frame, *, obs_ite, ite_self]; done)
    | split

theorem execRegisterRead_frame {K : Keep} (a : Access) (s : State) (_ : K.clk = false := by assumption) (_ : K.glob = false :=
    by assumption) (_ : K.clr = false := by assumption) (_ : K.win = false := by assumption) (_ : K.cal = false := by
    assumption) (_ : K.err = false := by assumption) (_ : K.rings = false := by assumption) (_ : K.que = false := by
    assumption) (_ : K.xlt = false := by assumption) (_ : K.tbl = false := by assumption) (_ : K.pwr = false := by assumption)
    (_ : K.mbx = false := by assumption) (_ : K.key = false := by assumption) (_ : K.trl = false := by assumption) (_ : K.qwin
    = false := by assumption) (_ : K.xwin = false := by assumption) (_ : K.gwin = false := by assumption) (_ : K.twin = false
    := by assumption) (_ : K.swin = false := by assumption) (_ : K.pwin = false := by assumption) (_ : K.cc = false := by
    assumption) (_ : K.out = false := by assumption) : ∃ out, execRegisterRead a s = .next out ∧ obs K out = obs K s :=
  ⟨_, rfl, by simp [*]⟩

@[simp] theorem updTap_frame {K : Keep} (s : State) (f : Tap → Tap) (_ : K.tap = false := by assumption) : obs K (updTap s f)
    = obs K s :=
  by simp [updTap, *]

@[simp] theorem tapScan_frame {K : Keep} (s : State) (ir : BitVec 8) (width : Nat) (value : Nat) (_ : K.tap = false := by
    assumption) (_ : K.out = false := by assumption) : obs K (tapScan s ir width value) = obs K s :=
  by simp [tapScan, *]

@[simp] theorem bypassScan_frame {K : Keep} (s : State) (ir : BitVec 8) (_ : K.tap = false := by assumption) (_ : K.out =
    false := by assumption) : obs K (bypassScan s ir) = obs K s :=
  by simp [bypassScan, *]

@[simp] theorem tapGuard_frame {K : Keep} (s : State) (ir : BitVec 8) (act : State → State) (hact : ∀ x0, obs K (act x0) = obs
    K x0) (_ : K.tap = false := by assumption) (_ : K.out = false := by assumption) : obs K (tapGuard s ir act) = obs K s :=
  by simp [tapGuard, *]

theorem execTapIdcode_frame {K : Keep} (s : State) (_ : K.tap = false := by assumption) (_ : K.out = false := by assumption) :
    ∃ out, execTapIdcode s = .next out ∧ obs K out = obs K s :=
  ⟨_, rfl, by simp [*]⟩

theorem execTapBypass_frame {K : Keep} (ir : BitVec 8) (s : State) (_ : K.tap = false := by assumption) (_ : K.out = false :=
    by assumption) : ∃ out, execTapBypass ir s = .next out ∧ obs K out = obs K s :=
  ⟨_, rfl, by simp [*]⟩

@[simp] theorem boundaryScan_frame {K : Keep} (s : State) (ir : BitVec 8) (pins : List Bool) (cells : List Bool) (_ : K.tap =
    false := by assumption) (_ : K.out = false := by assumption) : obs K (boundaryScan s ir pins cells) = obs K s :=
  by simp [boundaryScan, *]

theorem execTapSamplePreload_frame {K : Keep} (pins cells : List Bool) (s : State) (_ : K.tap = false := by trivial) (_ :
    K.out = false := by trivial) :
    ∃ out, execTapSamplePreload pins cells s = .next out ∧ obs K out = obs K s := by
  unfold execTapSamplePreload
  refine ⟨_, rfl, ?_⟩
  simp [*]

theorem execTapExtest_frame {K : Keep} (pins : List Bool) (cells : List Bool) (s : State) (_ : K.tap = false := by assumption)
    (_ : K.out = false := by assumption) : ∃ out, execTapExtest pins cells s = .next out ∧ obs K out = obs K s :=
  ⟨_, rfl, by simp [*]⟩

theorem execTapDbgDmi_frame {K : Keep} (dmi : BitVec 41) (s : State) (_ : K.tap = false := by assumption) (_ : K.out = false
    := by assumption) : ∃ out, execTapDbgDmi dmi s = .next out ∧ obs K out = obs K s :=
  ⟨_, rfl, by simp [*]⟩

theorem execTapDbgStatus_frame {K : Keep} (s : State) (_ : K.tap = false := by assumption) (_ : K.out = false := by
    assumption) : ∃ out, execTapDbgStatus s = .next out ∧ obs K out = obs K s :=
  ⟨_, rfl, by simp [*]⟩

theorem execTapTestLogicReset_frame {K : Keep} (s : State) (_ : K.tap = false := by assumption) : ∃ out, execTapTestLogicReset
    s = .next out ∧ obs K out = obs K s :=
  ⟨_, rfl, by simp [*]⟩

/-! Dump. -/

@[simp] theorem crashDumpDone_frame {K : Keep} (s : State) (sram : List Byte) (lost : List Nat) (_ : K.err = false := by
    assumption) (_ : K.rings = false := by assumption) (_ : K.que = false := by assumption) : obs K (crashDumpDone s sram
    lost) = obs K s := by
  unfold crashDumpDone
  dsimp only
  simp only [updQue_frame, raise_frame, obs_set_err, *, obs_ite, ite_self]

theorem execCrashDumpDone_frame {K : Keep} (sram : List Byte) (lost : List Nat) (s : State) (_ : K.err = false := by
    assumption) (_ : K.rings = false := by assumption) (_ : K.que = false := by assumption) : ∃ out, execCrashDumpDone sram
    lost s = .next out ∧ obs K out = obs K s :=
  ⟨_, rfl, by simp [*]⟩

/-! Ticks: one cclk. -/
/-- What the opening of a cclk shows of the fields in `K`. -/
theorem obs_cclkOpen {K : Keep} {s t : State} (h : obs K t = obs K s) (hc : t.clk = s.clk) : obs K (cclkOpen t) = obs K
    (cclkOpen s) := by
  have e : ∀ u : State, obs K (cclkOpen u) =
      { obs K u with clk := bif K.clk then { u.clk with cclk := u.clk.cclk + 1 } else State.reset.clk } := fun _ => rfl
  rw [e, e, h, hc]

/-- Outside the reset, one cclk counts on in the tick and changes no other field of time, nor the start-up's fields, the
windows of clearings, the mailboxes, the TAP and the generators, nor the queue of commands. -/
theorem cclkTurn_frame {K : Keep} (s : State) (h : s.boot.phase ≠ .reset) (_ : K.img = false := by trivial) (_ : K.glob =
    false := by trivial) (_ : K.clr = false := by trivial) (_ : K.ctx = false := by trivial) (_ : K.cal = false := by trivial)
    (_ : K.err = false := by trivial) (_ : K.rings = false := by trivial) (_ : K.que = false := by trivial) (_ : K.queues =
    false := by trivial) (_ : K.tasks = false := by trivial) (_ : K.acc = false := by trivial) (_ : K.accNext = false := by
    trivial) (_ : K.xlt = false := by trivial) (_ : K.tbl = false := by trivial) (_ : K.sch = false := by trivial) (_ : K.pwr
    = false := by trivial) (_ : K.key = false := by trivial) (_ : K.trl = false := by trivial) (_ : K.ls = false := by
    trivial) (_ : K.bar = false := by trivial) (_ : K.qwin = false := by trivial) (_ : K.xwin = false := by trivial) (_ :
    K.gwin = false := by trivial) (_ : K.twin = false := by trivial) (_ : K.swin = false := by trivial) (_ : K.pwin = false :=
    by trivial) (_ : K.cc = false := by trivial) (_ : K.out = false := by trivial) :
    obs K (cclkTurn s) = obs K (cclkOpen s) := by
  have h' : (s.boot.phase == BootPhase.reset) = false := by simpa using h
  have hc : (placesTurn s).clk = s.clk := obs_clk (K := ⟨true, true, true, false, false, true, true, true, true, true, false,
    false, false, true, true, true, true, false, false, true, true, true, true, true, false, true, false, true, true, true,
    false, false, false, false, true⟩) (placesTurn_frame s rfl rfl rfl rfl rfl rfl rfl)
  unfold cclkTurn
  rw [h']
  dsimp only
  rw [if_neg (by decide), openCclk_frame, ringIssueAll_frame, powerTurn_frame, engineCharge_frame, acctTurn_frame,
    lsTurn_frame,
    jobsTurn_frame, drainsTurn_frame, envsTurn_frame, issueAccs_frame, fillsTurn_frame, issueOwn_frame, queuesTurn_frame, poisonTurn_frame,
    stageTurn_frame, fencesTurn_frame, freezesTurn_frame]
  exact obs_cclkOpen (placesTurn_frame s) hc

end Sys2Proof.Machine
end

