-- ==== Sys2Proof/Laws/KeptBase.lean ====
section
/-! SUPPORT. What each operation leaves of the bounded registers and of the queue of commands: from the named updates to the forms of commands. -/

namespace Sys2Proof.Machine

set_option Elab.async false
set_option linter.unusedTactic false
set_option linter.unreachableTactic false

/-- State record updates that leave the kept parts alone. -/
@[simp] theorem kept_record (s : State) (clk : Clk) (boot : Boot) (img : Img) (glob : Glob) (clr : Tab Clearing) (win : Tab Window)
    (ctx : Tab Ctx) (cal : Cal) (rings : Tab ErrRing) (que : QueUnit) (queues : Tab Queue) (tasks : Tab (Option Task))
    (acc : Tab (Option Acc)) (accNext : Nat) (pwr : Power) (mbx : Tab Mailbox) (key : KeyUnit) (tap : Tap) (ls : Tab Lockstep)
    (bar : Tab Barrier) (det : Tab DetWin) (qwin : Tab QueWin) (xwin : Tab XltWin) (gwin : Tab GpeWin) (twin : Tab TblWin)
    (swin : Tab SchWin) (pwin : Tab PwrWin) (cc : CclkView) (out : List Output) :
    kept ⟨clk, boot, img, glob, clr, win, ctx, cal, s.err, rings, que, queues, tasks, acc, accNext, s.xlt, s.tbl, s.sch, pwr, mbx, key,
      tap, s.trl, ls, bar, det, qwin, xwin, gwin, twin, swin, pwin, cc, out, s.pending⟩ = kept s := rfl

@[simp] theorem kept_record_err (s : State) (clk : Clk) (boot : Boot) (img : Img) (glob : Glob) (clr : Tab Clearing) (win : Tab Window)
    (ctx : Tab Ctx) (cal : Cal) (err : ErrUnit) (rings : Tab ErrRing) (que : QueUnit) (queues : Tab Queue) (tasks : Tab (Option Task))
    (acc : Tab (Option Acc)) (accNext : Nat) (pwr : Power) (mbx : Tab Mailbox) (key : KeyUnit) (tap : Tap) (ls : Tab Lockstep)
    (bar : Tab Barrier) (det : Tab DetWin) (qwin : Tab QueWin) (xwin : Tab XltWin) (gwin : Tab GpeWin) (twin : Tab TblWin)
    (swin : Tab SchWin) (pwin : Tab PwrWin) (cc : CclkView) (out : List Output) (h : err.fenceTo = s.err.fenceTo) :
    kept ⟨clk, boot, img, glob, clr, win, ctx, cal, err, rings, que, queues, tasks, acc, accNext, s.xlt, s.tbl, s.sch, pwr, mbx, key,
      tap, s.trl, ls, bar, det, qwin, xwin, gwin, twin, swin, pwin, cc, out, s.pending⟩ = kept s := by
  simp [kept, h]

theorem kept_of {t s : State} (h1 : t.xlt.timeout = s.xlt.timeout) (h2 : t.tbl.hold = s.tbl.hold) (h3 : t.sch.passwd = s.sch.passwd)
    (h4 : t.err.fenceTo = s.err.fenceTo) (h5 : t.trl.hb = s.trl.hb) (h6 : t.pending = s.pending) : kept t = kept s := by
  simp [kept, h1, h2, h3, h4, h5, h6]

theorem in_kept_prito (s : State) : s.xlt.timeout = (kept s).prito := rfl
theorem in_kept_hold (s : State) : s.tbl.hold = (kept s).hold := rfl
theorem in_kept_passwd (s : State) : s.sch.passwd = (kept s).passwd := rfl
theorem in_kept_fenceTo (s : State) : s.err.fenceTo = (kept s).fenceTo := rfl
theorem in_kept_hb (s : State) : s.trl.hb = (kept s).hb := rfl
theorem in_kept_pending (s : State) : s.pending = (kept s).pending := rfl

@[simp] theorem kept_ite (c : Prop) [Decidable c] (s t : State) : kept (if c then s else t) = if c then kept s else kept t :=
  apply_ite kept c s t

theorem foldl_kept {α : Type} (f : State → α → State) (h : ∀ s x, kept (f s x) = kept s) :
    ∀ (l : List α) (s : State), kept (l.foldl f s) = kept s
  | [], _ => rfl
  | x :: l, s => (foldl_kept f h l (f s x)).trans (h s x)

@[simp] theorem forEach_kept' {α : Type} (xs : List α) (s : State) (f : State → α → State) (h : ∀ s x, kept (f s x) = kept s) :
    kept (forEach xs s f) = kept s := foldl_kept f h xs s

/-! Ops. -/

@[simp] theorem setClr_kept (s : State) (n : Nat) (c : Clearing) : kept (setClr s n c) = kept s := by rfl

@[simp] theorem updClr_kept (s : State) (n : Nat) (f : Clearing → Clearing) : kept (updClr s n f) = kept s := by rfl

@[simp] theorem updWin_kept (s : State) (n : Nat) (f : Window → Window) : kept (updWin s n f) = kept s := by rfl

@[simp] theorem updCtx_kept (s : State) (c : Nat) (f : Ctx → Ctx) : kept (updCtx s c f) = kept s := by rfl

@[simp] theorem updPch_kept (s : State) (p : Nat) (f : Pch → Pch) : kept (updPch s p f) = kept s := by rfl

@[simp] theorem updRing_kept (s : State) (r : Nat) (f : ErrRing → ErrRing) : kept (updRing s r f) = kept s := by rfl

@[simp] theorem updCal_kept (s : State) (f : Cal → Cal) : kept (updCal s f) = kept s := by rfl

@[simp] theorem updQueue_kept (s : State) (q : Nat) (f : Queue → Queue) : kept (updQueue s q f) = kept s := by rfl

@[simp] theorem updQue_kept (s : State) (f : QueUnit → QueUnit) : kept (updQue s f) = kept s := by rfl

@[simp] theorem updTask_kept (s : State) (t : Nat) (f : Task → Task) : kept (updTask s t f) = kept s := by rfl

@[simp] theorem updEnv_kept (s : State) (t : Nat) (e : Nat) (f : EnvRun → EnvRun) : kept (updEnv s t e f) = kept s := by rfl

@[simp] theorem updAcc_kept (s : State) (a : Nat) (f : Acc → Acc) : kept (updAcc s a f) = kept s := by rfl

@[simp] theorem dropAcc_kept (s : State) (a : Nat) : kept (dropAcc s a) = kept s := by rfl

@[simp] theorem updXlt_kept (s : State) (f : XltUnit → XltUnit) (h : (f s.xlt).timeout = s.xlt.timeout) : kept (updXlt s f) = kept s :=
  kept_of h rfl rfl rfl rfl rfl

@[simp] theorem updTbl_kept (s : State) (f : TblUnit → TblUnit) (h : (f s.tbl).hold = s.tbl.hold) : kept (updTbl s f) = kept s :=
  kept_of rfl h rfl rfl rfl rfl

@[simp] theorem updDesc_kept (s : State) (d : Nat) (f : Tbl → Tbl) : kept (updDesc s d f) = kept s := by rfl

@[simp] theorem updEngine_kept (s : State) (e : Nat) (f : Engine → Engine) : kept (updEngine s e f) = kept s := by rfl

@[simp] theorem updSch_kept (s : State) (f : SchUnit → SchUnit) (h : (f s.sch).passwd = s.sch.passwd) : kept (updSch s f) = kept s :=
  kept_of rfl rfl h rfl rfl rfl

@[simp] theorem updCore_kept (s : State) (c : Nat) (f : Core → Core) : kept (updCore s c f) = kept s := by rfl

@[simp] theorem updJob_kept (s : State) (j : Nat) (f : Job → Job) : kept (updJob s j f) = kept s := by rfl

@[simp] theorem updAcct_kept (s : State) (c : Nat) (f : CtxAcct → CtxAcct) : kept (updAcct s c f) = kept s := by rfl

@[simp] theorem updQwin_kept (s : State) (n : Nat) (f : QueWin → QueWin) : kept (updQwin s n f) = kept s := by rfl

@[simp] theorem updXwin_kept (s : State) (n : Nat) (f : XltWin → XltWin) : kept (updXwin s n f) = kept s := by rfl

@[simp] theorem updGwin_kept (s : State) (n : Nat) (f : GpeWin → GpeWin) : kept (updGwin s n f) = kept s := by rfl

@[simp] theorem updTwin_kept (s : State) (n : Nat) (f : TblWin → TblWin) : kept (updTwin s n f) = kept s := by rfl

@[simp] theorem updSwin_kept (s : State) (n : Nat) (f : SchWin → SchWin) : kept (updSwin s n f) = kept s := by rfl

@[simp] theorem updPwr_kept (s : State) (f : Power → Power) : kept (updPwr s f) = kept s := by rfl

@[simp] theorem updDom_kept (s : State) (d : Nat) (f : Domain → Domain) : kept (updDom s d f) = kept s := by rfl

@[simp] theorem updPwin_kept (s : State) (n : Nat) (f : PwrWin → PwrWin) : kept (updPwin s n f) = kept s := by rfl

@[simp] theorem updMbx_kept (s : State) (m : Nat) (f : Mailbox → Mailbox) : kept (updMbx s m f) = kept s := by rfl

@[simp] theorem updKey_kept (s : State) (f : KeyUnit → KeyUnit) : kept (updKey s f) = kept s := by rfl

@[simp] theorem updSlot_kept (s : State) (k : Nat) (f : KeySlot → KeySlot) : kept (updSlot s k f) = kept s := by rfl

@[simp] theorem updXch_kept (s : State) (x : Nat) (f : Exchange → Exchange) : kept (updXch s x f) = kept s := by rfl

@[simp] theorem updTrl_kept (s : State) (f : Trail → Trail) (h : (f s.trl).hb = s.trl.hb) : kept (updTrl s f) = kept s :=
  kept_of rfl rfl rfl rfl h rfl

@[simp] theorem updLs_kept (s : State) (n : Nat) (f : Lockstep → Lockstep) : kept (updLs s n f) = kept s := by rfl

@[simp] theorem updBar_kept (s : State) (n : Nat) (f : Barrier → Barrier) : kept (updBar s n f) = kept s := by rfl

@[simp] theorem updCc_kept (s : State) (f : CclkView → CclkView) : kept (updCc s f) = kept s := by rfl

@[simp] theorem openCclk_kept (s : State) : kept (openCclk s) = kept s := by
  unfold openCclk
  try dsimp only
  repeat' first
    | with_reducible rfl
    | (simp only [kept_record_err]; done)
    | split

@[simp] theorem keepStart_kept (s : State) (t : State) : kept (keepStart s t) = kept s := by simp [keepStart]

@[simp] theorem emit_kept (s : State) (o : Output) : kept (emit s o) = kept s := by rfl

@[simp] theorem heard_kept (s : State) (f : State → State) (hf : ∀ x0, kept (f x0) = kept x0) : kept (heard s f) = kept s := by
  unfold heard
  try dsimp only
  repeat' first
    | with_reducible rfl
    | (simp only [hf, kept_ite, ite_self]; done)
    | split

@[simp] theorem recordStatus_kept (s : State) (win : Option Nat) (q : Requester) (c : Code) : kept (recordStatus s win q c) =
    kept s := by
  unfold recordStatus
  try dsimp only
  repeat' first
    | with_reducible rfl
    | (simp only [updWin_kept, kept_record_err]; done)
    | split

@[simp] theorem recordRead_kept (s : State) (win : Option Nat) (c : Code) : kept (recordRead s win c) = kept s := by
  unfold recordRead
  try dsimp only
  repeat' first
    | with_reducible rfl
    | (simp only [updWin_kept, kept_record_err]; done)
    | split

@[simp] theorem msix_kept (s : State) (func : Nat) (vec : Nat) : kept (msix s func vec) = kept s := by rfl

@[simp] theorem clrEvent_kept (s : State) (n : Nat) : kept (clrEvent s n) = kept s := by simp [clrEvent]

/-! CalStore. -/

@[simp] theorem updMeas_kept (s : State) (n : Nat) (c : Nat) (f : ClassMeas → ClassMeas) : kept (updMeas s n c f) = kept s :=
  by rfl

@[simp] theorem pushStore_kept (s : State) (p : Nat) (r : MemReq) : kept (pushStore s p r) = kept s := by
  unfold pushStore
  try dsimp only
  repeat' first
    | with_reducible rfl
    | (simp only [updPch_kept, kept_ite, ite_self]; done)
    | split

@[simp] theorem countOutstanding_kept (s : State) (r : MemReq) (up : Bool) : kept (countOutstanding s r up) = kept s := by
  unfold countOutstanding
  try dsimp only
  repeat' first
    | with_reducible rfl
    | (simp only [updMeas_kept, kept_ite, ite_self]; done)
    | split

theorem enterStore_kept (s : State) (r : MemReq) : ∀ t, enterStore s r = some t → kept t = kept s := by
  intro t h
  unfold enterStore at h
  dsimp only at h
  split at h
  · cases h
  · cases h
    simp

/-! ErrorOps. -/

@[simp] theorem stageIn_kept (s : State) (k : Nat) (r : ErrRec) : kept (stageIn s k r) = kept s := by rfl

@[simp] theorem holdRec_kept (s : State) (r : ErrRec) : kept (holdRec s r) = kept s := by simp [holdRec]

@[simp] theorem raise_kept (s : State) (r : ErrRec) : kept (raise s r) = kept s := by
  unfold raise
  try dsimp only
  repeat' first
    | with_reducible rfl
    | (simp only [holdRec_kept, stageIn_kept, kept_ite]; done)
    | split

@[simp] theorem raiseWide_kept (s : State) (r : ErrRec) (affected : List Nat) : kept (raiseWide s r affected) = kept s :=
  by simp [raiseWide]

@[simp] theorem ringIssue_kept (s : State) (k : Nat) : kept (ringIssue s k) = kept s := by
  unfold ringIssue
  dsimp only
  split
  · split
    · rfl
    · split
      · rfl
      · next h => simpa using enterStore_kept _ _ _ h
  · rfl

@[simp] theorem ringIssueAll_kept (s : State) : kept (ringIssueAll s) = kept s := by simp [ringIssueAll]

@[simp] theorem ringCommit_kept (s : State) (k : Nat) : kept (ringCommit s k) = kept s := by
  unfold ringCommit
  try dsimp only
  repeat' first
    | with_reducible rfl
    | (simp only [updRing_kept, msix_kept, kept_ite, ite_self]; done)
    | split

@[simp] theorem emptyRing_kept (s : State) (n : Nat) : kept (emptyRing s n) = kept s := by rfl

/-! QueueBase. -/

@[simp] theorem disableDone_kept (s : State) (q : Nat) : kept (disableDone s q) = kept s := by
  unfold disableDone
  try dsimp only
  repeat' first
    | with_reducible rfl
    | (simp only [updQwin_kept]; done)
    | split

@[simp] theorem queueSettle_kept (s : State) (q : Nat) : kept (queueSettle s q) = kept s := by simp [queueSettle]

@[simp] theorem countLost_kept (s : State) (q : Nat) (k : Nat) : kept (countLost s q k) = kept s := by
  unfold countLost
  try dsimp only
  repeat' first
    | with_reducible rfl
    | (simp only [updQwin_kept]; done)
    | split

@[simp] theorem reachClosed_kept (s : State) (n : Nat) : kept (reachClosed s n) = kept s := by simp [reachClosed]

@[simp] theorem setClrState_kept (s : State) (n : Nat) (st : ClrState) : kept (setClrState s n st) = kept s :=
  by simp [setClrState]

@[simp] theorem quiesceCheck_kept (s : State) (n : Nat) : kept (quiesceCheck s n) = kept s := by simp [quiesceCheck]

@[simp] theorem measureTask_kept (s : State) (k : Task) (us : Nat) : kept (measureTask s k us) = kept s := by rfl

@[simp] theorem releaseTask_kept (s : State) (t : Nat) : kept (releaseTask s t) = kept s := by
  unfold releaseTask
  simp only [updQue_kept]
  rfl

@[simp] theorem envWritten_kept (s : State) (i : CplItem) : kept (envWritten s i) = kept s := by
  unfold envWritten
  try dsimp only
  repeat' first
    | with_reducible rfl
    | (simp only [updEnv_kept]; done)
    | split

@[simp] theorem endOf_kept (s : State) (i : CplItem) : kept (endOf s i) = kept s := by
  unfold endOf
  try dsimp only
  repeat' first
    | with_reducible rfl
    | (simp only [envWritten_kept, quiesceCheck_kept, releaseTask_kept, measureTask_kept, kept_ite, ite_self]; done)
    | split

@[simp] theorem addItem_kept (s : State) (q : Nat) (i : CplItem) : kept (addItem s q i) = kept s := by simp [addItem]

@[simp] theorem addLast_kept (s : State) (q : Nat) (i : CplItem) : kept (addLast s q i) = kept s := by simp [addLast]

@[simp] theorem returnDead_kept (s : State) (q : Nat) (ds : List (Code × Nat × Bool)) : kept (returnDead s q ds) = kept s :=
  by simp [returnDead]

@[simp] theorem queueInterrupt_kept (s : State) (q : Nat) : kept (queueInterrupt s q) = kept s := by
  unfold queueInterrupt
  try dsimp only
  repeat' first
    | with_reducible rfl
    | (simp only [updQueue_kept, msix_kept, kept_ite, ite_self]; done)
    | split

@[simp] theorem countInterrupt_kept (s : State) (q : Nat) (i : CplItem) : kept (countInterrupt s q i) = kept s :=
  by simp [countInterrupt]

@[simp] theorem itemWritten_kept (s : State) (q : Nat) (isAcct : Bool) : kept (itemWritten s q isAcct) = kept s := by
  unfold itemWritten
  try dsimp only
  repeat' first
    | with_reducible rfl
    | (simp only [updQueue_kept, updQwin_kept, queueSettle_kept, countInterrupt_kept, endOf_kept, kept_ite, ite_self]; done)
    | split

@[simp] theorem ringRec_kept (s : State) (code : Code) (q : Nat) (addr : Nat) : kept (ringRec s code q addr) = kept s :=
  by simp [ringRec]

@[simp] theorem stopWaiting_kept (s : State) (q : Nat) : kept (stopWaiting s q) = kept s := by rfl

@[simp] theorem cplFailed_kept (s : State) (q : Nat) (addr : Nat) : kept (cplFailed s q addr) = kept s := by
  unfold cplFailed
  dsimp only
  simp only [updQueue_kept, stopWaiting_kept, queueSettle_kept, ringRec_kept, countLost_kept, endOf_kept, forEach_kept', implies_true]

@[simp] theorem fetchFailed_kept (s : State) (q : Nat) (addr : Nat) : kept (fetchFailed s q addr) = kept s :=
  by simp [fetchFailed]

@[simp] theorem completeEnv_kept (s : State) (t : Nat) (e : Nat) (code : Code) (dead : Bool) (expired : Bool) : kept
    (completeEnv s t e code dead expired) = kept s := by
  unfold completeEnv
  try dsimp only
  repeat' first
    | with_reducible rfl
    | (simp only [updTask_kept, addItem_kept, kept_ite, ite_self]; done)
    | split

/-! Manifest. -/

@[simp] theorem beginIssue_kept (s : State) (n : Nat) : kept (beginIssue s n) = kept s := by rfl

@[simp] theorem issueManifest_kept (s : State) (n : Nat) : kept (issueManifest s n) = kept s := by simp [issueManifest]

@[simp] theorem degrade_kept (s : State) (n : Nat) : kept (degrade s n) = kept s := by rfl

@[simp] theorem issueAll_kept (s : State) : kept (issueAll s) = kept s := by simp [issueAll]

@[simp] theorem finishIssue_kept (s : State) (n : Nat) : kept (finishIssue s n) = kept s := by
  unfold finishIssue
  try dsimp only
  repeat' first
    | with_reducible rfl
    | (simp only [updClr_kept, clrEvent_kept, issueManifest_kept, kept_ite, kept_record_err, ite_self]; done)
    | split

/-! Calendar. -/

@[simp] theorem chargeHbm_kept (s : State) (r : MemReq) : kept (chargeHbm s r) = kept s := by
  unfold chargeHbm
  try dsimp only
  repeat' first
    | with_reducible rfl
    | (simp only [updAcct_kept]; done)
    | split

@[simp] theorem countHbm_kept (s : State) (r : MemReq) : kept (countHbm s r) = kept s := by
  unfold countHbm
  try dsimp only
  repeat' first
    | with_reducible rfl
    | (simp only [updTask_kept, updGwin_kept, kept_ite, ite_self]; done)
    | split

@[simp] theorem presentReq_kept (s : State) (p : Nat) (at' : Nat) (r : MemReq) : kept (presentReq s p at' r) = kept s :=
  by simp [presentReq]

@[simp] theorem zeroTaken_kept (s : State) (r : MemReq) : kept (zeroTaken s r) = kept s := by
  unfold zeroTaken
  try dsimp only
  repeat' first
    | with_reducible rfl
    | (simp only [updClr_kept]; done)
    | split

@[simp] theorem takeReq_kept (s : State) (p : Nat) (r : MemReq) : kept (takeReq s p r) = kept s := by simp [takeReq]

@[simp] theorem serveReq_kept (s : State) (p : Nat) (at' : Nat) (r : MemReq) : kept (serveReq s p at' r) = kept s :=
  by simp [serveReq]

@[simp] theorem serveElastic_kept (s : State) (w : PhaseWires) (p : Nat) (at' : Nat) (r : MemReq) : kept (serveElastic s w p
    at' r) = kept s := by
  unfold serveElastic
  try dsimp only
  repeat' first
    | with_reducible rfl
    | (simp only [updPch_kept, updClr_kept, updMeas_kept, serveReq_kept, kept_ite, ite_self]; done)
    | split

@[simp] theorem serveShared_kept (s : State) (w : PhaseWires) (p : Nat) (at' : Nat) : kept (serveShared s w p at') = kept s := by
  unfold serveShared
  try dsimp only
  repeat' first
    | with_reducible rfl
    | (simp only [serveReq_kept, serveElastic_kept]; done)
    | split

@[simp] theorem phaseFixed_kept (s : State) (w : PhaseWires) (p : Nat) (at' : Nat) (n : Nat) : kept (phaseFixed s w p at' n) =
    kept s := by
  unfold phaseFixed
  try dsimp only
  repeat' first
    | with_reducible rfl
    | (simp only [updPch_kept, serveReq_kept, serveShared_kept]; done)
    | split

@[simp] theorem phaseElastic_kept (s : State) (w : PhaseWires) (p : Nat) (at' : Nat) : kept (phaseElastic s w p at') = kept s
    := by
  unfold phaseElastic
  try dsimp only
  repeat' first
    | with_reducible rfl
    | (simp only [serveReq_kept, updPch_kept, serveShared_kept]; done)
    | split

@[simp] theorem presentMaint_kept (s : State) (p : Nat) (h : Nat) (op : Nat) : kept (presentMaint s p h op) = kept s := by rfl

@[simp] theorem phaseMaint_kept (s : State) (w : PhaseWires) (p : Nat) (ordinal : Nat) : kept (phaseMaint s w p ordinal) =
    kept s :=
  by simp [phaseMaint]

@[simp] theorem phaseHeld_kept (s : State) (p : Nat) (owner : Nat) : kept (phaseHeld s p owner) = kept s :=
  by simp [phaseHeld]

@[simp] theorem phaseOn_kept (w : PhaseWires) (j : Nat) (at' : Nat) (s : State) (p : Nat) : kept (phaseOn w j at' s p) = kept
    s :=
  by simp [phaseOn]

@[simp] theorem startupScrub_kept (s : State) (p : Nat) (at' : Nat) : kept (startupScrub s p at') = kept s := by
  unfold startupScrub
  try dsimp only
  repeat' first
    | with_reducible rfl
    | (simp only [presentReq_kept, kept_record_err]; done)
    | split

@[simp] theorem phaseStartup_kept (w : PhaseWires) (j : Nat) (at' : Nat) (s : State) (p : Nat) : kept (phaseStartup w j at' s
    p) = kept s := by
  unfold phaseStartup
  try dsimp only
  repeat' first
    | with_reducible rfl
    | (simp only [updPch_kept, phaseMaint_kept, serveReq_kept, startupScrub_kept, kept_ite, ite_self]; done)
    | split

@[simp] theorem scrubFill_kept : ∀ (n : Nat) (s : State), kept (scrubFill n s) = kept s
  | 0, _ => rfl
  | n + 1, s => by
    unfold scrubFill
    dsimp only
    split
    · rfl
    · split
      · rfl
      · split
        · rfl
        · next h =>
          rw [scrubFill_kept n, kept_record]
          exact enterStore_kept _ _ _ h

/-! AccBase. -/

@[simp] theorem newAcc_kept (s : State) (a : Acc) : kept (newAcc s a) = kept s := by rfl

@[simp] theorem readExtentFor_kept (s : State) (t : Nat) (e : Nat) (op : Nat) (addr : Nat) (len : Nat) : kept (readExtentFor s
    t e op addr len) = kept s := by
  unfold readExtentFor
  try dsimp only
  repeat' first
    | with_reducible rfl
    | (simp only [newAcc_kept, forEach_kept', implies_true]; done)
    | split

@[simp] theorem writeExtentFor_kept (s : State) (t : Nat) (e : Nat) (op : Nat) (addr : Nat) (bs : List Byte) : kept
    (writeExtentFor s t e op addr bs) = kept s := by
  unfold writeExtentFor
  try dsimp only
  repeat' first
    | with_reducible rfl
    | (simp only [newAcc_kept, forEach_kept', implies_true]; done)
    | split

@[simp] theorem dropUnissued_kept (s : State) (t : Nat) (e : Nat) : kept (dropUnissued s t e) = kept s := by rfl

@[simp] theorem gpeFault_kept (s : State) (k : Task) (v : EnvRun) (code : Code) (pos : Nat) : kept (gpeFault s k v code pos) =
    kept s :=
  by rfl

@[simp] theorem xltFault_kept (s : State) (k : Task) (v : EnvRun) (code : Code) (addr : Nat) : kept (xltFault s k v code addr)
    = kept s :=
  by simp [xltFault]

@[simp] theorem stopEnv_kept (s : State) (t : Nat) (e : Nat) (code : Code) (expired : Bool) : kept (stopEnv s t e code
    expired) = kept s :=
  by simp [stopEnv]

@[simp] theorem failEnv_kept (s : State) (t : Nat) (e : Nat) (code : Code) (pos : Nat) (addr : Nat) : kept (failEnv s t e code
    pos addr) = kept s := by
  unfold failEnv
  try dsimp only
  repeat' first
    | with_reducible rfl
    | (simp only [gpeFault_kept, xltFault_kept, stopEnv_kept, kept_ite, ite_self]; done)
    | split

@[simp] theorem countHost_kept (s : State) (a : Acc) (k : Nat) : kept (countHost s a k) = kept s := by
  unfold countHost
  try dsimp only
  repeat' first
    | with_reducible rfl
    | (simp only [updAcct_kept, updTask_kept]; done)
    | split

@[simp] theorem countRemote_kept (s : State) (ctx : Nat) (k : Nat) : kept (countRemote s ctx k) = kept s := by rfl

@[simp] theorem refusalRec_kept (s : State) (src : Nat) (unit : Nat) (addr : Nat) (why : Nat) (n : Nat) (ctx : Nat) (gen :
    Nat) (tag : Nat) (queue : Option Nat) : kept (refusalRec s src unit addr why n ctx gen tag queue) = kept s :=
  by simp [refusalRec]

@[simp] theorem bitsWritten_kept (s : State) (d : Nat) (g : Nat) : kept (bitsWritten s d g) = kept s := by simp [bitsWritten]

@[simp] theorem bitmapWrite_kept (s : State) (d : Nat) (g : Nat) (bs : List Byte) (a : Acc) : kept (bitmapWrite s d g bs a) =
    kept s := by
  unfold bitmapWrite
  dsimp only
  simp only [updTbl_kept, bitsWritten_kept, newAcc_kept, kept_ite, ite_self]

@[simp] theorem answerEnv_kept (s : State) (a : Acc) (t : Nat) (e : Nat) (r : AccRes) : kept (answerEnv s a t e r) = kept s := by
  unfold answerEnv
  try dsimp only
  repeat' first
    | with_reducible rfl
    | (simp only [updEnv_kept, bitsWritten_kept, failEnv_kept, refusalRec_kept, kept_ite, ite_self]; done)
    | split

@[simp] theorem dropClient_kept (s : State) (c : Client) : kept (dropClient s c) = kept s := by rfl

@[simp] theorem answerFetch_kept (s : State) (a : Acc) (q : Nat) (r : AccRes) : kept (answerFetch s a q r) = kept s := by
  unfold answerFetch
  try dsimp only
  repeat' first
    | with_reducible rfl
    | (simp only [updQueue_kept, fetchFailed_kept, dropClient_kept, refusalRec_kept]; done)
    | split

@[simp] theorem answerCpl_kept (s : State) (a : Acc) (q : Nat) (r : AccRes) : kept (answerCpl s a q r) = kept s := by
  unfold answerCpl
  try dsimp only
  repeat' first
    | with_reducible rfl
    | (simp only [itemWritten_kept, cplFailed_kept, refusalRec_kept]; done)
    | split

@[simp] theorem answerBitmap_kept (s : State) (a : Acc) (d : Nat) (r : AccRes) : kept (answerBitmap s a d r) = kept s := by
  unfold answerBitmap
  try dsimp only
  repeat' first
    | with_reducible rfl
    | (simp only [bitmapWrite_kept, bitsWritten_kept]; done)
    | split

@[simp] theorem answerAcct_kept (s : State) (n : Nat) (r : AccRes) : kept (answerAcct s n r) = kept s :=
  by simp [answerAcct]

@[simp] theorem answerAcc_kept (s : State) (id : Nat) (r : AccRes) : kept (answerAcc s id r) = kept s := by
  unfold answerAcc
  try dsimp only
  repeat' first
    | with_reducible rfl
    | (simp only [dropAcc_kept, answerEnv_kept, answerFetch_kept, answerCpl_kept, answerBitmap_kept, answerAcct_kept]; done)
    | split

/-! Xlt. -/

@[simp] theorem fillEntry_kept (s : State) (e : XltEntry) : kept (fillEntry s e) = kept s := by
  unfold fillEntry
  try dsimp only
  repeat' first
    | with_reducible rfl
    | (simp only [updXlt_kept, kept_ite]; done)
    | split

@[simp] theorem touchEntry_kept (s : State) (e : XltEntry) : kept (touchEntry s e) = kept s := by rfl

@[simp] theorem setHostOut_kept (s : State) (t : Nat) (o : Option HostOut) : kept (setHostOut s t o) = kept s := by rfl

@[simp] theorem freeHostOut_kept (s : State) (t : Nat) : kept (freeHostOut s t) = kept s := by rfl

theorem sendAts_kept {s : State} {f pasid page n c gen : Nat} {w : Bool} {x : Nat × State}
    (h : sendAts s f pasid page n c gen w = some x) : kept x.2 = kept s := by
  unfold sendAts at h
  dsimp only at h
  split at h
  · obtain ⟨t, -, rfl⟩ := Option.map_eq_some_iff.mp h
    simp
  · cases h

@[simp] theorem startMiss_kept (s : State) (id : Nat) (a : Acc) : kept (startMiss s id a) = kept s := by
  unfold startMiss
  dsimp only
  split
  · simp
  · split
    · rfl
    · next h => simpa using sendAts_kept h

@[simp] theorem translateAhead_kept (s : State) (n c addr : Nat) (write : Bool) : kept (translateAhead s n c addr write) = kept s := by
  unfold translateAhead
  dsimp only
  split
  · rfl
  · split
    · rfl
    · next h => exact sendAts_kept h

@[simp] theorem switchOut_kept (s : State) (a : Acc) : kept (switchOut s a) = kept s := by
  unfold switchOut
  try dsimp only
  repeat' first
    | with_reducible rfl
    | (simp only [updEnv_kept, updXwin_kept, xltFault_kept, kept_ite, ite_self]; done)
    | split

@[simp] theorem pageFault_kept (s : State) (id : Nat) (a : Acc) : kept (pageFault s id a) = kept s := by
  unfold pageFault
  try dsimp only
  repeat' first
    | with_reducible rfl
    | (simp only [answerAcc_kept, switchOut_kept, updAcc_kept, updXlt_kept, emit_kept, kept_ite]; done)
    | split

@[simp] theorem grantWaiters_kept (s : State) (t : Nat) (r : Bool) (w : Bool) (frame : Nat) : kept (grantWaiters s t r w
    frame) = kept s :=
  by simp [grantWaiters]

@[simp] theorem joinInvals_kept (was : State) (s : State) (t : Nat) (ids : List Nat) : kept (joinInvals was s t ids) = kept s
    :=
  by rfl

@[simp] theorem translated_kept (s : State) (t : Nat) (r : AtsReply) : kept (translated s t r) = kept s := by
  unfold translated
  try dsimp only
  repeat' first
    | with_reducible rfl
    | (simp only [freeHostOut_kept, answerAcc_kept, updXlt_kept, joinInvals_kept, updAcc_kept, fillEntry_kept,
       grantWaiters_kept, kept_ite, ite_self, forEach_kept', implies_true]; done)
    | split

@[simp] theorem translationDone_kept (s : State) (t : Nat) (r : AtsReply) : kept (translationDone s t r) = kept s :=
  by simp [translationDone]

@[simp] theorem fillsTurn_kept (s : State) : kept (fillsTurn s) = kept s :=
  by simp [fillsTurn]

@[simp] theorem switchIn_kept (s : State) (a : Acc) : kept (switchIn s a) = kept s := by
  unfold switchIn
  try dsimp only
  repeat' first
    | with_reducible rfl
    | (simp only [updEnv_kept, newAcc_kept, kept_ite, ite_self, forEach_kept', implies_true]; done)
    | split

@[simp] theorem prgAnswer_kept (s : State) (f : Nat) (pasid : Nat) (i : Nat) (code : Nat) : kept (prgAnswer s f pasid i code)
    = kept s := by
  unfold prgAnswer
  try dsimp only
  repeat' first
    | with_reducible rfl
    | (simp only [updXlt_kept, switchIn_kept, updAcc_kept, answerAcc_kept, kept_ite, ite_self,
       forEach_kept', implies_true]; done)
    | split

@[simp] theorem prgTimeout_kept (s : State) (f : Nat) (i : Nat) : kept (prgTimeout s f i) = kept s := by
  unfold prgTimeout
  try dsimp only
  repeat' first
    | with_reducible rfl
    | (simp only [updXlt_kept, answerAcc_kept, kept_ite, ite_self, forEach_kept', implies_true]; done)
    | split

@[simp] theorem invalCompletion_kept (s : State) (f : Nat) (itag : Nat) : kept (invalCompletion s f itag) = kept s := by rfl

@[simp] theorem atsInvalidate_kept (s : State) (f : Nat) (pasid : Option Nat) (itag : Nat) : kept (atsInvalidate s f pasid
    itag) = kept s := by
  unfold atsInvalidate
  dsimp only
  simp only [invalCompletion_kept, updXlt_kept, kept_ite, kept_record_err, ite_self]

@[simp] theorem invalDrained_kept (s : State) (f : Nat) (itag : Nat) : kept (invalDrained s f itag) = kept s := by
  unfold invalDrained
  try dsimp only
  repeat' first
    | with_reducible rfl
    | (simp only [invalCompletion_kept, updXlt_kept, kept_ite, ite_self]; done)
    | split

@[simp] theorem restartAccs_kept (s : State) (f : Nat) (pasid : Option Nat) : kept (restartAccs s f pasid) = kept s :=
  by simp [restartAccs]

@[simp] theorem xltCtxLeft_kept (s : State) (c : Nat) : kept (xltCtxLeft s c) = kept s := by
  unfold xltCtxLeft
  try dsimp only
  repeat' first
    | with_reducible rfl
    | (simp only [restartAccs_kept, updXlt_kept, kept_ite, ite_self]; done)
    | split

@[simp] theorem xltFuncReset_kept (s : State) (f : Nat) : kept (xltFuncReset s f) = kept s := by simp [xltFuncReset]

@[simp] theorem hostReadDone_kept (s : State) (t : Nat) (st : HostStatus) (data : List Byte) : kept (hostReadDone s t st data)
    = kept s := by
  unfold hostReadDone
  try dsimp only
  repeat' first
    | with_reducible rfl
    | (simp only [freeHostOut_kept, answerAcc_kept, countHost_kept]; done)
    | split

/-! LockBase. -/

@[simp] theorem foldGranule_kept (s : State) (n : Nat) (pin : Nat) (a : Nat) (data : List Byte) (be : BitVec 256) : kept
    (foldGranule s n pin a data be) = kept s :=
  by simp [foldGranule]

@[simp] theorem unfoldGranule_kept (s : State) (n : Nat) (pin : Nat) (a : Nat) (data : List Byte) (be : BitVec 256) : kept
    (unfoldGranule s n pin a data be) = kept s :=
  by simp [unfoldGranule]

@[simp] theorem foldRun_kept (s : State) (n : Nat) (pin : Nat) (a : Nat) (bs : List Byte) : kept (foldRun s n pin a bs) = kept
    s :=
  by simp [foldRun]

/-! Access. -/

@[simp] theorem markPace_kept (s : State) (a : Acc) : kept (markPace s a) = kept s := by
  unfold markPace
  try dsimp only
  repeat' first
    | with_reducible rfl
    | (simp only [updEngine_kept]; done)
    | split

@[simp] theorem foldAcc_kept (was : State) (a : Acc) : kept (foldAcc was a) = kept was := by
  unfold foldAcc
  try dsimp only
  repeat' first
    | with_reducible rfl
    | (simp only [markPace_kept, foldGranule_kept, foldRun_kept]; done)
    | split

@[simp] theorem issuePlot_kept (s : State) (id : Nat) (a : Acc) (p : Nat) : kept (issuePlot s id a p) = kept s := by
  unfold issuePlot
  try dsimp only
  repeat' first
    | with_reducible rfl
    | (simp only [answerAcc_kept, foldAcc_kept, updAcc_kept, kept_ite]; done)
    | with_reducible refine (forEach_kept' _ _ _ fun _ _ => ?_).trans ?_
    | (simp only [answerAcc_kept, foldAcc_kept, updAcc_kept, kept_ite]; with_reducible refine (forEach_kept' _ _ _ fun _ _ => ?_).trans ?_)
    | (simp only [answerAcc_kept, foldAcc_kept, updAcc_kept, kept_ite]; exact enterStore_kept _ _ _ (by assumption))
    | exact enterStore_kept _ _ _ (by assumption)
    | (simp only [answerAcc_kept, kept_ite]; split)
    | split
    | (refine kept_of ?_ ?_ ?_ ?_ ?_ ?_ <;> first
        | with_reducible rfl
        | (simp [*, in_kept_prito, in_kept_hold, in_kept_passwd, in_kept_fenceTo, in_kept_hb, in_kept_pending]; done))

@[simp] theorem issueBus_kept (s : State) (id : Nat) (a : Acc) (f : Nat) (at' : Nat) (bus : Nat) : kept (issueBus s id a f at'
    bus) = kept s := by
  unfold issueBus
  try dsimp only
  repeat' first
    | with_reducible rfl
    | (simp only [answerAcc_kept, emit_kept, countHost_kept, foldAcc_kept, setHostOut_kept, updXlt_kept, updAcc_kept, kept_ite,
       ite_self]; done)
    | split

@[simp] theorem issueHost_kept (s : State) (id : Nat) (a : Acc) (va : Nat) : kept (issueHost s id a va) = kept s := by
  unfold issueHost
  try dsimp only
  repeat' first
    | with_reducible rfl
    | (simp only [answerAcc_kept, issueBus_kept, touchEntry_kept, startMiss_kept, kept_ite, ite_self]; done)
    | split

@[simp] theorem setFabOut_kept (s : State) (t : Nat) (o : Option FabOut) : kept (setFabOut s t o) = kept s := by rfl

@[simp] theorem issueFab_kept (s : State) (id : Nat) (a : Acc) (chip : Nat) (addr : Nat) : kept (issueFab s id a chip addr) =
    kept s := by
  unfold issueFab
  try dsimp only
  repeat' first
    | with_reducible rfl
    | (simp only [answerAcc_kept, setFabOut_kept, countRemote_kept, foldAcc_kept, emit_kept, updAcc_kept, kept_ite, ite_self]; done)
    | split

@[simp] theorem issueRecord_kept (s : State) (t : Nat) (e : Nat) : kept (issueRecord s t e) = kept s := by
  unfold issueRecord
  try dsimp only
  repeat' first
    | with_reducible rfl
    | (simp only [answerAcc_kept, issuePlot_kept, kept_ite, ite_self, forEach_kept', implies_true]; done)
    | split

@[simp] theorem issueOne_kept (s : State) (id : Nat) (a : Acc) : kept (issueOne s id a) = kept s := by
  unfold issueOne
  try dsimp only
  repeat' first
    | with_reducible rfl
    | (simp only [issuePlot_kept, issueHost_kept, issueFab_kept, answerAcc_kept, pageFault_kept]; done)
    | split

@[simp] theorem issueAcc_kept (s : State) (id : Nat) : kept (issueAcc s id) = kept s := by
  unfold issueAcc
  try dsimp only
  repeat' first
    | with_reducible rfl
    | (simp only [issueRecord_kept, issueOne_kept, kept_ite, ite_self]; done)
    | split

@[simp] theorem issueAccs_kept (s : State) : kept (issueAccs s) = kept s := by simp [issueAccs]

@[simp] theorem accMemory_kept (s : State) (id : Nat) (write : Bool) (bad : Bool) (granule : List Byte) : kept (accMemory s id
    write bad granule) = kept s := by
  unfold accMemory
  try dsimp only
  repeat' first
    | with_reducible rfl
    | (simp only [answerAcc_kept, kept_ite, ite_self]; done)
    | split

@[simp] theorem accFabric_kept (s : State) (id : Nat) (status : Nat) (granule : List Byte) : kept (accFabric s id status
    granule) = kept s := by
  unfold accFabric
  try dsimp only
  repeat' first
    | with_reducible rfl
    | (simp only [countRemote_kept, answerAcc_kept, kept_ite, ite_self]; done)
    | split

theorem execHostReadCompletion_kept (tag : Nat) (st : HostStatus) (data : List Byte) (s : State) : ∃ out,
    execHostReadCompletion tag st data s = .next out ∧ kept out = kept s :=
  ⟨_, rfl, by simp⟩

theorem execTranslationCompletion_kept (tag : Nat) (r : AtsReply) (s : State) : ∃ out, execTranslationCompletion tag r s =
    .next out ∧ kept out = kept s :=
  ⟨_, rfl, by simp⟩

theorem execAtsInvalidate_kept (func : Nat) (pasid : Option Nat) (itag : Nat) (s : State) : ∃ out, execAtsInvalidate func
    pasid itag s = .next out ∧ kept out = kept s :=
  ⟨_, rfl, by simp⟩

theorem execInvalidateDrained_kept (func : Nat) (itag : Nat) (s : State) : ∃ out, execInvalidateDrained func itag s = .next
    out ∧ kept out = kept s :=
  ⟨_, rfl, by simp⟩

theorem execPrgResponse_kept (func : Nat) (pasid : Nat) (index : Nat) (code : Nat) (s : State) : ∃ out, execPrgResponse func
    pasid index code s = .next out ∧ kept out = kept s :=
  ⟨_, rfl, by simp⟩

theorem execPageRequestTimeout_kept (func : Nat) (index : Nat) (s : State) : ∃ out, execPageRequestTimeout func index s =
    .next out ∧ kept out = kept s :=
  ⟨_, rfl, by simp⟩

theorem execPageRequestInterfaceReset_kept (func : Nat) (s : State) : ∃ out, execPageRequestInterfaceReset func s = .next out
    ∧ kept out = kept s :=
  ⟨_, rfl, by simp⟩

/-! Operands. -/

@[simp] theorem checked_kept (cs : List (Bool × Code)) (s : State) (effect : Unit → State) (h : kept (effect ()) = kept s) :
    kept (checked cs s effect).2 = kept s := by
  unfold checked
  split
  · rfl
  · exact h

@[simp] theorem globalCmd_kept (q : Requester) (s : State) (body : State → Checked) (h : kept (body s).2 = kept s) :
    kept (globalCmd q s body) = kept s := by
  unfold globalCmd
  (repeat' split) <;> simp [h]

@[simp] theorem windowCmd_kept (q : Requester) (n : Nat) (s : State) (body : State → Checked) (h : kept (body s).2 = kept s) :
    kept (windowCmd q n s body) = kept s := by
  unfold windowCmd
  (repeat' split) <;> simp [h]

@[simp] theorem anyWindowCmd_kept (q : Requester) (n : Option Nat) (s : State) (body : State → Checked) (h : kept (body s).2 = kept s) :
    kept (anyWindowCmd q n s body) = kept s := by
  unfold anyWindowCmd
  (repeat' split) <;> simp [h]

end Sys2Proof.Machine
end

