-- ==== Sys2Proof/Laws/KeptWork.lean ====
section
/-! SUPPORT. What each operation leaves of the bounded registers and of the queue of commands: the calendar, queues, envelopes, jobs, transfers and keys. -/

namespace Sys2Proof.Machine

set_option Elab.async false
set_option linter.unusedTactic false
set_option linter.unreachableTactic false

/-! RemapOps. -/

@[simp] theorem lateCause_kept (s : State) (b : Nat) : kept (lateCause s b) = kept s := by simp [lateCause]

@[simp] theorem heldNow_kept (s : State) (p : Nat) : kept (heldNow s p) = kept s :=
  by simp [heldNow]

@[simp] theorem killInflight_kept (s : State) (h : Nat) : kept (killInflight s h) = kept s := by simp [killInflight]

@[simp] theorem reinsert_kept (s : State) (p : Nat) (r : MemReq) : kept (reinsert s p r) = kept s := by
  unfold reinsert
  try dsimp only
  repeat' first
    | with_reducible rfl
    | (simp only [updPch_kept, kept_ite, ite_self]; done)
    | split

@[simp] theorem remapRec_kept (s : State) (h : Nat) (g : Nat) (cause : Nat) (done : Nat) : kept (remapRec s h g cause done) =
    kept s :=
  by simp [remapRec]

@[simp] theorem degradeAll_kept (s : State) : kept (degradeAll s) = kept s := by simp [degradeAll]

@[simp] theorem overcommitNow_kept (s : State) : kept (overcommitNow s) = kept s := by simp [overcommitNow]

@[simp] theorem afterRemap_kept (s : State) : kept (afterRemap s) = kept s := by simp [afterRemap]

@[simp] theorem cutMargin_kept (s : State) (p : Nat) : kept (cutMargin s p) = kept s := by simp [cutMargin]

@[simp] theorem beginRemap_kept (s : State) (h : Nat) (g : Nat) (cause : Nat) : kept (beginRemap s h g cause) = kept s := by
  unfold beginRemap
  dsimp only
  simp only [cutMargin_kept, killInflight_kept, updPch_kept, reinsert_kept, afterRemap_kept, degradeAll_kept, remapRec_kept,
    forEach_kept', implies_true]

@[simp] theorem markDeviceFault_kept (s : State) (c : Code) : kept (markDeviceFault s c) = kept s := by
  unfold markDeviceFault
  rw [raiseWide_kept]
  exact kept_of rfl rfl rfl rfl rfl rfl

@[simp] theorem triggerDump_kept (s : State) (c : Code) : kept (triggerDump s c) = kept s := by simp [triggerDump]

@[simp] theorem unhost_kept (s : State) (h : Nat) (g : Nat) : kept (unhost s h g) = kept s := by
  unfold unhost
  dsimp only
  simp only [updPch_kept]

@[simp] theorem makeUnreachable_kept (s : State) (p : Nat) (cause : Nat) : kept (makeUnreachable s p cause) = kept s :=
  by simp [makeUnreachable]

@[simp] theorem countHold_kept (s : State) (p : Nat) : kept (countHold s p) = kept s := by simp [countHold]

@[simp] theorem failPch_kept (s : State) (p : Nat) (cause : Nat) : kept (failPch s p cause) = kept s := by simp [failPch]

@[simp] theorem remapByRanger_kept (s : State) (p : Nat) : kept (remapByRanger s p) = kept s := by simp [remapByRanger]

@[simp] theorem dropFrom_kept (s : State) (g : Nat) (r : MemReq) : kept (dropFrom s g r) = kept s := by simp [dropFrom]

@[simp] theorem moveHome_kept (s : State) (h : Nat) (g : Nat) : kept (moveHome s h g) = kept s := by
  unfold moveHome
  try dsimp only
  repeat' first
    | with_reducible rfl
    | (simp only [reinsert_kept, dropFrom_kept]; done)
    | with_reducible refine (forEach_kept' _ _ _ fun _ _ => ?_).trans ?_
    | split

@[simp] theorem endRemap_kept (s : State) (h : Nat) : kept (endRemap s h) = kept s := by simp [endRemap]

@[simp] theorem guestBoundary_kept (s : State) : kept (guestBoundary s) = kept s := by
  unfold guestBoundary
  try dsimp only
  repeat' first
    | with_reducible rfl
    | (simp only [updCal_kept, remapByRanger_kept, endRemap_kept, kept_ite, ite_self]; done)
    | split

@[simp] theorem drainRestored_kept (s : State) : kept (drainRestored s) = kept s := by simp [drainRestored]

@[simp] theorem guestCommand_kept (q : Requester) (w : Word) (s : State) : kept (guestCommand q w s) = kept s := by
  unfold guestCommand
  refine globalCmd_kept q s _ ?_
  dsimp only
  split
  · exact checked_kept _ _ _ (updCal_kept s _)
  · exact updCal_kept s _

@[simp] theorem marginCommand_kept (q : Requester) (w : Word) (s : State) : kept (marginCommand q w s) = kept s := by
  unfold marginCommand
  dsimp only
  simp only [globalCmd_kept, checked_kept, emit_kept, updCal_kept]

/-! CalendarCmds. -/

@[simp] theorem ibWires_kept (s : State) (held : List Nat) : kept (ibWires s held) = kept s := by simp [ibWires]

@[simp] theorem pchFails_kept (s : State) (p : Nat) (cause : Nat) : kept (pchFails s p cause) = kept s := by simp [pchFails]

@[simp] theorem holdLimits_kept (s : State) : kept (holdLimits s) = kept s := by simp [holdLimits]

@[simp] theorem calendarPhase_kept (w : PhaseWires) (s : State) : kept (calendarPhase w s) = kept s := by
  unfold calendarPhase
  dsimp only
  split
  · split
    · rw [kept_record, drainRestored_kept, scrubFill_kept, holdLimits_kept]
      exact (forEach_kept' _ _ _ fun t p => phaseOn_kept _ _ _ t p).trans (ibWires_kept _ _)
    · rfl
  · split
    · split
      · rw [kept_record, holdLimits_kept]
        exact forEach_kept' _ _ _ fun t p => phaseStartup_kept _ _ _ t p
      · rfl
    · rfl

theorem execCalendarPhase_kept (wires : PhaseWires) (s : State) : ∃ out, execCalendarPhase wires s = .next out ∧ kept out =
    kept s :=
  ⟨_, rfl, by simp⟩

@[simp] theorem standingCauses_kept (s : State) : kept (standingCauses s) = kept s := by simp [standingCauses]

@[simp] theorem markHeld_kept (s : State) (p : Nat) : kept (markHeld s p) = kept s := by simp [markHeld]

@[simp] theorem holdBegin_kept (s : State) (p : Nat) : kept (holdBegin s p) = kept s := by
  unfold holdBegin
  dsimp only
  simp only [updPch_kept, markHeld_kept, lateCause_kept, pchFails_kept, kept_ite, ite_self]

theorem execHoldBegin_kept (p : Nat) (s : State) : ∃ out, execHoldBegin p s = .next out ∧ kept out = kept s :=
  ⟨_, rfl, by simp⟩

@[simp] theorem holdEnd_kept (s : State) (p : Nat) : kept (holdEnd s p) = kept s := by simp [holdEnd]

theorem execHoldEnd_kept (p : Nat) (s : State) : ∃ out, execHoldEnd p s = .next out ∧ kept out = kept s := ⟨_, rfl, by simp⟩

theorem execHoldLimit_kept (p : Nat) (s : State) : ∃ out, execHoldLimit p s = .next out ∧ kept out = kept s :=
  ⟨_, rfl, by simp⟩

@[simp] theorem pchFailLevel_kept (s : State) (p : Nat) (level : Bool) : kept (pchFailLevel s p level) = kept s :=
  by simp [pchFailLevel]

theorem execPchFail_kept (p : Nat) (level : Bool) (s : State) : ∃ out, execPchFail p level s = .next out ∧ kept out = kept s
    :=
  ⟨_, rfl, by simp⟩

theorem execRemap_kept (q : Requester) (w : Word) (s : State) : ∃ out, execRemap q w s = .next out ∧ kept out = kept s :=
  ⟨_, rfl, by simp⟩

theorem execRestore_kept (q : Requester) (w : Word) (s : State) : ∃ out, execRestore q w s = .next out ∧ kept out = kept s :=
  ⟨_, rfl, by simp⟩

theorem execMarginingRequest_kept (q : Requester) (w : Word) (s : State) : ∃ out, execMarginingRequest q w s = .next out ∧
    kept out = kept s :=
  ⟨_, rfl, by simp⟩

@[simp] theorem marginResponse_kept (s : State) (stack : Nat) (rsp : BitVec 32) : kept (marginResponse s stack rsp) = kept s
    :=
  by simp [marginResponse]

theorem execMarginingResponse_kept (stack : Nat) (rsp : BitVec 32) (s : State) : ∃ out, execMarginingResponse stack rsp s =
    .next out ∧ kept out = kept s :=
  ⟨_, rfl, by simp⟩

@[simp] theorem acceptTun_kept (s : State) (n : Nat) (t : Tunables) : kept (acceptTun s n t) = kept s := by rfl

@[simp] theorem elaClass_kept (q : Requester) (n : Nat) (c : Nat) (w : Word) (s : State) : kept (elaClass q n c w s) = kept s
    := by
  unfold elaClass
  dsimp only
  simp only [globalCmd_kept, checked_kept, acceptTun_kept]

theorem execElaClassWrite_kept (q : Requester) (n : Nat) (c : Nat) (w : Word) (s : State) : ∃ out, execElaClassWrite q n c w s
    = .next out ∧ kept out = kept s :=
  ⟨_, rfl, by simp⟩

@[simp] theorem elaCtrl_kept (q : Requester) (n : Nat) (w : Word) (s : State) : kept (elaCtrl q n w s) = kept s := by
  unfold elaCtrl
  dsimp only
  simp only [globalCmd_kept, checked_kept, acceptTun_kept]

theorem execElaCtrlWrite_kept (q : Requester) (n : Nat) (w : Word) (s : State) : ∃ out, execElaCtrlWrite q n w s = .next out ∧
    kept out = kept s :=
  ⟨_, rfl, by simp⟩

@[simp] theorem driveUrgency_kept (s : State) : kept (driveUrgency s) = kept s := by simp [driveUrgency]

@[simp] theorem resetTun_kept (s : State) (n : Nat) : kept (resetTun s n) = kept s := by rfl

@[simp] theorem resetMeas_kept (s : State) (n : Nat) : kept (resetMeas s n) = kept s := by simp [resetMeas]

@[simp] theorem tunBoundary_kept (s : State) (n : Nat) : kept (tunBoundary s n).1 = kept s := by
  unfold tunBoundary
  try dsimp only
  repeat' first
    | with_reducible rfl
    | (simp only [updClr_kept]; done)
    | split

/-! QueueOps. -/

@[simp] theorem pushOwn_kept (s : State) (r : MemReq) : kept (pushOwn s r) = kept s := by rfl

@[simp] theorem issueOwn_kept (s : State) : kept (issueOwn s) = kept s := by
  unfold issueOwn
  refine forEach_kept' _ _ _ fun s r => ?_
  split
  · rfl
  · split
    · split
      · rfl
      · next h => exact (updQue_kept _ _).trans (enterStore_kept _ _ _ h)
    · rfl

@[simp] theorem touchQueue_kept (s : State) (q : Nat) : kept (touchQueue s q) = kept s := by rfl

@[simp] theorem pushPending_kept (s : State) (q : Nat) : kept (pushPending s q) = kept s := by simp [pushPending]

@[simp] theorem fifoPut_kept (s : State) (q : Nat) (w : Word) : kept (fifoPut s q w) = kept s := by
  unfold fifoPut
  dsimp only
  simp only [updQue_kept, pushOwn_kept, pushPending_kept, updQueue_kept, kept_ite, ite_self]

@[simp] theorem descArrived_kept (s : State) (q : Nat) : kept (descArrived s q) = kept s := by simp [descArrived]

@[simp] theorem evict_kept (s : State) (q : Nat) : kept (evict s q) = kept s := by
  unfold evict
  dsimp only
  simp only [updQue_kept, updQueue_kept, dropClient_kept, pushOwn_kept, fifoPut_kept, kept_ite, ite_self]

theorem enterCache_kept (s : State) (q : Nat) : ∀ t, enterCache s q = some t → kept t = kept s := by
  intro t h
  unfold enterCache at h
  split at h
  · cases h; simp
  · split at h
    · cases h
    · split at h
      · cases h; simp
      · obtain ⟨v, -, rfl⟩ := Option.map_eq_some_iff.mp h
        simp

@[simp] theorem dbRefuse_kept (s : State) (q : Nat) (c : Code) : kept (dbRefuse s q c) = kept s := by
  unfold dbRefuse
  try dsimp only
  repeat' first
    | with_reducible rfl
    | (simp only [updQwin_kept]; done)
    | split

@[simp] theorem dbApply_kept (s : State) (q : Nat) (w : Word) : kept (dbApply s q w) = kept s := by
  unfold dbApply
  dsimp only
  simp only [dbRefuse_kept, updQueue_kept, kept_ite, ite_self]

@[simp] theorem unspillAll_kept (s : State) : kept (unspillAll s) = kept s := by simp [unspillAll]

@[simp] theorem ringAhead_kept (s : State) (q : Nat) : kept (ringAhead s q) = kept s := by
  unfold ringAhead
  try dsimp only
  repeat' first
    | with_reducible rfl
    | (simp only [translateAhead_kept]; done)
    | split

@[simp] theorem doorbellApply_kept (s : State) (q : Nat) : kept (doorbellApply s q) = kept s := by
  unfold doorbellApply
  split
  · rfl
  · split
    · rfl
    · split
      · rfl
      · next h => simpa using enterCache_kept _ _ _ h

theorem execDoorbellApply_kept (queue : Nat) (s : State) : ∃ out, execDoorbellApply queue s = .next out ∧ kept out = kept s :=
  ⟨_, rfl, by simp⟩

@[simp] theorem doorbellWrite_kept (rq : Requester) (p : Nat) (d : Nat) (w : Word) (s : State) : kept (doorbellWrite rq p d w
    s) = kept s := by
  unfold doorbellWrite
  try dsimp only
  repeat' first
    | with_reducible rfl
    | (simp only [recordStatus_kept, dbApply_kept, touchQueue_kept, updQue_kept, fifoPut_kept, kept_ite, ite_self]; done)
    | split

@[simp] theorem refuseHead_kept (s : State) (q : Nat) (codes : List Code) : kept (refuseHead s q codes) = kept s :=
  by simp [refuseHead]

@[simp] theorem fetchStart_kept (s : State) (q : Nat) : kept (fetchStart s q) = kept s := by
  unfold fetchStart
  try dsimp only
  repeat' first
    | with_reducible rfl
    | (simp only [updQueue_kept, newAcc_kept, kept_ite, ite_self, forEach_kept', implies_true]; done)
    | split

@[simp] theorem oversizeHead_kept (s : State) (q : Nat) : kept (oversizeHead s q) = kept s := by
  unfold oversizeHead
  try dsimp only
  repeat' first
    | with_reducible rfl
    | (simp only [refuseHead_kept, kept_ite, ite_self]; done)
    | split

@[simp] theorem fetchArrive_kept (s : State) (q : Nat) (r : HostRead) : kept (fetchArrive s q r) = kept s := by
  unfold fetchArrive
  try dsimp only
  repeat' first
    | with_reducible rfl
    | (simp only [fetchFailed_kept, dropClient_kept, updQueue_kept, oversizeHead_kept]; done)
    | split

theorem execEnvelopeFetch_kept (queue : Nat) (r : HostRead) (s : State) : ∃ out, execEnvelopeFetch queue r s = .next out ∧
    kept out = kept s :=
  ⟨_, rfl, by simp⟩

@[simp] theorem fetchSettle_kept (s : State) (q : Nat) : kept (fetchSettle s q) = kept s := by simp [fetchSettle]

@[simp] theorem cplStart_kept (s : State) (q : Nat) : kept (cplStart s q) = kept s := by
  unfold cplStart
  try dsimp only
  repeat' first
    | with_reducible rfl
    | (simp only [updQueue_kept, newAcc_kept, kept_ite, ite_self]; done)
    | split

@[simp] theorem queuesTurn_kept (s : State) : kept (queuesTurn s) = kept s := by simp [queuesTurn]

@[simp] theorem configQueue_kept (s : State) (n : Nat) (q : Nat) : kept (configQueue s n q) = kept s := by
  unfold configQueue
  dsimp only
  simp only [updQueue_kept]

@[simp] theorem enableQueue_kept (s : State) (q : Nat) : kept (enableQueue s q) = kept s := by simp [enableQueue]

@[simp] theorem disableQueue_kept (s : State) (q : Nat) : kept (disableQueue s q) = kept s := by simp [disableQueue]

@[simp] theorem queCommand_kept (rq : Requester) (n : Nat) (w : Word) (s : State) : kept (queCommand rq n w s) = kept s := by
  unfold queCommand
  try dsimp only
  repeat' first
    | with_reducible rfl
    | (simp only [windowCmd_kept, checked_kept, configQueue_kept, enableQueue_kept, disableQueue_kept, updQwin_kept]; done)
    | split

theorem execQueConfig_kept (q : Requester) (n : Nat) (w : Word) (s : State) : ∃ out, execQueConfig q n w s = .next out ∧ kept
    out = kept s :=
  ⟨_, rfl, by simp⟩

theorem execQueEnable_kept (q : Requester) (n : Nat) (w : Word) (s : State) : ∃ out, execQueEnable q n w s = .next out ∧ kept
    out = kept s :=
  ⟨_, rfl, by simp⟩

theorem execQueDisable_kept (q : Requester) (n : Nat) (w : Word) (s : State) : ∃ out, execQueDisable q n w s = .next out ∧
    kept out = kept s :=
  ⟨_, rfl, by simp⟩

theorem execQueRead_kept (q : Requester) (n : Nat) (w : Word) (s : State) : ∃ out, execQueRead q n w s = .next out ∧ kept out
    = kept s :=
  ⟨_, rfl, by simp⟩

@[simp] theorem stmQuota_kept (q : Requester) (n : Nat) (w : Word) (s : State) : kept (stmQuota q n w s) = kept s :=
  by simp [stmQuota]

theorem execStmQuotaWrite_kept (q : Requester) (n : Nat) (w : Word) (s : State) : ∃ out, execStmQuotaWrite q n w s = .next out
    ∧ kept out = kept s :=
  ⟨_, rfl, by simp⟩

theorem execCoalesceTimeout_kept (queue : Nat) (s : State) : ∃ out, execCoalesceTimeout queue s = .next out ∧ kept out = kept
    s :=
  ⟨_, rfl, by simp⟩

@[simp] theorem admitBatch_kept (s : State) (q : Nat) (n : Nat) (bs : List (List Byte)) : kept (admitBatch s q n bs) = kept s
    := by
  unfold admitBatch
  dsimp only
  simp only [updQueue_kept, stopWaiting_kept, updQwin_kept, updQue_kept, kept_record_err, forEach_kept', implies_true]

@[simp] theorem refuseBatch_kept (s : State) (q : Nat) (n : Nat) (bs : List (List Byte)) (c : Code) (i : Nat) : kept
    (refuseBatch s q n bs c i) = kept s :=
  by simp [refuseBatch]

@[simp] theorem waitBatch_kept (s : State) (q : Nat) (n : Nat) (bs : List (List Byte)) : kept (waitBatch s q n bs) = kept s :=
  by simp [waitBatch]

@[simp] theorem batchAdmit_kept (s : State) (q : Nat) : kept (batchAdmit s q) = kept s := by
  unfold batchAdmit
  try dsimp only
  repeat' first
    | with_reducible rfl
    | (simp only [oversizeHead_kept, refuseBatch_kept, waitBatch_kept, admitBatch_kept, kept_ite, ite_self]; done)
    | split

theorem execBatchAdmit_kept (queue : Nat) (s : State) : ∃ out, execBatchAdmit queue s = .next out ∧ kept out = kept s :=
  ⟨_, rfl, by simp⟩

/-! Tables. -/

@[simp] theorem addChg_kept (s : State) (d : Nat) (r : Nat) (v : Bool) (n : Nat) : kept (addChg s d r v n) = kept s := by rfl

@[simp] theorem dropPending_kept (s : State) (d : Nat) : kept (dropPending s d) = kept s := by simp [dropPending]

@[simp] theorem discardPending_kept (s : State) (d : Nat) : kept (discardPending s d) = kept s := by
  unfold discardPending
  try dsimp only
  repeat' first
    | with_reducible rfl
    | (simp only [dropPending_kept, updTwin_kept]; done)
    | split

@[simp] theorem abortRefresh_kept (s : State) (d : Nat) : kept (abortRefresh s d) = kept s := by simp [abortRefresh]

@[simp] theorem poisonEvent_kept (s : State) (x : ErrRec → ErrRec) (d : Nat) (r : Nat) (v : Bool) (full : Bool) : kept
    (poisonEvent s x d r v full) = kept s :=
  by simp [poisonEvent]

@[simp] theorem addPoison_kept (s : State) (x : ErrRec → ErrRec) (d : Nat) (r : Nat) (v : Bool) : kept (addPoison s x d r v) =
    kept s := by
  unfold addPoison
  dsimp only
  simp only [updTbl_kept, poisonEvent_kept, raiseWide_kept, kept_ite, ite_self]

@[simp] theorem clearPoison_kept (s : State) (f : Poison → Bool) : kept (clearPoison s f) = kept s := by simp [clearPoison]

@[simp] theorem poisonGranule_kept (s : State) (x : ErrRec → ErrRec) (d : Nat) (v : Bool) (g : Nat) : kept (poisonGranule s x
    d v g) = kept s :=
  by simp [poisonGranule]

@[simp] theorem retire_kept (s : State) (d : Nat) (r : Nat) : kept (retire s d r) = kept s := by
  unfold retire
  try dsimp only
  repeat' first
    | with_reducible rfl
    | (simp only [updTbl_kept, updDesc_kept, kept_ite, ite_self]; done)
    | split

theorem execChangeEntryRetire_kept (desc : Nat) (row : Nat) (s : State) : ∃ out, execChangeEntryRetire desc row s = .next out
    ∧ kept out = kept s :=
  ⟨_, rfl, by simp⟩

@[simp] theorem heldClear_kept (s : State) (d : Nat) : kept (heldClear s d) = kept s := by simp [heldClear]

theorem execRefreshHeldClear_kept (desc : Nat) (s : State) : ∃ out, execRefreshHeldClear desc s = .next out ∧ kept out = kept
    s :=
  ⟨_, rfl, by simp⟩

@[simp] theorem storeDesc_kept (s : State) (d : Nat) : kept (storeDesc s d) = kept s :=
  by rfl

@[simp] theorem updTblPort_kept (s : State) (n : Option Nat) (f : TblPort → TblPort) : kept (updTblPort s n f) = kept s := by
  unfold updTblPort
  try dsimp only
  repeat' first
    | with_reducible rfl
    | (simp only [updTwin_kept, updTbl_kept]; done)
    | split

@[simp] theorem portsDone_kept (s : State) (d : Nat) : kept (portsDone s d) = kept s := by simp [portsDone]

@[simp] theorem invalidateEnd_kept (s : State) (d : Nat) : kept (invalidateEnd s d) = kept s := by simp [invalidateEnd]

@[simp] theorem invalidateDone_kept (s : State) (d : Nat) : kept (invalidateDone s d) = kept s := by simp [invalidateDone]

theorem execInvalidateDone_kept (desc : Nat) (s : State) : ∃ out, execInvalidateDone desc s = .next out ∧ kept out = kept s :=
  ⟨_, rfl, by simp⟩

@[simp] theorem invalidateStart_kept (s : State) (d : Nat) : kept (invalidateStart s d) = kept s := by simp [invalidateStart]

@[simp] theorem tableReset_kept (s : State) (d : Nat) : kept (tableReset s d) = kept s := by simp [tableReset]

@[simp] theorem tblCommand_kept (q : Requester) (n : Option Nat) (w : Word) (s : State) : kept (tblCommand q n w s) = kept s := by
  unfold tblCommand
  refine anyWindowCmd_kept q n s _ ?_
  dsimp only
  rw [apply_ite Prod.snd, apply_ite kept]
  refine ite_eq_iff'.mpr ⟨fun _ => checked_kept _ _ _ ?_, fun _ => updTblPort_kept s n _⟩
  split <;> simp

theorem execTableWrite_kept (q : Requester) (n : Option Nat) (w : Word) (s : State) : ∃ out, execTableWrite q n w s = .next
    out ∧ kept out = kept s :=
  ⟨_, rfl, by simp⟩

theorem execTableInvalidate_kept (q : Requester) (n : Option Nat) (w : Word) (s : State) : ∃ out, execTableInvalidate q n w s
    = .next out ∧ kept out = kept s :=
  ⟨_, rfl, by simp⟩

theorem execTableRead_kept (q : Requester) (n : Option Nat) (w : Word) (s : State) : ∃ out, execTableRead q n w s = .next out
    ∧ kept out = kept s :=
  ⟨_, rfl, by simp⟩

@[simp] theorem writerFenced_kept (s : State) (n : Nat) : kept (writerFenced s n) = kept s := by simp [writerFenced]

/-! Engines. -/

@[simp] theorem startEnv_kept (s : State) (t : Nat) (e : Nat) (op : Nat) (body : Task → EnvRun → State → State) (hbody : ∀ x0
    x1 x2, kept (body x0 x1 x2) = kept x2) : kept (startEnv s t e op body) = kept s := by
  unfold startEnv
  try dsimp only
  repeat' first
    | with_reducible rfl
    | (simp only [updEnv_kept, hbody, kept_ite]; done)
    | split

@[simp] theorem endEnv_kept (s : State) (t : Nat) (e : Nat) (code : Code) : kept (endEnv s t e code) = kept s :=
  by simp [endEnv]

@[simp] theorem countWait_kept (s : State) (t : Nat) (g : Nat) : kept (countWait s t g) = kept s := by
  unfold countWait
  try dsimp only
  repeat' first
    | with_reducible rfl
    | (simp only [updPwr_kept, updPwin_kept, kept_ite]; done)
    | split

@[simp] theorem assignTo_kept (s : State) (t : Nat) (e : Nat) (g : Nat) : kept (assignTo s t e g) = kept s := by
  unfold assignTo
  simp only [updTbl_kept, updEnv_kept, countWait_kept]

@[simp] theorem assignEnv_kept (s : State) (t : Nat) (e : Nat) (n : Nat) : kept (assignEnv s t e n) = kept s := by
  unfold assignEnv
  try dsimp only
  repeat' first
    | with_reducible rfl
    | (simp only [assignTo_kept, updEnv_kept]; done)
    | split

@[simp] theorem envelopeAssign_kept (s : State) (t : Nat) (e : Nat) : kept (envelopeAssign s t e) = kept s := by
  unfold envelopeAssign
  try dsimp only
  repeat' first
    | with_reducible rfl
    | (simp only [assignTo_kept, kept_ite]; done)
    | split

theorem execEnvelopeAssign_kept (task : Nat) (env : Nat) (s : State) : ∃ out, execEnvelopeAssign task env s = .next out ∧ kept
    out = kept s :=
  ⟨_, rfl, by simp⟩

theorem execNop_kept (task : Nat) (env : Nat) (s : State) : ∃ out, execNop task env s = .next out ∧ kept out = kept s :=
  ⟨_, rfl, by simp⟩

theorem execFence_kept (task : Nat) (env : Nat) (s : State) : ∃ out, execFence task env s = .next out ∧ kept out = kept s :=
  ⟨_, rfl, by simp⟩

/-! Gather. -/

@[simp] theorem lookupStart_kept (t : Nat) (e : Nat) (k : Task) (v : EnvRun) (s : State) : kept (lookupStart t e k v s) = kept
    s := by
  unfold lookupStart
  try dsimp only
  repeat' first
    | with_reducible rfl
    | (simp only [endEnv_kept, updTwin_kept, assignEnv_kept, updEnv_kept, kept_ite, ite_self]; done)
    | split

theorem execGatherPool_kept (task : Nat) (env : Nat) (s : State) : ∃ out, execGatherPool task env s = .next out ∧ kept out =
    kept s :=
  ⟨_, rfl, by simp⟩

theorem execGather_kept (task : Nat) (env : Nat) (s : State) : ∃ out, execGather task env s = .next out ∧ kept out = kept s :=
  ⟨_, rfl, by simp⟩

theorem execReduce_kept (task : Nat) (env : Nat) (s : State) : ∃ out, execReduce task env s = .next out ∧ kept out = kept s :=
  ⟨_, rfl, by simp⟩

@[simp] theorem readGranules_kept (s : State) (t : Nat) (e : Nat) (gs : List Nat) : kept (readGranules s t e gs) = kept s := by
  unfold readGranules
  try dsimp only
  repeat' first
    | with_reducible rfl
    | (simp only [newAcc_kept, forEach_kept', implies_true]; done)
    | split

@[simp] theorem enterPhase_kept (s : State) (t : Nat) (e : Nat) (p : Nat) : kept (enterPhase s t e p) = kept s := by rfl

/-! Lookups. -/

@[simp] theorem updLook_kept (s : State) (t : Nat) (e : Nat) (f : LookRun → LookRun) : kept (updLook s t e f) = kept s :=
  by rfl

@[simp] theorem whileRuns_kept (t : Nat) (e : Nat) (f : State → EnvRun → State) (s : State) (hf : ∀ x0 x1, kept (f x0 x1) =
    kept x0) : kept (whileRuns t e f s) = kept s := by
  unfold whileRuns
  try dsimp only
  repeat' first
    | with_reducible rfl
    | (simp only [hf, kept_ite, ite_self]; done)
    | split

@[simp] theorem readSource_kept (s : State) (t : Nat) (e : Nat) (op : Nat) (addr : Nat) (len : Nat) : kept (readSource s t e
    op addr len) = kept s := by
  unfold readSource
  try dsimp only
  repeat' first
    | with_reducible rfl
    | (simp only [newAcc_kept, forEach_kept', implies_true]; done)
    | split

@[simp] theorem reduceReads_kept (s : State) (t : Nat) (e : Nat) (g : GatherOps) : kept (reduceReads s t e g) = kept s :=
  by simp [reduceReads]

@[simp] theorem lookBegin_kept (t : Nat) (e : Nat) (s : State) (v : EnvRun) : kept (lookBegin t e s v) = kept s :=
  by simp [lookBegin]

@[simp] theorem notePoison_kept (s : State) (t : Nat) (e : Nat) (v : EnvRun) : kept (notePoison s t e v) = kept s :=
  by simp [notePoison]

@[simp] theorem lookTake_kept (t : Nat) (e : Nat) (s : State) (v : EnvRun) : kept (lookTake t e s v) = kept s := by
  unfold lookTake
  dsimp only
  simp only [notePoison_kept, updEnv_kept]

@[simp] theorem bufferTouch_kept (s : State) (g : Nat) (b : Nat × Nat) : kept (bufferTouch s g b) = kept s :=
  by rfl

theorem granAsk_kept (s : State) (t e n cls : Nat) (gs : List Nat) :
    ∀ x, granAsk s t e n cls gs = some x → kept x.1 = kept s := by
  intro x h
  unfold granAsk at h
  dsimp only at h
  split at h
  · cases h
  · split at h
    · cases h
    · cases h
      refine (forEach_kept' _ _ _ fun _ _ => ?_).trans ((forEach_kept' _ _ _ fun _ _ => ?_).trans ?_) <;>
        first | (simp; done) | (split <;> simp)

theorem resolveBag_kept (t e : Nat) (s : State) (v : EnvRun) : ∀ x, resolveBag t e s v = some x → kept x = kept s := by
  intro x h
  unfold resolveBag at h
  dsimp only at h
  (repeat' split at h) <;> first | (cases h; done) | (cases h; simp; done)

@[simp] theorem bitmapLost_kept (s : State) (x : ErrRec → ErrRec) (d : Nat) (r : Nat) : kept (bitmapLost s x d r) = kept s :=
  by simp [bitmapLost]

@[simp] theorem resolveRow_kept (t : Nat) (e : Nat) (n : Nat) (r : Nat) (x : Bool × Bool) (s : State) (v : EnvRun) : kept
    (resolveRow t e n r x s v) = kept s := by
  unfold resolveRow
  dsimp only
  simp only [bitmapLost_kept, updTwin_kept, updGwin_kept, updLook_kept, kept_ite, ite_self]

theorem resolveIndex_kept (t e : Nat) (k : Task) (eng : Nat) (s : State) (v : EnvRun) :
    ∀ x, resolveIndex t e k eng s v = some x → kept x = kept s := by
  intro x h
  unfold resolveIndex at h
  dsimp only at h
  split at h
  · cases h
  · split at h
    · cases h; simp
    · split at h
      · split at h
        · cases h
        · obtain ⟨y, hy, rfl⟩ := Option.map_eq_some_iff.mp h
          exact granAsk_kept _ _ _ _ _ _ _ hy
      · cases h; simp

@[simp] theorem resolveLoop_kept (t e : Nat) (k : Task) (eng : Nat) : ∀ (n : Nat) (s : State), kept (resolveLoop t e k eng n s) = kept s
  | 0, _ => rfl
  | n + 1, s => by
    unfold resolveLoop
    split
    · rfl
    · split
      · rfl
      · split
        · rfl
        · next h =>
          rw [resolveLoop_kept t e k eng n]
          split at h
          · exact resolveBag_kept _ _ _ _ _ h
          · exact resolveIndex_kept _ _ _ _ _ _ _ h

@[simp] theorem rowsLoop_kept (t e n eng : Nat) : ∀ (m : Nat) (s : State), kept (rowsLoop t e n eng m s) = kept s
  | 0, _ => rfl
  | m + 1, s => by
    unfold rowsLoop
    split
    · rfl
    · split
      · rfl
      · split
        · rfl
        · next h =>
          have h' := granAsk_kept _ _ _ _ _ _ _ h
          dsimp only
          rw [rowsLoop_kept t e n eng m, updLook_kept, updGwin_kept]
          exact h'

@[simp] theorem bagsFinish_kept (t : Nat) (e : Nat) (s : State) (v : EnvRun) : kept (bagsFinish t e s v) = kept s :=
  by simp [bagsFinish]

@[simp] theorem poolStep_kept (t : Nat) (e : Nat) (eng : Nat) (s : State) (v : EnvRun) : kept (poolStep t e eng s v) = kept s
    := by
  unfold poolStep
  try dsimp only
  repeat' first
    | with_reducible rfl
    | (simp only [updEngine_kept, updLook_kept, updTbl_kept, whileRuns_kept, bagsFinish_kept, kept_ite, ite_self, implies_true]; done)
    | split

@[simp] theorem reduceStep_kept (t : Nat) (e : Nat) (s : State) (v : EnvRun) : kept (reduceStep t e s v) = kept s :=
  by simp [reduceStep]

@[simp] theorem countVectors_kept (t : Nat) (e : Nat) (n : Nat) (os : List OutVec) (s : State) : kept (countVectors t e n os
    s) = kept s := by
  unfold countVectors
  dsimp only
  simp only [updGwin_kept, updTbl_kept, updEnv_kept]

@[simp] theorem formLoop_kept (t e dim : Nat) (g : GatherOps) (os : List OutVec) :
    ∀ (l : List ((Nat × Nat) × Nat)) (s : State), kept (formLoop t e dim g os l s) = kept s
  | [], _ => rfl
  | p :: ps, s => by
    unfold formLoop
    split
    · rw [formLoop_kept t e dim g os ps]; simp
    · rfl

@[simp] theorem finishMemory_kept (t e n : Nat) (s : State) (v : EnvRun) : kept (finishMemory t e n s v) = kept s := by
  unfold finishMemory
  dsimp only
  rw [whileRuns_kept _ _ _ _ (fun s v => countVectors_kept _ _ _ _ _), formLoop_kept]

@[simp] theorem finishCore_kept (t : Nat) (e : Nat) (eng : Nat) (k : Task) (s : State) (v : EnvRun) : kept (finishCore t e eng
    k s v) = kept s := by
  unfold finishCore
  try dsimp only
  repeat' first
    | with_reducible rfl
    | (simp only [failEnv_kept, emit_kept, updEngine_kept, updLook_kept, countVectors_kept, kept_ite, ite_self]; done)
    | split

@[simp] theorem lookEnd_kept (t : Nat) (e : Nat) (s : State) (v : EnvRun) : kept (lookEnd t e s v) = kept s :=
  by simp [lookEnd]

@[simp] theorem lookupNext_kept (s : State) (t e : Nat) (k : Task) (v : EnvRun) : kept (lookupNext s t e k v) = kept s := by
  have mine : ∀ (p : Stage) (f : State → EnvRun → State) (_ : ∀ s v, kept (f s v) = kept s) (s : State),
      kept (whileRuns t e (fun s v => if stageMine s v p then f s v else s) s) = kept s := by
    intro p f hf s
    refine whileRuns_kept _ _ _ _ fun s v => ?_
    split
    · exact hf s v
    · rfl
  unfold lookupNext
  dsimp only
  split
  · simp
  · rw [whileRuns_kept _ _ _ _ (fun s v => lookEnd_kept _ _ _ _),
      mine _ _ (by intro s v; split <;> simp)]
    split
    · rw [whileRuns_kept _ _ _ _ (fun s v => reduceStep_kept _ _ _ _), whileRuns_kept _ _ _ _ (fun s v => lookTake_kept _ _ _ _)]
    · rw [mine _ _ (by intro s v; simp), mine _ _ (by intro s v; simp), mine _ _ (by intro s v; simp),
        whileRuns_kept _ _ _ _ (fun s v => lookTake_kept _ _ _ _)]

/-! TableEnvs. -/

@[simp] theorem tblStart_kept (t : Nat) (e : Nat) (k : Task) (v : EnvRun) (s : State) : kept (tblStart t e k v s) = kept s := by
  unfold tblStart
  try dsimp only
  repeat' first
    | with_reducible rfl
    | (simp only [endEnv_kept, assignEnv_kept, kept_ite]; done)
    | split

theorem execUpdate_kept (task : Nat) (env : Nat) (s : State) : ∃ out, execUpdate task env s = .next out ∧ kept out = kept s :=
  ⟨_, rfl, by simp⟩

theorem execPublish_kept (task : Nat) (env : Nat) (s : State) : ∃ out, execPublish task env s = .next out ∧ kept out = kept s
    :=
  ⟨_, rfl, by simp⟩

theorem execRefreshBegin_kept (task : Nat) (env : Nat) (s : State) : ∃ out, execRefreshBegin task env s = .next out ∧ kept out
    = kept s :=
  ⟨_, rfl, by simp⟩

theorem execRefreshRows_kept (task : Nat) (env : Nat) (s : State) : ∃ out, execRefreshRows task env s = .next out ∧ kept out =
    kept s :=
  ⟨_, rfl, by simp⟩

theorem execRefreshAbort_kept (task : Nat) (env : Nat) (s : State) : ∃ out, execRefreshAbort task env s = .next out ∧ kept out
    = kept s :=
  ⟨_, rfl, by simp⟩

@[simp] theorem rowSource_kept (s : State) (t : Nat) (e : Nat) (v : EnvRun) (ver : Bool) : kept (rowSource s t e v ver) = kept
    s :=
  by simp [rowSource]

@[simp] theorem updateCheck_kept (s : State) (t : Nat) (e : Nat) (v : EnvRun) : kept (updateCheck s t e v) = kept s := by
  unfold updateCheck
  try dsimp only
  repeat' first
    | with_reducible rfl
    | (simp only [failEnv_kept, updEnv_kept, enterPhase_kept, kept_ite]; done)
    | split

@[simp] theorem rowBegin_kept (s : State) (t : Nat) (e : Nat) (v : EnvRun) : kept (rowBegin s t e v) = kept s := by
  unfold rowBegin
  try dsimp only
  repeat' first
    | with_reducible rfl
    | (simp only [updDesc_kept, endEnv_kept, rowSource_kept, readGranules_kept, enterPhase_kept, kept_ite, ite_self]; done)
    | split

@[simp] theorem rowVersion_kept (s : State) (t : Nat) (e : Nat) (k : Task) (v : EnvRun) : kept (rowVersion s t e k v) = kept s
    := by
  unfold rowVersion
  dsimp only
  simp only [failEnv_kept, updDesc_kept, rowSource_kept, addChg_kept, kept_ite, ite_self]

@[simp] theorem rowWrite_kept (s : State) (t : Nat) (e : Nat) (v : EnvRun) : kept (rowWrite s t e v) = kept s :=
  by simp [rowWrite]

@[simp] theorem rowCleared_kept (s : State) (v : EnvRun) : kept (rowCleared s v) = kept s := by simp [rowCleared]

@[simp] theorem rowWritten_kept (s : State) (t : Nat) (e : Nat) (k : Task) (v : EnvRun) : kept (rowWritten s t e k v) = kept s
    :=
  by simp [rowWritten]

@[simp] theorem rowLanded_kept (s : State) (t : Nat) (e : Nat) (k : Task) (v : EnvRun) : kept (rowLanded s t e k v) = kept s
    :=
  by simp [rowLanded]

@[simp] theorem rowsNext_kept (s : State) (t : Nat) (e : Nat) (k : Task) (v : EnvRun) : kept (rowsNext s t e k v) = kept s := by
  unfold rowsNext
  try dsimp only
  repeat' first
    | with_reducible rfl
    | (simp only [readExtentFor_kept, enterPhase_kept, updateCheck_kept, rowBegin_kept, rowVersion_kept, rowWrite_kept,
       rowWritten_kept, kept_ite, ite_self]; done)
    | split

@[simp] theorem finishRewrites_kept (s : State) (d : Nat) (n : Nat) : kept (finishRewrites s d n) = kept s :=
  by simp [finishRewrites]

@[simp] theorem leftRewrites_kept (s : State) (n : Nat) (v : EnvRun) : kept (leftRewrites s n v) = kept s :=
  by simp [leftRewrites]

@[simp] theorem publishWrite_kept (s : State) (t : Nat) (e : Nat) (k : Task) (v : EnvRun) : kept (publishWrite s t e k v) =
    kept s :=
  by simp [publishWrite]

@[simp] theorem publishNext_kept (s : State) (t : Nat) (e : Nat) (k : Task) (v : EnvRun) : kept (publishNext s t e k v) = kept
    s := by
  unfold publishNext
  try dsimp only
  repeat' first
    | with_reducible rfl
    | (simp only [readGranules_kept, enterPhase_kept, publishWrite_kept, endEnv_kept, kept_ite, ite_self]; done)
    | split

@[simp] theorem publishTable_kept (s : State) (d : Nat) (n : Nat) : kept (publishTable s d n).1 = kept s := by
  unfold publishTable
  try dsimp only
  repeat' first
    | with_reducible rfl
    | (simp only [updTwin_kept, storeDesc_kept, updDesc_kept, updTbl_kept]; done)
    | split

@[simp] theorem publishOne_kept (b : Nat) (s : State) (x : Nat × Task × Nat × EnvRun) : kept (publishOne b s x) = kept s := by
  unfold publishOne
  dsimp only
  simp only [endEnv_kept, publishTable_kept, enterPhase_kept, kept_ite, ite_self]

@[simp] theorem publishBoundary_kept (s : State) (b : Nat) : kept (publishBoundary s b) = kept s := by simp [publishBoundary]

@[simp] theorem refreshBegin_kept (s : State) (t : Nat) (e : Nat) (v : EnvRun) : kept (refreshBegin s t e v) = kept s :=
  by simp [refreshBegin]

@[simp] theorem tblNext_kept (s : State) (t : Nat) (e : Nat) (k : Task) (v : EnvRun) : kept (tblNext s t e k v) = kept s := by
  unfold tblNext
  try dsimp only
  repeat' first
    | with_reducible rfl
    | (simp only [rowsNext_kept, publishNext_kept, refreshBegin_kept, endEnv_kept, abortRefresh_kept]; done)
    | split

/-! Canopy. -/

@[simp] theorem updModel_kept (s : State) (n : Nat) (i : Nat) (f : Model → Model) : kept (updModel s n i f) = kept s := by rfl

@[simp] theorem dropModel_kept (s : State) (n : Nat) (i : Nat) : kept (dropModel s n i) = kept s := by rfl

@[simp] theorem useModel_kept (s : State) (n : Nat) (i : Nat) : kept (useModel s n i) = kept s := by rfl

@[simp] theorem placeModel_kept : ∀ (m : Nat) (s : State) (n k : Nat), kept (placeModel m s n k).1 = kept s
  | 0, _, _, _ => rfl
  | m + 1, s, n, k => by
    unfold placeModel
    dsimp only
    (repeat' split) <;> first | rfl | (rw [placeModel_kept m]; simp) | simp

@[simp] theorem loadStart_kept (t : Nat) (e : Nat) (k : Task) (v : EnvRun) (s : State) : kept (loadStart t e k v s) = kept s
    := by
  unfold loadStart
  try dsimp only
  repeat' first
    | with_reducible rfl
    | (simp only [endEnv_kept, updEnv_kept, useModel_kept, kept_ite, ite_self]; done)
    | split

theorem execModelLoad_kept (task : Nat) (env : Nat) (s : State) : ∃ out, execModelLoad task env s = .next out ∧ kept out =
    kept s :=
  ⟨_, rfl, by simp⟩

@[simp] theorem loadEnd_kept (s : State) (t : Nat) (e : Nat) (n : Nat) (id : Word) (code : Code) (expired : Bool) : kept
    (loadEnd s t e n id code expired) = kept s := by
  unfold loadEnd
  try dsimp only
  repeat' first
    | with_reducible rfl
    | (simp only [dropModel_kept, completeEnv_kept, endEnv_kept, kept_ite, ite_self,
       forEach_kept', implies_true]; done)
    | split

@[simp] theorem loadNext_kept (s : State) (t e : Nat) (k : Task) (v : EnvRun) : kept (loadNext s t e k v) = kept s := by
  unfold loadNext
  dsimp only
  split
  · split
    · simp
    · split <;> simp
  · split
    · simp
    · split <;> simp
  · rfl

@[simp] theorem loadDone_kept (s : State) (t : Nat) (e : Nat) : kept (loadDone s t e) = kept s := by
  unfold loadDone
  try dsimp only
  repeat' first
    | with_reducible rfl
    | (simp only [loadEnd_kept, useModel_kept, updModel_kept, kept_ite]; done)
    | split

theorem execModelLoadDone_kept (task : Nat) (env : Nat) (s : State) : ∃ out, execModelLoadDone task env s = .next out ∧ kept
    out = kept s :=
  ⟨_, rfl, by simp⟩

@[simp] theorem evictStart_kept (t : Nat) (e : Nat) (k : Task) (v : EnvRun) (s : State) : kept (evictStart t e k v s) = kept s
    := by
  unfold evictStart
  try dsimp only
  repeat' first
    | with_reducible rfl
    | (simp only [endEnv_kept, dropModel_kept, kept_ite, ite_self]; done)
    | split

theorem execModelEvict_kept (task : Nat) (env : Nat) (s : State) : ∃ out, execModelEvict task env s = .next out ∧ kept out =
    kept s :=
  ⟨_, rfl, by simp⟩

@[simp] theorem canopyReset_kept (s : State) (n : Nat) : kept (canopyReset s n) = kept s := by rfl

@[simp] theorem canopyWrite_kept (q : Requester) (n : Nat) (w : Word) (s : State) : kept (canopyWrite q n w s) = kept s :=
  by simp [canopyWrite]

theorem execSchWcanopyWrite_kept (q : Requester) (n : Nat) (w : Word) (s : State) : ∃ out, execSchWcanopyWrite q n w s = .next
    out ∧ kept out = kept s :=
  ⟨_, rfl, by simp⟩

@[simp] theorem acctWrite_kept (q : Requester) (n : Nat) (ptr : Bool) (w : Word) (s : State) : kept (acctWrite q n ptr w s) = kept s := by
  unfold acctWrite
  refine windowCmd_kept q n s _ ?_
  dsimp only
  split
  · exact checked_kept _ _ _ (updSwin_kept s n _)
  · exact checked_kept _ _ _ ((updSwin_kept _ n _).trans (dropClient_kept s _))

theorem execSchWacctWrite_kept (q : Requester) (n : Nat) (ptr : Bool) (w : Word) (s : State) : ∃ out, execSchWacctWrite q n
    ptr w s = .next out ∧ kept out = kept s :=
  ⟨_, rfl, by simp⟩

/-! Jobs. -/

@[simp] theorem accrue_kept (s : State) (j : Nat) : kept (accrue s j) = kept s := by rfl

@[simp] theorem chargeCtx_kept (s : State) (c : Nat) : kept (chargeCtx s c) = kept s := by
  unfold chargeCtx
  dsimp only
  simp only [accrue_kept, updJob_kept, updCtx_kept, updAcct_kept, forEach_kept', implies_true]

@[simp] theorem enterCtx_kept (s : State) (n : Nat) (c : Nat) : kept (enterCtx s n c) = kept s := by
  unfold enterCtx
  try dsimp only
  repeat' first
    | with_reducible rfl
    | (simp only [updCtx_kept, kept_ite]; done)
    | split

@[simp] theorem chargeRows_kept (s : State) (c : Nat) (ctx : Nat) : kept (chargeRows s c ctx) = kept s := by simp [chargeRows]

@[simp] theorem freezeReset_kept (s : State) (c : Nat) : kept (freezeReset s c) = kept s := by simp [freezeReset]

@[simp] theorem freezeSoon_kept (s : State) (c : Nat) : kept (freezeSoon s c) = kept s := by simp [freezeSoon]

@[simp] theorem freezesTurn_kept (s : State) : kept (freezesTurn s) = kept s := by simp [freezesTurn]

@[simp] theorem jobReport_kept (s : State) (t : Nat) (e : Nat) (code : Code) (expired : Bool) : kept (jobReport s t e code
    expired) = kept s := by
  unfold jobReport
  try dsimp only
  repeat' first
    | with_reducible rfl
    | (simp only [completeEnv_kept, updTask_kept, kept_ite, ite_self]; done)
    | with_reducible refine (forEach_kept' _ _ _ fun _ _ => ?_).trans ?_
    | (simp only [updTask_kept, kept_ite, ite_self]; with_reducible refine (forEach_kept' _ _ _ fun _ _ => ?_).trans ?_)
    | (simp only [completeEnv_kept, updTask_kept, kept_ite, kept_record, kept_record_err, ite_self, forEach_kept', implies_true]; exact enterStore_kept _ _ _ (by assumption))
    | exact enterStore_kept _ _ _ (by assumption)
    | (simp only [completeEnv_kept, updTask_kept, kept_ite, kept_record, kept_record_err, ite_self, forEach_kept', implies_true]; split)
    | split
    | (refine kept_of ?_ ?_ ?_ ?_ ?_ ?_ <;> first
        | with_reducible rfl
        | (simp [*, in_kept_prito, in_kept_hold, in_kept_passwd, in_kept_fenceTo, in_kept_hb, in_kept_pending]; done))

@[simp] theorem jobEnd_kept (s : State) (j : Nat) : kept (jobEnd s j) = kept s := by
  unfold jobEnd
  try dsimp only
  repeat' first
    | with_reducible rfl
    | (simp only [updJob_kept, updSwin_kept, jobReport_kept, kept_ite, ite_self]; done)
    | split

@[simp] theorem jobSettle_kept (s : State) (j : Nat) : kept (jobSettle s j) = kept s := by
  unfold jobSettle
  try dsimp only
  repeat' first
    | with_reducible rfl
    | (simp only [jobEnd_kept, kept_ite, ite_self]; done)
    | split

@[simp] theorem releaseCores_kept (s : State) (j : Nat) : kept (releaseCores s j) = kept s := by
  unfold releaseCores
  try dsimp only
  repeat' first
    | with_reducible rfl
    | (simp only [chargeRows_kept, chargeCtx_kept, updJob_kept, updCore_kept, forEach_kept', implies_true]; done)
    | split

@[simp] theorem jobStop_kept (s : State) (j : Nat) (code : Code) (expired : Bool) (core : Nat) (keep : Option Nat) : kept
    (jobStop s j code expired core keep) = kept s := by
  unfold jobStop
  try dsimp only
  repeat' first
    | with_reducible rfl
    | (simp only [updJob_kept, jobEnd_kept, freezeSoon_kept, kept_ite, ite_self, forEach_kept',
       implies_true]; done)
    | split

@[simp] theorem takeFree_kept (s : State) (j : Nat) : kept (takeFree s j) = kept s := by
  unfold takeFree
  try dsimp only
  repeat' first
    | with_reducible rfl
    | (simp only [updJob_kept, accrue_kept, updCore_kept, forEach_kept',
       implies_true]; done)
    | split

@[simp] theorem startJob_kept (s : State) (j : Nat) : kept (startJob s j) = kept s := by
  unfold startJob
  try dsimp only
  repeat' first
    | with_reducible rfl
    | (simp only [updJob_kept, updSwin_kept, updPwr_kept, updPwin_kept, completeEnv_kept, kept_ite, ite_self]; done)
    | split

@[simp] theorem placeClaimant_kept (s : State) (n : Nat) : kept (placeClaimant s n) = kept s := by
  unfold placeClaimant
  try dsimp only
  repeat' first
    | with_reducible rfl
    | (simp only [jobStop_kept, takeFree_kept, startJob_kept, kept_ite, ite_self]; done)
    | split

@[simp] theorem placeSoon_kept (s : State) (n : Nat) : kept (placeSoon s n) = kept s := by rfl

@[simp] theorem place_kept (s : State) (n : Nat) : kept (place s n) = kept s := by simp [place]

@[simp] theorem placesTurn_kept (s : State) : kept (placesTurn s) = kept s := by simp [placesTurn]

@[simp] theorem jobAdmit_kept (s : State) (j : Nat) : kept (jobAdmit s j) = kept s := by
  unfold jobAdmit
  try dsimp only
  repeat' first
    | with_reducible rfl
    | (simp only [jobStop_kept, useModel_kept, enterCtx_kept, placeSoon_kept, updJob_kept, kept_ite, ite_self]; done)
    | split

@[simp] theorem jobStart_kept (t : Nat) (e : Nat) (k : Task) (v : EnvRun) (s : State) : kept (jobStart t e k v s) = kept s := by
  unfold jobStart
  try dsimp only
  repeat' first
    | with_reducible rfl
    | (simp only [jobReport_kept, updEnv_kept, jobAdmit_kept, updSch_kept, kept_ite, ite_self]; done)
    | split

theorem execJob_kept (task : Nat) (env : Nat) (s : State) : ∃ out, execJob task env s = .next out ∧ kept out = kept s :=
  ⟨_, rfl, by simp⟩

@[simp] theorem waitStart_kept (t : Nat) (e : Nat) (k : Task) (v : EnvRun) (s : State) : kept (waitStart t e k v s) = kept s
    := by
  unfold waitStart
  try dsimp only
  repeat' first
    | with_reducible rfl
    | (simp only [endEnv_kept, updEnv_kept, completeEnv_kept, kept_ite, ite_self]; done)
    | split

theorem execJobWait_kept (task : Nat) (env : Nat) (s : State) : ∃ out, execJobWait task env s = .next out ∧ kept out = kept s
    :=
  ⟨_, rfl, by simp⟩

@[simp] theorem jobsTurn_kept (s : State) : kept (jobsTurn s) = kept s := by
  unfold jobsTurn
  try dsimp only
  repeat' first
    | with_reducible rfl
    | (simp only [jobAdmit_kept, jobSettle_kept, placeSoon_kept, releaseCores_kept, kept_ite, ite_self]; done)
    | with_reducible refine (forEach_kept' _ _ _ fun _ _ => ?_).trans ?_
    | split

@[simp] theorem failCore_kept (s : State) (c : Nat) (reason : Nat) : kept (failCore s c reason) = kept s := by
  unfold failCore
  try dsimp only
  repeat' first
    | with_reducible rfl
    | (simp only [raise_kept, updCore_kept, emit_kept, updJob_kept, accrue_kept, placeSoon_kept, jobStop_kept,
       issueManifest_kept, degrade_kept, kept_ite, kept_record_err, ite_self]; done)
    | split

@[simp] theorem arrayFault_kept (s : State) (c : Nat) : kept (arrayFault s c) = kept s := by simp [arrayFault]

@[simp] theorem passFault_kept (s : State) (j : Nat) (c : Nat) (status : Nat) (tag : Nat) : kept (passFault s j c status tag)
    = kept s := by
  unfold passFault
  try dsimp only
  repeat' first
    | with_reducible rfl
    | (simp only [raise_kept, jobStop_kept, arrayFault_kept, kept_ite, ite_self]; done)
    | split

@[simp] theorem overrunRec_kept (s : State) (n : Nat) (c : Nat) (tag : Nat) (beyond : Nat) : kept (overrunRec s n c tag
    beyond) = kept s :=
  by simp [overrunRec]

@[simp] theorem passIssue_kept (s : State) (c : Nat) : kept (passIssue s c) = kept s := by
  unfold passIssue
  try dsimp only
  repeat' first
    | with_reducible rfl
    | (simp only [updCore_kept, emit_kept, overrunRec_kept, kept_ite, ite_self]; done)
    | split

theorem execPassIssue_kept (core : Nat) (s : State) : ∃ out, execPassIssue core s = .next out ∧ kept out = kept s :=
  ⟨_, rfl, by simp⟩

@[simp] theorem passDone_kept (s : State) (c : Nat) (tag : Nat) (status : Nat) (drained : Bool) : kept (passDone s c tag
    status drained) = kept s := by
  unfold passDone
  try dsimp only
  repeat' first
    | with_reducible rfl
    | (simp only [updCore_kept, updAcct_kept, overrunRec_kept, arrayFault_kept, passFault_kept, jobSettle_kept, kept_ite,
       ite_self]; done)
    | split

theorem execPassDone_kept (core : Nat) (tag : Nat) (status : Nat) (drained : Bool) (s : State) : ∃ out, execPassDone core tag
    status drained s = .next out ∧ kept out = kept s :=
  ⟨_, rfl, by simp⟩

@[simp] theorem passWatchdog_kept (s : State) (c : Nat) : kept (passWatchdog s c) = kept s := by
  unfold passWatchdog
  try dsimp only
  repeat' first
    | with_reducible rfl
    | (simp only [passFault_kept, kept_ite, ite_self]; done)
    | split

theorem execPassWatchdog_kept (core : Nat) (s : State) : ∃ out, execPassWatchdog core s = .next out ∧ kept out = kept s :=
  ⟨_, rfl, by simp⟩

@[simp] theorem coreFrozen_kept (s : State) (c : Nat) : kept (coreFrozen s c) = kept s := by simp [coreFrozen]

theorem execCoreFrozen_kept (core : Nat) (s : State) : ∃ out, execCoreFrozen core s = .next out ∧ kept out = kept s :=
  ⟨_, rfl, by simp⟩

@[simp] theorem coreResetAck_kept (s : State) (c : Nat) : kept (coreResetAck s c) = kept s := by
  unfold coreResetAck
  try dsimp only
  repeat' first
    | with_reducible rfl
    | (simp only [updCore_kept, emit_kept, jobSettle_kept, kept_ite]; done)
    | split

theorem execCoreResetAck_kept (core : Nat) (s : State) : ∃ out, execCoreResetAck core s = .next out ∧ kept out = kept s :=
  ⟨_, rfl, by simp⟩

theorem execCoreErrorReport_kept (core : Nat) (code : BitVec 16) (s : State) : ∃ out, execCoreErrorReport core code s = .next
    out ∧ kept out = kept s :=
  ⟨_, rfl, by simp⟩

theorem execSpareMapChange_kept (core : Nat) (map : BitVec 32) (s : State) : ∃ out, execSpareMapChange core map s = .next out
    ∧ kept out = kept s :=
  ⟨_, rfl, by simp⟩

@[simp] theorem weightWrite_kept (q : Requester) (c : Nat) (w : Word) (s : State) : kept (weightWrite q c w s) = kept s := by
  unfold weightWrite
  dsimp only
  simp only [globalCmd_kept, checked_kept, updCtx_kept]

theorem execSchWeightWrite_kept (q : Requester) (c : Nat) (w : Word) (s : State) : ∃ out, execSchWeightWrite q c w s = .next
    out ∧ kept out = kept s :=
  ⟨_, rfl, by simp⟩

/-! Transfers. -/

@[simp] theorem xferStart_kept (t : Nat) (e : Nat) (k : Task) (v : EnvRun) (s : State) : kept (xferStart t e k v s) = kept s
    := by
  unfold xferStart
  try dsimp only
  repeat' first
    | with_reducible rfl
    | (simp only [endEnv_kept, assignEnv_kept, kept_ite]; done)
    | split

theorem execCopy_kept (task : Nat) (env : Nat) (s : State) : ∃ out, execCopy task env s = .next out ∧ kept out = kept s :=
  ⟨_, rfl, by simp⟩

theorem execCopy2d_kept (task : Nat) (env : Nat) (s : State) : ∃ out, execCopy2d task env s = .next out ∧ kept out = kept s :=
  ⟨_, rfl, by simp⟩

theorem execPrefetch_kept (task : Nat) (env : Nat) (s : State) : ∃ out, execPrefetch task env s = .next out ∧ kept out = kept
    s :=
  ⟨_, rfl, by simp⟩

theorem execAdvise_kept (task : Nat) (env : Nat) (s : State) : ∃ out, execAdvise task env s = .next out ∧ kept out = kept s :=
  ⟨_, rfl, by simp⟩

@[simp] theorem translatePages_kept (s : State) (t : Nat) (e : Nat) (ps : List (Nat × Bool)) : kept (translatePages s t e ps)
    = kept s := by
  unfold translatePages
  try dsimp only
  repeat' first
    | with_reducible rfl
    | (simp only [newAcc_kept, forEach_kept', implies_true]; done)
    | split

@[simp] theorem withFrames_kept (s : State) (t : Nat) (e : Nat) (v : EnvRun) : kept (withFrames s t e v) = kept s :=
  by simp [withFrames]

@[simp] theorem tileRead_kept (s : State) (t : Nat) (e : Nat) (k : Task) (v : EnvRun) : kept (tileRead s t e k v) = kept s := by
  unfold tileRead
  try dsimp only
  repeat' first
    | with_reducible rfl
    | (simp only [translatePages_kept, updEnv_kept, failEnv_kept, refusalRec_kept, enterPhase_kept, readExtentFor_kept,
       withFrames_kept, kept_ite, forEach_kept', implies_true]; done)
    | split

@[simp] theorem tileWrite_kept (s : State) (t : Nat) (e : Nat) (v : EnvRun) : kept (tileWrite s t e v) = kept s :=
  by simp [tileWrite]

@[simp] theorem copyNext_kept (s : State) (t : Nat) (e : Nat) (k : Task) (v : EnvRun) : kept (copyNext s t e k v) = kept s := by
  unfold copyNext
  try dsimp only
  repeat' first
    | with_reducible rfl
    | (simp only [translatePages_kept, enterPhase_kept, endEnv_kept, tileRead_kept, tileWrite_kept, updEnv_kept, kept_ite,
       ite_self]; done)
    | split

@[simp] theorem prefetchNext_kept (s : State) (t : Nat) (e : Nat) (v : EnvRun) : kept (prefetchNext s t e v) = kept s := by
  unfold prefetchNext
  try dsimp only
  repeat' first
    | with_reducible rfl
    | (simp only [endEnv_kept, updEnv_kept, enterPhase_kept, translatePages_kept]; done)
    | split

@[simp] theorem adviseNext_kept (s : State) (t e : Nat) (k : Task) (v : EnvRun) : kept (adviseNext s t e k v) = kept s := by
  have fold : ∀ (l : List XltEntry) (a : State × Bool), kept (l.foldl (fun (a : State × Bool) x =>
      if x.sticky then a
      else if stickyOf a.1 (entryUnit x) x.n < 32 then
        (updXlt a.1 fun u => { u with entries := u.entries.map fun y => if y = x then { y with sticky := true } else y }, a.2)
      else (a.1, true)) a).1 = kept a.1 := by
    intro l
    induction l with
    | nil => intro a; rfl
    | cons x l ih =>
      intro a
      rw [List.foldl_cons, ih]
      split
      · rfl
      · split
        · exact updXlt_kept _ _ rfl
        · rfl
  unfold adviseNext
  dsimp only
  split
  · rw [endEnv_kept, updXlt_kept _ _ rfl]
  · rw [endEnv_kept, fold]

@[simp] theorem xferNext_kept (s : State) (t : Nat) (e : Nat) (k : Task) (v : EnvRun) : kept (xferNext s t e k v) = kept s := by
  unfold xferNext
  try dsimp only
  repeat' first
    | with_reducible rfl
    | (simp only [prefetchNext_kept, adviseNext_kept, copyNext_kept]; done)
    | split

@[simp] theorem peerCommand_kept (q : Requester) (w : Word) (s : State) : kept (peerCommand q w s) = kept s := by
  unfold peerCommand
  refine globalCmd_kept q s _ ?_
  exact (updXlt_kept _ _ rfl).trans (checked_kept _ _ _ (updXlt_kept _ _ rfl))

theorem execPeerBind_kept (q : Requester) (w : Word) (s : State) : ∃ out, execPeerBind q w s = .next out ∧ kept out = kept s
    :=
  ⟨_, rfl, by simp⟩

theorem execPeerUnbind_kept (q : Requester) (w : Word) (s : State) : ∃ out, execPeerUnbind q w s = .next out ∧ kept out = kept
    s :=
  ⟨_, rfl, by simp⟩

@[simp] theorem fixClass_kept (s : State) (n : Nat) (c : Nat) : kept (fixClass s n c).1 = kept s := by
  unfold fixClass
  try dsimp only
  repeat' first
    | with_reducible rfl
    | (simp only [updClr_kept]; done)
    | split

@[simp] theorem fabricInbound_kept (s : State) (r : FabricReq) : kept (fabricInbound s r) = kept s := by
  unfold fabricInbound
  dsimp only
  split
  · simp
  · split
    · split <;> simp
    · split
      · split <;> simp
      · split
        · simp
        · split
          · rfl
          · next h => simpa using enterStore_kept _ _ _ h

theorem execFabricInboundRequest_kept (r : FabricReq) (s : State) : ∃ out, execFabricInboundRequest r s = .next out ∧ kept out
    = kept s :=
  ⟨_, rfl, by simp⟩

@[simp] theorem coreRespond_kept (s : State) (c : Nat) (tag : Nat) (status : Nat) (data : List Byte) : kept (coreRespond s c
    tag status data) = kept s :=
  by simp [coreRespond]

@[simp] theorem foldCore_kept (s : State) (x : Job) (a : Nat) (r : CoreReq) : kept (foldCore s x a r) = kept s := by
  unfold foldCore
  try dsimp only
  repeat' first
    | with_reducible rfl
    | (simp only [foldGranule_kept]; done)
    | split

@[simp] theorem coreRequest_kept (s : State) (c : Nat) (x : Job) (r : CoreReq) : kept (coreRequest s c x r) = kept s := by
  unfold coreRequest
  dsimp only
  split
  · simp
  · simp
  · split
    · simp
    · split
      · rfl
      · next h =>
        have h' := enterStore_kept _ _ _ h
        rw [updCore_kept, kept_ite, foldCore_kept, ite_self, h']
        (repeat' split) <;> simp
  · split
    · simp
    · split
      · rfl
      · simp

@[simp] theorem coreMemory_kept (s : State) (c : Nat) (r : CoreReq) : kept (coreMemory s c r) = kept s := by
  unfold coreMemory
  try dsimp only
  repeat' first
    | with_reducible rfl
    | (simp only [updCore_kept, emit_kept, coreRequest_kept, kept_ite, ite_self]; done)
    | split

theorem execCoreMemoryRequest_kept (core : Nat) (r : CoreReq) (s : State) : ∃ out, execCoreMemoryRequest core r s = .next out
    ∧ kept out = kept s :=
  ⟨_, rfl, by simp⟩

@[simp] theorem fabricResponse_kept (s : State) (tag : Nat) (status : Nat) (data : List Byte) : kept (fabricResponse s tag
    status data) = kept s := by
  unfold fabricResponse
  try dsimp only
  repeat' first
    | with_reducible rfl
    | (simp only [setFabOut_kept, countRemote_kept, updCore_kept, coreRespond_kept, refusalRec_kept, accFabric_kept, kept_ite,
       ite_self]; done)
    | split

theorem execFabricResponse_kept (tag : Nat) (status : Nat) (data : List Byte) (s : State) : ∃ out, execFabricResponse tag
    status data s = .next out ∧ kept out = kept s :=
  ⟨_, rfl, by simp⟩

/-! Keys. -/

@[simp] theorem writeSlot_kept (s : State) (k : Nat) (key : List Byte) (attr : BitVec 32) : kept (writeSlot s k key attr) =
    kept s :=
  by simp [writeSlot]

@[simp] theorem clearSlot_kept (s : State) (k : Nat) : kept (clearSlot s k) = kept s := by rfl

@[simp] theorem zeroiseSlots_kept (s : State) (ks : List Nat) : kept (zeroiseSlots s ks) = kept s := by simp [zeroiseSlots]

@[simp] theorem noteTag_kept (s : State) (k : Task) (bs : List Byte) : kept (noteTag s k bs) = kept s := by simp [noteTag]

@[simp] theorem slotsAtStart_kept (s : State) (i : Nat) : kept (slotsAtStart s i) = kept s :=
  by simp [slotsAtStart]

@[simp] theorem unsealStart_kept (t : Nat) (e : Nat) (k : Task) (v : EnvRun) (s : State) : kept (unsealStart t e k v s) = kept
    s := by
  unfold unsealStart
  try dsimp only
  repeat' first
    | with_reducible rfl
    | (simp only [endEnv_kept, noteTag_kept, assignEnv_kept, updEnv_kept, kept_ite, ite_self]; done)
    | split

theorem execUnsealData_kept (task : Nat) (env : Nat) (s : State) : ∃ out, execUnsealData task env s = .next out ∧ kept out =
    kept s :=
  ⟨_, rfl, by simp⟩

@[simp] theorem unsealFail_kept (s : State) (t : Nat) (e : Nat) (n : Nat) (c : Code) : kept (unsealFail s t e n c) = kept s :=
  by simp [unsealFail]

@[simp] theorem unsealNext_kept (s : State) (t : Nat) (e : Nat) (k : Task) (v : EnvRun) : kept (unsealNext s t e k v) = kept s
    := by
  unfold unsealNext
  try dsimp only
  repeat' first
    | with_reducible rfl
    | (simp only [unsealFail_kept, readExtentFor_kept, enterPhase_kept, endEnv_kept, updEnv_kept, writeExtentFor_kept,
       updXch_kept, kept_ite, ite_self]; done)
    | split

@[simp] theorem recordLanded_kept (s : State) (t : Nat) (e : Nat) (k : Task) (v : EnvRun) : kept (recordLanded s t e k v) =
    kept s :=
  by simp [recordLanded]

@[simp] theorem updRot_kept (s : State) (o : Nat) (f : RotPort → RotPort) : kept (updRot s o f) = kept s := by rfl

@[simp] theorem rotEmit_kept (s : State) (o : Nat) (r : RotReq) : kept (rotEmit s o r) = kept s := by simp [rotEmit]

@[simp] theorem rotSend_kept (s : State) (o : Nat) (use : RotUse) (payload : List Byte) : kept (rotSend s o use payload) =
    kept s :=
  by simp [rotSend]

@[simp] theorem rotNext_kept (s : State) (o : Nat) : kept (rotNext s o) = kept s := by
  unfold rotNext
  try dsimp only
  repeat' first
    | with_reducible rfl
    | (simp only [updRot_kept, rotEmit_kept]; done)
    | split

@[simp] theorem rotRandom_kept (s : State) (use : RandomUse) (count : Nat) : kept (rotRandom s use count) = kept s :=
  by simp [rotRandom]

@[simp] theorem measure_kept (s : State) (i : Nat) : kept (measure s i) = kept s := by simp [measure]

@[simp] theorem firstTickTrust_kept (s : State) : kept (firstTickTrust s) = kept s := by
  unfold firstTickTrust
  try dsimp only
  repeat' first
    | with_reducible rfl
    | (simp only [rotSend_kept, measure_kept, forEach_kept', implies_true]; done)
    | split

@[simp] theorem xchPut_kept (s : State) (x : Nat) (bs : List Byte) : kept (xchPut s x bs) = kept s := by simp [xchPut]

@[simp] theorem keyEnd_kept (s : State) (c : Code) : kept (keyEnd s c) = kept s := by rfl

@[simp] theorem keyBusy_kept (s : State) : kept (keyBusy s) = kept s := by rfl

@[simp] theorem unlockFailed_kept (s : State) : kept (unlockFailed s) = kept s := by rfl

@[simp] theorem unlocked_kept (s : State) : kept (unlocked s) = kept s := by simp [unlocked]

@[simp] theorem keyOperation_kept (s : State) (op slot arg : Nat) : kept (keyOperation s op slot arg).2 = kept s := by
  unfold keyOperation
  dsimp only
  split <;> (try rw [updKey_kept])
  case h_6 => simp
  case h_9 => simp
  all_goals (repeat' (first | split | dsimp only)) <;> simp

@[simp] theorem keyCommand_kept (q : Requester) (w : Word) (s : State) : kept (keyCommand q w s) = kept s := by
  unfold keyCommand
  refine globalCmd_kept q s _ ?_
  dsimp only
  split
  · exact updKey_kept s _
  · exact keyOperation_kept s _ _ _

theorem execKeyWrite_kept (q : Requester) (w : Word) (s : State) : ∃ out, execKeyWrite q w s = .next out ∧ kept out = kept s
    :=
  ⟨_, rfl, by simp⟩

theorem execKeyErase_kept (q : Requester) (w : Word) (s : State) : ∃ out, execKeyErase q w s = .next out ∧ kept out = kept s
    :=
  ⟨_, rfl, by simp⟩

theorem execKeyEnrol_kept (q : Requester) (w : Word) (s : State) : ∃ out, execKeyEnrol q w s = .next out ∧ kept out = kept s
    :=
  ⟨_, rfl, by simp⟩

theorem execKeySetpass_kept (q : Requester) (w : Word) (s : State) : ∃ out, execKeySetpass q w s = .next out ∧ kept out = kept
    s :=
  ⟨_, rfl, by simp⟩

theorem execKeyLcAdvance_kept (q : Requester) (w : Word) (s : State) : ∃ out, execKeyLcAdvance q w s = .next out ∧ kept out =
    kept s :=
  ⟨_, rfl, by simp⟩

theorem execKeyChallenge_kept (q : Requester) (w : Word) (s : State) : ∃ out, execKeyChallenge q w s = .next out ∧ kept out =
    kept s :=
  ⟨_, rfl, by simp⟩

theorem execKeyDbgAuth_kept (q : Requester) (w : Word) (s : State) : ∃ out, execKeyDbgAuth q w s = .next out ∧ kept out = kept
    s :=
  ⟨_, rfl, by simp⟩

theorem execKeyDbgPass_kept (q : Requester) (w : Word) (s : State) : ∃ out, execKeyDbgPass q w s = .next out ∧ kept out = kept
    s :=
  ⟨_, rfl, by simp⟩

theorem execKeyDbgClose_kept (q : Requester) (w : Word) (s : State) : ∃ out, execKeyDbgClose q w s = .next out ∧ kept out =
    kept s :=
  ⟨_, rfl, by simp⟩

@[simp] theorem xchBegin_kept (s : State) (x : Nat) : kept (xchBegin s x) = kept s := by rfl

@[simp] theorem exchangeSend_kept (s : State) (x : Nat) (w : Word) : kept (exchangeSend s x w) = kept s := by
  unfold exchangeSend
  dsimp only
  split <;> simp

@[simp] theorem exchangeCommand_kept (q : Requester) (n : Option Nat) (w : Word) (s : State) :
    kept (exchangeCommand q n w s) = kept s := by
  unfold exchangeCommand
  refine anyWindowCmd_kept q n s _ ?_
  dsimp only
  split
  · rfl
  · unfold exchangeEnd
    dsimp only
    split <;> simp

theorem execKeySpdm_kept (q : Requester) (n : Option Nat) (w : Word) (s : State) : ∃ out, execKeySpdm q n w s = .next out ∧
    kept out = kept s :=
  ⟨_, rfl, by simp⟩

theorem execKeyUnwrap_kept (q : Requester) (n : Nat) (w : Word) (s : State) : ∃ out, execKeyUnwrap q n w s = .next out ∧ kept
    out = kept s :=
  ⟨_, rfl, by simp⟩

@[simp] theorem keyRelease_kept (s : State) (k : Nat) (key : List Byte) (attr : BitVec 32) : kept (keyRelease s k key attr) =
    kept s := by
  unfold keyRelease
  try dsimp only
  repeat' first
    | with_reducible rfl
    | (simp only [emit_kept, writeSlot_kept, kept_ite]; done)
    | split

theorem execRotKeyRelease_kept (slot : Nat) (key : List Byte) (attr : BitVec 32) (s : State) : ∃ out, execRotKeyRelease slot
    key attr s = .next out ∧ kept out = kept s :=
  ⟨_, rfl, by simp⟩

@[simp] theorem lcChange_kept (s : State) (lc : Nat) : kept (lcChange s lc) = kept s := by simp [lcChange]

theorem execRotLcChange_kept (lc : BitVec 3) (s : State) : ∃ out, execRotLcChange lc s = .next out ∧ kept out = kept s :=
  ⟨_, rfl, by simp⟩

/-! Units. -/

@[simp] theorem takeBack_kept (s : State) (t : Nat) (e : Nat) : kept (takeBack s t e) = kept s := by simp [takeBack]

@[simp] theorem leaveEngine_kept (s : State) (g : Nat) (code : Code) : kept (leaveEngine s g code) = kept s :=
  by simp [leaveEngine]

@[simp] theorem noEngineLeft_kept (s : State) (n : Nat) : kept (noEngineLeft s n) = kept s := by simp [noEngineLeft]

@[simp] theorem engineReset_kept (s : State) (g : Nat) : kept (engineReset s g) = kept s := by simp [engineReset]

@[simp] theorem failEngine_kept (s : State) (g : Nat) (reason : Nat) : kept (failEngine s g reason) = kept s := by
  unfold failEngine
  try dsimp only
  repeat' first
    | with_reducible rfl
    | (simp only [raise_kept, leaveEngine_kept, updEngine_kept, issueManifest_kept, degrade_kept, noEngineLeft_kept, kept_ite,
       kept_record_err]; done)
    | split

@[simp] theorem engineFault_kept (s : State) (g : Nat) (kind : Nat) : kept (engineFault s g kind) = kept s :=
  by simp [engineFault]

theorem execEngineInternalFault_kept (e : Nat) (kind : Nat) (s : State) : ∃ out, execEngineInternalFault e kind s = .next out
    ∧ kept out = kept s :=
  ⟨_, rfl, by simp⟩

theorem execEngineResetAck_kept (e : Nat) (s : State) : ∃ out, execEngineResetAck e s = .next out ∧ kept out = kept s :=
  ⟨_, rfl, by simp⟩

@[simp] theorem resetHang_kept (s : State) (isCore : Bool) (u : Nat) : kept (resetHang s isCore u) = kept s := by
  unfold resetHang
  dsimp only
  simp only [failCore_kept, raise_kept, failEngine_kept, kept_ite, ite_self]

theorem execResetHang_kept (isCore : Bool) (unit : Nat) (s : State) : ∃ out, execResetHang isCore unit s = .next out ∧ kept
    out = kept s :=
  ⟨_, rfl, by simp⟩

@[simp] theorem envNext_kept (s : State) (t : Nat) (e : Nat) (k : Task) (v : EnvRun) : kept (envNext s t e k v) = kept s :=
  by simp [envNext]

@[simp] theorem envsTurn_kept (s : State) : kept (envsTurn s) = kept s := by
  unfold envsTurn
  try dsimp only
  repeat' first
    | with_reducible rfl
    | (simp only [envNext_kept, kept_ite, ite_self]; done)
    | with_reducible refine (forEach_kept' _ _ _ fun _ _ => ?_).trans ?_
    | split

@[simp] theorem drainEnd_kept (s : State) (t : Nat) (e : Nat) (k : Task) (v : EnvRun) : kept (drainEnd s t e k v) = kept s :=
  by simp [drainEnd]

@[simp] theorem drainsTurn_kept (s : State) : kept (drainsTurn s) = kept s := by
  unfold drainsTurn
  try dsimp only
  repeat' first
    | with_reducible rfl
    | (simp only [recordLanded_kept, rowLanded_kept, notePoison_kept, drainEnd_kept, kept_ite, ite_self]; done)
    | with_reducible refine (forEach_kept' _ _ _ fun _ _ => ?_).trans ?_
    | split

@[simp] theorem engineCharge_kept (s : State) : kept (engineCharge s) = kept s := by
  unfold engineCharge
  try dsimp only
  repeat' first
    | with_reducible rfl
    | (simp only [updDom_kept, updAcct_kept, kept_ite, ite_self]; done)
    | with_reducible refine (forEach_kept' _ _ _ fun _ _ => ?_).trans ?_
    | split

end Sys2Proof.Machine
end

