-- ==== Sys2Proof/Laws/KeptSystem.lean ====
section
/-! SUPPORT. What each operation leaves of the bounded registers and of the queue of commands: power, mailboxes, fences, images, the start-up, recovery and the Trail. -/

namespace Sys2Proof.Machine

set_option Elab.async false
set_option linter.unusedTactic false
set_option linter.unreachableTactic false

/-! TrailBase. -/

@[simp] theorem updLane_kept (s : State) (l : Nat) (f : TrlLane → TrlLane) : kept (updLane s l f) = kept s := by rfl

@[simp] theorem trailSend_kept (s : State) (type : Nat) (dst : Nat) (body : List Byte) : kept (trailSend s type dst body) =
    kept s :=
  by simp [trailSend]

@[simp] theorem dropFrame_kept (s : State) : kept (dropFrame s) = kept s :=
  by rfl

@[simp] theorem sendSets_kept (s : State) : kept (sendSets s) = kept s :=
  by simp [sendSets]

@[simp] theorem linkLost_kept (wasUp : Bool) (s : State) : kept (linkLost wasUp s) = kept s :=
  by simp [linkLost]

@[simp] theorem trainBegin_kept (s : State) (fresh : Bool) : kept (trainBegin s fresh) = kept s := by simp [trainBegin]

@[simp] theorem trailOff_kept (s : State) : kept (trailOff s) = kept s :=
  by simp [trailOff]

@[simp] theorem trailRec_kept (s : State) (code : Code) (sev : Nat) (d0 : Nat) (d1 : Nat) (d2 : Nat) : kept (trailRec s code
    sev d0 d1 d2) = kept s :=
  by simp [trailRec]

@[simp] theorem heartbeatSend_kept (s : State) : kept (heartbeatSend s) = kept s :=
  by simp [heartbeatSend]

@[simp] theorem sendAbort_kept (s : State) (n : Nat) (g : Nat) (ended : Option Nat) : kept (sendAbort s n g ended) = kept s := by
  unfold sendAbort
  try dsimp only
  repeat' first
    | with_reducible rfl
    | (simp only [emit_kept, raise_kept, updTrl_kept, kept_ite]; done)
    | split

/-! Power. -/

@[simp] theorem powerRequest_kept (s : State) (d : Nat) (t : PowerSt) : kept (powerRequest s d t) = kept s := by rfl

@[simp] theorem powerMove_kept (s : State) (d : Nat) (t : PowerSt) (now : Bool) : kept (powerMove s d t now) = kept s :=
  by simp [powerMove]

@[simp] theorem powerTurn_kept (s : State) : kept (powerTurn s) = kept s := by simp [powerTurn]

@[simp] theorem coreUp_kept (s : State) (c : Nat) : kept (coreUp s c) = kept s := by simp [coreUp]

@[simp] theorem domainDown_kept (s : State) (d : Nat) : kept (domainDown s d) = kept s := by simp [domainDown]

@[simp] theorem commandDone_kept (s : State) (d : Nat) : kept (commandDone s d) = kept s := by simp [commandDone]

@[simp] theorem powerAck_kept (s : State) (d : Nat) : kept (powerAck s d) = kept s := by
  unfold powerAck
  try dsimp only
  repeat' first
    | with_reducible rfl
    | (simp only [updDom_kept, coreUp_kept, domainDown_kept, updPwr_kept, trainBegin_kept, trailOff_kept, commandDone_kept,
       kept_ite, ite_self, forEach_kept', implies_true]; done)
    | split

theorem execPowerAck_kept (d : Nat) (s : State) : ∃ out, execPowerAck d s = .next out ∧ kept out = kept s := ⟨_, rfl, by simp⟩

@[simp] theorem chargeDomain_kept (s : State) (d : Nat) : kept (chargeDomain s d) = kept s := by
  unfold chargeDomain
  try dsimp only
  repeat' first
    | with_reducible rfl
    | (simp only [updDom_kept, updPwin_kept]; done)
    | split

@[simp] theorem powerBoundary_kept (s : State) : kept (powerBoundary s) = kept s := by
  unfold powerBoundary
  try dsimp only
  repeat' first
    | with_reducible rfl
    | (simp only [updPwr_kept, chargeDomain_kept, forEach_kept', implies_true]; done)
    | split

@[simp] theorem pwrCommand_kept (q : Requester) (w : Word) (s : State) : kept (pwrCommand q w s) = kept s := by
  unfold pwrCommand
  dsimp only
  simp only [globalCmd_kept, checked_kept, updDom_kept, updPwr_kept]

theorem execPwrCmd_kept (q : Requester) (w : Word) (s : State) : ∃ out, execPwrCmd q w s = .next out ∧ kept out = kept s :=
  ⟨_, rfl, by simp⟩

@[simp] theorem coreWfi_kept (s : State) (c : Nat) : kept (coreWfi s c) = kept s := by simp [coreWfi]

theorem execControlCoreWfi_kept (core : Nat) (s : State) : ∃ out, execControlCoreWfi core s = .next out ∧ kept out = kept s :=
  ⟨_, rfl, by simp⟩

/-! Mailboxes. -/

@[simp] theorem mbxCmd_kept (q : Requester) (s : State) (body : State → Checked) (h : kept (body s).2 = kept s) :
    kept (mbxCmd q s body) = kept s := by
  unfold mbxCmd
  (repeat' split) <;> simp [h]

@[simp] theorem lockRead_kept (s : State) (q : Requester) (m : Nat) : kept (lockRead s q m) = kept s := by simp [lockRead]

theorem execMbxLockAcquire_kept (q : Requester) (m : Nat) (s : State) : ∃ out, execMbxLockAcquire q m s = .next out ∧ kept out
    = kept s :=
  ⟨_, rfl, by simp⟩

@[simp] theorem unlockWrite_kept (q : Requester) (m : Nat) (w : Word) (s : State) : kept (unlockWrite q m w s) = kept s :=
  by simp [unlockWrite]

theorem execMbxRelease_kept (q : Requester) (m : Nat) (w : Word) (s : State) : ∃ out, execMbxRelease q m w s = .next out ∧
    kept out = kept s :=
  ⟨_, rfl, by simp⟩

theorem execMbxBreak_kept (q : Requester) (m : Nat) (w : Word) (s : State) : ∃ out, execMbxBreak q m w s = .next out ∧ kept
    out = kept s :=
  ⟨_, rfl, by simp⟩

@[simp] theorem notify_kept (s : State) (q : Requester) (v : Nat) : kept (notify s q v) = kept s := by
  unfold notify
  try dsimp only
  repeat' first
    | with_reducible rfl
    | (simp only [msix_kept, emit_kept, kept_ite, ite_self]; done)
    | split

@[simp] theorem ackMsg_kept (s : State) (m : Nat) (g : MbxMsg) (seq : Nat) (c : Code) : kept (ackMsg s m g seq c) = kept s :=
  by simp [ackMsg]

@[simp] theorem ackTaken_kept (s : State) (m : Nat) (c : Code) : kept (ackTaken s m c) = kept s := by simp [ackTaken]

@[simp] theorem ackPosted_kept (s : State) (m : Nat) (c : Code) : kept (ackPosted s m c) = kept s := by simp [ackPosted]

@[simp] theorem wakeEvent_kept (s : State) (m : Nat) : kept (wakeEvent s m) = kept s := by
  unfold wakeEvent
  dsimp only
  simp only [updPwr_kept, notify_kept, updDom_kept, kept_ite, ite_self]

@[simp] theorem postMsg_kept (s : State) (q : Requester) (m : Nat) (ackIrq : Bool) (v : Nat) : kept (postMsg s q m ackIrq v) =
    kept s := by
  unfold postMsg
  dsimp only
  simp only [updMbx_kept, wakeEvent_kept, ackPosted_kept, kept_ite, ite_self]

@[simp] theorem dataWrite_kept (q : Requester) (m : Nat) (k : Nat) (w : Word) (s : State) : kept (dataWrite q m k w s) = kept
    s :=
  by simp [dataWrite]

theorem execMbxDataWrite_kept (q : Requester) (m : Nat) (k : Nat) (w : Word) (s : State) : ∃ out, execMbxDataWrite q m k w s =
    .next out ∧ kept out = kept s :=
  ⟨_, rfl, by simp⟩

@[simp] theorem postWrite_kept (q : Requester) (m : Nat) (w : Word) (s : State) : kept (postWrite q m w s) = kept s :=
  by simp [postWrite]

theorem execMbxPost_kept (q : Requester) (m : Nat) (w : Word) (s : State) : ∃ out, execMbxPost q m w s = .next out ∧ kept out
    = kept s :=
  ⟨_, rfl, by simp⟩

@[simp] theorem takeMsg_kept (s : State) (m : Nat) : kept (takeMsg s m) = kept s := by rfl

@[simp] theorem takeWrite_kept (q : Requester) (m : Nat) (w : Word) (s : State) : kept (takeWrite q m w s) = kept s :=
  by simp [takeWrite]

theorem execMbxTake_kept (q : Requester) (m : Nat) (w : Word) (s : State) : ∃ out, execMbxTake q m w s = .next out ∧ kept out
    = kept s :=
  ⟨_, rfl, by simp⟩

@[simp] theorem ackWrite_kept (q : Requester) (m : Nat) (w : Word) (s : State) : kept (ackWrite q m w s) = kept s :=
  by simp [ackWrite]

theorem execMbxAckTaken_kept (q : Requester) (m : Nat) (w : Word) (s : State) : ∃ out, execMbxAckTaken q m w s = .next out ∧
    kept out = kept s :=
  ⟨_, rfl, by simp⟩

theorem execMbxAckPosted_kept (q : Requester) (m : Nat) (w : Word) (s : State) : ∃ out, execMbxAckPosted q m w s = .next out ∧
    kept out = kept s :=
  ⟨_, rfl, by simp⟩

@[simp] theorem freeLocks_kept (s : State) (q : Requester) : kept (freeLocks s q) = kept s := by simp [freeLocks]

@[simp] theorem removeRecv_kept (s : State) (m : Nat) : kept (removeRecv s m) = kept s := by simp [removeRecv]

@[simp] theorem requesterGone_kept (s : State) (q : Requester) : kept (requesterGone s q) = kept s := by simp [requesterGone]

@[simp] theorem recvWrite_kept (q : Requester) (m : Nat) (w : Word) (s : State) : kept (recvWrite q m w s) = kept s := by
  unfold recvWrite
  dsimp only
  simp only [mbxCmd_kept, checked_kept, freeLocks_kept, removeRecv_kept, updMbx_kept, kept_ite, ite_self]

theorem execMbxRecvWrite_kept (q : Requester) (m : Nat) (w : Word) (s : State) : ∃ out, execMbxRecvWrite q m w s = .next out ∧
    kept out = kept s :=
  ⟨_, rfl, by simp⟩

@[simp] theorem bootRegister_kept (s : State) : kept (bootRegister s) = kept s := by rfl

/-! Cuts. -/

@[simp] theorem cutEnv_kept (code : Code) (expired : Bool) (t : Nat) (s : State) (e : Nat) : kept (cutEnv code expired t s e)
    = kept s := by
  unfold cutEnv
  try dsimp only
  repeat' first
    | with_reducible rfl
    | (simp only [completeEnv_kept, stopEnv_kept, kept_ite, ite_self]; done)
    | split

@[simp] theorem cutJobs_kept (code : Code) (expired : Bool) (t : Nat) (s : State) : kept (cutJobs code expired t s) = kept s
    := by
  unfold cutJobs
  try dsimp only
  repeat' first
    | with_reducible rfl
    | (simp only [jobStop_kept, completeEnv_kept, kept_ite, ite_self, forEach_kept', implies_true]; done)
    | with_reducible refine (forEach_kept' _ _ _ fun _ _ => ?_).trans ?_
    | split

@[simp] theorem cutTask_kept (s : State) (t : Nat) (code : Code) (expired : Bool) : kept (cutTask s t code expired) = kept s
    := by
  unfold cutTask
  try dsimp only
  repeat' first
    | with_reducible rfl
    | (simp only [updTask_kept, cutJobs_kept, cutEnv_kept, forEach_kept',
       implies_true]; done)
    | split

@[simp] theorem endMeasure_kept (s : State) (t : Nat) (us : Nat) : kept (endMeasure s t us) = kept s := by
  unfold endMeasure
  try dsimp only
  repeat' first
    | with_reducible rfl
    | (simp only [measureTask_kept, updTask_kept, kept_ite, ite_self]; done)
    | split

@[simp] theorem expireItems_kept (s : State) (t : Nat) : kept (expireItems s t) = kept s := by
  unfold expireItems
  try dsimp only
  repeat' first
    | with_reducible rfl
    | (simp only [updTask_kept, updQueue_kept]; done)
    | split

@[simp] theorem taskDeadline_kept (s : State) (t : Nat) : kept (taskDeadline s t) = kept s := by
  unfold taskDeadline
  try dsimp only
  repeat' first
    | with_reducible rfl
    | (simp only [updQwin_kept, cutTask_kept, expireItems_kept, endMeasure_kept, kept_ite, ite_self]; done)
    | split

theorem execTaskDeadline_kept (task : Nat) (s : State) : ∃ out, execTaskDeadline task s = .next out ∧ kept out = kept s :=
  ⟨_, rfl, by simp⟩

@[simp] theorem unfoldReq_kept (s : State) (t : Nat) (r : MemReq) : kept (unfoldReq s t r) = kept s := by
  unfold unfoldReq
  try dsimp only
  repeat' first
    | with_reducible rfl
    | (simp only [unfoldGranule_kept, kept_ite, ite_self]; done)
    | split

@[simp] theorem withdraw_kept (s : State) (x : Nat × MemReq) : kept (withdraw s x) = kept s := by
  unfold withdraw
  try dsimp only
  repeat' first
    | with_reducible rfl
    | (simp only [countOutstanding_kept, takeReq_kept, unfoldReq_kept, coreRespond_kept, refusalRec_kept, emit_kept,
       answerAcc_kept]; done)
    | split

@[simp] theorem ctxLeft_kept (s : State) (c : Nat) (old : Nat) : kept (ctxLeft s c old) = kept s := by
  unfold ctxLeft
  rw [updAcct_kept, xltCtxLeft_kept]
  exact foldl_kept withdraw withdraw_kept _ s

@[simp] theorem tearTasks_kept (s : State) (n : Nat) (c : Nat) (old : Nat) : kept (tearTasks s n c old) = kept s :=
  by simp [tearTasks]

@[simp] theorem abortClearing_kept (g : Nat) (src : Nat) (s : State) (n : Nat) : kept (abortClearing g src s n) = kept s := by
  unfold abortClearing
  try dsimp only
  repeat' first
    | with_reducible rfl
    | (simp only [cutTask_kept, endMeasure_kept, raise_kept, kept_ite, ite_self]; done)
    | with_reducible refine (forEach_kept' _ _ _ fun _ _ => ?_).trans ?_
    | (simp only [raise_kept, kept_ite]; with_reducible refine (forEach_kept' _ _ _ fun _ _ => ?_).trans ?_)
    | (simp only [raise_kept, kept_ite]; exact enterStore_kept _ _ _ (by assumption))
    | exact enterStore_kept _ _ _ (by assumption)
    | (simp only [raise_kept, kept_ite]; split)
    | split
    | (refine kept_of ?_ ?_ ?_ ?_ ?_ ?_ <;> first
        | with_reducible rfl
        | (simp [*, in_kept_prito, in_kept_hold, in_kept_passwd, in_kept_fenceTo, in_kept_hb, in_kept_pending]; done))

@[simp] theorem localAbort_kept (s : State) (g : Nat) (src : Nat) : kept (localAbort s g src) = kept s := by simp [localAbort]

@[simp] theorem fenceTask_kept (s : State) (t : Nat) : kept (fenceTask s t) = kept s := by
  unfold fenceTask
  try dsimp only
  repeat' first
    | with_reducible rfl
    | (simp only [updTask_kept, updEnv_kept, leftRewrites_kept, stopEnv_kept, kept_ite, ite_self]; done)
    | with_reducible refine (forEach_kept' _ _ _ fun _ _ => ?_).trans ?_
    | split

@[simp] theorem endTasks_kept (s : State) (n : Nat) : kept (endTasks s n) = kept s := by simp [endTasks]

@[simp] theorem fenceShared_kept (s : State) (n : Nat) : kept (fenceShared s n) = kept s := by simp [fenceShared]

@[simp] theorem stopUnits_kept (s : State) (n : Nat) : kept (stopUnits s n) = kept s := by
  unfold stopUnits
  try dsimp only
  repeat' first
    | with_reducible rfl
    | (simp only [engineReset_kept, updJob_kept, freezeReset_kept, releaseCores_kept, forEach_kept', implies_true]; done)
    | with_reducible refine (forEach_kept' _ _ _ fun _ _ => ?_).trans ?_
    | split

@[simp] theorem clearQueues_kept (s : State) (base : Nat) (count : Nat) : kept (clearQueues s base count) = kept s := by
  unfold clearQueues
  dsimp only
  simp only [disableDone_kept, unspillAll_kept, updQue_kept, kept_record_err, forEach_kept',
    implies_true]

@[simp] theorem leaveRewrites_kept (s : State) (n : Nat) : kept (leaveRewrites s n) = kept s := by simp [leaveRewrites]

@[simp] theorem leaveRows_kept (s : State) (n : Nat) : kept (leaveRows s n) = kept s :=
  by simp [leaveRows]

@[simp] theorem leaveUpdates_kept (s : State) (n : Nat) : kept (leaveUpdates s n) = kept s := by simp [leaveUpdates]

@[simp] theorem clearStreams_kept (s : State) (n : Nat) : kept (clearStreams s n) = kept s := by
  unfold clearStreams
  dsimp only
  simp only [leaveUpdates_kept, leaveRewrites_kept, leaveRows_kept, releaseCores_kept, updSch_kept, kept_record_err, forEach_kept', implies_true]

@[simp] theorem resetCore_kept (s : State) (c : Nat) : kept (resetCore s c) = kept s := by simp [resetCore]

@[simp] theorem enterResetting_kept (s : State) (n : Nat) : kept (enterResetting s n) = kept s := by simp [enterResetting]

@[simp] theorem releaseUnits_kept (s : State) (n : Nat) (new : Option ClearingCfg) : kept (releaseUnits s n new) = kept s := by
  unfold releaseUnits
  dsimp only
  simp only [clearStreams_kept, clearQueues_kept, zeroiseSlots_kept, engineReset_kept, resetCore_kept, requesterGone_kept,
    canopyReset_kept, tableReset_kept, updQue_kept, forEach_kept',
    implies_true]

@[simp] theorem reserveQuota_kept (s : State) (n : Nat) : kept (reserveQuota s n) = kept s := by rfl

/-! FenceOps. -/

@[simp] theorem leaveLive_kept (s : State) (c : Nat) (st : CtxState) : kept (leaveLive s c st) = kept s := by simp [leaveLive]

@[simp] theorem freeCtx_kept (s : State) (c : Nat) : kept (freeCtx s c) = kept s := by
  unfold freeCtx
  try dsimp only
  repeat' first
    | with_reducible rfl
    | (simp only [updCtx_kept, updWin_kept, kept_ite, ite_self]; done)
    | split

@[simp] theorem beginFence_kept (s : State) (n : Nat) (cause : Nat) : kept (beginFence s n cause) = kept s := by
  unfold beginFence
  dsimp only
  simp only [leaveLive_kept, updClr_kept, updWin_kept, setClrState_kept, sendAbort_kept, raise_kept, fenceShared_kept,
    endTasks_kept, kept_ite, kept_record_err, ite_self, forEach_kept', implies_true]

@[simp] theorem resetEvent_kept (s : State) (n : Nat) (cause : Nat) : kept (resetEvent s n cause) = kept s := by
  unfold resetEvent
  try dsimp only
  repeat' first
    | with_reducible rfl
    | (simp only [beginFence_kept]; done)
    | split

@[simp] theorem fenceStop_kept (s : State) (n : Nat) : kept (fenceStop s n) = kept s := by
  unfold fenceStop
  try dsimp only
  repeat' first
    | with_reducible rfl
    | (simp only [stopUnits_kept, updClr_kept, kept_ite, ite_self]; done)
    | split

@[simp] theorem fenceDrained_kept (s : State) (n : Nat) : kept (fenceDrained s n) = kept s := by simp [fenceDrained]

@[simp] theorem flrRaise_kept (s : State) : kept (flrRaise s) = kept s := by simp [flrRaise]

@[simp] theorem resetDone_kept (s : State) (n : Nat) : kept (resetDone s n) = kept s := by
  unfold resetDone
  dsimp only
  simp only [updClr_kept, updWin_kept, setClrState_kept, resetMeas_kept, resetTun_kept, raise_kept, flrRaise_kept,
    issueManifest_kept, kept_ite, ite_self]

theorem clrOperation_kept (s : State) (n op timeout : Nat) : kept ((clrOperation s n op timeout).getD s) = kept s := by
  unfold clrOperation
  split <;> simp

@[simp] theorem clrCommand_kept (q : Requester) (w : Word) (s : State) : kept (clrCommand q w s) = kept s := by
  unfold clrCommand
  refine globalCmd_kept q s _ ?_
  exact checked_kept _ _ _ (clrOperation_kept s _ _ _)

theorem execClrOpen_kept (q : Requester) (w : Word) (s : State) : ∃ out, execClrOpen q w s = .next out ∧ kept out = kept s :=
  ⟨_, rfl, by simp⟩

theorem execClrQuiesce_kept (q : Requester) (w : Word) (s : State) : ∃ out, execClrQuiesce q w s = .next out ∧ kept out = kept
    s :=
  ⟨_, rfl, by simp⟩

theorem execClrClose_kept (q : Requester) (w : Word) (s : State) : ∃ out, execClrClose q w s = .next out ∧ kept out = kept s
    :=
  ⟨_, rfl, by simp⟩

theorem execClrReset_kept (q : Requester) (w : Word) (s : State) : ∃ out, execClrReset q w s = .next out ∧ kept out = kept s
    :=
  ⟨_, rfl, by simp⟩

theorem execQuiesceTimerExpire_kept (n : Nat) (s : State) : ∃ out, execQuiesceTimerExpire n s = .next out ∧ kept out = kept s
    :=
  ⟨_, rfl, by simp⟩

theorem execFenceDrained_kept (n : Nat) (s : State) : ∃ out, execFenceDrained n s = .next out ∧ kept out = kept s :=
  ⟨_, rfl, by simp⟩

theorem execClearingResetDone_kept (n : Nat) (s : State) : ∃ out, execClearingResetDone n s = .next out ∧ kept out = kept s :=
  ⟨_, rfl, by simp⟩

theorem execManifestIssueDone_kept (n : Nat) (s : State) : ∃ out, execManifestIssueDone n s = .next out ∧ kept out = kept s :=
  ⟨_, rfl, by simp⟩

@[simp] theorem nonce1Write_kept (q : Requester) (n : Nat) (w : Word) (s : State) : kept (nonce1Write q n w s) = kept s :=
  by simp [nonce1Write]

theorem execClrNonce1Write_kept (q : Requester) (n : Nat) (w : Word) (s : State) : ∃ out, execClrNonce1Write q n w s = .next
    out ∧ kept out = kept s :=
  ⟨_, rfl, by simp⟩

@[simp] theorem createCtx_kept (s : State) (n : Nat) (c : Nat) : kept (createCtx s n c) = kept s := by
  unfold createCtx
  dsimp only
  simp only [updAcct_kept, updCtx_kept]

@[simp] theorem tearDown_kept (s : State) (n : Nat) (c : Nat) : kept (tearDown s n c) = kept s := by simp [tearDown]

@[simp] theorem ctxCommand_kept (q : Requester) (n : Nat) (w : Word) (s : State) : kept (ctxCommand q n w s) = kept s := by
  unfold ctxCommand
  try dsimp only
  repeat' first
    | with_reducible rfl
    | (simp only [windowCmd_kept, checked_kept, createCtx_kept, freeCtx_kept, leaveLive_kept, tearDown_kept, updWin_kept]; done)
    | split

theorem execCtxCreate_kept (q : Requester) (n : Nat) (w : Word) (s : State) : ∃ out, execCtxCreate q n w s = .next out ∧ kept
    out = kept s :=
  ⟨_, rfl, by simp⟩

theorem execCtxDestroy_kept (q : Requester) (n : Nat) (w : Word) (s : State) : ∃ out, execCtxDestroy q n w s = .next out ∧
    kept out = kept s :=
  ⟨_, rfl, by simp⟩

theorem execCtxTeardown_kept (q : Requester) (n : Nat) (w : Word) (s : State) : ∃ out, execCtxTeardown q n w s = .next out ∧
    kept out = kept s :=
  ⟨_, rfl, by simp⟩

theorem execContextDrained_kept (c : Nat) (s : State) : ∃ out, execContextDrained c s = .next out ∧ kept out = kept s :=
  ⟨_, rfl, by simp⟩

@[simp] theorem functionGone_kept (s : State) (f : Nat) : kept (functionGone s f) = kept s := by simp [functionGone]

@[simp] theorem functionReset_kept (s : State) (f : Nat) : kept (functionReset s f) = kept s := by simp [functionReset]

/-! ImageCmds. -/

@[simp] theorem updImg_kept (s : State) (f : Img → Img) : kept (updImg s f) = kept s := by rfl

@[simp] theorem remeasure_kept (was : State) (i : Nat) (s : State) : kept (remeasure was i s) = kept s := by simp [remeasure]

@[simp] theorem emptyStaging_kept (s : State) : kept (emptyStaging s) = kept s := by rfl

@[simp] theorem endImgCmd_kept (s : State) (c : Code) : kept (endImgCmd s c) = kept s := by simp [endImgCmd]

@[simp] theorem hostReadSpan_kept : ∀ (k : Nat) (s : State) (a n : Nat), kept (hostReadSpan k s a n) = kept s
  | 0, _, _, _ => rfl
  | k + 1, s, a, n => by
    unfold hostReadSpan
    dsimp only
    split
    · rfl
    · rw [hostReadSpan_kept k, emit_kept]

@[simp] theorem imgLoadBegin_kept (s : State) : kept (imgLoadBegin s) = kept s := by simp [imgLoadBegin]

@[simp] theorem stageTraffic_kept (s : State) (bs : List Byte) : kept (stageTraffic s bs) = kept s := by simp [stageTraffic]

@[simp] theorem imgLoadEnd_kept (s : State) (r : HostRead) : kept (imgLoadEnd s r) = kept s := by
  unfold imgLoadEnd
  try dsimp only
  repeat' first
    | with_reducible rfl
    | (simp only [endImgCmd_kept, stageTraffic_kept, updImg_kept]; done)
    | split

@[simp] theorem releaseClearing_kept (s : State) (n : Nat) (new : Option ClearingCfg) : kept (releaseClearing s n new) = kept
    s := by
  unfold releaseClearing
  try dsimp only
  repeat' first
    | with_reducible rfl
    | (simp only [releaseUnits_kept, freeCtx_kept, leaveLive_kept, updImg_kept]; done)
    | with_reducible refine (forEach_kept' _ _ _ fun _ _ => ?_).trans ?_
    | (simp only [updImg_kept]; with_reducible refine (forEach_kept' _ _ _ fun _ _ => ?_).trans ?_)
    | (simp only [releaseUnits_kept, freeCtx_kept, leaveLive_kept, updImg_kept, kept_ite, kept_record, kept_record_err,
       ite_self, forEach_kept', implies_true]; exact enterStore_kept _ _ _ (by assumption))
    | exact enterStore_kept _ _ _ (by assumption)
    | (simp only [releaseUnits_kept, freeCtx_kept, leaveLive_kept, updImg_kept, kept_ite, kept_record, kept_record_err,
       ite_self, forEach_kept', implies_true]; split)
    | split
    | (refine kept_of ?_ ?_ ?_ ?_ ?_ ?_ <;> first
        | with_reducible rfl
        | (simp [*, in_kept_prito, in_kept_hold, in_kept_passwd, in_kept_fenceTo, in_kept_hb, in_kept_pending]; done))

@[simp] theorem defineClearing_kept (s : State) (n : Nat) (g : ClearingCfg) (digest : BitVec 384) (staged : Bool) : kept
    (defineClearing s n g digest staged) = kept s := by
  unfold defineClearing
  dsimp only
  simp only [setClr_kept, updWin_kept, reserveQuota_kept, setClrState_kept, resetMeas_kept, resetTun_kept]

@[simp] theorem deferMap_kept (s : State) (im : Image) (n : Nat) : kept (deferMap s im n) = kept s := by rfl

@[simp] theorem applyChange_kept (s : State) (im : Image) (n : Nat) : kept (applyChange s im n) = kept s := by
  unfold applyChange
  try dsimp only
  repeat' first
    | with_reducible rfl
    | (simp only [releaseClearing_kept, deferMap_kept, updImg_kept, remeasure_kept, issueManifest_kept, emptyRing_kept,
       defineClearing_kept, setClrState_kept, setClr_kept, kept_ite, ite_self]; done)
    | split

@[simp] theorem applyOutcome_kept (s : State) (n : Nat) : kept (applyOutcome s n).2 = kept s := by
  unfold applyOutcome
  try dsimp only
  repeat' first
    | with_reducible rfl
    | (simp only [applyChange_kept]; done)
    | split

@[simp] theorem flashImageBegin_kept (s : State) (bs : List Byte) : kept (flashImageBegin s bs) = kept s :=
  by simp [flashImageBegin]

@[simp] theorem commitImage_kept (s : State) (im : Image) : kept (commitImage s im) = kept s := by simp [commitImage]

@[simp] theorem commitRun_kept (s : State) (flash : Bool) : kept (commitRun s flash) = kept s := by
  unfold commitRun
  try dsimp only
  repeat' first
    | with_reducible rfl
    | (simp only [endImgCmd_kept, commitImage_kept, flashImageBegin_kept, kept_ite, ite_self]; done)
    | split

@[simp] theorem flashRun_kept (s : State) : kept (flashRun s) = kept s := by
  unfold flashRun
  try dsimp only
  repeat' first
    | with_reducible rfl
    | (simp only [endImgCmd_kept, flashImageBegin_kept, kept_ite, ite_self]; done)
    | split

@[simp] theorem discardRun_kept (s : State) : kept (discardRun s) = kept s := by simp [discardRun]

@[simp] theorem settingsBegin_kept (s : State) (t : Settings) : kept (settingsBegin s t) = kept s := by simp [settingsBegin]

@[simp] theorem settingsRun_kept (s : State) (r : HostRead) : kept (settingsRun s r) = kept s := by
  unfold settingsRun
  try dsimp only
  repeat' first
    | with_reducible rfl
    | (simp only [endImgCmd_kept, hostReadSpan_kept, settingsBegin_kept, kept_ite, ite_self]; done)
    | split

@[simp] theorem settingsWritten_kept (s : State) (t : Settings) : kept (settingsWritten s t) = kept s :=
  by simp [settingsWritten]

@[simp] theorem flashEnd_kept (s : State) (ok : Bool) : kept (flashEnd s ok) = kept s := by
  unfold flashEnd
  try dsimp only
  repeat' first
    | with_reducible rfl
    | (simp only [endImgCmd_kept, updImg_kept, settingsWritten_kept]; done)
    | split

@[simp] theorem imgCommand_kept (q : Requester) (w : Word) (r : HostRead) (s : State) : kept (imgCommand q w r s) = kept s := by
  unfold imgCommand
  try dsimp only
  repeat' first
    | with_reducible rfl
    | (simp only [globalCmd_kept, checked_kept, imgLoadBegin_kept, endImgCmd_kept, applyOutcome_kept, commitRun_kept,
       discardRun_kept, flashRun_kept, settingsRun_kept]; done)
    | split

theorem execImgLoad_kept (q : Requester) (w : Word) (s : State) : ∃ out, execImgLoad q w s = .next out ∧ kept out = kept s :=
  ⟨_, rfl, by simp⟩

theorem execImgLoadDone_kept (r : HostRead) (s : State) : ∃ out, execImgLoadDone r s = .next out ∧ kept out = kept s :=
  ⟨_, rfl, by simp⟩

theorem execImgApply_kept (q : Requester) (w : Word) (s : State) : ∃ out, execImgApply q w s = .next out ∧ kept out = kept s
    :=
  ⟨_, rfl, by simp⟩

theorem execImgCommit_kept (q : Requester) (w : Word) (s : State) : ∃ out, execImgCommit q w s = .next out ∧ kept out = kept s
    :=
  ⟨_, rfl, by simp⟩

theorem execImgDiscard_kept (q : Requester) (w : Word) (s : State) : ∃ out, execImgDiscard q w s = .next out ∧ kept out = kept
    s :=
  ⟨_, rfl, by simp⟩

theorem execImgFlash_kept (q : Requester) (w : Word) (s : State) : ∃ out, execImgFlash q w s = .next out ∧ kept out = kept s
    :=
  ⟨_, rfl, by simp⟩

theorem execImgSettings_kept (q : Requester) (w : Word) (r : HostRead) (s : State) : ∃ out, execImgSettings q w r s = .next
    out ∧ kept out = kept s :=
  ⟨_, rfl, by simp⟩

@[simp] theorem plotScrubDone_kept (s : State) (p : Nat) : kept (plotScrubDone s p) = kept s := by
  unfold plotScrubDone
  try dsimp only
  repeat' first
    | with_reducible rfl
    | (simp only [updImg_kept, kept_ite, ite_self]; done)
    | split

theorem execPlotScrubDone_kept (plot : Nat) (s : State) : ∃ out, execPlotScrubDone plot s = .next out ∧ kept out = kept s :=
  ⟨_, rfl, by simp⟩

theorem execFunctionLevelReset_kept (f : Nat) (s : State) : ∃ out, execFunctionLevelReset f s = .next out ∧ kept out = kept s
    :=
  ⟨_, rfl, by simp⟩

/-- R99 gives three of the bounded registers their reset values. -/
theorem globalFields_kept (s : State) : kept (globalFields s) = { kept s with prito := 10000, hold := 100, passwd := 10 } := by
  unfold globalFields
  refine (forEach_kept' _ _ _ fun s n => ?_).trans ((forEach_kept' _ _ _ fun s n => ?_).trans rfl)
  · rw [resetTun_kept, reserveQuota_kept]
  · exact updLs_kept s n _

@[simp] theorem freeQuarantine_kept (s : State) : kept (freeQuarantine s) = kept s := by rfl

@[simp] theorem issueRetuned_kept (was : State) (s : State) : kept (issueRetuned was s) = kept s := by simp [issueRetuned]

@[simp] theorem dropWeights_kept (s : State) (n : Nat) : kept (dropWeights s n) = kept s :=
  by simp [dropWeights]

theorem physicalReset_kept (s : State) (fs : List Nat) :
    kept (physicalReset s fs) = { kept s with prito := 10000, hold := 100, passwd := 10 } := by
  unfold physicalReset
  dsimp only
  generalize hx : forEach _ _ dropWeights = x
  simp only [flrRaise_kept, kept_record_err]
  subst hx
  rw [forEach_kept' _ _ _ fun s n => dropWeights_kept s n, issueRetuned_kept, globalFields_kept]
  rw [forEach_kept' _ _ _ fun s f => functionGone_kept s f, freeQuarantine_kept, forEach_kept' _ _ _ fun s n => resetEvent_kept s n 2]
  (repeat' split) <;> simp

@[simp] theorem earlyReset_kept (s : State) (fs : List Nat) : kept (earlyReset s fs) = kept s := by simp [earlyReset]

@[simp] theorem vfEnable_kept (s : State) (k : Nat) : kept (vfEnable s k) = kept s := by simp [vfEnable]

theorem execVfEnableChange_kept (numVfs : Nat) (s : State) : ∃ out, execVfEnableChange numVfs s = .next out ∧ kept out = kept
    s :=
  ⟨_, rfl, by simp⟩

@[simp] theorem resetSlow_kept (s : State) (n : Nat) : kept (resetSlow s n) = kept s := by
  unfold resetSlow
  dsimp only
  simp only [raise_kept, emit_kept, kept_ite, kept_record_err, ite_self, forEach_kept', implies_true]

theorem execResetSlow_kept (n : Nat) (s : State) : ∃ out, execResetSlow n s = .next out ∧ kept out = kept s :=
  ⟨_, rfl, by simp⟩

/-! BringUp. -/

@[simp] theorem updBoot_kept (s : State) (f : Boot → Boot) : kept (updBoot s f) = kept s := by rfl

theorem warmState_kept (s : State) : kept (warmState s) = ⟨10000, 100, 10, 20000, 10, s.pending⟩ := rfl

theorem powerOnState_kept (s : State) : kept (powerOnState s) = ⟨10000, 100, 10, 20000, 10, s.pending⟩ := rfl

@[simp] theorem stopBoot_kept (s : State) (cause : Nat) (detail : Nat) (whr : Nat) : kept (stopBoot s cause detail whr) = kept
    s :=
  by simp [stopBoot]

@[simp] theorem noteCause_kept (s : State) (cause : Nat) (detail : Code) : kept (noteCause s cause detail) = kept s :=
  by simp [noteCause]

@[simp] theorem resetDeasserted_kept (s : State) (puf : List Bool) : kept (resetDeasserted s puf) = kept s :=
  by simp [resetDeasserted]

theorem execResetDeasserted_kept (puf : List Bool) (s : State) : ∃ out, execResetDeasserted puf s = .next out ∧ kept out =
    kept s :=
  ⟨_, rfl, by simp⟩

theorem execRomPhaseEnd_kept (s : State) : ∃ out, execRomPhaseEnd s = .next out ∧ kept out = kept s := ⟨_, rfl, by simp⟩

@[simp] theorem startupRec_kept (s : State) (what : Nat) (lines : Nat) : kept (startupRec s what lines) = kept s :=
  by simp [startupRec]

@[simp] theorem findFlash_kept (s : State) (i : RootInputs) : kept (findFlash s i) = kept s := by
  unfold findFlash
  dsimp only
  simp only [updBoot_kept, noteCause_kept, stopBoot_kept, startupRec_kept, kept_ite, ite_self]

@[simp] theorem findRoot_kept (s : State) (i : RootInputs) : kept (findRoot s i) = kept s := by
  unfold findRoot
  try dsimp only
  repeat' first
    | with_reducible rfl
    | (simp only [updBoot_kept, noteCause_kept, stopBoot_kept, kept_ite, ite_self]; done)
    | split

@[simp] theorem chooseSettings_kept (s : State) (i : RootInputs) : kept (chooseSettings s i) = kept s := by
  unfold chooseSettings
  dsimp only
  simp only [updBoot_kept, startupRec_kept, kept_ite, ite_self]

@[simp] theorem rootPhase_kept (s : State) (i : RootInputs) : kept (rootPhase s i) = kept s := by simp [rootPhase]

theorem execRotLcValid_kept (inp : RootInputs) (s : State) : ∃ out, execRotLcValid inp s = .next out ∧ kept out = kept s :=
  ⟨_, rfl, by simp⟩

theorem execRotLcTimeout_kept (s : State) : ∃ out, execRotLcTimeout s = .next out ∧ kept out = kept s := ⟨_, rfl, by simp⟩

@[simp] theorem enterBare_kept (s : State) : kept (enterBare s) = kept s := by rfl

@[simp] theorem memoryEnd_kept (s : State) (i : MemoryInputs) : kept (memoryEnd s i) = kept s := by
  unfold memoryEnd
  try dsimp only
  repeat' first
    | with_reducible rfl
    | (simp only [stopBoot_kept, updBoot_kept, updPch_kept, enterBare_kept, kept_ite, kept_record_err, ite_self,
       forEach_kept', implies_true]; done)
    | split

theorem execMemoryPhaseEnd_kept (inp : MemoryInputs) (s : State) : ∃ out, execMemoryPhaseEnd inp s = .next out ∧ kept out =
    kept s :=
  ⟨_, rfl, by simp⟩

theorem execMemoryPhaseTimeout_kept (stack : Nat) (s : State) : ∃ out, execMemoryPhaseTimeout stack s = .next out ∧ kept out =
    kept s :=
  ⟨_, rfl, by simp⟩

@[simp] theorem acceptImage_kept (s : State) (im : Image) (inFlash : Bool) : kept (acceptImage s im inFlash) = kept s := by
  unfold acceptImage
  try dsimp only
  repeat' first
    | with_reducible rfl
    | (simp only [stopBoot_kept, updImg_kept, updCal_kept, defineClearing_kept, failPch_kept, updBoot_kept, forEach_kept', implies_true]; done)
    | split

@[simp] theorem flashImageRead_kept (s : State) (bs : List Byte) : kept (flashImageRead s bs) = kept s := by
  unfold flashImageRead
  try dsimp only
  repeat' first
    | with_reducible rfl
    | (simp only [stageTraffic_kept, acceptImage_kept, updImg_kept, enterBare_kept, noteCause_kept]; done)
    | split

theorem execFlashImageReadDone_kept (bs : List Byte) (s : State) : ∃ out, execFlashImageReadDone bs s = .next out ∧ kept out =
    kept s :=
  ⟨_, rfl, by simp⟩

theorem execImageReadTimeout_kept (s : State) : ∃ out, execImageReadTimeout s = .next out ∧ kept out = kept s :=
  ⟨_, rfl, by simp⟩

theorem execStartupScrubDone_kept (s : State) : ∃ out, execStartupScrubDone s = .next out ∧ kept out = kept s :=
  ⟨_, rfl, by simp⟩

@[simp] theorem startSolitary_kept (s : State) (how : Nat) : kept (startSolitary s how) = kept s := by rfl

@[simp] theorem trailPhase_kept (s : State) : kept (trailPhase s) = kept s := by
  unfold trailPhase
  dsimp only
  simp only [updBoot_kept, startSolitary_kept, updTrl_kept, trainBegin_kept, kept_ite, ite_self]

theorem execPowerPhaseEnd_kept (s : State) : ∃ out, execPowerPhaseEnd s = .next out ∧ kept out = kept s := ⟨_, rfl, by simp⟩

@[simp] theorem stopLate_kept (s : State) (n : Nat) : kept (stopLate s n) = kept s :=
  by simp [stopLate]

@[simp] theorem phaseTimeout_kept (s : State) : kept (phaseTimeout s) = kept s := by
  unfold phaseTimeout
  try dsimp only
  repeat' first
    | with_reducible rfl
    | (simp only [stopLate_kept]; done)
    | split

theorem execPhaseTimeout_kept (s : State) : ∃ out, execPhaseTimeout s = .next out ∧ kept out = kept s := ⟨_, rfl, by simp⟩

theorem execStartupBoundary_kept (s : State) : ∃ out, execStartupBoundary s = .next out ∧ kept out = kept s :=
  ⟨_, rfl, by simp⟩

theorem execTrailTrainingTimeout_kept (s : State) : ∃ out, execTrailTrainingTimeout s = .next out ∧ kept out = kept s :=
  ⟨_, rfl, by simp⟩

theorem execLaunchWaitTimeout_kept (s : State) : ∃ out, execLaunchWaitTimeout s = .next out ∧ kept out = kept s :=
  ⟨_, rfl, by simp⟩

@[simp] theorem advanceGens_kept (s : State) : kept (advanceGens s) = kept s := by
  unfold advanceGens
  try dsimp only
  repeat' first
    | with_reducible rfl
    | (simp only [updCtx_kept, forEach_kept', implies_true]; done)
    | split

@[simp] theorem firstTick_kept (s : State) : kept (firstTick s) = kept s := by
  unfold firstTick
  dsimp only
  simp only [openCclk_kept, advanceGens_kept, updBoot_kept, standingCauses_kept, updCal_kept, stageIn_kept, removeRecv_kept,
    freeLocks_kept, heartbeatSend_kept, trailRec_kept, firstTickTrust_kept, driveUrgency_kept, overcommitNow_kept, issueAll_kept,
    kept_ite, kept_record_err, ite_self, forEach_kept', implies_true]

theorem execFirstTick_kept (s : State) : ∃ out, execFirstTick s = .next out ∧ kept out = kept s := ⟨_, rfl, by simp⟩

@[simp] theorem bootAck_kept (s : State) (c : Code) : kept (bootAck s c) = kept s := by simp [bootAck]

@[simp] theorem bootMessage_kept (s : State) : kept (bootMessage s) = kept s := by
  unfold bootMessage
  try dsimp only
  repeat' first
    | with_reducible rfl
    | (simp only [takeMsg_kept, ackTaken_kept, updBoot_kept, hostReadSpan_kept]; done)
    | split

theorem execBootImage_kept (s : State) : ∃ out, execBootImage s = .next out ∧ kept out = kept s := ⟨_, rfl, by simp⟩

theorem execBootSettings_kept (s : State) : ∃ out, execBootSettings s = .next out ∧ kept out = kept s := ⟨_, rfl, by simp⟩

@[simp] theorem bootImageRead_kept (s : State) (flash : Bool) (len : Nat) (bs : List Byte) : kept (bootImageRead s flash len
    bs) = kept s := by
  unfold bootImageRead
  try dsimp only
  repeat' first
    | with_reducible rfl
    | (simp only [stageTraffic_kept, bootAck_kept, updImg_kept, emit_kept, acceptImage_kept, kept_ite, ite_self]; done)
    | split

@[simp] theorem bootSettingsRead_kept (s : State) (bs : List Byte) : kept (bootSettingsRead s bs) = kept s :=
  by simp [bootSettingsRead]

@[simp] theorem bootDelivery_kept (s : State) (r : HostRead) : kept (bootDelivery s r) = kept s := by
  unfold bootDelivery
  try dsimp only
  repeat' first
    | with_reducible rfl
    | (simp only [bootAck_kept, updBoot_kept, bootImageRead_kept, bootSettingsRead_kept, kept_ite, ite_self]; done)
    | split

theorem execBootDeliveryDone_kept (r : HostRead) (s : State) : ∃ out, execBootDeliveryDone r s = .next out ∧ kept out = kept s
    :=
  ⟨_, rfl, by simp⟩

@[simp] theorem bootFlashEnd_kept (s : State) (ok : Bool) : kept (bootFlashEnd s ok) = kept s := by
  unfold bootFlashEnd
  try dsimp only
  repeat' first
    | with_reducible rfl
    | (simp only [updImg_kept, acceptImage_kept, bootAck_kept, updBoot_kept, settingsWritten_kept, kept_ite, ite_self]; done)
    | split

@[simp] theorem keyFlashEnd_kept (s : State) (ok : Bool) : kept (keyFlashEnd s ok) = kept s := by
  unfold keyFlashEnd
  try dsimp only
  repeat' first
    | with_reducible rfl
    | (simp only [updKey_kept, keyEnd_kept, updBoot_kept, kept_ite, ite_self]; done)
    | split

@[simp] theorem flashOpEnd_kept (s : State) (ok : Bool) : kept (flashOpEnd s ok) = kept s := by simp [flashOpEnd]

theorem execFlashWriteDone_kept (s : State) : ∃ out, execFlashWriteDone s = .next out ∧ kept out = kept s := ⟨_, rfl, by simp⟩

theorem execFlashOpTimeout_kept (s : State) : ∃ out, execFlashOpTimeout s = .next out ∧ kept out = kept s := ⟨_, rfl, by simp⟩

@[simp] theorem abandonDelivery_kept (s : State) : kept (abandonDelivery s) = kept s := by
  unfold abandonDelivery
  try dsimp only
  repeat' first
    | with_reducible rfl
    | (simp only [bootAck_kept, updBoot_kept]; done)
    | split

/-! Recovery. -/

@[simp] theorem taskEnd_kept (s : State) (t : Nat) : kept (taskEnd s t) = kept s := by
  unfold taskEnd
  try dsimp only
  repeat' first
    | with_reducible rfl
    | (simp only [queueSettle_kept, addLast_kept, updTask_kept, kept_ite, ite_self]; done)
    | split

theorem execTaskEnd_kept (task : Nat) (s : State) : ∃ out, execTaskEnd task s = .next out ∧ kept out = kept s :=
  ⟨_, rfl, by simp⟩

@[simp] theorem abortGroup_kept (s : State) (g : Nat) : kept (abortGroup s g) = kept s := by
  unfold abortGroup
  try dsimp only
  repeat' first
    | with_reducible rfl
    | (simp only [sendAbort_kept, raise_kept, emit_kept, updTrl_kept, kept_ite, ite_self]; done)
    | split

@[simp] theorem halt_kept (s : State) (c : Code) : kept (halt s c) = kept s := by
  unfold halt
  dsimp only
  simp only [raiseWide_kept, triggerDump_kept, beginFence_kept, sendAbort_kept, kept_record_err,
    forEach_kept', implies_true]

@[simp] theorem faultEffect_kept (s : State) (d : Nat) : kept (faultEffect s d) = kept s := by
  unfold faultEffect
  dsimp only
  simp only [failCore_kept, failEngine_kept, trailOff_kept, startSolitary_kept, updBoot_kept, stopBoot_kept,
    requesterGone_kept, halt_kept, kept_ite, ite_self, forEach_kept', implies_true]

@[simp] theorem domainFault_kept (s : State) (d : Nat) (how : Nat) : kept (domainFault s d how) = kept s :=
  by simp [domainFault]

theorem execPowerFault_kept (d : Nat) (state3 : Bool) (s : State) : ∃ out, execPowerFault d state3 s = .next out ∧ kept out =
    kept s :=
  ⟨_, rfl, by simp⟩

theorem execPowerAckTimeout_kept (d : Nat) (s : State) : ∃ out, execPowerAckTimeout d s = .next out ∧ kept out = kept s :=
  ⟨_, rfl, by simp⟩

@[simp] theorem fwException_kept (s : State) (t : FwTrap) : kept (fwException s t) = kept s := by simp [fwException]

theorem execFwException_kept (t : FwTrap) (s : State) : ∃ out, execFwException t s = .next out ∧ kept out = kept s :=
  ⟨_, rfl, by simp⟩

@[simp] theorem timeoutRec_kept (s : State) (n : Nat) (x : ErrRec → ErrRec) (source : Nat) (count : Nat) : kept (timeoutRec s
    n x source count) = kept s :=
  by simp [timeoutRec]

@[simp] theorem dropWaiting_kept (s : State) (use : Option Nat) : kept (dropWaiting s use) = kept s := by
  unfold dropWaiting
  try dsimp only
  repeat' first
    | with_reducible rfl
    | (simp only [dropAcc_kept]; done)
    | split

@[simp] theorem quarantineHost_kept (s : State) (t : Nat) : kept (quarantineHost s t) = kept s := by
  unfold quarantineHost
  try dsimp only
  repeat' first
    | with_reducible rfl
    | (simp only [dropWaiting_kept, setHostOut_kept]; done)
    | split

@[simp] theorem quarantineFab_kept (s : State) (t : Nat) : kept (quarantineFab s t) = kept s := by
  unfold quarantineFab
  try dsimp only
  repeat' first
    | with_reducible rfl
    | (simp only [dropWaiting_kept, updCore_kept, setFabOut_kept]; done)
    | split

@[simp] theorem quarantine_kept (s : State) (n : Nat) (x : ErrRec → ErrRec) (host : Nat × Option HostOut → Bool) (fab : Nat ×
    Option FabOut → Bool) : kept (quarantine s n x host fab) = kept s :=
  by simp [quarantine]

@[simp] theorem tornTimeout_kept (n : Nat) (s : State) (c : Nat) : kept (tornTimeout n s c) = kept s :=
  by simp [tornTimeout]

@[simp] theorem fenceTimeout_kept (s : State) (n : Nat) : kept (fenceTimeout s n) = kept s := by simp [fenceTimeout]

theorem execFenceTimeout_kept (n : Nat) (s : State) : ∃ out, execFenceTimeout n s = .next out ∧ kept out = kept s :=
  ⟨_, rfl, by simp⟩

@[simp] theorem hostWriteSpan_kept : ∀ (k : Nat) (s : State) (a : Nat) (l : List Byte), kept (hostWriteSpan k s a l) = kept s
  | 0, _, _, _ => rfl
  | k + 1, s, a, l => by
    unfold hostWriteSpan
    dsimp only
    split
    · rfl
    · rw [hostWriteSpan_kept k, emit_kept]

theorem execErrDumpCopyDone_kept (ok : Bool) (s : State) : ∃ out, execErrDumpCopyDone ok s = .next out ∧ kept out = kept s :=
  ⟨_, rfl, by simp⟩

@[simp] theorem errDone_kept (d : Bool) (s : State) : kept (errDone d s) = kept s := kept_of rfl rfl rfl rfl rfl rfl

@[simp] theorem errEffect_kept (s : State) (op unit group : Nat) : kept (errEffect s op unit group) = kept s := by
  unfold errEffect
  dsimp only
  split <;> rw [errDone_kept]
  · exact (kept_of rfl rfl rfl rfl rfl rfl).trans (triggerDump_kept s Config.commandedDumpCause)
  · exact (kept_of rfl rfl rfl rfl rfl rfl).trans (hostWriteSpan_kept (s.err.dump.length / 4096 + 2) s s.err.dumpDst.toNat s.err.dump)
  · exact kept_of rfl rfl rfl rfl rfl rfl
  · exact failCore_kept _ _ _
  · exact failEngine_kept _ _ _
  · exact (localAbort_kept _ _ _).trans (abortGroup_kept _ _)

@[simp] theorem errCommand_kept (q : Requester) (w : Word) (s : State) : kept (errCommand q w s) = kept s := by
  unfold errCommand
  refine globalCmd_kept q s _ ?_
  refine (kept_of (s := (checked _ s _).2) rfl rfl rfl rfl rfl rfl).trans (checked_kept _ _ _ ?_)
  exact errEffect_kept _ _ _ _

theorem execErrDump_kept (q : Requester) (w : Word) (s : State) : ∃ out, execErrDump q w s = .next out ∧ kept out = kept s :=
  ⟨_, rfl, by simp⟩

theorem execErrDumpCopy_kept (q : Requester) (w : Word) (s : State) : ∃ out, execErrDumpCopy q w s = .next out ∧ kept out =
    kept s :=
  ⟨_, rfl, by simp⟩

theorem execErrDumpRelease_kept (q : Requester) (w : Word) (s : State) : ∃ out, execErrDumpRelease q w s = .next out ∧ kept
    out = kept s :=
  ⟨_, rfl, by simp⟩

theorem execErrFailCore_kept (q : Requester) (w : Word) (s : State) : ∃ out, execErrFailCore q w s = .next out ∧ kept out =
    kept s :=
  ⟨_, rfl, by simp⟩

theorem execErrFailEngine_kept (q : Requester) (w : Word) (s : State) : ∃ out, execErrFailEngine q w s = .next out ∧ kept out
    = kept s :=
  ⟨_, rfl, by simp⟩

theorem execErrAbort_kept (q : Requester) (w : Word) (s : State) : ∃ out, execErrAbort q w s = .next out ∧ kept out = kept s
    :=
  ⟨_, rfl, by simp⟩

@[simp] theorem wabortWrite_kept (q : Requester) (n : Nat) (w : Word) (s : State) : kept (wabortWrite q n w s) = kept s :=
  by simp [wabortWrite]

theorem execErrWabort_kept (q : Requester) (n : Nat) (w : Word) (s : State) : ∃ out, execErrWabort q n w s = .next out ∧ kept
    out = kept s :=
  ⟨_, rfl, by simp⟩

@[simp] theorem headWrite_kept (s : State) (k v : Nat) : kept (headWrite s k v).2 = kept s := by
  simp [headWrite]

@[simp] theorem ringHead_kept (q : Requester) (n : Option Nat) (w : Word) (s : State) : kept (ringHead q n w s) = kept s :=
  anyWindowCmd_kept q n s _ (headWrite_kept s _ _)

theorem execRingHeadWrite_kept (q : Requester) (n : Option Nat) (w : Word) (s : State) : ∃ out, execRingHeadWrite q n w s =
    .next out ∧ kept out = kept s :=
  ⟨_, rfl, by simp⟩

/-! Responses. -/

@[simp] theorem leaveOutstanding_kept (s : State) (r : MemReq) : kept (leaveOutstanding s r) = kept s := by
  unfold leaveOutstanding
  try dsimp only
  repeat' first
    | with_reducible rfl
    | (simp only [countOutstanding_kept]; done)
    | split

@[simp] theorem scrubAnswered_kept (s : State) (p : Nat) : kept (scrubAnswered s p) = kept s := by
  unfold scrubAnswered
  try dsimp only
  repeat' first
    | with_reducible rfl
    | (simp only [kept_ite, kept_record_err, ite_self]; done)
    | split

@[simp] theorem recordAnswered_kept (s : State) (k : Nat) : kept (recordAnswered s k) = kept s :=
  by simp [recordAnswered]

@[simp] theorem deliver_kept (s : State) (r : MemReq) (a : MemAnswer) (data : List Byte) : kept (deliver s r a data) = kept s
    := by
  unfold deliver
  try dsimp only
  repeat' first
    | with_reducible rfl
    | (simp only [leaveOutstanding_kept, coreRespond_kept, accMemory_kept, emit_kept, recordAnswered_kept, scrubAnswered_kept,
       descArrived_kept]; done)
    | split

@[simp] theorem countCorrected_kept (s : State) (h : Nat) : kept (countCorrected s h) = kept s := by simp [countCorrected]

@[simp] theorem spoiledRec_kept (s : State) (r : MemReq) : kept (spoiledRec s r) = kept s := by simp [spoiledRec]

@[simp] theorem countEcc_kept (s : State) (r : MemReq) (e : Ecc) : kept (countEcc s r e) = kept s := by
  unfold countEcc
  try dsimp only
  repeat' first
    | with_reducible rfl
    | (simp only [countCorrected_kept, spoiledRec_kept, kept_record_err]; done)
    | split

@[simp] theorem latencyRec_kept (s : State) (r : MemReq) (latency : Nat) (tag : Nat) : kept (latencyRec s r latency tag) =
    kept s :=
  by simp [latencyRec]

@[simp] theorem memoryResponse_kept (s : State) (stack : Nat) (lane : Nat) (tag : Nat) (ecc : Ecc) (data : List Byte) : kept
    (memoryResponse s stack lane tag ecc data) = kept s := by
  unfold memoryResponse
  try dsimp only
  repeat' first
    | with_reducible rfl
    | (simp only [updCal_kept, countEcc_kept, latencyRec_kept, deliver_kept, kept_ite, ite_self]; done)
    | split

theorem execMemoryResponse_kept (stack : Nat) (lane : Nat) (tag : Nat) (ecc : Ecc) (data : List Byte) (s : State) : ∃ out,
    execMemoryResponse stack lane tag ecc data s = .next out ∧ kept out = kept s :=
  ⟨_, rfl, by simp⟩

@[simp] theorem memoryTimeout_kept (s : State) (stack : Nat) (lane : Nat) (tag : Nat) : kept (memoryTimeout s stack lane tag)
    = kept s := by
  unfold memoryTimeout
  try dsimp only
  repeat' first
    | with_reducible rfl
    | (simp only [updCal_kept, deliver_kept, latencyRec_kept, kept_ite, ite_self]; done)
    | split

theorem execMemoryResponseTimeout_kept (stack : Nat) (lane : Nat) (tag : Nat) (s : State) : ∃ out, execMemoryResponseTimeout
    stack lane tag s = .next out ∧ kept out = kept s :=
  ⟨_, rfl, by simp⟩

@[simp] theorem poisonTurn_kept (s : State) : kept (poisonTurn s) = kept s := by simp [poisonTurn]

/-! RotReplies. -/

@[simp] theorem xchEnd_kept (s : State) (x : Nat) (c : Code) (rsp : List Byte) : kept (xchEnd s x c rsp) = kept s := by rfl

@[simp] theorem randomCame_kept (s : State) (use : RandomUse) (bs : List Byte) : kept (randomCame s use bs) = kept s := by
  unfold randomCame
  try dsimp only
  repeat' first
    | with_reducible rfl
    | (simp only [emit_kept, updKey_kept, xchPut_kept, keyEnd_kept]; done)
    | split

@[simp] theorem settingsMoved_kept (s : State) (target : Nat) : kept (settingsMoved s target) = kept s :=
  by simp [settingsMoved]

theorem lifeCycleMoved_kept (s : State) (target : Nat) : kept (lifeCycleMoved s target) = ⟨10000, 100, 10, 20000, 10, s.pending⟩ := by
  unfold lifeCycleMoved
  rw [resetDeasserted_kept, warmState_kept, in_kept_pending]
  simp only [keyEnd_kept, kept_ite, emit_kept, ite_self, settingsMoved_kept, zeroiseSlots_kept]
  rfl

@[simp] theorem rotGiveUp_kept (s : State) (o : Nat) (use : RotUse) : kept (rotGiveUp s o use) = kept s := by
  unfold rotGiveUp
  try dsimp only
  repeat' first
    | with_reducible rfl
    | (simp only [xchEnd_kept, keyEnd_kept]; done)
    | split

@[simp] theorem rotTimeout_kept (s : State) (o : Nat) : kept (rotTimeout s o) = kept s := by
  unfold rotTimeout
  try dsimp only
  repeat' first
    | with_reducible rfl
    | (simp only [rotNext_kept, rotGiveUp_kept, updKey_kept]; done)
    | split

theorem execRotTimeout_kept (origin : Nat) (s : State) : ∃ out, execRotTimeout origin s = .next out ∧ kept out = kept s :=
  ⟨_, rfl, by simp⟩

/-! TrailLink. -/

@[simp] theorem markPeer_kept (s : State) (chip : Nat) : kept (markPeer s chip) = kept s := by simp [markPeer]

@[simp] theorem duplicateChip_kept (s : State) : kept (duplicateChip s) = kept s := by simp [duplicateChip]

@[simp] theorem frameIn_kept (s : State) (h : FrameHead) (f : State → State) (hf : ∀ x0, kept (f x0) = kept x0) : kept
    (frameIn s h f) = kept s := by
  unfold frameIn
  try dsimp only
  repeat' first
    | with_reducible rfl
    | (simp only [duplicateChip_kept, dropFrame_kept, markPeer_kept, hf, kept_ite, ite_self]; done)
    | split

@[simp] theorem tickFrame_kept (s : State) (h : FrameHead) (us : Nat) (f : State → State) (hf : ∀ x0, kept (f x0) = kept x0) :
    kept (tickFrame s h us f) = kept s := by
  unfold tickFrame
  try dsimp only
  repeat' first
    | with_reducible rfl
    | (simp only [frameIn_kept, startSolitary_kept, trailRec_kept, hf, kept_ite, ite_self,
       implies_true]; done)
    | split

@[simp] theorem retireLane_kept (s : State) (l : Nat) (f : LaneFault) (when' : Nat) : kept (retireLane s l f when') = kept s
    :=
  by simp [retireLane]

@[simp] theorem trainedLane_kept (rs : List LaneResult) (ok : BitVec 4) (s : State) (l : Nat) : kept (trainedLane rs ok s l) =
    kept s := by
  unfold trainedLane
  try dsimp only
  repeat' first
    | with_reducible rfl
    | (simp only [updLane_kept, retireLane_kept, kept_ite, ite_self]; done)
    | split

@[simp] theorem trainingDone_kept (s : State) (rs : List LaneResult) (ok : BitVec 4) (echoes : List Nat) : kept (trainingDone
    s rs ok echoes) = kept s :=
  by simp [trainingDone]

theorem execTrlTrainingDone_kept (lanes : List LaneResult) (ok : BitVec 4) (echoes : List Nat) (s : State) : ∃ out,
    execTrlTrainingDone lanes ok echoes s = .next out ∧ kept out = kept s :=
  ⟨_, rfl, by simp⟩

@[simp] theorem lanesChanged_kept (s : State) : kept (lanesChanged s) = kept s :=
  by simp [lanesChanged]

@[simp] theorem laneFaulted_kept (s : State) (l : Nat) (f : LaneFault) (errors : Nat) : kept (laneFaulted s l f errors) = kept
    s :=
  by simp [laneFaulted]

theorem execTrlLaneFault_kept (lane : Nat) (f : LaneFault) (errors : Nat) (s : State) : ∃ out, execTrlLaneFault lane f errors
    s = .next out ∧ kept out = kept s :=
  ⟨_, rfl, by simp⟩

@[simp] theorem linkState_kept (s : State) (h : FrameHead) (mask : BitVec 8) : kept (linkState s h mask) = kept s :=
  by simp [linkState]

theorem execTrlLinkState_kept (h : FrameHead) (mask : BitVec 8) (s : State) : ∃ out, execTrlLinkState h mask s = .next out ∧
    kept out = kept s :=
  ⟨_, rfl, by simp⟩

@[simp] theorem retrainTimer_kept (s : State) : kept (retrainTimer s) = kept s := by simp [retrainTimer]

theorem execTrlRetrainTimer_kept (s : State) : ∃ out, execTrlRetrainTimer s = .next out ∧ kept out = kept s :=
  ⟨_, rfl, by simp⟩

@[simp] theorem trlCmd_kept (q : Requester) (s : State) (body : State → Checked) (h : kept (body s).2 = kept s) :
    kept (trlCmd q s body) = kept s := by
  unfold trlCmd
  (repeat' split) <;> simp [h]

@[simp] theorem trailCommand_kept (q : Requester) (w : Word) (s : State) : kept (trailCommand q w s) = kept s :=
  by simp [trailCommand]

theorem execTrlRetrain_kept (q : Requester) (w : Word) (s : State) : ∃ out, execTrlRetrain q w s = .next out ∧ kept out = kept
    s :=
  ⟨_, rfl, by simp⟩

theorem execTrlSolo_kept (q : Requester) (w : Word) (s : State) : ∃ out, execTrlSolo q w s = .next out ∧ kept out = kept s :=
  ⟨_, rfl, by simp⟩

@[simp] theorem helloTimer_kept (s : State) : kept (helloTimer s) = kept s :=
  by simp [helloTimer]

theorem execTrlHelloTimer_kept (s : State) : ∃ out, execTrlHelloTimer s = .next out ∧ kept out = kept s := ⟨_, rfl, by simp⟩

@[simp] theorem helloHeard_kept (s : State) (h : FrameHead) (pm : Nat) (state : Nat) (us : Nat) : kept (helloHeard s h pm
    state us) = kept s :=
  by simp [helloHeard]

theorem execTrlHello_kept (h : FrameHead) (firstPm : Nat) (state : Nat) (tickUs : Nat) (s : State) : ∃ out, execTrlHello h
    firstPm state tickUs s = .next out ∧ kept out = kept s :=
  ⟨_, rfl, by simp⟩

@[simp] theorem agree_kept (s : State) (pm : Nat) (at' : Nat) (how : Nat) (who : Nat) : kept (agree s pm at' how who) = kept s
    :=
  by rfl

@[simp] theorem launchMaster_kept (s : State) : kept (launchMaster s) = kept s :=
  by simp [launchMaster]

theorem execTrlLaunchMasterTimeout_kept (s : State) : ∃ out, execTrlLaunchMasterTimeout s = .next out ∧ kept out = kept s :=
  ⟨_, rfl, by simp⟩

@[simp] theorem launchHeard_kept (s : State) (h : FrameHead) (pm : Nat) (us : Nat) : kept (launchHeard s h pm us) = kept s :=
  by simp [launchHeard]

theorem execTrlLaunch_kept (h : FrameHead) (pm : Nat) (leadUs : Nat) (tickUs : Nat) (s : State) : ∃ out, execTrlLaunch h pm
    leadUs tickUs s = .next out ∧ kept out = kept s :=
  ⟨_, rfl, by simp⟩

@[simp] theorem checkDrift_kept (s : State) (h : FrameHead) (pm : Nat) : kept (checkDrift s h pm) = kept s := by
  unfold checkDrift
  try dsimp only
  repeat' first
    | with_reducible rfl
    | (simp only [updTrl_kept, trailRec_kept, kept_ite, ite_self]; done)
    | split

@[simp] theorem heartbeatHeard_kept (s : State) (h : FrameHead) (pm : Nat) (us : Nat) : kept (heartbeatHeard s h pm us) = kept
    s :=
  by simp [heartbeatHeard]

theorem execTrlHeartbeat_kept (h : FrameHead) (pm : Nat) (tickUs : Nat) (s : State) : ∃ out, execTrlHeartbeat h pm tickUs s =
    .next out ∧ kept out = kept s :=
  ⟨_, rfl, by simp⟩

@[simp] theorem peerLost_kept (s : State) (chip : Nat) : kept (peerLost s chip) = kept s := by
  unfold peerLost
  try dsimp only
  repeat' first
    | with_reducible rfl
    | (simp only [trailRec_kept, updTrl_kept, kept_ite, ite_self]; done)
    | split

theorem execTrlPeerLost_kept (chip : Nat) (s : State) : ∃ out, execTrlPeerLost chip s = .next out ∧ kept out = kept s :=
  ⟨_, rfl, by simp⟩

theorem execTrailFrameDropped_kept (frame : List Byte) (s : State) : ∃ out, execTrailFrameDropped frame s = .next out ∧ kept
    out = kept s :=
  ⟨_, rfl, by simp⟩

theorem execAbortReceived_kept (h : FrameHead) (group : Nat) (postmark : Nat) (s : State) : ∃ out, execAbortReceived h group
    postmark s = .next out ∧ kept out = kept s :=
  ⟨_, rfl, by simp⟩

/-! Lockstep. -/

@[simp] theorem freezeCores_kept (s : State) (n : Nat) : kept (freezeCores s n) = kept s := by simp [freezeCores]

@[simp] theorem thawCores_kept (s : State) (n : Nat) : kept (thawCores s n) = kept s := by simp [thawCores]

@[simp] theorem freezeNow_kept (s : State) (n : Nat) (p : Nat) (cause : Nat) : kept (freezeNow s n p cause) = kept s :=
  by simp [freezeNow]

@[simp] theorem freezeDue_kept (s : State) (n : Nat) : kept (freezeDue s n) = kept s := by
  unfold freezeDue
  try dsimp only
  repeat' first
    | with_reducible rfl
    | (simp only [freezeNow_kept, freezeCores_kept, kept_ite, ite_self]; done)
    | split

@[simp] theorem mismatchRec_kept (s : State) (n : Nat) (t : Nat) (own : Nat) (other : Nat) : kept (mismatchRec s n t own
    other) = kept s :=
  by simp [mismatchRec]

@[simp] theorem missingRec_kept (s : State) (n : Nat) : kept (missingRec s n) = kept s := by simp [missingRec]

@[simp] theorem lsFind_kept (s : State) (n : Nat) (cause : Nat) : kept (lsFind s n cause) = kept s :=
  by simp [lsFind]

@[simp] theorem lsCompare_kept (s : State) (n : Nat) (t : Nat) (d : Nat) : kept (lsCompare s n t d) = kept s :=
  by simp [lsCompare]

@[simp] theorem lsHeldTurn_kept (s : State) (n : Nat) : kept (lsHeldTurn s n) = kept s := by simp [lsHeldTurn]

@[simp] theorem lsTurn_kept (s : State) : kept (lsTurn s) = kept s := by simp [lsTurn]

@[simp] theorem lsBoundary_kept (s : State) : kept (lsBoundary s) = kept s :=
  by simp [lsBoundary]

@[simp] theorem digestHeard_kept (s : State) (h : FrameHead) (n : Nat) (t : Nat) (d : Nat) : kept (digestHeard s h n t d) =
    kept s :=
  by simp [digestHeard]

theorem execTrlDigest_kept (h : FrameHead) (n : Nat) (t : Nat) (d : BitVec 128) (s : State) : ∃ out, execTrlDigest h n t d s =
    .next out ∧ kept out = kept s :=
  ⟨_, rfl, by simp⟩

@[simp] theorem freezeHeard_kept (s : State) (h : FrameHead) (n cause p : Nat) : kept (freezeHeard s h n cause p) = kept s := by
  unfold freezeHeard
  refine frameIn_kept s h _ fun s => ?_
  split
  · rfl
  · split
    · simp
    · dsimp only
      rw [updLs_kept]
      split <;> simp

theorem execTrlLsFreeze_kept (h : FrameHead) (n : Nat) (cause : Nat) (postmark : Nat) (s : State) : ∃ out, execTrlLsFreeze h n
    cause postmark s = .next out ∧ kept out = kept s :=
  ⟨_, rfl, by simp⟩

@[simp] theorem lockstepTimeout_kept (s : State) (n : Nat) : kept (lockstepTimeout s n) = kept s := by simp [lockstepTimeout]

theorem execLockstepTimeout_kept (n : Nat) (s : State) : ∃ out, execLockstepTimeout n s = .next out ∧ kept out = kept s :=
  ⟨_, rfl, by simp⟩

@[simp] theorem lsBegin_kept (s : State) (n : Nat) (start : Nat) : kept (lsBegin s n start) = kept s := by simp [lsBegin]

@[simp] theorem lsEnd_kept (s : State) (n : Nat) : kept (lsEnd s n) = kept s := by simp [lsEnd]

@[simp] theorem lsCommand_kept (q : Requester) (w : Word) (s : State) : kept (lsCommand q w s) = kept s := by
  unfold lsCommand
  dsimp only
  simp only [globalCmd_kept, checked_kept, lsBegin_kept, lsEnd_kept, kept_ite, ite_self]

theorem execLsStart_kept (q : Requester) (w : Word) (s : State) : ∃ out, execLsStart q w s = .next out ∧ kept out = kept s :=
  ⟨_, rfl, by simp⟩

theorem execLsStop_kept (q : Requester) (w : Word) (s : State) : ∃ out, execLsStop q w s = .next out ∧ kept out = kept s :=
  ⟨_, rfl, by simp⟩

@[simp] theorem lscfgWrite_kept (q : Requester) (n : Nat) (w : Word) (s : State) : kept (lscfgWrite q n w s) = kept s := by
  unfold lscfgWrite
  try dsimp only
  repeat' first
    | with_reducible rfl
    | (simp only [globalCmd_kept, checked_kept, updLs_kept]; done)
    | split

theorem execDetLscfgWrite_kept (q : Requester) (n : Nat) (w : Word) (s : State) : ∃ out, execDetLscfgWrite q n w s = .next out
    ∧ kept out = kept s :=
  ⟨_, rfl, by simp⟩

@[simp] theorem barrierWrite_kept (q : Requester) (n : Nat) (w : Word) (s : State) : kept (barrierWrite q n w s) = kept s := by
  unfold barrierWrite
  dsimp only
  simp only [windowCmd_kept, checked_kept, trailSend_kept, updBar_kept, updQue_kept, kept_ite, ite_self]

theorem execTrlWbarcmd_kept (q : Requester) (n : Nat) (w : Word) (s : State) : ∃ out, execTrlWbarcmd q n w s = .next out ∧
    kept out = kept s :=
  ⟨_, rfl, by simp⟩

@[simp] theorem arriveAt_kept (group : Nat) (epoch : Nat) (chip : Nat) (sent : Nat) (s : State) (n : Nat) : kept (arriveAt
    group epoch chip sent s n) = kept s :=
  by simp [arriveAt]

@[simp] theorem arriveHeard_kept (s : State) (h : FrameHead) (group : Nat) (epoch : Nat) : kept (arriveHeard s h group epoch)
    = kept s :=
  by simp [arriveHeard]

theorem execTrlArrive_kept (h : FrameHead) (group : Nat) (epoch : Nat) (s : State) : ∃ out, execTrlArrive h group epoch s =
    .next out ∧ kept out = kept s :=
  ⟨_, rfl, by simp⟩

@[simp] theorem barrierRelease_kept (s : State) (n : Nat) : kept (barrierRelease s n) = kept s := by
  unfold barrierRelease
  dsimp only
  simp only [updBar_kept, updQue_kept, raise_kept, kept_ite, ite_self]

theorem execBarrierRelease_kept (n : Nat) (s : State) : ∃ out, execBarrierRelease n s = .next out ∧ kept out = kept s :=
  ⟨_, rfl, by simp⟩

@[simp] theorem barcfgWrite_kept (q : Requester) (n : Nat) (w : Word) (s : State) : kept (barcfgWrite q n w s) = kept s := by
  unfold barcfgWrite
  dsimp only
  simp only [globalCmd_kept, checked_kept, updBar_kept]

theorem execTrlBarcfgWrite_kept (q : Requester) (n : Nat) (w : Word) (s : State) : ∃ out, execTrlBarcfgWrite q n w s = .next
    out ∧ kept out = kept s :=
  ⟨_, rfl, by simp⟩

/-! Ticks. -/

@[simp] theorem markLate_kept (s : State) (n : Nat) : kept (markLate s n) = kept s := by
  unfold markLate
  dsimp only
  simp only [updCc_kept, updCal_kept, updClr_kept, updTask_kept, forEach_kept', implies_true]

@[simp] theorem lateTick_kept (s : State) : kept (lateTick s) = kept s := by simp [lateTick]

@[simp] theorem gateRows_kept (s : State) (g : Nat × List Nat) : kept (gateRows s g) = kept s :=
  by simp [gateRows]

@[simp] theorem chargeAll_kept (s : State) (rows : List (Nat × List Nat)) : kept (chargeAll s rows) = kept s := by
  unfold chargeAll
  try dsimp only
  repeat' first
    | with_reducible rfl
    | (simp only [chargeRows_kept, chargeCtx_kept, gateRows_kept, updSch_kept, forEach_kept', implies_true]; done)
    | with_reducible refine (forEach_kept' _ _ _ fun _ _ => ?_).trans ?_
    | (simp only [chargeCtx_kept, gateRows_kept, updSch_kept, forEach_kept', implies_true]; with_reducible refine (forEach_kept' _ _ _ fun _ _ => ?_).trans ?_)
    | (simp only [chargeRows_kept, chargeCtx_kept, gateRows_kept, updSch_kept, kept_ite, kept_record, kept_record_err, ite_self,
       forEach_kept', implies_true]; exact enterStore_kept _ _ _ (by assumption))
    | exact enterStore_kept _ _ _ (by assumption)
    | (simp only [chargeRows_kept, chargeCtx_kept, gateRows_kept, updSch_kept, kept_ite, kept_record, kept_record_err, ite_self,
       forEach_kept', implies_true]; split)
    | split
    | (refine kept_of ?_ ?_ ?_ ?_ ?_ ?_ <;> first
        | with_reducible rfl
        | (simp [*, in_kept_prito, in_kept_hold, in_kept_passwd, in_kept_fenceTo, in_kept_hb, in_kept_pending]; done))

@[simp] theorem putRecord_kept (s : State) (n : Nat) (rec' : Bool → List Byte) : kept (putRecord s n rec') = kept s :=
  by simp [putRecord]

@[simp] theorem acctCtx_kept (late : List Nat) (s : State) (kv : Nat × CtxAcct) : kept (acctCtx late s kv) = kept s := by
  unfold acctCtx
  try dsimp only
  repeat' first
    | with_reducible rfl
    | (simp only [updSch_kept, putRecord_kept, updSwin_kept, kept_ite, ite_self]; done)
    | split

@[simp] theorem acctTick_kept (s : State) (late : List Nat) : kept (acctTick s late) = kept s := by simp [acctTick]

@[simp] theorem acctWriteNext_kept (s : State) (n : Nat) : kept (acctWriteNext s n) = kept s := by
  unfold acctWriteNext
  try dsimp only
  repeat' first
    | with_reducible rfl
    | (simp only [newAcc_kept, updSwin_kept, kept_ite, ite_self]; done)
    | split

@[simp] theorem acctTurn_kept (s : State) : kept (acctTurn s) = kept s := by simp [acctTurn]

@[simp] theorem mapBoundary_kept (s : State) : kept (mapBoundary s) = kept s := by
  unfold mapBoundary
  try dsimp only
  repeat' first
    | with_reducible rfl
    | (simp only [updCal_kept, overcommitNow_kept, guestBoundary_kept]; done)
    | split

@[simp] theorem weightBoundary_kept (s : State) (n : Nat) : kept (weightBoundary s n) = kept s := by simp [weightBoundary]

@[simp] theorem rampBoundary_kept (s : State) (n : Nat) : kept (rampBoundary s n) = kept s := by simp [rampBoundary]

@[simp] theorem clearingBoundary_kept (s : State) (n : Nat) : kept (clearingBoundary s n) = kept s :=
  by simp [clearingBoundary]

@[simp] theorem countBoundary_kept (s : State) : kept (countBoundary s) = kept s := by
  unfold countBoundary
  dsimp only
  simp only [updXlt_kept, updTbl_kept, updSch_kept, kept_record_err]

@[simp] theorem openTick_kept (s : State) (lock : Nat) : kept (openTick s lock) = kept s := by simp [openTick]

@[simp] theorem ringsBoundary_kept (s : State) : kept (ringsBoundary s) = kept s := by simp [ringsBoundary]

@[simp] theorem favourBoundary_kept (s : State) : kept (favourBoundary s) = kept s := by rfl

@[simp] theorem closeTick_kept (s : State) (rows : List (Nat × List Nat)) : kept (closeTick s rows) = kept s := by
  unfold closeTick
  dsimp only
  rw [powerBoundary_kept, acctTick_kept, chargeAll_kept]
  exact lateTick_kept s

@[simp] theorem fencesTurn_kept (s : State) : kept (fencesTurn s) = kept s := by simp [fencesTurn]

@[simp] theorem unitsTurn_kept (s : State) : kept (unitsTurn s) = kept s :=
  by simp [unitsTurn]

@[simp] theorem tickBoundary_kept (s : State) (w : TickWires) : kept (tickBoundary s w) = kept s := by
  unfold tickBoundary
  split
  · rfl
  · simp

theorem execTickBoundary_kept (wires : TickWires) (s : State) : ∃ out, execTickBoundary wires s = .next out ∧ kept out = kept
    s :=
  ⟨_, rfl, by simp⟩

@[simp] theorem stageTurn_kept (s : State) : kept (stageTurn s) = kept s := by simp [stageTurn]

@[simp] theorem cclkOpen_kept (s : State) : kept (cclkOpen s) = kept s := by rfl

@[simp] theorem cclkTurn_kept (s : State) : kept (cclkTurn s) = kept s := by simp [cclkTurn]

end Sys2Proof.Machine
end

