-- ==== Sys2Proof/Laws/KeptPorts.lean ====
section
/-! SUPPORT. What each operation leaves of the bounded registers and of the queue of commands: the register port and the TAP. -/

namespace Sys2Proof.Machine

set_option Elab.async false
set_option linter.unusedTactic false
set_option linter.unreachableTactic false

/-! RegRead. -/

@[simp] theorem winAfterRead_kept (b s : State) (n : Nat) (p : Part) (r : WinReg) : kept (winAfterRead b s n p r) = kept s := by
  cases r <;> simp [winAfterRead]

@[simp] theorem globAfterRead_kept (b s : State) (p : Part) (r : GlobReg) : kept (globAfterRead b s p r) = kept s := by
  cases r <;> simp [globAfterRead]

@[simp] theorem winTaken_kept (s : State) (n : Nat) (p : Part) (r : WinReg) : kept (winTaken s n p r) = kept s := by
  simp [winTaken]

@[simp] theorem globTaken_kept (s : State) (p : Part) (r : GlobReg) : kept (globTaken s p r) = kept s := by
  simp [globTaken]

@[simp] theorem postmarkLatch_kept (s : State) (q : Requester) (win : Option Nat) (p : Part) : kept (postmarkLatch s q win p)
    = kept s :=
  by simp [postmarkLatch]

@[simp] theorem placeRead_kept (s : State) (q : Requester) (p : Part) (x : Place8) : kept (placeRead s q p x).2 = kept s := by
  cases x <;> simp only [placeRead] <;> (repeat' split) <;> simp

/-! RegWrite. -/

@[simp] theorem winPlain_kept (q : Requester) (n : Nat) (r : WinReg) (w : Word) (cs : State → List (Bool × Code)) (effect :
    State → State) (s : State) (heffect : ∀ x0, kept (effect x0) = kept x0) : kept (winPlain q n r w cs effect s) = kept s := by
  unfold winPlain
  try dsimp only
  repeat' first
    | with_reducible rfl
    | (simp only [windowCmd_kept, checked_kept, heffect]; done)
    | split

@[simp] theorem globPlain_kept (q : Requester) (r : GlobReg) (w : Word) (cs : State → List (Bool × Code)) (effect : State →
    State) (s : State) (heffect : ∀ x0, kept (effect x0) = kept x0) : kept (globPlain q r w cs effect s) = kept s := by
  unfold globPlain
  try dsimp only
  repeat' first
    | with_reducible rfl
    | (simp only [globalCmd_kept, checked_kept, heffect]; done)
    | split

@[simp] theorem xbufPut_kept (x : Nat) (k : Nat) (w : Word) (s : State) : kept (xbufPut x k w s) = kept s := by rfl

@[simp] theorem updDet_kept (s : State) (n : Nat) (f : DetWin → DetWin) : kept (updDet s n f) = kept s := by rfl

@[simp] theorem winWrite_kept (q : Requester) (n : Nat) (w : Word) (r : WinReg) (s : State) : kept (winWrite q n w r s) = kept s := by
  cases r <;> simp [winWrite]

@[simp] theorem clearFaults_kept (from' : Nat) (count : Nat) (w : Word) (s : State) : kept (clearFaults from' count w s) =
    kept s :=
  by simp [clearFaults]

@[simp] theorem policyWrite_kept (d : Nat) (w : Word) (s : State) : kept (policyWrite d w s) = kept s := by rfl

@[simp] theorem updErr_kept (s : State) (f : ErrUnit → ErrUnit) (h : (f s.err).fenceTo = s.err.fenceTo) : kept (updErr s f) = kept s :=
  kept_of rfl rfl rfl h rfl rfl

@[simp] theorem mbxWrite_kept (q : Requester) (m : Nat) (w : Word) (r : MbxReg) (s : State) : kept (mbxWrite q m w r s) = kept
    s := by
  unfold mbxWrite
  try dsimp only
  repeat' first
    | with_reducible rfl
    | (simp only [mbxCmd_kept, checked_kept, dataWrite_kept, unlockWrite_kept, postWrite_kept, takeWrite_kept, ackWrite_kept,
       recvWrite_kept]; done)
    | split

/-! Bus. -/

@[simp] theorem portRead_kept (a : Access) (s : State) : kept (portRead a s).2 = kept s := by
  unfold portRead
  try dsimp only
  repeat' first
    | with_reducible rfl
    | (simp only [recordRead_kept, placeRead_kept, kept_ite, ite_self]; done)
    | split

@[simp] theorem updTap_kept (s : State) (f : Tap → Tap) : kept (updTap s f) = kept s := by rfl

@[simp] theorem tapScan_kept (s : State) (ir : BitVec 8) (width : Nat) (value : Nat) : kept (tapScan s ir width value) = kept
    s :=
  by rfl

@[simp] theorem bypassScan_kept (s : State) (ir : BitVec 8) : kept (bypassScan s ir) = kept s := by rfl

@[simp] theorem tapGuard_kept (s : State) (ir : BitVec 8) (act : State → State) (hact : ∀ x0, kept (act x0) = kept x0) : kept
    (tapGuard s ir act) = kept s := by
  unfold tapGuard
  try dsimp only
  repeat' first
    | with_reducible rfl
    | (simp only [bypassScan_kept, hact, kept_ite, ite_self]; done)
    | split

theorem execTapIdcode_kept (s : State) : ∃ out, execTapIdcode s = .next out ∧ kept out = kept s := ⟨_, rfl, rfl⟩

theorem execTapBypass_kept (ir : BitVec 8) (s : State) : ∃ out, execTapBypass ir s = .next out ∧ kept out = kept s :=
  ⟨_, rfl, by simp⟩

@[simp] theorem boundaryScan_kept (s : State) (ir : BitVec 8) (pins : List Bool) (cells : List Bool) : kept (boundaryScan s ir
    pins cells) = kept s :=
  by rfl

theorem execTapSamplePreload_kept (pins : List Bool) (cells : List Bool) (s : State) : ∃ out, execTapSamplePreload pins cells
    s = .next out ∧ kept out = kept s :=
  ⟨_, rfl, rfl⟩

theorem execTapExtest_kept (pins : List Bool) (cells : List Bool) (s : State) : ∃ out, execTapExtest pins cells s = .next out
    ∧ kept out = kept s :=
  ⟨_, rfl, by simp⟩

theorem execTapDbgDmi_kept (dmi : BitVec 41) (s : State) : ∃ out, execTapDbgDmi dmi s = .next out ∧ kept out = kept s :=
  ⟨_, rfl, by simp⟩

theorem execTapDbgStatus_kept (s : State) : ∃ out, execTapDbgStatus s = .next out ∧ kept out = kept s := ⟨_, rfl, by simp⟩

theorem execTapTestLogicReset_kept (s : State) : ∃ out, execTapTestLogicReset s = .next out ∧ kept out = kept s :=
  ⟨_, rfl, rfl⟩

/-! Dump. -/

@[simp] theorem crashDumpDone_kept (s : State) (sram : List Byte) (lost : List Nat) : kept (crashDumpDone s sram lost) = kept
    s :=
  by simp [crashDumpDone]

theorem execCrashDumpDone_kept (sram : List Byte) (lost : List Nat) (s : State) : ∃ out, execCrashDumpDone sram lost s = .next
    out ∧ kept out = kept s :=
  ⟨_, rfl, by simp⟩

/-- A state that a legal one leads to is legal, and the queue of commands stays. -/
def Stays (s t : State) : Prop := (legalConfig (kept s) = true → legalConfig (kept t) = true) ∧ t.pending = s.pending

theorem Stays.of_kept {s t : State} (h : kept t = kept s) : Stays s t :=
  ⟨fun hs => h ▸ hs, congrArg Kept.pending h⟩

theorem pending_of_kept {t : State} {k : Kept} (h : kept t = k) : t.pending = k.pending := by
  rw [← h]
  rfl

theorem Stays.trans {s t u : State} (h : Stays s t) (h' : Stays t u) : Stays s u := ⟨fun hs => h'.1 (h.1 hs), h'.2.trans h.2⟩

theorem checked_stays (cs : List (Bool × Code)) (s : State) (effect : Unit → State)
    (h : firstBad cs = none → Stays s (effect ())) : Stays s (checked cs s effect).2 := by
  unfold checked
  split
  · exact .of_kept rfl
  · next hc => exact h hc

theorem globalCmd_stays (q : Requester) (s : State) (body : State → Checked) (h : Stays s (body s).2) : Stays s (globalCmd q s body) := by
  unfold globalCmd
  (repeat' split) <;> first
    | exact .of_kept rfl
    | exact .of_kept (recordStatus_kept s _ _ _)
    | exact h.trans (.of_kept (recordStatus_kept _ _ _ _))

theorem trlCmd_stays (q : Requester) (s : State) (body : State → Checked) (h : Stays s (body s).2) : Stays s (trlCmd q s body) := by
  unfold trlCmd
  (repeat' split) <;> first
    | exact .of_kept rfl
    | exact .of_kept (recordStatus_kept s _ _ _)
    | exact h.trans (.of_kept (recordStatus_kept _ _ _ _))

theorem globPlain_stays (q : Requester) (r : GlobReg) (w : Word) (cs : State → List (Bool × Code)) (effect : State → State) (s : State)
    (h : firstBad (cs s) = none → Stays s (effect s)) : Stays s (globPlain q r w cs effect s) := by
  refine globalCmd_stays q s _ (checked_stays _ _ _ fun hc => h ?_)
  rw [firstBad_cons] at hc
  split at hc
  · exact hc
  · cases hc

theorem legal_prito {k : Kept} {v : Nat} (h : legalConfig k = true) (hv : 1 ≤ v ∧ v ≤ 1000000) : legalConfig { k with prito := v } = true := by
  simp only [legalConfig, Bool.and_eq_true, decide_eq_true_eq] at h ⊢
  omega

theorem legal_hold {k : Kept} {v : Nat} (h : legalConfig k = true) (hv : 1 ≤ v ∧ v ≤ 1000000) : legalConfig { k with hold := v } = true := by
  simp only [legalConfig, Bool.and_eq_true, decide_eq_true_eq] at h ⊢
  omega

theorem legal_passwd {k : Kept} {v : Nat} (h : legalConfig k = true) (hv : 1 ≤ v ∧ v ≤ 65535) : legalConfig { k with passwd := v } = true := by
  simp only [legalConfig, Bool.and_eq_true, decide_eq_true_eq] at h ⊢
  omega

theorem legal_fenceTo {k : Kept} {v : Nat} (h : legalConfig k = true) (hv : 1000 ≤ v ∧ v ≤ 50000) :
    legalConfig { k with fenceTo := v } = true := by
  simp only [legalConfig, Bool.and_eq_true, decide_eq_true_eq] at h ⊢
  omega

theorem legal_hb {k : Kept} {v : Nat} (h : legalConfig k = true) (hv : 1 ≤ v ∧ v ≤ 255) : legalConfig { k with hb := v } = true := by
  simp only [legalConfig, Bool.and_eq_true, decide_eq_true_eq] at h ⊢
  omega

theorem firstBad_single {b : Bool} {c : Code} (h : firstBad [(b, c)] = none) : b = true := by
  cases b
  · simp [firstBad] at h
  · rfl

theorem globWrite_stays (q : Requester) (w : Word) (h : HostRead) (r : GlobReg) (s : State) : Stays s (globWrite q w h r s) := by
  cases r
  case tblHold =>
    refine globPlain_stays _ _ _ _ _ _ fun hc => ⟨fun hs => ?_, rfl⟩
    have hb := firstBad_single hc
    simp only [Bool.and_eq_true, decide_eq_true_eq] at hb
    exact legal_hold hs hb
  case schPasswd =>
    refine globPlain_stays _ _ _ _ _ _ fun hc => ⟨fun hs => ?_, rfl⟩
    have hb := firstBad_single hc
    have hl : field w 0 16 < 2 ^ 16 := Nat.mod_lt _ (by decide)
    simp only [bne_iff_ne] at hb
    exact legal_passwd (v := field w 0 16) hs ⟨Nat.pos_of_ne_zero hb, by omega⟩
  case xltPrito =>
    refine globPlain_stays _ _ _ _ _ _ fun hc => ⟨fun hs => ?_, rfl⟩
    have hb := firstBad_single hc
    simp only [Bool.and_eq_true, decide_eq_true_eq] at hb
    exact legal_prito hs hb
  case errFenceto =>
    refine globPlain_stays _ _ _ _ _ _ fun hc => ⟨fun hs => ?_, rfl⟩
    have hb := firstBad_single hc
    simp only [Bool.and_eq_true, decide_eq_true_eq] at hb
    exact legal_fenceTo hs hb
  case trlCtrl =>
    refine trlCmd_stays q s _ (checked_stays _ _ _ fun hc => ⟨fun hs => ?_, rfl⟩)
    have hb : (field w 8 8 != 0) = true := by
      rw [firstBad_cons] at hc
      split at hc
      · exact firstBad_single hc
      · cases hc
    have hl : field w 8 8 < 2 ^ 8 := Nat.mod_lt _ (by decide)
    simp only [bne_iff_ne] at hb
    exact legal_hb (v := field w 8 8) hs ⟨Nat.pos_of_ne_zero hb, by omega⟩
  all_goals exact .of_kept (by simp [globWrite])

theorem placeWrite_stays (s : State) (q : Requester) (p : Part) (w : Word) (h : HostRead) (x : Place8) :
    Stays s (placeWrite s q p w h x) := by
  cases x
  case glob r => exact globWrite_stays _ _ _ _ _
  all_goals exact .of_kept (by simp [placeWrite])

theorem portWrite_stays (a : Access) (w : Word) (h : HostRead) (s : State) : Stays s (portWrite a w h s) := by
  unfold portWrite
  dsimp only
  split
  · exact .of_kept rfl
  · split
    · exact .of_kept (recordStatus_kept _ _ _ _)
    · exact .of_kept (recordStatus_kept _ _ _ _)
    · split
      · exact .of_kept (recordStatus_kept _ _ _ _)
      · split
        · exact placeWrite_stays _ _ _ _ _ _
        · exact .of_kept (recordStatus_kept _ _ _ _)

theorem dbgReg_stays (b : Bool) (off : Nat) (w : Word) (h : HostRead) (s : State) : Stays s (dbgReg b off w h s) := by
  unfold dbgReg
  dsimp only
  (repeat' split)
  · exact .of_kept (by simp)
  · exact Stays.trans (.of_kept (by simp)) (portWrite_stays _ _ _ _)
  · exact .of_kept (by simp [portRead_kept])

theorem rotAnswer_stays (s : State) (o : Nat) (use : RotUse) (c : Code) (bs : List Byte) : Stays s (rotAnswer s o use c bs) := by
  unfold rotAnswer
  split
  · exact .of_kept (xchEnd_kept _ _ _ _)
  · exact .of_kept (xchEnd_kept _ _ _ _)
  · split
    · exact ⟨fun _ => by rw [lifeCycleMoved_kept]; rfl, pending_of_kept (lifeCycleMoved_kept s _)⟩
    · exact .of_kept (keyEnd_kept _ _)
  · exact .of_kept rfl
  · exact .of_kept rfl
  · split
    · exact .of_kept (randomCame_kept _ _ _)
    · exact .of_kept (keyEnd_kept _ _)

theorem rotReply_stays (m : RotMsg) (s : State) : Stays s (rotReply s m) := by
  unfold rotReply
  dsimp only
  split
  · exact .of_kept (raise_kept _ _)
  · split
    · exact .of_kept rfl
    · split
      · exact .of_kept rfl
      · split
        · exact (rotAnswer_stays _ _ _ _ _).trans (.of_kept (rotNext_kept _ _))
        · exact .of_kept rfl

theorem linkReset_stays (s : State) (fs : List Nat) : Stays s (linkReset s fs) := by
  unfold linkReset
  split
  · exact .of_kept rfl
  · split
    · refine ⟨fun h => ?_, pending_of_kept (physicalReset_kept s fs)⟩
      rw [physicalReset_kept]
      simp only [legalConfig, Bool.and_eq_true, decide_eq_true_eq] at h ⊢
      omega
    · exact .of_kept ((earlyReset_kept _ _).trans (abandonDelivery_kept _))

theorem tapGuard_stays (s : State) (ir : BitVec 8) (act : State → State) (h : ∀ s, Stays s (act s)) : Stays s (tapGuard s ir act) := by
  unfold tapGuard
  split
  · exact h _
  · exact .of_kept (bypassScan_kept _ _)

end Sys2Proof.Machine
end

