-- ==== Sys2Proof/Laws/Words.lean ====
section
/-! SUPPORT. What the bits and fields of a word are: bit ranges, fields, and a word with one field put in. -/

namespace Sys2Proof.Machine

/-- The bits of a range. -/
theorem getLsbD_bitsFrom {lo hi : Nat} (h : lo ≤ hi + 1) (i : Nat) (hi' : i < 64) :
    (bitsFrom lo hi).getLsbD i = decide (lo ≤ i ∧ i ≤ hi) := by
  have e : 2 ^ (hi + 1) - 2 ^ lo = 2 ^ lo * (2 ^ (hi + 1 - lo) - 1) := by
    rw [Nat.mul_sub, ← Nat.pow_add, Nat.mul_one]
    congr 2
    omega
  unfold bitsFrom word
  rw [BitVec.getLsbD_ofNat, e, Nat.mul_comm, Nat.testBit_mul_two_pow, Nat.testBit_two_pow_sub_one]
  simp only [hi', decide_true, Bool.true_and]
  by_cases h1 : lo ≤ i
  · simp only [h1, decide_true, Bool.true_and, true_and, decide_eq_decide]
    omega
  · simp [h1]

/-- The bits of a field. -/
theorem testBit_field (w : Word) (lo len i : Nat) : (field w lo len).testBit i = (decide (i < len) && w.getLsbD (lo + i)) := by
  unfold field
  rw [Nat.testBit_mod_two_pow, Nat.testBit_div_two_pow, Nat.add_comm, BitVec.testBit_toNat]

/-- The bits of a word with a field put in. -/
theorem getLsbD_putField (w : Word) {lo len : Nat} (v i : Nat) (h0 : 0 < len) (h : lo + len ≤ 64) :
    (putField w lo len v).getLsbD i = if lo ≤ i ∧ i < lo + len then v.testBit (i - lo) else w.getLsbD i := by
  by_cases hi : i < 64
  · unfold putField
    simp only [BitVec.getLsbD_or, BitVec.getLsbD_and, BitVec.getLsbD_not, hi, decide_true, Bool.true_and,
      getLsbD_bitsFrom (show lo ≤ lo + len - 1 + 1 by omega) i hi]
    unfold word
    rw [BitVec.getLsbD_ofNat, Nat.testBit_mul_two_pow, Nat.testBit_mod_two_pow]
    by_cases h1 : lo ≤ i
    · by_cases h2 : i < lo + len
      · have a : i ≤ lo + len - 1 := by omega
        have b : i - lo < len := by omega
        simp [h1, h2, a, b, hi]
      · have a : ¬ i ≤ lo + len - 1 := by omega
        have b : ¬ i - lo < len := by omega
        simp [h2, a, b]
    · simp [h1]
  · have a : ¬ i < lo + len := by omega
    rw [BitVec.getLsbD_of_ge _ _ (by omega)]
    simp [a, BitVec.getLsbD_of_ge w i (by omega)]

theorem wbit_putField (w : Word) {lo len : Nat} (v i : Nat) (h0 : 0 < len) (h : lo + len ≤ 64) :
    wbit (putField w lo len v) i = if lo ≤ i ∧ i < lo + len then v.testBit (i - lo) else wbit w i :=
  getLsbD_putField w v i h0 h

/-- The field that was put in. -/
theorem field_putField (w : Word) {lo len : Nat} (v : Nat) (h0 : 0 < len) (h : lo + len ≤ 64) :
    field (putField w lo len v) lo len = v % 2 ^ len := by
  refine Nat.eq_of_testBit_eq fun i => ?_
  rw [testBit_field, getLsbD_putField w v _ h0 h, Nat.testBit_mod_two_pow]
  by_cases hi : i < len
  · simp [hi]
  · simp [hi]

/-- A field apart from the one that was put in. -/
theorem field_putField_other (w : Word) {lo len : Nat} (v lo' len' : Nat) (h0 : 0 < len) (h : lo + len ≤ 64)
    (hd : lo' + len' ≤ lo ∨ lo + len ≤ lo') : field (putField w lo len v) lo' len' = field w lo' len' := by
  refine Nat.eq_of_testBit_eq fun i => ?_
  rw [testBit_field, testBit_field, getLsbD_putField w v _ h0 h]
  by_cases hi : i < len'
  · rw [if_neg (by omega)]
  · simp [hi]

/-- No bit of `mask` is set in `w`. -/
theorem noBits_iff (w mask : Word) : noBits w mask = true ↔ ∀ i, mask.getLsbD i = true → w.getLsbD i = false := by
  unfold noBits
  rw [beq_iff_eq]
  constructor
  · intro h i hm
    have := congrArg (fun x : Word => x.getLsbD i) h
    simpa [hm] using this
  · intro h
    refine BitVec.eq_of_getLsbD_eq fun i _ => ?_
    rw [BitVec.getLsbD_and]
    cases hm : mask.getLsbD i
    · simp
    · simp [h i hm]

/-- A field put in apart from `mask` leaves no bit of it set. -/
theorem noBits_putField {w mask : Word} {lo len : Nat} (v : Nat) (h0 : 0 < len) (h : lo + len ≤ 64) (hb : noBits w mask = true)
    (hd : ∀ i, lo ≤ i → i < lo + len → mask.getLsbD i = false) : noBits (putField w lo len v) mask = true := by
  rw [noBits_iff] at hb ⊢
  intro i hm
  rw [getLsbD_putField w v i h0 h, if_neg fun hi => by simp [hd i hi.1 hi.2] at hm]
  exact hb i hm

end Sys2Proof.Machine
end

