-- ==== Sys2Proof/Tests/Slice0.lean ====
section
/-! SUPPORT. Small tests: ill-formed commands that are refused, single steps, and states that meet the hypotheses of the
statements. -/

namespace Sys2Proof.Machine

/-! Small states. -/

/-- Reset with the start-up in phase `p`. -/
def inPhase (p : BootPhase) : State := updBoot State.reset fun b => { b with phase := p, resetHeld := 0 }

/-- A running device with nothing else in it. -/
def startedState : State := inPhase .running

/-- What phase 2 meets without a flash, in life-cycle state `lc`. -/
def noFlashInputs (lc : Nat) : RootInputs := ⟨BitVec.ofNat 3 lc, 0xFF, 0, false, 0, false, 0, [], [], []⟩

/-- What it meets with a flash that holds nothing. -/
def flashInputs (lc : Nat) : RootInputs := { noFlashInputs lc with signature := true }

/-- Bare, with a message of opcode `op` in mailbox 0. -/
def bareWith (op : Nat) : State :=
  updMbx (inPhase .bare) 0 fun m => { m with posted := true, data := word op :: List.replicate 15 0 }

/-- An image with a 1,000 µs tick that clearing 6 is in where `g` says so. -/
def imageOf (g : List ClearingCfg) : Image :=
  { digest := 0, svn := 0, tickUs := 1000, cclkMin := 1000, guest := [0, 1, 2, 7], map := [], commonsField := [], commonsPlots := []
    commons := [], clearings := g, bytes := [] }

/-- Running under an image. -/
def tickState : State := updImg startedState fun i => { i with force := some (imageOf []) }

/-- Clearing 5: pair 3, engine 3, doorbell page 2, contexts 40 and 41, key slot 6, plots 8 to 11. -/
def cfg5 : ClearingCfg :=
  { cfg0 with
    number := 5, ctxTeardown := true, pairs := 8, engines := 8, dbBase := 2, dbCount := 1, ctxBase := 40, ctxCount := 2, keyBase := 6
    keyCount := 1, streamQuota := 4, canopyModels := 1, tunable := 0x1F, classMask := 3, classMaskMax := 3, weightMin := 1
    weightMax := 100, latency := List.replicate 8 ⟨100, 1, 1000⟩, budget := List.replicate 8 ⟨0, 0, 1000⟩, plots := [(8, 4)]
    tables := [⟨9, some 5, some 5, 0, true, 0⟩] }

/-- Running, with clearing 5 in `st`. -/
def clrState (st : ClrState) : State :=
  updClr startedState 5 fun c => { c with st := st, cfg := cfg5, tun := ⟨[], [], 3, []⟩ }

/-- Clearing 5 Open. -/
def openedState : State := clrState .opened

/-- Context 40 Live. -/
def liveState : State := updCtx openedState 40 fun k => { k with st := .live, weight := 1 }

/-- An envelope of opcode `op`, whose table is 9 where it names one. -/
def envOf (op : Nat) : EnvRun :=
  envRun0 (leBytes 1 op ++ List.replicate 47 0 ++ leBytes 8 (if 0x20 ≤ op ∧ op ≤ 0x24 then 9 else 0) ++
    leBytes 8 (if 0x10 ≤ op ∧ op ≤ 0x12 then 9 else 0))

/-- A task of queue 1,024 and context 40 with these envelopes. -/
def taskWith (es : List EnvRun) : Task :=
  { queue := 1024, n := 5, ctx := 40, gen := 1, cls := 0, seed := 0, pin := 0, ref := 0, deadline := 1000, scratch := 0, order := 0
    envs := es, lateTicks := 0, hbm := 0, host := 0, status := 0, expired := false, cut := none, endAge := none, held := none
    fenced := false }

/-- Task 0 with one envelope of opcode `op`. -/
def taskOf (op : Nat) : Task := taskWith [envOf op]

/-- `s` with these envelopes in task 0. -/
def withEnvs (s : State) (es : List EnvRun) : State := { s with tasks := [(0, some (taskWith es))] }

/-- Clearing 5 Open with an envelope of opcode `op` that waits. -/
def taskState (op : Nat) : State := withEnvs liveState [envOf op]

/-- Table 9 of clearing 5, valid. -/
def withTable (s : State) : State :=
  updDesc s 9 fun t => { t with base0 := 10 * 2 ^ 28, base1 := 11 * 2 ^ 28, vbitmap := 9 * 2 ^ 28, rows := 4, dim := 2, stride32 := 1
                                valid := true, generation := 1 }

/-- A table envelope that waits, and its table. -/
def tableStateOf (op : Nat) : State := withTable (taskState op)

/-- A PUBLISH that waits, and its table. -/
def tableState' : State := tableStateOf 0x21

/-- A GATHER of `n` rows from plot 8 to plot 9. -/
def gatherEnv (n : Nat) : EnvRun :=
  envRun0 (leBytes 32 0x11 ++ leBytes 8 (8 * 2 ^ 28) ++ leBytes 8 (9 * 2 ^ 28) ++ leBytes 4 0 ++ leBytes 4 n ++ leBytes 2 9 ++
    leBytes 1 0 ++ leBytes 1 2 ++ leBytes 4 0)

/-- Table 9 is there and nothing runs. -/
def gatherState : State := tableStateOf 0x10

/-- An envelope waits for an engine. -/
def waitingState : State := updEnv (taskState 0x11) 0 0 fun v => { v with st := .unassigned }

/-- A section of clearing `n`. -/
def sectionOf (n : Nat) : ClearingCfg := { cfg0 with number := n, ctxBase := 60, ctxCount := 1 }

/-- An image that adds clearing 6. -/
def stagedImage : Image := imageOf [sectionOf 6]

/-- That image staged, beside a flash. -/
def stagedState : State :=
  updBoot (updImg startedState fun i => { i with staged := some stagedImage }) fun b => { b with flashPresent := true }

/-- A settings record that changes nothing. -/
def settingsBlock : List Byte := [0x51, 0x50, 0x46, 0x53, 0x45, 0x54, 0x30, 0x33, 1] ++ List.replicate 503 0

/-- Clearing 5 in `st`, served by virtual function 6. -/
def vfState (st : ClrState) : State := { clrState st with glob := { glob0 with numVfs := 8 } }

/-- Queue 1,024 in `st`, cached. -/
def queueState (st : QState) : State :=
  updQue (updQueue { liveState with glob := { glob0 with numVfs := 8 } } 1024 fun k =>
    { k with st := st, depth := 4, cplDepth := 4, ctx := 40, coalesceCount := 1 }) fun u => { u with hot := [1024] }

/-- A descriptor that passes R216, staged. -/
def configState : State :=
  updQwin (queueState .disabled) 5 fun w =>
    { w with desc := [word (8 * 2 ^ 28), word (9 * 2 ^ 28), 0, word (64 + 64 * 2 ^ 32), word (40 + 2 ^ 32), 0, 0, 0] }

/-- A NOP that is a task of its own. -/
def soloNop : List Byte := [0, 8, 0, 0, 0, 0, 0, 0, 1] ++ List.replicate 55 0

/-- Its batch is the head of queue 1,024. -/
def batchState : State := updQueue (queueState .enabled) 1024 fun k => { k with buffered := [soloNop] }

/-- A READ of an own descriptor at a memory controller. -/
def flight (dead : Bool) : InFlight :=
  { req := { src := .own 0, write := false, addr := 0, data := [], be := 0, clearing := none, ctx := 0, gen := 0, cls := 0
             entered := 0, tick := 0, rank := 0, order := 0, home := 0, gidx := 0, reserved := false, again := false }
    at' := 0, dead := dead, held := false }

/-- It is tag 7 of lane 3 of stack 2. -/
def flightState (dead : Bool) : State :=
  updCal State.reset fun c => { c with inflight := [((2 * 4 + 3) * 65536 + 7, some (flight dead))] }

/-- Mailbox `m` held by the tenant of clearing 5. -/
def mbxState (m : Nat) : State := updMbx startedState m fun x => { x with holder := reqTenant 5 }

/-- Mailbox 9 with the tenant of clearing 5 as its receiver. -/
def mbxFilled (posted taken : Bool) : State :=
  updMbx startedState 9 fun x => { x with receiver := reqTenant 5, posted := posted, taken := taken, seq := 1, takenSeq := 1 }

/-- A task in a clearing of abort group `g`. -/
def groupState (g : Nat) : State := updErr (taskState 0) fun e => { e with group := [(5, word (0x10000 + g))] }

/-- A task whose envelopes are done, its end completion held. -/
def endedTask : Task :=
  { taskWith [{ envOf 0 with st := .done }] with
    held := some { status := 0, kept := true, dead := false, last := true, late := false, saturated := false, poisoned := false
                   zeroBag := false, expired := false, tag := 0, postmark := 0, acct := [], env := some (0, 0) } }

/-- It is task 0. -/
def endedState : State := { liveState with tasks := [(0, some endedTask)] }

/-- The Trail's domain On, its lanes working. -/
def trlState (up training : Bool) : State :=
  updTrl (updDom startedState 79 fun d => { d with st := .on }) fun t =>
    { t with up := up, training := training, lanes := (List.range 8).map fun l => (l, { trlLane0 with st := 0 }) }

/-- A chip in phase 7 with a link, its launch not agreed. -/
def waitingChip : State := updTrl (inPhase .trail) fun t => { t with up := true }

/-- Clearing 5 in lock-step with chip 1. -/
def lsState (st : LsState) : State :=
  updLs (updTrl openedState fun t => { t with up := true }) 5 fun l => { l with partner := 1, enable := true, st := st, start := 1 }

/-- A barrier of group 7. -/
def barState (members : Nat) (waiting : Bool) : State :=
  updBar (updTrl openedState fun t => { t with up := true }) 5 fun b =>
    { b with group := 7, members := members, valid := true, lead := 500, waiting := waiting }

/-- A descriptor that passes R303, staged for table 9. -/
def tableStaged : State :=
  updTwin openedState 5 fun w => { w with port := { w.port with words :=
    [word (10 * 2 ^ 28), word (11 * 2 ^ 28), word (9 * 2 ^ 28), word (4 + 2 * 2 ^ 32 + 2 ^ 48), 0, 0, 0, 0] } }

/-- A change entry of row 3 that may retire. -/
def retiring : State :=
  updTbl { withTable openedState with clk := { clk0 with postmark := 200 } } fun t =>
    { t with chg := [⟨9, 3, true, true, 4, true, 0, false, 5⟩] }

/-- A canopy of one plot, 8. -/
def withCanopy (s : State) (ms : Tab (Option Model)) : State := updSwin s 5 fun w => { w with canopy := word 0x10008, models := ms }

/-- A MODEL_LOAD of 256 bytes from plot 9. -/
def canopyEnv : EnvRun := envRun0 (leBytes 32 0x32 ++ leBytes 8 (9 * 2 ^ 28) ++ leBytes 8 0 ++ leBytes 16 256)

/-- It waits beside an empty canopy. -/
def canopyState : State := withEnvs (withCanopy liveState []) [canopyEnv]

/-- It has read its model, which has no header. -/
def loadedEnv : EnvRun := { canopyEnv with st := .running, phase := 2 }

/-- Its model is Loading. -/
def loadedState : State := withEnvs (withCanopy liveState [(0, some ⟨0, false, 0, 1, [], 0⟩)]) [loadedEnv]

/-- A JOB of one pass on core 7. -/
def jobEnv : EnvRun := envRun0 (leBytes 32 0x30 ++ leBytes 8 0 ++ leBytes 16 0x80 ++ leBytes 2 0 ++ leBytes 2 1 ++ leBytes 4 1)

/-- It waits, its model not in the canopy. -/
def jobState : State := withEnvs liveState [jobEnv]

/-- Its model, resident. -/
def modelReady : Model := ⟨0, true, 0, 1, [⟨1, false, false, 1, 3, 256⟩], 0⟩

/-- The same with the model resident. -/
def jobReady : State := withCanopy jobState [(0, some modelReady)]

/-- The job that holds core 7. -/
def startedJob : Job :=
  { task := 0, env := 0, n := 5, ctx := 40, gen := 1, model := 0, mask := 0x80, first := 0, count := 1, cores := 1, st := .started
    order := 0, held := [7], code := 0, expired := false, core := 0, accrued := 0, counted := 0 }

/-- It may issue its pass. -/
def passState : State :=
  updCore (updDom (updSch (updEnv jobReady 0 0 fun v => { v with st := .running }) fun u => { u with jobs := [(0, some startedJob)] }) 3
    fun d => { d with st := .on }) 7 fun k => { k with job := some 0 }

/-- Its pass has run for 99 ticks. -/
def inFlightState : State := updCore passState 7 fun k => { k with passes := [⟨0, 0, none, 99⟩] }

/-- A COPY of 64 bytes from host memory to plot 8. -/
def copyEnv : EnvRun := envRun0 (leBytes 32 0x40 ++ leBytes 8 (2 ^ 63 + 4096) ++ leBytes 8 (8 * 2 ^ 28) ++ leBytes 16 64)

/-- It waits, its context without a PASID. -/
def copyState : State := withEnvs liveState [copyEnv]

/-- Its context has PASID 9, and function 6 serves its clearing. -/
def boundState : State :=
  updCtx { openedState with glob := { glob0 with numVfs := 8 } } 40 fun k => { k with st := .live, pasid := 9, pasidValid := true }

/-- The same with that PASID. -/
def copyBound : State := withEnvs boundState [copyEnv]

/-- A read of an envelope in host memory. -/
def hostAcc : Acc :=
  { client := .env 0 0, op := 0, kind := .read, addr := 2 ^ 63 + 4096, len := 64, data := [], n := 5, ctx := 40, gen := 1, cls := 0
    st := .host 3, asked := false, plain := false, frame := none }

/-- It is out under tag 3. -/
def hostState : State :=
  setHostOut { withEnvs boundState [{ copyEnv with st := .running }] with acc := [(0, some hostAcc)], accNext := 1 } 3
    (some ⟨.acc 0, 6, some 9, 5, 40, 1, false⟩)

/-- A host access of context 40's generation 0 is out under tag 3. -/
def hostStateOld : State :=
  setHostOut { boundState with acc := [(0, some { hostAcc with gen := 0 })], accNext := 1 } 3
    (some ⟨.acc 0, 6, some 9, 5, 40, 0, false⟩)

/-- It waits for its translation under tag `t`. -/
def missState (t : Nat) : State :=
  setHostOut { withEnvs boundState [{ copyEnv with st := .running }] with acc := [(0, some { hostAcc with st := .xlt t })], accNext := 1 } t
    (some ⟨.ats 7 false 5 true, 6, some 9, 5, 40, 1, false⟩)

/-- It waits on the page request of index `i` of function `f`. -/
def faultState (f i : Nat) : State :=
  updXlt { withEnvs boundState [{ copyEnv with st := .running }] with
    acc := [(0, some { hostAcc with st := .fault (priKey f i) })], accNext := 1 } fun x =>
    { x with pri := [(priKey f i, some ⟨f, 9, 7, false, 0, false⟩)] }

/-- The same beside a translation unit of `k` entries, none of which may be taken. -/
def fullUnit (k : Nat) : State :=
  updXlt (missState 4) fun x => { x with entries := List.replicate k ⟨6, 9, 15, 0, true, true, true, 5⟩ }

/-- Context 40 of clearing 5 was torn down as a host access of it was out. -/
def tornState : State :=
  updCtx hostStateOld 40 fun k => { k with gen := 1, tearing := true }

/-- A binding of chip 1's context 2 to plot 8, staged. -/
def peerState : State :=
  updXlt liveState fun x => { x with stage0 := word (1 + 2 * 2 ^ 16 + 3 * 2 ^ 32), stage1 := word (40 + 8 * 2 ^ 16 + 2 ^ 32) }

/-- The binding, made. -/
def boundPeer : State := updXlt peerState fun x => { x with bindings := [(0, stagedBinding peerState)] }

/-- Clearing 5 owns key slot 6. -/
def keyState : State := openedState

/-- A message for `use` is out for clearing 5. -/
def rotState (use : RotUse) : State := updRot keyState 5 fun r => { r with out := some (3, ⟨use, []⟩), seq := 4 }

/-- Helper data without its magic regenerates no root. -/
theorem regen_none (puf : List Bool) (helper : List Byte) (h : (sliceAt helper 0 8 == asciiBytes "QPFHLP03") = false) :
    regenRoot puf helper = none := by
  unfold regenRoot
  simp only [h, Bool.false_and, Bool.false_eq_true, if_false]
  split <;> rfl

/-! Ill-formed commands, one for each check. -/

theorem test_wf_requester : (Instr.pwrCmd 0 0).wf = false ∧ (Instr.pwrCmd 0x42 0).wf = false ∧ (Instr.pwrCmd reqRanger 0).wf = true := by
  decide

theorem test_wf_clearing : (Instr.quiesceTimerExpire 64).wf = false ∧ (Instr.quiesceTimerExpire 63).wf = true ∧
    (Instr.tableRead reqRanger (some 64) 3).wf = false ∧ (Instr.resetDeasserted []).wf = false := by decide

theorem test_wf_op : (Instr.clrOpen reqRanger 0x205).wf = false ∧ (Instr.clrOpen reqRanger 0x105).wf = true ∧
    (Instr.imgLoad reqRanger 2).wf = false ∧ (Instr.mbxAckPosted reqRanger 1 0).wf = false ∧ (Instr.queRead reqRanger 1 5).wf = false := by
  decide

theorem test_wf_numbers : (Instr.nop 32768 0).wf = false ∧ (Instr.nop 0 1024).wf = false ∧ (Instr.batchAdmit (2 ^ 20)).wf = false ∧
    (Instr.holdBegin 1280).wf = false ∧ (Instr.contextDrained 4096).wf = false ∧ (Instr.mbxLockAcquire reqRanger 256).wf = false ∧
    (Instr.atsInvalidate 65 none 0).wf = false ∧ (Instr.passIssue 128).wf = false ∧ (Instr.plotScrubDone 7).wf = false := by decide

theorem test_wf_access : (Instr.registerRead (.host 0 8 0 0 0)).wf = false ∧ (Instr.registerRead (.firmware 4 0 0xFF)).wf = false ∧
    (Instr.registerRead (.tap (2 ^ 26))).wf = false ∧ (Instr.registerRead (.tap 8)).wf = true := by decide

theorem test_wf_events : (Instr.memoryResponseTimeout 20 0 0).wf = false ∧ (Instr.fabricResponse 4096 0 []).wf = false ∧
    (Instr.hostReadCompletion 16384 .ok []).wf = false ∧ (Instr.trlHeartbeat ⟨1024, 0x8000, 0⟩ 0 0).wf = false ∧
    (Instr.powerAck 80).wf = false ∧ (Instr.crashDumpDone [] []).wf = false ∧ (Instr.rotTimeout 65).wf = false ∧
    (Instr.controlCoreWfi 1).wf = false ∧ (Instr.trlTrainingDone [] 0 []).wf = false ∧ (Instr.keyErase reqRanger 1).wf = false := by decide

/-! Single steps, and states that meet the hypotheses of the statements. -/

/-! EmptyQueueStepMovesTheClock. -/

theorem test_idle_reset : State.reset.pending = [] ∧ State.reset.boot.phase = .reset := by decide

theorem test_idle_running : startedState.pending = [] ∧ startedState.boot.phase ≠ .reset := by decide

/-! SafeStateIsKept. -/

theorem test_safe_step : State.reset.safe = true ∧ ∃ t, step State.reset = .next t := ⟨by decide, _, rfl⟩

/-! StartupPhasesFollow. -/

theorem test_startup_release : State.reset.boot.phase = .reset ∧ State.reset.boot.resetHeld ≠ 0 := by decide

theorem test_startup_rom : (updDom (inPhase .rom) 76 fun d => { d with st := .on }).boot.phase = .rom ∧
    (getDom (updDom (inPhase .rom) 76 fun d => { d with st := .on }) 76).st = .on := by decide

theorem test_startup_scrub : (inPhase .scrub).boot.phase = .scrub ∧ (getDom (inPhase .scrub) 72).st ≠ .on ∧
    (getDom (inPhase .scrub) 72).req = none ∧ (getDom (inPhase .scrub) 72).fault = false := by decide

theorem test_startup_wheel : (updBoot State.reset fun b => { b with wheelOn := true }).boot.wheelOn = true := by decide

theorem test_startup_release_step :
    (match execResetDeasserted [true] State.reset with
      | .next t => t.boot.phase == .rom && t.out == [.powerReq 76 2]
      | _ => false) = true := by decide

theorem test_stop_memory : (inPhase .memory).boot.phase = .memory := by decide

theorem test_stop_noted : (updBoot (inPhase .scrub) fun b => { b with cause := 2, detail := qsImgFlash }).boot.cause ≠ 0 ∧
    (inPhase .scrub).boot.cause = 0 := by decide

theorem test_stop_bounds : (inPhase .rom).boot.phase = .rom ∧ (inPhase .root).boot.phase = .root ∧ (inPhase .scrub).boot.phase = .scrub := by
  decide

/-! RootPhaseOutcome. -/

theorem test_root_phase : (inPhase .root).boot.phase = .root := by decide

theorem test_root_no_flash : flashLost (noFlashInputs 2) = true ∧ 1 ≤ (noFlashInputs 2).lc.toNat ∧ (noFlashInputs 2).lc.toNat ≤ 3 := by decide

theorem test_root_retired : 4 ≤ (noFlashInputs 4).lc.toNat ∧ (noFlashInputs 0).lc.toNat = 0 := by decide

theorem test_root_no_root : flashLost (flashInputs 2) = false ∧ regenRoot [] (flashInputs 2).helper = none :=
  ⟨by decide, regen_none _ _ (by decide +kernel)⟩

theorem test_root_step :
    (match execRotLcValid (noFlashInputs 2) (inPhase .root) with
      | .next t => t.boot.phase == .stopped && t.boot.cause == 1
      | _ => false) = true := by decide

/-! MemoryAndImagePhases. -/

theorem test_memory_phase : (inPhase .memory).boot.phase = .memory ∧
    (∀ k, k < 20 → 40 ≤ (List.replicate 20 100).getD k 0 ∧ (List.replicate 20 100).getD k 0 ≤ 400) := by decide

theorem test_memory_phase_bad : ∃ k, k < 20 ∧ ¬ (40 ≤ ([] : List Nat).getD k 0 ∧ ([] : List Nat).getD k 0 ≤ 400) :=
  ⟨0, by decide⟩

theorem test_image_phase : (inPhase .image).boot.phase = .image := by decide

/-! TrailPhaseAndFirstTick. -/

theorem test_power_phase : (inPhase .power).boot.phase = .power ∧ (inPhase .power).trl.soloNext = false ∧
    (getDom (inPhase .power) 79).fault = false ∧ ∀ d, 72 ≤ d → d < 80 → (getDom (inPhase .power) d).req = none :=
  ⟨rfl, rfl, rfl, fun _ _ _ => rfl⟩

theorem test_power_phase_solo :
    (updTrl (inPhase .power) fun t => { t with soloNext := true }).trl.soloNext = true := by decide

theorem test_trail_phase : (inPhase .trail).boot.phase = .trail ∧ (inPhase .trail).boot.solitary = false ∧
    (inPhase .trail).trl.cameUp = false ∧ (inPhase .trail).boot.launch = none := by decide

theorem test_launch_wait : (updTrl (inPhase .trail) fun t => { t with up := true, cameUp := true }).trl.cameUp = true ∧
    (inPhase .trail).boot.launch = none := by decide

theorem test_first_tick : (updBoot (inPhase .trail) fun b => { b with solitary := true }).boot.solitary = true ∧
    (updBoot (inPhase .trail) fun b => { b with solitary := true }).boot.warm = false := by decide

theorem test_first_tick_launch : (updBoot (inPhase .trail) fun b => { b with launch := some 7 }).boot.launch = some 7 ∧
    (updBoot (inPhase .trail) fun b => { b with launch := some 7 }).boot.solitary = false ∧
    (updBoot (inPhase .trail) fun b => { b with launch := some 7 }).trl.startAt = none := by decide

theorem test_first_tick_early : (agree (inPhase .trail) 7 1600000 0 1).boot.launch = some 7 ∧
    (agree (inPhase .trail) 7 1600000 0 1).trl.startAt = some 1600000 ∧ now16 (agree (inPhase .trail) 7 1600000 0 1) < 1600000 := by decide

theorem test_first_tick_warm : (updBoot (inPhase .trail) fun b => { b with warm := true }).boot.warm = true ∧
    ({ (inPhase .trail) with clk := { clk0 with lastPostmark := some 9 } } : State).clk.lastPostmark = some 9 := by decide

/-! BootServiceMessages. -/

theorem test_boot_message : (bareWith 1).boot.phase = .bare ∧ (getMbx (bareWith 1) 0).posted = true ∧
    (bareWith 1).boot.delivery = none ∧ (bareWith 1).img.flashing = none ∧ bootOp (getMbx (bareWith 1) 0).data ≠ 2 ∧
    bootOp (getMbx (bareWith 2) 0).data = 2 := by decide

theorem test_boot_delivery : (updBoot (bareWith 1) fun b => { b with delivery := some (1, false, 4096) }).boot.delivery =
    some (1, false, 4096) := by decide

/-! TicksAndPhasesAdvance. -/

theorem test_tick_running : startedState.boot.phase = .running ∧ State.reset.boot.phase ≠ .running := by decide

theorem test_phase_wheel : (updBoot State.reset fun b => { b with wheelOn := true }).boot.wheelOn = true ∧
    State.reset.boot.phase ≠ .running ∧ State.reset.clk.phase < 9765 := by decide

theorem test_phase_guard : ({ startedState with clk := { clk0 with phase := 70000 } } : State).boot.phase = .running ∧
    State.reset.boot.wheelOn = false := by decide

theorem test_phase_running : tickState.boot.phase = .running ∧ tickState.clk.phase < phasesOfTick (tickUs tickState) := by decide

/-! HoldsOfPseudoChannels. -/

theorem test_hold_begin : startedState.boot.phase = .running ∧ 1279 < 1280 ∧ (getPch startedState 1279).hold = false ∧
    holdCounts startedState 1279 = true ∧
    ((getPch startedState 1279).holdStarts.filter fun u => nowRef startedState < 100000000 + u).length < 8 := by decide

theorem test_hold_begin_remapped : holdCounts (updPch startedState 5 fun k => { k with st := .remapped }) 5 = false := by decide

theorem test_hold_end : (getPch (updPch startedState 5 fun k => { k with hold := true }) 5).hold = true ∧
    startedState.boot.phase ≠ .reset ∧ startedState.boot.phase ≠ .stopped := by decide

/-! FailedPseudoChannelsAreRemapped. -/

theorem test_pch_fail : tickState.boot.phase = .running ∧ tickState.img.force ≠ none ∧ (getPch tickState 3).st = .normal ∧
    (getPch tickState 3).failLevel = false ∧ (getPch tickState (guestOf tickState 3)).st = .normal ∧ guestOf tickState 3 ≠ 3 := by
  decide

theorem test_pch_fail_alone : guestOf tickState 0 = 0 ∧ (getPch tickState 0).st = .normal := by decide

theorem test_hold_limit : (getPch (updPch tickState 3 fun k => { k with hold := true, holdPhases := 2000 }) 3).hold = true ∧
    2000 ≤ (getPch (updPch tickState 3 fun k => { k with hold := true, holdPhases := 2000 }) 3).holdPhases := by decide

theorem test_hold_often : 8 ≤ ((getPch (updPch tickState 3 fun k => { k with holdStarts := List.replicate 8 0 }) 3).holdStarts.filter
    fun u => nowRef tickState < 100000000 + u).length := by decide

/-! GuestAndMarginCommands. -/

theorem test_guest_commands : reachesGlobal tickState reqRanger ∧ noBits (word 3) (bitsFrom 11 15 ||| bitsFrom 20 63) = true ∧
    field (word 3) 0 11 < 1280 ∧ tickState.cal.guestCmd = none ∧ (getPch tickState 3).st = .normal ∧
    (getPch tickState (guestOf tickState 3)).st = .normal := by decide

theorem test_restore_command : (getPch (updPch tickState 1279 fun k => { k with st := .remapped }) (field (word 1279) 0 11)).st = .remapped := by
  decide

theorem test_margin_command : noBits (word (19 * 2 ^ 48 + 63 * 2 ^ 40)) (bitsFrom 46 47 ||| bitsFrom 53 63) = true ∧
    field (word (19 * 2 ^ 48 + 63 * 2 ^ 40)) 48 5 = 19 ∧ (tabGet margin0 tickState.cal.margin 19).busy = false ∧
    (getPch tickState (64 * 19 + 63)).st ≠ .remapped := by decide

theorem test_margin_response :
    (tabGet margin0 (updCal tickState fun c => { c with margin := tabSet margin0 c.margin 4 { margin0 with busy := true } }).cal.margin 4).busy = true ∧
      tickState.boot.phase ≠ .reset ∧ tickState.boot.phase ≠ .stopped := by
  decide

/-! TunableWritesWaitForTheBoundary. -/

theorem test_ela_class : noBits (word 500) (bitsFrom 20 31 ||| bitsFrom 48 63) = true ∧ (getClr openedState 5).st ≠ .absent ∧
    (getClr openedState 5).cfg.tunable.getLsbD 0 = true ∧ (getClr openedState 5).cfg.tunable.getLsbD 1 = true ∧
    inBounds (getClr openedState 5).cfg.latency 0 (field (word 500) 0 20) = true ∧
    inBounds (getClr openedState 5).cfg.budget 0 (field (word 500) 32 16) = true := by decide

theorem test_ela_ctrl : noBits (word 0x03020101) (bitsFrom 32 63) = true ∧ (getClr openedState 5).cfg.tunable.getLsbD 2 = true ∧
    (getClr openedState 5).cfg.tunable.getLsbD 3 = true ∧ BitVec.ofNat 8 (field (word 0x03020101) 0 8) ≠ 0 ∧
    BitVec.ofNat 8 (field (word 0x03020101) 0 8) &&& (getClr openedState 5).cfg.classMaskMax = BitVec.ofNat 8 (field (word 0x03020101) 0 8) ∧
    field (word 0x03020101) 8 8 = 1 ∧ field (word 0x03020101) 16 8 = 2 ∧ field (word 0x03020101) 24 8 = 3 := by decide

/-! MemoryResponsesFreeTheirTags. -/

theorem test_memory_response : tabGet none (flightState false).cal.inflight ((2 * 4 + 3) * 65536 + 7) = some (flight false) ∧
    (flight false).dead = false ∧ (flight false).held = false ∧ (flight true).dead = true ∧
    startedState.boot.phase ≠ .reset ∧ startedState.boot.phase ≠ .stopped ∧
    tabGet none (flightState true).cal.inflight ((2 * 4 + 3) * 65536 + 7) = some (flight true) ∧
    tabGet none State.reset.cal.inflight ((2 * 4 + 3) * 65536 + 7) = none := by decide

/-! ClearingsOpenQuiesceAndClose. -/

theorem test_clr_open : reachesGlobal (clrState .closed) reqRanger ∧
    noBits (word 5) (bitsFrom 6 7 ||| bitsFrom 12 15 ||| bitsFrom 32 63) = true ∧ field (word 5) 16 16 = 0 ∧
    (getClr (clrState .closed) (field (word 5) 0 6)).st = .closed ∧ (clrState .closed).err.halted = false ∧
    (clrState .closed).err.deviceFault = false := by decide

theorem test_clr_quiesce : field (word 0x100005) 16 16 ≠ 0 ∧ (getClr (clrState .opened) (field (word 0x100005) 0 6)).st = .opened ∧
    noBits (word 0x100005) (bitsFrom 6 7 ||| bitsFrom 12 15 ||| bitsFrom 32 63) = true ∧ tasksOf (clrState .opened) 5 = [] := by
  decide

theorem test_clr_quiesce_busy : tasksOf (taskState 1) 5 ≠ [] ∧ (getClr (taskState 1) 5).st = .opened := by decide

theorem test_clr_close : (getClr (clrState .quiet) (field (word 5) 0 6)).st = .quiet := by decide

theorem test_open_step :
    (match execClrOpen reqRanger (word 5) (clrState .closed) with
      | .next t => (getClr t 5).st == .opened && t.glob.code == qsOk
      | _ => false) = true := by decide

/-! FencesAndResetsOfClearings. -/

theorem test_clr_reset : reachesGlobal (clrState .opened) reqRanger ∧ field (word 5) 16 16 = 0 ∧ field (word 5) 0 6 = 5 ∧
    (getClr (clrState .opened) 5).st = .opened ∧ (getClr (clrState .fenced) 5).st = .fenced := by decide

theorem test_quiesce_expires : (getClr (clrState .quiescing) 5).st = .quiescing ∧ (getClr (clrState .quiescing) 5).quiesceLeft = 0 := by
  decide

theorem test_none_entered (c : Nat) : enteredNow (clrState .opened) c (getCtx (clrState .opened) c).gen = [] := rfl

theorem test_fence_drained : fenceIsDrained (updClr (clrState .fenced) 5 fun c => { c with fence := some ⟨0, true, []⟩ }) 5 = true := by
  decide

theorem test_reset_done : (getClr (clrState .resetting) 5).st = .resetting ∧
    zeroingDone (updClr (clrState .resetting) 5 fun c => { c with cfg := { c.cfg with plots := [] } }) 5 = true := by decide +kernel

/-! ManifestsAndNonces. -/

theorem test_nonce_write : reachesOwn (clrState .closed) (reqTenant 5) 5 ∧ (clrState .closed).boot.rootAbsent = false ∧
    (getClr (clrState .closed) 5).st ≠ .absent ∧ (getClr (clrState .closed) 5).issuing = none := by decide

theorem test_nonce_write_again : (getClr (updClr (clrState .closed) 5 fun c => { c with issuing := some ⟨[]⟩ }) 5).issuing ≠ none := by
  decide

theorem test_manifest_done : (getClr (updClr (clrState .closed) 5 fun c => { c with issuing := some ⟨[]⟩ }) 5).issuing = some ⟨[]⟩ ∧
    (getClr (clrState .closed) 5).issueAgain = false := by decide

/-! ContextsAreCreatedAndLeave. -/

theorem test_ctx_create : reachesOwn (clrState .opened) (reqTenant 5) 5 ∧
    noBits (word 0x00280000) (bitsFrom 5 15 ||| bitsFrom 28 63) = true ∧ wbit (word 0x00280000) 4 = false ∧
    field (word 0x00280000) 16 12 = 40 ∧ inRange (getClr (clrState .opened) 5).cfg.ctxBase (getClr (clrState .opened) 5).cfg.ctxCount 40 = true ∧
    (getCtx (clrState .opened) 40).st = .free ∧ wbit (getWin (clrState .opened) 5).ctxArg 20 = false ∧
    ((getClr (clrState .opened) 5).cfg.weightMin ≤ field (getWin (clrState .opened) 5).ctxArg 32 16 ∧
      field (getWin (clrState .opened) 5).ctxArg 32 16 ≤ (getClr (clrState .opened) 5).cfg.weightMax) := by decide

theorem test_ctx_create_any : wbit (word 0x10) 4 = true ∧ lowestFree (clrState .opened) 5 = some 40 := by decide

theorem test_ctx_leave : (getCtx (liveState) 40).st = .live ∧ ctxIdle liveState 40 = true ∧
    (getClr liveState 5).cfg.ctxTeardown = true ∧ enteredNow liveState 40 (getCtx liveState 40).gen = [] := by decide

theorem test_ctx_drained : (getCtx (updCtx liveState 40 fun k => { k with st := .draining }) 40).st = .draining ∧
    ctxOutstanding (updCtx liveState 40 fun k => { k with st := .draining }) 40 = false := by decide

/-! ImageLoadApplyCommit. -/

theorem test_img_load : reachesGlobal (clrState .closed) reqRanger ∧ noBits (word 0) (bitsFrom 5 7 ||| bitsFrom 14 63) = true ∧
    wbit (word 0) 4 = false ∧ (clrState .closed).img.busy = false ∧ field (word 0) 8 6 = 0 ∧ (clrState .closed).img.mixed = false := by
  decide

theorem test_img_apply : stagedState.img.staged = some stagedImage ∧ stagedState.img.differs = false ∧ field (word 0x600) 8 6 = 6 ∧
    imageClearing stagedImage 6 = some (sectionOf 6) ∧ (getClr stagedState 6).st = .absent := by
  decide +kernel

theorem test_img_apply_differs : sectionDiffers stagedState stagedImage 6 = true ∧ resourceHeld stagedState stagedImage 6 (sectionOf 6) = false := by
  decide +kernel

theorem test_img_commit : stagedState.img.staged = some stagedImage ∧ stagedState.img.pending = 0 := by decide +kernel

theorem test_img_load_done : (updImg State.reset fun i => { i with loading := some 4096 }).img.loading = some 4096 := by decide

/-! ImageStagingAndFlash. -/

theorem test_img_discard : reachesGlobal stagedState reqRanger ∧ noBits (word 0) (bitsFrom 5 7 ||| bitsFrom 14 63) = true ∧
    stagedState.img.busy = false ∧ stagedState.img.mixed = false ∧ stagedState.boot.flashPresent = true := by decide

theorem test_img_settings : (updImg stagedState fun i => { i with len := 512 }).img.len = 512 ∧
    settingsAllowed stagedState settingsBlock (stagedState.img.force.map (·.svn)) = true := by decide +kernel

theorem test_flash_end : stagedState.boot.phase ≠ .bare ∧
    (updImg stagedState fun i => { i with flashing := some (.image []) }).img.flashing = some (.image []) := by decide

theorem test_plot_scrub :
    (updImg State.reset fun i => { i with scrub := [9, 10], scrubNext := 1048576 }).img.scrub = [9, 10] ∧
    (updImg State.reset fun i => { i with scrub := [9, 10], scrubNext := 1048576 }).img.scrubOut = 0 := by decide

/-! FunctionResets. -/

theorem test_reset_slow_due : (clrState .fenced).boot.phase = .running ∧
    ({ clrState .fenced with err := { err0 with slowDue := 32 } } : State).err.slowDue.getLsbD 5 = true := by decide

theorem test_flr_early : (inPhase .stopped).boot.phase = .stopped ∧ (getClr startedState 4).st = .absent ∧
    (inPhase .stopped).boot.phase ≠ .reset := by decide

theorem test_flr : (vfState .opened).boot.phase ≠ .reset ∧ (vfState .opened).boot.phase ≠ .stopped ∧ (vfState .opened).boot.phase = .running ∧ (getClr (vfState .opened) (6 - 1)).st ≠ .absent ∧
    6 ≤ (vfState .opened).glob.numVfs := by decide

theorem test_vf_enable : servingFunc (vfState .opened) 5 = 6 ∧ servingFunc State.reset 5 = 0 := by decide

theorem test_reset_slow : (getClr ({ clrState .fenced with err := { err0 with flrWait := [(6, some 5)] } } : State) 5).st = .fenced ∧
    (6, some 5) ∈ [((6 : Nat), (some 5 : Option Nat))] := by decide

/-! PortRefusals. -/

theorem test_port_closed : State.reset.boot.phase = .reset := by decide

theorem test_port_tap : State.reset.key.debugOpen = false ∧ (∃ off, Access.tap 8 = .tap off) := ⟨rfl, 8, rfl⟩

theorem test_port_nothing : startedState.boot.phase ≠ .reset ∧ startedState.boot.phase ≠ .rom ∧
    accessReach startedState (.host 0 2 0 0xFF 1) = .nothing := by decide

theorem test_port_foreign : accessReach (vfState .opened) (.host 6 0 0x10000 0xFF 1) = .foreign ∧
    accessWidth (.host 6 0 0x10000 0xFF 1) ≠ none := by decide

theorem test_port_width : accessReach startedState (.host 0 0 0x2004 0xFF 1) = .space 0x2004 ∧
    accessWidth (.host 0 0 0x2004 0xFF 1) = none := by decide

theorem test_port_hole : accessReach startedState (.host 0 0 0x3FFFFF8 0xFF 1) = .space 0x3FFFFF8 ∧
    placeAt startedState 0x3FFFFF8 = .hole ∧ privileged startedState (accessReq (.host 0 0 0x3FFFFF8 0xFF 1)) = true ∧
    placeAt startedState 0x3000FF8 = .mbxHole ∧ placeAt startedState 0x100FFF8 = .winHole 0 ∧
    reachesWindow startedState (accessReq (.host 0 0 0x100FFF8 0xFF 1)) 0 = true := by decide

theorem test_port_half : placeAt startedState 0x2000008 = .doorbell 0 1 ∧
    accessReach startedState (.host 0 0 0x2000008 0x0F 1) = .space 0x2000008 ∧ accessWidth (.host 0 0 0x2000008 0x0F 1) = some .low := by decide

/-! BoundedRegisterWrites. -/

theorem test_bounded_writes : startedState.boot.phase = .running := by decide

theorem test_prito_offset : controlRegAt 0xE018 = some .xltPrito ∧ controlRegAt 0xA070 = some .tblHold ∧
    controlRegAt 0xD410 = some .schPasswd ∧ regionRegAt 0x03400020 = some .errFenceto := by decide

/-! ReadsOfRegisters. -/

theorem test_reads : startedState.boot.phase = .running ∧ placeAt startedState 0x1210 = .glob .clrEvent ∧ globCounts .clrEvent = 0 ∧
    placeAt startedState 0x01021008 = .win 2 .clrWstate ∧ winCounts .clrWstate = 0 := by decide

theorem test_read_offsets : controlRegAt 0x3008 = some .calPostmark ∧ regionRegAt 0x03400028 = some .errCecc := by decide

/-! ForeignWritersChangeOnlyTheirOwnStatus. -/

theorem test_unprivileged : (Instr.errAbort (reqTenant 3) 0).globalWriter = some (reqTenant 3) ∧ privileged startedState (reqTenant 3) = false ∧
    startedState.boot.phase ≠ .reset ∧ startedState.boot.phase ≠ .rom := by decide

theorem test_foreign_window : (Instr.queEnable (reqTenant 3) 4 0).windowWriter = some (reqTenant 3, 4) ∧
    reachesWindow startedState (reqTenant 3) 4 = false := by decide

/-! DoorbellsMoveQueuePointers. -/

theorem test_doorbell : (queueState .enabled).boot.phase = .running ∧ 5 < (queueState .enabled).glob.numVfs ∧
    (getClr (queueState .enabled) 5).st = .opened ∧ (getClr (queueState .enabled) 5).serveFrom ≤ (queueState .enabled).clk.postmark ∧
    0 < (getClr (queueState .enabled) 5).cfg.dbCount ∧ dbPageOwner (queueState .enabled) ((getClr (queueState .enabled) 5).cfg.dbBase + 0) = some 5 ∧
    (queueState .enabled).que.hot.contains (512 * ((getClr (queueState .enabled) 5).cfg.dbBase + 0) + 0) = true ∧
    (getQueue (queueState .enabled) 1024).st = .enabled ∧ dbCheck (getQueue (queueState .enabled) 1024) (word 2) = true := by decide

theorem test_doorbell_miss : (queueState .enabled).que.hot.contains (512 * 2 + 9) = false ∧
    (queueState .enabled).que.fifo.length < 8192 ∧ (∀ e ∈ (queueState .enabled).que.fifo, e.1 ≠ 512 * 2 + 9) := by decide

theorem test_doorbell_apply : (updQue (queueState .enabled) fun u => { u with fifo := [(1024, word 2)], arrived := [1024] }).que.fifo.find? (fun e => e.1 == 1024) =
    some (1024, word 2) ∧ (∀ kv ∈ (queueState .enabled).queues, kv.2.spilled = false) := by decide

/-! QueueCommands. -/

theorem test_queue_command : reachesOwn (queueState .disabled) (reqTenant 5) 5 ∧
    noBits (word 0x04000000) (bitsFrom 4 15 ||| bitsFrom 36 63) = true ∧ field (word 0x04000000) 16 20 = 1024 ∧
    (getClr (queueState .disabled) 5).st = .opened ∧ queueOwner (queueState .disabled) 1024 = some 5 ∧
    (getQueue (queueState .disabled) 1024).st = .disabled := by decide

theorem test_queue_config : firstBad (configChecks (configState) 5) = none ∧ (getQueue configState 1024).st = .disabled := by decide

theorem test_queue_disable : (getQueue (queueState .enabled) 1024).buffered = [] ∧ (getQueue (queueState .enabled) 1024).items = [] ∧
    (getQueue (queueState .enabled) 1024).writing = false ∧ tasksOfQueue (queueState .enabled) 1024 = [] := by decide

theorem test_stm_quota : reachesGlobal (queueState .enabled) reqRanger ∧ (getClr (queueState .enabled) 5).st ≠ .absent ∧
    field (word 256) 0 32 ≤ plotsTotal (getClr (queueState .enabled) 5).cfg * 256 := by decide

/-! EnvelopesStart. -/

theorem test_startable : startable (taskState 0) 0 0 0 = true ∧ startable (taskState 1) 0 0 1 = true ∧
    (Instr.nop 0 0).envelopeStart = some (0, 0, 0) ∧ startable (taskState 0) 0 0 1 = false := by decide

theorem test_nop_step :
    (match execNop 0 0 (taskState 0) with
      | .next u => ((getEnv u 0 0).map fun v => v.st) == some .done
      | _ => false) = true := by decide

/-! LookupEnvelopesAreCheckedAndAssigned. -/

theorem test_gather_start : startable (taskState 0x10) 0 0 0x10 = true ∧ startable (taskState 0x11) 0 0 0x11 = true ∧
    startable (taskState 0x12) 0 0 0x12 = true ∧ getTask (taskState 0x10) 0 = some (taskOf 0x10) ∧
    getEnv (taskState 0x10) 0 0 = some (envOf 0x10) := by decide

theorem test_gather_checks : firstBad (lookupNames (taskState 0x10) 5 (gatherOps (envOf 0x10).bytes)) = some qsGpeOperand := by decide

theorem test_gather_empty : firstBad (lookupNames gatherState 5 (gatherOps (gatherEnv 0).bytes)) = none ∧
    lookupEmpty (gatherOps (gatherEnv 0).bytes) = true := by decide

theorem test_gather_runs : firstBad (lookupNames gatherState 5 (gatherOps (gatherEnv 1).bytes)) = none ∧
    lookupEmpty (gatherOps (gatherEnv 1).bytes) = false ∧
    firstBad (lookupExtents gatherState (taskOf 0x10) (gatherOps (gatherEnv 1).bytes)) = none ∧
    pinExpired gatherState (taskOf 0x10) (gatherOps (gatherEnv 1).bytes).desc = false := by decide

theorem test_envelope_assign : ((getEnv waitingState 0 0).map (·.st)) = some .unassigned ∧ pickEngine waitingState 5 = some 3 ∧
    lsFrozen waitingState 5 = false := by decide

/-! BatchesAreFetchedAndAdmitted. -/

theorem test_envelope_fetch : (getQueue (updQueue (queueState .enabled) 1024 fun k => { k with fetch := some 2 }) 1024).fetch = some 2 := by
  decide

theorem test_batch_refused : (admitRefusal batchState 5 (getQueue batchState 1024) [List.replicate 64 0xFF]).isSome = true := by decide

theorem test_batch_head : queueOwner batchState 1024 = some 5 ∧ headBatch (getQueue batchState 1024) = some [soloNop] ∧
    (getQueue batchState 1024).st = .enabled ∧ deadWaits (getQueue batchState 1024) = false := by decide

theorem test_batch_passes : admitRefusal batchState 5 (getQueue batchState 1024) [soloNop] = none ∧ mayAdmit batchState 5 [soloNop] = true := by
  decide

theorem test_batch_turn : freeNow batchState 5 1024 [soloNop] = true ∧ notAgain batchState 5 1024 = false ∧ turnQueue batchState = some 1024 ∧
    batchState.que.admitAt ≠ some (nowCclk batchState) := by decide

theorem test_batch_fits : ∀ b, (getQueue batchState 1024).buffered.head? = some b → envFlag b 3 = true →
    envBatchLen b ≤ (getQueue batchState 1024).depth := by
  intro b h
  cases h
  decide

theorem test_batch_oversize : envFlag [0, 8, 0, 0, 0, 0, 0, 0, 0xFF, 0xFF] 3 = true ∧
    (getQueue batchState 1024).depth < envBatchLen [0, 8, 0, 0, 0, 0, 0, 0, 0xFF, 0xFF] ∧ (getQueue batchState 1024).cplLost = false ∧
    (getQueue (updQueue batchState 1024 fun k => { k with buffered := [[0, 8, 0, 0, 0, 0, 0, 0, 0xFF, 0xFF]] }) 1024).buffered.head? =
      some [0, 8, 0, 0, 0, 0, 0, 0, 0xFF, 0xFF] := by decide

theorem test_coalesce :
    (getQueue (updQueue (queueState .enabled) 1024 fun k => { k with irq := true, irqSince := some 3, coalesceUs := 5 }) 1024).irq = true ∧
    (getQueue (updQueue (queueState .enabled) 1024 fun k => { k with irq := true, irqSince := some 3, coalesceUs := 5 }) 1024).irqSince ≠ none ∧
    (getQueue (updQueue (queueState .enabled) 1024 fun k => { k with irq := true, irqSince := some 3, coalesceUs := 5 }) 1024).coalesceUs ≠ 0 := by
  decide

/-! MailboxesPostAndTake. -/

theorem test_mbx_held : (mbxState 9).boot.phase = .running ∧ reqTenant 5 ≠ 0 ∧ (getMbx (mbxState 9) 9).holder = reqTenant 5 ∧
    (getMbx (mbxState 9) 9).posted = false ∧ noBits (word 0x1F) (bitsFrom 7 63) = true ∧ vectorFits (reqTenant 5) (wbit (word 0x1F) 0) (field (word 0x1F) 1 6) = true := by
  decide

theorem test_mbx_take : (getMbx (mbxFilled true false) 9).receiver = reqTenant 5 ∧ (getMbx (mbxFilled true false) 9).posted = true ∧
    (getMbx (mbxFilled true false) 9).taken = false ∧ noBits (word 1) (bitsFrom 1 63) = true ∧ wbit (word 1) 0 = true := by decide

theorem test_mbx_post_step :
    (match execMbxPost (reqTenant 5) 9 (word 1) (mbxState 9) with
      | .next t => (getMbx t 9).posted && (getMbx t 9).seq == 1 && (getMbx t 9).holder == 0
      | _ => false) = true := by decide

/-! MailboxesAcknowledgeAndRegister. -/

theorem test_mbx_acks : (mbxFilled true true).boot.phase = .running ∧ noBits (word 7) (bitsFrom 17 63) = true ∧
    (getMbx (mbxFilled true true) 9).receiver = reqTenant 5 ∧ (getMbx (mbxFilled true true) 9).taken = true ∧
    (getMbx (mbxFilled true true) 9).posted = true := by decide

theorem test_mbx_register : noBits (word 0x107) (bitsFrom 23 63) = true ∧ BitVec.ofNat 8 (field (word 0x107) 0 8) = reqTenant 5 ∧
    (getMbx (mbxState 9) 9).receiver = 0 ∧ wbit (word 0x107) 15 = false ∧
    vectorFits (reqTenant 5) (wbit (word 0x107) 8) (field (word 0x107) 9 6) = true := by decide

theorem test_mbx_leave : noBits (word 0) (bitsFrom 23 63) = true ∧ field (word 0) 0 8 = 0 := by decide

/-! PowerDomainsMove. -/

theorem test_pwr_cmd : reachesGlobal startedState reqRanger ∧ noBits (word 0x24D) (bitsFrom 7 7 ||| bitsFrom 10 63) = true ∧
    field (word 0x24D) 8 2 = 2 ∧ field (word 0x24D) 0 7 = 77 ∧ (getDom startedState 77).fault = false ∧
    field (word 0x24F) 0 7 = 79 ∧ field (word 0x24F) 8 2 = 2 := by decide

theorem test_power_ack : (getDom (updDom startedState 3 fun d => { d with req := some .on }) 3).req = some .on ∧
    (getDom (updDom startedState 3 fun d => { d with req := some .on }) 3).st = .off ∧ coreFailed startedState 7 = false ∧
    (getDom startedState 3).req = none ∧ startedState.boot.phase ≠ .reset ∧ startedState.boot.phase ≠ .stopped := by decide

theorem test_power_ack_step :
    (match execPowerAck 79 (updDom startedState 79 fun d => { d with req := some .off, st := .on }) with
      | .next t => (getDom t 79).st == .off && (getDom t 79).req == none
      | _ => false) = true := by decide

/-! FailedUnitsAndPowerFaults. -/

theorem test_fail_units : reachesGlobal startedState reqRanger ∧
    noBits (word 0x704) (bitsFrom 4 7 ||| bitsFrom 15 31 ||| bitsFrom 48 63) = true ∧ field (word 0x704) 32 16 = 0 ∧
    field (word 0x704) 8 7 = 7 ∧ coreFailed startedState 7 = false ∧ engineFailed startedState 7 = false := by decide

theorem test_power_ack_late : (getDom (updDom startedState 3 fun d => { d with req := some .on }) 3).req ≠ none ∧
    startedState.boot.phase ≠ .reset ∧ startedState.boot.phase ≠ .stopped := by decide

theorem test_fault_none_entered (c : Nat) : enteredNow startedState c (getCtx startedState c).gen = [] := rfl

theorem test_fail_core_step :
    (match execErrFailCore reqRanger (word 0x700) startedState with
      | .next t => coreFailed t 7 && !coreFailed t 6
      | _ => false) = true := by decide

/-! DumpsHaltsAndRings. -/

theorem test_dump : reachesGlobal startedState reqRanger ∧
    noBits (word 1) (bitsFrom 4 7 ||| bitsFrom 15 31 ||| bitsFrom 48 63) = true ∧ field (word 1) 8 7 = 0 ∧ field (word 1) 32 16 = 0 ∧
    startedState.err.dumpValid = false ∧ startedState.err.dumpBusy = false := by decide

theorem test_dump_valid : (updErr startedState fun e => { e with dumpValid := true }).err.dumpValid = true ∧
    (updErr startedState fun e => { e with dumpValid := true }).err.dumpBusy = false ∧
    (updErr startedState fun e => { e with dumpBusy := true }).err.dumpBusy = true ∧
    (updErr startedState fun e => { e with copying := true }).err.copying = true := by decide

theorem test_fw_exception : (clrState .opened).boot.phase = .running ∧ (getClr (clrState .opened) 5).st = .opened := by decide

theorem test_ring_head : reachesOwn startedState (reqTenant 5) 5 ∧
    u32sub (field (word 2) 0 32) (getRing (updRing (updRing startedState 64 fun g => { g with tail := 3 }) 5 fun g => { g with tail := 2 }) 64).head ≤
      u32sub 3 0 ∧
    u32sub (field (word 2) 0 32) (getRing (updRing startedState 5 fun g => { g with tail := 2 }) 5).head ≤
      u32sub (getRing (updRing startedState 5 fun g => { g with tail := 2 }) 5).tail 0 := by decide

theorem test_ring_head_past : ¬ u32sub (field (word 3) 0 32) (getRing startedState 5).head ≤ u32sub (getRing startedState 5).tail 0 := by
  decide

/-! AbortsDeadlinesAndTaskEnds. -/

theorem test_abort_group : reachesGlobal (groupState 7) reqRanger ∧
    noBits (word 0x700000006) (bitsFrom 4 7 ||| bitsFrom 15 31 ||| bitsFrom 48 63) = true ∧ field (word 0x700000006) 8 7 = 0 ∧
    field (word 0x700000006) 32 16 = 7 ∧ inGroup (groupState 7) 7 5 = true ∧ (getClr (groupState 7) 5).st = .opened ∧
    getTask (groupState 7) 0 = some (taskOf 0) ∧ (taskOf 0).n = 5 := by decide

theorem test_abort_received : (groupState 7).boot.solitary = false ∧ (updTrl (groupState 7) fun t => { t with up := true }).trl.up = true ∧ forMe (groupState 7) 0x8000 = true ∧
    reachesOwn (groupState 7) (reqTenant 5) 5 ∧ (3 : Nat) ≠ (groupState 7).boot.chip ∧ (groupState 7).boot.phase ≠ .reset ∧
    (groupState 7).boot.phase ≠ .stopped := by decide

theorem test_deadline : (taskOf 0).fenced = false ∧ (taskOf 0).cut = none ∧ endIssued (taskState 0) 0 (taskOf 0) = false ∧
    lsFrozen (taskState 0) 5 = false ∧ getTask (taskState 0) 0 = some (taskOf 0) ∧ (taskOf 0).deadline ≠ 0 := by decide

theorem test_task_end : getTask endedState 0 = some endedTask ∧ (endedTask.held.bind (·.env)) = some (0, 0) ∧ endedTask.fenced = false ∧
    taskOver endedState 0 endedTask = true ∧ (getQueue endedState endedTask.queue).cplLost = false := by decide

theorem test_task_lost : (getQueue (updQueue endedState 1024 fun k => { k with cplLost := true }) 1024).cplLost = true ∧
    getTask (updQueue endedState 1024 fun k => { k with cplLost := true }) 0 = some endedTask := by decide

theorem test_fence_timeout : (getClr (clrState .fenced) 5).st = .fenced := by decide

theorem test_fence_timeout_torn : (getClr tornState 5).st ≠ .fenced ∧ 40 ∈ ctxsOf tornState 5 ∧ (getCtx tornState 40).tearing = true ∧
    (getHostOut tornState 3).map hostWaits = some true ∧ (getHostOut tornState 3).map (·.gen) = some 0 ∧ (getCtx tornState 40).gen = 1 := by
  decide

theorem test_abort_step :
    (match execErrAbort reqRanger (word 0x700000006) (groupState 7) with
      | .next t => (getTask t 0).bind (·.cut) == some qsErrAborted
      | _ => false) = true := by decide

/-! TapInstructionsShift. -/

theorem test_tap_closed : startedState.key.debugOpen = false := by decide

theorem test_tap_open : (updKey startedState fun k => { k with debugOpen := true }).key.debugOpen = true ∧
    (updKey startedState fun k => { k with debugOpen := true }).boot.phase = .running := by decide

theorem test_tap_scan : tapNamed 0xFF = false ∧ tapNamed 0x02 = true ∧ startedState.tap.ctl = .testLogicReset ∧ boundaryCells = 28 := by
  decide

/-! TrailLanesTrainAndRetire. -/

theorem test_retrain : (trlState false false).boot.phase = .running ∧ noBits (word 1) (bitsFrom 4 63) = true ∧
    trailState (trlState false false) ≠ 1 ∧ (getDom (trlState false false) 79).st = .on ∧ (inPhase .trail).boot.phase = .trail ∧
    (trlState false false).trl.up = false ∧ (trlState false false).trl.training = false ∧ (trlState false false).trl.solo = false ∧
    (trlState false false).boot.solitary = false := by decide

theorem test_training : (trlState false true).trl.training = true ∧ inert (trlState false true) = false ∧ (getLane (trlState false true) 3).st ≠ 1 ∧
    ([⟨none, false, 0, 2⟩] : List LaneResult)[0]? = some ⟨none, false, 0, 2⟩ := by decide

theorem test_lane_fault : (trlState true false).trl.up = true ∧ inert (trlState true false) = false ∧ (getLane (trlState true false) 3).st = 0 ∧
    (trlState true false).boot.solitary = false ∧ (3 : Nat) ≠ (trlState true false).boot.chip ∧
    (∃ l, l < 4 ∧ (getLane (trlState true false) l).st = 0 ∧ (0x0E#8).getLsbD l = false) ∧
    (∀ l, l < 4 → (getLane (trlState true false) l).st = 0 → (0xFF#8).getLsbD l = true) := by
  refine ⟨by decide, by decide, by decide, by decide, by decide, ⟨0, by decide, by decide, by decide⟩, by decide⟩

/-- CRC-16 with polynomial 0x1021 and initial value 0xFFFF of the ASCII digits 1 to 9 is 0x29B1, the check value of that CRC. -/
theorem test_crc : crc16 (asciiBytes "123456789") = 0x29B1 := by decide +kernel

theorem test_frame_dropped : frameDropped (trlState true false) (zeroBytes 34) = true := by decide +kernel

/-! TrailChipsLaunchAndJoin. -/

theorem test_launch : waitingChip.boot.phase = .trail ∧ waitingChip.boot.solitary = false ∧ waitingChip.boot.launch = none ∧
    waitingChip.trl.up = true ∧ waitingChip.trl.joining = false ∧ isMaster waitingChip = true ∧ (3 : Nat) ≠ waitingChip.boot.chip ∧
    now16 waitingChip < waitingChip.trl.newAt + 320000000 ∧ forMe waitingChip 0x8000 = true ∧ forMe waitingChip 9 = false := by
  decide

theorem test_launch_master :
    waitingChip.trl.newAt + 320000000 ≤ now16 ({ waitingChip with clk := { clk0 with refTick := 3000000 } } : State) := by decide

theorem test_heartbeat_running : (trlState true false).boot.phase = .running ∧ (trlState true false).boot.solitary = false ∧
    (trlState true false).trl.up = true ∧ (3 : Nat) ≠ (trlState true false).boot.chip ∧ forMe (trlState true false) 0x8000 = true := by decide

theorem test_peer_lost : tabGet none (updTrl (updSch startedState fun u => { u with ticks := 40 }) fun t =>
    { t with peers := tabSet none t.peers 3 (some ⟨0, none⟩) }).trl.peers 3 = some ⟨0, none⟩ ∧ 0 + 4 * startedState.trl.hb ≤ 40 := by
  decide

theorem test_hello_step :
    (match execTrlHello ⟨3, 0x8000, 0⟩ 9 0 (tickUs waitingChip) waitingChip with
      | .next t => (tabGet none t.trl.heard 3).map (·.firstPm) == some 9
      | _ => false) = true := by decide

/-! LockstepComparesAndFreezes. -/

theorem test_lockstep_start : reachesGlobal (lsState .off) reqRanger ∧ noBits (word 0xA0005) (bitsFrom 6 7 ||| bitsFrom 12 15) = true ∧
    defined (lsState .off) 5 = true ∧ (getLs (lsState .off) 5).enable = true ∧ (lsState .off).clk.postmark < field (word 0xA0005) 16 48 ∧
    (lsState .off).trl.up = true ∧ (lsState .off).boot.solitary = false := by decide

theorem test_lockstep_stop : field (word 5) 16 48 = 0 ∧ (getLs (lsState .comparing) 5).st ≠ .off := by decide

theorem test_lockstep_config : noBits (word 0x100000001) (bitsFrom 10 15 ||| bitsFrom 17 31 ||| bitsFrom 48 63) = true ∧
    field (word 0x100000001) 0 10 ≠ (lsState .off).boot.chip ∧ 1 ≤ field (word 0x100000001) 32 16 := by decide

theorem test_lockstep_digest : (getLs (lsState .comparing) 5).partner = 1 ∧ (1 : Nat) ≠ (lsState .comparing).boot.chip ∧ forMe (lsState .comparing) 0x8000 = true ∧
    digestKnown (lsState .comparing) 5 0 = true ∧ digestOld (lsState .comparing) 5 0 = false ∧
    digestOf (lsState .comparing) 5 0 = (0#128).toNat ∧ digestOf (lsState .comparing) 5 0 ≠ (1#128).toNat ∧
    digestKnown (lsState .comparing) 5 9 = false ∧ (getLs (lsState .comparing) 5).held.length < 16 := by decide

theorem test_lockstep_timeout : (getLs (updLs (lsState .comparing) 5 fun l => { l with since := 100 }) 5).timeout ≤ 100 := by decide

/-! BarriersGatherAndRelease. -/

theorem test_barrier_arrive : reachesOwn (barState 2 false) (reqTenant 5) 5 ∧ noBits (word 3) (bitsFrom 2 63) = true ∧ wbit (word 3) 0 = true ∧
    defined (barState 2 false) 5 = true ∧ (getBar (barState 2 false) 5).valid = true ∧ (getBar (barState 2 false) 5).waiting = false ∧
    (barState 2 false).trl.up = true ∧ (barState 2 false).boot.solitary = false ∧ (barState 1 false).boot.phase = .running := by decide

theorem test_barrier_heard : (getBar (barState 2 true) 5).group = 7 ∧ (getBar (barState 2 true) 5).epoch = 0 ∧
    (3 : Nat) ≠ (barState 2 true).boot.chip ∧ forMe (barState 2 true) 0x8000 = true := by decide

theorem test_barrier_release : (getBar (barState 0 true) 5).members ≤ (getBar (barState 0 true) 5).arrived.length ∧
    releaseAt (getBar (barState 0 true) 5) ≤ now16 ({ barState 0 true with clk := { clk0 with refTick := 8000 } } : State) := by decide

theorem test_barrier_config : noBits (word (2 ^ 21 + 16 * 2 ^ 16 + 500 * 2 ^ 32)) (bitsFrom 22 31 ||| bitsFrom 45 63) = true ∧
    field (word (2 ^ 21 + 16 * 2 ^ 16 + 500 * 2 ^ 32)) 16 5 = 16 ∧ field (word (2 ^ 21 + 16 * 2 ^ 16 + 500 * 2 ^ 32)) 32 13 = 500 ∧
    (getBar (barState 2 false) 5).waiting = false := by decide

/-! TableEnvelopesAreCheckedAndAssigned. -/

theorem test_table_starts : startable (taskState 0x20) 0 0 0x20 = true ∧ startable (taskState 0x21) 0 0 0x21 = true ∧
    startable (taskState 0x22) 0 0 0x22 = true ∧ startable (taskState 0x23) 0 0 0x23 = true ∧
    startable (taskState 0x24) 0 0 0x24 = true ∧ getTask (taskState 0x20) 0 = some (taskOf 0x20) ∧
    getEnv (taskState 0x20) 0 0 = some (envOf 0x20) ∧ (Instr.refreshRows 0 0).envelopeStart = some (0, 0, 0x23) := by decide

theorem test_table_checks : firstBad (tblNames (taskState 0x20) (taskOf 0x20) (envOf 0x20).bytes) = some qsGpeTableInvalid := by decide

theorem test_table_passes : firstBad (tblNames tableState' (taskOf 0x21) (envOf 0x21).bytes) = none ∧
    firstBad (tblExtents tableState' 0 0 (taskOf 0x21) (envOf 0x21).bytes ++ publishChecks tableState' (envOf 0x21).bytes) = none ∧
    movesRows (envOf 0x21).bytes = false ∧ enginesIn tableState' 5 ≠ [] ∧ startable tableState' 0 0 0x21 = true := by decide

theorem test_table_empty : firstBad (tblNames (tableStateOf 0x20) (taskOf 0x20) (envOf 0x20).bytes) = none ∧
    movesRows (envOf 0x20).bytes = true ∧ tblCount (envOf 0x20).bytes = 0 := by decide

/-! TableCommandsAndRetirement. -/

theorem test_table_write : firstBad (tableWriteChecks tableStaged (some 5) 9 (stagedTable (getTblPort tableStaged (some 5)).words)) = none ∧
    reachesOwn tableStaged (reqTenant 5) 5 ∧ (getClr tableStaged 5).st ≠ .absent ∧ field (word 0x90000) 16 16 = 9 ∧
    noBits (word 0x90000) (bitsFrom 4 15 ||| bitsFrom 32 63) = true := by decide

theorem test_table_invalidate : (declOf tableState' 9).isSome = true ∧ mayWriteTable tableState' (some 5) 9 = true ∧
    mayWriteTable tableState' none 9 = true ∧ (getDesc tableState' 9).valid = true ∧
    tableAdmitted (tableStateOf 0) 9 = false ∧ lookupsLeft (tableStateOf 0) 9 = [] ∧
    lookupsLeft (updEnv (tableStateOf 0x10) 0 0 fun v => { v with st := .running }) 9 ≠ [] := by decide

theorem test_table_read : (declOf tableState' 9).map (·.owner) = some (some 5) := by decide

theorem test_invalidate_done : (getDesc (updDesc tableState' 9 fun t => { t with mode := .invalidating }) 9).mode = .invalidating ∧
    lookupsLeft (updDesc tableState' 9 fun t => { t with mode := .invalidating }) 9 = [] ∧
    (getTwin (updTwin tableState' 5 fun w => { w with port := { w.port with desc := 9, waits := true } }) 5).port.waits = true := by decide

theorem test_retire : (chgOf retiring 9 3).isSome = true ∧ (chgOf retiring 9 3).map (canRetire retiring) = some true := by decide

theorem test_held_clear : (getDesc (updDesc retiring 9 fun t => { t with refreshHeld := true, refreshPub := 4 }) 9).refreshHeld = true ∧
    4 + curHold retiring ≤ retiring.clk.postmark ∧
    lookupsOf (updDesc retiring 9 fun t => { t with refreshHeld := true, refreshPub := 4 }) 9 = [] := by decide

/-! ModelsEnterAndLeaveTheCanopy. -/

theorem test_model_load : startable (taskState 0x32) 0 0 0x32 = true ∧
    firstBad (loadChecks (taskState 0x32) (taskOf 0x32) (envOf 0x32).bytes) = some qsSchOperand := by decide

theorem test_model_load_passes : firstBad (loadChecks canopyState (taskOf 0x32) canopyEnv.bytes) = none ∧
    modelOf canopyState 5 (loadId canopyEnv.bytes) = none ∧ getEnv canopyState 0 0 = some canopyEnv := by decide

theorem test_model_load_done : envOpcode loadedEnv.bytes = 0x32 ∧ loadedEnv.st = .running ∧ loadedEnv.phase = 2 ∧
    envBusy loadedState 0 0 = false ∧ getEnv loadedState 0 0 = some loadedEnv ∧
    modelOf loadedState 5 (loadId loadedEnv.bytes) = some (0, ⟨0, false, 0, 1, [], 0⟩) ∧
    modelPasses loadedEnv.block (loadLen loadedEnv.bytes) = none := by decide

theorem test_model_evict : startable (taskState 0x33) 0 0 0x33 = true ∧ zeroAt (envOf 0x33).bytes 0x20 8 = true ∧
    zeroAt (envOf 0x33).bytes 0x30 16 = true ∧ modelOf (taskState 0x33) 5 (loadId (envOf 0x33).bytes) = none := by decide

theorem test_canopy_write : reachesOwn (clrState .opened) (reqTenant 5) 5 ∧
    noBits (word 0) (bitsFrom 13 15 ||| bitsFrom 29 63) = true ∧ (getSwin (clrState .opened) 5).models = [] ∧
    ownPlot (clrState .opened) 5 (0 + 8) = true ∧ field (word 0x10008) 16 13 = 1 ∧ field (word 0x10008) 0 13 = 8 := by decide

theorem test_acct_write : noBits (word 0) (bitsFrom 6 11 ||| bitsFrom 41 63) = true ∧ wbit (word 0) 0 = false ∧
    u32sub (field (word 0) 0 32) (getSwin (clrState .opened) 5).head ≤ u32sub (getSwin (clrState .opened) 5).tail 0 := by decide

/-! JobsStartAndWait. -/

theorem test_job_start : startable (taskState 0x30) 0 0 0x30 = true ∧ jobCores (envOf 0x30).bytes = 0 ∧
    getTask (taskState 0x30) 0 = some (taskOf 0x30) ∧ getEnv (taskState 0x30) 0 0 = some (envOf 0x30) := by decide

theorem test_job_checked : startable jobState 0 0 0x30 = true ∧ getEnv jobState 0 0 = some jobEnv ∧ zeroAt jobEnv.bytes 0x3D 3 = true ∧
    jobCores jobEnv.bytes = 1 ∧ jobCount jobEnv.bytes = 1 ∧ jobFirst jobEnv.bytes = 0 ∧ maskBits (jobMask jobEnv.bytes) = [7] ∧
    coreOwner jobState 7 = some 5 ∧ modelOf jobState 5 (jobModel jobEnv.bytes) = none := by decide

theorem test_job_resident : modelOf jobReady 5 (jobModel jobEnv.bytes) = some (0, ⟨0, true, 0, 1, [⟨1, false, false, 1, 3, 256⟩], 0⟩) ∧
    startable jobReady 0 0 0x30 = true ∧ jobCores jobEnv.bytes ≤ (maskCores jobReady 5 (jobMask jobEnv.bytes)).length := by decide

theorem test_job_wait : startable (taskState 0x31) 0 0 0x31 = true ∧ zeroAt (envOf 0x31).bytes 0x20 32 = true ∧
    envFlag (envOf 0x31).bytes 2 = false := by decide

theorem test_sch_weight : (getCtx liveState 40).st = .live ∧ ctxOwner liveState 40 = some 5 ∧ reachesGlobal liveState reqRanger ∧
    noBits (word 9) (bitsFrom 16 63) = true ∧ (getClr liveState 5).cfg.tunable.getLsbD 4 = true ∧
    (getClr liveState 5).cfg.weightMin ≤ field (word 9) 0 16 ∧ field (word 9) 0 16 ≤ (getClr liveState 5).cfg.weightMax := by decide

/-! PassesIssueAndEnd. -/

theorem test_pass_issue : (getCore passState 7).job = some 0 ∧ getJob passState 0 = some startedJob ∧
    passOf passState startedJob (getCore passState 7).passes.length = some ⟨1, false, false, 1, 3, 256⟩ ∧ startedJob.st = .started ∧
    (getCore passState 7).passes.length < startedJob.count ∧ (getCore passState 7).freeze = false ∧ (getCore passState 7).frozen = false ∧
    (getCore passState 7).rst = false ∧ coreFailed passState 7 = false ∧ domainOn passState (7 / 2) = true ∧ lsFrozen passState startedJob.n = false ∧
    ((getCore passState 7).passes.filter fun r => r.ended.isNone).length < 2 ∧ (getClr passState startedJob.n).cfg.fixed = false := by
  decide

theorem test_pass_done : ((getCore inFlightState 7).passes.find? fun p => p.pos == 0 && p.ended.isNone) = some ⟨0, 0, none, 99⟩ ∧
    (getCore inFlightState 7).job = some 0 ∧ getJob inFlightState 0 = some startedJob ∧ coreFailed inFlightState 7 = false ∧
    inert inFlightState = false ∧ (getCore inFlightState 7).rst = false := by decide

theorem test_pass_watchdog : ((getCore inFlightState 7).passes.reverse.find? fun p => p.ended.isNone && inFlightState.sch.passwd < p.ticks) =
    some ⟨0, 0, none, 99⟩ := by decide

theorem test_pass_step :
    (match execPassDone 7 0 0 true inFlightState with
      | .next t => (getCore t 7).passes.all fun p => p.ended.isSome
      | _ => false) = true := by decide

/-! CoresAndEnginesFreezeResetAndReport. -/

theorem test_core_frozen : inert startedState = false ∧ coreFailed startedState 7 = false ∧
    (getCore (updCore startedState 7 fun k => { k with freeze := true }) 7).freeze = true ∧
    (getCore (updCore startedState 7 fun k => { k with freeze := true }) 7).frozen = false ∧
    (getCore (updCore startedState 7 fun k => { k with freeze := true, wantReset := true }) 7).wantReset = true := by decide

theorem test_resets : (getCore (updCore startedState 7 fun k => { k with rst := true, resetTicks := 2 }) 7).rst = true ∧
    2 ≤ (getCore (updCore startedState 7 fun k => { k with rst := true, resetTicks := 2 }) 7).resetTicks ∧
    (getEngine (updEngine startedState 7 fun k => { k with resetting := true, resetTicks := 2 }) 7).resetting = true ∧
    2 ≤ (getEngine (updEngine startedState 7 fun k => { k with resetting := true, resetTicks := 2 }) 7).resetTicks := by decide

theorem test_engine_faults : engineFailed startedState 7 = false ∧ (faultAdd startedState (getEngine startedState 7).faults).length < 4 ∧
    4 ≤ (faultAdd startedState (getEngine (updEngine startedState 7 fun k => { k with faults := [0, 0, 0] }) 7).faults).length := by decide

theorem test_core_reports : startedState.boot.phase = .running ∧ (getRing startedState 64).arrivals = [] ∧
    coreFailed startedState 7 = false ∧ (getCore startedState 7).spareMap ≠ 1 := by decide

/-! TransfersAndUnsealsStart. -/

theorem test_transfer_start : startable (taskState 0x40) 0 0 0x40 = true ∧ startable (taskState 0x41) 0 0 0x41 = true ∧
    startable (taskState 0x42) 0 0 0x42 = true ∧ startable (taskState 0x43) 0 0 0x43 = true ∧
    (Instr.advise 0 0).envelopeStart = some (0, 0, 0x43) ∧ xferOperands (envOf 0x40).bytes = true ∧
    xferEmpty (envOf 0x40).bytes = true := by decide

theorem test_transfer_checks : xferOperands copyEnv.bytes = true ∧ xferEmpty copyEnv.bytes = false ∧
    firstBad (xferExtents copyState (taskOf 0x40) copyEnv.bytes) = some qsXltNoPasid ∧ getEnv copyState 0 0 = some copyEnv ∧
    startable copyState 0 0 0x40 = true := by decide

theorem test_transfer_runs : firstBad (xferExtents copyBound (taskOf 0x40) copyEnv.bytes) = none ∧ startable copyBound 0 0 0x40 = true := by
  decide

theorem test_unseal_start : startable (taskState 0x50) 0 0 0x50 = true ∧
    firstBad (unsealKeyChecks (taskState 0x50) (taskOf 0x50) (envOf 0x50).bytes) = some qsNotOwner := by decide

/-! HostReadsAndTranslationsAreAnswered. -/

theorem test_host_read : getHostOut hostState 3 = some ⟨.acc 0, 6, some 9, 5, 40, 1, false⟩ ∧ getAcc hostState 0 = some hostAcc ∧
    hostAcc.client = .env 0 0 ∧ hostAcc.kind = .read ∧ ((getEnv hostState 0 0).map (·.st)) = some .running ∧
    getHostOut startedState 3 = none ∧ inert hostState = false := by decide

theorem test_host_dead : getHostOut (setHostOut startedState 3 (some ⟨.dead, 6, some 9, 5, 40, 1, false⟩)) 3 =
      some ⟨.dead, 6, some 9, 5, 40, 1, false⟩ ∧
    (startedState.xlt.heldFills.any fun h => h.1 == 3) = false ∧
    getHostOut (setHostOut startedState 3 (some ⟨.lost 7 5, 6, some 9, 5, 40, 1, false⟩)) 3 =
      some ⟨.lost 7 5, 6, some 9, 5, 40, 1, false⟩ := by decide

theorem test_translation : getHostOut (missState 4) 4 = some ⟨.ats 7 false 5 true, 6, some 9, 5, 40, 1, false⟩ ∧
    (getAcc (missState 4) 0).map (·.st) = some (.xlt 4) ∧
    ((missState 4).xlt.heldFills.any fun h => h.1 == 4) = false ∧ canFill (missState 4) ⟨6, 9, 7, 99, true, false, false, 5⟩ = true ∧
    (∀ x ∈ waitersOf (missState 4) 4, (if needsWrite x.2 then false else true) = true) := by decide

theorem fullUnit_entries (k : Nat) : (fullUnit k).xlt.entries = List.replicate k ⟨6, 9, 15, 0, true, true, true, 5⟩ := rfl

theorem same_unit : xltUnitOf 15 9 = xltUnitOf 7 9 := by decide

theorem canFill_full (k : Nat) (hk : 8192 ≤ k) : canFill (fullUnit k) ⟨6, 9, 7, 99, true, false, false, 5⟩ = false := by
  simp [canFill, entryOf, entryFor, canTake, roomInUnit, unitUsed, victimOf, entryUnit, fullUnit_entries, same_unit, hk]

theorem test_translation_held : canFill (fullUnit 8192) ⟨6, 9, 7, 99, true, false, false, 5⟩ = false ∧
    (fullUnit 8192).xlt.heldFills = [] := ⟨canFill_full 8192 (Nat.le_refl _), rfl⟩

/-! PageRequestsAndInvalidations. -/

theorem test_invalidate_unbound : inert startedState = false ∧ ctxBound startedState 6 9 = false ∧ funcBound startedState 6 = false := by decide

theorem test_invalidate_bound : ctxBound boundState 6 9 = true ∧ funcBound boundState 6 = true := by decide

theorem test_invalidate_drained : ((updXlt startedState fun x => { x with inval := [⟨6, 3, [], [], []⟩] }).xlt.inval.find? fun x =>
    x.func == 6 && x.itag == 3) = some ⟨6, 3, [], [], []⟩ := by decide

theorem test_prg_response : tabGet none (faultState 6 2).xlt.pri (priKey 6 2) = some ⟨6, 9, 7, false, 0, false⟩ ∧
    ctxBound (faultState 6 2) 6 9 = true ∧ (getAcc (faultState 6 2) 0).map (·.st) = some (.fault (priKey 6 2)) ∧
    tabGet none startedState.xlt.pri (priKey 6 2) = none := by decide

theorem test_prg_timeout : (updXlt (faultState 6 2) fun x => { x with timeout := 0 }).xlt.timeout ≤ 0 := by decide

/-! PeersFabricAndCoreRequests. -/

theorem test_peer_bind : reachesGlobal peerState reqRanger ∧ noBits (word 0) (bitsFrom 10 15 ||| bitsFrom 20 63) = true ∧
    noBits peerState.xlt.stage0 (bitsFrom 10 15 ||| bitsFrom 28 31 ||| bitsFrom 49 63) = true ∧
    noBits peerState.xlt.stage1 (bitsFrom 12 15 ||| bitsFrom 29 31 ||| bitsFrom 45 63) = true ∧
    (stagedBinding peerState).srcChip ≠ peerState.boot.chip ∧ (stagedBinding peerState).srcGen = 3 ∧
    (getCtx peerState (stagedBinding peerState).ctx).st = .live ∧ (stagedBinding peerState).count = 1 ∧
    ctxOwner peerState (stagedBinding peerState).ctx = some 5 ∧ ownPlot peerState 5 (0 + (stagedBinding peerState).plot) = true ∧
    peerState.xlt.bindings = [] := by decide

theorem test_fabric_in : (boundPeer.xlt.bindings.find? fun kv => kv.2.valid && kv.2.srcChip == 1 && kv.2.srcCtx == 2) =
    some (0, stagedBinding peerState) ∧ bindingStale boundPeer (stagedBinding peerState) = false ∧
    inRange (stagedBinding peerState).plot (stagedBinding peerState).count (8 * 2 ^ 28 / 2 ^ 28) = true ∧
    gate boundPeer false (8 * 2 ^ 28) (stagedBinding peerState).ctx (stagedBinding peerState).gen = true ∧ inert boundPeer = false := by decide

theorem test_fabric_answer : tabGet none (setFabOut startedState 2 (some ⟨some (7, 1), none, 40, 1, 5, false, 0⟩)).xlt.fabOut 2 =
    some ⟨some (7, 1), none, 40, 1, 5, false, 0⟩ ∧ tabGet none startedState.xlt.fabOut 2 = none ∧
    genOk startedState 40 2 = false ∧ genOk passState 40 (getCtx passState 40).gen = true := by decide

theorem test_core_request : (getCore startedState 7).job = none ∧ coreFailed startedState 7 = false ∧ (7 : Nat) ∈ startedJob.held ∧
    placeOf passState (deviceAddr passState (8 * 2 ^ 28)) = .plot (8 * 2 ^ 28) ∧
    gate passState false (8 * 2 ^ 28) startedJob.ctx startedJob.gen = true ∧ gate passState false 0 startedJob.ctx startedJob.gen = false ∧
    genOk passState startedJob.ctx startedJob.gen = true ∧ freeFabTag passState = some 0 ∧
    placeOf passState (2 ^ 50) = .remote 1 0 := by decide

/-! KeyCommandsActOnSlotsAndDebugAccess. -/

theorem test_key_commands : reachesGlobal startedState reqRanger ∧
    noBits (word 0x100) (bitsFrom 4 7 ||| bitsFrom 18 23 ||| bitsFrom 32 63) = true ∧ startedState.key.busy = false ∧
    (getXch startedState 64).busy = false ∧ field (word 0x100) 24 8 = 0 ∧ field (word 0x100) 8 10 = 1 ∧
    firstBad (slotChecks (updKey startedState fun k => { k with stageAttr := 1 }) 1 (some 1)) = none ∧
    firstBad (slotChecks startedState 1 none) = none := by decide

theorem test_key_enrol : startedState.boot.lc = 0 ∧ (updBoot startedState fun b => { b with flashPresent := true }).boot.flashPresent = true ∧
    (getRot startedState 64).out = none ∧ field (word 0) 8 10 = 0 ∧ field (word 0) 24 8 = 0 := by decide

theorem test_key_setpass : (updBoot startedState fun b => { b with lc := 1 }).boot.lc = 1 ∧ field (word (16 * 2 ^ 24)) 24 8 = 16 ∧
    field (word (16 * 2 ^ 24)) 8 10 = 0 := by decide

theorem test_key_advance : lcLegal startedState.boot.lc (field (word (2 ^ 24)) 24 8) = true ∧ clearingsShut startedState = true ∧
    lcNeedsAuth startedState.boot.lc (field (word (2 ^ 24)) 24 8) = false ∧ startedState.boot.rootAbsent = false := by decide

theorem test_key_debug : startedState.key.lockedOut = false ∧ startedState.boot.pass = none ∧ startedState.boot.lc ≠ 3 ∧
    authValid startedState 1 0 startedState.key.nonceDebug (xchBytes startedState 64 192) = false := by decide

/-! ExchangesWithTheRootOfTrust. -/

theorem test_spdm : reachesGlobal startedState reqRanger ∧ startedState.key.busy = false ∧ field (word 0x10001) 16 13 = 1 ∧
    noBits (word 0x10001) (bitsFrom 4 15 ||| bitsFrom 29 31 ||| bitsFrom 42 63) = true ∧ (getXch startedState 64).busy = false ∧
    startedState.boot.rootAbsent = false ∧ field (word 0x10001) 32 10 = 0 ∧ (getRot startedState 64).out = none := by decide

theorem test_unwrap : reachesOwn keyState (reqTenant 5) 5 ∧ (getClr keyState 5).st ≠ .absent ∧
    keyOwner keyState (field (word (0x1100002 + 6 * 2 ^ 32)) 32 10) = some 5 ∧ field (word (0x1100002 + 6 * 2 ^ 32)) 16 13 = 272 ∧
    oldHeld keyState 6 = false ∧ (getRot keyState 5).out = none := by decide

theorem test_rot_reply : inert (rotState .spdm) = false ∧ (getRot (rotState .spdm) 5).out = some (3, ⟨.spdm, []⟩) ∧ (getRot (rotState (.unwrap 6)) 5).out = some (3, ⟨.unwrap 6, []⟩) ∧
    unwrapOut (rotState (.unwrap 6)) 6 = true ∧ unwrapOut startedState 6 = false ∧ keyAttrOk (rotState (.unwrap 6)) 6 1 = true ∧
    oldHeld (rotState (.unwrap 6)) 6 = false := by decide

/-! BarrierConfigurationsAreRefused. -/

theorem test_barcfg_absent : reachesGlobal startedState reqRanger ∧ (getClr startedState 5).st = .absent ∧
    noBits (word 0) (bitsFrom 22 31 ||| bitsFrom 45 63) = true := by decide

theorem test_barcfg_range : (getClr (barState 2 false) 5).st ≠ .absent ∧ wbit (word (2 ^ 21 + 499 * 2 ^ 32 + 2 ^ 16)) 21 = true ∧
    field (word (2 ^ 21 + 499 * 2 ^ 32 + 2 ^ 16)) 32 13 = 499 ∧
    noBits (word (2 ^ 21 + 499 * 2 ^ 32 + 2 ^ 16)) (bitsFrom 22 31 ||| bitsFrom 45 63) = true := by decide

theorem test_barcfg_busy : (getBar (barState 2 true) 5).waiting = true ∧ (getClr (barState 2 true) 5).st ≠ .absent ∧
    wbit (word 7) 21 = false ∧ noBits (word 7) (bitsFrom 22 31 ||| bitsFrom 45 63) = true := by decide

/-! AccountingRingsStayInTheirPlots. -/

theorem test_acct_range : reachesOwn openedState (reqTenant 5) 5 ∧ noBits (word 7) (bitsFrom 6 11 ||| bitsFrom 41 63) = true ∧
    wbit (word 7) 0 = true ∧ field (word 7) 1 5 = 3 ∧ field (word 43) 1 5 = 21 ∧ ownPlot openedState 5 0 = false := by decide

theorem test_acct_accepted : wbit (word (9 + 8 * 2 ^ 28)) 0 = true ∧ field (word (9 + 8 * 2 ^ 28)) 1 5 = 4 ∧
    field (word (9 + 8 * 2 ^ 28)) 12 29 * 4096 = 8 * 2 ^ 28 ∧ ownPlot openedState 5 8 = true ∧
    noBits (word (9 + 8 * 2 ^ 28)) (bitsFrom 6 11 ||| bitsFrom 41 63) = true := by decide

theorem test_acct_pointer : u32sub (getSwin openedState 5).tail (getSwin openedState 5).head <
    u32sub (field (word 1) 0 32) (getSwin openedState 5).head := by decide

/-! MailboxLocksAreTakenReleasedAndBroken. -/

theorem test_mbx_lock_free : startedState.boot.phase = .running ∧ (inPhase .bare).boot.phase = .bare ∧ reqTenant 5 ≠ 0 ∧
    (getMbx startedState 9).holder = 0 ∧ (getMbx (mbxState 9) 9).holder ≠ 0 := by decide

theorem test_mbx_release : noBits (word 1) (bitsFrom 2 63) = true ∧ wbit (word 1) 1 = false ∧ wbit (word 3) 1 = true ∧
    wbit (word 3) 0 = true ∧ (getMbx (mbxState 9) 9).holder = reqTenant 5 ∧ (getMbx (mbxState 9) 9).holder ≠ reqTenant 6 := by decide

theorem test_mbx_break : noBits (word 2) (bitsFrom 2 63) = true ∧ wbit (word 2) 0 = false ∧ privileged startedState reqRanger = true ∧
    privileged startedState (reqTenant 5) = false ∧ reqRanger ≠ 0 := by decide

end Sys2Proof.Machine
end

section
/-! PROOFS. The scope of the model: the order of commands, and what every command leaves of the queue and of the bounded
registers. -/

namespace Sys2Proof.Machine

/-- Settles O1: the queue of the state that a step takes a command from is that command before the rest. -/
theorem stepRunsFrontCommand : Obligations.StepRunsFrontCommand := fun _ _ _ => rfl

/-! Every command answers a next state, keeps the queue and leaves the bounded registers legal (R1, R13). -/

/-- The result `r` of a command on `s` is a next state, with the queue of `s`, and with legal values in the bounded
registers where `s` has them. -/
def AnswersWithin (r : Result) (s : State) : Prop := ∃ t, r = .next t ∧ Stays s t

theorem AnswersWithin.next {s t : State} (h : Stays s t) : AnswersWithin (.next t) s := ⟨t, rfl, h⟩

theorem AnswersWithin.of_kept {r : Result} {s : State} (h : ∃ t, r = .next t ∧ kept t = kept s) : AnswersWithin r s :=
  h.imp fun _ ht => ⟨ht.1, .of_kept ht.2⟩

/-- The values of R526 for the bounded registers are legal. -/
theorem legalConfig_reset (pending : List Instr) : legalConfig ⟨10000, 100, 10, 20000, 10, pending⟩ = true := by
  simp [legalConfig]

theorem powerOnState_stays (s : State) : Stays s (powerOnState s) :=
  ⟨fun _ => powerOnState_kept s ▸ legalConfig_reset s.pending, rfl⟩

theorem warmState_stays (s : State) : Stays s (warmState s) :=
  ⟨fun _ => warmState_kept s ▸ legalConfig_reset s.pending, rfl⟩

theorem heard_stays (s : State) (f : State → State) (h : ∀ s, Stays s (f s)) : Stays s (heard s f) := by
  unfold heard
  split
  · exact .of_kept rfl
  · exact h s

/-- A read at the register port leaves the queue and the bounded registers alone. -/
theorem execRegisterRead_kept (a : Access) (s : State) : ∃ t, execRegisterRead a s = .next t ∧ kept t = kept s :=
  ⟨_, rfl, by simp⟩

/-- Most commands leave the bounded registers alone. The two resets and the resets of the physical function put reset
values there; a write at the port or by DBG_REG puts a checked value there; ROT_REPLY may end in a warm reset. -/
theorem exec_answersWithin (i : Instr) (s : State) : AnswersWithin (exec i s) s :=
  match i with
  | .powerOnReset => .next (powerOnState_stays s)
  | .warmReset => .next (warmState_stays s)
  | .resetDeasserted puf => .of_kept (execResetDeasserted_kept puf s)
  | .romPhaseEnd => .of_kept (execRomPhaseEnd_kept s)
  | .rotLcValid inp => .of_kept (execRotLcValid_kept inp s)
  | .rotLcTimeout => .of_kept (execRotLcTimeout_kept s)
  | .memoryPhaseEnd inp => .of_kept (execMemoryPhaseEnd_kept inp s)
  | .memoryPhaseTimeout stack => .of_kept (execMemoryPhaseTimeout_kept stack s)
  | .flashImageReadDone bs => .of_kept (execFlashImageReadDone_kept bs s)
  | .imageReadTimeout => .of_kept (execImageReadTimeout_kept s)
  | .startupScrubDone => .of_kept (execStartupScrubDone_kept s)
  | .powerPhaseEnd => .of_kept (execPowerPhaseEnd_kept s)
  | .phaseTimeout => .of_kept (execPhaseTimeout_kept s)
  | .startupBoundary => .of_kept (execStartupBoundary_kept s)
  | .trailTrainingTimeout => .of_kept (execTrailTrainingTimeout_kept s)
  | .launchWaitTimeout => .of_kept (execLaunchWaitTimeout_kept s)
  | .firstTick => .of_kept (execFirstTick_kept s)
  | .bootImage => .of_kept (execBootImage_kept s)
  | .bootSettings => .of_kept (execBootSettings_kept s)
  | .bootDeliveryDone r => .of_kept (execBootDeliveryDone_kept r s)
  | .tickBoundary wires => .of_kept (execTickBoundary_kept wires s)
  | .calendarPhase wires => .of_kept (execCalendarPhase_kept wires s)
  | .registerWrite a w r => .next (portWrite_stays a w r s)
  | .registerRead a => .of_kept (execRegisterRead_kept a s)
  | .clrOpen q w => .of_kept (execClrOpen_kept q w s)
  | .clrQuiesce q w => .of_kept (execClrQuiesce_kept q w s)
  | .clrClose q w => .of_kept (execClrClose_kept q w s)
  | .clrReset q w => .of_kept (execClrReset_kept q w s)
  | .quiesceTimerExpire n => .of_kept (execQuiesceTimerExpire_kept n s)
  | .fenceDrained n => .of_kept (execFenceDrained_kept n s)
  | .clearingResetDone n => .of_kept (execClearingResetDone_kept n s)
  | .manifestIssueDone n => .of_kept (execManifestIssueDone_kept n s)
  | .clrNonce1Write q n w => .of_kept (execClrNonce1Write_kept q n w s)
  | .ctxCreate q n w => .of_kept (execCtxCreate_kept q n w s)
  | .ctxDestroy q n w => .of_kept (execCtxDestroy_kept q n w s)
  | .ctxTeardown q n w => .of_kept (execCtxTeardown_kept q n w s)
  | .contextDrained c => .of_kept (execContextDrained_kept c s)
  | .imgLoad q w => .of_kept (execImgLoad_kept q w s)
  | .imgLoadDone r => .of_kept (execImgLoadDone_kept r s)
  | .imgApply q w => .of_kept (execImgApply_kept q w s)
  | .imgCommit q w => .of_kept (execImgCommit_kept q w s)
  | .imgDiscard q w => .of_kept (execImgDiscard_kept q w s)
  | .imgFlash q w => .of_kept (execImgFlash_kept q w s)
  | .imgSettings q w r => .of_kept (execImgSettings_kept q w r s)
  | .flashWriteDone => .of_kept (execFlashWriteDone_kept s)
  | .flashOpTimeout => .of_kept (execFlashOpTimeout_kept s)
  | .plotScrubDone plot => .of_kept (execPlotScrubDone_kept plot s)
  | .functionLevelReset f => .of_kept (execFunctionLevelReset_kept f s)
  | .pfFunctionLevelReset => .next (linkReset_stays s [0])
  | .hotReset => .next (linkReset_stays s (liveFuncs s))
  | .vfEnableChange numVfs => .of_kept (execVfEnableChange_kept numVfs s)
  | .resetSlow n => .of_kept (execResetSlow_kept n s)
  | .doorbell a w => .next (portWrite_stays a w .failed s)
  | .doorbellApply queue => .of_kept (execDoorbellApply_kept queue s)
  | .queConfig q n w => .of_kept (execQueConfig_kept q n w s)
  | .queEnable q n w => .of_kept (execQueEnable_kept q n w s)
  | .queDisable q n w => .of_kept (execQueDisable_kept q n w s)
  | .queRead q n w => .of_kept (execQueRead_kept q n w s)
  | .envelopeFetch queue r => .of_kept (execEnvelopeFetch_kept queue r s)
  | .batchAdmit queue => .of_kept (execBatchAdmit_kept queue s)
  | .taskDeadline task => .of_kept (execTaskDeadline_kept task s)
  | .taskEnd task => .of_kept (execTaskEnd_kept task s)
  | .coalesceTimeout queue => .of_kept (execCoalesceTimeout_kept queue s)
  | .nop task env => .of_kept (execNop_kept task env s)
  | .fence task env => .of_kept (execFence_kept task env s)
  | .stmQuotaWrite q n w => .of_kept (execStmQuotaWrite_kept q n w s)
  | .gatherPool task env => .of_kept (execGatherPool_kept task env s)
  | .gather task env => .of_kept (execGather_kept task env s)
  | .reduce task env => .of_kept (execReduce_kept task env s)
  | .envelopeAssign task env => .of_kept (execEnvelopeAssign_kept task env s)
  | .engineInternalFault e kind => .of_kept (execEngineInternalFault_kept e kind s)
  | .engineResetAck e => .of_kept (execEngineResetAck_kept e s)
  | .update task env => .of_kept (execUpdate_kept task env s)
  | .publish task env => .of_kept (execPublish_kept task env s)
  | .refreshBegin task env => .of_kept (execRefreshBegin_kept task env s)
  | .refreshRows task env => .of_kept (execRefreshRows_kept task env s)
  | .refreshAbort task env => .of_kept (execRefreshAbort_kept task env s)
  | .changeEntryRetire desc row => .of_kept (execChangeEntryRetire_kept desc row s)
  | .refreshHeldClear desc => .of_kept (execRefreshHeldClear_kept desc s)
  | .tableWrite q n w => .of_kept (execTableWrite_kept q n w s)
  | .tableInvalidate q n w => .of_kept (execTableInvalidate_kept q n w s)
  | .tableRead q n w => .of_kept (execTableRead_kept q n w s)
  | .invalidateDone desc => .of_kept (execInvalidateDone_kept desc s)
  | .job task env => .of_kept (execJob_kept task env s)
  | .jobWait task env => .of_kept (execJobWait_kept task env s)
  | .modelLoad task env => .of_kept (execModelLoad_kept task env s)
  | .modelLoadDone task env => .of_kept (execModelLoadDone_kept task env s)
  | .modelEvict task env => .of_kept (execModelEvict_kept task env s)
  | .passIssue core => .of_kept (execPassIssue_kept core s)
  | .passDone core tag status drained => .of_kept (execPassDone_kept core tag status drained s)
  | .passWatchdog core => .of_kept (execPassWatchdog_kept core s)
  | .coreFrozen core => .of_kept (execCoreFrozen_kept core s)
  | .coreResetAck core => .of_kept (execCoreResetAck_kept core s)
  | .resetHang isCore unit => .of_kept (execResetHang_kept isCore unit s)
  | .coreMemoryRequest core r => .of_kept (execCoreMemoryRequest_kept core r s)
  | .coreErrorReport core code => .of_kept (execCoreErrorReport_kept core code s)
  | .spareMapChange core map => .of_kept (execSpareMapChange_kept core map s)
  | .schWeightWrite q c w => .of_kept (execSchWeightWrite_kept q c w s)
  | .schWcanopyWrite q n w => .of_kept (execSchWcanopyWrite_kept q n w s)
  | .schWacctWrite q n ptr w => .of_kept (execSchWacctWrite_kept q n ptr w s)
  | .memoryResponse stack lane tag ecc data => .of_kept (execMemoryResponse_kept stack lane tag ecc data s)
  | .memoryResponseTimeout stack lane tag => .of_kept (execMemoryResponseTimeout_kept stack lane tag s)
  | .holdBegin p => .of_kept (execHoldBegin_kept p s)
  | .holdEnd p => .of_kept (execHoldEnd_kept p s)
  | .holdLimit p => .of_kept (execHoldLimit_kept p s)
  | .pchFail p level => .of_kept (execPchFail_kept p level s)
  | .remap q w => .of_kept (execRemap_kept q w s)
  | .restore q w => .of_kept (execRestore_kept q w s)
  | .marginingRequest q w => .of_kept (execMarginingRequest_kept q w s)
  | .marginingResponse stack rsp => .of_kept (execMarginingResponse_kept stack rsp s)
  | .elaClassWrite q n c w => .of_kept (execElaClassWrite_kept q n c w s)
  | .elaCtrlWrite q n w => .of_kept (execElaCtrlWrite_kept q n w s)
  | .hostReadCompletion tag st data => .of_kept (execHostReadCompletion_kept tag st data s)
  | .translationCompletion tag r => .of_kept (execTranslationCompletion_kept tag r s)
  | .atsInvalidate func pasid itag => .of_kept (execAtsInvalidate_kept func pasid itag s)
  | .invalidateDrained func itag => .of_kept (execInvalidateDrained_kept func itag s)
  | .prgResponse func pasid index code => .of_kept (execPrgResponse_kept func pasid index code s)
  | .pageRequestTimeout func index => .of_kept (execPageRequestTimeout_kept func index s)
  | .pageRequestInterfaceReset func => .of_kept (execPageRequestInterfaceReset_kept func s)
  | .copy task env => .of_kept (execCopy_kept task env s)
  | .copy2d task env => .of_kept (execCopy2d_kept task env s)
  | .prefetch task env => .of_kept (execPrefetch_kept task env s)
  | .advise task env => .of_kept (execAdvise_kept task env s)
  | .peerBind q w => .of_kept (execPeerBind_kept q w s)
  | .peerUnbind q w => .of_kept (execPeerUnbind_kept q w s)
  | .fabricInboundRequest r => .of_kept (execFabricInboundRequest_kept r s)
  | .fabricResponse tag status data => .of_kept (execFabricResponse_kept tag status data s)
  | .keyWrite q w => .of_kept (execKeyWrite_kept q w s)
  | .keyErase q w => .of_kept (execKeyErase_kept q w s)
  | .keyEnrol q w => .of_kept (execKeyEnrol_kept q w s)
  | .keySetpass q w => .of_kept (execKeySetpass_kept q w s)
  | .keyLcAdvance q w => .of_kept (execKeyLcAdvance_kept q w s)
  | .keyChallenge q w => .of_kept (execKeyChallenge_kept q w s)
  | .keyDbgAuth q w => .of_kept (execKeyDbgAuth_kept q w s)
  | .keyDbgPass q w => .of_kept (execKeyDbgPass_kept q w s)
  | .keyDbgClose q w => .of_kept (execKeyDbgClose_kept q w s)
  | .keySpdm q n w => .of_kept (execKeySpdm_kept q n w s)
  | .keyUnwrap q n w => .of_kept (execKeyUnwrap_kept q n w s)
  | .unsealData task env => .of_kept (execUnsealData_kept task env s)
  | .rotReply m => .next (heard_stays s _ (rotReply_stays m))
  | .rotKeyRelease slot key attr => .of_kept (execRotKeyRelease_kept slot key attr s)
  | .rotTimeout origin => .of_kept (execRotTimeout_kept origin s)
  | .rotLcChange lc => .of_kept (execRotLcChange_kept lc s)
  | .tapIdcode => .of_kept (execTapIdcode_kept s)
  | .tapBypass ir => .of_kept (execTapBypass_kept ir s)
  | .tapSamplePreload pins cells => .of_kept (execTapSamplePreload_kept pins cells s)
  | .tapExtest pins cells => .of_kept (execTapExtest_kept pins cells s)
  | .tapDbgReg write off data r => .next (tapGuard_stays s 0x40 _ (dbgReg_stays write off data r))
  | .tapDbgDmi dmi => .of_kept (execTapDbgDmi_kept dmi s)
  | .tapDbgStatus => .of_kept (execTapDbgStatus_kept s)
  | .tapTestLogicReset => .of_kept (execTapTestLogicReset_kept s)
  | .mbxLockAcquire q m => .of_kept (execMbxLockAcquire_kept q m s)
  | .mbxRelease q m w => .of_kept (execMbxRelease_kept q m w s)
  | .mbxBreak q m w => .of_kept (execMbxBreak_kept q m w s)
  | .mbxDataWrite q m k w => .of_kept (execMbxDataWrite_kept q m k w s)
  | .mbxPost q m w => .of_kept (execMbxPost_kept q m w s)
  | .mbxTake q m w => .of_kept (execMbxTake_kept q m w s)
  | .mbxAckTaken q m w => .of_kept (execMbxAckTaken_kept q m w s)
  | .mbxAckPosted q m w => .of_kept (execMbxAckPosted_kept q m w s)
  | .mbxRecvWrite q m w => .of_kept (execMbxRecvWrite_kept q m w s)
  | .pwrCmd q w => .of_kept (execPwrCmd_kept q w s)
  | .powerAck d => .of_kept (execPowerAck_kept d s)
  | .powerFault d state3 => .of_kept (execPowerFault_kept d state3 s)
  | .powerAckTimeout d => .of_kept (execPowerAckTimeout_kept d s)
  | .controlCoreWfi core => .of_kept (execControlCoreWfi_kept core s)
  | .errDump q w => .of_kept (execErrDump_kept q w s)
  | .errDumpCopy q w => .of_kept (execErrDumpCopy_kept q w s)
  | .errDumpCopyDone ok => .of_kept (execErrDumpCopyDone_kept ok s)
  | .errDumpRelease q w => .of_kept (execErrDumpRelease_kept q w s)
  | .crashDumpDone sram lost => .of_kept (execCrashDumpDone_kept sram lost s)
  | .errFailCore q w => .of_kept (execErrFailCore_kept q w s)
  | .errFailEngine q w => .of_kept (execErrFailEngine_kept q w s)
  | .errAbort q w => .of_kept (execErrAbort_kept q w s)
  | .errWabort q n w => .of_kept (execErrWabort_kept q n w s)
  | .abortReceived h group postmark => .of_kept (execAbortReceived_kept h group postmark s)
  | .fenceTimeout n => .of_kept (execFenceTimeout_kept n s)
  | .fwException t => .of_kept (execFwException_kept t s)
  | .ringHeadWrite q n w => .of_kept (execRingHeadWrite_kept q n w s)
  | .lsStart q w => .of_kept (execLsStart_kept q w s)
  | .lsStop q w => .of_kept (execLsStop_kept q w s)
  | .detLscfgWrite q n w => .of_kept (execDetLscfgWrite_kept q n w s)
  | .trlDigest h n t d => .of_kept (execTrlDigest_kept h n t d s)
  | .trlLsFreeze h n cause postmark => .of_kept (execTrlLsFreeze_kept h n cause postmark s)
  | .lockstepTimeout n => .of_kept (execLockstepTimeout_kept n s)
  | .trlRetrain q w => .of_kept (execTrlRetrain_kept q w s)
  | .trlSolo q w => .of_kept (execTrlSolo_kept q w s)
  | .trlTrainingDone lanes rxOk echoes => .of_kept (execTrlTrainingDone_kept lanes rxOk echoes s)
  | .trlLaneFault lane f errors => .of_kept (execTrlLaneFault_kept lane f errors s)
  | .trlLinkState h mask => .of_kept (execTrlLinkState_kept h mask s)
  | .trlRetrainTimer => .of_kept (execTrlRetrainTimer_kept s)
  | .trlHelloTimer => .of_kept (execTrlHelloTimer_kept s)
  | .trlHello h firstPm state tickUs => .of_kept (execTrlHello_kept h firstPm state tickUs s)
  | .trlLaunchMasterTimeout => .of_kept (execTrlLaunchMasterTimeout_kept s)
  | .trlLaunch h pm leadUs tickUs => .of_kept (execTrlLaunch_kept h pm leadUs tickUs s)
  | .trlHeartbeat h pm tickUs => .of_kept (execTrlHeartbeat_kept h pm tickUs s)
  | .trlPeerLost chip => .of_kept (execTrlPeerLost_kept chip s)
  | .trlArrive h group epoch => .of_kept (execTrlArrive_kept h group epoch s)
  | .trlWbarcmd q n w => .of_kept (execTrlWbarcmd_kept q n w s)
  | .barrierRelease n => .of_kept (execBarrierRelease_kept n s)
  | .trlBarcfgWrite q n w => .of_kept (execTrlBarcfgWrite_kept q n w s)
  | .trailFrameDropped frame => .of_kept (execTrailFrameDropped_kept frame s)

/-- Settles O3, from what every command answers. -/
theorem noCommandStops : Obligations.NoCommandStops := by
  intro i s
  obtain ⟨t, ht, -, hqueue⟩ := exec_answersWithin i s
  exact ⟨t, ht, hqueue⟩

theorem safe_iff (s : State) : s.safe = true ↔ legalConfig (kept s) = true ∧ ∀ c ∈ s.pending, c.wf = true := by
  simp [State.safe]

/-- The bounds say nothing of the queue. -/
theorem legalConfig_pending (s : State) (cs : List Instr) :
    legalConfig (kept { s with pending := cs }) = legalConfig (kept s) := rfl

/-- A step leaves the bounded registers legal, and no command in the queue that was not in it. -/
theorem step_stays {s t : State} (h : step s = .next t) :
    (legalConfig (kept s) = true → legalConfig (kept t) = true) ∧ ∀ c ∈ t.pending, c ∈ s.pending := by
  unfold step at h
  split at h
  next hq =>
    cases h
    obtain ⟨hlegal, hqueue⟩ : Stays s (cclkTurn s) := .of_kept (cclkTurn_kept s)
    exact ⟨hlegal, fun c hc => hqueue ▸ hc⟩
  next i rest hq =>
    obtain ⟨u, hu, hlegal, hqueue⟩ := exec_answersWithin i { s with pending := rest }
    obtain rfl : u = t := by simpa [hu] using h
    refine ⟨fun hl => hlegal ((legalConfig_pending s rest).trans hl), fun c hc => ?_⟩
    rw [hqueue] at hc
    exact hq ▸ List.mem_cons_of_mem i hc

/-- Settles O4: a step keeps the bounds, and the queue after it is part of the queue before. -/
theorem safeStateIsKept : Obligations.SafeStateIsKept := by
  intro s t hs ht
  obtain ⟨hlegal, hwf⟩ := (safe_iff s).1 hs
  obtain ⟨hstays, hqueue⟩ := step_stays ht
  exact (safe_iff t).2 ⟨hstays hlegal, fun c hc => hwf c (hqueue c hc)⟩

end Sys2Proof.Machine
end

section
/-! PROOFS. The register port: what an access does that reaches no register, and what a write or a read of a register comes to. -/

namespace Sys2Proof.Machine

/-! Which accesses reach the block (R1, R140). -/

theorem accessShut_iff (s : State) (a : Access) : accessShut s a = true ↔
    s.boot.phase = .reset ∨ s.boot.phase = .rom ∨ ((∃ off, a = .tap off) ∧ s.key.debugOpen = false) := by
  cases a <;> simp [accessShut, portClosed, or_assoc]

theorem accessOpen_of {s : State} {a : Access} (h1 : s.boot.phase ≠ .reset) (h2 : s.boot.phase ≠ .rom)
    (h : ∀ off, a = .tap off → s.key.debugOpen = true) : accessShut s a = false := by
  rw [Bool.eq_false_iff, ne_eq, accessShut_iff]
  rintro (h' | h' | ⟨⟨off, ha⟩, h'⟩)
  · exact h1 h'
  · exact h2 h'
  · simp [h off ha] at h'

theorem accessOpen_running {s : State} {a : Access} (hr : s.boot.phase = .running)
    (h : ∀ off, a = .tap off → s.key.debugOpen = true) : accessShut s a = false :=
  accessOpen_of (by simp [hr]) (by simp [hr]) h

/-! A write, by what it reaches (R2, R6, R97). -/

theorem portWrite_shut {s : State} {a : Access} (h : accessShut s a = true) (w : Word) (r : HostRead) : portWrite a w r s = s := by
  simp [portWrite, h]

section
variable {s : State} {a : Access} (h : accessShut s a = false) (w : Word) (r : HostRead)
include h

theorem portWrite_nothing (hr : accessReach s a = .nothing) :
    portWrite a w r s = recordStatus s none (accessReq a) qsBadAccess := by
  simp [portWrite, h, hr]

theorem portWrite_foreign (hr : accessReach s a = .foreign) (hw : accessWidth a ≠ none) :
    portWrite a w r s = recordStatus s (tenantOf (accessReq a)) (accessReq a) qsNotOwner := by
  simp [portWrite, h, hr, homeWindow, Option.isSome_iff_ne_none.2 hw]

theorem portWrite_narrow {off : Nat} (hr : accessReach s a = .space off) (hw : accessWidth a = none) :
    portWrite a w r s = recordStatus s (placeWindow s (accessReq a) (placeAt s off)) (accessReq a) qsBadAccess := by
  simp [portWrite, h, hr, hw]

theorem portWrite_place {off : Nat} {p : Part} (hr : accessReach s a = .space off) (hw : accessWidth a = some p)
    (hp : partAllowed (placeAt s off) p = true) :
    portWrite a w r s = placeWrite s (accessReq a) p w r (placeAt s off) := by
  simp [portWrite, h, hr, hw, hp]

/-- A read that the port takes. -/
theorem execRegisterRead_open : exec (.registerRead a) s = .next (emit (portRead a s).2 (readAnswer a (portRead a s).1)) := by
  simp [exec, execRegisterRead, h]

end

/-! A read of an offset of the space (R6). -/

theorem portRead_place {s : State} {a : Access} {off : Nat} {p : Part} (hr : accessReach s a = .space off)
    (hw : accessWidth a = some p) (hp : partAllowed (placeAt s off) p = true) :
    portRead a s = placeRead s (accessReq a) p (placeAt s off) := by
  simp [portRead, hr, hw, hp]

theorem portRead_refused {s : State} {a : Access} {off : Nat} (hrun : s.boot.phase = .running) (hr : accessReach s a = .space off)
    (hw : accessWidth a = none ∨ ∃ p, accessWidth a = some p ∧ partAllowed (placeAt s off) p = false) :
    portRead a s = (0, recordRead s (placeWindow s (accessReq a) (placeAt s off)) qsBadAccess) := by
  rcases hw with hw | ⟨p, hw, hp⟩
  · simp [portRead, running, hr, hrun, hw]
  · simp [portRead, running, hr, hrun, hw, hp]

/-! Offsets that hold no register (R7). -/

/-- No register stands at the place `x`, and the requester `q` reaches it. -/
def EmptyPlace (s : State) (q : Requester) (x : Place8) : Prop :=
  (x = .hole ∧ privileged s q = true) ∨ x = .mbxHole ∨ ∃ n, x = .winHole n ∧ reachesWindow s q n = true

/-- Privileged software is no tenant (R422). -/
theorem tenantOf_privileged {s : State} {q : Requester} (h : privileged s q = true) : tenantOf q = none := by
  simp only [privileged, Bool.or_eq_true, Bool.and_eq_true, beq_iff_eq] at h
  rcases h with ((((rfl | ⟨rfl, -⟩) | rfl) | rfl) | rfl) | rfl <;> decide

theorem partAllowed_emptyPlace {s : State} {q : Requester} {x : Place8} (h : EmptyPlace s q x) (p : Part) :
    partAllowed x p = true := by
  rcases h with ⟨rfl, -⟩ | rfl | ⟨n, rfl, -⟩ <;> rfl

theorem placeRead_emptyPlace {s : State} {q : Requester} {x : Place8} (h : EmptyPlace s q x) (p : Part) :
    placeRead s q p x = (0, s) := by
  rcases h with ⟨rfl, -⟩ | rfl | ⟨n, rfl, -⟩ <;> rfl

/-- A write of such an offset is refused at the place's own status register: the global one, the writer's own for a
mailbox page, or the window's. -/
theorem placeWrite_emptyPlace {s : State} {q : Requester} {x : Place8} (hrun : s.boot.phase = .running) (h : EmptyPlace s q x)
    (p : Part) (w : Word) (r : HostRead) : placeWrite s q p w r x = recordStatus s (placeWindow s q x) q qsBadAccess := by
  rcases h with ⟨rfl, hq⟩ | rfl | ⟨n, rfl, hq⟩
  · simp only [placeWrite, globalCmd_run ⟨hrun, hq⟩, placeWindow, homeWindow, tenantOf_privileged hq]
  · exact mbxCmd_run (.inl hrun) _
  · exact windowCmd_run ⟨hrun, hq⟩ _

/-- Settles O26: each refusal is one branch of the port's write or read. -/
theorem portRefusals : Obligations.PortRefusals := by
  refine ⟨?shut, ?refused, ?running⟩
  case shut =>
    intro s a w r h
    have hs : accessShut s a = true := (accessShut_iff s a).2 h
    refine ⟨congrArg _ (portWrite_shut hs w r), ?_, congrArg _ (portWrite_shut hs w .failed)⟩
    simp [exec, execRegisterRead, hs]
  case refused =>
    intro s a w r c h1 h2 ht hc
    have hs : accessShut s a = false := accessOpen_of h1 h2 ht
    obtain ⟨x, hx⟩ : ∃ x, exec c s = .next (portWrite a w x s) := by
      rcases hc with rfl | rfl
      · exact ⟨r, rfl⟩
      · exact ⟨.failed, rfl⟩
    rw [hx]
    exact ⟨fun hr => congrArg _ (portWrite_nothing hs w x hr), fun hr hw => congrArg _ (portWrite_foreign hs w x hr hw),
      fun off hr hw => congrArg _ (portWrite_narrow hs w x hr hw)⟩
  case running =>
    intro s a w r off hrun ht hr
    have hs : accessShut s a = false := accessOpen_running hrun ht
    rw [execRegisterRead_open hs]
    refine ⟨fun hx hw => ?empty, fun hw => ?half⟩
    case empty =>
      obtain ⟨p, hp⟩ := Option.ne_none_iff_exists'.1 hw
      have hx' : EmptyPlace s (accessReq a) (placeAt s off) := hx
      have hpart := partAllowed_emptyPlace hx' p
      refine ⟨congrArg _ ((portWrite_place hs w r hr hp hpart).trans (placeWrite_emptyPlace hrun hx' p w r)), ?_⟩
      rw [portRead_place hr hp hpart, placeRead_emptyPlace hx']
    case half =>
      rw [portRead_refused hrun hr]
      rcases hw with hw | ⟨page, d, hd, hw⟩
      · exact .inl hw
      · cases ha : accessWidth a with
        | none => exact .inl rfl
        | some p =>
          have hp : p ≠ .whole := fun h => hw (h ▸ ha)
          exact .inr ⟨p, rfl, by simpa [hd, partAllowed] using hp⟩

end Sys2Proof.Machine
end

section
/-! PROOFS. Commands through registers that their writer does not reach. -/

namespace Sys2Proof.Machine

/-- A command of the Trail by a requester that is not privileged. -/
theorem trlCmd_foreign {s : State} {q : Requester} (h1 : s.boot.phase ≠ .reset) (h2 : s.boot.phase ≠ .rom)
    (h : privileged s q = false) (body : State → Checked) : trlCmd q s body = recordStatus s (tenantOf q) q qsNotOwner := by
  simp [trlCmd, portClosed, homeWindow, h1, h2, h]

/-- The commands of a descriptor, of an exchange and of a ring head reach the global registers or a window's (R251, R406, R486). -/
theorem exec_anyWindow {i : Instr} {q : Requester} {n : Option Nat} {w : Word} (s : State)
    (h : i = .tableWrite q n w ∨ i = .tableInvalidate q n w ∨ i = .tableRead q n w ∨ i = .keySpdm q n w ∨
      i = .ringHeadWrite q n w ∨ ∃ k, n = some k ∧ i = .keyUnwrap q k w) :
    ∃ body, exec i s = .next (anyWindowCmd q n s body) := by
  rcases h with rfl | rfl | rfl | rfl | rfl | ⟨k, rfl, rfl⟩ <;> exact ⟨_, rfl⟩

/-- A command with a global writer is one form of `globalCmd`, or of `trlCmd` for TRL_CMD (R1). -/
theorem exec_globalWriter {i : Instr} {q : Requester} (h : i.globalWriter = some q) (s : State) :
    (∃ body, exec i s = .next (globalCmd q s body)) ∨ ∃ body, exec i s = .next (trlCmd q s body) := by
  cases i
  case trlRetrain | trlSolo => cases h; exact .inr ⟨_, rfl⟩
  case tableWrite n w | tableInvalidate n w | tableRead n w | keySpdm n w | ringHeadWrite n w =>
    cases n <;> cases h
    exact .inl (exec_anyWindow (n := none) (w := w) s (by simp))
  all_goals cases h
  all_goals exact .inl ⟨_, rfl⟩

/-- A command with a window's writer is one form of `windowCmd` (R2). -/
theorem exec_windowWriter {i : Instr} {q : Requester} {n : Nat} (h : i.windowWriter = some (q, n)) (s : State) :
    ∃ body, exec i s = .next (windowCmd q n s body) := by
  cases i
  case tableWrite n w | tableInvalidate n w | tableRead n w | keySpdm n w | ringHeadWrite n w =>
    cases n <;> cases h
    exact exec_anyWindow (n := some _) (w := w) s (by simp)
  case keyUnwrap k w =>
    cases h
    exact exec_anyWindow (n := some n) (w := w) s (by simp)
  all_goals cases h
  all_goals exact ⟨_, rfl⟩

/-- Settles O29: a command's form checks its writer before anything of the command's own. -/
theorem foreignWritersChangeOnlyTheirOwnStatus : Obligations.ForeignWritersChangeOnlyTheirOwnStatus := by
  refine ⟨fun i s q hi hq h1 h2 => ?_, fun i s q n hi hq h1 h2 => ?_⟩
  · obtain ⟨body, he⟩ | ⟨body, he⟩ := exec_globalWriter hi s
    · rw [he, globalCmd_foreign h1 h2 hq]
    · rw [he, trlCmd_foreign h1 h2 hq]
  · obtain ⟨body, he⟩ := exec_windowWriter hi s
    rw [he, windowCmd_foreign h1 h2 hq]

end Sys2Proof.Machine
end

section
/-! PROOFS. Reads of registers, and writes of the bounded timing registers. -/

namespace Sys2Proof.Machine

/-! A 64-bit access of the physical function (R6, R93). -/

theorem accessReach_host {off : Nat} (h : off < 2 ^ 26) (s : State) (be : BitVec 8) (tag : Nat) :
    accessReach s (.host 0 0 off be tag) = .space off := by
  rw [accessReach, if_pos rfl, if_pos rfl, Nat.mod_eq_of_lt h]

theorem accessWidth_host {off : Nat} (h : off % 8 = 0) (tag : Nat) : accessWidth (.host 0 0 off 0xFF tag) = some .whole := by
  simp [accessWidth, accessPart, h]

theorem accessOpen_host {s : State} (hrun : s.boot.phase = .running) (f bar off : Nat) (be : BitVec 8) (tag : Nat) :
    accessShut s (.host f bar off be tag) = false :=
  accessOpen_running hrun fun _ h => nomatch h

theorem partAllowed_whole (x : Place8) : partAllowed x .whole = true := by
  cases x <;> rfl

/-- A 64-bit read is the read of what stands at its offset. -/
theorem exec_read_whole {s : State} (hrun : s.boot.phase = .running) {off : Nat} (h : off < 2 ^ 26) (h8 : off % 8 = 0) (tag : Nat) :
    exec (.registerRead (.host 0 0 off 0xFF tag)) s =
      .next (emit (placeRead s reqRanger .whole (placeAt s off)).2
        (.regRead (placeRead s reqRanger .whole (placeAt s off)).1 (some tag))) := by
  rw [execRegisterRead_open (accessOpen_host hrun ..),
    portRead_place (accessReach_host h s _ tag) (accessWidth_host h8 tag) (partAllowed_whole _), readAnswer, accessWidth_host h8 tag]
  rfl

/-- A write of all 64 bits leaves nothing of the old word. -/
theorem mergePart_whole (old w : Word) : mergePart .whole old w = w := by
  have h : partMask .whole = BitVec.allOnes 64 := by decide
  rw [mergePart, h, BitVec.not_allOnes, BitVec.and_zero, BitVec.zero_or, BitVec.and_allOnes]

/-- A 64-bit write of a global register is the write of its word. -/
theorem portWrite_glob {s : State} {a : Access} (hs : accessShut s a = false) {off : Nat} (hr : accessReach s a = .space off)
    (hw : accessWidth a = some .whole) {r : GlobReg} (hx : placeAt s off = .glob r) (w : Word) (x : HostRead) :
    portWrite a w x s = globWrite (accessReq a) w x r s := by
  rw [portWrite_place hs w x hr hw (partAllowed_whole _), hx, placeWrite, mergePart_whole]

theorem exec_write_whole {s : State} (hrun : s.boot.phase = .running) {off : Nat} (h : off < 2 ^ 26) (h8 : off % 8 = 0)
    {r : GlobReg} (hx : placeAt s off = .glob r) (w : Word) (x : HostRead) (tag : Nat) :
    exec (.registerWrite (.host 0 0 off 0xFF tag) w x) s = .next (globWrite reqRanger w x r s) :=
  congrArg _ (portWrite_glob (accessOpen_host hrun ..) (accessReach_host h s _ tag) (accessWidth_host h8 tag) hx w x)

/-! Registers without an RC field (R9, R11). -/

theorem keepStart_cclkStart (s : State) : keepStart s (cclkStart s) = s := rfl

theorem globAfterRead_plain {r : GlobReg} (h : globCounts r = 0) (b s : State) (p : Part) : globAfterRead b s p r = s := by
  have h1 : bitsFrom 16 31 ≠ 0 := by decide
  have h2 : bitsFrom 0 47 ≠ 0 := by decide
  have h3 : bitsFrom 16 47 ≠ 0 := by decide
  have h4 : bitsFrom 32 63 ≠ 0 := by decide
  have h5 : bitsFrom 0 63 ≠ 0 := by decide
  cases r
  case clrGstatus => exact absurd h h1
  case calHoldstat => exact absurd h h2
  case trlLane => exact absurd h h3
  case errStatus => exact absurd h h4
  case queCachestat | gpeDstat | xltCount | trlCount | pwrWakes | errGovf | errCecc => exact absurd h h5
  all_goals rfl

theorem winAfterRead_plain {r : WinReg} (h : winCounts r = 0) (b s : State) (n : Nat) (p : Part) : winAfterRead b s n p r = s := by
  have h1 : bitsFrom 16 31 ≠ 0 := by decide
  have h2 : bitsFrom 0 31 ≠ 0 := by decide
  have h3 : bitsFrom 32 63 ≠ 0 := by decide
  have h4 : bitsFrom 0 63 ≠ 0 := by decide
  cases r
  case clrWstatus => exact absurd h h1
  case calWtick | stmWexpired | tblWpoison | schWacctlost | xltWstat2 => exact absurd h h2
  case pwrWstat => exact absurd h h3
  case elaWmiss | elaWstat | queWstat | stmWcount | gpeWrows | gpeWreads | gpeWhits | gpeWflags | gpeWpoison | tblWstat | tblWlost
      | schWstat | xltWstat | keyWstat | errWovf | detWstat => exact absurd h h4
  all_goals rfl

/-- A register without RC fields reads its value. -/
theorem read_uncounted {a b mask : Word} (h : mask = 0#64) : (a &&& ~~~ mask) ||| (b &&& mask) = a := by
  have hn : ~~~ 0#64 = BitVec.allOnes 64 := by decide
  rw [h, hn, BitVec.and_allOnes, BitVec.and_zero, BitVec.or_zero]

theorem globRead_plain {r : GlobReg} (h : globCounts r = 0) (s : State) : globRead s r = globValue s r := read_uncounted h

theorem winRead_plain {r : WinReg} (h : winCounts r = 0) (s : State) (n : Nat) : winRead s n r = winValue s n r := read_uncounted h

theorem globTaken_plain {r : GlobReg} (h : globCounts r = 0) (s : State) (p : Part) : globTaken s p r = s := by
  simp only [globTaken, globAfterRead_plain h, keepStart_cclkStart]

theorem winTaken_plain {r : WinReg} (h : winCounts r = 0) (s : State) (n : Nat) (p : Part) : winTaken s n p r = s := by
  simp only [winTaken, winAfterRead_plain h, keepStart_cclkStart]

/-! What R11 clears drives nothing. -/

theorem globTaken_out (s : State) (p : Part) (r : GlobReg) : (globTaken s p r).out = s.out := by
  cases r <;> rfl

theorem winTaken_out (s : State) (n : Nat) (p : Part) (r : WinReg) : (winTaken s n p r).out = s.out := by
  cases r <;> rfl

/-! What stands at a place, read while the device runs. -/

theorem placeRead_glob {s : State} (hrun : s.boot.phase = .running) {r : GlobReg} (hr : r ≠ .calPostmark) (q : Requester)
    (p : Part) : placeRead s q p (.glob r) = (globRead s r, globTaken s p r) := by
  simp [placeRead, running, hrun, hr]

theorem placeRead_win {s : State} (hrun : s.boot.phase = .running) {r : WinReg} (hr : r ≠ .calWpostmark) (q : Requester) (n : Nat)
    (p : Part) : placeRead s q p (.win n r) = (winRead s n r, winTaken s n p r) := by
  simp [placeRead, running, hrun, hr]

/-- A 64-bit read of CAL_POSTMARK latches no half (R151). -/
theorem placeRead_postmark {s : State} (hrun : s.boot.phase = .running) (q : Requester) :
    placeRead s q .whole (.glob .calPostmark) = (word s.clk.postmark, s) := by
  simp [placeRead, running, hrun, postmarkRead, postmarkLatch]

theorem exec_read_glob {s : State} (hrun : s.boot.phase = .running) {off : Nat} (h : off < 2 ^ 26) (h8 : off % 8 = 0) {r : GlobReg}
    (hx : placeAt s off = .glob r) (hr : r ≠ .calPostmark) (tag : Nat) :
    exec (.registerRead (.host 0 0 off 0xFF tag)) s =
      .next { globTaken s .whole r with out := .regRead (globRead s r) (some tag) :: s.out } := by
  rw [exec_read_whole hrun h h8, hx, placeRead_glob hrun hr, ← globTaken_out s .whole r]
  rfl

theorem exec_read_win {s : State} (hrun : s.boot.phase = .running) {off : Nat} (h : off < 2 ^ 26) (h8 : off % 8 = 0)
    {n : Nat} {r : WinReg} (hx : placeAt s off = .win n r) (hr : r ≠ .calWpostmark) (tag : Nat) :
    exec (.registerRead (.host 0 0 off 0xFF tag)) s =
      .next { winTaken s n .whole r with out := .regRead (winRead s n r) (some tag) :: s.out } := by
  rw [exec_read_whole hrun h h8, hx, placeRead_win hrun hr, ← winTaken_out s n .whole r]
  rfl

/-- A register without an RC field answers its value, and the read leaves everything else. -/
theorem exec_read_plain {s : State} (hrun : s.boot.phase = .running) {off : Nat} (h : off < 2 ^ 26) (h8 : off % 8 = 0) {r : GlobReg}
    (hx : placeAt s off = .glob r) (hr : r ≠ .calPostmark) (hc : globCounts r = 0) (tag : Nat) :
    exec (.registerRead (.host 0 0 off 0xFF tag)) s = .next { s with out := .regRead (globValue s r) (some tag) :: s.out } := by
  rw [exec_read_glob hrun h h8 hx hr, globRead_plain hc, globTaken_plain hc]

/-! The offsets of CAL_POSTMARK, of ERR_CECC and of the bounded timing registers (R525). -/

theorem placeAt_postmark (s : State) : placeAt s 0x3008 = .glob .calPostmark := rfl
theorem placeAt_cecc (s : State) : placeAt s 0x03400028 = .glob .errCecc := rfl
theorem placeAt_prito (s : State) : placeAt s 0xE018 = .glob .xltPrito := rfl
theorem placeAt_hold (s : State) : placeAt s 0xA070 = .glob .tblHold := rfl
theorem placeAt_passwd (s : State) : placeAt s 0xD410 = .glob .schPasswd := rfl
theorem placeAt_fenceto (s : State) : placeAt s 0x03400020 = .glob .errFenceto := rfl

/-- ERR_CECC is an RC field throughout: it reads as at the cclk's start. -/
theorem globRead_cecc (s : State) : globRead s .errCecc = counts s.cc.err.corrected s.cc.err.uncorrectable := by
  have h : globCounts .errCecc = BitVec.allOnes 64 := by decide
  rw [globRead, h, BitVec.not_allOnes, BitVec.and_zero, BitVec.zero_or, BitVec.and_allOnes]
  rfl

/-- Settles O28: a 64-bit read is the read of what stands at its offset. -/
theorem readsOfRegisters : Obligations.ReadsOfRegisters := by
  refine ⟨?glob, ?win, fun s tag hrun => ⟨?postmark, ?cecc⟩⟩
  case glob =>
    intro s off tag r hrun h h8 hx hr
    exact ⟨exec_read_glob hrun h h8 hx hr tag, fun hc => ⟨globRead_plain hc s, globTaken_plain hc s .whole⟩⟩
  case win =>
    intro s off tag n r hrun h h8 hx hr
    exact ⟨exec_read_win hrun h h8 hx hr tag, fun hc => ⟨winRead_plain hc s n, winTaken_plain hc s n .whole⟩⟩
  case postmark =>
    rw [exec_read_whole hrun (by decide) (by decide), placeAt_postmark, placeRead_postmark hrun]
    rfl
  case cecc =>
    refine ⟨_, exec_read_glob hrun (by decide) (by decide) (placeAt_cecc s) (by decide) tag, rfl, ?_, ?_, rfl⟩
    · simp [globTaken, globAfterRead, keepStart, cclkStart, updCc, rcLow, rcHigh, reachesLow, reachesHigh]
    · exact congrArg (fun v => Output.regRead v (some tag) :: s.out) (globRead_cecc s)

/-! The bounded timing registers (R311, R346, R381, R486). -/

theorem field_word {v len : Nat} (h : v < 2 ^ len) (hl : len ≤ 64) : field (word v) 0 len = v := by
  have h64 : v < 2 ^ 64 := h.trans_le (Nat.pow_le_pow_right (by decide) hl)
  rw [field, word, BitVec.toNat_ofNat, Nat.pow_zero, Nat.div_one, Nat.mod_eq_of_lt h64, Nat.mod_eq_of_lt h]

/-- A word below 2^lo has no bit from `lo` on. -/
theorem noBits_word {v lo : Nat} (h : v < 2 ^ lo) (hi : lo ≤ 64) : noBits (word v) (bitsFrom lo 63) = true := by
  rw [noBits_iff]
  intro i hm
  by_cases h64 : i < 64
  · rw [getLsbD_bitsFrom (by omega) i h64, decide_eq_true_eq] at hm
    have hv : v < 2 ^ i := h.trans_le (Nat.pow_le_pow_right (by decide) hm.1)
    simp [word, BitVec.getLsbD_ofNat, Nat.testBit_lt_two_pow hv]
  · exact BitVec.getLsbD_of_ge _ _ (by omega)

/-- A write of a plain register with one check, by privileged software on a running device and with no reserved bit set. -/
theorem globPlain_checked {s : State} {q : Requester} (h : reachesGlobal s q) {r : GlobReg} {w : Word}
    (hw : noBits w (globReserved r) = true) (b : Bool) (c : Code) (effect : State → State) :
    globPlain q r w (fun _ => [(b, c)]) effect s =
      if b = true then recordStatus (effect s) none q qsOk else recordStatus s none q c := by
  rw [globPlain, globalCmd_run h]
  cases b <;> simp [checked, hw]

/-! The write of each, as a plain write with its check and its effect. -/

theorem globWrite_prito (q : Requester) (w : Word) (x : HostRead) (s : State) : globWrite q w x .xltPrito s =
    globPlain q .xltPrito w (fun _ => [(1 ≤ field w 0 32 && field w 0 32 ≤ 1000000, qsIllegalValue)])
      (fun s => updXlt s fun u => { u with timeout := field w 0 32 }) s := rfl

theorem globWrite_hold (q : Requester) (w : Word) (x : HostRead) (s : State) : globWrite q w x .tblHold s =
    globPlain q .tblHold w (fun _ => [(1 ≤ field w 0 32 && field w 0 32 ≤ 1000000, qsIllegalValue)])
      (fun s => setHold s (field w 0 32)) s := rfl

theorem globWrite_passwd (q : Requester) (w : Word) (x : HostRead) (s : State) : globWrite q w x .schPasswd s =
    globPlain q .schPasswd w (fun _ => [(field w 0 16 != 0, qsIllegalValue)])
      (fun s => updSch s fun u => { u with passwd := field w 0 16 }) s := rfl

theorem globWrite_fenceto (q : Requester) (w : Word) (x : HostRead) (s : State) : globWrite q w x .errFenceto s =
    globPlain q .errFenceto w (fun _ => [(1000 ≤ field w 0 16 && field w 0 16 ≤ 50000, qsIllegalValue)])
      (fun s => updErr s fun e => { e with fenceTo := field w 0 16 }) s := rfl

section
variable {s : State} {q : Requester} {v : Nat} (hr : reachesGlobal s q) (x : HostRead)
include hr

theorem write_prito (hv : v < 2 ^ 32) : globWrite q (word v) x .xltPrito s =
    if 1 ≤ v ∧ v ≤ 1000000 then recordStatus { s with xlt := { s.xlt with timeout := v } } none q qsOk
    else recordStatus s none q qsIllegalValue := by
  have hw : noBits (word v) (globReserved .xltPrito) = true := noBits_word (lo := 32) hv (by decide)
  rw [globWrite_prito, globPlain_checked hr hw, field_word hv (by decide)]
  simp [updXlt]

theorem write_hold (hv : v < 2 ^ 32) : globWrite q (word v) x .tblHold s =
    if 1 ≤ v ∧ v ≤ 1000000 then
      recordStatus { s with tbl := { s.tbl with hold := v, holdWas := some (curHold s, nowCclk s) } } none q qsOk
    else recordStatus s none q qsIllegalValue := by
  have hw : noBits (word v) (globReserved .tblHold) = true := noBits_word (lo := 32) hv (by decide)
  rw [globWrite_hold, globPlain_checked hr hw, field_word hv (by decide)]
  simp [setHold, updTbl]

theorem write_passwd (hv : v < 2 ^ 16) : globWrite q (word v) x .schPasswd s =
    if v ≠ 0 then recordStatus { s with sch := { s.sch with passwd := v } } none q qsOk
    else recordStatus s none q qsIllegalValue := by
  have hw : noBits (word v) (globReserved .schPasswd) = true := noBits_word (lo := 16) hv (by decide)
  rw [globWrite_passwd, globPlain_checked hr hw, field_word hv (by decide)]
  simp [updSch]

theorem write_fenceto (hv : v < 2 ^ 16) : globWrite q (word v) x .errFenceto s =
    if 1000 ≤ v ∧ v ≤ 50000 then recordStatus { s with err := { s.err with fenceTo := v } } none q qsOk
    else recordStatus s none q qsIllegalValue := by
  have hw : noBits (word v) (globReserved .errFenceto) = true := noBits_word (lo := 16) hv (by decide)
  rw [globWrite_fenceto, globPlain_checked hr hw, field_word hv (by decide)]
  simp [updErr]

end

/-- Settles O27: each register's write is decided by its one check, and none has an RC field. -/
theorem boundedRegisterWrites : Obligations.BoundedRegisterWrites := by
  intro s v tag x hrun
  have hr : reachesGlobal s reqRanger := ⟨hrun, rfl⟩
  refine ⟨fun hv => ?wide, fun hv => ?narrow, ?_, ?_, ?_, ?_⟩
  case wide =>
    rw [exec_write_whole hrun (by decide) (by decide) (placeAt_prito s),
      exec_write_whole hrun (by decide) (by decide) (placeAt_hold s), write_prito hr x hv, write_hold hr x hv]
    refine ⟨fun h => ?_, fun h => ?_, fun h => ?_, fun h => ?_⟩
    · rw [if_pos h]
    · rw [if_neg (by omega)]
    · rw [if_pos h]
    · rw [if_neg (by omega)]
  case narrow =>
    rw [exec_write_whole hrun (by decide) (by decide) (placeAt_passwd s),
      exec_write_whole hrun (by decide) (by decide) (placeAt_fenceto s), write_passwd hr x hv, write_fenceto hr x hv]
    refine ⟨fun h => ?_, fun h => ?_, fun h => ?_, fun h => ?_⟩
    · rw [if_pos h]
    · rw [if_neg (not_not.2 h)]
    · rw [if_pos h]
    · rw [if_neg (by omega)]
  · exact exec_read_plain hrun (by decide) (by decide) (placeAt_prito s) (by decide) rfl tag
  · exact exec_read_plain hrun (by decide) (by decide) (placeAt_hold s) (by decide) rfl tag
  · exact exec_read_plain hrun (by decide) (by decide) (placeAt_passwd s) (by decide) rfl tag
  · exact exec_read_plain hrun (by decide) (by decide) (placeAt_fenceto s) (by decide) rfl tag

end Sys2Proof.Machine
end

section
/-! PROOFS. The TAP: the walk of its controller, and what each instruction shifts. -/

namespace Sys2Proof.Machine

/-! The controller (R115). -/

theorem tapWalk_append (c : TapCtl) (xs ys : List Bool) : tapWalk c (xs ++ ys) = tapWalk (tapWalk c xs) ys := List.foldl_append

/-- Shift-DR holds while tms is 0. -/
theorem tapWalk_shiftDr (n : Nat) : tapWalk .shiftDr (List.replicate n false) = .shiftDr := by
  induction n with
  | zero => rfl
  | succ n ih => exact ih

/-- A scan from Test-Logic-Reset or Run-Test/Idle goes through Shift-IR and Shift-DR back to Run-Test/Idle. -/
theorem tapWalk_scanTms {c : TapCtl} (h : c = .testLogicReset ∨ c = .runTestIdle) (w : Nat) :
    tapWalk c (scanTms w) = .runTestIdle := by
  have hdr : tapWalk c ([false, true, true, false, false] ++ List.replicate 7 false ++ [true, true, true, false, false]) =
      .shiftDr := by
    rcases h with rfl | rfl <;> rfl
  rw [scanTms, tapWalk_append, tapWalk_append, hdr, tapWalk_shiftDr]
  rfl

/-- Five tck with tms at 1 reach Test-Logic-Reset from everywhere. -/
theorem tapWalk_reset (c : TapCtl) : tapWalk c (List.replicate 5 true) = .testLogicReset := by
  cases c <;> rfl

/-! A scan: it changes the TAP and the outputs alone (R115). -/

theorem tapScan_eq (s : State) (ir : BitVec 8) (w v : Nat) : tapScan s ir w v =
    { s with tap := { s.tap with ctl := tapWalk s.tap.ctl (scanTms w), ir := ir }, out := .tapShift w v :: s.out } := by
  simp only [tapScan, updTap, emit]

/-! The instructions (R116, R412). -/

theorem tapGuard_closed {s : State} (h : s.key.debugOpen = false) (ir : BitVec 8) (act : State → State) :
    tapGuard s ir act =
      { s with tap := { s.tap with ctl := tapWalk s.tap.ctl (scanTms 1), ir := ir }, out := .tapShift 1 0 :: s.out } := by
  simp [tapGuard, tapOpen, h, bypassScan, tapScan_eq]

theorem tapGuard_open {s : State} (h : s.key.debugOpen = true) (ir : BitVec 8) (act : State → State) :
    tapGuard s ir act = act s := by
  simp [tapGuard, tapOpen, h]

/-- The state after a scan of the 28 boundary cells: `pins` are shifted out, and the cells take `cells`. -/
def cellScan (s : State) (ir : BitVec 8) (pins cells : List Bool) : State :=
  { s with
    tap := { s.tap with ctl := tapWalk s.tap.ctl (scanTms 28), ir := ir, cells := cells }
    out := .tapShift 28 (bitsNat pins) :: s.out }

/-- Vectors of all 28 cells are captured and taken whole. -/
theorem boundaryScan_full (s : State) (ir : BitVec 8) {pins cells : List Bool} (hp : pins.length = 28) (hc : cells.length = 28) :
    boundaryScan s ir pins cells = cellScan s ir pins cells := by
  simp only [boundaryScan, tapScan_eq, updTap, cellScan, boundaryCells, List.take_of_length_le hp.le, List.take_of_length_le hc.le]

/-- Which pins are driven depends on the lanes and the shorted lines alone. -/
theorem pinDriven_congr {s t : State} (h1 : t.trl = s.trl) (h2 : t.boot = s.boot) (i : Nat) : pinDriven t i = pinDriven s i := by
  simp only [pinDriven, laneDriven, getLane, h1, h2]

/-- The cells of the driven pins drive their levels on them. -/
theorem mem_boundaryLevels (s : State) (i : Nat) (b : Bool) :
    (i, b) ∈ boundaryLevels s ↔ s.tap.cells[i]? = some b ∧ pinDriven s i = true := by
  simp [boundaryLevels, List.mem_zipIdx_iff_getElem?]

theorem mem_boundaryLevels_cellScan (s : State) (ir : BitVec 8) (pins cells : List Bool) (i : Nat) (b : Bool) :
    (i, b) ∈ boundaryLevels (cellScan s ir pins cells) ↔ cells[i]? = some b ∧ pinDriven s i = true := by
  rw [mem_boundaryLevels, pinDriven_congr (s := s) (by simp only [cellScan]) (by simp only [cellScan]), cellScan]

section
variable {s : State} (h : s.key.debugOpen = true)
include h

theorem exec_tapExtest_open {pins cells : List Bool} (hp : pins.length = 28) (hc : cells.length = 28) :
    exec (.tapExtest pins cells) s = .next { cellScan s 0x03 pins cells with
      out := .boundary (boundaryLevels (cellScan s 0x03 pins cells)) :: (cellScan s 0x03 pins cells).out } := by
  simp only [exec, execTapExtest, tapGuard_open h, boundaryScan_full s 0x03 hp hc, emit]

theorem exec_tapDbgDmi_open (d : BitVec 41) : exec (.tapDbgDmi d) s = .next { s with
    tap := { s.tap with ctl := tapWalk s.tap.ctl (scanTms 41), ir := 0x41, dmiCount := s.tap.dmiCount + 1 }
    out := .tapShift 41 (Config.dmiAnswer s.tap.dmiCount).toNat :: .dmi d.toNat :: s.out } := by
  simp only [exec, execTapDbgDmi, tapGuard_open h, tapScan_eq, emit, updTap]

theorem exec_tapDbgStatus_open : exec .tapDbgStatus s = .next { s with
    tap := { s.tap with ctl := tapWalk s.tap.ctl (scanTms 32), ir := 0x42 }
    out := .tapShift 32 (field (keyStatusWord s) 0 32) :: s.out } := by
  simp only [exec, execTapDbgStatus, tapGuard_open h, tapScan_eq]

theorem exec_tapDbgReg_open (write : Bool) (off : Nat) (w : Word) (x : HostRead) :
    exec (.tapDbgReg write off w x) s = .next (dbgReg write off w x s) := by
  simp only [exec, execTapDbgReg, tapGuard_open h]

end

/-! DBG_REG on a running device (R1, R412). -/

theorem accessReach_tap {off : Nat} (h : off < 2 ^ 26) (s : State) : accessReach s (.tap off) = .space off :=
  congrArg Reach.space (Nat.mod_eq_of_lt h)

theorem accessWidth_tap {off : Nat} (h : off % 8 = 0) : accessWidth (.tap off) = some .whole := by
  simp [accessWidth, accessPart, h]

theorem portClosed_running {s : State} (h : s.boot.phase = .running) : portClosed s = false := by
  simp [portClosed, h]

theorem privileged_tap {s : State} (h : s.key.debugOpen = true) : privileged s reqTap = true := by
  simp [privileged, reqTap, h]

/-- The state after the scan of DBG_REG: the data captured before is shifted out, in bits [90:27]. -/
def dbgShift (s : State) : State :=
  { s with
    tap := { s.tap with ctl := tapWalk s.tap.ctl (scanTms 91), ir := 0x40 }
    out := .tapShift 91 (s.tap.capture.toNat * 2 ^ 27) :: s.out }

theorem dbgReg_running {s : State} (hrun : s.boot.phase = .running) (write : Bool) (off : Nat) (w : Word) (x : HostRead) :
    dbgReg write off w x s = if write then portWrite (.tap off) w x (dbgShift s) else
      updTap (portRead (.tap off) (dbgShift s)).2 fun t => { t with capture := (portRead (.tap off) (dbgShift s)).1 } := by
  have hc : portClosed (dbgShift s) = false := portClosed_running hrun
  rw [dbgReg, tapScan_eq, ← dbgShift]
  simp only [hc, Bool.false_eq_true, if_false]

theorem dbgReg_read_postmark {s : State} (hrun : s.boot.phase = .running) (w : Word) (x : HostRead) :
    dbgReg false 0x3008 w x s = { s with
      tap := { s.tap with ctl := tapWalk s.tap.ctl (scanTms 91), ir := 0x40, capture := word s.clk.postmark }
      out := .tapShift 91 (s.tap.capture.toNat * 2 ^ 27) :: s.out } := by
  have hrun' : (dbgShift s).boot.phase = .running := hrun
  have hread : portRead (.tap 0x3008) (dbgShift s) = (word (dbgShift s).clk.postmark, dbgShift s) := by
    rw [portRead_place (accessReach_tap (by decide) _) (accessWidth_tap (by decide)) (partAllowed_whole _), placeAt_postmark,
      placeRead_postmark hrun']
  rw [dbgReg_running hrun, hread, if_neg (by decide), updTap, dbgShift]

theorem dbgReg_write_prito {s : State} (hrun : s.boot.phase = .running) (hopen : s.key.debugOpen = true) {v : Nat} (h1 : 1 ≤ v)
    (h2 : v ≤ 1000000) (x : HostRead) : dbgReg true 0xE018 (word v) x s =
      recordStatus { dbgShift s with xlt := { s.xlt with timeout := v } } none reqTap qsOk := by
  have hs : accessShut (dbgShift s) (.tap 0xE018) = false := accessOpen_running hrun fun _ _ => hopen
  have hwrite : portWrite (.tap 0xE018) (word v) x (dbgShift s) = globWrite reqTap (word v) x .xltPrito (dbgShift s) :=
    portWrite_glob hs (accessReach_tap (by decide) _) (accessWidth_tap (by decide)) (placeAt_prito _) _ _
  have hr : reachesGlobal (dbgShift s) reqTap := ⟨hrun, privileged_tap hopen⟩
  rw [dbgReg_running hrun, if_pos rfl, hwrite, write_prito hr x (by omega), if_pos ⟨h1, h2⟩, dbgShift]

/-- Settles O41, by the scan of each instruction. -/
theorem tapInstructionsShift : Obligations.TapInstructionsShift := by
  refine ⟨fun c w hc _ => tapWalk_scanTms hc w, fun s =>
    ⟨congrArg Host.Outcome.next (tapScan_eq s 0x01 32 idcode), ?reset, ?bypass, ?sample, ?closed, ?opened⟩⟩
  case reset => exact ⟨_, rfl, tapWalk_reset _, rfl, rfl, rfl, rfl⟩
  case bypass =>
    refine fun ir => ⟨fun h => ?_, fun h => ?_⟩
    · simp only [exec, execTapBypass, h, bypassScan, tapScan_eq, Bool.false_eq_true, if_false]
    · simp only [exec, execTapBypass, h, if_true]
  case sample =>
    intro pins cells hp hc
    exact ⟨cellScan s 0x02 pins cells, congrArg Host.Outcome.next (boundaryScan_full s 0x02 hp hc), rfl, rfl, rfl, rfl⟩
  case closed =>
    intro h
    exact ⟨fun _ _ => congrArg Host.Outcome.next (tapGuard_closed h 0x03 _),
      fun _ _ _ _ => congrArg Host.Outcome.next (tapGuard_closed h 0x40 _),
      fun _ => congrArg Host.Outcome.next (tapGuard_closed h 0x41 _),
      congrArg Host.Outcome.next (tapGuard_closed h 0x42 _)⟩
  case opened =>
    intro h
    refine ⟨?extest, ?dmi, exec_tapDbgStatus_open h, fun hrun => ⟨?read, ?write⟩⟩
    case extest =>
      exact fun pins cells hp hc => ⟨_, _, exec_tapExtest_open h hp hc, rfl, rfl, rfl,
        mem_boundaryLevels_cellScan s 0x03 pins cells, rfl⟩
    case dmi => exact fun d => ⟨_, exec_tapDbgDmi_open h d, rfl, rfl, rfl, rfl⟩
    case read =>
      intro v r
      have he := (exec_tapDbgReg_open h false 0x3008 v r).trans (congrArg Host.Outcome.next (dbgReg_read_postmark hrun v r))
      exact ⟨_, he, rfl, rfl, rfl, by dsimp only⟩
    case write =>
      intro v r h1 h2
      exact (exec_tapDbgReg_open h true 0xE018 (word v) r).trans (congrArg Host.Outcome.next (dbgReg_write_prito hrun h h1 h2 r))

end Sys2Proof.Machine
end

section
/-! PROOFS. The states of a clearing that CLR_CMD moves it between. -/

namespace Sys2Proof.Machine

/-- No field. -/
def Keep.none : Keep := ⟨false, false, false, false, false, false, false, false, false, false, false, false, false, false,
  false, false, false, false, false, false, false, false, false, false, false, false, false, false, false, false, false,
  false, false, false, false⟩

/-! Bits of a mask. -/

theorem getLsbD_setBit {w : Nat} (m : BitVec w) (i j : Nat) (hi : i < w) :
    (setBit m i true).getLsbD j = (decide (j = i) || m.getLsbD j) := by
  simp only [setBit, if_true, BitVec.getLsbD_or, BitVec.getLsbD_ofNat, Nat.testBit_two_pow]
  by_cases hj : j = i
  · simp [hj, hi]
  · simp [hj, Ne.symm hj]

theorem setBit_setBit {w : Nat} (m : BitVec w) (i : Nat) : setBit (setBit m i true) i true = setBit m i true := by
  simp [setBit, BitVec.or_assoc]

theorem field_lt (w : Word) (lo len : Nat) : field w lo len < 2 ^ len := Nat.mod_lt _ (Nat.two_pow_pos len)

/-! A clearing takes a state (R43). -/

theorem setClrState_of_ne {st : ClrState} (h : st ≠ .closed) (s : State) (n : Nat) :
    setClrState s n st = clrEvent (updClr s n fun c => { c with st := st }) n := by
  simp [setClrState, h]

theorem setClrState_closed (s : State) (n : Nat) :
    setClrState s n .closed = clrEvent (updClr (reachClosed s n) n fun c => { c with st := .closed }) n := rfl

@[simp] theorem getClr_clrEvent (s : State) (n m : Nat) : getClr (clrEvent s n) m = getClr s m := rfl

@[simp] theorem clrEvent_glob (s : State) (n : Nat) :
    (clrEvent s n).glob = { s.glob with event := setBit s.glob.event n true } := rfl

@[simp] theorem clrEvent_img (s : State) (n : Nat) : (clrEvent s n).img = s.img := rfl

@[simp] theorem clrEvent_cal (s : State) (n : Nat) : (clrEvent s n).cal = s.cal := rfl

@[simp] theorem clrEvent_tasks (s : State) (n : Nat) : (clrEvent s n).tasks = s.tasks := rfl

@[simp] theorem getClr_updWin (s : State) (n m : Nat) (f : Window → Window) : getClr (updWin s n f) m = getClr s m := rfl

@[simp] theorem getWin_updClr (s : State) (n m : Nat) (f : Clearing → Clearing) : getWin (updClr s n f) m = getWin s m := rfl

@[simp] theorem getClr_reachClosed (s : State) (n m : Nat) : getClr (reachClosed s n) m = getClr s m := rfl

@[simp] theorem reachClosed_glob (s : State) (n : Nat) : (reachClosed s n).glob = s.glob := rfl

@[simp] theorem getClr_setClrState (s : State) (n m : Nat) (st : ClrState) :
    getClr (setClrState s n st) m = if m = n then { getClr s n with st := st } else getClr s m := by
  unfold setClrState
  split <;> simp

@[simp] theorem setClrState_glob (s : State) (n : Nat) (st : ClrState) :
    (setClrState s n st).glob = { s.glob with event := setBit s.glob.event n true } := by
  unfold setClrState
  split <;> simp

/-! A status recorded in the global window, or in a clearing's, leaves the other alone. -/

theorem recordStatus_global_frame {K : Keep} (s : State) (q : Requester) (c : Code) (_ : K.glob = false := by assumption) :
    obs K (recordStatus s none q c) = obs K s := by
  simp [recordStatus_global, *]

theorem recordStatus_window_frame {K : Keep} (s : State) (n : Nat) (q : Requester) (c : Code)
    (_ : K.win = false := by assumption) : obs K (recordStatus s (some n) q c) = obs K s := by
  simp [recordStatus_window, *]

theorem getWin_recordStatus_global (s : State) (q : Requester) (c : Code) (n : Nat) :
    getWin (recordStatus s none q c) n = getWin s n := rfl

theorem recordStatus_event (s : State) (win : Option Nat) (q : Requester) (c : Code) :
    (recordStatus s win q c).glob.event = s.glob.event := by cases win <;> rfl

/-! CLR_CMD (R42). -/

/-- A CLR_CMD whose checks pass has the effect that R32 gives it. -/
theorem clrCommand_accepted {s : State} {q : Requester} {w : Word} (h : reachesGlobal s q)
    (hb : noBits w (bitsFrom 6 7 ||| bitsFrom 12 15 ||| bitsFrom 32 63) = true) {op : Nat} (h1 : 1 ≤ op) (h4 : op ≤ 4)
    (ht : (if op = 2 then field w 16 16 ≠ 0 else field w 16 16 = 0)) (hd : (getClr s (field w 0 6)).st ≠ .absent)
    (hh : op = 1 → s.err.halted = false ∧ s.err.deviceFault = false) {u : State}
    (hu : clrOperation s (field w 0 6) op (field w 16 16) = some u) :
    clrCommand q (putField w 8 4 op) s = recordStatus u none q qsOk := by
  have hop : field (putField w 8 4 op) 8 4 = op := by
    rw [field_putField w op (by decide) (by decide)]
    omega
  have hn : field (putField w 8 4 op) 0 6 = field w 0 6 := field_putField_other w op 0 6 (by decide) (by decide) (by decide)
  have htm : field (putField w 8 4 op) 16 16 = field w 16 16 := field_putField_other w op 16 16 (by decide) (by decide) (by decide)
  have hbits : noBits (putField w 8 4 op) (bitsFrom 6 7 ||| bitsFrom 12 15 ||| bitsFrom 32 63) = true := by
    refine noBits_putField op (by decide) (by decide) hb fun i hlo hhi => ?_
    have : i < 12 := hhi
    interval_cases i <;> decide
  rw [clrCommand, globalCmd_run h]
  simp only [hop, hn, htm]
  rw [checked_ok (by
    have ht' : (if op == 2 then field w 16 16 != 0 else field w 16 16 == 0) = true := by
      by_cases h2 : op = 2 <;> simpa [h2] using ht
    have hhalt : (op != 1 || !(s.err.halted || s.err.deviceFault)) = true := by
      by_cases h1 : op = 1
      · simp [hh h1]
      · simp [h1]
    simp only [firstBad_cons, firstBad_nil, hbits, hu, ht', hhalt]
    simp [h1, h4, hd, defined])]
  simp [hu]

/-! The three commands (R32, R240). -/

theorem clrOperation_open {s : State} {n : Nat} (h : (getClr s n).st = .closed ∨ (getClr s n).st = .quiet) (timeout : Nat) :
    clrOperation s n 1 timeout =
      some (setClrState (updClr s n fun c => { c with serveFrom := s.clk.postmark + 1 }) n .opened) := by
  rcases h with h | h <;> simp [clrOperation, h]

theorem clrOperation_close {s : State} {n : Nat} (h : (getClr s n).st = .quiet) (timeout : Nat) :
    clrOperation s n 3 timeout = some (setClrState s n .closed) := by
  simp [clrOperation, h]

/-- Clearing `n` becomes Quiescing: its timer starts, and none of its queues waits for admission any more (R32, R240). -/
def quiesced (s : State) (n timeout : Nat) : State :=
  setClrState (forEach (queuesOf s n) (updClr s n fun c => { c with quiesceLeft := timeout }) stopWaiting) n .quiescing

theorem clrOperation_quiesce {s : State} {n : Nat} (h : (getClr s n).st = .opened) (timeout : Nat) :
    clrOperation s n 2 timeout = some (quiesceCheck (quiesced s n timeout) n) := by
  simp [clrOperation, h, quiesced]

/-- A queue whose head batch no longer waits. -/
def headIdle (k : Queue) : Queue := { k with waiting := false, tried := [], claimOrder := 0, claimTicks := 0, claimScratch := 0 }

theorem getQueue_forEach_stopWaiting (qs : List Nat) (s : State) (k : Nat) :
    getQueue (forEach qs s stopWaiting) k = if k ∈ qs then headIdle (getQueue s k) else getQueue s k := by
  induction qs generalizing s with
  | nil => rfl
  | cons q qs ih =>
    have hstep : getQueue (forEach (q :: qs) s stopWaiting) k = getQueue (forEach qs (updQueue s q headIdle) stopWaiting) k := rfl
    rw [hstep, ih, getQueue_updQueue]
    by_cases hk : k = q
    · subst hk
      simp [headIdle]
    · simp [hk]

/-- Only queues change as their heads stop waiting. -/
theorem forEach_stopWaiting_eq (qs : List Nat) (s : State) :
    forEach qs s stopWaiting = { s with queues := (forEach qs s stopWaiting).queues } :=
  eq_mergeKept (K := { Keep.all with queues := false }) (by simp [Keep.all])

theorem quiesced_frame {K : Keep} (s : State) (n timeout : Nat) (_ : K.glob = false := by assumption)
    (_ : K.clr = false := by assumption) (_ : K.queues = false := by assumption) (_ : K.cc = false := by assumption)
    (_ : K.out = false := by assumption) : obs K (quiesced s n timeout) = obs K s := by
  simp [quiesced, setClrState_of_ne, *]

theorem getClr_quiesced (s : State) (n timeout m : Nat) : getClr (quiesced s n timeout) m =
    if m = n then { getClr s n with st := .quiescing, quiesceLeft := timeout } else getClr s m := by
  unfold quiesced
  rw [forEach_stopWaiting_eq, getClr_setClrState]
  by_cases h : m = n <;> simp [getClr, updClr, setClr, h]

theorem tasksOf_congr {s t : State} (h : t.tasks = s.tasks) (n : Nat) : tasksOf t n = tasksOf s n := by
  simp [tasksOf, taskList, h]

theorem quiesceCheck_busy {s : State} {n : Nat} (h : tasksOf s n ≠ []) : quiesceCheck s n = s := by
  simp [quiesceCheck, h]

theorem quiesceCheck_idle {s : State} {n : Nat} (h : (getClr s n).st = .quiescing) (ht : tasksOf s n = []) :
    quiesceCheck s n = clrEvent (updClr (updClr s n fun c => { c with quiesceLeft := 0 }) n fun c => { c with st := .quiet }) n := by
  simp [quiesceCheck, h, ht, setClrState_of_ne]

theorem quiesced_tasks (s : State) (n timeout : Nat) : (quiesced s n timeout).tasks = s.tasks :=
  obs_tasks (K := { Keep.none with tasks := true }) (quiesced_frame s n timeout rfl rfl rfl rfl rfl)

theorem quiesced_event (s : State) (n timeout : Nat) : (quiesced s n timeout).glob.event = setBit s.glob.event n true := by
  unfold quiesced
  rw [forEach_stopWaiting_eq, setClrState_glob]
  rfl

theorem getQueue_quiesced (s : State) (n timeout k : Nat) :
    getQueue (quiesced s n timeout) k = if k ∈ queuesOf s n then headIdle (getQueue s k) else getQueue s k := by
  unfold quiesced
  rw [setClrState_of_ne (by decide)]
  exact getQueue_forEach_stopWaiting (queuesOf s n) (updClr s n fun c => { c with quiesceLeft := timeout }) k

/-- QUIESCE of an Open clearing: Quiescing with its timer while a task is admitted, else Quiet (R32, R240). -/
def quieted (s : State) (n timeout : Nat) : State := quiesceCheck (quiesced s n timeout) n

theorem quieted_busy {s : State} {n : Nat} (h : tasksOf s n ≠ []) (timeout : Nat) : quieted s n timeout = quiesced s n timeout :=
  quiesceCheck_busy (by rwa [tasksOf_congr (quiesced_tasks s n timeout)])

theorem quieted_idle {s : State} {n : Nat} (h : tasksOf s n = []) (timeout : Nat) : quieted s n timeout =
    clrEvent (updClr (updClr (quiesced s n timeout) n fun c => { c with quiesceLeft := 0 }) n fun c => { c with st := .quiet }) n :=
  quiesceCheck_idle (by simp [getClr_quiesced]) (by rwa [tasksOf_congr (quiesced_tasks s n timeout)])

theorem getClr_quieted (s : State) (n timeout m : Nat) : getClr (quieted s n timeout) m =
    if m = n then
      if tasksOf s n = [] then { getClr s n with st := .quiet, quiesceLeft := 0 }
      else { getClr s n with st := .quiescing, quiesceLeft := timeout }
    else getClr s m := by
  by_cases h : tasksOf s n = []
  · rw [quieted_idle h]
    by_cases hm : m = n <;> simp [getClr_quiesced, hm, h]
  · rw [quieted_busy h, getClr_quiesced]
    simp [h]

theorem quieted_event (s : State) (n timeout : Nat) : (quieted s n timeout).glob.event = setBit s.glob.event n true := by
  by_cases h : tasksOf s n = []
  · simp [quieted_idle h, quiesced_event, setBit_setBit]
  · rw [quieted_busy h, quiesced_event]

theorem quieted_queues (s : State) (n timeout : Nat) : (quieted s n timeout).queues = (quiesced s n timeout).queues := by
  by_cases h : tasksOf s n = []
  · rw [quieted_idle h]
    rfl
  · rw [quieted_busy h]

theorem quieted_frame {K : Keep} (s : State) (n timeout : Nat) (_ : K.glob = false := by assumption)
    (_ : K.clr = false := by assumption) (_ : K.queues = false := by assumption) (_ : K.cc = false := by assumption)
    (_ : K.out = false := by assumption) : obs K (quieted s n timeout) = obs K s := by
  by_cases h : tasksOf s n = []
  · simp [quieted_idle h, quiesced_frame, *]
  · simp [quieted_busy h, quiesced_frame, *]

/-! What starts afresh at Closed (R347, R442, R523). -/

theorem getSwin_setClrState_closed (s : State) (n m : Nat) : getSwin (setClrState s n .closed) m =
    if m = n then { getSwin s n with total := 0, energy := 0 } else getSwin s m := by
  have h : (setClrState s n .closed).swin = (updSwin s n fun w => { w with total := 0, energy := 0 }).swin :=
    obs_swin (K := { Keep.none with swin := true }) (by simp [Keep.none, setClrState_closed, reachClosed])
  rw [getSwin, h, ← getSwin, getSwin_updSwin]

theorem getPwin_setClrState_closed (s : State) (n m : Nat) : getPwin (setClrState s n .closed) m =
    if m = n then { getPwin s n with energy := 0 } else getPwin s m := by
  have h : (setClrState s n .closed).pwin = (updPwin s n fun w => { w with energy := 0 }).pwin := by
    simp only [setClrState_closed, reachClosed]
    rfl
  rw [getPwin, h, ← getPwin, getPwin_updPwin]

theorem getBar_setClrState_closed (s : State) (n m : Nat) : getBar (setClrState s n .closed) m =
    if m = n then { getBar s n with epoch := 0 } else getBar s m := by
  have h : (setClrState s n .closed).bar = (updBar s n fun b => { b with epoch := 0 }).bar := by
    simp only [setClrState_closed, reachClosed]
    rfl
  rw [getBar, h, ← getBar, getBar_updBar]

/-- Settles O19, command by command. -/
theorem clearingsOpenQuiesceAndClose : Obligations.ClearingsOpenQuiesceAndClose := by
  intro s q w hq hb
  refine ⟨?opens, ?quiesces, ?closes⟩
  case opens =>
    intro htime hst hhalt hfault
    have hd : (getClr s (field w 0 6)).st ≠ .absent := by rcases hst with h | h <;> simp [h]
    refine ⟨_, congrArg Host.Outcome.next (clrCommand_accepted hq hb (op := 1) (by decide) (by decide) htime hd
      (fun _ => ⟨hhalt, hfault⟩) (clrOperation_open hst _)), rfl, ?_, fun m hm => ?_, ?_, ?_⟩
    · simp
    · simp [hm]
    · simp [recordStatus_global]
    · exact eq_mergeKept (K := { Keep.all with clr := false, glob := false, cc := false, out := false })
        (by simp [Keep.all, setClrState_of_ne, recordStatus_global_frame])
  case quiesces =>
    intro htime hst
    have hd : (getClr s (field w 0 6)).st ≠ .absent := by simp [hst]
    refine ⟨_, congrArg Host.Outcome.next (clrCommand_accepted hq hb (op := 2) (by decide) (by decide) htime hd (by simp)
      (clrOperation_quiesce hst _)), rfl, fun h => ?_, fun h => ?_, fun m hm => ?_, ?_, fun k hk => ?_, fun k hk => ?_, ?_⟩
    · rw [getClr_recordStatus, ← quieted, getClr_quieted, if_pos rfl, if_neg h]
    · rw [getClr_recordStatus, ← quieted, getClr_quieted, if_pos rfl, if_pos h]
    · rw [getClr_recordStatus, ← quieted, getClr_quieted, if_neg hm]
    · exact quieted_event s _ _
    · rw [getQueue_recordStatus, ← quieted, getQueue, quieted_queues, ← getQueue, getQueue_quiesced, if_pos hk]
      exact ⟨rfl, rfl⟩
    · rw [getQueue_recordStatus, ← quieted, getQueue, quieted_queues, ← getQueue, getQueue_quiesced, if_neg hk]
    · exact eq_mergeKept (K := { Keep.all with clr := false, glob := false, queues := false, cc := false, out := false })
        ((recordStatus_global_frame _ _ _ rfl).trans (quieted_frame s _ _ rfl rfl rfl rfl rfl))
  case closes =>
    intro htime hst
    have hd : (getClr s (field w 0 6)).st ≠ .absent := by simp [hst]
    refine ⟨_, congrArg Host.Outcome.next (clrCommand_accepted hq hb (op := 3) (by decide) (by decide) htime hd (by simp)
      (clrOperation_close hst _)), rfl, ?_, fun m hm => ?_, ?_, ?_, ?_, ?_, ?_, fun m hm => ⟨?_, ?_, ?_⟩, ?_⟩
    · simp
    · simp [hm]
    · simp [recordStatus_global]
    · rw [getSwin_recordStatus, getSwin_setClrState_closed, if_pos rfl]
    · rw [getSwin_recordStatus, getSwin_setClrState_closed, if_pos rfl]
    · rw [getPwin_recordStatus, getPwin_setClrState_closed, if_pos rfl]
    · rw [getBar_recordStatus, getBar_setClrState_closed, if_pos rfl]
    · rw [getSwin_recordStatus, getSwin_setClrState_closed, if_neg hm]
    · rw [getPwin_recordStatus, getPwin_setClrState_closed, if_neg hm]
    · rw [getBar_recordStatus, getBar_setClrState_closed, if_neg hm]
    · exact eq_mergeKept (K := { Keep.all with
        clr := false, glob := false, cc := false, out := false, swin := false, pwin := false, bar := false }) (by
          simp [Keep.all, recordStatus_global_frame])

end Sys2Proof.Machine
end

section
/-! PROOFS. What the answers to refused requests may do to the states of clearings, and what a fence does. -/

namespace Sys2Proof.Machine

/-! The states of clearings, CLR_EVENT and what stands beside it, the count of fences, and the phase map. -/

structure LifeView where
  st : Nat → ClrState
  glob : Glob
  fences : Nat
  map : List Nat

/-- Those parts of a state. -/
def lifeView (s : State) : LifeView := ⟨fun m => (getClr s m).st, s.glob, s.err.fences, s.cal.map⟩

theorem lifeView_st (s : State) (m : Nat) : (lifeView s).st m = (getClr s m).st := rfl
theorem lifeView_glob (s : State) : (lifeView s).glob = s.glob := rfl
theorem lifeView_fences (s : State) : (lifeView s).fences = s.err.fences := rfl
theorem lifeView_map (s : State) : (lifeView s).map = s.cal.map := rfl

theorem lifeView_of_obs {s t : State} (h : obs { Keep.none with clr := true, glob := true, err := true, cal := true } t =
    obs { Keep.none with clr := true, glob := true, err := true, cal := true } s) : lifeView t = lifeView s := by
  simp only [lifeView, getClr, obs_clr h, obs_glob h, obs_err h, obs_cal h]

theorem updClr_lifeView (s : State) (n : Nat) (f : Clearing → Clearing) (h : ∀ c, (f c).st = c.st) :
    lifeView (updClr s n f) = lifeView s := by
  have hst : (fun m => (getClr (updClr s n f) m).st) = fun m => (getClr s m).st := by
    funext m
    by_cases hm : m = n <;> simp [hm, h]
  exact congrArg (LifeView.mk · s.glob s.err.fences s.cal.map) hst

@[simp] theorem updMeas_lifeView (s : State) (n c : Nat) (f : ClassMeas → ClassMeas) : lifeView (updMeas s n c f) = lifeView s :=
  updClr_lifeView s n _ fun _ => rfl

@[simp] theorem measureTask_lifeView (s : State) (k : Task) (us : Nat) : lifeView (measureTask s k us) = lifeView s := by
  simp [measureTask]

@[simp] theorem countOutstanding_lifeView (s : State) (r : MemReq) (up : Bool) :
    lifeView (countOutstanding s r up) = lifeView s := by
  unfold countOutstanding
  split
  · rfl
  · split
    · exact updMeas_lifeView s _ _ _
    · rfl

@[simp] theorem takeReq_lifeView (s : State) (p : Nat) (r : MemReq) : lifeView (takeReq s p r) = lifeView s := by
  unfold takeReq zeroTaken
  split
  · exact updClr_lifeView _ _ _ fun _ => rfl
  · rfl

@[simp] theorem raise_lifeView (s : State) (r : ErrRec) : lifeView (raise s r) = lifeView s := by
  unfold raise holdRec
  split
  · split <;> rfl
  · split <;> rfl

/-- From `s` to `t` no clearing has changed its state, but a Quiescing one that has become Quiet (R32); CLR_EVENT has lost no
bit. -/
structure Settles (s t : State) : Prop where
  st : ∀ m, (getClr t m).st = (getClr s m).st ∨ (getClr s m).st = .quiescing ∧ (getClr t m).st = .quiet
  event : ∀ m, s.glob.event.getLsbD m = true → t.glob.event.getLsbD m = true
  numVfs : t.glob.numVfs = s.glob.numVfs
  fences : t.err.fences = s.err.fences
  map : t.cal.map = s.cal.map

theorem Settles.of_view {s t : State} (h : lifeView t = lifeView s) : Settles s t :=
  ⟨fun m => .inl (congrFun (congrArg LifeView.st h) m), fun m => by rw [show t.glob = s.glob from congrArg LifeView.glob h]; exact id,
    congrArg (Glob.numVfs ∘ LifeView.glob) h, congrArg LifeView.fences h, congrArg LifeView.map h⟩

theorem Settles.refl (s : State) : Settles s s := .of_view rfl

theorem Settles.trans {s t u : State} (h : Settles s t) (h' : Settles t u) : Settles s u where
  st m := by
    rcases h.st m with e | ⟨e1, e2⟩ <;> rcases h'.st m with f | ⟨f1, f2⟩ <;> simp_all
  event m hm := h'.event m (h.event m hm)
  numVfs := h'.numVfs.trans h.numVfs
  fences := h'.fences.trans h.fences
  map := h'.map.trans h.map

theorem Settles.forEach {α : Type} {f : State → α → State} (h : ∀ s x, Settles s (f s x)) :
    ∀ (xs : List α) (s : State), Settles s (forEach xs s f)
  | [], s => .refl s
  | x :: xs, s => (h s x).trans (Settles.forEach h xs (f s x))

theorem quiesceCheck_settles (s : State) (n : Nat) : Settles s (quiesceCheck s n) := by
  unfold quiesceCheck
  split
  next h =>
    obtain ⟨hst, -⟩ : (getClr s n).st = .quiescing ∧ tasksOf s n = [] := by simpa using h
    rw [setClrState_of_ne (by decide)]
    refine ⟨fun m => ?_, fun m hm => ?_, rfl, rfl, rfl⟩
    · by_cases hm : m = n
      · exact .inr (by simp [hm, hst])
      · exact .inl (by simp [hm])
    · simp [setBit, hm]
  · exact .refl s

theorem queueSettle_lifeView (s : State) (q : Nat) : lifeView (queueSettle s q) = lifeView s :=
  lifeView_of_obs (by simp [Keep.none])

theorem countInterrupt_lifeView (s : State) (q : Nat) (i : CplItem) : lifeView (countInterrupt s q i) = lifeView s :=
  lifeView_of_obs (by simp [Keep.none])

theorem endOf_settles (s : State) (i : CplItem) : Settles s (endOf s i) := by
  have hw : lifeView (envWritten s i) = lifeView s := lifeView_of_obs (by simp [Keep.none])
  unfold endOf
  dsimp only
  split
  next t e _ _ =>
    split
    next k _ =>
      refine .trans (.of_view ?_) (quiesceCheck_settles _ _)
      refine Eq.trans (lifeView_of_obs (releaseTask_frame _ _ rfl rfl rfl)) ?_
      split
      · rw [measureTask_lifeView, hw]
      · exact hw
    · exact .of_view hw
  · exact .of_view hw

theorem cplFailed_settles (s : State) (q addr : Nat) : Settles s (cplFailed s q addr) := by
  unfold cplFailed
  refine .trans (.trans (.trans (.of_view ?_) (.of_view (raise_lifeView _ _))) (Settles.forEach endOf_settles _ _))
    (.of_view (queueSettle_lifeView _ _))
  exact lifeView_of_obs (by simp [Keep.none])

theorem itemWritten_settles (s : State) (q : Nat) (isAcct : Bool) : Settles s (itemWritten s q isAcct) := by
  unfold itemWritten
  dsimp only
  split
  · exact .of_view (lifeView_of_obs (by simp [Keep.none]))
  · split
    · exact .of_view (lifeView_of_obs (by simp [Keep.none]))
    next i rest _ =>
      refine .trans (.trans (.of_view (lifeView_of_obs ?_)) (endOf_settles _ i))
        (.of_view ((queueSettle_lifeView _ q).trans (countInterrupt_lifeView _ q i)))
      split
      · split <;> simp [Keep.none]
      · simp [Keep.none]

@[simp] theorem refusalRec_lifeView (s : State) (src unit addr why n ctx gen tag : Nat) (queue : Option Nat) :
    lifeView (refusalRec s src unit addr why n ctx gen tag queue) = lifeView s :=
  (raise_lifeView _ _).trans rfl

@[simp] theorem failEnv_lifeView (s : State) (t e : Nat) (code : Code) (pos addr : Nat) :
    lifeView (failEnv s t e code pos addr) = lifeView s := lifeView_of_obs (by simp [Keep.none])

theorem answerEnv_lifeView (s : State) (a : Acc) (t e : Nat) (r : AccRes) : lifeView (answerEnv s a t e r) = lifeView s := by
  unfold answerEnv
  dsimp only
  split
  next k v _ _ =>
    cases r with
    | ok bs =>
      dsimp only
      refine lifeView_of_obs ?_
      split
      · simp [Keep.none]
      · split <;> simp [Keep.none]
    | spoiled bs =>
      dsimp only
      split
      · exact failEnv_lifeView _ _ _ _ _ _
      · exact lifeView_of_obs (by split <;> simp [Keep.none])
    | refused why =>
      dsimp only
      rw [failEnv_lifeView]
      split <;> exact refusalRec_lifeView _ _ _ _ _ _ _ _ _ _
    | failed c => exact failEnv_lifeView _ _ _ _ _ _
  · rfl

theorem fetchFailed_lifeView (s : State) (q addr : Nat) : lifeView (fetchFailed s q addr) = lifeView s := by
  unfold fetchFailed
  dsimp only
  split
  · refine Eq.trans (lifeView_of_obs (returnDead_frame _ _ _ rfl rfl rfl)) ((raise_lifeView _ _).trans ?_)
    exact lifeView_of_obs (by simp [Keep.none])
  · exact lifeView_of_obs (by simp [Keep.none])

theorem dropClient_lifeView (s : State) (c : Client) : lifeView (dropClient s c) = lifeView s := rfl

theorem answerFetch_lifeView (s : State) (a : Acc) (q : Nat) (r : AccRes) : lifeView (answerFetch s a q r) = lifeView s := by
  unfold answerFetch
  split
  · rfl
  · rw [fetchFailed_lifeView, dropClient_lifeView, refusalRec_lifeView]
  · rw [fetchFailed_lifeView, dropClient_lifeView]

theorem answerCpl_settles (s : State) (a : Acc) (q : Nat) (r : AccRes) : Settles s (answerCpl s a q r) := by
  unfold answerCpl
  split
  · exact itemWritten_settles s q _
  · exact .trans (.of_view (refusalRec_lifeView _ _ _ _ _ _ _ _ _ _)) (cplFailed_settles _ _ _)
  · exact cplFailed_settles _ _ _

theorem answerAcc_settles (s : State) (id : Nat) (r : AccRes) : Settles s (answerAcc s id r) := by
  have hd : lifeView (dropAcc s id) = lifeView s := rfl
  unfold answerAcc
  dsimp only
  split
  · exact .refl s
  · split
    · exact .of_view ((answerEnv_lifeView _ _ _ _ _).trans hd)
    · exact .of_view ((answerFetch_lifeView _ _ _ _).trans hd)
    · exact .trans (.of_view hd) (answerCpl_settles _ _ _ _)
    · exact .of_view (lifeView_of_obs (by simp [Keep.none]))
    · exact .of_view (lifeView_of_obs (by simp [Keep.none]))

theorem coreRespond_lifeView (s : State) (c tag status : Nat) (data : List Byte) :
    lifeView (coreRespond s c tag status data) = lifeView s := lifeView_of_obs (by simp [Keep.none])

theorem unfoldReq_lifeView (s : State) (t : Nat) (r : MemReq) : lifeView (unfoldReq s t r) = lifeView s :=
  lifeView_of_obs (by simp [Keep.none])

/-- A request refused as its generation ends settles the clearings at most (R356, R241). -/
theorem withdraw_settles (s : State) (x : Nat × MemReq) : Settles s (withdraw s x) := by
  have h : lifeView (countOutstanding (takeReq s x.1 x.2) x.2 false) = lifeView s := by simp
  unfold withdraw
  dsimp only
  split
  · refine .of_view ((coreRespond_lifeView _ _ _ _ _).trans ((refusalRec_lifeView _ _ _ _ _ _ _ _ _ _).trans ?_))
    split
    · rw [unfoldReq_lifeView, h]
    · exact h
  · exact .of_view ((refusalRec_lifeView _ _ _ _ _ _ _ _ _ _).trans h)
  · refine .trans (.of_view ?_) (answerAcc_settles _ _ _)
    split
    · rw [unfoldReq_lifeView, h]
    · exact h
  all_goals exact .of_view h

theorem foldl_settles {α : Type} {f : State → α → State} (h : ∀ s x, Settles s (f s x)) (xs : List α) (s : State) :
    Settles s (xs.foldl f s) := Settles.forEach h xs s

theorem updAcct_lifeView (s : State) (c : Nat) (f : CtxAcct → CtxAcct) : lifeView (updAcct s c f) = lifeView s := rfl

theorem xltCtxLeft_lifeView (s : State) (c : Nat) : lifeView (xltCtxLeft s c) = lifeView s :=
  lifeView_of_obs (xltCtxLeft_frame s c rfl rfl)

theorem ctxLeft_settles (s : State) (c old : Nat) : Settles s (ctxLeft s c old) := by
  unfold ctxLeft
  exact .trans (foldl_settles withdraw_settles _ s) (.of_view ((updAcct_lifeView _ _ _).trans (xltCtxLeft_lifeView _ c)))

theorem leaveLive_settles (s : State) (c : Nat) (st : CtxState) : Settles s (leaveLive s c st) :=
  .trans (.of_view (lifeView_of_obs (updCtx_frame _ _ _ rfl))) (ctxLeft_settles _ _ _)

end Sys2Proof.Machine
end

section
/-! PROOFS. The fence of a clearing, from its begin to Closed. -/

namespace Sys2Proof.Machine

/-! Contexts that leave Live, where no request of theirs entered a store in this cclk (R28, R356). -/

theorem enteredNow_congr {s t : State} (hcal : t.cal = s.cal) (hclk : t.clk = s.clk) (c old : Nat) :
    enteredNow t c old = enteredNow s c old := by
  simp [enteredNow, nowCclk, hcal, hclk]

theorem getCtx_ctxLeft (s : State) (c old d : Nat) : getCtx (ctxLeft s c old) d = getCtx s d := by
  have h : (ctxLeft s c old).ctx = s.ctx := obs_ctx (K := { Keep.none with ctx := true }) (by simp [Keep.none])
  rw [getCtx, h, getCtx]

theorem getCtx_leaveLive (s : State) (c : Nat) (st : CtxState) (d : Nat) : getCtx (leaveLive s c st) d =
    if d = c then { getCtx s c with st := st, gen := nextGen (getCtx s c).gen } else getCtx s d := by
  rw [leaveLive, getCtx_ctxLeft, getCtx_updCtx]

theorem leaveLive_frame_of_none {K : Keep} {s : State} {c : Nat} (h : enteredNow s c (getCtx s c).gen = []) (st : CtxState)
    (_ : K.ctx = false := by assumption) (_ : K.acc = false := by assumption) (_ : K.xlt = false := by assumption)
    (_ : K.sch = false := by assumption) : obs K (leaveLive s c st) = obs K s := by
  have hnone : enteredNow (updCtx s c fun k => { k with st := st, gen := nextGen k.gen }) c (getCtx s c).gen = [] :=
    (enteredNow_congr rfl rfl c _).trans h
  rw [leaveLive, ctxLeft, hnone]
  simp [*]

/-- The Live contexts of clearing `n` have left Live (R27, R454). -/
def livesLeft (s : State) (n : Nat) : State := forEach (liveCtxs s n) s fun s c => leaveLive s c .draining

/-- No request of a Live context has entered a store in this cclk. -/
def NoneEntered (s : State) : Prop := ∀ c, (getCtx s c).st = .live → enteredNow s c (getCtx s c).gen = []

theorem liveCtxs_nodup (s : State) (n : Nat) : (liveCtxs s n).Nodup :=
  (List.nodup_range.map fun _ _ h => Nat.add_right_cancel h).filter _

theorem forEach_leaveLive_frame {K : Keep} (hctx : K.ctx = false) (hacc : K.acc = false) (hxlt : K.xlt = false)
    (hsch : K.sch = false) : ∀ (cs : List Nat) (s : State), cs.Nodup → (∀ c ∈ cs, enteredNow s c (getCtx s c).gen = []) →
      obs K (forEach cs s fun s c => leaveLive s c .draining) = obs K s
  | [], _, _, _ => rfl
  | c :: cs, s, hd, he => by
    obtain ⟨hc, hcs⟩ := List.nodup_cons.1 hd
    have hnone := he c List.mem_cons_self
    have hcal := obs_cal (K := { Keep.none with cal := true }) (leaveLive_frame_of_none hnone .draining rfl rfl rfl rfl)
    have hclk := obs_clk (K := { Keep.none with clk := true }) (leaveLive_frame_of_none hnone .draining rfl rfl rfl rfl)
    refine (forEach_leaveLive_frame hctx hacc hxlt hsch cs (leaveLive s c .draining) hcs fun d hmem => ?_).trans
      (leaveLive_frame_of_none hnone .draining)
    have hdc : d ≠ c := fun e => hc (e ▸ hmem)
    rw [getCtx_leaveLive, if_neg hdc, enteredNow_congr hcal hclk]
    exact he d (List.mem_cons_of_mem c hmem)

theorem livesLeft_frame {K : Keep} {s : State} (h : NoneEntered s) (n : Nat) (hctx : K.ctx = false) (hacc : K.acc = false)
    (hxlt : K.xlt = false) (hsch : K.sch = false) : obs K (livesLeft s n) = obs K s :=
  forEach_leaveLive_frame hctx hacc hxlt hsch _ s (liveCtxs_nodup s n) fun c hc =>
    h c (by simpa [liveCtxs] using (List.mem_filter.1 hc).2)

theorem livesLeft_lifeView {s : State} (h : NoneEntered s) (n : Nat) : lifeView (livesLeft s n) = lifeView s :=
  lifeView_of_obs (livesLeft_frame h n rfl rfl rfl rfl)

theorem livesLeft_settles (s : State) (n : Nat) : Settles s (livesLeft s n) :=
  Settles.forEach (fun s c => leaveLive_settles s c .draining) _ s

/-- A context that is still Live is the one that it was. -/
theorem getCtx_forEach_leaveLive (d : Nat) : ∀ (cs : List Nat) (s : State),
    (getCtx (forEach cs s fun s c => leaveLive s c .draining) d).st = .live →
      getCtx (forEach cs s fun s c => leaveLive s c .draining) d = getCtx s d
  | [], _, _ => rfl
  | c :: cs, s, h => by
    have ih := getCtx_forEach_leaveLive d cs (leaveLive s c .draining) h
    have hlive : (getCtx (leaveLive s c .draining) d).st = .live := ih ▸ h
    refine ih.trans ?_
    rw [getCtx_leaveLive] at hlive ⊢
    split at hlive
    · cases hlive
    next hd => rw [if_neg hd]

/-! The begin of a fence (R454). -/

/-- Clearing `n` is Fenced: its contexts have left Live, ERR_WFENCE and ERR_COUNT's fences say so (R454, R485). -/
def fenceMarked (s : State) (n cause : Nat) : State :=
  let s := livesLeft s n
  let s := updClr s n fun c => { c with quiesceLeft := 0, fence := some ⟨nowRef s, false, []⟩ }
  let s := { s with err := { s.err with fences := s.err.fences + 1, slowDue := setBit s.err.slowDue n false } }
  setClrState (updWin s n fun w => { w with fenceCause := cause, fencePostmark := s.clk.postmark }) n .fenced

/-- The abort of clearing `n`'s group that its fence sends (R477). -/
def fenceAbort (s : State) (n : Nat) : State :=
  let g := tabGet 0 s.err.group n
  if wbit g 16 then sendAbort s n (field g 0 16) (some (tasksOf s n).length) else s

/-- The record of the fence of clearing `n`. -/
def fenceRecorded (s : State) (n cause count : Nat) : State :=
  raise s { newRec s qsErrFenced 2 13 n cause count 0 with clearing := some n }

theorem beginFence_eq (s : State) (n cause : Nat) : beginFence s n cause =
    fenceShared (endTasks (fenceRecorded (fenceAbort (fenceMarked s n cause) n) n cause (liveCtxs s n).length) n) n := rfl

theorem sendAbort_lifeView (s : State) (n g : Nat) (ended : Option Nat) : lifeView (sendAbort s n g ended) = lifeView s := by
  unfold sendAbort
  split
  · rfl
  · split
    · dsimp only
      split
      · exact raise_lifeView _ _
      · rfl
    · exact raise_lifeView _ _

theorem fenceAbort_lifeView (s : State) (n : Nat) : lifeView (fenceAbort s n) = lifeView s := by
  unfold fenceAbort
  dsimp only
  split
  · exact sendAbort_lifeView _ _ _ _
  · rfl

theorem beginFence_lifeView (s : State) (n cause : Nat) : lifeView (beginFence s n cause) = lifeView (fenceMarked s n cause) := by
  have hend : ∀ u : State, lifeView (fenceShared (endTasks u n) n) = lifeView u := fun u =>
    lifeView_of_obs (by simp [Keep.none])
  rw [beginFence_eq, hend, fenceRecorded, raise_lifeView, fenceAbort_lifeView]

/-- After the fence is marked, only work, records and what clearings share change. -/
theorem beginFence_marked_frame {K : Keep} (s : State) (n cause : Nat) (_ : K.err = false := by assumption)
    (_ : K.rings = false := by assumption) (_ : K.que = false := by assumption) (_ : K.queues = false := by assumption)
    (_ : K.tasks = false := by assumption) (_ : K.acc = false := by assumption) (_ : K.accNext = false := by assumption)
    (_ : K.tbl = false := by assumption) (_ : K.trl = false := by assumption) (_ : K.ls = false := by assumption)
    (_ : K.bar = false := by assumption) (_ : K.twin = false := by assumption) (_ : K.out = false := by assumption) :
    obs K (beginFence s n cause) = obs K (fenceMarked s n cause) := by
  simp [beginFence_eq, fenceRecorded, fenceAbort, *]

theorem getClr_fenceMarked_st (s : State) (n cause m : Nat) : (getClr (fenceMarked s n cause) m).st =
    if m = n then .fenced else (getClr (livesLeft s n) m).st := by
  rw [fenceMarked, getClr_setClrState]
  by_cases hm : m = n
  · simp [hm]
  · simp [hm, getClr, updClr, setClr]

theorem fenceMarked_lifeView (s : State) (n cause : Nat) : lifeView (fenceMarked s n cause) =
    { st := fun m => if m = n then .fenced else (getClr (livesLeft s n) m).st
      glob := { (livesLeft s n).glob with event := setBit (livesLeft s n).glob.event n true }
      fences := (livesLeft s n).err.fences + 1, map := (livesLeft s n).cal.map } := by
  have hst : (fun m => (getClr (fenceMarked s n cause) m).st) = _ := funext (getClr_fenceMarked_st s n cause)
  rw [lifeView, hst]
  simp [fenceMarked, setClrState_of_ne, clrEvent, updCc, msix, emit]

end Sys2Proof.Machine
end

section
/-! PROOFS. What a fence leaves, and how it ends: Fenced, Resetting, Closed. -/

namespace Sys2Proof.Machine

/-! A fence has begun (R32, R454). -/

/-- Where no request of a Live context entered a store in this cclk, the fence changes the state of its clearing alone. -/
theorem beginFence_alone {s : State} (h : NoneEntered s) (n cause : Nat) : lifeView (beginFence s n cause) =
    { st := fun m => if m = n then .fenced else (getClr s m).st
      glob := { s.glob with event := setBit s.glob.event n true }, fences := s.err.fences + 1, map := s.cal.map } := by
  have hleft := livesLeft_lifeView h n
  rw [beginFence_lifeView, fenceMarked_lifeView]
  simp only [← lifeView_st, ← lifeView_glob, ← lifeView_fences, ← lifeView_map, hleft]

theorem getClr_beginFence_st (s : State) (n cause m : Nat) : (getClr (beginFence s n cause) m).st =
    if m = n then .fenced else (getClr (livesLeft s n) m).st := by
  rw [← lifeView_st, beginFence_lifeView, fenceMarked_lifeView]

theorem getClr_beginFence_other {s : State} (h : NoneEntered s) {n m : Nat} (hm : m ≠ n) (cause : Nat) :
    (getClr (beginFence s n cause) m).st = (getClr s m).st := by
  rw [← lifeView_st, beginFence_alone h]
  exact if_neg hm

theorem beginFence_event_alone {s : State} (h : NoneEntered s) (n cause : Nat) :
    (beginFence s n cause).glob.event = setBit s.glob.event n true := by
  rw [← lifeView_glob, beginFence_alone h]

theorem beginFence_glob (s : State) (n cause : Nat) : (beginFence s n cause).glob =
    { (livesLeft s n).glob with event := setBit (livesLeft s n).glob.event n true } := by
  rw [← lifeView_glob, beginFence_lifeView, fenceMarked_lifeView]

theorem beginFence_event (s : State) (n cause : Nat) (hn : n < 64) :
    (beginFence s n cause).glob.event.getLsbD n = true := by
  simp [beginFence_glob, getLsbD_setBit _ _ _ hn]

theorem beginFence_numVfs (s : State) (n cause : Nat) : (beginFence s n cause).glob.numVfs = s.glob.numVfs := by
  rw [beginFence_glob]
  exact (livesLeft_settles s n).numVfs

theorem beginFence_fences (s : State) (n cause : Nat) : (beginFence s n cause).err.fences = s.err.fences + 1 := by
  rw [← lifeView_fences, beginFence_lifeView, fenceMarked_lifeView, (livesLeft_settles s n).fences]

theorem beginFence_map (s : State) (n cause : Nat) : (beginFence s n cause).cal.map = s.cal.map := by
  rw [← lifeView_map, beginFence_lifeView, fenceMarked_lifeView, (livesLeft_settles s n).map]

theorem beginFence_img (s : State) (n cause : Nat) : (beginFence s n cause).img = s.img :=
  obs_img (K := { Keep.none with img := true }) (by simp [Keep.none])

/-- ERR_WFENCE holds the cause and the postmark of the fence (R485). -/
theorem getWin_beginFence (s : State) (n cause : Nat) : getWin (beginFence s n cause) n =
    { getWin s n with fenceCause := cause, fencePostmark := s.clk.postmark } := by
  have hw : (beginFence s n cause).win = (fenceMarked s n cause).win :=
    obs_win (K := { Keep.none with win := true }) (by simp [Keep.none, beginFence_marked_frame])
  have hleft : (livesLeft s n).win = s.win := obs_win (K := { Keep.none with win := true }) (by simp [Keep.none, livesLeft])
  have hclk : (livesLeft s n).clk = s.clk := obs_clk (K := { Keep.none with clk := true }) (by simp [Keep.none, livesLeft])
  rw [getWin, hw, fenceMarked, setClrState_of_ne (by decide)]
  simp [clrEvent, updCc, msix, emit, updClr, setClr, updWin, getWin, hleft, hclk]

/-- RESET, or the reset event with a cause, of a clearing that serves (R32). -/
theorem resetEvent_serving {s : State} {n : Nat} (h : (getClr s n).st = .closed ∨ (getClr s n).st = .opened ∨
    (getClr s n).st = .quiescing ∨ (getClr s n).st = .quiet) (cause : Nat) : resetEvent s n cause = beginFence s n cause := by
  rcases h with h | h | h | h <;> simp [resetEvent, h]

theorem resetEvent_absorbed {s : State} {n : Nat} (h : (getClr s n).st = .fenced ∨ (getClr s n).st = .resetting) (cause : Nat) :
    resetEvent s n cause = s := by
  rcases h with h | h <;> simp [resetEvent, h]

theorem clrOperation_reset {s : State} {n : Nat} (h : (getClr s n).st ≠ .absent) (timeout : Nat) :
    clrOperation s n 4 timeout = some (resetEvent s n 1) := by
  unfold clrOperation
  cases hst : (getClr s n).st <;> simp_all

/-! Fenced to Resetting (R454, R455). -/

theorem tasksOf_eq_nil {s : State} {n : Nat} (h : ∀ kv ∈ s.tasks, ∀ k, kv.2 = some k → k.n ≠ n) : tasksOf s n = [] := by
  refine List.filter_eq_nil_iff.2 fun x hx => ?_
  obtain ⟨kv, hkv, hmap⟩ := List.mem_filterMap.1 hx
  obtain ⟨k, hk, rfl⟩ := Option.map_eq_some_iff.1 hmap
  simp [h kv hkv k hk]

/-- The stream entries that clearing `n` does not hold. -/
def othersTasks (n : Nat) (kv : Nat × Option Task) : Bool := kv.2.any fun k => k.n != n

/-- The stream entries of a clearing are cleared with its streams. -/
theorem clearStreams_tasks (s : State) (n : Nat) : ∃ ts : Tab (Option Task), (clearStreams s n).tasks = ts.filter (othersTasks n) := by
  unfold clearStreams
  dsimp only
  refine ⟨_, congrArg (List.filter · _) (funext fun kv => ?_)⟩
  obtain ⟨i, _ | k⟩ := kv <;> rfl

theorem tasksOf_clearStreams (s : State) (n : Nat) : tasksOf (clearStreams s n) n = [] := by
  obtain ⟨ts, hts⟩ := clearStreams_tasks s n
  refine tasksOf_eq_nil fun kv hkv k hk => ?_
  rw [hts] at hkv
  obtain ⟨-, hkeep⟩ := List.mem_filter.1 hkv
  simpa [othersTasks, hk] using hkeep

theorem enterResetting_tasks (s : State) (n : Nat) : (enterResetting s n).tasks =
    (clearStreams (clearQueues s (getClr s n).cfg.dbBase (getClr s n).cfg.dbCount) n).tasks :=
  obs_tasks (K := { Keep.none with tasks := true }) (by simp [Keep.none, enterResetting])

/-- The clearing's Draining contexts are Free, and what it loses as it enters Resetting is lost. -/
def drained (s : State) (n : Nat) : State :=
  enterResetting (forEach ((ctxsOf s n).filter fun c => (getCtx s c).st == .draining) s freeCtx) n

theorem fenceDrained_eq {s : State} {n : Nat} (h : fenceIsDrained s n = true) :
    fenceDrained s n = clrEvent (updClr (drained s n) n fun c => { c with st := .resetting }) n := by
  rw [fenceDrained, if_pos h, setClrState_of_ne (by decide)]
  rfl

theorem drained_lifeView (s : State) (n : Nat) : lifeView (drained s n) = lifeView s :=
  lifeView_of_obs (by simp [Keep.none, drained])

theorem drained_img (s : State) (n : Nat) : (drained s n).img = s.img :=
  obs_img (K := { Keep.none with img := true }) (by simp [Keep.none, drained])

theorem tasksOf_drained (s : State) (n : Nat) : tasksOf (drained s n) n = [] := by
  rw [drained, tasksOf_congr (enterResetting_tasks _ n)]
  exact tasksOf_clearStreams _ n

/-! Resetting to Closed (R463). -/

/-- A manifest's issue changes nothing of a clearing but its issue (R39). -/
theorem getClr_issueManifest (s : State) (n m : Nat) : getClr (issueManifest s n) m =
    { getClr s m with
      issues := (getClr (issueManifest s n) m).issues, issuing := (getClr (issueManifest s n) m).issuing
      issueAgain := (getClr (issueManifest s n) m).issueAgain } := by
  unfold issueManifest beginIssue
  by_cases hm : m = n <;> split <;> [skip; split; skip; split] <;> simp [hm]

/-- Clearing `n` is Closed, its nonce zero and its tunables and measures as at the start (R67, R199, R463). -/
def zeroed (s : State) (n : Nat) : State :=
  let s := updWin (updClr s n fun c => { c with fence := none }) n fun w => { w with nonce0 := 0, nonce1 := 0 }
  setClrState (resetMeas (resetTun s n) n) n .closed

theorem resetDone_eq {s : State} {n : Nat} (h : (getClr s n).st = .resetting) (hz : zeroingDone s n = true) :
    ∃ r, resetDone s n = flrRaise (issueManifest (raise (zeroed s n) r) n) := by
  unfold resetDone
  dsimp only
  rw [if_neg (by simp [h, hz])]
  exact ⟨_, rfl⟩

theorem getClr_zeroed (s : State) (n : Nat) : (getClr (zeroed s n) n).st = .closed ∧ (getClr (zeroed s n) n).fence = none ∧
    (getClr (zeroed s n) n).tunNext = none := by
  simp [zeroed, resetMeas, resetTun]

theorem getClr_zeroed_other (s : State) {n m : Nat} (h : m ≠ n) : (getClr (zeroed s n) m).st = (getClr s m).st := by
  simp [zeroed, resetMeas, resetTun, h]

theorem zeroed_event (s : State) (n : Nat) : (zeroed s n).glob.event = setBit s.glob.event n true := by
  have h : (zeroed s n).glob = { s.glob with event := setBit s.glob.event n true } := by
    rw [zeroed, setClrState_glob]
    rfl
  rw [h]

theorem getWin_zeroed (s : State) (n : Nat) : getWin (zeroed s n) n = { getWin s n with nonce0 := 0, nonce1 := 0 } := by
  have h : (zeroed s n).win = (updWin (updClr s n fun c => { c with fence := none }) n fun w =>
      { w with nonce0 := 0, nonce1 := 0 }).win := obs_win (K := { Keep.none with win := true }) (by simp [Keep.none, zeroed])
  rw [getWin, h, ← getWin]
  simp

/-- After its state, only a clearing's manifest, the rings and hp_flr_done follow. -/
theorem resetDone_facts {s : State} {n : Nat} (h : (getClr s n).st = .resetting) (hz : zeroingDone s n = true) :
    (∀ m, (getClr (resetDone s n) m).st = (getClr (zeroed s n) m).st ∧ (getClr (resetDone s n) m).fence = (getClr (zeroed s n) m).fence ∧
      (getClr (resetDone s n) m).tunNext = (getClr (zeroed s n) m).tunNext) ∧ (resetDone s n).win = (zeroed s n).win ∧
      (resetDone s n).glob = (zeroed s n).glob := by
  obtain ⟨r, hr⟩ := resetDone_eq h hz
  have hclr : (resetDone s n).clr = (issueManifest (raise (zeroed s n) r) n).clr :=
    hr ▸ obs_clr (K := { Keep.none with clr := true }) (by simp [Keep.none])
  have hraise : (raise (zeroed s n) r).clr = (zeroed s n).clr := obs_clr (K := { Keep.none with clr := true }) (by simp [Keep.none])
  refine ⟨fun m => ?_, ?_, ?_⟩
  · rw [getClr, hclr, ← getClr, getClr_issueManifest, getClr, hraise, ← getClr]
    dsimp only
    exact ⟨rfl, rfl, rfl⟩
  · exact hr ▸ obs_win (K := { Keep.none with win := true }) (by simp [Keep.none])
  · exact hr ▸ obs_glob (K := { Keep.none with glob := true }) (by simp [Keep.none])

/-- Settles O20: a fence marks its clearing alone, and where no request has entered a store the contexts leave nothing behind. -/
theorem fencesAndResetsOfClearings : Obligations.FencesAndResetsOfClearings := by
  refine ⟨fun s q w hq hb ht => ⟨fun hst => ?absorbed, fun hst => ?fenced⟩, ?timer, ?drain, fun s n hst => ⟨?waits, ?closes⟩⟩
  case absorbed =>
    have hd : (getClr s (field w 0 6)).st ≠ .absent := by rcases hst with h | h <;> simp [h]
    have hexec := clrCommand_accepted hq hb (op := 4) (by decide) (by decide) ht hd (by simp) (clrOperation_reset hd _)
    rw [resetEvent_absorbed hst] at hexec
    exact congrArg Host.Outcome.next hexec
  case fenced =>
    have hd : (getClr s (field w 0 6)).st ≠ .absent := by rcases hst with h | h | h | h <;> simp [h]
    have hexec := clrCommand_accepted hq hb (op := 4) (by decide) (by decide) ht hd (by simp) (clrOperation_reset hd _)
    rw [resetEvent_serving hst] at hexec
    refine ⟨_, congrArg Host.Outcome.next hexec, rfl, ?_, ?_, ?_, ?_, ?_, fun he => ⟨?_, fun m hm => ?_⟩, ?_, ?_⟩
    · rw [getClr_recordStatus, getClr_beginFence_st, if_pos rfl]
    · rw [getWin_recordStatus_global, getWin_beginFence]
    · rw [getWin_recordStatus_global, getWin_beginFence]
    · rw [recordStatus_event, beginFence_event s _ 1 (field_lt w 0 6)]
    · rw [recordStatus_err, beginFence_fences]
    · rw [recordStatus_event, beginFence_event_alone fun c _ => he c]
    · rw [getClr_recordStatus, getClr_beginFence_other (fun c _ => he c) hm]
    · rw [recordStatus_img, beginFence_img]
    · rw [recordStatus_cal, beginFence_map]
  case timer =>
    intro s n hst hleft
    refine ⟨beginFence s n 3, by simp [exec, execQuiesceTimerExpire, hst, hleft], ?_, ?_, ?_, beginFence_event s n 3,
      beginFence_fences s n 3, fun he => ⟨beginFence_event_alone (fun c _ => he c) n 3,
      fun m hm => getClr_beginFence_other (fun c _ => he c) hm 3⟩, beginFence_img s n 3, beginFence_map s n 3⟩
    · rw [getClr_beginFence_st, if_pos rfl]
    · rw [getWin_beginFence]
    · rw [getWin_beginFence]
  case drain =>
    intro s n h
    refine ⟨_, congrArg Host.Outcome.next (fenceDrained_eq h), ?_, ?_, ?_, fun m hm => ?_, ?_, ?_⟩
    · simp
    · rw [tasksOf_congr (clrEvent_tasks _ n), tasksOf_congr (updClr_tasks _ n _)]
      exact tasksOf_drained s n
    · rw [clrEvent_glob, updClr_glob, ← lifeView_glob, drained_lifeView, lifeView_glob]
    · rw [getClr_clrEvent, getClr_updClr, if_neg hm, ← lifeView_st, drained_lifeView, lifeView_st]
    · rw [clrEvent_img, updClr_img, drained_img]
    · rw [clrEvent_cal, updClr_cal, ← lifeView_map, drained_lifeView, lifeView_map]
  case waits =>
    intro hz
    simp [exec, execClearingResetDone, resetDone, hz]
  case closes =>
    intro hz
    obtain ⟨hclr, hwin, hglob⟩ := resetDone_facts hst hz
    obtain ⟨h1, h2, h3⟩ := hclr n
    obtain ⟨z1, z2, z3⟩ := getClr_zeroed s n
    refine ⟨_, rfl, h1.trans z1, h2.trans z2, ?_, ?_, h3.trans z3, ?_, fun m hm => ?_, ?_, ?_⟩
    · rw [getWin, hwin, ← getWin, getWin_zeroed]
    · rw [getWin, hwin, ← getWin, getWin_zeroed]
    · rw [hglob, zeroed_event]
    · exact (hclr m).1.trans (getClr_zeroed_other s hm)
    · exact obs_img (K := { Keep.none with img := true }) (by simp [Keep.none])
    · exact obs_cal (K := { Keep.none with cal := true }) (by simp [Keep.none])

end Sys2Proof.Machine
end

section
/-! PROOFS. The nonce of a clearing and the issue of its manifest. -/

namespace Sys2Proof.Machine

/-! A cause of R38 (R39). -/

theorem issueManifest_idle {s : State} {n : Nat} (hd : (getClr s n).st ≠ .absent) (hroot : s.boot.rootAbsent = false)
    (hrun : s.boot.phase = .running) (hi : (getClr s n).issuing = none) : issueManifest s n = beginIssue s n := by
  simp [issueManifest, defined, running, hd, hroot, hrun, hi]

theorem issueManifest_busy {s : State} {n : Nat} (hd : (getClr s n).st ≠ .absent) (hroot : s.boot.rootAbsent = false)
    (hrun : s.boot.phase = .running) (hi : (getClr s n).issuing ≠ none) :
    issueManifest s n = updClr s n fun c => { c with issueAgain := true } := by
  simp [issueManifest, defined, running, hd, hroot, hrun, Option.isSome_iff_ne_none.2 hi]

theorem getClr_issueManifest_other (s : State) {n m : Nat} (h : m ≠ n) : getClr (issueManifest s n) m = getClr s m := by
  unfold issueManifest beginIssue
  split
  · rfl
  · split <;> simp [h]

theorem getClr_beginIssue (s : State) (n : Nat) : getClr (beginIssue s n) n = { getClr s n with
    issues := (getClr s n).issues + 1, issuing := some ⟨manifestBody s n ((getClr s n).issues + 1)⟩, issueAgain := false } := by
  simp [beginIssue]

theorem getWin_issueManifest (s : State) (n m : Nat) : getWin (issueManifest s n) m = getWin s m := by
  rw [getWin, obs_win (K := { Keep.none with win := true }) (issueManifest_frame s n rfl), ← getWin]

theorem issueManifest_glob (s : State) (n : Nat) : (issueManifest s n).glob = s.glob :=
  obs_glob (K := { Keep.none with glob := true }) (issueManifest_frame s n rfl)

/-! A write of CLR_NONCE1 (R38). -/

/-- The nonce's upper half of window `n` is `w`. -/
def nonceSet (s : State) (n : Nat) (w : Word) : State := updWin s n fun k => { k with nonce1 := w }

theorem nonce1Write_eq {s : State} {q : Requester} {n : Nat} (h : reachesOwn s q n) (w : Word) : nonce1Write q n w s =
    recordStatus (issueManifest (nonceSet s n w) n) (some n) q qsOk := by
  rw [nonce1Write, windowCmd_run h, checked_ok rfl, nonceSet]

/-! The end of an issue (R37, R39). -/

/-- The page of clearing `n` is replaced, and CLR_EVENT says so. -/
def pageReplaced (s : State) (n : Nat) (page : List Byte) : State :=
  let s := updClr s n fun c => { c with page := page, issuing := none, issueAgain := false }
  clrEvent { s with glob := { s.glob with signs := s.glob.signs + 1 } } n

theorem finishIssue_eq {s : State} {n : Nat} {j : IssueJob} (h : (getClr s n).issuing = some j) : finishIssue s n =
    if (getClr s n).issueAgain = true then issueManifest (pageReplaced s n (signedPage s j.body)) n
    else pageReplaced s n (signedPage s j.body) := by
  simp only [finishIssue, h]
  rfl

theorem getClr_pageReplaced (s : State) (n m : Nat) (page : List Byte) : getClr (pageReplaced s n page) m =
    if m = n then { getClr s n with page := page, issuing := none, issueAgain := false } else getClr s m :=
  getClr_updClr s n m fun c => { c with page := page, issuing := none, issueAgain := false }

theorem pageReplaced_event (s : State) (n : Nat) (page : List Byte) :
    (pageReplaced s n page).glob.event = setBit s.glob.event n true := rfl

theorem getWin_nonce1Write {s : State} {q : Requester} {n : Nat} (h : reachesOwn s q n) (w : Word) (m : Nat) :
    getWin (nonce1Write q n w s) m = if m = n then { getWin s n with nonce1 := w, code := qsOk } else getWin s m := by
  rw [nonce1Write_eq h, recordStatus_window, getWin_updWin, getWin_issueManifest, getWin_issueManifest, nonceSet,
    getWin_updWin, getWin_updWin]
  by_cases hm : m = n <;> simp [hm]

theorem getClr_nonce1Write {s : State} {q : Requester} {n : Nat} (h : reachesOwn s q n) (w : Word) (m : Nat) :
    getClr (nonce1Write q n w s) m = getClr (issueManifest (nonceSet s n w) n) m := by
  rw [nonce1Write_eq h, getClr_recordStatus]

theorem pageReplaced_frame {K : Keep} (s : State) (n : Nat) (page : List Byte) (hglob : K.glob = false) (hclr : K.clr = false)
    (hcc : K.cc = false) (hout : K.out = false) : obs K (pageReplaced s n page) = obs K s := by
  rw [pageReplaced, clrEvent_frame, obs_set_glob _ _ hglob, updClr_frame]

/-- Settles O21: a write of the nonce is a cause of R38, and an issue's end replaces the page and may begin the next. -/
theorem manifestsAndNonces : Obligations.ManifestsAndNonces := by
  refine ⟨?nonce, ?issued⟩
  case nonce =>
    intro s q n w hq hroot hd
    refine ⟨_, rfl, ?_, ?_, ?_, fun hi => ?_, fun hi => ?_, fun m hm => ⟨?_, ?_⟩, ?_⟩
    · rw [getWin_nonce1Write hq, if_pos rfl]
    · rw [getWin_nonce1Write hq, if_pos rfl]
    · rw [getWin_nonce1Write hq, if_pos rfl]
    · rw [getClr_nonce1Write hq, issueManifest_idle (s := nonceSet s n w) hd hroot hq.1 hi, getClr_beginIssue]
      exact ⟨rfl, Option.some_ne_none _⟩
    · rw [getClr_nonce1Write hq, issueManifest_busy (s := nonceSet s n w) hd hroot hq.1 hi, getClr_updClr, if_pos rfl,
        nonceSet, getClr_updWin]
    · rw [getClr_nonce1Write hq, getClr_issueManifest_other _ hm, nonceSet, getClr_updWin]
    · rw [getWin_nonce1Write hq, if_neg hm]
    · exact eq_mergeKept (K := { Keep.all with clr := false, win := false }) (by
        rw [nonce1Write_eq hq]
        exact (recordStatus_window_frame _ n q _ rfl).trans ((issueManifest_frame _ n rfl).trans (updWin_frame s n _ rfl)))
  case issued =>
    intro s n j hj
    refine ⟨_, congrArg Host.Outcome.next (finishIssue_eq hj), ?_⟩
    have hpage := getClr_pageReplaced s n n (signedPage s j.body)
    rw [if_pos rfl] at hpage
    have hother : ∀ m, m ≠ n → getClr (pageReplaced s n (signedPage s j.body)) m = getClr s m := fun m hm => by
      rw [getClr_pageReplaced, if_neg hm]
    split
    next hagain =>
      refine ⟨?_, ?_, fun h => absurd hagain (by simp [h]), fun m hm => ?_, ?_⟩
      · rw [getClr_issueManifest, hpage]
      · rw [issueManifest_glob, pageReplaced_event]
      · rw [getClr_issueManifest_other _ hm, hother m hm]
      · exact eq_mergeKept (K := { Keep.all with clr := false, glob := false, cc := false, out := false })
          ((issueManifest_frame _ n rfl).trans (pageReplaced_frame s n _ rfl rfl rfl rfl))
    next hlast =>
      refine ⟨?_, pageReplaced_event s n _, fun _ => ?_, hother, ?_⟩
      · rw [hpage]
      · rw [hpage]
      · exact eq_mergeKept (K := { Keep.all with clr := false, glob := false, cc := false, out := false })
          (pageReplaced_frame s n _ rfl rfl rfl rfl)

end Sys2Proof.Machine
end

section
/-! PROOFS. The contexts of a clearing: their creation, and how they leave Live. -/

namespace Sys2Proof.Machine

/-! CLR_CTX_CMD (R45, R46). -/

/-- CLR_CTX_RESULT of a command on context `c` of clearing `n` that is accepted, with effect `u`. -/
def ctxAnswered (u : State) (n c : Nat) (done : Bool) : State :=
  updWin u n fun v => { v with ctxCode := qsOk, ctxNum := c, ctxGen := (getCtx u c).gen, ctxDone := done }

section
variable {s : State} {q : Requester} {n : Nat} {w : Word} (h : reachesOwn s q n)
  (hb : noBits w (bitsFrom 5 15 ||| bitsFrom 28 63) = true)
  (hst : (getClr s n).st = .closed ∨ (getClr s n).st = .opened ∨ (getClr s n).st = .quiet)
include hb

theorem ctxWord_fields {op : Nat} (hop : op < 16) : field (putField w 0 4 op) 0 4 = op ∧
    wbit (putField w 0 4 op) 4 = wbit w 4 ∧ field (putField w 0 4 op) 16 12 = field w 16 12 ∧
    noBits (putField w 0 4 op) (bitsFrom 5 15 ||| bitsFrom 28 63) = true := by
  refine ⟨?_, ?_, field_putField_other w op 16 12 (by decide) (by decide) (by decide), ?_⟩
  · rw [field_putField w op (by decide) (by decide)]
    exact Nat.mod_eq_of_lt hop
  · rw [wbit_putField w op 4 (by decide) (by decide)]
    rfl
  · refine noBits_putField op (by decide) (by decide) hb fun i _ hi => ?_
    have : i < 4 := hi
    interval_cases i <;> decide

include h hst

theorem ctxCreate_accepted {c : Nat}
    (hc : (wbit w 4 = true ∧ lowestFree s n = some c) ∨
      (wbit w 4 = false ∧ c = field w 16 12 ∧ inRange (getClr s n).cfg.ctxBase (getClr s n).cfg.ctxCount c = true))
    (hfree : (getCtx s c).st = .free)
    (hpasid : wbit (getWin s n).ctxArg 20 = false ∨ pasidBound s n (field (getWin s n).ctxArg 0 20) = false)
    (hweight : (getClr s n).cfg.tunable.getLsbD 4 = true → (getClr s n).cfg.weightMin ≤ field (getWin s n).ctxArg 32 16 ∧
      field (getWin s n).ctxArg 32 16 ≤ (getClr s n).cfg.weightMax) :
    ctxCommand q n (putField w 0 4 1) s = recordStatus (ctxAnswered (createCtx s n c) n c true) (some n) q qsOk := by
  obtain ⟨h1, h2, h3, h4⟩ := ctxWord_fields hb (op := 1) (by decide)
  have hnum : (if wbit w 4 && 1 == 1 then (lowestFree s n).getD 0 else field w 16 12) = c := by
    rcases hc with ⟨h, hl⟩ | ⟨h, rfl, -⟩ <;> simp [*]
  have hd : defined s n = true := by rcases hst with h | h | h <;> simp [defined, h]
  have hserves : ((getClr s n).st == .closed || (getClr s n).st == .opened || (getClr s n).st == .quiet) = true := by
    rcases hst with h | h | h <;> simp [h]
  have hown : (wbit w 4 || inRange (getClr s n).cfg.ctxBase (getClr s n).cfg.ctxCount c) = true := by
    rcases hc with ⟨h, -⟩ | ⟨-, -, h⟩ <;> simp [h]
  have hsome : (!wbit w 4 || (lowestFree s n).isSome) = true := by
    rcases hc with ⟨-, h⟩ | ⟨h, -, -⟩ <;> simp [h]
  have hbound : (!wbit (getWin s n).ctxArg 20 || !pasidBound s n (field (getWin s n).ctxArg 0 20)) = true := by
    rcases hpasid with h | h <;> simp [h]
  rw [ctxCommand, windowCmd_run h]
  simp only [h1, h2, h3, hnum]
  rw [checked_ok (by
    simp only [firstBad_cons, h4, hd, hserves, hown, hfree]
    simpa [hsome, hbound] using hweight)]
  rfl

/-- A DESTROY or a TEARDOWN of the Live context that the word names. -/
theorem ctxLeave_accepted {c op : Nat} (hop : op = 2 ∨ op = 3) (hany : wbit w 4 = false) (hc : c = field w 16 12)
    (hown : inRange (getClr s n).cfg.ctxBase (getClr s n).cfg.ctxCount c = true) (hlive : (getCtx s c).st = .live)
    (hidle : op = 2 → ctxIdle s c = true) (htear : op = 3 → (getClr s n).cfg.ctxTeardown = true) :
    ctxCommand q n (putField w 0 4 op) s = recordStatus (ctxAnswered
      (if op = 2 then freeCtx (leaveLive s c .free) c else tearDown s n c) n c (op != 3)) (some n) q qsOk := by
  obtain ⟨h1, h2, h3, h4⟩ := ctxWord_fields hb (op := op) (by omega)
  have hd : defined s n = true := by rcases hst with h | h | h <;> simp [defined, h]
  have hserves : ((getClr s n).st == .closed || (getClr s n).st == .opened || (getClr s n).st == .quiet) = true := by
    rcases hst with h | h | h <;> simp [h]
  have hnum : (if wbit w 4 && op == 1 then (lowestFree s n).getD 0 else field w 16 12) = c := by simp [hany, hc]
  rw [ctxCommand, windowCmd_run h]
  simp only [h1, h2, h3, hnum]
  rcases hop with rfl | rfl
  · rw [if_pos rfl, checked_ok (by
      simp only [firstBad_cons, h4, hd, hserves, hown]
      simp [hany, hlive, hidle])]
    dsimp only
    rfl
  · rw [if_neg (by decide), checked_ok (by
      simp only [firstBad_cons, h4, hd, hserves, hown]
      simp [hany, hlive, htear])]
    dsimp only
    rfl

end

/-! What the answer to a command holds. -/

/-- An accepted command of window `n` on context `c`, with effect `u`, as it is recorded (R45, R528). -/
def ctxEnd (u : State) (n c : Nat) (q : Requester) (done : Bool) : State := recordStatus (ctxAnswered u n c done) (some n) q qsOk

theorem getWin_ctxEnd (u : State) (n c : Nat) (q : Requester) (done : Bool) : (getWin (ctxEnd u n c q done) n).code = qsOk ∧
    (getWin (ctxEnd u n c q done) n).ctxCode = qsOk ∧ (getWin (ctxEnd u n c q done) n).ctxNum = c ∧
    (getWin (ctxEnd u n c q done) n).ctxGen = (getCtx u c).gen ∧ (getWin (ctxEnd u n c q done) n).ctxDone = done := by
  simp [ctxEnd, ctxAnswered, recordStatus_window]

theorem ctxEnd_frame {K : Keep} (u : State) (n c : Nat) (q : Requester) (done : Bool) (hk : K.win = false) :
    obs K (ctxEnd u n c q done) = obs K u :=
  (recordStatus_window_frame _ n q qsOk hk).trans (updWin_frame u n _ hk)

theorem getCtx_ctxEnd (u : State) (n c : Nat) (q : Requester) (done : Bool) (d : Nat) :
    getCtx (ctxEnd u n c q done) d = getCtx u d := by
  rw [getCtx, obs_ctx (K := { Keep.none with ctx := true }) (ctxEnd_frame u n c q done rfl), getCtx]

/-! The effects (R28, R464). -/

theorem getCtx_createCtx (s : State) (n c : Nat) : (getCtx (createCtx s n c) c).st = .live ∧
    (getCtx (createCtx s n c) c).gen = (getCtx s c).gen ∧
    (getCtx (createCtx s n c) c).pasid = field (getWin s n).ctxArg 0 20 ∧
    (getCtx (createCtx s n c) c).pasidValid = wbit (getWin s n).ctxArg 20 ∧
    (getCtx (createCtx s n c) c).weight = (if (getClr s n).cfg.tunable.getLsbD 4 = true then field (getWin s n).ctxArg 32 16
      else (getClr s n).cfg.weightMin) := by
  have h : ∀ f g, getCtx (updAcct (updCtx s c f) c g) c = f (getCtx s c) := fun f g => (getCtx_updCtx s c c f).trans (if_pos rfl)
  rw [createCtx, h]
  exact ⟨rfl, rfl, rfl, rfl, rfl⟩

theorem getCtx_createCtx_other (s : State) (n : Nat) {c d : Nat} (hd : d ≠ c) : getCtx (createCtx s n c) d = getCtx s d := by
  have h : ∀ f g, getCtx (updAcct (updCtx s c f) c g) d = getCtx s d := fun f g => (getCtx_updCtx s c d f).trans (if_neg hd)
  rw [createCtx, h]

/-- A context that becomes Free keeps its generation (R28). -/
def freed (k : Ctx) : Ctx :=
  { k with st := .free, pasid := 0, pasidValid := false, weight := 0, weightNext := none, vtime := 0, tearing := false }

theorem getCtx_freeCtx (s : State) (c d : Nat) : getCtx (freeCtx s c) d = if d = c then freed (getCtx s c) else getCtx s d := by
  have h := getCtx_updCtx s c d freed
  unfold freeCtx
  dsimp only
  split
  · split <;> exact h
  · exact h

theorem getCtx_tearDown (s : State) (n c d : Nat) : getCtx (tearDown s n c) d = if d = c then { getCtx s c with
    st := .draining, gen := nextGen (getCtx s c).gen, tearing := true } else getCtx s d := by
  have h : ∀ u old, getCtx (tearTasks u n c old) d = getCtx u d := fun u old => by
    rw [getCtx, obs_ctx (K := { Keep.none with ctx := true }) (tearTasks_frame u n c old rfl rfl rfl rfl rfl rfl rfl rfl), getCtx]
  rw [tearDown, h, getCtx_updCtx, getCtx_leaveLive, getCtx_leaveLive]
  by_cases hd : d = c <;> simp [hd]

theorem tearDown_clr_frame {s : State} {c : Nat} (h : enteredNow s c (getCtx s c).gen = []) (n : Nat) :
    obs { Keep.none with clr := true } (tearDown s n c) = obs { Keep.none with clr := true } s := by
  rw [tearDown]
  exact (tearTasks_frame _ n c _ rfl rfl rfl rfl rfl rfl rfl rfl).trans ((updCtx_frame _ c _ rfl).trans
    (leaveLive_frame_of_none h .draining rfl rfl rfl rfl))

/-- Settles O22: creation, the two ways to leave Live, and the end of Draining. -/
theorem contextsAreCreatedAndLeave : Obligations.ContextsAreCreatedAndLeave := by
  refine ⟨fun s q n c w hq hb hst => ⟨fun hc hfree hpasid hweight => ?create, fun hany hc hown hlive =>
    ⟨fun hidle => ?destroy, fun htear => ?teardown⟩⟩, fun s c hst hout => ?drained⟩
  case create =>
    refine ⟨ctxEnd (createCtx s n c) n c q true,
      congrArg Host.Outcome.next (ctxCreate_accepted hq hb hst hc hfree hpasid hweight), ?_⟩
    obtain ⟨hcode, hres, hnum, hgen, hdone⟩ := getWin_ctxEnd (createCtx s n c) n c q true
    obtain ⟨h1, h2, h3, h4, h5⟩ := getCtx_createCtx s n c
    simp only [getCtx_ctxEnd]
    refine ⟨hcode, hres, hnum, hgen.trans h2, hdone, h1, h2, h3, h4, h5, fun d hd => getCtx_createCtx_other s n hd, ?_⟩
    exact eq_mergeKept (K := { Keep.all with ctx := false, win := false, sch := false })
      ((ctxEnd_frame _ n c q true rfl).trans (createCtx_frame s n c rfl rfl))
  case destroy =>
    have hexec := ctxLeave_accepted hq hb hst (.inl rfl) hany hc hown hlive (fun _ => hidle) (by simp)
    rw [if_pos rfl] at hexec
    have hctx : getCtx (freeCtx (leaveLive s c .free) c) c = freed { getCtx s c with st := .free, gen := nextGen (getCtx s c).gen } := by
      rw [getCtx_freeCtx, if_pos rfl, getCtx_leaveLive, if_pos rfl]
    refine ⟨ctxEnd (freeCtx (leaveLive s c .free) c) n c q true, congrArg Host.Outcome.next hexec, ?_⟩
    obtain ⟨hcode, hres, hnum, hgen, hdone⟩ := getWin_ctxEnd (freeCtx (leaveLive s c .free) c) n c q true
    simp only [getCtx_ctxEnd, hctx] at hgen ⊢
    refine ⟨hcode, hres, hnum, hgen, hdone, rfl, rfl, rfl, fun d hd => ?_, ?_, fun he => ⟨?_, ?_⟩⟩
    · rw [getCtx_freeCtx, if_neg hd, getCtx_leaveLive, if_neg hd]
    · exact obs_img (K := { Keep.none with img := true }) ((ctxEnd_frame _ n c q true rfl).trans (by simp [Keep.none]))
    · exact obs_clr (K := { Keep.none with clr := true }) ((ctxEnd_frame _ n c q true rfl).trans
        ((freeCtx_frame _ c rfl rfl).trans (leaveLive_frame_of_none he .free rfl rfl rfl rfl)))
    · exact obs_tasks (K := { Keep.none with tasks := true }) ((ctxEnd_frame _ n c q true rfl).trans
        ((freeCtx_frame _ c rfl rfl).trans (leaveLive_frame_of_none he .free rfl rfl rfl rfl)))
  case teardown =>
    have hexec := ctxLeave_accepted hq hb hst (.inr rfl) hany hc hown hlive (by simp) fun _ => htear
    rw [if_neg (by decide)] at hexec
    have hctx := getCtx_tearDown s n c c
    rw [if_pos rfl] at hctx
    refine ⟨ctxEnd (tearDown s n c) n c q false, congrArg Host.Outcome.next hexec, ?_⟩
    obtain ⟨hcode, hres, hnum, hgen, hdone⟩ := getWin_ctxEnd (tearDown s n c) n c q false
    simp only [getCtx_ctxEnd, hctx] at hgen ⊢
    refine ⟨hcode, hres, hnum, hgen, hdone, trivial, trivial, trivial, fun d hd => ?_, ?_, fun he m => ?_⟩
    · rw [getCtx_tearDown, if_neg hd]
      exact ⟨rfl, rfl⟩
    · exact obs_img (K := { Keep.none with img := true }) ((ctxEnd_frame _ n c q false rfl).trans (by simp [Keep.none]))
    · rw [getClr, obs_clr (K := { Keep.none with clr := true }) ((ctxEnd_frame _ n c q false rfl).trans
        (tearDown_clr_frame he n)), getClr]
  case drained =>
    have hexec : execContextDrained c s = .next (freeCtx s c) := by simp [execContextDrained, hst, hout]
    refine ⟨freeCtx s c, hexec, ?_, ?_, ?_, fun d hd => ?_, ?_⟩
    · rw [getCtx_freeCtx, if_pos rfl, freed]
    · rw [getCtx_freeCtx, if_pos rfl, freed]
    · rw [getCtx_freeCtx, if_pos rfl, freed]
    · rw [getCtx_freeCtx, if_neg hd]
    · exact eq_mergeKept (K := { Keep.all with ctx := false, win := false }) (freeCtx_frame s c rfl rfl)

end Sys2Proof.Machine
end

section
/-! PROOFS. Resets of functions, and the ends that they wait for. -/

namespace Sys2Proof.Machine

/-! The reset event (R32, R35). -/

theorem resetEvent_cases (s : State) (n cause : Nat) :
    (resetEvent s n cause = s ∧ ((getClr s n).st = .absent ∨ (getClr s n).st = .fenced ∨ (getClr s n).st = .resetting)) ∨
      (resetEvent s n cause = beginFence s n cause ∧ (getClr s n).st ≠ .absent ∧ (getClr s n).st ≠ .resetting) := by
  unfold resetEvent
  cases h : (getClr s n).st <;> simp

/-- A defined clearing is Fenced, or stays Resetting. -/
theorem getClr_resetEvent_st {s : State} {n : Nat} (h : (getClr s n).st ≠ .absent) (cause : Nat) :
    (getClr (resetEvent s n cause) n).st = if (getClr s n).st = .resetting then .resetting else .fenced := by
  rcases resetEvent_cases s n cause with ⟨e, hst⟩ | ⟨e, -, hst⟩
  · rcases hst with hst | hst | hst
    · exact absurd hst h
    · simp [e, hst]
    · simp [e, hst]
  · rw [e, getClr_beginFence_st, if_pos rfl, if_neg hst]

/-- Clearing `n` is on its way from Fenced to Closed. -/
def Resets (s : State) (n : Nat) : Prop := (getClr s n).st = .fenced ∨ (getClr s n).st = .resetting

theorem resetEvent_resets {s : State} {n : Nat} (h : (getClr s n).st ≠ .absent) (cause : Nat) :
    Resets (resetEvent s n cause) n := by
  rw [Resets, getClr_resetEvent_st h]
  split
  · exact .inr rfl
  · exact .inl rfl

theorem Settles.resets {s t : State} (h : Settles s t) {m : Nat} (hm : Resets s m) : Resets t m := by
  rcases h.st m with e | ⟨e, -⟩
  · rwa [Resets, e]
  · rcases hm with hm | hm <;> simp [hm] at e

theorem Settles.defined {s t : State} (h : Settles s t) {m : Nat} (hm : (getClr s m).st ≠ .absent) : (getClr t m).st ≠ .absent := by
  rcases h.st m with e | ⟨-, e⟩
  · rwa [e]
  · simp [e]

/-- The reset event of one clearing leaves another in its reset. -/
theorem resetEvent_keeps_resets (s : State) (n cause : Nat) {m : Nat} (hm : Resets s m) : Resets (resetEvent s n cause) m := by
  rcases resetEvent_cases s n cause with ⟨e, -⟩ | ⟨e, -, -⟩
  · rwa [e]
  · rw [e, Resets, getClr_beginFence_st]
    by_cases h : m = n
    · simp [h]
    · rw [if_neg h]
      exact (livesLeft_settles s n).resets hm

theorem resetEvent_keeps_defined (s : State) (n cause : Nat) {m : Nat} (hm : (getClr s m).st ≠ .absent) :
    (getClr (resetEvent s n cause) m).st ≠ .absent := by
  rcases resetEvent_cases s n cause with ⟨e, -⟩ | ⟨e, -, -⟩
  · rwa [e]
  · rw [e, getClr_beginFence_st]
    by_cases h : m = n
    · simp [h]
    · rw [if_neg h]
      exact (livesLeft_settles s n).defined hm

/-- The reset event of each of some clearings leaves every one of them that is defined in its reset. -/
theorem forEach_resetEvent_resets (cause m : Nat) : ∀ (ns : List Nat) (s : State),
    Resets s m ∨ m ∈ ns ∧ (getClr s m).st ≠ .absent → Resets (forEach ns s fun s n => resetEvent s n cause) m
  | [], s, h => h.resolve_right fun h => List.not_mem_nil h.1
  | n :: ns, s, h => by
    refine forEach_resetEvent_resets cause m ns (resetEvent s n cause) ?_
    rcases h with h | ⟨hmem, hd⟩
    · exact .inl (resetEvent_keeps_resets s n cause h)
    · rcases List.mem_cons.1 hmem with rfl | hmem
      · exact .inl (resetEvent_resets hd cause)
      · exact .inr ⟨hmem, resetEvent_keeps_defined s n cause hd⟩

/-! Where no request of a Live context has entered a store (R356). -/

theorem livesLeft_noneEntered {s : State} (h : NoneEntered s) (n : Nat) {t : State} (hctx : t.ctx = (livesLeft s n).ctx)
    (hcal : t.cal = s.cal) (hclk : t.clk = s.clk) : NoneEntered t := by
  intro c hlive
  have hc : getCtx t c = getCtx (livesLeft s n) c := by rw [getCtx, hctx, getCtx]
  have hsame : getCtx t c = getCtx s c := hc.trans (getCtx_forEach_leaveLive c (liveCtxs s n) s (hc ▸ hlive))
  rw [hsame] at hlive ⊢
  rw [enteredNow_congr hcal hclk]
  exact h c hlive

theorem fenceMarked_frame {K : Keep} (s : State) (n cause : Nat) (_ : K.clr = false := by assumption)
    (_ : K.err = false := by assumption) (_ : K.win = false := by assumption) (_ : K.glob = false := by assumption)
    (_ : K.cc = false := by assumption) (_ : K.out = false := by assumption) :
    obs K (fenceMarked s n cause) = obs K (livesLeft s n) := by
  rw [fenceMarked, setClrState_of_ne (by decide)]
  refine (clrEvent_frame _ n ..).trans ((updClr_frame _ n ..).trans ((updWin_frame _ n ..).trans ?_))
  exact (obs_set_err _ _ ..).trans (updClr_frame _ n ..)

theorem beginFence_noneEntered {s : State} (h : NoneEntered s) (n cause : Nat) : NoneEntered (beginFence s n cause) := by
  have hbegun : obs { Keep.none with ctx := true, cal := true, clk := true } (beginFence s n cause) =
      obs { Keep.none with ctx := true, cal := true, clk := true } (livesLeft s n) := by
    simp [Keep.none, beginFence_marked_frame, fenceMarked_frame]
  have hleft : obs { Keep.none with cal := true, clk := true } (livesLeft s n) =
      obs { Keep.none with cal := true, clk := true } s := livesLeft_frame h n rfl rfl rfl rfl
  exact livesLeft_noneEntered h n (obs_ctx hbegun) ((obs_cal hbegun).trans (obs_cal hleft)) ((obs_clk hbegun).trans (obs_clk hleft))

theorem resetEvent_noneEntered {s : State} (h : NoneEntered s) (n cause : Nat) : NoneEntered (resetEvent s n cause) := by
  rcases resetEvent_cases s n cause with ⟨e, -⟩ | ⟨e, -, -⟩
  · rwa [e]
  · exact e ▸ beginFence_noneEntered h n cause

theorem getClr_resetEvent_other {s : State} (h : NoneEntered s) {n m : Nat} (hm : m ≠ n) (cause : Nat) :
    (getClr (resetEvent s n cause) m).st = (getClr s m).st := by
  rcases resetEvent_cases s n cause with ⟨e, -⟩ | ⟨e, -, -⟩
  · rw [e]
  · rw [e, getClr_beginFence_other h hm]

theorem getClr_forEach_resetEvent (cause m : Nat) : ∀ (ns : List Nat) (s : State), NoneEntered s → m ∉ ns →
    (getClr (forEach ns s fun s n => resetEvent s n cause) m).st = (getClr s m).st
  | [], _, _, _ => rfl
  | n :: ns, s, h, hm => by
    obtain ⟨hn, hns⟩ := List.ne_and_not_mem_of_not_mem_cons hm
    exact (getClr_forEach_resetEvent cause m ns _ (resetEvent_noneEntered h n cause) hns).trans
      (getClr_resetEvent_other h hn cause)

theorem resetEvent_numVfs (s : State) (n cause : Nat) : (resetEvent s n cause).glob.numVfs = s.glob.numVfs := by
  rcases resetEvent_cases s n cause with ⟨e, -⟩ | ⟨e, -, -⟩
  · rw [e]
  · rw [e, beginFence_numVfs]

theorem resetEvent_img (s : State) (n cause : Nat) : (resetEvent s n cause).img = s.img :=
  obs_img (K := { Keep.none with img := true }) (by simp [Keep.none])

theorem functionGone_lifeView (s : State) (f : Nat) : lifeView (functionGone s f) = lifeView s :=
  lifeView_of_obs (functionGone_frame s f rfl rfl rfl rfl)

theorem forEach_lifeView {α : Type} {f : State → α → State} (h : ∀ s x, lifeView (f s x) = lifeView s) :
    ∀ (xs : List α) (s : State), lifeView (forEach xs s f) = lifeView s
  | [], _ => rfl
  | x :: xs, s => (forEach_lifeView h xs (f s x)).trans (h s x)

/-! FUNCTION_LEVEL_RESET of a virtual function (R98). -/

theorem exec_functionLevelReset {s : State} {f : Nat} (h1 : 1 ≤ f) (h64 : f ≤ 64) (hp : s.boot.phase ≠ .reset) :
    exec (.functionLevelReset f) s = .next (functionReset s f) := by
  simp [exec, execFunctionLevelReset, h1, h64, hp]

theorem functionReset_none {s : State} {f : Nat} (h : s.boot.phase = .stopped ∨ (getClr s (f - 1)).st = .absent ∨ s.glob.numVfs < f) :
    functionReset s f = emit s (.flrDone f) := by
  rcases h with h | h | h <;> simp [functionReset, inert, defined, h]

theorem functionReset_fences {s : State} {f : Nat} (hp : s.boot.phase ≠ .reset) (hs : s.boot.phase ≠ .stopped)
    (hd : (getClr s (f - 1)).st ≠ .absent) (hf : f ≤ s.glob.numVfs) :
    ∃ w, functionReset s f = flrRaise { functionGone (resetEvent s (f - 1) 2) f with
      err := { (functionGone (resetEvent s (f - 1) 2) f).err with flrWait := w } } := by
  simp only [functionReset]
  rw [if_neg (by simp [inert, defined, hp, hs, hd, hf])]
  exact ⟨_, rfl⟩

/-- What follows the reset event leaves the clearings, the image and NumVFs. -/
theorem functionReset_obs {s : State} {f : Nat} (hp : s.boot.phase ≠ .reset) (hs : s.boot.phase ≠ .stopped)
    (hd : (getClr s (f - 1)).st ≠ .absent) (hf : f ≤ s.glob.numVfs) :
    obs { Keep.none with clr := true, glob := true, img := true } (functionReset s f) =
      obs { Keep.none with clr := true, glob := true, img := true } (resetEvent s (f - 1) 2) := by
  obtain ⟨w, hw⟩ := functionReset_fences hp hs hd hf
  rw [hw]
  exact (flrRaise_frame _ rfl rfl).trans ((obs_set_err _ _ rfl).trans (functionGone_frame _ f rfl rfl rfl rfl))

/-! VF_ENABLE_CHANGE (R91, R92). -/

/-- The clearings whose serving function changes as NumVFs becomes `k`. -/
def moved (s : State) (k : Nat) : List Nat := (definedClearings s).filter fun n => servingFunc s n != (if n < k then n + 1 else 0)

theorem mem_definedClearings {s : State} {n : Nat} : n ∈ definedClearings s ↔ n < 64 ∧ (getClr s n).st ≠ .absent := by
  simp [definedClearings, allClearings, defined]

theorem vfEnable_eq (s : State) (k : Nat) : ∃ fs, vfEnable s k =
    { forEach fs (forEach (moved s k) s fun s n => resetEvent s n 2) functionGone with
      glob := { (forEach fs (forEach (moved s k) s fun s n => resetEvent s n 2) functionGone).glob with numVfs := k } } := ⟨_, rfl⟩

theorem getClr_vfEnable (s : State) (k m : Nat) :
    (getClr (vfEnable s k) m).st = (getClr (forEach (moved s k) s fun s n => resetEvent s n 2) m).st := by
  obtain ⟨fs, h⟩ := vfEnable_eq s k
  rw [h]
  exact congrArg (LifeView.st · m) (forEach_lifeView functionGone_lifeView fs _)

theorem servingFunc_vfEnable (s : State) (k n : Nat) : servingFunc (vfEnable s k) n = if n < k then n + 1 else 0 := rfl

end Sys2Proof.Machine
end

section
/-! PROOFS. Resets of the physical function and of the link, and resets that are slow. -/

namespace Sys2Proof.Machine

/-! What a reset of the physical function does in turn (R99). -/

/-- The staging area is emptied, or is to be once the image machinery is idle. -/
def stagingReset (s : State) : State :=
  if s.img.busy then updImg s fun i => { i with resetAfter := true } else if s.img.mixed then s else emptyStaging s

/-- Every defined clearing has received the reset event. -/
def clearingsReset (s : State) : State := forEach (definedClearings s) s fun s n => resetEvent s n 2

/-- The global fields are at their reset values, and what R380, R430 and R459 give up is given up. -/
def fieldsReset (s : State) (fs : List Nat) : State := globalFields (forEach fs (freeQuarantine s) functionGone)

/-- The manifests of retuned clearings are reissued and weights that await a boundary dropped. -/
def manifestsReset (s : State) (fs : List Nat) : State :=
  let t := issueRetuned s (fieldsReset s fs)
  forEach (definedClearings t) t dropWeights

/-- The functions wait for every clearing in reset. -/
def waitsSet (s : State) (fs : List Nat) : State :=
  { s with err := { s.err with
    flrWait := s.err.flrWait ++ fs.map (fun f => (f, none)), slowDue := maskOf 64 (allClearings.filter (inReset s)) } }

theorem physicalReset_eq (s : State) (fs : List Nat) :
    physicalReset s fs = flrRaise (waitsSet (manifestsReset (clearingsReset (stagingReset s)) fs) fs) := by
  unfold physicalReset waitsSet manifestsReset fieldsReset clearingsReset stagingReset
  dsimp only

/-- After the fields, only manifests, share weights and the waits of functions follow. -/
theorem physicalReset_frame_fields {K : Keep} (s : State) (fs : List Nat) (hclr : K.clr = false) (hctx : K.ctx = false)
    (herr : K.err = false) (hout : K.out = false) :
    obs K (physicalReset s fs) = obs K (fieldsReset (clearingsReset (stagingReset s)) fs) := by
  rw [physicalReset_eq]
  refine (flrRaise_frame _ herr hout).trans ((obs_set_err _ _ herr).trans ?_)
  exact (forEach_frame _ _ _ fun s n => dropWeights_frame s n hctx).trans (issueRetuned_frame _ _ hclr)

theorem issueManifest_lifeView (s : State) (n : Nat) : lifeView (issueManifest s n) = lifeView s := by
  unfold issueManifest beginIssue
  split
  · rfl
  · split <;> exact updClr_lifeView _ _ _ fun _ => rfl

theorem issueRetuned_lifeView (was s : State) : lifeView (issueRetuned was s) = lifeView s := by
  refine forEach_lifeView (fun s n => ?_) _ s
  dsimp only
  split
  · exact issueManifest_lifeView s n
  · rfl

theorem getClr_physicalReset (s : State) (fs : List Nat) (m : Nat) : (getClr (physicalReset s fs) m).st =
    (getClr (fieldsReset (clearingsReset (stagingReset s)) fs) m).st := by
  have h : obs { Keep.none with clr := true } (physicalReset s fs) = obs { Keep.none with clr := true }
      (issueRetuned (clearingsReset (stagingReset s)) (fieldsReset (clearingsReset (stagingReset s)) fs)) := by
    rw [physicalReset_eq]
    refine (flrRaise_frame _ rfl rfl).trans ((obs_set_err _ _ rfl).trans ?_)
    exact forEach_frame _ _ _ fun s n => dropWeights_frame s n rfl
  rw [getClr, obs_clr h, ← getClr, ← lifeView_st, issueRetuned_lifeView, lifeView_st]

/-! The fields (R311, R346, R381, R99). -/

/-- IMG, TBL_HOLD, SCH_PASSWD, XLT_PRITO and the stages at their reset values. -/
def plainFields (s : State) : State :=
  let s := updImg s fun i => { i with src := 0, len := 0 }
  let s := updTbl s fun u => { u with port := { u.port with words := tblPort0.words }, privQ := 0, hold := 100, holdWas := none }
  updXlt (updSch s fun u => { u with passwd := 10 }) fun x => { x with timeout := 10000, stage0 := 0, stage1 := 0 }

/-- The fields of lock-step at their reset values. -/
def lockstepFields (s : State) : State :=
  forEach (s.ls.map (·.1)) s fun s n => updLs s n fun l => { l with partner := 0, enable := false, timeout := 100 }

theorem globalFields_eq (s : State) : globalFields s = forEach (definedClearings (lockstepFields (plainFields s)))
    (lockstepFields (plainFields s)) fun s n => resetTun (reserveQuota s n) n := rfl

theorem globalFields_frame_plain {K : Keep} (s : State) (hclr : K.clr = false) (hque : K.que = false) (hls : K.ls = false) :
    obs K (globalFields s) = obs K (plainFields s) := by
  rw [globalFields_eq]
  refine (forEach_frame _ _ _ fun s n => ?_).trans (forEach_frame _ _ _ fun s n => updLs_frame s n _ hls)
  exact (resetTun_frame _ n hclr).trans (reserveQuota_frame s n hque)

theorem resetTun_lifeView (s : State) (n : Nat) : lifeView (resetTun s n) = lifeView s := by
  unfold resetTun
  exact updClr_lifeView _ _ _ fun _ => rfl

theorem globalFields_lifeView (s : State) : lifeView (globalFields s) = lifeView s := by
  rw [globalFields_eq]
  refine (forEach_lifeView (fun s n => ?_) _ _).trans (lifeView_of_obs ?_)
  · exact (resetTun_lifeView _ n).trans (lifeView_of_obs (reserveQuota_frame s n rfl))
  · exact (forEach_frame _ _ _ fun s n => updLs_frame s n _ rfl).trans (by simp [Keep.none, plainFields])

theorem fieldsReset_lifeView (s : State) (fs : List Nat) : lifeView (fieldsReset s fs) = lifeView s := by
  refine (globalFields_lifeView _).trans ((forEach_lifeView functionGone_lifeView fs _).trans ?_)
  exact lifeView_of_obs (by simp [Keep.none])

/-- What R99 names of the fields stands at its reset value. -/
theorem fieldsReset_fields (s : State) (fs : List Nat) : (fieldsReset s fs).xlt.timeout = 10000 ∧ (fieldsReset s fs).tbl.hold = 100 ∧
    (fieldsReset s fs).sch.passwd = 10 ∧ (fieldsReset s fs).img = { s.img with src := 0, len := 0 } := by
  have h : obs { Keep.none with xlt := true, tbl := true, sch := true, img := true } (fieldsReset s fs) =
      obs { Keep.none with xlt := true, tbl := true, sch := true, img := true }
        (plainFields (forEach fs (freeQuarantine s) functionGone)) := globalFields_frame_plain _ rfl rfl rfl
  have himg : (forEach fs (freeQuarantine s) functionGone).img = s.img :=
    obs_img (K := { Keep.none with img := true }) (by simp [Keep.none])
  rw [obs_xlt h, obs_tbl h, obs_sch h, obs_img h, ← himg]
  exact ⟨rfl, rfl, rfl, rfl⟩

theorem stagingReset_clr (s : State) : (stagingReset s).clr = s.clr := by
  unfold stagingReset
  split
  · rfl
  · split <;> rfl

theorem stagingReset_force (s : State) : (stagingReset s).img.force = s.img.force := by
  unfold stagingReset
  split
  · rfl
  · split <;> rfl

theorem stagingReset_staged {s : State} (hb : s.img.busy = false) (hm : s.img.mixed = false) : (stagingReset s).img.staged = none := by
  simp [stagingReset, hb, hm, emptyStaging, updImg]

theorem clearingsReset_img (s : State) : (clearingsReset s).img = s.img :=
  obs_img (K := { Keep.none with img := true }) (by simp [Keep.none, clearingsReset])

theorem clearingsReset_resets {s : State} {n : Nat} (hn : n < 64) (hd : (getClr s n).st ≠ .absent) : Resets (clearingsReset s) n :=
  forEach_resetEvent_resets 2 n _ s (.inr ⟨mem_definedClearings.2 ⟨hn, hd⟩, hd⟩)

/-- A reset of the physical function or of the link, on a running device (R99). -/
theorem physicalReset_facts (s : State) (fs : List Nat) : (physicalReset s fs).xlt.timeout = 10000 ∧ (physicalReset s fs).tbl.hold = 100 ∧
    (physicalReset s fs).sch.passwd = 10 ∧ (physicalReset s fs).img = { (stagingReset s).img with src := 0, len := 0 } ∧
    ∀ n, n < 64 → (getClr s n).st ≠ .absent → Resets (physicalReset s fs) n := by
  have h : obs { Keep.none with xlt := true, tbl := true, sch := true, img := true } (physicalReset s fs) =
      obs { Keep.none with xlt := true, tbl := true, sch := true, img := true } (fieldsReset (clearingsReset (stagingReset s)) fs) :=
    physicalReset_frame_fields s fs rfl rfl rfl rfl
  obtain ⟨hx, ht, hp, hi⟩ := fieldsReset_fields (clearingsReset (stagingReset s)) fs
  rw [clearingsReset_img] at hi
  rw [obs_xlt h, obs_tbl h, obs_sch h, obs_img h]
  refine ⟨hx, ht, hp, hi, fun n hn hd => ?_⟩
  rw [Resets, getClr_physicalReset, ← lifeView_st, fieldsReset_lifeView, lifeView_st]
  refine clearingsReset_resets hn ?_
  rwa [getClr, stagingReset_clr]

/-! RESET_SLOW (R472). -/

theorem forEach_emit_out {α : Type} (o : α → Output) : ∀ (xs : List α) (s : State),
    ∀ x, x ∈ s.out ∨ (∃ a ∈ xs, o a = x) → x ∈ (forEach xs s fun s a => emit s (o a)).out
  | [], _, x, h => h.resolve_right fun ⟨_, ha, _⟩ => List.not_mem_nil ha
  | a :: as, s, x, h => by
    refine forEach_emit_out o as (emit s (o a)) x ?_
    rcases h with h | ⟨b, hb, rfl⟩
    · exact .inl (List.mem_cons_of_mem _ h)
    · rcases List.mem_cons.1 hb with rfl | hb
      · exact .inl List.mem_cons_self
      · exact .inr ⟨b, hb, rfl⟩

/-- A function waits for clearing `n`, or for every clearing. -/
def waitsOn (n : Nat) (w : Nat × Option Nat) : Bool := w.2 == some n || w.2.isNone

/-- The record of RESET_SLOW. -/
def slowRec (s : State) (n : Nat) : ErrRec := { newRec s qsErrResetSlow 1 13 n (plotsToZero s n) 0 0 with clearing := some n }

/-- RESET_SLOW has written its record, and none waits for the clearing any more. -/
def slowMarked (s : State) (n : Nat) : State :=
  let s := raise s (slowRec s n)
  { s with err := { s.err with flrWait := s.err.flrWait.filter (fun w => !waitsOn n w), slowDue := setBit s.err.slowDue n false } }

theorem resetSlow_eq {s : State} {n : Nat} (h : Resets s n) (hw : s.err.slowDue.getLsbD n = true ∨ ∃ w ∈ s.err.flrWait, waitsOn n w = true) :
    resetSlow s n = forEach ((s.err.flrWait.filter (waitsOn n)).map (·.1)) (slowMarked s n) fun s f => emit s (.flrDone f) := by
  unfold resetSlow
  dsimp only
  rw [if_pos]
  · rfl
  · have hr : inReset s n = true := by rcases h with h | h <;> simp [inReset, h]
    have hany : (s.err.slowDue.getLsbD n || s.err.flrWait.any (waitsOn n)) = true := by
      rcases hw with h | ⟨w, hmem, hw⟩
      · simp [h]
      · simp [List.any_eq_true.2 ⟨w, hmem, hw⟩]
    exact Bool.and_eq_true_iff.2 ⟨hr, hany⟩

theorem raise_slowDue (s : State) (r : ErrRec) : (raise s r).err.slowDue = s.err.slowDue := by
  unfold raise holdRec
  split
  · split <;> rfl
  · split <;> rfl

theorem mem_insertRec (r : ErrRec) (es : List ErrRec) : r ∈ insertRec r es := by
  simp [insertRec]

/-- On a running device a record of a clearing stands at the global ring and at its own (R446). -/
theorem mem_arrivals_raise {s : State} (hrun : s.boot.phase = .running) {r : ErrRec} {n : Nat} (hr : r.clearing = some n) :
    r ∈ (getRing (raise s r) globalRing).arrivals ∧ r ∈ (getRing (raise s r) n).arrivals := by
  have h : raise s r = stageIn (stageIn s globalRing r) n r := by simp [raise, running, hrun, hr]
  rw [h]
  by_cases hn : n = globalRing
  · simp [stageIn, hn, mem_insertRec]
  · simp [stageIn, hn, Ne.symm hn, mem_insertRec]

/-- RESET_SLOW leaves the marks of `slowMarked` and adds to the output alone. -/
theorem resetSlow_facts {s : State} {n : Nat} (h : Resets s n)
    (hw : s.err.slowDue.getLsbD n = true ∨ ∃ w ∈ s.err.flrWait, waitsOn n w = true) :
    (resetSlow s n).err = (slowMarked s n).err ∧ (resetSlow s n).rings = (slowMarked s n).rings ∧
      (∀ w ∈ s.err.flrWait, waitsOn n w = true → Output.flrDone w.1 ∈ (resetSlow s n).out) := by
  have he := resetSlow_eq h hw
  have hobs : obs { Keep.none with err := true, rings := true } (resetSlow s n) =
      obs { Keep.none with err := true, rings := true } (slowMarked s n) := by
    rw [he]
    exact forEach_frame _ _ _ fun s f => emit_frame s _ rfl
  refine ⟨obs_err hobs, obs_rings hobs, fun w hmem hwait => ?_⟩
  rw [he]
  exact forEach_emit_out .flrDone _ _ _ (.inr ⟨w.1, List.mem_map.2 ⟨w, List.mem_filter.2 ⟨hmem, hwait⟩, rfl⟩, rfl⟩)

/-- No function waits for the clearing, or for every one, once the marks are set. -/
theorem slowMarked_flrWait (s : State) (n : Nat) {w : Nat × Option Nat} (hw : waitsOn n w = true) :
    w ∉ (slowMarked s n).err.flrWait := by
  intro h
  have := (List.mem_filter.1 h).2
  simp [hw] at this

theorem resetSlow_unchanged (s : State) (n : Nat) :
    resetSlow s n = { s with err := (resetSlow s n).err, rings := (resetSlow s n).rings, out := (resetSlow s n).out } :=
  eq_mergeKept (K := { Keep.all with err := false, rings := false, out := false }) (resetSlow_frame s n rfl rfl rfl)

/-- On a running device the resets of function 0 and of the link are R99's. -/
theorem exec_physicalReset {s : State} (hrun : s.boot.phase = .running) {c : Instr} (hc : c = .pfFunctionLevelReset ∨ c = .hotReset) :
    ∃ fs, exec c s = .next (physicalReset s fs) := by
  rcases hc with rfl | rfl
  · exact ⟨[0], by simp [exec, execPfFunctionLevelReset, linkReset, running, hrun]⟩
  · exact ⟨liveFuncs s, by simp [exec, execHotReset, linkReset, running, hrun]⟩

/-- Settles O25: each reset event begins a fence and keeps another clearing's state (`Resets`), and what follows keeps both. -/
theorem functionResets : Obligations.FunctionResets := by
  refine ⟨fun s f h1 h64 hp => ⟨fun h => ?_, fun hs hd hf => ?_⟩, fun s k hp hs => ?_, fun s c hrun hc => ?_, fun s hrun => ?_,
    fun s n f hst hmem => ?_, fun s n hrun hst hdue => ?_⟩
  · rw [exec_functionLevelReset h1 h64 hp, functionReset_none h]
    rfl
  · have hobs := functionReset_obs hp hs hd hf
    have hclr : ∀ m, getClr (functionReset s f) m = getClr (resetEvent s (f - 1) 2) m := fun m => by rw [getClr, obs_clr hobs, getClr]
    refine ⟨_, exec_functionLevelReset h1 h64 hp, ?_, fun hnone m hm => ?_, ?_, ?_⟩
    · rw [hclr, getClr_resetEvent_st hd]
    · rw [hclr, getClr_resetEvent_other (fun c _ => hnone c) hm]
    · rw [obs_img hobs, resetEvent_img]
    · rw [obs_glob hobs, resetEvent_numVfs]
  · have himg : (vfEnable s (min k 64)).img = s.img := obs_img (K := { Keep.none with img := true }) (by simp [Keep.none])
    have hmoved : ∀ n, n ∈ moved s (min k 64) ↔ (n < 64 ∧ (getClr s n).st ≠ .absent) ∧
        servingFunc s n ≠ servingFunc (vfEnable s (min k 64)) n := fun n => by
      rw [moved, List.mem_filter, mem_definedClearings, servingFunc_vfEnable, bne_iff_ne]
    refine ⟨vfEnable s (min k 64), ?_, rfl, himg, fun n hn hsv hd => ?_, fun hnone n hsv => ?_⟩
    · simp [exec, execVfEnableChange, inert, hp, hs]
    · rw [getClr_vfEnable]
      exact forEach_resetEvent_resets 2 n _ s (.inr ⟨(hmoved n).2 ⟨⟨hn, hd⟩, hsv⟩, hd⟩)
    · rw [getClr_vfEnable]
      exact getClr_forEach_resetEvent 2 n _ s (fun c _ => hnone c) fun h => ((hmoved n).1 h).2 hsv
  · obtain ⟨fs, h⟩ := exec_physicalReset hrun hc
    obtain ⟨hx, ht, hp, hi, hr⟩ := physicalReset_facts s fs
    refine ⟨_, h, hx, ht, hp, ?_, ?_, ?_, fun hb hm => ?_, hr⟩
    · rw [hi]
    · rw [hi]
    · rw [hi]
      exact stagingReset_force s
    · rw [hi]
      exact stagingReset_staged hb hm
  · have hsrc : ∀ c, c = .pfFunctionLevelReset ∨ c = .hotReset → ∃ t, exec c s = .next t ∧ t.img.src = 0 := fun c hc => by
      obtain ⟨fs, h⟩ := exec_physicalReset hrun hc
      obtain ⟨-, -, -, hi, -⟩ := physicalReset_facts s fs
      exact ⟨_, h, by rw [hi]⟩
    exact ⟨hsrc _ (.inl rfl), hsrc _ (.inr rfl)⟩
  · have hw : ∀ g, waitsOn n (g, some n) = true := fun g => by simp [waitsOn]
    obtain ⟨herr, -, hout⟩ := resetSlow_facts hst (.inr ⟨_, hmem, hw f⟩)
    exact ⟨resetSlow s n, rfl, hout _ hmem (hw f), fun g => herr ▸ slowMarked_flrWait s n (hw g), resetSlow_unchanged s n⟩
  · have hw : ∀ g, waitsOn n (g, none) = true := fun g => by simp [waitsOn]
    obtain ⟨herr, hrings, hout⟩ := resetSlow_facts hst (.inl hdue)
    have hring : ∀ i, getRing (resetSlow s n) i = getRing (raise s (slowRec s n)) i := fun i => by
      rw [getRing, hrings]
      rfl
    obtain ⟨hglobal, hown⟩ := mem_arrivals_raise hrun (r := slowRec s n) (n := n) rfl
    refine ⟨resetSlow s n, rfl, ?_, ⟨_, by rwa [hring], rfl, rfl⟩, ⟨_, by rwa [hring], rfl, rfl⟩, fun f hf => hout _ hf (hw f),
      fun f => herr ▸ slowMarked_flrWait s n (hw f), resetSlow_unchanged s n⟩
    rw [herr]
    exact congrArg (setBit · n false) (raise_slowDue s (slowRec s n))

end Sys2Proof.Machine
end

section
/-! PROOFS. What cuts tasks: an abort, and a deadline. -/

namespace Sys2Proof.Machine

/-- An act that, whatever came before it, brings a property about, and others that keep it: the property holds at the end. -/
theorem forEach_attains {α : Type} {f : State → α → State} {P R : State → Prop} (hR : ∀ s, R s → P s)
    (hf : ∀ s x, P s → P (f s x)) (hkeep : ∀ s x, R s → R (f s x)) {x : α} (hx : ∀ s, P s → R (f s x)) :
    ∀ (xs : List α) (s : State), P s → R s ∨ x ∈ xs → R (forEach xs s f)
  | [], _, _, h => h.resolve_right List.not_mem_nil
  | y :: ys, s, hs, h => by
    refine forEach_attains hR hf hkeep hx ys (f s y) (hf s y hs) ?_
    rcases h with h | h
    · exact .inl (hkeep s y h)
    · rcases List.mem_cons.1 h with rfl | h
      · exact .inl (hx s hs)
      · exact .inr h

theorem tabGet_mem {α : Type} {t : Tab (Option α)} {i : Nat} {v : α} (h : tabGet none t i = some v) : (i, some v) ∈ t := by
  induction t with
  | nil => exact absurd h (by simp [tabGet])
  | cons kv r ih =>
    obtain ⟨k, w⟩ := kv
    rw [tabGet] at h
    split at h
    next hk => exact hk ▸ h ▸ List.mem_cons_self
    next => exact List.mem_cons_of_mem _ (ih h)

theorem mem_tasksOf {s : State} {i : Nat} {k : Task} (h : getTask s i = some k) (hf : k.fenced = false) : (i, k) ∈ tasksOf s k.n := by
  have hmem : (i, k) ∈ taskList s := List.mem_filterMap.2 ⟨_, tabGet_mem h, rfl⟩
  exact List.mem_filter.2 ⟨hmem, by simp [hf]⟩

/-! What a cut changes of a task, and what stands beside it: the counts of tasks expired and the states of clearings. -/

structure TaskCut where
  n : Nat
  fenced : Bool
  cut : Option Code
  expired : Bool

def Task.cutOf (k : Task) : TaskCut := ⟨k.n, k.fenced, k.cut, k.expired⟩

/-- A cut keeps the code of an earlier one. -/
def TaskCut.cutBy (code : Code) (expired : Bool) (v : TaskCut) : TaskCut :=
  { v with cut := some (v.cut.getD code), expired := v.expired || expired }

theorem TaskCut.cutBy_cutBy (code : Code) (v : TaskCut) : (v.cutBy code false).cutBy code false = v.cutBy code false := by
  simp [TaskCut.cutBy]

structure CutView where
  task : Nat → Option TaskCut
  expired : Nat → Nat
  st : Nat → ClrState

def cutView (s : State) : CutView :=
  ⟨fun i => (getTask s i).map Task.cutOf, fun n => (getQwin s n).expired, fun n => (getClr s n).st⟩

theorem cutView_task (s : State) (i : Nat) : (cutView s).task i = (getTask s i).map Task.cutOf := rfl
theorem cutView_expired (s : State) (n : Nat) : (cutView s).expired n = (getQwin s n).expired := rfl
theorem cutView_st (s : State) (n : Nat) : (cutView s).st n = (getClr s n).st := rfl

theorem cutView_of_obs {s t : State} (h : obs { Keep.none with clr := true, tasks := true, qwin := true } t =
    obs { Keep.none with clr := true, tasks := true, qwin := true } s) : cutView t = cutView s := by
  simp only [cutView, getClr, getTask, getQwin, obs_clr h, obs_tasks h, obs_qwin h]

theorem updTask_cutView (s : State) (t : Nat) (f : Task → Task) (h : ∀ k, (f k).cutOf = k.cutOf) :
    cutView (updTask s t f) = cutView s := by
  have htask : (fun i => (getTask (updTask s t f) i).map Task.cutOf) = fun i => (getTask s i).map Task.cutOf := by
    funext i
    by_cases hi : i = t
    · subst hi
      cases hk : getTask s i <;> simp [hk, h]
    · simp [hi]
  exact congrArg (CutView.mk · (cutView s).expired (cutView s).st) htask

theorem updEnv_cutView (s : State) (t e : Nat) (f : EnvRun → EnvRun) : cutView (updEnv s t e f) = cutView s :=
  updTask_cutView s t _ fun _ => rfl

theorem updQwin_cutView (s : State) (n : Nat) (f : QueWin → QueWin) (h : ∀ w, (f w).expired = w.expired) :
    cutView (updQwin s n f) = cutView s := by
  have hexp : (fun i => (getQwin (updQwin s n f) i).expired) = fun i => (getQwin s i).expired := by
    funext i
    by_cases hi : i = n <;> simp [hi, h]
  exact congrArg (CutView.mk (cutView s).task · (cutView s).st) hexp

theorem updQueue_cutView (s : State) (q : Nat) (f : Queue → Queue) : cutView (updQueue s q f) = cutView s :=
  cutView_of_obs (updQueue_frame s q f rfl)

theorem forEach_cutView {α : Type} {f : State → α → State} (h : ∀ s x, cutView (f s x) = cutView s) :
    ∀ (xs : List α) (s : State), cutView (forEach xs s f) = cutView s
  | [], _ => rfl
  | x :: xs, s => (forEach_cutView h xs (f s x)).trans (h s x)

theorem countLost_cutView (s : State) (q k : Nat) : cutView (countLost s q k) = cutView s := by
  unfold countLost
  split
  · exact updQwin_cutView _ _ _ fun _ => rfl
  · rfl

theorem envWritten_cutView (s : State) (i : CplItem) : cutView (envWritten s i) = cutView s := by
  unfold envWritten
  split
  · rfl
  · exact updEnv_cutView _ _ _ _

theorem addItem_cutView (s : State) (q : Nat) (i : CplItem) : cutView (addItem s q i) = cutView s := by
  unfold addItem
  split
  · exact (envWritten_cutView _ _).trans ((countLost_cutView _ _ _).trans (updQueue_cutView _ _ _))
  · exact updQueue_cutView _ _ _

theorem completeEnv_cutView (s : State) (t e : Nat) (code : Code) (dead expired : Bool) :
    cutView (completeEnv s t e code dead expired) = cutView s := by
  unfold completeEnv
  split
  · rfl
  · split
    · rfl
    · split
      · rfl
      · dsimp only
        split
        · exact updTask_cutView _ _ _ fun _ => rfl
        · split
          · exact updTask_cutView _ _ _ fun _ => rfl
          · split
            · exact (updTask_cutView _ _ _ (by exact fun _ => rfl)).trans (updTask_cutView _ _ _ (by exact fun _ => rfl))
            · exact (addItem_cutView _ _ _).trans (updTask_cutView _ _ _ fun _ => rfl)

theorem stopEnv_cutView (s : State) (t e : Nat) (code : Code) (expired : Bool) : cutView (stopEnv s t e code expired) = cutView s := by
  unfold stopEnv
  exact (cutView_of_obs (dropUnissued_frame _ _ _ rfl)).trans (updEnv_cutView _ _ _ _)

theorem jobReport_cutView (s : State) (t e : Nat) (code : Code) (expired : Bool) :
    cutView (jobReport s t e code expired) = cutView s := by
  have hopen : ∀ b : Bool, cutView (if b then completeEnv s t e code false expired else s) = cutView s := fun b => by
    cases b
    · rfl
    · exact completeEnv_cutView _ _ _ _ _ _
  have hstatus : ∀ u, cutView (updTask u t fun k => { k with status := if k.status = qsOk then code else k.status }) = cutView u :=
    fun u => updTask_cutView _ _ _ fun _ => rfl
  unfold jobReport
  split
  · rfl
  · dsimp only
    rw [apply_ite cutView, hstatus, ite_self]
    refine (forEach_cutView (fun s w => ?_) _ _).trans (hopen _)
    split
    · rw [apply_ite cutView, completeEnv_cutView, ite_self]
    · rfl

theorem jobEnd_cutView (s : State) (j : Nat) : cutView (jobEnd s j) = cutView s := by
  unfold jobEnd
  split
  · rfl
  · refine (jobReport_cutView _ _ _ _ _).trans (cutView_of_obs ?_)
    simp [Keep.none, obs_ite]

theorem jobStop_cutView (s : State) (j : Nat) (code : Code) (expired : Bool) (core : Nat) (keep : Option Nat) :
    cutView (jobStop s j code expired core keep) = cutView s := by
  have hmark : cutView (updJob s j fun x => { x with code := code, expired := expired, core := core }) = cutView s :=
    cutView_of_obs (by simp [Keep.none])
  unfold jobStop
  split
  · rfl
  · dsimp only
    split
    · exact (jobEnd_cutView _ _).trans hmark
    · exact (jobEnd_cutView _ _).trans hmark
    · exact (jobEnd_cutView _ _).trans hmark
    · exact cutView_of_obs (by simp [Keep.none, obs_ite])
    · exact cutView_of_obs (by simp [Keep.none, obs_ite])
    · rfl

theorem cutEnv_cutView (code : Code) (expired : Bool) (t : Nat) (s : State) (e : Nat) :
    cutView (cutEnv code expired t s e) = cutView s := by
  unfold cutEnv
  split
  · rfl
  · dsimp only
    split
    · exact completeEnv_cutView _ _ _ _ _ _
    · exact stopEnv_cutView _ _ _ _ _
    · split
      · rfl
      · exact stopEnv_cutView _ _ _ _ _
    · rfl
    · rfl

theorem cutJobs_cutView (code : Code) (expired : Bool) (t : Nat) (s : State) : cutView (cutJobs code expired t s) = cutView s := by
  have hstop : ∀ (js : List Nat) u, cutView (forEach js u fun s j => jobStop s j code expired 0 none) = cutView u :=
    forEach_cutView fun s j => jobStop_cutView s j code expired 0 none
  unfold cutJobs
  dsimp only
  split
  · exact hstop _ _
  · refine (forEach_cutView (fun s e => ?_) _ _).trans (hstop _ _)
    split
    · rw [apply_ite cutView, completeEnv_cutView, ite_self]
    · rfl

/-- A cut marks its task and no other; what it ends stays the tasks' own. -/
theorem cutTask_cutView (s : State) (t : Nat) (code : Code) (expired : Bool) : cutView (cutTask s t code expired) =
    { cutView s with task := fun i => if i = t then ((cutView s).task t).map (TaskCut.cutBy code expired) else (cutView s).task i } := by
  unfold cutTask
  split
  next hk =>
    refine congrArg (CutView.mk · (cutView s).expired (cutView s).st) (funext fun i => ?_)
    by_cases hi : i = t <;> simp [hi, hk, cutView_task]
  next k hk =>
    refine (cutJobs_cutView _ _ _ _).trans ((forEach_cutView (cutEnv_cutView _ _ _) _ _).trans ?_)
    refine congrArg (CutView.mk · (cutView s).expired (cutView s).st) (funext fun i => ?_)
    by_cases hi : i = t
    · simp [hi, hk, cutView_task, Task.cutOf, TaskCut.cutBy]
    · simp [hi, cutView_task]

theorem measureTask_cutView (s : State) (k : Task) (us : Nat) : cutView (measureTask s k us) = cutView s := by
  have h : obs { Keep.none with tasks := true, qwin := true } (measureTask s k us) =
      obs { Keep.none with tasks := true, qwin := true } s := measureTask_frame s k us rfl
  simp only [cutView, getTask, getQwin, obs_tasks h, obs_qwin h, ← lifeView_st, measureTask_lifeView]

theorem endMeasure_cutView (s : State) (t us : Nat) : cutView (endMeasure s t us) = cutView s := by
  unfold endMeasure
  split
  · rfl
  · split
    · rfl
    · exact (measureTask_cutView _ _ _).trans (updTask_cutView _ _ _ fun _ => rfl)

theorem expireItems_cutView (s : State) (t : Nat) : cutView (expireItems s t) = cutView s := by
  unfold expireItems
  dsimp only
  split
  · exact updTask_cutView _ _ _ fun _ => rfl
  · exact (updQueue_cutView _ _ _).trans ((updTask_cutView _ _ _ (by exact fun _ => rfl)).trans
      (updTask_cutView _ _ _ (by exact fun _ => rfl)))

/-! Aborts (R477, R478). -/

/-- From `s` to `t` an abort has cut some tasks and changed no clearing's state. -/
structure Aborts (s t : State) : Prop where
  task : ∀ i, (cutView t).task i = (cutView s).task i ∨
    (cutView t).task i = ((cutView s).task i).map (TaskCut.cutBy qsErrAborted false)
  st : ∀ n, (getClr t n).st = (getClr s n).st

/-- Between them it has cut task `i`. -/
def Aborted (s : State) (i : Nat) (t : State) : Prop :=
  Aborts s t ∧ (cutView t).task i = ((cutView s).task i).map (TaskCut.cutBy qsErrAborted false)

theorem cutBy_twice (v : Option TaskCut) : (v.map (TaskCut.cutBy qsErrAborted false)).map (TaskCut.cutBy qsErrAborted false) =
    v.map (TaskCut.cutBy qsErrAborted false) := by
  cases v <;> simp [TaskCut.cutBy_cutBy]

theorem Aborts.of_view {s t : State} (h : cutView t = cutView s) : Aborts s t :=
  ⟨fun i => .inl (by rw [h]), fun n => congrArg (CutView.st · n) h⟩

theorem Aborts.trans {s t u : State} (h1 : Aborts s t) (h2 : Aborts t u) : Aborts s u := by
  refine ⟨fun i => ?_, fun n => (h2.st n).trans (h1.st n)⟩
  rcases h2.task i with h | h <;> rcases h1.task i with h' | h' <;> rw [h, h']
  · exact .inl rfl
  · exact .inr rfl
  · exact .inr rfl
  · exact .inr (cutBy_twice _)

/-- A task stays cut. -/
theorem Aborted.trans {s t u : State} {i : Nat} (h1 : Aborted s i t) (h2 : Aborts t u) : Aborted s i u := by
  refine ⟨h1.1.trans h2, ?_⟩
  rcases h2.task i with h | h
  · rw [h, h1.2]
  · rw [h, h1.2, cutBy_twice]

/-- The cut completes what an earlier abort has left. -/
theorem Aborted.of_aborts {s t u : State} {i : Nat} (h1 : Aborts s t) (h2 : Aborted t i u) : Aborted s i u := by
  refine ⟨h1.trans h2.1, ?_⟩
  rcases h1.task i with h | h
  · rw [h2.2, h]
  · rw [h2.2, h, cutBy_twice]

/-- The abort's answer to one task. -/
def abortTask (s : State) (t : Nat) : State :=
  match getTask s t with
  | some k => cutTask (if taskOver s t k then s else endMeasure s t (taskAge s k)) t qsErrAborted false
  | none => s

theorem abortTask_aborted (s : State) (i : Nat) : Aborted s i (abortTask s i) := by
  unfold abortTask
  split
  next k hk =>
    have hview := cutTask_cutView (if taskOver s i k then s else endMeasure s i (taskAge s k)) i qsErrAborted false
    rw [apply_ite cutView, endMeasure_cutView, ite_self] at hview
    have htask : ∀ j, (cutView (cutTask (if taskOver s i k then s else endMeasure s i (taskAge s k)) i qsErrAborted false)).task j =
        if j = i then ((cutView s).task i).map (TaskCut.cutBy qsErrAborted false) else (cutView s).task j := fun j => by rw [hview]
    refine ⟨⟨fun j => ?_, fun n => ?_⟩, ?_⟩
    · by_cases hj : j = i
      · exact .inr (by rw [htask, if_pos hj, hj])
      · exact .inl (by rw [htask, if_neg hj])
    · rw [← cutView_st, hview, cutView_st]
    · rw [htask, if_pos rfl]
  next hk => exact ⟨.of_view rfl, by simp [cutView_task, hk]⟩

theorem abortTask_aborts (s : State) (i : Nat) : Aborts s (abortTask s i) := (abortTask_aborted s i).1

theorem raise_cutView (s : State) (r : ErrRec) : cutView (raise s r) = cutView s := cutView_of_obs (raise_frame s r rfl rfl)

theorem abortClearing_eq {s : State} {n : Nat} (hf : (getClr s n).st ≠ .fenced) (hr : (getClr s n).st ≠ .resetting) (g src : Nat) :
    ∃ r, abortClearing g src s n = raise (forEach ((tasksOf s n).map (·.1)) s abortTask) r := by
  rw [abortClearing, if_neg (by simp [hf, hr])]
  exact ⟨_, rfl⟩

theorem forEach_aborts {α : Type} {f : State → α → State} (h : ∀ s x, Aborts s (f s x)) :
    ∀ (xs : List α) (s : State), Aborts s (forEach xs s f)
  | [], _ => .of_view rfl
  | x :: xs, s => (h s x).trans (forEach_aborts h xs (f s x))

theorem abortClearing_aborts (g src : Nat) (s : State) (n : Nat) : Aborts s (abortClearing g src s n) := by
  by_cases h : (getClr s n).st = .fenced ∨ (getClr s n).st = .resetting
  · rw [abortClearing, if_pos (by simpa using h)]
    exact .of_view rfl
  · obtain ⟨hf, hr⟩ := not_or.1 h
    obtain ⟨r, hr⟩ := abortClearing_eq hf hr g src
    rw [hr]
    exact (forEach_aborts abortTask_aborts _ s).trans (.of_view (raise_cutView _ r))

theorem abortClearing_aborted {g src n i : Nat} {s : State} (hf : (getClr s n).st ≠ .fenced) (hr : (getClr s n).st ≠ .resetting)
    (hi : i ∈ (tasksOf s n).map (·.1)) : Aborted s i (abortClearing g src s n) := by
  obtain ⟨r, hr⟩ := abortClearing_eq hf hr g src
  rw [hr]
  refine Aborted.trans ?_ (.of_view (raise_cutView _ r))
  exact forEach_attains (P := Aborts s) (R := Aborted s i) (fun _ h => h.1) (fun t x h => h.trans (abortTask_aborts t x))
    (fun t x h => h.trans (abortTask_aborts t x)) (fun t h => .of_aborts h (abortTask_aborted t i)) _ s (.of_view rfl) (.inr hi)

/-- A task of a state that an abort is changing has its clearing and is fenced as before. -/
theorem Aborts.mem_tasksOf {s t : State} (h : Aborts s t) {i : Nat} {k : Task} (hk : getTask s i = some k) (hf : k.fenced = false) :
    i ∈ (tasksOf t k.n).map (·.1) := by
  have hs : (cutView s).task i = some k.cutOf := by rw [cutView_task, hk]; rfl
  have hv : ∃ v, (cutView t).task i = some v ∧ v.n = k.n ∧ v.fenced = false := by
    rcases h.task i with e | e
    · exact ⟨_, e.trans hs, rfl, hf⟩
    · exact ⟨_, by rw [e, hs]; rfl, rfl, hf⟩
  obtain ⟨v, hv, hn, hfen⟩ := hv
  obtain ⟨k', hk', rfl⟩ := Option.map_eq_some_iff.1 hv
  have hn' : k'.n = k.n := hn
  exact List.mem_map.2 ⟨(i, k'), hn' ▸ Machine.mem_tasksOf hk' hfen, rfl⟩

theorem localAbort_aborts (s : State) (g src : Nat) : Aborts s (localAbort s g src) :=
  forEach_aborts (abortClearing_aborts g src) _ s

theorem localAbort_aborted {s : State} {g n i : Nat} {k : Task} (src : Nat) (hn : n < 64) (hg : inGroup s g n = true)
    (hf : (getClr s n).st ≠ .fenced) (hr : (getClr s n).st ≠ .resetting) (hk : getTask s i = some k) (hkn : k.n = n)
    (hkf : k.fenced = false) : Aborted s i (localAbort s g src) := by
  have hmem : n ∈ groupClearings s g := List.mem_filter.2 ⟨List.mem_range.2 hn, hg⟩
  refine forEach_attains (P := Aborts s) (R := Aborted s i) (fun _ h => h.1) (fun t x h => h.trans (abortClearing_aborts g src t x))
    (fun t x h => h.trans (abortClearing_aborts g src t x)) (fun t h => ?_) _ s (.of_view rfl) (.inr hmem)
  refine .of_aborts h (abortClearing_aborted (by rwa [h.st]) (by rwa [h.st]) ?_)
  exact hkn ▸ h.mem_tasksOf hk hkf

/-! The acts before an abort's effect here: its frame leaves, or its sender is marked (R477, R512). -/

/-- The fields that an abort leaves. -/
def Keep.ofAbort : Keep := { Keep.none with
  clk := true, boot := true, img := true, ctx := true, cal := true, que := true, xlt := true, mbx := true, key := true, bar := true }

/-- `u` is `s` but for what an abort's own frame and record change. -/
structure AbortNoted (s u : State) : Prop where
  view : cutView u = cutView s
  group : u.err.group = s.err.group
  kept : obs Keep.ofAbort u = obs Keep.ofAbort s

theorem raise_group (s : State) (r : ErrRec) : (raise s r).err.group = s.err.group := by
  unfold raise holdRec
  split
  · split <;> rfl
  · split <;> rfl

theorem AbortNoted.raise {s u : State} (h : AbortNoted s u) (r : ErrRec) : AbortNoted s (raise u r) :=
  ⟨(raise_cutView u r).trans h.view, (raise_group u r).trans h.group, (raise_frame u r rfl rfl).trans h.kept⟩

theorem abortNoted_emit (s : State) (o : Output) : AbortNoted s (emit s o) := ⟨rfl, rfl, rfl⟩

theorem abortNoted_updTrl (s : State) (f : Trail → Trail) : AbortNoted s (updTrl s f) := ⟨rfl, rfl, rfl⟩

theorem abortNoted_sendAbort (s : State) (n g : Nat) (ended : Option Nat) : AbortNoted s (sendAbort s n g ended) := by
  unfold sendAbort
  dsimp only
  split
  · exact ⟨rfl, rfl, rfl⟩
  · split
    · split
      · exact (abortNoted_emit _ _).raise _
      · exact abortNoted_emit _ _
    · exact (abortNoted_updTrl _ _).raise _

theorem abortNoted_abortGroup (s : State) (g : Nat) : AbortNoted s (abortGroup s g) := by
  unfold abortGroup
  split
  · exact abortNoted_sendAbort s _ g none
  · split
    · exact ⟨rfl, rfl, rfl⟩
    · split
      · exact (abortNoted_emit _ _).raise _
      · exact (abortNoted_updTrl _ _).raise _

theorem AbortNoted.inGroup {s u : State} (h : AbortNoted s u) (g n : Nat) : inGroup u g n = inGroup s g n := by
  have hst : (getClr u n).st = (getClr s n).st := congrArg (CutView.st · n) h.view
  simp only [Machine.inGroup, defined, h.group, hst]

/-- Every task that an abort of group `g` reaches in `s` is cut in `t`. -/
def TasksAborted (s : State) (g : Nat) (t : State) : Prop :=
  ∀ n i k, n < 64 → inGroup s g n = true → (getClr s n).st ≠ .fenced → (getClr s n).st ≠ .resetting →
    getTask s i = some k → k.n = n → k.fenced = false → (getTask t i).bind (·.cut) = some (k.cut.getD qsErrAborted)

/-- What an abort of group `g` has done at its end, also where a status is recorded after it. -/
theorem AbortNoted.done {s u t : State} {g src : Nat} (h : AbortNoted s u)
    (hview : cutView t = cutView (localAbort u g src)) (hkept : obs Keep.ofAbort t = obs Keep.ofAbort (localAbort u g src)) :
    TasksAborted s g t ∧ (∀ n, (getClr t n).st = (getClr s n).st) ∧ obs Keep.ofAbort t = obs Keep.ofAbort s := by
  have hst : ∀ n, (getClr u n).st = (getClr s n).st := fun n => congrArg (CutView.st · n) h.view
  refine ⟨fun n i k hn hg hf hr hk hkn hkf => ?_, fun n => ?_,
    hkept.trans ((localAbort_frame u g src rfl rfl rfl rfl rfl rfl rfl rfl rfl).trans h.kept)⟩
  · have hu : (cutView u).task i = some k.cutOf := by rw [h.view, cutView_task, hk]; rfl
    obtain ⟨k', hk', hcut⟩ := Option.map_eq_some_iff.1 ((cutView_task u i).symm.trans hu)
    have hn' : k'.n = n := (congrArg TaskCut.n hcut).trans hkn
    have hf' : k'.fenced = false := (congrArg TaskCut.fenced hcut).trans hkf
    have hdone := (localAbort_aborted src hn ((h.inGroup g n).trans hg) (by rwa [hst]) (by rwa [hst]) hk' hn' hf').2
    rw [← hview, hu, cutView_task] at hdone
    obtain ⟨k2, hk2, hcut2⟩ := Option.map_eq_some_iff.1 hdone
    rw [hk2]
    exact congrArg TaskCut.cut hcut2
  · rw [← cutView_st, hview, cutView_st, (localAbort_aborts u g src).st, hst]

/-! The three commands. -/

/-- ERR_RESULT says that the abort is done. -/
def abortDone (u : State) : State := { u with err := { u.err with resDone := true, resCode := qsOk } }

theorem errEffect_abort (s : State) (unit g : Nat) :
    errEffect s 6 unit g = errDone true (localAbort (abortGroup s g) g s.boot.chip) := rfl

theorem errAbort_ready {s : State} {q : Requester} {w : Word} (hq : reachesGlobal s q)
    (hb : noBits w (bitsFrom 4 7 ||| bitsFrom 15 31 ||| bitsFrom 48 63) = true) (hu : field w 8 7 = 0) :
    exec (.errAbort q w) s =
      .next (recordStatus (abortDone (localAbort (abortGroup s (field w 32 16)) (field w 32 16) s.boot.chip)) none q qsOk) := by
  have hop : field (putField w 0 4 6) 0 4 = 6 := by
    rw [field_putField w 6 (by decide) (by decide)]
    rfl
  have hunit : field (putField w 0 4 6) 8 7 = 0 := (field_putField_other w 6 8 7 (by decide) (by decide) (by decide)).trans hu
  have hgroup : field (putField w 0 4 6) 32 16 = field w 32 16 := field_putField_other w 6 32 16 (by decide) (by decide) (by decide)
  have hbits : noBits (putField w 0 4 6) (bitsFrom 4 7 ||| bitsFrom 15 31 ||| bitsFrom 48 63) = true := by
    refine noBits_putField 6 (by decide) (by decide) hb fun i _ hi => ?_
    have : i < 4 := hi
    interval_cases i <;> decide
  rw [exec, execErrAbort, errCommand, globalCmd_run hq]
  simp only [hop, hunit, hgroup]
  rw [checked_ok (by simp [firstBad_cons, firstBad_nil, hbits]), errEffect_abort]
  generalize localAbort (abortGroup s (field w 32 16)) (field w 32 16) s.boot.chip = u
  simp [errDone, abortDone]

theorem errWabort_ready {s : State} {q : Requester} {n g : Nat} {w : Word} (hq : reachesOwn s q n)
    (hb : noBits w (bitsFrom 1 63) = true) (hw : wbit w 0 = true) (hg : inGroup s g n = true) :
    exec (.errWabort q n w) s = .next (recordStatus (localAbort (sendAbort s n g none) g s.boot.chip) (some n) q qsOk) := by
  simp only [inGroup, Bool.and_eq_true, beq_iff_eq] at hg
  obtain ⟨⟨hd, hbound⟩, hgroup⟩ := hg
  rw [exec, execErrWabort, wabortWrite, windowCmd_run hq]
  simp only [hgroup]
  rw [checked_ok (by simp only [firstBad_cons, firstBad_nil, hb, hw, hd, hbound, if_true])]

theorem abortReceived_ready {s : State} {h : FrameHead} {g p : Nat} (hs : s.boot.solitary = false) (hup : s.trl.up = true)
    (hsrc : h.src ≠ s.boot.chip) (hme : forMe s h.dst.toNat = true) (hp : p < 2 ^ 64) (hr : s.boot.phase ≠ .reset)
    (hst : s.boot.phase ≠ .stopped) : exec (.abortReceived h g p) s = .next (localAbort (markPeer s h.src) g h.src) := by
  rw [exec, execAbortReceived, heard, if_neg (by simp [inert, hr, hst]), frameIn, if_neg (by simp [hs, hup]), if_neg hsrc,
    if_neg (by simp [hme]), if_pos hp]

/-- What each abort of group `g` comes to. -/
theorem AbortNoted.end_of_obs {s u t : State} {g src : Nat} (h : AbortNoted s u)
    (ht : ∀ K : Keep, K.glob = false → K.win = false → K.err = false → obs K t = obs K (localAbort u g src)) :
    TasksAborted s g t ∧ (∀ n, (getClr t n).st = (getClr s n).st) ∧ t.clk = s.clk ∧ t.boot = s.boot ∧ t.img = s.img ∧ t.ctx = s.ctx ∧ t.cal = s.cal ∧
      t.que = s.que ∧ t.xlt = s.xlt ∧ t.mbx = s.mbx ∧ t.key = s.key ∧ t.bar = s.bar := by
  obtain ⟨hcut, hst, hk⟩ := h.done (cutView_of_obs (ht _ rfl rfl rfl)) (ht _ rfl rfl rfl)
  exact ⟨hcut, hst, obs_clk hk, obs_boot hk, obs_img hk, obs_ctx hk, obs_cal hk, obs_que hk, obs_xlt hk, obs_mbx hk, obs_key hk,
    obs_bar hk⟩

/-! TASK_DEADLINE (R237, R238). -/

theorem taskDeadline_eq {s : State} {i : Nat} {k : Task} (hk : getTask s i = some k) (hd : k.deadline ≠ 0) (hf : k.fenced = false)
    (hc : k.cut = none) (he : endIssued s i k = false) (hl : lsFrozen s k.n = false) :
    taskDeadline s i = cutTask (expireItems (endMeasure (updQwin s k.n fun w => { w with expired := w.expired + 1 }) i
      (taskAge (updQwin s k.n fun w => { w with expired := w.expired + 1 }) k)) i) i qsStmDeadline true := by
  simp only [taskDeadline, hk]
  rw [if_neg (by simp [hd, hf, hc, he, hl])]

theorem taskDeadline_cutView {s : State} {i : Nat} {k : Task} (hk : getTask s i = some k) (hd : k.deadline ≠ 0) (hf : k.fenced = false)
    (hc : k.cut = none) (he : endIssued s i k = false) (hl : lsFrozen s k.n = false) :
    (cutView (taskDeadline s i)).task i = some (k.cutOf.cutBy qsStmDeadline true) ∧
      (cutView (taskDeadline s i)).expired k.n = (getQwin s k.n).expired + 1 := by
  rw [taskDeadline_eq hk hd hf hc he hl, cutTask_cutView, expireItems_cutView, endMeasure_cutView]
  refine ⟨?_, ?_⟩
  · dsimp only
    rw [if_pos rfl, cutView_task, show getTask (updQwin s k.n _) i = getTask s i from rfl, hk]
    rfl
  · dsimp only
    rw [cutView_expired, getQwin_updQwin, if_pos rfl]

end Sys2Proof.Machine
end

section
/-! PROOFS. Ends of tasks, and fences that take too long. -/

namespace Sys2Proof.Machine

/-! The end of a task (R239, R241). -/

/-- A task whose last completion is produced. -/
def endHeld (k : Task) : Task := { k with held := none }

theorem getTask_endHeld {s : State} {i : Nat} {k : Task} (hk : getTask s i = some k) (r : Nat) :
    getTask (updTask s i endHeld) r = if r = i then some (endHeld k) else getTask s r := by
  rw [getTask_updTask]
  split
  · rw [hk]; rfl
  · rfl

theorem taskEnd_eq {s : State} {i : Nat} {k : Task} {x : CplItem} (hk : getTask s i = some k) (hx : k.held = some x)
    (hf : k.fenced = false) (ho : taskOver s i k = true) :
    taskEnd s i = queueSettle (addLast (updTask s i endHeld) k.queue (endItem s k x)) k.queue := by
  simp only [taskEnd, hk, hx]
  rw [if_neg (by simp [hf, ho])]
  rfl

theorem queueSettle_of_items {s : State} {q : Nat} (h : (getQueue s q).items ≠ []) : queueSettle s q = s := by
  rw [queueSettle]
  exact if_neg (by simp [h])

/-- A completion waits for its write. -/
def withItem (y : CplItem) (q : Queue) : Queue := { q with items := q.items ++ [y] }

/-- The last completion is added to its queue. -/
theorem taskEnd_written {s : State} {i : Nat} {k : Task} {x : CplItem} (hk : getTask s i = some k) (hx : k.held = some x)
    (hf : k.fenced = false) (ho : taskOver s i k = true) (hq : (getQueue s k.queue).cplLost = false) :
    taskEnd s i = updQueue (updTask s i endHeld) k.queue (withItem (endItem s k x)) := by
  have hlast : addLast (updTask s i endHeld) k.queue (endItem s k x) =
      updQueue (updTask s i endHeld) k.queue (withItem (endItem s k x)) :=
    if_neg (by rw [show getQueue (updTask s i endHeld) k.queue = getQueue s k.queue from rfl, hq]; decide)
  rw [taskEnd_eq hk hx hf ho, hlast, queueSettle_of_items]
  simp [withItem]

/-- The completion is discarded: its envelope has its answer. -/
def lastDiscarded (s : State) (i : Nat) (k : Task) (y : CplItem) : State :=
  envWritten (countLost (updQueue (updTask s i endHeld) k.queue fun q => { q with owed := q.owed - 1 }) k.queue (itemSize y)) y

theorem lastDiscarded_frame {K : Keep} (s : State) (i : Nat) (k : Task) (y : CplItem) (htasks : K.tasks = false)
    (hqueues : K.queues = false) (hqwin : K.qwin = false) : obs K (lastDiscarded s i k y) = obs K s := by
  rw [lastDiscarded, envWritten_frame, countLost_frame, updQueue_frame, updTask_frame]

theorem getTask_lastDiscarded {s : State} {i e : Nat} {k : Task} {y : CplItem} (hk : getTask s i = some k) (hy : y.env = some (i, e)) :
    (∃ k', getTask (lastDiscarded s i k y) i = some k' ∧ k'.n = k.n) ∧ ∀ r, r ≠ i → getTask (lastDiscarded s i k y) r = getTask s r := by
  have hu : ∀ r, getTask (countLost (updQueue (updTask s i endHeld) k.queue fun q => { q with owed := q.owed - 1 }) k.queue
      (itemSize y)) r = getTask (updTask s i endHeld) r := fun r => by
    rw [getTask, obs_tasks (K := { Keep.none with tasks := true })
      ((countLost_frame _ k.queue (itemSize y) rfl).trans (updQueue_frame _ k.queue _ rfl)), getTask]
  rw [lastDiscarded, envWritten, hy]
  simp only [updEnv, getTask_updTask, hu, if_true]
  refine ⟨⟨{ endHeld k with envs := k.envs.modify e fun v => { v with written := true } }, by rw [hk]; rfl, rfl⟩,
    fun r hr => by rw [if_neg hr, if_neg hr]⟩

/-- The task whose measurement is taken at its end is released. -/
def released (s : State) (i : Nat) (k : Task) : State :=
  releaseTask (if k.endAge.isNone then measureTask s k (taskAge s k) else s) i

theorem taskEnd_discarded {s : State} {i e : Nat} {k : Task} {x : CplItem} (hk : getTask s i = some k) (hx : k.held = some x)
    (he : x.env = some (i, e)) (hf : k.fenced = false) (ho : taskOver s i k = true) (hq : (getQueue s k.queue).cplLost = true) :
    ∃ k', k'.n = k.n ∧ taskEnd s i =
      queueSettle (quiesceCheck (released (lastDiscarded s i k (endItem s k x)) i k') k.n) k.queue := by
  have hlast : addLast (updTask s i endHeld) k.queue (endItem s k x) = endOf (countLost (updQueue (updTask s i endHeld) k.queue
      fun q => { q with owed := q.owed - 1 }) k.queue (itemSize (endItem s k x))) (endItem s k x) :=
    if_pos (show (getQueue s k.queue).cplLost = true from hq)
  obtain ⟨⟨k', hk', hn⟩, -⟩ := getTask_lastDiscarded (y := endItem s k x) hk he
  refine ⟨k', hn, ?_⟩
  rw [taskEnd_eq hk hx hf ho, hlast, endOf, ← lastDiscarded]
  simp only [show (endItem s k x).last = true from rfl, show (endItem s k x).env = some (i, e) from he, hk', hn]
  rfl

theorem released_lifeView (s : State) (i : Nat) (k : Task) : lifeView (released s i k) = lifeView s := by
  refine (lifeView_of_obs (releaseTask_frame _ i rfl rfl rfl)).trans ?_
  rw [apply_ite lifeView, measureTask_lifeView, ite_self]

theorem getTask_released (s : State) (i : Nat) (k : Task) (r : Nat) :
    getTask (released s i k) r = if r = i then none else getTask s r := by
  have h : (if k.endAge.isNone then measureTask s k (taskAge s k) else s).tasks = s.tasks :=
    obs_tasks (K := { Keep.none with tasks := true }) (by rw [obs_ite, measureTask_frame _ _ _ rfl, ite_self])
  have ht : (released s i k).tasks = tabSet none s.tasks i none := congrArg (tabSet none · i none) h
  rw [getTask, ht, tabGet_tabSet, getTask]

theorem tabGet_filter_of {α : Type} {p : Nat × Option α → Bool} {t : Tab (Option α)} {i : Nat} {v : α}
    (h : tabGet none (t.filter p) i = some v) : p (i, some v) = true :=
  (List.mem_filter.1 (tabGet_mem h)).2

/-- The jobs of a task go with it. -/
theorem getJob_released {s : State} {i : Nat} {k : Task} {j : Nat} {z : Job} (h : getJob (released s i k) j = some z) : z.task ≠ i := by
  have hz := tabGet_filter_of h
  simpa using hz

theorem getClr_quiesceCheck_other (s : State) {n m : Nat} (hm : m ≠ n) : (getClr (quiesceCheck s n) m).st = (getClr s m).st := by
  unfold quiesceCheck
  split
  · simp [hm]
  · rfl

theorem getClr_quiesceCheck_quiet {s : State} {n : Nat} (h : (getClr s n).st = .quiescing) (ht : tasksOf s n = []) :
    (getClr (quiesceCheck s n) n).st = .quiet := by
  simp [quiesceCheck, h, ht]

/-- What a discarded end leaves (R32, R240, R241). -/
theorem taskEnd_discarded_facts {s : State} {i e : Nat} {k : Task} {x : CplItem} (hk : getTask s i = some k) (hx : k.held = some x)
    (he : x.env = some (i, e)) (hf : k.fenced = false) (ho : taskOver s i k = true) (hq : (getQueue s k.queue).cplLost = true) :
    (∀ r, getTask (taskEnd s i) r = if r = i then none else getTask s r) ∧
      (∀ j z, getJob (taskEnd s i) j = some z → z.task ≠ i) ∧
      ((getClr s k.n).st = .quiescing → tasksOf (taskEnd s i) k.n = [] → (getClr (taskEnd s i) k.n).st = .quiet) ∧
      ∀ m, m ≠ k.n → (getClr (taskEnd s i) m).st = (getClr s m).st := by
  obtain ⟨k', -, h⟩ := taskEnd_discarded hk hx he hf ho hq
  obtain ⟨-, hother⟩ := getTask_lastDiscarded (y := endItem s k x) hk he
  have hend : obs { Keep.none with tasks := true, sch := true } (taskEnd s i) = obs { Keep.none with tasks := true, sch := true }
      (released (lastDiscarded s i k (endItem s k x)) i k') := by
    rw [h]
    exact (queueSettle_frame _ _ rfl rfl).trans (quiesceCheck_frame _ _ rfl rfl rfl rfl rfl rfl rfl)
  have htask : ∀ r, getTask (taskEnd s i) r = if r = i then none else getTask s r := fun r => by
    rw [getTask, obs_tasks hend, ← getTask, getTask_released]
    by_cases hr : r = i
    · rw [if_pos hr, if_pos hr]
    · rw [if_neg hr, if_neg hr, hother r hr]
  have hst : ∀ m, (getClr (released (lastDiscarded s i k (endItem s k x)) i k') m).st = (getClr s m).st := fun m => by
    rw [← lifeView_st, released_lifeView, lifeView_of_obs (lastDiscarded_frame s i k _ rfl rfl rfl), lifeView_st]
  have hclr : ∀ m, (getClr (taskEnd s i) m).st =
      (getClr (quiesceCheck (released (lastDiscarded s i k (endItem s k x)) i k') k.n) m).st := fun m => by
    rw [h, ← lifeView_st, queueSettle_lifeView, lifeView_st]
  refine ⟨htask, fun j z hz => ?_, fun hqui hnone => ?_, fun m hm => ?_⟩
  · rw [getJob, obs_sch hend] at hz
    exact getJob_released hz
  · rw [hclr]
    refine getClr_quiesceCheck_quiet ((hst _).trans hqui) ?_
    rw [← hnone]
    exact tasksOf_congr (obs_tasks hend).symm _
  · rw [hclr, getClr_quiesceCheck_other _ hm, hst]

/-! FENCE_TIMEOUT (R459). -/

/-- A host tag, quarantined. -/
def deadHost (o : HostOut) : HostOut := { o with use := .dead }

/-- A fabric tag, quarantined. -/
def deadFab (o : FabOut) : FabOut := { o with core := none, acc := none }

theorem dropWaiting_xlt (s : State) (use : Option Nat) : (dropWaiting s use).xlt = s.xlt :=
  obs_xlt (K := { Keep.none with xlt := true }) (dropWaiting_frame s use rfl)

theorem getHostOut_quarantineHost (s : State) (t i : Nat) :
    getHostOut (quarantineHost s t) i = if i = t then (getHostOut s t).map deadHost else getHostOut s i := by
  unfold quarantineHost
  split
  next h =>
    by_cases hi : i = t <;> simp [hi, h]
  next o h =>
    simp only [setHostOut, updXlt, getHostOut, dropWaiting_xlt, tabGet_tabSet]
    by_cases hi : i = t
    · rw [if_pos hi, if_pos hi, ← getHostOut, h]
      rfl
    · rw [if_neg hi, if_neg hi]

/-- Tag `t` of the fabric port. -/
def fabOf (s : State) (t : Nat) : Option FabOut := tabGet none s.xlt.fabOut t

theorem fabOf_quarantineFab (s : State) (t i : Nat) :
    fabOf (quarantineFab s t) i = if i = t then (fabOf s t).map deadFab else fabOf s i := by
  unfold quarantineFab
  split
  next h =>
    have h' : fabOf s t = none := h
    by_cases hi : i = t <;> simp [hi, h']
  next o h =>
    have hcore : ∀ (u : State) c f, (updCore u c f).xlt = u.xlt := fun _ _ _ => rfl
    have h' : fabOf s t = some o := h
    have hfab : fabOf (setFabOut s t (some (deadFab o))) i = if i = t then (fabOf s t).map deadFab else fabOf s i := by
      rw [fabOf, setFabOut, updXlt, tabGet_tabSet, h']
      rfl
    rw [← hfab]
    cases o.core with
    | none => simp only [setFabOut, updXlt, fabOf, dropWaiting_xlt, tabGet_tabSet, deadFab]
    | some cg => simp only [setFabOut, updXlt, fabOf, dropWaiting_xlt, hcore, tabGet_tabSet, deadFab]

theorem getHostOut_quarantineFab (s : State) (t i : Nat) : getHostOut (quarantineFab s t) i = getHostOut s i := by
  have hset : ∀ (u : State) o, getHostOut (setFabOut u t o) i = getHostOut u i := fun _ _ => rfl
  have hcore : ∀ (u : State) c f, getHostOut (updCore u c f) i = getHostOut u i := fun _ _ _ => rfl
  have hwait : ∀ use, getHostOut (dropWaiting s use) i = getHostOut s i := fun use => by
    rw [getHostOut, dropWaiting_xlt, getHostOut]
  unfold quarantineFab
  split
  · rfl
  next o _ =>
    rw [hset]
    cases o.core with
    | none => exact hwait _
    | some cg => exact (hcore _ _ _).trans (hwait _)

/-- Tag `i` serves `o`, or has served it and is quarantined. -/
def HostKept (i : Nat) (o : HostOut) (s : State) : Prop := getHostOut s i = some o ∨ getHostOut s i = some (deadHost o)

/-- Tag `i` has served `o` and is quarantined. -/
def HostDead (i : Nat) (o : HostOut) (s : State) : Prop := getHostOut s i = some (deadHost o)

theorem quarantineHost_dead {i : Nat} {o : HostOut} {s : State} (t : Nat) (h : HostDead i o s) : HostDead i o (quarantineHost s t) := by
  rw [HostDead, getHostOut_quarantineHost]
  split
  next hi => rw [← hi, h]; rfl
  next => exact h

theorem quarantineHost_keeps {i : Nat} {o : HostOut} {s : State} (t : Nat) (h : HostKept i o s) : HostKept i o (quarantineHost s t) := by
  rcases h with h | h
  · rw [HostKept, getHostOut_quarantineHost]
    split
    next hi => exact .inr (by rw [← hi, h]; rfl)
    next => exact .inl h
  · exact .inr (quarantineHost_dead t h)

theorem quarantineHost_self {i : Nat} {o : HostOut} {s : State} (h : HostKept i o s) : HostDead i o (quarantineHost s i) := by
  rcases h with h | h
  · rw [HostDead, getHostOut_quarantineHost, if_pos rfl, h]
    rfl
  · exact quarantineHost_dead i h

theorem forEach_quarantineHost_dead {i : Nat} {o : HostOut} (ts : List Nat) {s : State} (hk : HostKept i o s)
    (h : HostDead i o s ∨ i ∈ ts) : HostDead i o (forEach ts s quarantineHost) :=
  forEach_attains (P := HostKept i o) (fun _ => .inr) (fun _ t => quarantineHost_keeps t) (fun _ t => quarantineHost_dead t)
    (fun _ => quarantineHost_self) ts s hk h

theorem forEach_quarantineHost_keeps {i : Nat} {o : HostOut} : ∀ (ts : List Nat) {s : State}, HostKept i o s →
    HostKept i o (forEach ts s quarantineHost)
  | [], _, h => h
  | t :: ts, _, h => forEach_quarantineHost_keeps ts (quarantineHost_keeps t h)

theorem getHostOut_forEach_quarantineFab (i : Nat) : ∀ (ts : List Nat) (s : State),
    getHostOut (forEach ts s quarantineFab) i = getHostOut s i
  | [], _ => rfl
  | t :: ts, s => (getHostOut_forEach_quarantineFab i ts (quarantineFab s t)).trans (getHostOut_quarantineFab s t i)

theorem timeoutRecs_xlt (s : State) (n : Nat) (x : ErrRec → ErrRec) (hs fs : Nat) :
    (timeoutRec (timeoutRec s n x 4 hs) n x 5 fs).xlt = s.xlt :=
  obs_xlt (K := { Keep.none with xlt := true }) ((timeoutRec_frame _ n x 5 fs rfl rfl).trans (timeoutRec_frame _ n x 4 hs rfl rfl))

/-- The host tags that `host` names. -/
def hostNamed (s : State) (host : Nat × Option HostOut → Bool) : List Nat := (s.xlt.hostOut.filter host).map (·.1)

/-- The fabric tags that `fab` names. -/
def fabNamed (s : State) (fab : Nat × Option FabOut → Bool) : List Nat := (s.xlt.fabOut.filter fab).map (·.1)

theorem getHostOut_quarantine (s : State) (n : Nat) (x : ErrRec → ErrRec) (host : Nat × Option HostOut → Bool)
    (fab : Nat × Option FabOut → Bool) (i : Nat) :
    getHostOut (quarantine s n x host fab) i = getHostOut (forEach (hostNamed s host) s quarantineHost) i := by
  rw [quarantine, getHostOut, timeoutRecs_xlt, ← getHostOut, getHostOut_forEach_quarantineFab]
  rfl

/-- Every host tag that is named is quarantined. -/
theorem quarantine_host {s : State} {i : Nat} {o : HostOut} (h : HostKept i o s) (n : Nat) (x : ErrRec → ErrRec)
    {host : Nat × Option HostOut → Bool} (fab : Nat × Option FabOut → Bool) (hh : host (i, some o) = true) :
    HostDead i o (quarantine s n x host fab) := by
  rw [HostDead, getHostOut_quarantine]
  refine forEach_quarantineHost_dead _ h ?_
  rcases h with h | h
  · exact .inr (List.mem_map.2 ⟨_, List.mem_filter.2 ⟨tabGet_mem h, hh⟩, rfl⟩)
  · exact .inl h

theorem quarantine_host_kept {s : State} {i : Nat} {o : HostOut} (h : HostKept i o s) (n : Nat) (x : ErrRec → ErrRec)
    (host : Nat × Option HostOut → Bool) (fab : Nat × Option FabOut → Bool) : HostKept i o (quarantine s n x host fab) := by
  rw [HostKept, getHostOut_quarantine]
  exact forEach_quarantineHost_keeps _ h

theorem quarantine_host_dead {s : State} {i : Nat} {o : HostOut} (h : HostDead i o s) (n : Nat) (x : ErrRec → ErrRec)
    (host : Nat × Option HostOut → Bool) (fab : Nat × Option FabOut → Bool) : HostDead i o (quarantine s n x host fab) := by
  rw [HostDead, getHostOut_quarantine]
  exact forEach_quarantineHost_dead _ (.inr h) (.inl h)

theorem fabOf_quarantineHost (s : State) (t i : Nat) : fabOf (quarantineHost s t) i = fabOf s i := by
  have hset : ∀ (u : State) o, fabOf (setHostOut u t o) i = fabOf u i := fun _ _ => rfl
  unfold quarantineHost
  split
  · rfl
  · rw [hset, fabOf, dropWaiting_xlt, fabOf]

theorem fabOf_forEach_quarantineHost (i : Nat) : ∀ (ts : List Nat) (s : State), fabOf (forEach ts s quarantineHost) i = fabOf s i
  | [], _ => rfl
  | t :: ts, s => (fabOf_forEach_quarantineHost i ts (quarantineHost s t)).trans (fabOf_quarantineHost s t i)

/-- Tag `i` of the fabric port has served `o` and is quarantined. -/
def FabDead (i : Nat) (o : FabOut) (s : State) : Prop := fabOf s i = some (deadFab o)

/-- It serves `o`, or is quarantined. -/
def FabKept (i : Nat) (o : FabOut) (s : State) : Prop := fabOf s i = some o ∨ FabDead i o s

theorem quarantineFab_dead {i : Nat} {o : FabOut} {s : State} (t : Nat) (h : FabDead i o s) : FabDead i o (quarantineFab s t) := by
  rw [FabDead, fabOf_quarantineFab]
  split
  next hi => rw [← hi, h]; rfl
  next => exact h

theorem quarantineFab_self {i : Nat} {o : FabOut} {s : State} (h : FabKept i o s) : FabDead i o (quarantineFab s i) := by
  rcases h with h | h
  · rw [FabDead, fabOf_quarantineFab, if_pos rfl, h]
    rfl
  · exact quarantineFab_dead i h

theorem quarantineFab_keeps {i : Nat} {o : FabOut} {s : State} (t : Nat) (h : FabKept i o s) : FabKept i o (quarantineFab s t) := by
  by_cases hi : t = i
  · exact .inr (hi ▸ quarantineFab_self (hi ▸ h))
  · rwa [FabKept, FabDead, fabOf_quarantineFab, if_neg (Ne.symm hi)]

/-- Every fabric tag that is named is quarantined. -/
theorem quarantine_fab {s : State} {i : Nat} {o : FabOut} (h : fabOf s i = some o) (n : Nat) (x : ErrRec → ErrRec)
    (host : Nat × Option HostOut → Bool) {fab : Nat × Option FabOut → Bool} (hf : fab (i, some o) = true) :
    FabDead i o (quarantine s n x host fab) := by
  have hmem : i ∈ fabNamed s fab := List.mem_map.2 ⟨_, List.mem_filter.2 ⟨tabGet_mem h, hf⟩, rfl⟩
  rw [FabDead, quarantine, fabOf, timeoutRecs_xlt, ← fabOf]
  exact forEach_attains (P := FabKept i o) (R := FabDead i o) (fun _ => .inr) (fun _ t => quarantineFab_keeps t) (fun _ t => quarantineFab_dead t)
    (fun _ => quarantineFab_self) _ _ (.inl ((fabOf_forEach_quarantineHost i _ s).trans h)) (.inr hmem)

/-- A context that is torn down no longer waits for the tags of its old generations (R464). -/
theorem tornTimeouts_dead {s : State} {n i c : Nat} {o : HostOut} (h : getHostOut s i = some o) (hw : hostWaits o = true)
    (hn : o.n = n) (hc : o.ctx = c) (hg : o.gen ≠ (getCtx s c).gen) {cs : List Nat} (hmem : c ∈ cs) :
    HostDead i o (forEach cs s (tornTimeout n)) := by
  have hctx : ∀ t d, (tornTimeout n t d).ctx = t.ctx := fun t d =>
    obs_ctx (K := { Keep.none with ctx := true }) (tornTimeout_frame n t d rfl rfl rfl rfl rfl)
  refine (forEach_attains (P := fun t => HostKept i o t ∧ t.ctx = s.ctx) (R := fun t => HostDead i o t ∧ t.ctx = s.ctx)
    (fun t ht => ⟨.inr ht.1, ht.2⟩) (fun t d ht => ⟨quarantine_host_kept ht.1 .., (hctx t d).trans ht.2⟩)
    (fun t d ht => ⟨quarantine_host_dead ht.1 .., (hctx t d).trans ht.2⟩) (fun t ht => ⟨quarantine_host ht.1 _ _ _ ?_, (hctx t c).trans ht.2⟩)
    cs s ⟨.inl h, rfl⟩ (.inr hmem)).1
  have hgen : o.gen ≠ (getCtx t c).gen := by rwa [getCtx, ht.2, ← getCtx]
  simp [hostLate, hw, hn, hc, hgen]

theorem fenceTimeout_unchanged (s : State) (n : Nat) : fenceTimeout s n = { s with
    err := (fenceTimeout s n).err, rings := (fenceTimeout s n).rings, acc := (fenceTimeout s n).acc, xlt := (fenceTimeout s n).xlt
    sch := (fenceTimeout s n).sch } :=
  eq_mergeKept (K := { Keep.all with err := false, rings := false, acc := false, xlt := false, sch := false })
    (fenceTimeout_frame s n rfl rfl rfl rfl rfl)

/-- Settles O40: what a cut changes is followed through `cutView`, an end through its queue, and a quarantine tag by tag. -/
theorem abortsDeadlinesAndTaskEnds : Obligations.AbortsDeadlinesAndTaskEnds := by
  refine ⟨fun s g c hc => ?aborts, fun s i k hk => ⟨fun hd hf hcut he hl => ?deadline, fun x e hx he hf ho => ?ends⟩,
    fun s n hst => ?fence, fun s n hst => ?torn⟩
  case aborts =>
    rcases hc with ⟨q, w, rfl, hq, hb, hu, rfl⟩ | ⟨q, n, w, rfl, hq, hb, hw, hg⟩ | ⟨h, p, rfl, hs, hup, hsrc, hme, hp, hr, hstop⟩
    · exact ⟨_, errAbort_ready hq hb hu, (abortNoted_abortGroup s _).end_of_obs fun K hglob hwin herr =>
        (recordStatus_frame _ none q qsOk hglob hwin).trans (obs_set_err _ _ herr)⟩
    · exact ⟨_, errWabort_ready hq hb hw hg, (abortNoted_sendAbort s n g none).end_of_obs fun K hglob hwin _ =>
        recordStatus_frame _ (some n) q qsOk hglob hwin⟩
    · exact ⟨_, abortReceived_ready hs hup hsrc hme hp hr hstop, (abortNoted_updTrl s _).end_of_obs fun _ _ _ _ => rfl⟩
  case deadline =>
    obtain ⟨htask, hexp⟩ := taskDeadline_cutView hk hd hf hcut he hl
    obtain ⟨k', hk', hv⟩ := Option.map_eq_some_iff.1 ((cutView_task _ i).symm.trans htask)
    refine ⟨taskDeadline s i, rfl, ?_, ?_, hexp, ?_⟩
    · rw [hk']
      exact (congrArg TaskCut.cut hv).trans (by rw [TaskCut.cutBy, Task.cutOf, hcut]; rfl)
    · rw [hk']
      exact congrArg some ((congrArg TaskCut.expired hv).trans (Bool.or_true _))
    · exact eq_mergeKept (K := { Keep.all with
        clr := false, queues := false, tasks := false, acc := false, sch := false, qwin := false, swin := false })
        (taskDeadline_frame s i rfl rfl rfl rfl rfl rfl rfl)
  case ends =>
    have hframe : taskEnd s i = _ := eq_mergeKept (K := { Keep.all with
      glob := false, clr := false, que := false, queues := false, tasks := false, sch := false, bar := false, qwin := false
      swin := false, pwin := false, cc := false, out := false })
      (taskEnd_frame s i rfl rfl rfl rfl rfl rfl rfl rfl rfl rfl rfl rfl)
    cases hq : (getQueue s k.queue).cplLost with
    | false =>
      have hend := taskEnd_written hk hx hf ho hq
      have htask : ∀ r, getTask (taskEnd s i) r = if r = i then some (endHeld k) else getTask s r := fun r => by
        rw [hend]
        exact getTask_endHeld hk r
      refine ⟨taskEnd s i, rfl, fun r hr => by rw [htask, if_neg hr], fun _ => ⟨by rw [htask, if_pos rfl]; rfl, endItem s k x, ?_,
        rfl, rfl, rfl, rfl⟩, fun h => absurd h (by simp), fun m _ => ?_, hframe⟩
      · rw [hend, getQueue_updQueue, if_pos rfl]
        rfl
      · rw [hend]
        rfl
    | true =>
      obtain ⟨htask, hjob, hquiet, hother⟩ := taskEnd_discarded_facts hk hx he hf ho hq
      exact ⟨taskEnd s i, rfl, fun r hr => by rw [htask, if_neg hr], fun h => absurd h (by simp),
        fun _ => ⟨by rw [htask, if_pos rfl], hjob, hquiet⟩, hother, hframe⟩
  case fence =>
    have hexec : fenceTimeout s n = quarantine s n id (hostLate n) (fabLate n) := if_pos (by simp [hst])
    refine ⟨fenceTimeout s n, rfl, fun i o ho hw hn => ?_, fun i o ho hw hn => ?_, fenceTimeout_unchanged s n⟩
    · rw [hexec]
      exact quarantine_host (.inl ho) n id _ (by simp [hostLate, hw, hn])
    · rw [hexec]
      exact quarantine_fab ho n id _ (by simp [fabLate, hw, hn])
  case torn =>
    have hexec : fenceTimeout s n = forEach ((ctxsOf s n).filter fun c => (getCtx s c).tearing) s (tornTimeout n) :=
      if_neg (by simp [hst])
    refine ⟨fenceTimeout s n, rfl, fun i o c hc htear ho hw hn hctx hgen => ?_, fun hnone => ?_, fenceTimeout_unchanged s n⟩
    · rw [hexec]
      exact tornTimeouts_dead ho hw hn hctx hgen (List.mem_filter.2 ⟨hc, htear⟩)
    · rw [hexec, List.filter_eq_nil_iff.2 fun c hc => by simp [hnone c hc]]
      rfl

end Sys2Proof.Machine
end

section
/-! PROOFS. The tunables of a clearing, written and waiting for the boundary. -/

namespace Sys2Proof.Machine

/-- A command that accepts tunables leaves them waiting, and its status says QS_OK (R206, R207). -/
theorem acceptTun_answers {s : State} {q : Requester} {n : Nat} {v : Tunables} {r : Result}
    (h : r = .next (recordStatus (acceptTun s n v) none q qsOk)) :
    ∃ t, r = .next t ∧ t.glob.code = qsOk ∧ getClr t n = { getClr s n with tunNext := some v } ∧
      (∀ m, m ≠ n → getClr t m = getClr s m) ∧ t = { s with clr := t.clr, glob := t.glob } := by
  refine ⟨_, h, rfl, ?_, fun m hm => ?_, rfl⟩
  · rw [getClr_recordStatus, acceptTun, getClr_updClr, if_pos rfl]
  · rw [getClr_recordStatus, acceptTun, getClr_updClr, if_neg hm]

theorem elaClass_accepted {s : State} {q : Requester} {n c : Nat} {w : Word} (h : reachesGlobal s q)
    (hb : noBits w (bitsFrom 20 31 ||| bitsFrom 48 63) = true) (hd : (getClr s n).st ≠ .absent)
    (htarget : field w 0 20 = (acceptedTun s n).target.getD c 0 ∨ (getClr s n).cfg.tunable.getLsbD 0 = true)
    (hbudget : field w 32 16 = (acceptedTun s n).budget.getD c 0 ∨ (getClr s n).cfg.tunable.getLsbD 1 = true)
    (hlatency : inBounds (getClr s n).cfg.latency c (field w 0 20) = true)
    (hbounds : inBounds (getClr s n).cfg.budget c (field w 32 16) = true) :
    elaClass q n c w s = recordStatus (acceptTun s n { acceptedTun s n with
      target := (acceptedTun s n).target.set c (field w 0 20)
      budget := (acceptedTun s n).budget.set c (field w 32 16) }) none q qsOk := by
  have htune : ((field w 0 20 == (acceptedTun s n).target.getD c 0 || (getClr s n).cfg.tunable.getLsbD 0) &&
      (field w 32 16 == (acceptedTun s n).budget.getD c 0 || (getClr s n).cfg.tunable.getLsbD 1)) = true := by
    simp only [Bool.and_eq_true, Bool.or_eq_true, beq_iff_eq]
    exact ⟨htarget, hbudget⟩
  rw [elaClass, globalCmd_run h]
  dsimp only
  rw [checked_ok (by simp only [firstBad_cons, firstBad_nil, hb, htune, hlatency, hbounds]; simp [defined, hd])]

theorem elaCtrl_accepted {s : State} {q : Requester} {n : Nat} {w : Word} (h : reachesGlobal s q)
    (hb : noBits w (bitsFrom 32 63) = true) (hd : (getClr s n).st ≠ .absent)
    (hmask : BitVec.ofNat 8 (field w 0 8) = (acceptedTun s n).mask ∨ (getClr s n).cfg.tunable.getLsbD 2 = true)
    (hurg : [field w 8 8, field w 16 8, field w 24 8] = (acceptedTun s n).urgency ∨ (getClr s n).cfg.tunable.getLsbD 3 = true)
    (hsome : BitVec.ofNat 8 (field w 0 8) ≠ 0)
    (hlimit : BitVec.ofNat 8 (field w 0 8) &&& (getClr s n).cfg.classMaskMax = BitVec.ofNat 8 (field w 0 8))
    (h1 : 1 ≤ field w 8 8) (h2 : field w 8 8 < field w 16 8) (h3 : field w 16 8 < field w 24 8) :
    elaCtrl q n w s = recordStatus (acceptTun s n { acceptedTun s n with
      mask := BitVec.ofNat 8 (field w 0 8), urgency := [field w 8 8, field w 16 8, field w 24 8] }) none q qsOk := by
  have htune : ((BitVec.ofNat 8 (field w 0 8) == (acceptedTun s n).mask || (getClr s n).cfg.tunable.getLsbD 2) &&
      ([field w 8 8, field w 16 8, field w 24 8] == (acceptedTun s n).urgency || (getClr s n).cfg.tunable.getLsbD 3)) = true := by
    simp only [Bool.and_eq_true, Bool.or_eq_true, beq_iff_eq]
    exact ⟨hmask, hurg⟩
  have hrange : (BitVec.ofNat 8 (field w 0 8) != 0 &&
      BitVec.ofNat 8 (field w 0 8) &&& (getClr s n).cfg.classMaskMax == BitVec.ofNat 8 (field w 0 8) &&
      (1 ≤ field w 8 8 && field w 8 8 < field w 16 8 && field w 16 8 < field w 24 8)) = true := by
    simp only [Bool.and_eq_true, bne_iff_ne, beq_iff_eq, decide_eq_true_eq]
    exact ⟨⟨hsome, hlimit⟩, ⟨h1, h2⟩, h3⟩
  rw [elaCtrl, globalCmd_run h]
  dsimp only
  rw [checked_ok (by simp only [firstBad_cons, firstBad_nil, hb, htune, hrange]; simp [defined, hd])]

/-- Settles O17: both writes pass their checks, and what they accept waits. -/
theorem tunableWritesWaitForTheBoundary : Obligations.TunableWritesWaitForTheBoundary :=
  ⟨fun _ _ _ _ _ hq hb hd htarget hbudget hlatency hbounds =>
    acceptTun_answers (congrArg Host.Outcome.next (elaClass_accepted hq hb hd htarget hbudget hlatency hbounds)),
  fun _ _ _ _ hq hb hd hmask hurg hsome hlimit h1 h2 h3 =>
    acceptTun_answers (congrArg Host.Outcome.next (elaCtrl_accepted hq hb hd hmask hurg hsome hlimit h1 h2 h3))⟩

end Sys2Proof.Machine
end

section
/-! PROOFS. The image commands that read, write or drop the staging area and the flash, and the scrub of released plots. -/

namespace Sys2Proof.Machine

/-! IMG_CMD (R75, R81). -/

/-- What IMG_CMD does once its checks pass, without the flash bit of COMMIT. -/
def imgRun (s : State) (op n : Nat) (r : HostRead) : State :=
  match op with
  | 1 => imgLoadBegin s
  | 2 => endImgCmd (applyOutcome s n).2 (applyOutcome s n).1
  | 3 => commitRun s false
  | 4 => discardRun s
  | 5 => flashRun s
  | _ => settingsRun s r

theorem imgCommand_accepted {s : State} {q : Requester} {w : Word} (h : reachesGlobal s q)
    (hb : noBits w (bitsFrom 5 7 ||| bitsFrom 14 63) = true) (hflash : wbit w 4 = false) (hidle : s.img.busy = false) {op : Nat}
    (h1 : 1 ≤ op) (h6 : op ≤ 6) (hn : op ≠ 2 → field w 8 6 = 0) (r : HostRead) :
    imgCommand q (putField w 0 4 op) r s = recordStatus (imgRun s op (field w 8 6) r) none q qsOk := by
  have hop : field (putField w 0 4 op) 0 4 = op := by
    rw [field_putField w op (by decide) (by decide)]
    omega
  have hsec : field (putField w 0 4 op) 8 6 = field w 8 6 := field_putField_other w op 8 6 (by decide) (by decide) (by decide)
  have hbit : wbit (putField w 0 4 op) 4 = false := (wbit_putField w op 4 (by decide) (by decide)).trans hflash
  have hbits : noBits (putField w 0 4 op) (bitsFrom 5 7 ||| bitsFrom 14 63) = true := by
    refine noBits_putField op (by decide) (by decide) hb fun i _ hi => ?_
    have : i < 4 := hi
    interval_cases i <;> decide
  have hlegal : (1 ≤ op && op ≤ 6 && (op == 3 || !false) && (op == 2 || field w 8 6 == 0)) = true := by
    by_cases h2 : op = 2
    · simp [h2]
    · simp [h1, h6, hn h2]
  rw [imgCommand, globalCmd_run h]
  simp only [hop, hsec, hbit]
  rw [checked_ok (by simp only [firstBad_cons, firstBad_nil, hbits, hlegal]; simp [hidle])]
  rfl

/-! The end of an image command (R81, R99). -/

/-- The image machinery once a command has ended with a code; a reset of the physical function that waited for the end has
emptied the staging area, unless the device runs mixed. -/
def imgEnded (i : Img) (c : Code) : Img :=
  let drop := i.resetAfter && !i.mixed
  { i with
    code := c, busy := false, loading := none, flashing := none, resetAfter := false
    staged := if drop then none else i.staged, differs := !drop && i.differs, pending := if drop then 0 else i.pending }

theorem endImgCmd_eq (s : State) (c : Code) : endImgCmd s c = { s with img := imgEnded s.img c } := by
  unfold endImgCmd imgEnded
  cases hr : s.img.resetAfter <;> cases hm : s.img.mixed <;> simp [updImg, emptyStaging, hr, hm]

theorem discardRun_eq {s : State} (h : s.img.mixed = false) : discardRun s = endImgCmd (emptyStaging s) qsOk := by
  simp [discardRun, h]

theorem flashRun_eq {s : State} {im : Image} (hs : s.img.staged = some im) (hm : s.img.mixed = false)
    (hf : s.boot.flashPresent = true) : flashRun s = emit (updImg s fun i =>
      { i with busy := true, flashing := some (.image im.bytes), flashImage := none }) (.flashWrite 0x00100000 im.bytes) := by
  simp [flashRun, flashImageBegin, hs, hm, hf]

/-- The reads of a host buffer are outputs alone (R69, R96). -/
theorem hostReadSpan_eq (fuel : Nat) (s : State) (addr len : Nat) :
    hostReadSpan fuel s addr len = { s with out := (hostReadSpan fuel s addr len).out } :=
  eq_mergeKept (K := { Keep.all with out := false }) (hostReadSpan_frame fuel s addr len rfl)

theorem settingsRun_eq {s : State} {bs : List Byte} (hl : s.img.len = 512)
    (ha : settingsAllowed s bs (s.img.force.map (·.svn)) = true) (hf : s.boot.flashPresent = true) :
    settingsRun s (.bytes bs) = settingsBegin (hostReadSpan 2 s s.img.src.toNat 512) (readSettings bs) := by
  have hallowed : settingsAllowed (hostReadSpan 2 s s.img.src.toNat 512) bs (s.img.force.map (·.svn)) = true := by
    rw [hostReadSpan_eq]
    exact ha
  have hflash : (hostReadSpan 2 s s.img.src.toNat 512).boot.flashPresent = true := by
    rw [hostReadSpan_eq]
    exact hf
  simp [settingsRun, hl, hallowed, hflash]

/-! The end of a flash write (R80). -/

theorem flashOpEnd_eq {s : State} (hp : s.boot.phase ≠ .bare) (ok : Bool) (h : s.img.flashing ≠ none) :
    flashOpEnd s ok = flashEnd s ok := by
  simp [flashOpEnd, hp, Option.isSome_iff_ne_none.2 h]

/-- Settles O24: each command is one run of the image machinery, and each end one end of a command. -/
theorem imageStagingAndFlash : Obligations.ImageStagingAndFlash := by
  refine ⟨fun s q w hq hb hflash hn hidle => ?commands, fun s bs hp hf => ⟨?written, ?failed⟩, fun s p r hs => ?scrub⟩
  case commands =>
    have hexec := fun op h1 h6 r => imgCommand_accepted hq hb hflash hidle (op := op) h1 h6 (fun _ => hn) r
    refine ⟨fun hm => ?discard, fun im hs hm hf => ?flash, fun bs hl ha hf => ?settings⟩
    case discard =>
      refine ⟨_, congrArg Host.Outcome.next (hexec 4 (by decide) (by decide) .failed), ?_⟩
      rw [imgRun, discardRun_eq hm, endImgCmd_eq]
      exact ⟨rfl, rfl, ite_self _, ite_self _, rfl, rfl⟩
    case flash =>
      refine ⟨_, congrArg Host.Outcome.next (hexec 5 (by decide) (by decide) .failed), ?_⟩
      rw [imgRun, flashRun_eq hs hm hf]
      exact ⟨rfl, rfl, rfl, rfl⟩
    case settings =>
      refine ⟨_, congrArg Host.Outcome.next (hexec 6 (by decide) (by decide) (.bytes bs)), ?_⟩
      have hrun : imgRun s 6 (field w 8 6) (.bytes bs) = settingsRun s (.bytes bs) := rfl
      rw [hrun, settingsRun_eq hl ha hf, hostReadSpan_eq]
      exact ⟨rfl, rfl, rfl, rfl, rfl⟩
  case written =>
    have hend : exec .flashWriteDone s = .next (endImgCmd (updImg s fun i => { i with flashImage := some bs }) qsOk) :=
      congrArg Host.Outcome.next ((flashOpEnd_eq hp true (by simp [hf])).trans (by simp [flashEnd, hf]))
    refine ⟨_, hend, ?_⟩
    rw [endImgCmd_eq]
    exact ⟨rfl, rfl, rfl, rfl, rfl, rfl⟩
  case failed =>
    have hend : exec .flashOpTimeout s = .next (endImgCmd (updImg s fun i => { i with flashImage := none }) qsImgFlash) :=
      congrArg Host.Outcome.next ((flashOpEnd_eq hp false (by simp [hf])).trans (by simp [flashEnd, hf]))
    refine ⟨_, hend, ?_⟩
    rw [endImgCmd_eq]
    exact ⟨rfl, rfl, rfl, rfl, rfl, rfl⟩
  case scrub =>
    have hdone : plotScrubDone s p = if s.img.scrubNext = 1048576 ∧ s.img.scrubOut = 0 then
        { s with img := { s.img with scrub := r, scrubNext := 0, scrubOut := 0 } } else s := by
      simp [plotScrubDone, hs, updImg]
    exact congrArg Host.Outcome.next hdone

end Sys2Proof.Machine
end

section
/-! PROOFS. What a request that the gate refuses leaves of the sections of clearings and of the phase map. -/

namespace Sys2Proof.Machine

/-- The section of every clearing, and the phase map with the one that waits for the boundary. -/
structure SectionView where
  cfg : Nat → ClearingCfg
  map : List Nat
  mapNext : Option (List Nat)

/-- Those parts of a state. -/
def sectionView (s : State) : SectionView := ⟨fun m => (getClr s m).cfg, s.cal.map, s.cal.mapNext⟩

theorem sectionView_cfg (s : State) (m : Nat) : (sectionView s).cfg m = (getClr s m).cfg := rfl

theorem sectionView_of_obs {s t : State} (h : obs { Keep.none with clr := true, cal := true } t =
    obs { Keep.none with clr := true, cal := true } s) : sectionView t = sectionView s := by
  simp only [sectionView, getClr, obs_clr h, obs_cal h]

theorem mapAhead_of_view {s t : State} (h : sectionView t = sectionView s) : mapAhead t = mapAhead s := by
  have hmap : t.cal.map = s.cal.map := congrArg SectionView.map h
  have hnext : t.cal.mapNext = s.cal.mapNext := congrArg SectionView.mapNext h
  rw [mapAhead, hmap, hnext, mapAhead]

theorem forEach_view {α V : Type} {view : State → V} {f : State → α → State} (h : ∀ s x, view (f s x) = view s) :
    ∀ (xs : List α) (s : State), view (forEach xs s f) = view s
  | [], _ => rfl
  | x :: xs, s => (forEach_view h xs (f s x)).trans (h s x)

theorem updClr_sectionView (s : State) (n : Nat) (f : Clearing → Clearing) (h : ∀ c, (f c).cfg = c.cfg) :
    sectionView (updClr s n f) = sectionView s := by
  have hcfg : (fun m => (getClr (updClr s n f) m).cfg) = fun m => (getClr s m).cfg := by
    funext m
    by_cases hm : m = n <;> simp [hm, h]
  exact congrArg (SectionView.mk · s.cal.map s.cal.mapNext) hcfg

theorem setClrState_sectionView (s : State) (n : Nat) (st : ClrState) : sectionView (setClrState s n st) = sectionView s := by
  have hset : ∀ u : State, sectionView (clrEvent (updClr u n fun c => { c with st := st }) n) = sectionView u := fun u =>
    updClr_sectionView u n (fun c => { c with st := st }) fun _ => rfl
  refine (hset _).trans ?_
  split <;> rfl

theorem takeReq_sectionView (s : State) (p : Nat) (r : MemReq) : sectionView (takeReq s p r) = sectionView s := by
  unfold takeReq zeroTaken
  split
  · exact updClr_sectionView _ _ _ fun _ => rfl
  · rfl

theorem countOutstanding_sectionView (s : State) (r : MemReq) (up : Bool) :
    sectionView (countOutstanding s r up) = sectionView s := by
  unfold countOutstanding
  split
  · rfl
  · split
    · exact updClr_sectionView _ _ _ fun _ => rfl
    · rfl

theorem measureTask_sectionView (s : State) (k : Task) (us : Nat) : sectionView (measureTask s k us) = sectionView s := by
  unfold measureTask
  exact updClr_sectionView _ _ _ fun _ => rfl

theorem queueSettle_sectionView (s : State) (q : Nat) : sectionView (queueSettle s q) = sectionView s :=
  sectionView_of_obs (by simp [Keep.none])

theorem countInterrupt_sectionView (s : State) (q : Nat) (i : CplItem) : sectionView (countInterrupt s q i) = sectionView s :=
  sectionView_of_obs (by simp [Keep.none])

theorem quiesceCheck_sectionView (s : State) (n : Nat) : sectionView (quiesceCheck s n) = sectionView s := by
  unfold quiesceCheck
  split
  · exact (setClrState_sectionView _ _ _).trans (updClr_sectionView _ _ _ fun _ => rfl)
  · rfl

theorem endOf_sectionView (s : State) (i : CplItem) : sectionView (endOf s i) = sectionView s := by
  have hw : sectionView (envWritten s i) = sectionView s := sectionView_of_obs (by simp [Keep.none])
  unfold endOf
  dsimp only
  split
  · split
    · refine (quiesceCheck_sectionView _ _).trans ((sectionView_of_obs (releaseTask_frame _ _ rfl rfl rfl)).trans ?_)
      split
      · exact (measureTask_sectionView _ _ _).trans hw
      · exact hw
    · exact hw
  · exact hw

theorem cplFailed_sectionView (s : State) (q addr : Nat) : sectionView (cplFailed s q addr) = sectionView s := by
  unfold cplFailed
  refine (queueSettle_sectionView _ q).trans ((forEach_view endOf_sectionView _ _).trans ?_)
  exact sectionView_of_obs (by simp [Keep.none])

theorem itemWritten_sectionView (s : State) (q : Nat) (isAcct : Bool) : sectionView (itemWritten s q isAcct) = sectionView s := by
  unfold itemWritten
  dsimp only
  split
  · exact sectionView_of_obs (by simp [Keep.none])
  · split
    · exact sectionView_of_obs (by simp [Keep.none])
    next i rest _ =>
      refine (queueSettle_sectionView _ q).trans ((countInterrupt_sectionView _ q i).trans ((endOf_sectionView _ i).trans ?_))
      refine sectionView_of_obs ?_
      split
      · split <;> simp [Keep.none]
      · simp [Keep.none]

theorem answerCpl_sectionView (s : State) (a : Acc) (q : Nat) (r : AccRes) : sectionView (answerCpl s a q r) = sectionView s := by
  unfold answerCpl
  split
  · exact itemWritten_sectionView _ _ _
  · exact (cplFailed_sectionView _ _ _).trans (sectionView_of_obs (by simp [Keep.none]))
  · exact cplFailed_sectionView _ _ _

theorem answerAcc_sectionView (s : State) (id : Nat) (r : AccRes) : sectionView (answerAcc s id r) = sectionView s := by
  unfold answerAcc
  dsimp only
  split
  · rfl
  · split
    case h_3 => exact answerCpl_sectionView _ _ _ _
    all_goals exact sectionView_of_obs (by simp [Keep.none])

theorem withdraw_sectionView (s : State) (x : Nat × MemReq) : sectionView (withdraw s x) = sectionView s := by
  have h : sectionView (countOutstanding (takeReq s x.1 x.2) x.2 false) = sectionView s :=
    (countOutstanding_sectionView _ _ _).trans (takeReq_sectionView _ _ _)
  unfold withdraw
  dsimp only
  split
  · refine Eq.trans (sectionView_of_obs ?_) h
    split <;> simp [Keep.none]
  · exact Eq.trans (sectionView_of_obs (by simp [Keep.none])) h
  · refine (answerAcc_sectionView _ _ _).trans (Eq.trans (sectionView_of_obs ?_) h)
    split <;> simp [Keep.none]
  all_goals exact h

theorem leaveLive_sectionView (s : State) (c : Nat) (st : CtxState) : sectionView (leaveLive s c st) = sectionView s := by
  have hleft : ∀ u : State, sectionView (ctxLeft u c (getCtx s c).gen) = sectionView u := fun u =>
    Eq.trans (sectionView_of_obs ((updAcct_frame _ c _ rfl).trans (xltCtxLeft_frame _ c rfl rfl)))
      (forEach_view withdraw_sectionView (enteredNow u c (getCtx s c).gen) u)
  exact (hleft _).trans (sectionView_of_obs (updCtx_frame s c _ rfl))

end Sys2Proof.Machine
end

section
/-! PROOFS. What an APPLY releases, defines and leaves alone. -/

namespace Sys2Proof.Machine

/-! Contexts keep their states and generations as the units of a clearing are released (R72). -/

/-- The state and the generation of every context. -/
def ctxLives (s : State) : Nat → CtxState × Nat := fun c => ((getCtx s c).st, (getCtx s c).gen)

theorem ctxLives_of_obs {s t : State} (h : obs { Keep.none with ctx := true } t = obs { Keep.none with ctx := true } s) :
    ctxLives t = ctxLives s := by
  unfold ctxLives getCtx
  rw [obs_ctx h]

/-- A charge for core-cclk moves the virtual time of its context alone (R324). -/
theorem chargeCtx_ctxLives (s : State) (c : Nat) : ctxLives (chargeCtx s c) = ctxLives s := by
  have hcharge : ∀ (u : State) (v : Ctx → Nat) (g : CtxAcct → CtxAcct),
      ctxLives (updAcct (updCtx u c fun k => { k with vtime := v k }) c g) = ctxLives u := fun u v g => by
    refine (ctxLives_of_obs (updAcct_frame _ c g rfl)).trans (funext fun d => ?_)
    by_cases hd : d = c <;> simp [ctxLives, hd]
  unfold chargeCtx
  exact (hcharge _ _ _).trans (ctxLives_of_obs (by simp [Keep.none]))

theorem releaseCores_ctxLives (s : State) (j : Nat) : ctxLives (releaseCores s j) = ctxLives s := by
  unfold releaseCores
  split
  · rfl
  · refine (ctxLives_of_obs ((forEach_frame _ _ _ fun s c => updCore_frame s c _ rfl).trans (updJob_frame _ _ _ rfl))).trans ?_
    exact (chargeCtx_ctxLives _ _).trans (ctxLives_of_obs (by simp [Keep.none]))

theorem clearStreams_ctxLives (s : State) (n : Nat) : ctxLives (clearStreams s n) = ctxLives s := by
  unfold clearStreams
  refine (ctxLives_of_obs ((obs_set_acc _ _ rfl).trans ((obs_set_tasks _ _ rfl).trans (updSch_frame _ _ rfl)))).trans ?_
  exact (forEach_view releaseCores_ctxLives _ _).trans (ctxLives_of_obs (by simp [Keep.none]))

theorem releaseUnits_ctxLives (s : State) (n : Nat) (new : Option ClearingCfg) : ctxLives (releaseUnits s n new) = ctxLives s := by
  have hstreams : ∀ b c, ctxLives (clearStreams (clearQueues s b c) n) = ctxLives s := fun b c =>
    (clearStreams_ctxLives _ n).trans (ctxLives_of_obs (clearQueues_frame s b c rfl rfl rfl))
  exact Eq.trans (ctxLives_of_obs (by simp [Keep.none, releaseUnits])) (hstreams (getClr s n).cfg.dbBase (getClr s n).cfg.dbCount)

/-! Contexts leave where no request of theirs entered a store in this cclk (R28, R356). -/

theorem noneEntered_of_lives {s t : State} (h : NoneEntered s) (hcal : t.cal = s.cal) (hclk : t.clk = s.clk)
    (hlives : ∀ c, (getCtx t c).st = .live → ctxLives t c = ctxLives s c) : NoneEntered t := by
  intro c hlive
  obtain ⟨hst, hgen⟩ := Prod.mk.inj (hlives c hlive)
  rw [hgen, enteredNow_congr hcal hclk]
  exact h c (hst.symm.trans hlive)

theorem releaseUnits_noneEntered {s : State} (h : NoneEntered s) (n : Nat) (new : Option ClearingCfg) :
    NoneEntered (releaseUnits s n new) := by
  have hkept : obs { Keep.none with cal := true, clk := true } (releaseUnits s n new) =
      obs { Keep.none with cal := true, clk := true } s := by simp [Keep.none]
  exact noneEntered_of_lives h (obs_cal hkept) (obs_clk hkept) fun c _ => congrFun (releaseUnits_ctxLives s n new) c

/-- A context of a clearing that releases what it holds becomes Free (R72). -/
def ctxReleased (s : State) (c : Nat) : State :=
  match (getCtx s c).st with
  | .live => freeCtx (leaveLive s c .free) c
  | .draining => freeCtx s c
  | .free => s

theorem ctxReleased_frame_of_none {K : Keep} {s : State} (h : NoneEntered s) (c : Nat) (hwin : K.win = false) (hctx : K.ctx = false)
    (hacc : K.acc = false) (hxlt : K.xlt = false) (hsch : K.sch = false) : obs K (ctxReleased s c) = obs K s := by
  unfold ctxReleased
  split
  next hlive => exact (freeCtx_frame _ c hwin hctx).trans (leaveLive_frame_of_none (h c hlive) .free hctx hacc hxlt hsch)
  · exact freeCtx_frame s c hwin hctx
  · rfl

theorem getCtx_ctxReleased (s : State) (c d : Nat) (hlive : (getCtx (ctxReleased s c) d).st = .live) :
    getCtx (ctxReleased s c) d = getCtx s d := by
  unfold ctxReleased at hlive ⊢
  split at hlive
  · rw [getCtx_freeCtx] at hlive ⊢
    split at hlive
    · cases hlive
    next hd => rw [if_neg hd, getCtx_leaveLive, if_neg hd]
  · rw [getCtx_freeCtx] at hlive ⊢
    split at hlive
    · cases hlive
    next hd => rw [if_neg hd]
  · rfl

theorem ctxReleased_noneEntered {s : State} (h : NoneEntered s) (c : Nat) : NoneEntered (ctxReleased s c) := by
  have hkept : obs { Keep.none with cal := true, clk := true } (ctxReleased s c) =
      obs { Keep.none with cal := true, clk := true } s := ctxReleased_frame_of_none h c rfl rfl rfl rfl rfl
  refine noneEntered_of_lives h (obs_cal hkept) (obs_clk hkept) fun d hlive => ?_
  unfold ctxLives
  rw [getCtx_ctxReleased s c d hlive]

theorem forEach_ctxReleased_clr : ∀ (cs : List Nat) (s : State), NoneEntered s → (forEach cs s ctxReleased).clr = s.clr
  | [], _, _ => rfl
  | c :: cs, s, h => (forEach_ctxReleased_clr cs _ (ctxReleased_noneEntered h c)).trans
      (obs_clr (K := { Keep.none with clr := true }) (ctxReleased_frame_of_none h c rfl rfl rfl rfl rfl))

theorem ctxReleased_sectionView (s : State) (c : Nat) : sectionView (ctxReleased s c) = sectionView s := by
  unfold ctxReleased
  split
  · exact (sectionView_of_obs (freeCtx_frame _ c rfl rfl)).trans (leaveLive_sectionView s c .free)
  · exact sectionView_of_obs (freeCtx_frame s c rfl rfl)
  · rfl

/-! A clearing releases what it holds (R72). -/

theorem releaseClearing_eq (s : State) (n : Nat) (new : Option ClearingCfg) : releaseClearing s n new =
    updImg (forEach (ctxsOf (releaseUnits s n new) n) (releaseUnits s n new) ctxReleased) fun i =>
      { i with scrub := i.scrub ++ releasedPlots (getClr s n).cfg new } := rfl

theorem releaseClearing_clr {s : State} (h : NoneEntered s) (n : Nat) (new : Option ClearingCfg) :
    (releaseClearing s n new).clr = s.clr := by
  rw [releaseClearing_eq, updImg_clr, forEach_ctxReleased_clr _ _ (releaseUnits_noneEntered h n new)]
  exact obs_clr (K := { Keep.none with clr := true }) (by simp [Keep.none])

theorem releaseClearing_sectionView (s : State) (n : Nat) (new : Option ClearingCfg) :
    sectionView (releaseClearing s n new) = sectionView s := by
  rw [releaseClearing_eq]
  refine Eq.trans (sectionView_of_obs (updImg_frame _ _ rfl)) ((forEach_view ctxReleased_sectionView _ _).trans ?_)
  exact sectionView_of_obs (by simp [Keep.none])

theorem releaseClearing_img (s : State) (n : Nat) (new : Option ClearingCfg) :
    (releaseClearing s n new).img = { s.img with scrub := s.img.scrub ++ releasedPlots (getClr s n).cfg new } := by
  have hunits : (releaseUnits s n new).img = s.img := obs_img (K := { Keep.none with img := true }) (by simp [Keep.none])
  have hctx : ∀ (u : State) (c : Nat), (ctxReleased u c).img = u.img := fun u c => by
    unfold ctxReleased
    split
    · exact obs_img (K := { Keep.none with img := true }) (by simp [Keep.none])
    · exact obs_img (K := { Keep.none with img := true }) (by simp [Keep.none])
    · rfl
  rw [releaseClearing_eq, updImg, forEach_view (view := State.img) hctx, hunits]

end Sys2Proof.Machine
end

section
/-! PROOFS. LOAD, APPLY and COMMIT. -/

namespace Sys2Proof.Machine

/-! APPLY of a section (R71, R72). -/

/-- What clearing `n` held is released, where it was defined. -/
def vacated (s : State) (im : Image) (n : Nat) : State :=
  if defined s n then releaseClearing s n (imageClearing im n) else s

/-- The phase map waits for the boundary, and the device runs mixed with the clearing's pending bit clear. -/
def applyBegun (s : State) (im : Image) (n : Nat) : State :=
  updImg (deferMap (vacated s im n) im n) fun i => { i with mixed := true, pending := setBit i.pending n false }

/-- Clearing `n` is defined by the section, and its ring is empty or empties. -/
def sectionApplied (s : State) (im : Image) (n : Nat) (g : ClearingCfg) : State :=
  emptyRing (defineClearing (applyBegun s im n) n g im.digest true) n

theorem applyChange_eq {im : Image} {n : Nat} {g : ClearingCfg} (h : imageClearing im n = some g) (s : State) :
    applyChange s im n = remeasure s (0x10 + n)
      (if (getRing (sectionApplied s im n g) n).emptying then sectionApplied s im n g
        else issueManifest (sectionApplied s im n g) n) := by
  simp only [applyChange, sectionApplied, applyBegun, vacated, h]

theorem vacated_sectionView (s : State) (im : Image) (n : Nat) : sectionView (vacated s im n) = sectionView s := by
  unfold vacated
  split
  · exact releaseClearing_sectionView s n _
  · rfl

theorem vacated_clr {s : State} (h : NoneEntered s) (im : Image) (n : Nat) : (vacated s im n).clr = s.clr := by
  unfold vacated
  split
  · exact releaseClearing_clr h n _
  · rfl

theorem vacated_img (s : State) (im : Image) (n : Nat) : ∃ ps, (vacated s im n).img = { s.img with scrub := ps } := by
  unfold vacated
  split
  · exact ⟨_, releaseClearing_img s n _⟩
  · exact ⟨s.img.scrub, rfl⟩

theorem applyBegun_img (s : State) (im : Image) (n : Nat) : ∃ ps, (applyBegun s im n).img =
    { s.img with scrub := ps, mixed := true, pending := setBit s.img.pending n false } := by
  obtain ⟨ps, hps⟩ := vacated_img s im n
  refine ⟨ps, ?_⟩
  rw [applyBegun, updImg, deferMap, updCal, hps]

theorem applyBegun_cal (s : State) (im : Image) (n : Nat) : (applyBegun s im n).cal.map = s.cal.map ∧
    (applyBegun s im n).cal.mapNext = some (moveEntries (mapAhead s) im n) := by
  have hview := vacated_sectionView s im n
  refine ⟨congrArg SectionView.map hview, ?_⟩
  rw [← mapAhead_of_view hview]
  rfl

@[simp] theorem getClr_updQue (s : State) (f : QueUnit → QueUnit) (m : Nat) : getClr (updQue s f) m = getClr s m := rfl

theorem getClr_defineClearing (s : State) (n : Nat) (g : ClearingCfg) (digest : BitVec 384) (staged : Bool) :
    (getClr (defineClearing s n g digest staged) n).st = .closed ∧ (getClr (defineClearing s n g digest staged) n).cfg = g ∧
      (getClr (defineClearing s n g digest staged) n).digest = digest := by
  simp [defineClearing, resetMeas, resetTun, reserveQuota]

theorem getClr_defineClearing_other (s : State) {n m : Nat} (h : m ≠ n) (g : ClearingCfg) (digest : BitVec 384) (staged : Bool) :
    getClr (defineClearing s n g digest staged) m = getClr s m := by
  simp [defineClearing, resetMeas, resetTun, reserveQuota, h]

/-- What follows the definition of a clearing leaves its state, its section and its digest. -/
theorem getClr_applyChange {im : Image} {n : Nat} {g : ClearingCfg} (h : imageClearing im n = some g) (s : State) (m : Nat) :
    (getClr (applyChange s im n) m).st = (getClr (sectionApplied s im n g) m).st ∧
      (getClr (applyChange s im n) m).cfg = (getClr (sectionApplied s im n g) m).cfg ∧
      (getClr (applyChange s im n) m).digest = (getClr (sectionApplied s im n g) m).digest := by
  have hmeasure : ∀ u : State, getClr (remeasure s (0x10 + n) u) m = getClr u m := fun u => by
    rw [getClr, obs_clr (K := { Keep.none with clr := true }) (remeasure_frame s _ u rfl rfl), ← getClr]
  rw [applyChange_eq h, hmeasure]
  split
  · exact ⟨rfl, rfl, rfl⟩
  · rw [getClr_issueManifest]
    dsimp only
    exact ⟨rfl, rfl, rfl⟩

/-- Nor does it change the image machinery or the calendar. -/
theorem applyChange_begun {im : Image} {n : Nat} {g : ClearingCfg} (h : imageClearing im n = some g) (s : State) :
    (applyChange s im n).img = (applyBegun s im n).img ∧ (applyChange s im n).cal = (applyBegun s im n).cal := by
  have hkept : obs { Keep.none with img := true, cal := true } (applyChange s im n) =
      obs { Keep.none with img := true, cal := true } (applyBegun s im n) := by
    rw [applyChange_eq h, remeasure_frame _ _ _ rfl rfl]
    split <;> simp [Keep.none, sectionApplied]
  exact ⟨obs_img hkept, obs_cal hkept⟩

theorem applyOutcome_changes {s : State} {im : Image} {n : Nat} {g : ClearingCfg} (hs : s.img.staged = some im)
    (hd : s.img.differs = false) (hg : imageClearing im n = some g) (hdiff : sectionDiffers s im n = true)
    (hst : (getClr s n).st = .absent ∨ (getClr s n).st = .closed ∨ (getClr s n).st = .quiet)
    (hfree : resourceHeld s im n g = false) : applyOutcome s n = (qsOk, applyChange s im n) := by
  have hready : ((getClr s n).st == .absent || (getClr s n).st == .closed || (getClr s n).st == .quiet) = true := by
    rcases hst with h | h | h <;> simp [h]
  simp [applyOutcome, hs, hd, hg, hdiff, hready, hfree]

/-! What an accepted APPLY leaves of the clearings. -/

@[simp] theorem getClr_emptyRing (s : State) (n m : Nat) : getClr (emptyRing s n) m = getClr s m := rfl

theorem getClr_applyBegun (s : State) (im : Image) (n m : Nat) : getClr (applyBegun s im n) m = getClr (vacated s im n) m := rfl

theorem getClr_sectionApplied_other (s : State) (im : Image) (g : ClearingCfg) {n m : Nat} (hm : m ≠ n) :
    getClr (sectionApplied s im n g) m = getClr (vacated s im n) m := by
  rw [sectionApplied, getClr_emptyRing, getClr_defineClearing_other _ hm, getClr_applyBegun]

section
variable {im : Image} {n : Nat} {g : ClearingCfg} (h : imageClearing im n = some g)
include h

theorem getClr_applyChange_self (s : State) : (getClr (applyChange s im n) n).st = .closed ∧
    (getClr (applyChange s im n) n).cfg = g ∧ (getClr (applyChange s im n) n).digest = im.digest := by
  obtain ⟨hst, hcfg, hdigest⟩ := getClr_applyChange h s n
  rw [hst, hcfg, hdigest, sectionApplied, getClr_emptyRing]
  exact getClr_defineClearing _ n g im.digest true

theorem getClr_applyChange_cfg (s : State) {m : Nat} (hm : m ≠ n) : (getClr (applyChange s im n) m).cfg = (getClr s m).cfg := by
  obtain ⟨-, hcfg, -⟩ := getClr_applyChange h s m
  rw [hcfg, getClr_sectionApplied_other s im g hm, ← sectionView_cfg, vacated_sectionView, sectionView_cfg]

theorem getClr_applyChange_st {s : State} (he : NoneEntered s) {m : Nat} (hm : m ≠ n) :
    (getClr (applyChange s im n) m).st = (getClr s m).st := by
  obtain ⟨hst, -, -⟩ := getClr_applyChange h s m
  rw [hst, getClr_sectionApplied_other s im g hm, getClr, vacated_clr he, ← getClr]

end

/-! What the end of a command records (R81, R528). -/

/-- A command of the image machinery, with effect `u`, ends with QS_OK. -/
def imgDone (u : State) (q : Requester) : State := recordStatus (endImgCmd u qsOk) none q qsOk

theorem imgDone_img (u : State) (q : Requester) : (imgDone u q).img = imgEnded u.img qsOk := by
  rw [imgDone, recordStatus_img, endImgCmd_eq]

theorem imgDone_cal (u : State) (q : Requester) : (imgDone u q).cal = u.cal := by
  rw [imgDone, recordStatus_cal, endImgCmd_eq]

theorem getClr_imgDone (u : State) (q : Requester) (m : Nat) : getClr (imgDone u q) m = getClr u m := by
  rw [imgDone, getClr_recordStatus, endImgCmd_eq, getClr, getClr]

/-! COMMIT of the image (R73). -/

/-- The state and the section of every clearing. -/
def clrStands (s : State) : Nat → ClrState × ClearingCfg := fun m => ((getClr s m).st, (getClr s m).cfg)

theorem issueManifest_clrStands (s : State) (n : Nat) : clrStands (issueManifest s n) = clrStands s := by
  funext m
  unfold clrStands
  rw [getClr_issueManifest]

theorem remeasure_clrStands (was : State) (i : Nat) (s : State) : clrStands (remeasure was i s) = clrStands s := by
  unfold clrStands getClr
  rw [obs_clr (K := { Keep.none with clr := true }) (remeasure_frame was i s rfl rfl)]

/-- A defined clearing takes the digest of the image that is now in force. -/
def adoptImage (im : Image) (s : State) (n : Nat) : State := updClr s n fun c => { c with fromStaged := false, digest := im.digest }

theorem adoptImage_clrStands (im : Image) (s : State) (n : Nat) : clrStands (adoptImage im s n) = clrStands s := by
  funext m
  by_cases hm : m = n <;> simp [clrStands, adoptImage, hm]

/-- The staged image is in force, and the staging area empty. -/
def imageForced (s : State) (im : Image) : State := emptyStaging (updImg s fun i => { i with force := some im, mixed := false })

theorem commitImage_eq (s : State) (im : Image) : ∃ ns, commitImage s im = remeasure s 3 (remeasure s 2
    (forEach ns (forEach (definedClearings (imageForced s im)) (imageForced s im) (adoptImage im)) issueManifest)) := ⟨_, rfl⟩

theorem commitImage_clrStands (s : State) (im : Image) : clrStands (commitImage s im) = clrStands s := by
  obtain ⟨ns, h⟩ := commitImage_eq s im
  rw [h, remeasure_clrStands, remeasure_clrStands, forEach_view issueManifest_clrStands,
    forEach_view (view := clrStands) (adoptImage_clrStands im)]
  rfl

theorem commitImage_img (s : State) (im : Image) : (commitImage s im).img =
    { s.img with force := some im, mixed := false, staged := none, differs := false, pending := 0 } := by
  obtain ⟨ns, h⟩ := commitImage_eq s im
  have hkept : (commitImage s im).img = (imageForced s im).img :=
    h ▸ obs_img (K := { Keep.none with img := true }) (by simp [Keep.none, adoptImage])
  exact hkept

theorem commitRun_eq {s : State} {im : Image} (hs : s.img.staged = some im) (hd : s.img.differs = false) (hp : s.img.pending = 0) :
    commitRun s false = endImgCmd (commitImage s im) qsOk := by
  simp [commitRun, hs, hd, hp]

/-! LOAD (R62, R69). -/

theorem imgLoadBegin_eq {s : State} (h : s.img.mixed = false) : imgLoadBegin s = hostReadSpan (s.img.len / 4096 + 2)
    (updImg s fun i => { i with busy := true, loading := some i.len }) s.img.src.toNat s.img.len := by
  simp [imgLoadBegin, updImg, h]

theorem imgLoadEnd_failed {s : State} {k : Nat} (h : s.img.loading = some k) :
    imgLoadEnd s .failed = endImgCmd s qsImgHostRead := by
  simp [imgLoadEnd, h]

theorem stageTraffic_boot (s : State) (bs : List Byte) : (stageTraffic s bs).boot = s.boot := rfl

theorem stageTraffic_img (s : State) (bs : List Byte) : (stageTraffic s bs).img = s.img := rfl

theorem pendingMask_stageTraffic (s : State) (bs : List Byte) (im : Image) :
    pendingMask (stageTraffic s bs) im = pendingMask s im := rfl

/-- The staging area holds an image that passed R62, with its pending bits against what is in force (R70). -/
def imageStaged (s : State) (im : Image) : State := updImg s fun i =>
  { i with
    staged := some im, pending := pendingMask s im
    differs := match s.img.force with
      | none => true
      | some a => !sameDevice a im }

theorem imgLoadEnd_ok {s : State} {k : Nat} {bs : List Byte} {im : Image} (h : s.img.loading = some k)
    (hv : validateImage (bs.take k) (some k) s.boot.lc s.boot.settings.minSvn s.boot.settings.signers = .ok im) :
    imgLoadEnd s (.bytes bs) = endImgCmd (imageStaged (stageTraffic s (bs.take k)) im) qsOk := by
  simp only [imgLoadEnd, h, stageTraffic_boot, hv]
  rfl

theorem imgLoadEnd_error {s : State} {k : Nat} {bs : List Byte} {f : ImageFault} (h : s.img.loading = some k)
    (hv : validateImage (bs.take k) (some k) s.boot.lc s.boot.settings.minSvn s.boot.settings.signers = .error f) :
    imgLoadEnd s (.bytes bs) = endImgCmd (updImg (stageTraffic s (bs.take k)) fun i =>
      { i with errSection := f.sect, errOffset := f.offset }) f.code := by
  simp only [imgLoadEnd, h, stageTraffic_boot, hv]

/-- Settles O23: each command is one run of the image machinery, and LOAD ends by the outcome of its checks. -/
theorem imageLoadApplyCommit : Obligations.ImageLoadApplyCommit := by
  refine ⟨fun s q w hq hb hflash hidle => ?commands, fun s k hk => ⟨?failed, fun bs => ?read⟩⟩
  case commands =>
    have hexec := fun op h1 h6 hn => imgCommand_accepted hq hb hflash hidle (op := op) h1 h6 hn .failed
    refine ⟨fun hn hm => ?load, fun im g hs hd hg hdiff hst hfree => ?apply, fun im hn hs hd hp => ?commit⟩
    case load =>
      refine ⟨_, congrArg Host.Outcome.next (hexec 1 (by decide) (by decide) fun _ => hn), ?_⟩
      rw [imgRun, imgLoadBegin_eq hm, hostReadSpan_eq]
      exact ⟨rfl, rfl, rfl⟩
    case apply =>
      have hrun : imgRun s 2 (field w 8 6) .failed = endImgCmd (applyChange s im (field w 8 6)) qsOk := by
        rw [imgRun, applyOutcome_changes hs hd hg hdiff hst hfree]
      obtain ⟨himg, hcal⟩ := applyChange_begun hg s
      obtain ⟨ps, hps⟩ := applyBegun_img s im (field w 8 6)
      obtain ⟨hmap, hnext⟩ := applyBegun_cal s im (field w 8 6)
      obtain ⟨hclosed, hsection, hdigest⟩ := getClr_applyChange_self hg s
      refine ⟨imgDone (applyChange s im (field w 8 6)) q, congrArg Host.Outcome.next ?_, rfl, ?_⟩
      · exact (hexec 2 (by decide) (by decide) fun h => absurd rfl h).trans (congrArg (recordStatus · none q qsOk) hrun)
      simp only [getClr_imgDone, imgDone_img, imgDone_cal, himg, hcal, hps]
      exact ⟨rfl, rfl, rfl, if_neg (by simp), rfl, hclosed, hsection, hdigest, fun m hm => getClr_applyChange_cfg hg s hm,
        fun he m hm => getClr_applyChange_st hg (fun c _ => he c) hm, hmap, hnext⟩
    case commit =>
      have hrun : imgRun s 3 (field w 8 6) .failed = endImgCmd (commitImage s im) qsOk := by
        rw [imgRun, commitRun_eq hs hd hp]
      refine ⟨imgDone (commitImage s im) q, congrArg Host.Outcome.next ?_, rfl, ?_⟩
      · exact (hexec 3 (by decide) (by decide) fun _ => hn).trans (congrArg (recordStatus · none q qsOk) hrun)
      simp only [getClr_imgDone, imgDone_img, imgDone_cal, commitImage_img]
      exact ⟨rfl, rfl, rfl, rfl, ite_self _, ite_self _, fun n => Prod.mk.inj (congrFun (commitImage_clrStands s im) n),
        obs_cal (K := { Keep.none with cal := true }) (commitImage_frame s im rfl rfl rfl rfl)⟩
  case failed =>
    refine ⟨_, congrArg Host.Outcome.next (imgLoadEnd_failed hk), ?_⟩
    rw [endImgCmd_eq]
    exact ⟨rfl, rfl, rfl⟩
  case read =>
    cases hv : validateImage (bs.take k) (some k) s.boot.lc s.boot.settings.minSvn s.boot.settings.signers with
    | error f =>
      refine ⟨_, congrArg Host.Outcome.next (imgLoadEnd_error hk hv), ?_⟩
      rw [endImgCmd_eq]
      exact ⟨rfl, rfl, rfl, rfl, rfl, rfl, rfl⟩
    | ok im =>
      refine ⟨_, congrArg Host.Outcome.next (imgLoadEnd_ok hk hv), ?_⟩
      rw [endImgCmd_eq]
      refine ⟨rfl, rfl, rfl, rfl, rfl, fun hr => ?_⟩
      simp [imgEnded, imageStaged, updImg, stageTraffic_img, pendingMask_stageTraffic, hr]

end Sys2Proof.Machine
end

section
/-! PROOFS. One cclk of the block's own work: the step on an empty queue. -/

namespace Sys2Proof.Machine

/-- What a cclk's own work leaves as opening the cclk does (R89). -/
def Keep.ofCclk : Keep := { Keep.none with clk := true, boot := true, win := true, mbx := true, tap := true, pending := true }

theorem step_empty {s : State} (h : s.pending = []) : step s = .next (cclkTurn s) := by
  rw [step, h]

theorem cclkTurn_reset {s : State} (h : s.boot.phase = .reset) : cclkTurn s = s := by
  simp [cclkTurn, h]

/-- Settles O2: a cclk's own work leaves the fields that opening the cclk alone moves. -/
theorem emptyQueueStepMovesTheClock : Obligations.EmptyQueueStepMovesTheClock := by
  refine fun s hs => ⟨fun h => ?_, fun h => ?_⟩
  · rw [step_empty hs, cclkTurn_reset h]
  · have hobs : obs Keep.ofCclk (cclkTurn s) = obs Keep.ofCclk (cclkOpen s) := cclkTurn_frame s h
    exact ⟨_, step_empty hs, rfl, obs_clk hobs, (obs_boot hobs :), (obs_win hobs :), (obs_mbx hobs :), (obs_tap hobs :),
      (obs_pending hobs).trans hs⟩

end Sys2Proof.Machine
end

section
/-! PROOFS. The two resets of the block. -/

namespace Sys2Proof.Machine

theorem getRing_warmState (s : State) (k : Nat) : getRing (warmState s) k = warmRing (getRing s k) :=
  tabGet_tabMap ring0 warmRing rfl s.rings k

theorem getCtx_warmState (s : State) (c : Nat) : getCtx (warmState s) c = { ctx0 with gen := (getCtx s c).gen } :=
  tabGet_tabMap ctx0 (fun k => { ctx0 with gen := k.gen }) rfl s.ctx c

theorem getMbx_warmState (s : State) (m : Nat) : getMbx (warmState s) m = if m = 0 then { mailbox0 with
    data := (getMbx s 0).data, seq := (getMbx s 0).seq, posted := (getMbx s 0).posted
    frankSender := (getMbx s 0).frankSender, frankSeq := (getMbx s 0).frankSeq, frankPostmark := (getMbx s 0).frankPostmark }
  else mailbox0 :=
  tabGet_tabSet mailbox0 [] 0 m _

theorem running_iff (s : State) : running s = true ↔ s.boot.phase = .running := beq_iff_eq

/-- Settles O7: the state that each reset leaves, part by part. -/
theorem resetsOfTheBlock : Obligations.ResetsOfTheBlock := by
  refine ⟨fun s => rfl, fun s => ⟨warmState s, rfl, ?clk, rfl, fun k => ?ring, rfl, getCtx_warmState s, rfl, rfl,
    getMbx_warmState s 0, fun m hm => (getMbx_warmState s m).trans (if_neg hm), rfl⟩⟩
  case clk => simp only [warmState, openCclk, running_iff]
  case ring => rw [getRing_warmState, warmRing]

end Sys2Proof.Machine
end

section
/-! PROOFS. Phase 2 of the start-up: the life cycle, the flash, the root and the settings. -/

namespace Sys2Proof.Machine

@[simp] theorem startupRec_boot (s : State) (what lines : Nat) : (startupRec s what lines).boot = s.boot :=
  obs_boot (K := { Keep.none with boot := true }) (startupRec_frame s what lines rfl rfl)

/-- The life cycle is read, and debug access follows it (R126). -/
def lcRead (s : State) (i : RootInputs) : State :=
  updKey (updBoot s fun b => { b with lc := min i.lc.toNat 4 }) fun k => { k with debugOpen := decide (min i.lc.toNat 4 ≤ 1) }

/-- The flash and the root, as far as phase 2 goes with them (R122, R127, R128). -/
def rootSought (s : State) (i : RootInputs) : State :=
  if (findFlash s i).boot.phase == .stopped then findFlash s i else findRoot (findFlash s i) i

theorem rootPhase_retired {s : State} {i : RootInputs} (h : 4 ≤ i.lc.toNat) : rootPhase s i = stopBoot (lcRead s i) 5 0 0 := by
  have h4 : min i.lc.toNat 4 = 4 := Nat.min_eq_right h
  simp only [rootPhase, h4, if_true, lcRead]

theorem rootPhase_live {s : State} {i : RootInputs} (h : i.lc.toNat < 4) : rootPhase s i =
    if (rootSought (lcRead s i) i).boot.phase == .stopped then rootSought (lcRead s i) i
    else updBoot (chooseSettings (rootSought (lcRead s i) i) i) fun b => { b with phase := .memory } := by
  have h4 : min i.lc.toNat 4 ≠ 4 := by omega
  simp only [rootPhase, if_neg h4]
  rfl

/-! The flash (R122, R127). -/

theorem findFlash_raw {s : State} {i : RootInputs} (h : flashLost i = true) (hlc : s.boot.lc = 0) :
    ∃ c d, (findFlash s i).boot = { s.boot with
      shorted := shortedLines i, flashPresent := false, rootAbsent := true, cause := c, detail := d } := by
  simp only [findFlash, h, if_true, updBoot, hlc, noteCause]
  split
  · exact ⟨_, _, rfl⟩
  · exact ⟨s.boot.cause, s.boot.detail, rfl⟩

theorem findFlash_lost {s : State} {i : RootInputs} (h : flashLost i = true) (hlc : s.boot.lc ≠ 0) :
    (findFlash s i).boot = { s.boot with
      shorted := shortedLines i, phase := .stopped, cause := 1, detail := 0, where' := 0, wheelOn := false, delivery := none } := by
  simp only [findFlash, h, if_true, updBoot, hlc, if_false]
  rfl

theorem findFlash_found {s : State} {i : RootInputs} (h : flashLost i = false) :
    ∃ m, (findFlash s i).boot = { s.boot with
      shorted := shortedLines i, flashPresent := true, flashLog2 := i.sizeLog2, flashMode := m } := by
  simp only [findFlash, h, Bool.false_eq_true, if_false, updBoot]
  split
  · exact ⟨_, startupRec_boot _ _ _⟩
  · exact ⟨_, rfl⟩

/-! The root (R128). -/

theorem findRoot_noFlash {s : State} (h : s.boot.flashPresent = false) (i : RootInputs) : findRoot s i = s := by
  simp [findRoot, h]

theorem findRoot_some {s : State} {i : RootInputs} {root : List Byte} (h : s.boot.flashPresent = true)
    (hr : regenRoot s.boot.puf i.helper = some root) : ∃ p, (findRoot s i).boot = { s.boot with pass := p, root := some root } := by
  refine ⟨if byteAt i.helper 0x8000 = 1 then some (sliceAt i.helper 0x8010 16, sliceAt i.helper 0x8020 48) else none, ?_⟩
  simp [findRoot, h, updBoot, hr]

theorem findRoot_raw {s : State} {i : RootInputs} (h : s.boot.flashPresent = true) (hlc : s.boot.lc = 0)
    (hr : regenRoot s.boot.puf i.helper = none) :
    ∃ p c d, (findRoot s i).boot = { s.boot with pass := p, rootAbsent := true, cause := c, detail := d } := by
  simp only [findRoot, h, updBoot, hr, hlc, noteCause, Bool.not_true, Bool.false_eq_true, if_false, if_true]
  split
  · exact ⟨_, _, _, rfl⟩
  · exact ⟨_, s.boot.cause, s.boot.detail, rfl⟩

theorem findRoot_none {s : State} {i : RootInputs} (h : s.boot.flashPresent = true) (hlc : s.boot.lc ≠ 0)
    (hr : regenRoot s.boot.puf i.helper = none) : ∃ p, (findRoot s i).boot = { s.boot with
      pass := p, phase := .stopped, cause := 3, detail := 0, where' := 0, wheelOn := false, delivery := none } := by
  simp only [findRoot, h, updBoot, hr, hlc, Bool.not_true, Bool.false_eq_true, if_false]
  exact ⟨_, rfl⟩

/-! The settings (R129). -/

theorem chooseSettings_boot (s : State) (i : RootInputs) : ∃ t c d a b, (chooseSettings s i).boot = { s.boot with
      settings := t, chip := t.chip, copyB := c, settingsDefault := d, setAValid := a, setBValid := b } ∧
    (s.boot.rootAbsent = true → t = defaultSettings ∧ d = true) := by
  simp only [chooseSettings]
  split
  next h =>
    simp only [startupRec_boot, updBoot, h]
    exact ⟨_, _, _, _, _, rfl, fun _ => ⟨rfl, rfl⟩⟩
  next h =>
    refine ⟨_, _, _, _, _, rfl, fun hr => absurd ?_ h⟩
    simp [hr]

/-- Phase 2 goes on to phase 3 with what was found. -/
theorem rootPhase_goesOn {s : State} {i : RootInputs} (h : i.lc.toNat < 4) (hp : (rootSought (lcRead s i) i).boot.phase ≠ .stopped) :
    (rootPhase s i).boot.phase = .memory ∧ (rootPhase s i).boot.root = (rootSought (lcRead s i) i).boot.root ∧
      (rootPhase s i).boot.flashPresent = (rootSought (lcRead s i) i).boot.flashPresent ∧
      (rootPhase s i).boot.lc = (rootSought (lcRead s i) i).boot.lc ∧
      ((rootSought (lcRead s i) i).boot.rootAbsent = true → (rootPhase s i).boot.rootAbsent = true ∧
        (rootPhase s i).boot.settingsDefault = true ∧ (rootPhase s i).boot.settings = defaultSettings) := by
  obtain ⟨t, c, d, a, b, hboot, habsent⟩ := chooseSettings_boot (rootSought (lcRead s i) i) i
  rw [rootPhase_live h, if_neg (by simpa using hp)]
  simp only [updBoot, hboot, true_and]
  exact fun hr => ⟨hr, (habsent hr).2, (habsent hr).1⟩

theorem rootPhase_stops {s : State} {i : RootInputs} (h : i.lc.toNat < 4) (hp : (rootSought (lcRead s i) i).boot.phase = .stopped) :
    rootPhase s i = rootSought (lcRead s i) i := by
  rw [rootPhase_live h, if_pos (by simp [hp])]

/-! Where the search for the root ends (R127, R128). -/

theorem rootSought_lost {s : State} {i : RootInputs} (hlc : s.boot.lc ≠ 0) (hf : flashLost i = true) :
    (rootSought s i).boot.phase = .stopped ∧ (rootSought s i).boot.cause = 1 ∧ (rootSought s i).boot.lc = s.boot.lc := by
  have hb := findFlash_lost hf hlc
  have hs : rootSought s i = findFlash s i := by rw [rootSought, hb]; rfl
  rw [hs, hb]
  exact ⟨rfl, rfl, rfl⟩

section
variable {s : State} {i : RootInputs} (hp : s.boot.phase = .root)
include hp

theorem rootSought_live (h : (findFlash s i).boot.phase = s.boot.phase) : rootSought s i = findRoot (findFlash s i) i := by
  rw [rootSought, h, hp]
  rfl

theorem rootSought_raw (hlc : s.boot.lc = 0) : (rootSought s i).boot.phase = .root ∧ (rootSought s i).boot.lc = 0 ∧
    (flashLost i = true ∨ regenRoot s.boot.puf i.helper = none → (rootSought s i).boot.rootAbsent = true) := by
  cases hf : flashLost i with
  | true =>
    obtain ⟨c, d, hb⟩ := findFlash_raw hf hlc
    rw [rootSought_live hp (by rw [hb]), findRoot_noFlash (by rw [hb]), hb]
    exact ⟨hp, hlc, fun _ => rfl⟩
  | false =>
    obtain ⟨m, hb⟩ := findFlash_found (s := s) hf
    rw [rootSought_live hp (by rw [hb])]
    cases hr : regenRoot s.boot.puf i.helper with
    | none =>
      obtain ⟨p, c, d, hb'⟩ := findRoot_raw (s := findFlash s i) (i := i) (by rw [hb]) (by rw [hb]; exact hlc) (by rw [hb]; exact hr)
      rw [hb', hb]
      exact ⟨hp, hlc, fun _ => rfl⟩
    | some root =>
      obtain ⟨p, hb'⟩ := findRoot_some (s := findFlash s i) (i := i) (by rw [hb]) (by rw [hb]; exact hr)
      rw [hb', hb]
      exact ⟨hp, hlc, by simp⟩

theorem rootSought_none (hlc : s.boot.lc ≠ 0) (hf : flashLost i = false) (hr : regenRoot s.boot.puf i.helper = none) :
    (rootSought s i).boot.phase = .stopped ∧ (rootSought s i).boot.cause = 3 ∧ (rootSought s i).boot.lc = s.boot.lc := by
  obtain ⟨m, hb⟩ := findFlash_found (s := s) hf
  obtain ⟨p, hb'⟩ := findRoot_none (s := findFlash s i) (i := i) (by rw [hb]) (by rw [hb]; exact hlc) (by rw [hb]; exact hr)
  rw [rootSought_live hp (by rw [hb]), hb', hb]
  exact ⟨rfl, rfl, rfl⟩

theorem rootSought_some {root : List Byte} (hf : flashLost i = false) (hr : regenRoot s.boot.puf i.helper = some root) :
    (rootSought s i).boot.phase = .root ∧ (rootSought s i).boot.root = some root ∧ (rootSought s i).boot.flashPresent = true ∧
      (rootSought s i).boot.lc = s.boot.lc := by
  obtain ⟨m, hb⟩ := findFlash_found (s := s) hf
  obtain ⟨p, hb'⟩ := findRoot_some (s := findFlash s i) (i := i) (by rw [hb]) (by rw [hb]; exact hr)
  rw [rootSought_live hp (by rw [hb]), hb', hb]
  exact ⟨hp, rfl, rfl, rfl⟩

theorem rootSought_lc : (rootSought s i).boot.lc = s.boot.lc := by
  by_cases hlc : s.boot.lc = 0
  · rw [(rootSought_raw hp hlc).2.1, hlc]
  · cases hf : flashLost i with
    | true => exact (rootSought_lost hlc hf).2.2
    | false =>
      cases hr : regenRoot s.boot.puf i.helper with
      | none => exact (rootSought_none hp hlc hf hr).2.2
      | some root => exact (rootSought_some hp hf hr).2.2.2

end

/-! Phase 2 as a whole. -/

/-- Phase 2 reads the life cycle, and ends in phase 3 or in Stopped. -/
theorem rootPhase_ends {s : State} (hp : s.boot.phase = .root) (i : RootInputs) : (rootPhase s i).boot.lc = min i.lc.toNat 4 ∧
    ((rootPhase s i).boot.phase = .memory ∨ (rootPhase s i).boot.phase = .stopped) := by
  by_cases h : 4 ≤ i.lc.toNat
  · rw [rootPhase_retired h]
    exact ⟨rfl, .inr rfl⟩
  · have hlt := Nat.lt_of_not_le h
    have hlc : (rootSought (lcRead s i) i).boot.lc = min i.lc.toNat 4 := rootSought_lc (s := lcRead s i) hp
    by_cases hs : (rootSought (lcRead s i) i).boot.phase = .stopped
    · rw [rootPhase_stops hlt hs]
      exact ⟨hlc, .inr hs⟩
    · obtain ⟨hphase, -, -, hkept, -⟩ := rootPhase_goesOn hlt hs
      exact ⟨hkept.trans hlc, .inl hphase⟩

theorem rootSought_key (s : State) (i : RootInputs) : (rootSought s i).key = s.key := by
  unfold rootSought
  split <;> exact obs_key (K := { Keep.none with key := true }) (by simp [Keep.none])

theorem rootPhase_frame_eq (s : State) (i : RootInputs) : rootPhase s i = { s with
    boot := (rootPhase s i).boot, key := (rootPhase s i).key, err := (rootPhase s i).err, rings := (rootPhase s i).rings } :=
  eq_mergeKept (K := { Keep.all with boot := false, key := false, err := false, rings := false })
    (rootPhase_frame s i rfl rfl rfl rfl)

/-- Of keys and trust, phase 2 changes debug access alone (R126). -/
theorem rootPhase_key (s : State) (i : RootInputs) : (rootPhase s i).key = { s.key with debugOpen := decide (i.lc.toNat ≤ 1) } := by
  have hlc : decide (min i.lc.toNat 4 ≤ 1) = decide (i.lc.toNat ≤ 1) := by
    congr 1
    exact propext (by omega)
  have hkey : (rootPhase s i).key = (lcRead s i).key := by
    by_cases h : 4 ≤ i.lc.toNat
    · rw [rootPhase_retired h]
      rfl
    · rw [rootPhase_live (Nat.lt_of_not_le h)]
      split
      · exact rootSought_key _ i
      · exact (obs_key (K := { Keep.none with key := true }) (by simp [Keep.none])).trans (rootSought_key _ i)
  rw [hkey, ← hlc]
  rfl

/-- Settles O9: the outcomes of phase 2 by the life cycle, the flash and the root. -/
theorem rootPhaseOutcome : Obligations.RootPhaseOutcome := by
  refine ⟨fun s i hp => ⟨rootPhase s i, by rw [exec, execRotLcValid, hp]; rfl, (rootPhase_ends hp i).1, rootPhase_key s i,
    ?retired, ?raw, ?keyed, (rootPhase_ends hp i).2, rootPhase_frame_eq s i⟩,
    fun s hp => ⟨stopBoot s 4 0 0, by rw [exec, execRotLcTimeout, hp]; rfl, rfl, rfl, rfl⟩⟩
  case retired =>
    intro h
    rw [rootPhase_retired h]
    exact ⟨rfl, rfl⟩
  case raw =>
    intro h
    have hlc : (lcRead s i).boot.lc = 0 := by simp [lcRead, updKey, updBoot, h]
    obtain ⟨hphase, -, habsent⟩ := rootSought_raw (s := lcRead s i) (i := i) hp hlc
    obtain ⟨hmemory, -, -, -, hdefault⟩ := rootPhase_goesOn (s := s) (i := i) (by omega) (by simp [hphase])
    exact ⟨hmemory, fun h => hdefault (habsent h)⟩
  case keyed =>
    intro h1 h3
    have hlc : (lcRead s i).boot.lc ≠ 0 := by simp only [lcRead, updKey, updBoot]; omega
    have hlt : i.lc.toNat < 4 := by omega
    refine ⟨fun hf => ?lost, fun hf hr => ?rootless, fun root hf hr => ?rooted⟩
    case lost =>
      obtain ⟨hphase, hcause, -⟩ := rootSought_lost hlc hf
      rw [rootPhase_stops hlt hphase]
      exact ⟨hphase, hcause⟩
    case rootless =>
      obtain ⟨hphase, hcause, -⟩ := rootSought_none (s := lcRead s i) hp hlc hf hr
      rw [rootPhase_stops hlt hphase]
      exact ⟨hphase, hcause⟩
    case rooted =>
      obtain ⟨hphase, hroot, hflash, -⟩ := rootSought_some (s := lcRead s i) hp hf hr
      obtain ⟨hmemory, hroot', hflash', -, -⟩ := rootPhase_goesOn (s := s) (i := i) hlt (by simp [hphase])
      exact ⟨hmemory, hroot'.trans hroot, hflash'.trans hflash⟩

end Sys2Proof.Machine
end

section
/-! PROOFS. What the answer to a request leaves of the counters and latches of errors: all but the records held for the first
tick (R139). -/

namespace Sys2Proof.Machine

/-- Counters and latches of errors, without the records held for the first tick: what a record leaves as it was. -/
def errLatches (s : State) : ErrUnit := { s.err with held := [] }

theorem errLatches_of_obs {s t : State} (h : obs { Keep.none with err := true } t = obs { Keep.none with err := true } s) :
    errLatches t = errLatches s := by
  rw [errLatches, obs_err h, errLatches]

theorem errLatches_corrected (s : State) : (errLatches s).corrected = s.err.corrected := rfl
theorem errLatches_uncorrectable (s : State) : (errLatches s).uncorrectable = s.err.uncorrectable := rfl

@[simp] theorem raise_errLatches (s : State) (r : ErrRec) : errLatches (raise s r) = errLatches s := by
  unfold raise holdRec
  split
  · split <;> rfl
  · split <;> rfl

@[simp] theorem refusalRec_errLatches (s : State) (src unit addr why n ctx gen tag : Nat) (queue : Option Nat) :
    errLatches (refusalRec s src unit addr why n ctx gen tag queue) = errLatches s :=
  (raise_errLatches _ _).trans rfl

@[simp] theorem ringRec_errLatches (s : State) (c : Code) (q addr : Nat) : errLatches (ringRec s c q addr) = errLatches s :=
  raise_errLatches _ _

theorem failEnv_errLatches (s : State) (t e : Nat) (code : Code) (pos addr : Nat) :
    errLatches (failEnv s t e code pos addr) = errLatches s := errLatches_of_obs (by simp [Keep.none])

theorem answerEnv_errLatches (s : State) (a : Acc) (t e : Nat) (r : AccRes) : errLatches (answerEnv s a t e r) = errLatches s := by
  unfold answerEnv
  dsimp only
  split
  next k v _ _ =>
    cases r with
    | ok bs =>
      dsimp only
      refine errLatches_of_obs ?_
      split
      · simp [Keep.none]
      · split <;> simp [Keep.none]
    | spoiled bs =>
      dsimp only
      split
      · exact failEnv_errLatches _ _ _ _ _ _
      · exact errLatches_of_obs (by split <;> simp [Keep.none])
    | refused why =>
      dsimp only
      rw [failEnv_errLatches]
      split <;> exact refusalRec_errLatches _ _ _ _ _ _ _ _ _ _
    | failed c => exact failEnv_errLatches _ _ _ _ _ _
  · rfl

theorem fetchFailed_errLatches (s : State) (q addr : Nat) : errLatches (fetchFailed s q addr) = errLatches s := by
  unfold fetchFailed
  dsimp only
  split
  · refine Eq.trans (errLatches_of_obs (returnDead_frame _ _ _ rfl rfl rfl)) ((ringRec_errLatches _ _ _ _).trans ?_)
    exact errLatches_of_obs (by simp [Keep.none])
  · rfl

theorem answerFetch_errLatches (s : State) (a : Acc) (q : Nat) (r : AccRes) : errLatches (answerFetch s a q r) = errLatches s := by
  unfold answerFetch
  split
  · rfl
  · rw [fetchFailed_errLatches]
    exact refusalRec_errLatches _ _ _ _ _ _ _ _ _ _
  · rw [fetchFailed_errLatches]
    rfl

theorem cplFailed_errLatches (s : State) (q addr : Nat) : errLatches (cplFailed s q addr) = errLatches s := by
  have hends : ∀ u : State, errLatches (queueSettle (forEach (getQueue s q).items u endOf) q) = errLatches u := fun u =>
    errLatches_of_obs (by simp [Keep.none])
  unfold cplFailed
  refine (hends _).trans ((ringRec_errLatches _ _ _ _).trans ?_)
  exact errLatches_of_obs (by simp [Keep.none])

theorem answerAcc_errLatches (s : State) (id : Nat) (r : AccRes) : errLatches (answerAcc s id r) = errLatches s := by
  unfold answerAcc
  dsimp only
  split
  · rfl
  · split
    · exact answerEnv_errLatches _ _ _ _ _
    · exact answerFetch_errLatches _ _ _ _
    · unfold answerCpl
      split
      · exact errLatches_of_obs (by simp [Keep.none])
      · exact (cplFailed_errLatches _ _ _).trans (refusalRec_errLatches _ _ _ _ _ _ _ _ _ _)
      · exact cplFailed_errLatches _ _ _
    all_goals exact errLatches_of_obs (by simp [Keep.none])

theorem accMemory_errLatches (s : State) (id : Nat) (write bad : Bool) (granule : List Byte) :
    errLatches (accMemory s id write bad granule) = errLatches s := by
  unfold accMemory
  split
  · rfl
  · split <;> exact answerAcc_errLatches _ _ _

theorem deliver_errLatches (s : State) (r : MemReq) (a : MemAnswer) (data : List Byte) :
    errLatches (deliver s r a data) = errLatches s := by
  have hleave : errLatches (leaveOutstanding s r) = errLatches s := errLatches_of_obs (by simp [Keep.none])
  unfold deliver
  dsimp only
  split
  case h_2 => exact (accMemory_errLatches _ _ _ _ _).trans hleave
  all_goals exact Eq.trans (errLatches_of_obs (by simp [Keep.none])) hleave

end Sys2Proof.Machine
end

section
/-! PROOFS. The responses of the memory controllers: the tag, and what is counted. -/

namespace Sys2Proof.Machine

theorem deliver_cal (s : State) (r : MemReq) (a : MemAnswer) (data : List Byte) : (deliver s r a data).cal = s.cal :=
  obs_cal (K := { Keep.none with cal := true }) (by simp [Keep.none])

theorem raise_cal (s : State) (r : ErrRec) : (raise s r).cal = s.cal :=
  obs_cal (K := { Keep.none with cal := true }) (by simp [Keep.none])

theorem raise_corrected (s : State) (r : ErrRec) : (raise s r).err.corrected = s.err.corrected := by
  rw [← errLatches_corrected, raise_errLatches, errLatches_corrected]

theorem raise_uncorrectable (s : State) (r : ErrRec) : (raise s r).err.uncorrectable = s.err.uncorrectable := by
  rw [← errLatches_uncorrectable, raise_errLatches, errLatches_uncorrectable]

theorem lateCause_inflight (s : State) (b : Nat) : (lateCause s b).cal.inflight = s.cal.inflight := by
  unfold lateCause
  split <;> rfl

theorem lateCause_err (s : State) (b : Nat) : (lateCause s b).err = s.err :=
  obs_err (K := { Keep.none with err := true }) (by simp [Keep.none])

theorem latencyRec_inflight (s : State) (r : MemReq) (latency tag : Nat) :
    (latencyRec s r latency tag).cal.inflight = s.cal.inflight := by
  rw [latencyRec, lateCause_inflight, raise_cal]

theorem latencyRec_errLatches (s : State) (r : MemReq) (latency tag : Nat) :
    errLatches (latencyRec s r latency tag) = errLatches s := by
  rw [latencyRec, errLatches, lateCause_err]
  exact raise_errLatches _ _

/-- What the ECC of a response counts (R448). -/
theorem countEcc_counts (s : State) (r : MemReq) (e : Ecc) : (countEcc s r e).cal.inflight = s.cal.inflight ∧
    (countEcc s r e).err.corrected = (if e = .corrected then s.err.corrected + 1 else s.err.corrected) ∧
    (countEcc s r e).err.uncorrectable = (if e = .uncorrectable then s.err.uncorrectable + 1 else s.err.uncorrectable) := by
  cases e with
  | clean => exact ⟨rfl, rfl, rfl⟩
  | corrected =>
    simp only [countEcc, countCorrected]
    split
    · rw [raise_cal, raise_corrected, raise_uncorrectable]
      exact ⟨rfl, rfl, rfl⟩
    · exact ⟨rfl, rfl, rfl⟩
  | uncorrectable =>
    rw [countEcc, spoiledRec, raise_cal, raise_corrected, raise_uncorrectable]
    exact ⟨rfl, rfl, rfl⟩

/-- The tag of an answered command is free, and its ECC counted. -/
def responseCounted (s : State) (key : Nat) (f : InFlight) (e : Ecc) : State :=
  countEcc (updCal s fun c => { c with inflight := tabSet none c.inflight key none }) f.req e

section
variable {s : State} {stack lane tag : Nat}

theorem memoryResponse_free (h : tabGet none s.cal.inflight ((stack * 4 + lane) * 65536 + tag) = none) (e : Ecc) (data : List Byte) :
    memoryResponse s stack lane tag e data = s := by
  simp only [memoryResponse, h]

variable {f : InFlight} (h : tabGet none s.cal.inflight ((stack * 4 + lane) * 65536 + tag) = some f)
include h

theorem memoryResponse_dead (hd : f.dead = true) (e : Ecc) (data : List Byte) : memoryResponse s stack lane tag e data =
    responseCounted s ((stack * 4 + lane) * 65536 + tag) f e := by
  simp only [memoryResponse, h, hd, if_true, responseCounted]

/-- Whatever source a response reaches, the tags and counters stand as they do once its ECC is counted. -/
theorem memoryResponse_counted (e : Ecc) (data : List Byte) :
    (memoryResponse s stack lane tag e data).cal.inflight =
        (responseCounted s ((stack * 4 + lane) * 65536 + tag) f e).cal.inflight ∧
      errLatches (memoryResponse s stack lane tag e data) = errLatches (responseCounted s ((stack * 4 + lane) * 65536 + tag) f e) := by
  cases hd : f.dead with
  | true =>
    rw [memoryResponse_dead h hd]
    exact ⟨rfl, rfl⟩
  | false =>
    simp only [memoryResponse, h, hd, Bool.false_eq_true, if_false, deliver_cal, deliver_errLatches]
    split
    · exact ⟨rfl, rfl⟩
    · exact ⟨latencyRec_inflight _ _ _ _, latencyRec_errLatches _ _ _ _⟩

theorem memoryTimeout_discarded (hd : f.dead = true ∨ f.held = true) : memoryTimeout s stack lane tag = s := by
  simp [memoryTimeout, h, hd]

/-- Of the tags and counters, a missing response changes its own tag alone. -/
theorem memoryTimeout_quarantined (hd : f.dead = false) (hh : f.held = false) :
    (memoryTimeout s stack lane tag).cal.inflight =
        tabSet none s.cal.inflight ((stack * 4 + lane) * 65536 + tag) (some { f with dead := true }) ∧
      errLatches (memoryTimeout s stack lane tag) = errLatches s := by
  simp only [memoryTimeout, h, hd, hh, Bool.or_self, Bool.false_eq_true, if_false, deliver_cal, deliver_errLatches,
    latencyRec_inflight, latencyRec_errLatches]
  exact ⟨rfl, rfl⟩

end

theorem memoryTimeout_free {s : State} {stack lane tag : Nat}
    (h : tabGet none s.cal.inflight ((stack * 4 + lane) * 65536 + tag) = none) : memoryTimeout s stack lane tag = s := by
  simp only [memoryTimeout, h]

theorem heard_eq {s : State} (h : inert s = false) (f : State → State) : heard s f = f s := by
  simp [heard, h]

theorem inert_eq_false {s : State} (h1 : s.boot.phase ≠ .reset) (h2 : s.boot.phase ≠ .stopped) : inert s = false := by
  simp [inert, h1, h2]

/-- Settles O18: a response frees its tag and counts its ECC, a missing one quarantines it. -/
theorem memoryResponsesFreeTheirTags : Obligations.MemoryResponsesFreeTheirTags := by
  refine ⟨fun s stack lane tag ecc data h1 h2 => ?response, fun s stack lane tag hd => ?discarded, fun s stack lane tag f hf hd hh => ?missing⟩
  case response =>
    refine ⟨memoryResponse s stack lane tag ecc data, congrArg Host.Outcome.next (heard_eq (inert_eq_false h1 h2) _), ?_⟩
    cases hf : tabGet none s.cal.inflight ((stack * 4 + lane) * 65536 + tag) with
    | none =>
      rw [memoryResponse_free hf]
      exact ⟨hf, fun _ _ => rfl, fun _ => rfl, fun _ hn => by cases hn⟩
    | some f =>
      obtain ⟨hin, herr⟩ := memoryResponse_counted hf ecc data
      obtain ⟨hecc, hcor, hunc⟩ := countEcc_counts
        (updCal s fun c => { c with inflight := tabSet none c.inflight ((stack * 4 + lane) * 65536 + tag) none }) f.req ecc
      rw [hin, responseCounted, hecc]
      refine ⟨by simp [updCal], fun k hk => by simp [updCal, hk], fun hn => (by cases hn), fun g hg => ?_⟩
      cases hg
      refine ⟨(congrArg ErrUnit.corrected herr :).trans hcor, (congrArg ErrUnit.uncorrectable herr :).trans hunc, fun hd => ?_⟩
      rw [memoryResponse_dead hf hd]
      exact eq_mergeKept (K := { Keep.all with cal := false, err := false, rings := false })
        ((countEcc_frame _ _ _ rfl rfl rfl).trans (updCal_frame _ _ rfl))
  case discarded =>
    refine congrArg Host.Outcome.next ?_
    cases hf : tabGet none s.cal.inflight ((stack * 4 + lane) * 65536 + tag) with
    | none => exact memoryTimeout_free hf
    | some f => exact memoryTimeout_discarded hf (hd f hf)
  case missing =>
    obtain ⟨hin, herr⟩ := memoryTimeout_quarantined hf hd hh
    refine ⟨memoryTimeout s stack lane tag, rfl, ?_, fun k hk => ?_, (congrArg ErrUnit.corrected herr :),
      (congrArg ErrUnit.uncorrectable herr :)⟩
    · simp [hin]
    · simp [hin, hk]

end Sys2Proof.Machine
end

section
/-! PROOFS. The energy coefficients: only a write and a tick boundary change them. -/

namespace Sys2Proof.Machine

/-- The energy coefficients in use and the written ones (R439). -/
def coefs (s : State) : List Nat × List Nat := (s.pwr.coef, s.pwr.coefNext)

theorem coefs_of_obs {s t : State} (h : obs { Keep.none with pwr := true } t = obs { Keep.none with pwr := true } s) :
    coefs t = coefs s := by
  rw [coefs, obs_pwr h, coefs]

theorem updDom_coefs (s : State) (d : Nat) (f : Domain → Domain) : coefs (updDom s d f) = coefs s := rfl

theorem updPwin_coefs (s : State) (n : Nat) (f : PwrWin → PwrWin) : coefs (updPwin s n f) = coefs s := rfl

theorem chargeRows_coefs (s : State) (c x : Nat) : coefs (chargeRows s c x) = coefs s := rfl

theorem releaseCores_coefs (s : State) (j : Nat) : coefs (releaseCores s j) = coefs s := by
  unfold releaseCores
  split
  · rfl
  next x _ =>
    exact Eq.trans (coefs_of_obs (by simp [Keep.none])) (forEach_view (fun u c => chargeRows_coefs u c x.ctx) x.held s)

/-- A job that starts is counted, and the power that it waits for too (R319, R337). -/
def startCounted (s : State) (j : Nat) (x : Job) : State :=
  let s := updJob s j fun x => { x with st := .started }
  let s := updSwin s x.n fun w => { w with jobs := w.jobs + 1 }
  if x.held.any fun c => !domainOn s (c / 2) then
    updPwr (updPwin s x.n fun w => { w with waits := w.waits + 1 }) fun u => { u with demandWaits := u.demandWaits + 1 }
  else s

theorem startJob_eq {s : State} {j : Nat} {x : Job} (h : getJob s j = some x) : startJob s j =
    match getTask (startCounted s j x) x.task with
    | some k => if isLastEnv k x.env then startCounted s j x else completeEnv (startCounted s j x) x.task x.env qsOk false false
    | none => startCounted s j x := by
  simp only [startJob, h]
  rfl

theorem startCounted_coefs (s : State) (j : Nat) (x : Job) : coefs (startCounted s j x) = coefs s := by
  unfold startCounted
  dsimp only
  split <;> rfl

theorem startJob_coefs (s : State) (j : Nat) : coefs (startJob s j) = coefs s := by
  cases h : getJob s j with
  | none => simp only [startJob, h]
  | some x =>
    rw [startJob_eq h]
    split
    · split
      · exact startCounted_coefs s j x
      · exact Eq.trans (coefs_of_obs (completeEnv_frame _ _ _ _ _ _ rfl rfl rfl)) (startCounted_coefs s j x)
    · exact startCounted_coefs s j x

theorem takeFree_coefs (s : State) (j : Nat) : coefs (takeFree s j) = coefs s := coefs_of_obs (by simp [Keep.none])

theorem placeClaimant_coefs (s : State) (n : Nat) : coefs (placeClaimant s n) = coefs s := by
  unfold placeClaimant
  split
  · rfl
  · split
    · exact coefs_of_obs (by simp [Keep.none])
    · dsimp only
      split
      · split
        · exact (startJob_coefs _ _).trans (takeFree_coefs _ _)
        · exact takeFree_coefs _ _
      · exact takeFree_coefs _ _

theorem place_coefs (s : State) (n : Nat) : coefs (place s n) = coefs s := by
  unfold place
  split
  · rfl
  · refine (forEach_view (fun u j => ?_) _ _).trans ((placeClaimant_coefs _ n).trans rfl)
    split
    · exact (startJob_coefs _ _).trans (takeFree_coefs _ _)
    · split
      · exact (takeFree_coefs _ _).trans rfl
      · rfl

theorem placesTurn_coefs (s : State) : coefs (placesTurn s) = coefs s := forEach_view place_coefs _ s

theorem jobsTurn_coefs (s : State) : coefs (jobsTurn s) = coefs s := by
  refine forEach_view (fun u j => ?_) _ s
  split
  · rfl
  · split
    · exact coefs_of_obs (by simp [Keep.none])
    · exact coefs_of_obs (by simp [Keep.none])
    · exact coefs_of_obs (by simp [Keep.none])
    · split
      · rfl
      · exact Eq.trans (coefs_of_obs (placeSoon_frame _ _ rfl)) (releaseCores_coefs u _)
    all_goals rfl

theorem stopUnits_coefs (s : State) (n : Nat) : coefs (stopUnits s n) = coefs s := by
  unfold stopUnits
  refine (forEach_view (fun u j => ?_) _ _).trans (coefs_of_obs (by simp [Keep.none]))
  split
  case h_6 => rfl
  case h_1 | h_2 => exact coefs_of_obs (by simp [Keep.none])
  all_goals exact (releaseCores_coefs _ _).trans rfl

theorem fencesTurn_coefs (s : State) : coefs (fencesTurn s) = coefs s := by
  refine forEach_view (fun u n => ?_) _ s
  unfold fenceStop
  dsimp only
  split
  · split
    · rfl
    · exact (stopUnits_coefs _ _).trans rfl
  · rfl

theorem engineCharge_coefs (s : State) : coefs (engineCharge s) = coefs s := by
  refine forEach_view (fun u g => ?_) _ s
  dsimp only
  split
  · split <;> rfl
  · rfl

theorem unitsTurn_coefs (s : State) : coefs (unitsTurn s) = coefs s := by
  rw [unitsTurn, engineCharge_coefs, jobsTurn_coefs, fencesTurn_coefs]
  exact coefs_of_obs (by simp [Keep.none])

theorem chargeAll_coefs (s : State) (rows : List (Nat × List Nat)) : coefs (chargeAll s rows) = coefs s := by
  have hgate : ∀ (u : State) (g : Nat × List Nat), coefs (gateRows u g) = coefs u := fun u g => by
    unfold gateRows
    refine forEach_view (view := coefs) (fun _ _ => ?_) _ u
    rfl
  have hctx : ∀ (u : State) (c : Nat), coefs (chargeCtx u c) = coefs u := fun u c => coefs_of_obs (chargeCtx_frame u c rfl rfl)
  unfold chargeAll
  refine (forEach_view hgate rows _).trans ((forEach_view hctx _ _).trans (forEach_view (fun u c => ?_) _ s))
  split
  · exact chargeRows_coefs _ _ _
  · rfl

/-- The written coefficients are in use after the boundary's accounts (R439). -/
theorem powerBoundary_coef (s : State) : (powerBoundary s).pwr.coef = s.pwr.coefNext := by
  have hcharge : coefs (forEach (List.range 80) s chargeDomain) = coefs s := by
    refine forEach_view (fun u d => ?_) _ s
    unfold chargeDomain
    dsimp only
    split
    · exact (updPwin_coefs _ _ _).trans (updDom_coefs _ _ _)
    · exact updDom_coefs _ _ _
  rw [coefs, coefs, Prod.mk.injEq] at hcharge
  simp only [powerBoundary, updPwr, hcharge]

theorem closeTick_coef (s : State) (rows : List (Nat × List Nat)) : (closeTick s rows).pwr.coef = s.pwr.coefNext := by
  have hacct : coefs (acctTick (chargeAll (cclkOpen (lateTick s)) rows) ((definedClearings (chargeAll (cclkOpen (lateTick s)) rows)).filter
      (lateNow (chargeAll (cclkOpen (lateTick s)) rows)))) = coefs s := by
    refine Eq.trans (coefs_of_obs (acctTick_frame _ _ rfl rfl)) ((chargeAll_coefs _ rows).trans ?_)
    exact coefs_of_obs ((cclkOpen_frame _ rfl).trans (lateTick_frame s rfl rfl rfl rfl rfl rfl))
  rw [coefs, coefs, Prod.mk.injEq] at hacct
  exact (powerBoundary_coef _).trans hacct.2

end Sys2Proof.Machine
end

section
/-! PROOFS. The image in force and the phase maps: what serves requests and remaps pseudo-channels leaves them as they are. -/

namespace Sys2Proof.Machine

/-- The image in force, the phase map in force and the one that waits for the boundary (R71, R131). -/
structure Plan where
  force : Option Image
  map : List Nat
  next : Option (List Nat)

/-- The plan of a state. -/
def planOf (s : State) : Plan := ⟨s.img.force, s.cal.map, s.cal.mapNext⟩

theorem plan_of_obs {s t : State} (h : obs { Keep.none with img := true, cal := true } t =
    obs { Keep.none with img := true, cal := true } s) : planOf t = planOf s := by
  rw [planOf, obs_img h, obs_cal h, planOf]

theorem updPch_plan (s : State) (p : Nat) (f : Pch → Pch) : planOf (updPch s p f) = planOf s := rfl

theorem setClk_plan (s : State) (c : Clk) : planOf { s with clk := c } = planOf s := rfl

/-! Requests enter their stores, and leave them for a presentation (R153, R193). -/

theorem pushStore_plan (s : State) (p : Nat) (r : MemReq) : planOf (pushStore s p r) = planOf s := by
  unfold pushStore
  split
  · rfl
  · rfl
  · rfl
  · split <;> rfl

theorem enterStore_plan {s t : State} {r : MemReq} (h : enterStore s r = some t) : planOf t = planOf s := by
  unfold enterStore at h
  dsimp only at h
  split at h
  · cases h
  · cases h
    exact (plan_of_obs (countOutstanding_frame _ _ _ rfl)).trans ((pushStore_plan _ _ _).trans rfl)

theorem takeReq_plan (s : State) (p : Nat) (r : MemReq) : planOf (takeReq s p r) = planOf s :=
  (plan_of_obs (zeroTaken_frame _ _ rfl)).trans (updPch_plan _ _ _)

theorem presentReq_plan (s : State) (p at' : Nat) (r : MemReq) : planOf (presentReq s p at' r) = planOf s := by
  have hcount : ∀ u : State, planOf (chargeHbm (countHbm u r) r) = planOf u := fun u => plan_of_obs (by simp [Keep.none])
  unfold presentReq
  exact (hcount _).trans rfl

theorem serveReq_plan (s : State) (p at' : Nat) (r : MemReq) : planOf (serveReq s p at' r) = planOf s := by
  have hcount : ∀ u : State, planOf (countHbm u r) = planOf u := fun u => plan_of_obs (by simp [Keep.none])
  unfold serveReq
  dsimp only
  split
  · exact Eq.trans (hcount (takeReq s p r)) (takeReq_plan s p r)
  · exact (presentReq_plan _ _ _ _).trans (takeReq_plan s p r)

theorem serveElastic_plan (s : State) (w : PhaseWires) (p at' : Nat) (r : MemReq) :
    planOf (serveElastic s w p at' r) = planOf s := by
  unfold serveElastic
  refine (serveReq_plan _ _ _ _).trans ?_
  split
  · rfl
  · dsimp only
    split <;> split <;> rfl

theorem serveShared_plan (s : State) (w : PhaseWires) (p at' : Nat) : planOf (serveShared s w p at') = planOf s := by
  unfold serveShared
  dsimp only
  split
  · exact serveReq_plan _ _ _ _
  · split
    · exact serveElastic_plan _ _ _ _ _
    · split
      · exact serveReq_plan _ _ _ _
      · rfl

/-! A phase (R157, R132). -/

theorem phaseMaint_plan (s : State) (w : PhaseWires) (p ordinal : Nat) : planOf (phaseMaint s w p ordinal) = planOf s :=
  plan_of_obs (phaseMaint_frame s w p ordinal rfl)

theorem phaseOn_plan (w : PhaseWires) (j at' : Nat) (s : State) (p : Nat) : planOf (phaseOn w j at' s p) = planOf s := by
  have hheld : planOf (if (getPch s p).hold && (getPch s p).st = .unreachable then
      updPch s p fun k => { k with holdPhases := k.holdPhases + 1 } else s) = planOf s := by split <;> rfl
  unfold phaseOn
  dsimp only
  split
  · exact hheld
  · split
    · exact hheld
    · split
      · split
        · exact hheld
        · exact (phaseMaint_plan _ _ _ _).trans hheld
      · split
        · unfold phaseElastic
          split
          · exact (serveReq_plan _ _ _ _).trans hheld
          · exact (serveShared_plan _ _ _ _).trans hheld
        · unfold phaseFixed
          dsimp only
          split
          · exact (serveReq_plan _ _ _ _).trans hheld
          · exact (serveShared_plan _ _ _ _).trans hheld

theorem startupScrub_plan (s : State) (p at' : Nat) : planOf (startupScrub s p at') = planOf s := by
  unfold startupScrub
  split
  · rfl
  · exact (presentReq_plan _ _ _ _).trans rfl

theorem phaseStartup_plan (w : PhaseWires) (j at' : Nat) (s : State) (p : Nat) : planOf (phaseStartup w j at' s p) = planOf s := by
  unfold phaseStartup
  dsimp only
  split
  · rfl
  · split
    · rfl
    · split
      · split
        · rfl
        · exact phaseMaint_plan _ _ _ _
      · split
        · exact serveReq_plan _ _ _ _
        · split
          · exact serveReq_plan _ _ _ _
          · split
            · exact startupScrub_plan _ _ _
            · rfl

/-! Remapping (R171, R175, R176). -/

theorem lateCause_plan (s : State) (b : Nat) : planOf (lateCause s b) = planOf s := by
  unfold lateCause
  split <;> rfl

theorem reinsert_plan (s : State) (p : Nat) (r : MemReq) : planOf (reinsert s p r) = planOf s := by
  unfold reinsert
  split
  · rfl
  · rfl
  · rfl
  · split <;> rfl

theorem cutMargin_plan (s : State) (p : Nat) : planOf (cutMargin s p) = planOf s := by
  unfold cutMargin
  split <;> rfl

theorem issueAll_plan (s : State) : planOf (issueAll s) = planOf s := plan_of_obs (by simp [Keep.none])

theorem degradeAll_plan (s : State) : planOf (degradeAll s) = planOf s := plan_of_obs (by simp [Keep.none])

theorem raiseWide_plan (s : State) (r : ErrRec) (ns : List Nat) : planOf (raiseWide s r ns) = planOf s :=
  plan_of_obs (by simp [Keep.none])

theorem markDeviceFault_plan (s : State) (c : Code) : planOf (markDeviceFault s c) = planOf s := plan_of_obs (by simp [Keep.none])

theorem triggerDump_plan (s : State) (c : Code) : planOf (triggerDump s c) = planOf s := plan_of_obs (by simp [Keep.none])

theorem overcommitNow_plan (s : State) : planOf (overcommitNow s) = planOf s := rfl

theorem unhost_plan (s : State) (h g : Nat) : planOf (unhost s h g) = planOf s := rfl

theorem killInflight_plan (s : State) (h : Nat) : planOf (killInflight s h) = planOf s := rfl

theorem afterRemap_plan (s : State) : planOf (afterRemap s) = planOf s := by
  rw [afterRemap, lateCause_plan, overcommitNow_plan, issueAll_plan]

theorem heldNow_plan (s : State) (p : Nat) : planOf (heldNow s p) = planOf s := by
  unfold heldNow
  split
  · exact lateCause_plan _ _
  · rfl

theorem beginRemap_plan (s : State) (h g cause : Nat) : planOf (beginRemap s h g cause) = planOf s := by
  have hagain : ∀ (rs : List MemReq) (u : State), planOf (forEach rs u fun s r => reinsert s g r) = planOf u := fun rs u =>
    forEach_view (fun u r => reinsert_plan u g r) rs u
  simp only [beginRemap, remapRec, afterRemap_plan, degradeAll_plan, raiseWide_plan, hagain, updPch_plan, cutMargin_plan,
    killInflight_plan]

theorem makeUnreachable_plan (s : State) (p cause : Nat) : planOf (makeUnreachable s p cause) = planOf s := by
  simp only [makeUnreachable, overcommitNow_plan, issueAll_plan, degradeAll_plan, lateCause_plan, heldNow_plan, triggerDump_plan,
    markDeviceFault_plan, raiseWide_plan, updPch_plan]

theorem countHold_plan (s : State) (p : Nat) : planOf (countHold s p) = planOf s := by
  unfold countHold
  dsimp only
  split <;> rfl

/-- What `p` hosts becomes unreachable, as `p` fails (R176). -/
def hostedLost (s : State) (p : Nat) : State :=
  if (getPch s p).st = .hosting then
    makeUnreachable (unhost s (getPch s p).partner p) (getPch s p).partner (getPch s (getPch s p).partner).cause
  else s

theorem failPch_eq (s : State) (p cause : Nat) : failPch s p cause =
    if (getPch s p).st = .remapped || (getPch s p).st = .unreachable then s
    else if (getPch (hostedLost s p) (guestOf (hostedLost s p) p)).st = .normal && guestOf (hostedLost s p) p ≠ p then
      beginRemap (countHold (hostedLost s p) p) p (guestOf (hostedLost s p) p) cause
    else makeUnreachable (hostedLost s p) p 0 := rfl

theorem hostedLost_plan (s : State) (p : Nat) : planOf (hostedLost s p) = planOf s := by
  unfold hostedLost
  split
  · rw [makeUnreachable_plan, unhost_plan]
  · rfl

theorem failPch_plan (s : State) (p cause : Nat) : planOf (failPch s p cause) = planOf s := by
  rw [failPch_eq]
  split
  · rfl
  · split
    · rw [beginRemap_plan, countHold_plan, hostedLost_plan]
    · rw [makeUnreachable_plan, hostedLost_plan]

theorem moveHome_plan (s : State) (h g : Nat) : planOf (moveHome s h g) = planOf s := by
  unfold moveHome
  refine forEach_view (fun u r => ?_) _ s
  split
  · rfl
  · exact (reinsert_plan _ _ _).trans rfl

theorem drainRestored_plan (s : State) : planOf (drainRestored s) = planOf s := by
  refine forEach_view (fun u g => ?_) _ s
  split
  · rfl
  · exact forEach_view (fun v h => moveHome_plan v h g) _ u

theorem pchFails_plan (s : State) (p cause : Nat) : planOf (pchFails s p cause) = planOf s := by
  unfold pchFails
  split
  · exact failPch_plan _ _ _
  · split <;> rfl

theorem holdLimits_plan (s : State) : planOf (holdLimits s) = planOf s := by
  refine forEach_view (fun u p => ?_) _ s
  split
  · exact pchFails_plan _ _ _
  · rfl

theorem scrubFill_plan : ∀ (fuel : Nat) (s : State), planOf (scrubFill fuel s) = planOf s
  | 0, _ => rfl
  | fuel + 1, s => by
    unfold scrubFill
    split
    · rfl
    · split
      · rfl
      · dsimp only
        split
        · rfl
        next u h =>
          rw [scrubFill_plan fuel, ← enterStore_plan h]
          rfl

/-! CALENDAR_PHASE and the boundary's remappings (R152, R157, R171). -/

theorem calendarPhase_plan (w : PhaseWires) (s : State) : planOf (calendarPhase w s) = planOf s := by
  have hserve : ∀ (j : Nat) (a : Nat → Nat) (u : State), planOf (forEach allPchs u fun t p => phaseOn w j (a p) t p) = planOf u :=
    fun j a u => forEach_view (fun u p => phaseOn_plan w j (a p) u p) allPchs u
  have hstart : ∀ (j : Nat) (a : Nat → Nat) (u : State), planOf (forEach allPchs u fun t p => phaseStartup w j (a p) t p) = planOf u :=
    fun j a u => forEach_view (fun u p => phaseStartup_plan w j (a p) u p) allPchs u
  have hib : planOf (ibWires s w.ibHeld) = planOf s := plan_of_obs (ibWires_frame s _ rfl)
  unfold calendarPhase
  dsimp only
  split
  · split
    · rw [setClk_plan, drainRestored_plan, scrubFill_plan, holdLimits_plan, hserve, hib]
    · rfl
  · split
    · split
      · rw [setClk_plan, holdLimits_plan, hstart]
      · rfl
    · rfl

theorem endRemap_plan (s : State) (h : Nat) : planOf (endRemap s h) = planOf s := by
  simp only [endRemap, remapRec, afterRemap_plan, heldNow_plan, raiseWide_plan, moveHome_plan, updPch_plan]

theorem guestBoundary_plan (s : State) : planOf (guestBoundary s) = planOf s := by
  unfold guestBoundary
  split
  · rfl
  · dsimp only
    split
    · split
      · split
        · rw [remapByRanger, failPch_plan]
          rfl
        · rfl
      · rfl
    · split
      · rfl
      · split
        · rfl
        · rw [endRemap_plan]
          rfl

end Sys2Proof.Machine
end

section
/-! PROOFS. The tick boundary and the phases of a tick. -/

namespace Sys2Proof.Machine

/-! The close of a tick (R150). -/

theorem closeTick_clk (s : State) (rows : List (Nat × List Nat)) : (closeTick s rows).clk = { s.clk with cclk := s.clk.cclk + 1 } := by
  have hlate : (lateTick s).clk = s.clk := obs_clk (K := { Keep.none with clk := true }) (by simp [Keep.none])
  have hclose : (closeTick s rows).clk = (cclkOpen (lateTick s)).clk := by
    unfold closeTick
    exact obs_clk (K := { Keep.none with clk := true }) (by simp [Keep.none])
  rw [hclose, cclkOpen, hlate]

theorem closeTick_img (s : State) (rows : List (Nat × List Nat)) : (closeTick s rows).img = s.img :=
  obs_img (K := { Keep.none with img := true }) (by simp [Keep.none])

theorem markLate_plan (s : State) (n : Nat) : planOf (markLate s n) = planOf s := by
  unfold markLate
  refine Eq.trans (forEach_view (view := planOf) (fun _ _ => ?_) _ _) ?_ <;> rfl

theorem lateTick_plan (s : State) : planOf (lateTick s) = planOf s := by
  unfold lateTick
  refine (forEach_view markLate_plan _ _).trans ?_
  split
  · split
    · rw [raiseWide_plan, lateCause_plan]
    · exact lateCause_plan s 0
  · split
    · exact raiseWide_plan _ _ _
    · rfl

theorem closeTick_plan (s : State) (rows : List (Nat × List Nat)) : planOf (closeTick s rows) = planOf s := by
  have hclose : ∀ u : State, planOf (powerBoundary (acctTick (chargeAll (cclkOpen u) rows)
      ((definedClearings (chargeAll (cclkOpen u) rows)).filter (lateNow (chargeAll (cclkOpen u) rows))))) = planOf u :=
    fun u => plan_of_obs (by simp [Keep.none])
  exact (hclose (lateTick s)).trans (lateTick_plan s)

/-! The opening of the next. -/

/-- The tick closed, and the boundary's cclk opened as the first of the next. -/
def tickOpened (s : State) (w : TickWires) : State := openTick (closeTick (openCclk (placesTurn s)) w.zgRows) w.lock

theorem openTick_plan (s : State) (lock : Nat) : planOf (openTick s lock) = planOf s := rfl

theorem openTick_pwr (s : State) (lock : Nat) : (openTick s lock).pwr = s.pwr := rfl

theorem placesTurn_keeps (s : State) : (placesTurn s).clk = s.clk ∧ (placesTurn s).img = s.img ∧ planOf (placesTurn s) = planOf s :=
  ⟨obs_clk (K := { Keep.none with clk := true }) (by simp [Keep.none]), obs_img (K := { Keep.none with img := true }) (by simp [Keep.none]),
    plan_of_obs (by simp [Keep.none])⟩

theorem tickOpened_clk (s : State) (w : TickWires) : (tickOpened s w).clk = { s.clk with
    postmark := (s.clk.postmark + 1) % 2 ^ 64, tickStart := s.clk.tickStart + s.clk.cclk + 1
    refTick := s.clk.refTick + 100 * tickUs s, cclk := 0, lock := w.lock, phase := 0 } := by
  obtain ⟨hclk, himg, -⟩ := placesTurn_keeps s
  have hc : (closeTick (openCclk (placesTurn s)) w.zgRows).clk = { s.clk with cclk := s.clk.cclk + 1 } := by
    rw [closeTick_clk, show (openCclk (placesTurn s)).clk = s.clk from hclk]
  have hus : tickUs (closeTick (openCclk (placesTurn s)) w.zgRows) = tickUs s := by
    rw [tickUs, closeTick_img, show (openCclk (placesTurn s)).img = s.img from himg, tickUs]
  simp only [tickOpened, openTick, nowCclk, hc, hus, Nat.add_assoc]

theorem tickOpened_plan (s : State) (w : TickWires) : planOf (tickOpened s w) = planOf s :=
  (openTick_plan _ _).trans ((closeTick_plan _ _).trans (placesTurn_keeps s).2.2)

theorem tickOpened_coef (s : State) (w : TickWires) : (tickOpened s w).pwr.coef = s.pwr.coefNext := by
  have hplaces := placesTurn_coefs s
  rw [coefs, coefs, Prod.mk.injEq] at hplaces
  rw [tickOpened, openTick_pwr, closeTick_coef, ← hplaces.2]
  rfl

/-! What takes effect (R71, R172, R174, R452). -/

/-- The maps, the causes and the interrupts of the next tick. -/
def mapsTaken (s : State) : State := ringsBoundary (favourBoundary (mapBoundary (standingCauses s)))

theorem mapBoundary_plan (s : State) : planOf (mapBoundary s) = ⟨s.img.force, s.cal.mapNext.getD s.cal.map, none⟩ := by
  unfold mapBoundary
  dsimp only
  rw [overcommitNow_plan, guestBoundary_plan]
  split
  next m h => simp [planOf, updCal, h]
  next h => simp [planOf, h]

theorem mapsTaken_plan (s : State) : planOf (mapsTaken s) = ⟨s.img.force, s.cal.mapNext.getD s.cal.map, none⟩ := by
  have hrings : planOf (mapsTaken s) = planOf (favourBoundary (mapBoundary (standingCauses s))) :=
    plan_of_obs (ringsBoundary_frame _ rfl)
  exact hrings.trans ((Eq.trans rfl (mapBoundary_plan (standingCauses s))).trans rfl)

/-- What each clearing and each unit does as a tick opens. -/
def tickServed (s : State) : State :=
  let t := driveUrgency (forEach (definedClearings s) s clearingBoundary)
  heartbeatSend (unitsTurn (lsBoundary (publishBoundary (countBoundary t) (nowCclk t))))

theorem tickBoundary_eq {s : State} (h : s.boot.phase = .running) (w : TickWires) :
    tickBoundary s w = tickServed (mapsTaken (tickOpened s w)) := by
  simp [tickBoundary, running, h]
  rfl

theorem tickServed_coefs (s : State) : coefs (tickServed s) = coefs s := by
  have hsend : ∀ u : State, coefs (heartbeatSend u) = coefs u := fun u => coefs_of_obs (by simp [Keep.none])
  rw [tickServed, hsend, unitsTurn_coefs]
  exact coefs_of_obs (by simp [Keep.none])

section
variable {s : State} (h : s.boot.phase = .running) (w : TickWires)
include h

theorem tickBoundary_clk : (tickBoundary s w).clk = (tickOpened s w).clk := by
  have hserved : (tickServed (mapsTaken (tickOpened s w))).clk = (mapsTaken (tickOpened s w)).clk :=
    obs_clk (K := { Keep.none with clk := true }) (by simp [Keep.none, tickServed])
  have hmaps : (mapsTaken (tickOpened s w)).clk = (tickOpened s w).clk :=
    obs_clk (K := { Keep.none with clk := true }) (by simp [Keep.none, mapsTaken])
  rw [tickBoundary_eq h, hserved, hmaps]

theorem tickBoundary_maps : (tickBoundary s w).cal.map = s.cal.mapNext.getD s.cal.map ∧ (tickBoundary s w).cal.mapNext = none := by
  have hopened := tickOpened_plan s w
  have hmaps := mapsTaken_plan (tickOpened s w)
  rw [planOf, planOf, Plan.mk.injEq] at hopened
  obtain ⟨-, hmap, hnext⟩ := hopened
  rw [planOf, Plan.mk.injEq, hmap, hnext] at hmaps
  obtain ⟨-, hmap', hnext'⟩ := hmaps
  have hserved : (tickServed (mapsTaken (tickOpened s w))).cal = (mapsTaken (tickOpened s w)).cal :=
    obs_cal (K := { Keep.none with cal := true }) (by simp [Keep.none, tickServed])
  rw [tickBoundary_eq h, hserved]
  exact ⟨hmap', hnext'⟩

theorem tickBoundary_coef : (tickBoundary s w).pwr.coef = s.pwr.coefNext := by
  have hserved := tickServed_coefs (mapsTaken (tickOpened s w))
  rw [coefs, coefs, Prod.mk.injEq] at hserved
  have hmaps : (mapsTaken (tickOpened s w)).pwr = (tickOpened s w).pwr :=
    obs_pwr (K := { Keep.none with pwr := true }) (by simp [Keep.none, mapsTaken])
  rw [tickBoundary_eq h, hserved.1, hmaps, tickOpened_coef]

end

/-! A phase (R157). -/

/-- The next phase follows. -/
def phaseNext (s : State) (j : Nat) : State := { s with clk := { s.clk with phase := j + 1 } }

/-- A phase of the calendar, or of the start-up wheel, on every pseudo-channel. -/
def phaseServed (w : PhaseWires) (s : State) : State :=
  if running s then
    drainRestored (scrubFill 5120 (holdLimits (forEach allPchs (ibWires s w.ibHeld) fun t p =>
      phaseOn w s.clk.phase (presentAt s w s.clk.phase p) t p)))
  else holdLimits (forEach allPchs s fun t p => phaseStartup w s.clk.phase (presentAt s w s.clk.phase p) t p)

theorem phaseServed_clk (w : PhaseWires) (s : State) : (phaseServed w s).clk = s.clk := by
  unfold phaseServed
  split <;> exact obs_clk (K := { Keep.none with clk := true }) (by simp [Keep.none])

theorem calendarPhase_serves {s : State} (w : PhaseWires) (h : (s.boot.phase = .running ∧ s.clk.phase < phasesOfTick (tickUs s)) ∨
    (s.boot.phase ≠ .running ∧ s.boot.wheelOn = true ∧ s.clk.phase < 9765)) :
    calendarPhase w s = phaseNext (phaseServed w s) s.clk.phase := by
  rcases h with ⟨hr, hj⟩ | ⟨hr, hw, hj⟩
  · have hrun : running s = true := (running_iff s).2 hr
    simp only [calendarPhase, phaseServed, hrun, if_true, if_pos hj]
    rfl
  · have hrun : running s = false := by simpa [running] using hr
    simp only [calendarPhase, phaseServed, hrun, Bool.false_eq_true, if_false, hw, if_true, if_pos hj]
    rfl

theorem calendarPhase_past {s : State} (w : PhaseWires) (h : (s.boot.phase = .running ∧ phasesOfTick (tickUs s) ≤ s.clk.phase) ∨
    (s.boot.phase ≠ .running ∧ (s.boot.wheelOn = false ∨ 9765 ≤ s.clk.phase))) : calendarPhase w s = s := by
  rcases h with ⟨hr, hj⟩ | ⟨hr, hw⟩
  · have hrun : running s = true := (running_iff s).2 hr
    simp only [calendarPhase, hrun, if_true, if_neg (Nat.not_lt.2 hj)]
  · have hrun : running s = false := by simpa [running] using hr
    simp only [calendarPhase, hrun, Bool.false_eq_true, if_false]
    rcases hw with hw | hj
    · simp only [hw, Bool.false_eq_true, if_false]
    · simp only [if_neg (Nat.not_lt.2 hj), ite_self]

/-- Settles O13: the close and the opening of a tick part by part, and the phases by their number. -/
theorem ticksAndPhasesAdvance : Obligations.TicksAndPhasesAdvance := by
  refine ⟨fun s w hr => ⟨tickBoundary s w, rfl, ?boundary⟩, fun s w hr => ?idle, fun s w h => ⟨calendarPhase w s, rfl, ?phase⟩,
    fun s w h => congrArg Host.Outcome.next (calendarPhase_past w h)⟩
  case boundary =>
    have hboot : (tickBoundary s w).boot = s.boot := obs_boot (K := { Keep.none with boot := true }) (by simp [Keep.none])
    obtain ⟨hmap, hnext⟩ := tickBoundary_maps hr w
    rw [tickBoundary_clk hr, tickOpened_clk]
    exact ⟨rfl, rfl, rfl, rfl, rfl, rfl, hnext, hmap, tickBoundary_coef hr w, hboot⟩
  case idle =>
    have hrun : running s = false := by simpa [running] using hr
    simp [exec, execTickBoundary, tickBoundary, hrun]
  case phase =>
    have hplan := calendarPhase_plan w s
    rw [planOf, planOf, Plan.mk.injEq] at hplan
    obtain ⟨hforce, hmap, -⟩ := hplan
    refine ⟨?_, hforce, hmap, obs_ctx (K := { Keep.none with ctx := true }) (by simp [Keep.none])⟩
    rw [calendarPhase_serves w h, phaseNext, phaseServed_clk]

end Sys2Proof.Machine
end

section
/-! PROOFS. Power domains: commands, acknowledgements and WFI. -/

namespace Sys2Proof.Machine

theorem getDom_congr {s t : State} (h : t.pwr.domains = s.pwr.domains) (d : Nat) : getDom t d = getDom s d := by
  rw [getDom, h, getDom]

theorem coreFailed_congr {s t : State} (h : t.err = s.err) (c : Nat) : coreFailed t c = coreFailed s c := by
  rw [coreFailed, h, coreFailed]

theorem getCore_congr {s t : State} (h : t.sch = s.sch) (c : Nat) : getCore t c = getCore s c := by
  rw [getCore, h, getCore]

/-! PWR_CMD (R437, R441). -/

/-- PWR_RESULT of a PWR_CMD that is accepted, for domain `d` and state `t`. -/
def powerCommanded (s : State) (d : Nat) (t : PowerSt) : State :=
  updPwr (updDom s d fun x => { x with target := t, cmd := t }) fun u => { u with
    code := qsOk, domain := d, done := (getDom s d).st = t && (getDom s d).req.isNone
    cmdOpen := !((getDom s d).st = t && (getDom s d).req.isNone) }

theorem pwrCommand_accepted {s : State} {q : Requester} {w : Word} (h : reachesGlobal s q)
    (hb : noBits w (bitsFrom 7 7 ||| bitsFrom 10 63) = true) (ht : field w 8 2 ≠ 3)
    (hd : field w 0 7 = 77 ∨ (field w 0 7 = 79 ∧ field w 8 2 ≠ 1 ∧ (field w 8 2 = 0 → s.boot.solitary = true)))
    (hf : (getDom s (field w 0 7)).fault = false) :
    pwrCommand q w s = recordStatus (powerCommanded s (field w 0 7) (powerOf (field w 8 2))) none q qsOk := by
  have hdomain : (field w 0 7 == 77 || (field w 0 7 == 79 && field w 8 2 != 1 && (field w 8 2 != 0 || s.boot.solitary))) = true := by
    rcases hd with hd | ⟨hd, h1, h0⟩
    · simp [hd]
    · by_cases hz : field w 8 2 = 0 <;> simp_all
  rw [pwrCommand, globalCmd_run h]
  dsimp only
  rw [checked_ok (by simp [hb, ht, hdomain, hf])]
  simp [powerCommanded]

theorem getDom_powerCommanded (s : State) (d : Nat) (t : PowerSt) (e : Nat) : getDom (powerCommanded s d t) e =
    if e = d then { getDom s d with target := t, cmd := t } else getDom s e :=
  Eq.trans (getDom_congr (s := updDom s d fun x => { x with target := t, cmd := t }) rfl e) (getDom_updDom s d e _)

/-! POWER_ACK (R112, R434). -/

/-- Domain `d` is in state `t`, with no request outstanding. -/
def powerAcked (s : State) (d : Nat) (t : PowerSt) : State :=
  updDom s d fun x => { x with req := none, st := t, cycle := x.cycle && t != .off }

/-- The units of domain `d` follow it from state `was` to `t` (R432, R434). -/
def unitsFollow (s : State) (d : Nat) (was t : PowerSt) : State :=
  let s := if d < 64 && was = .off && t = .on then forEach (pairCores d) s coreUp else s
  let s := if t = .off then domainDown s d else s
  if d = 77 && was = .off && t = .on then updPwr s fun u => { u with wfi := setBit (setBit u.wfi 2 false) 3 false } else s

/-- The link follows domain 79 (R504). -/
def linkFollows (s : State) (d : Nat) (t : PowerSt) : State :=
  let s := if d = 79 && t = .on && running s && canTrain s then trainBegin s false else s
  if d = 79 && t = .off then trailOff s else s

theorem powerAck_eq {s : State} {d : Nat} {t : PowerSt} (h : (getDom s d).req = some t) : powerAck s d =
    commandDone (linkFollows (unitsFollow (powerAcked s d t) d (getDom s d).st t) d t) d := by
  simp only [powerAck, h]
  rfl

theorem powerAck_idle {s : State} {d : Nat} (h : (getDom s d).req = none) : powerAck s d = s := by
  simp only [powerAck, h]

theorem linkFollows_frame {K : Keep} (s : State) (d : Nat) (t : PowerSt) (_ : K.err = false) (_ : K.rings = false)
    (_ : K.trl = false) (_ : K.out = false) : obs K (linkFollows s d t) = obs K s := by
  simp [linkFollows, *]

/-- Of the power unit, what follows an acknowledgement changes the WFI bits alone. -/
theorem unitsFollow_pwr (s : State) (d : Nat) (was t : PowerSt) : ∃ m, (unitsFollow s d was t).pwr = { s.pwr with wfi := m } := by
  have hunits : ∀ u : State, u.pwr = s.pwr → (if t = .off then domainDown u d else u).pwr = s.pwr := fun u hu =>
    (obs_pwr (K := { Keep.none with pwr := true }) (by simp [Keep.none])).trans hu
  have hcores : (if d < 64 && was = .off && t = .on then forEach (pairCores d) s coreUp else s).pwr = s.pwr :=
    obs_pwr (K := { Keep.none with pwr := true }) (by simp [Keep.none])
  unfold unitsFollow
  dsimp only
  split
  · exact ⟨_, by rw [updPwr, hunits _ hcores]⟩
  · exact ⟨s.pwr.wfi, hunits _ hcores⟩

/-- What an acknowledgement leaves of the power unit before PWR_RESULT. -/
theorem powerFollows_pwr (s : State) (d : Nat) (was t : PowerSt) :
    ∃ m, (linkFollows (unitsFollow (powerAcked s d t) d was t) d t).pwr = { (powerAcked s d t).pwr with wfi := m } := by
  have hlink : ∀ u : State, (linkFollows u d t).pwr = u.pwr := fun u =>
    obs_pwr (K := { Keep.none with pwr := true }) (linkFollows_frame u d t rfl rfl rfl rfl)
  rw [hlink]
  exact unitsFollow_pwr _ d was t

theorem commandDone_domains (s : State) (d : Nat) : (commandDone s d).pwr.domains = s.pwr.domains := by
  unfold commandDone
  split <;> rfl

theorem commandDone_open {s : State} {d : Nat} (ho : s.pwr.cmdOpen = true) (hd : d = s.pwr.domain)
    (h : (getDom s d).st = (getDom s d).cmd) : (commandDone s d).pwr.done = true := by
  subst hd
  rw [commandDone, if_pos (by simp [ho, h])]
  rfl

theorem commandDone_closed {s : State} {d : Nat} (ho : s.pwr.cmdOpen = false) : commandDone s d = s := by
  simp [commandDone, ho]

theorem getDom_powerAck {s : State} {d : Nat} {t : PowerSt} (h : (getDom s d).req = some t) (e : Nat) :
    getDom (powerAck s d) e = getDom (powerAcked s d t) e := by
  obtain ⟨m, hpwr⟩ := powerFollows_pwr s d (getDom s d).st t
  rw [powerAck_eq h, getDom_congr (commandDone_domains _ d), getDom, hpwr, getDom]

theorem getCore_coreUp (s : State) (c e : Nat) : getCore (coreUp s c) e =
    if e = c ∧ coreFailed s c = false then { getCore s c with
      freeze := true, frozen := true, rst := true, wantReset := false, stopNext := false, resetTicks := 0, passes := [] }
    else getCore s e := by
  unfold coreUp
  split
  next h => rw [if_neg (by simp [h])]
  next h =>
    have hemit : ∀ (u : State) (x y : Output), getCore (emit (emit u x) y) e = getCore u e := fun _ _ _ => rfl
    dsimp only
    rw [hemit, getCore_updCore]
    simp [h]

theorem coreFailed_coreUp (s : State) (c e : Nat) : coreFailed (coreUp s c) e = coreFailed s e :=
  coreFailed_congr (obs_err (K := { Keep.none with err := true }) (by simp [Keep.none])) e

/-- The cores of a pair that comes On are in reset and frozen, with no pass (R432). -/
theorem getCore_pairUp {s : State} {d c : Nat} (hc : c ∈ [2 * d, 2 * d + 1]) (hf : coreFailed s c = false) :
    (getCore (forEach (pairCores d) s coreUp) c).rst = true ∧ (getCore (forEach (pairCores d) s coreUp) c).frozen = true ∧
      (getCore (forEach (pairCores d) s coreUp) c).freeze = true ∧ (getCore (forEach (pairCores d) s coreUp) c).passes = [] := by
  have heach : forEach (pairCores d) s coreUp = coreUp (coreUp s (2 * d)) (2 * d + 1) := rfl
  rw [heach, getCore_coreUp, getCore_coreUp]
  simp only [List.mem_cons, List.not_mem_nil, or_false] at hc
  rcases hc with rfl | rfl
  · simp [getCore_coreUp, hf]
  · simp [coreFailed_coreUp, hf]

theorem getCore_powerAck_pair {s : State} {d : Nat} {t : PowerSt} (h : (getDom s d).req = some t) (hd : d < 64)
    (hoff : (getDom s d).st = .off) (hon : t = .on) (c : Nat) :
    getCore (powerAck s d) c = getCore (forEach (pairCores d) (powerAcked s d t) coreUp) c := by
  have hunits : unitsFollow (powerAcked s d t) d (getDom s d).st t = forEach (pairCores d) (powerAcked s d t) coreUp := by
    have h77 : d ≠ 77 := by omega
    simp [unitsFollow, hd, hoff, hon, h77]
  have hdone : ∀ u : State, (commandDone (linkFollows u d t) d).sch = u.sch := fun u =>
    (obs_sch (K := { Keep.none with sch := true }) (by simp [Keep.none])).trans
      (obs_sch (K := { Keep.none with sch := true }) (linkFollows_frame u d t rfl rfl rfl rfl))
  rw [powerAck_eq h, getCore_congr (hdone _), hunits]

/-- Settles O37: each command's effect on its domain, and what follows an acknowledgement. -/
theorem powerDomainsMove : Obligations.PowerDomainsMove := by
  refine ⟨fun s q w hq hb ht hd hf => ?command, fun s d h => ?idle, fun s d p h1 h2 hp => ?ack, fun s c hc => ?wfi⟩
  case command =>
    refine ⟨_, congrArg Host.Outcome.next (pwrCommand_accepted hq hb ht hd hf), rfl, ?_, ?_, ?_, ?_, fun d hne => ?_, ?_⟩
    · rw [recordStatus_pwr]
      rfl
    · rw [recordStatus_pwr]
      rfl
    · rw [getDom_recordStatus]
      exact (getDom_powerCommanded _ _ _ _).trans (if_pos rfl)
    · rw [recordStatus_pwr]
      simp [powerCommanded, updPwr]
    · rw [getDom_recordStatus]
      exact (getDom_powerCommanded _ _ _ _).trans (if_neg hne)
    · rfl
  case idle =>
    refine congrArg Host.Outcome.next ?_
    rw [heard, powerAck_idle h, ite_self]
  case ack =>
    obtain ⟨m, hpwr⟩ := powerFollows_pwr s d (getDom s d).st p
    have hdoms := getDom_powerAck hp
    have hself : getDom (powerAcked s d p) d = { getDom s d with req := none, st := p, cycle := (getDom s d).cycle && p != .off } :=
      (getDom_updDom _ _ _ _).trans (if_pos rfl)
    have hobs : obs { Keep.none with clr := true, ctx := true, tasks := true, img := true, mbx := true } (powerAck s d) =
        obs { Keep.none with clr := true, ctx := true, tasks := true, img := true, mbx := true } s := by simp [Keep.none]
    refine ⟨powerAck s d, congrArg Host.Outcome.next (heard_eq (inert_eq_false h1 h2) _), ?_, ?_, ?_, ?_, fun hopen hd hcmd => ?_,
      fun hopen => ?_, fun hd hoff hon c hc hcf => ?_, fun e he => ?_, obs_clr hobs, obs_ctx hobs, obs_tasks hobs, obs_img hobs,
      obs_mbx hobs⟩
    iterate 4 rw [hdoms, hself]
    · have hdom : getDom (linkFollows (unitsFollow (powerAcked s d p) d (getDom s d).st p) d p) d = getDom (powerAcked s d p) d := by
        rw [getDom, hpwr, getDom]
      rw [powerAck_eq hp, commandDone_open (by rw [hpwr]; exact hopen) (by rw [hpwr]; exact hd) (by rw [hdom, hself]; exact hcmd)]
    · rw [powerAck_eq hp, commandDone_closed (by rw [hpwr]; exact hopen), hpwr]
      rfl
    · rw [getCore_powerAck_pair hp hd hoff hon]
      exact getCore_pairUp hc hcf
    · have hother : getDom (powerAcked s d p) e = getDom s e := (getDom_updDom _ _ _ _).trans (if_neg he)
      rw [hdoms, hother]
      exact ⟨rfl, rfl⟩
  case wfi =>
    refine ⟨coreWfi s c, rfl, ?_⟩
    have hc' : (decide (c = 2) || decide (c = 3)) = true := by simpa using hc
    rw [coreWfi, if_pos hc']
    refine ⟨?_, (getDom_updDom _ _ _ _).trans (if_pos rfl), fun d hne => (getDom_updDom _ _ _ _).trans (if_neg hne), rfl⟩
    exact (getLsbD_setBit s.pwr.wfi c c (by omega)).trans (by simp)

end Sys2Proof.Machine
end

/-! PROOFS. An engine that fences itself with its fourth fault while a PUBLISH waits for an engine: the rewrites
that the PUBLISH leaves take presentations of their own (R268, R295), so that the count of presentations moves. -/
section
namespace Sys2Proof.Machine

/-- Row 3 of table 9 is published and its bitmap granule is still to be written. -/
def rowToRewrite : Chg := ⟨9, 3, true, true, 4, false, 0, false, 5⟩

/-- Clearing 5 with its one engine, engine 3, faulted three times, and a PUBLISH that has published and waits for an
engine. -/
def publishAwaitsEngine : State :=
  updTbl (updEngine (withTable (withEnvs liveState [{ envOf 0x21 with st := .unassigned, phase := 1 }])) 3
    fun x => { x with faults := [0, 0, 0] }) fun u => { u with chg := [rowToRewrite] }

/-- The granule's rewrite is entered as the engine's fourth fault leaves the clearing without an engine. -/
theorem engineFault_publishAwaitsEngine_accNext : (engineFault publishAwaitsEngine 3 1).accNext = 1 := by decide

/-- Refutes O51: the fourth fault of the only engine of a clearing ends a PUBLISH that waits for an engine, whose
rewrite of the bitmap is a new presentation: `accNext` moves, which the clause on ENGINE_INTERNAL_FAULT keeps. -/
theorem not_coresAndEnginesFreezeResetAndReport : ¬ Obligations.CoresAndEnginesFreezeResetAndReport := by
  intro ⟨_, _, hfault, _⟩
  obtain ⟨t, hstep, _, _, _, _, hkept⟩ := hfault publishAwaitsEngine 3 1 (by decide) (by decide)
  have ht : engineFault publishAwaitsEngine 3 1 = t := Host.Outcome.next.inj hstep
  have hcount : t.accNext = publishAwaitsEngine.accNext := (congrArg State.accNext hkept :)
  rw [← ht, engineFault_publishAwaitsEngine_accNext] at hcount
  exact absurd hcount (by decide)
end Sys2Proof.Machine
end

section
/-! PROOFS. Passes: their issue, their end, and the jobs that they fault (R321, R329, R333). -/

namespace Sys2Proof.Machine

/-! What the end of a job leaves of the cores and the accounts. -/

theorem getJob_congr {s t : State} (h : t.sch = s.sch) (j : Nat) : getJob t j = getJob s j := by
  rw [getJob, h, getJob]

theorem jobEnd_sch {s : State} {j : Nat} {x : Job} (h : getJob s j = some x) :
    (jobEnd s j).sch = (updJob s j fun x => { x with st := .ended }).sch := by
  simp only [jobEnd, h]
  exact obs_sch (K := { Keep.none with sch := true }) (by simp [Keep.none])

/-- A job that settles ends or stays as it is. -/
theorem jobSettle_sch (s : State) (j : Nat) : (jobSettle s j).sch = s.sch ∨
    (jobSettle s j).sch = (updJob s j fun x => { x with st := .ended }).sch := by
  unfold jobSettle
  split
  · exact .inl rfl
  next x hx =>
    split
    · exact .inr (jobEnd_sch hx)
    · exact .inl rfl

theorem getCore_jobSettle (s : State) (j c : Nat) : getCore (jobSettle s j) c = getCore s c := by
  rcases jobSettle_sch s j with h | h <;> rw [getCore_congr h]
  rfl

theorem jobSettle_acct (s : State) (j : Nat) : (jobSettle s j).sch.acct = s.sch.acct := by
  rcases jobSettle_sch s j with h | h <;> rw [h]
  rfl

/-! A core that fails (R468, R469). -/

/-- Core `c` is recorded as failed for `reason`. -/
def coreMarked (s : State) (c reason : Nat) : State :=
  let s := raise s (coreRec s qsErrCoreFailed 1 c reason 0 0)
  { s with err := { s.err with failedCores := setBit s.err.failedCores c true } }

/-- It is frozen and held in reset. -/
def coreFenced (s : State) (c reason : Nat) : State :=
  let s := updCore (coreMarked s c reason) c fun k => { k with freeze := true, rst := true, wantReset := false, stopNext := false }
  emit (emit s (.coreFreeze c true)) (.coreReset c true)

/-- Its job goes on without it or ends. -/
def coreLeaves (s : State) (c : Nat) : State :=
  match (getCore s c).job with
  | none => s
  | some j => match getJob s j with
    | none => s
    | some x =>
      if x.st = .claimant then
        let s := updJob (accrue s j) j fun x => { x with held := x.held.erase c }
        placeSoon (updCore s c fun k => { k with job := none, passes := [] }) x.n
      else jobStop s j qsSchCoreLost false c none

/-- The manifest of the clearing that owns it tells of the loss. -/
def coreLossReported (s : State) (c : Nat) : State :=
  match coreOwner s c with
  | some n => issueManifest (degrade s n) n
  | none => s

theorem failCore_eq (s : State) (c reason : Nat) : failCore s c reason =
    if coreFailed s c then s else coreLossReported (coreLeaves (coreFenced s c reason) c) c := rfl

theorem coreMarked_sch (s : State) (c reason : Nat) : (coreMarked s c reason).sch = s.sch :=
  obs_sch (K := { Keep.none with sch := true }) (raise_frame _ _ rfl rfl)

theorem coreLossReported_sch (s : State) (c : Nat) : (coreLossReported s c).sch = s.sch := by
  unfold coreLossReported
  split
  · exact obs_sch (K := { Keep.none with sch := true }) (by simp [Keep.none])
  · rfl

/-- The job of a core that fails is stopped, unless it still claims cores. -/
theorem coreLeaves_of_job {s : State} {c j : Nat} {x : Job} (hc : (getCore s c).job = some j) (hx : getJob s j = some x)
    (hst : x.st ≠ .claimant) : coreLeaves s c = jobStop s j qsSchCoreLost false c none := by
  simp only [coreLeaves, hc, hx, if_neg hst]

/-! A job that has been stopped for its code, on a core that keeps its passes. -/

/-- Job `j`, which core `c` runs, ends or has ended with `code`; the core's passes are `ps` and the accounts `a`. -/
structure JobOver (s : State) (c j : Nat) (code : Code) (ps : List PassRun) (a : Tab CtxAcct) : Prop where
  passes : (getCore s c).passes = ps
  job : (getCore s c).job = some j
  acct : s.sch.acct = a
  ends : ∃ y, getJob s j = some y ∧ y.code = code ∧ (y.st = .ending ∨ y.st = .ended)

section
variable {s : State} {c j : Nat} {code : Code} {ps : List PassRun} {a : Tab CtxAcct}

theorem JobOver.congr {t : State} (h : JobOver s c j code ps a) (hs : t.sch = s.sch) : JobOver t c j code ps a :=
  ⟨by rw [getCore_congr hs, h.passes], by rw [getCore_congr hs, h.job], by rw [hs, h.acct], by rw [getJob_congr hs]; exact h.ends⟩

theorem JobOver.updCore (h : JobOver s c j code ps a) (d : Nat) {f : Core → Core} (hp : ∀ k, (f k).passes = k.passes)
    (hj : ∀ k, (f k).job = k.job) : JobOver (updCore s d f) c j code ps a := by
  refine ⟨?_, ?_, h.acct, h.ends⟩
  · rw [getCore_updCore]
    split
    next hd => rw [hp, ← hd, h.passes]
    · exact h.passes
  · rw [getCore_updCore]
    split
    next hd => rw [hj, ← hd, h.job]
    · exact h.job

theorem JobOver.freezeSoon (h : JobOver s c j code ps a) (d : Nat) : JobOver (freezeSoon s d) c j code ps a := by
  unfold Machine.freezeSoon
  split
  · exact h
  · exact h.updCore d (fun _ => rfl) fun _ => rfl

theorem JobOver.forEach {α : Type} {f : State → α → State} (hf : ∀ s x, JobOver s c j code ps a → JobOver (f s x) c j code ps a) :
    ∀ (xs : List α) {s : State}, JobOver s c j code ps a → JobOver (forEach xs s f) c j code ps a
  | [], _, h => h
  | x :: xs, _, h => JobOver.forEach hf xs (hf _ x h)

theorem JobOver.jobEnd (h : JobOver s c j code ps a) : JobOver (jobEnd s j) c j code ps a := by
  obtain ⟨y, hy, hcode, hst⟩ := h.ends
  refine JobOver.congr (s := updJob s j fun x => { x with st := .ended }) ?_ (jobEnd_sch hy)
  exact ⟨h.passes, h.job, h.acct, { y with st := .ended }, by simp [hy], hcode, .inr rfl⟩

theorem JobOver.jobSettle (h : JobOver s c j code ps a) : JobOver (jobSettle s j) c j code ps a := by
  obtain ⟨y, hy, _⟩ := h.ends
  simp only [Machine.jobSettle, hy]
  split
  · exact h.jobEnd
  · exact h

/-- A further stop of it changes no code. -/
theorem JobOver.jobStop (h : JobOver s c j code ps a) (code' : Code) (expired : Bool) (core : Nat) (keep : Option Nat) :
    JobOver (jobStop s j code' expired core keep) c j code ps a := by
  obtain ⟨y, hy, _, hst | hst⟩ := h.ends
  · simp only [Machine.jobStop, hy, hst]
    split
    · refine JobOver.forEach (fun s d h => ?_) _ h
      split
      · exact h
      · exact h.freezeSoon d
    · exact h
  · simp only [Machine.jobStop, hy, hst]
    exact h

theorem JobOver.failCore (h : JobOver s c j code ps a) (reason : Nat) : JobOver (failCore s c reason) c j code ps a := by
  rw [failCore_eq]
  split
  · exact h
  · have hmarked : JobOver (coreMarked s c reason) c j code ps a := h.congr (coreMarked_sch s c reason)
    have hfenced : JobOver (coreFenced s c reason) c j code ps a :=
      JobOver.congr (hmarked.updCore c (f := fun k => { k with freeze := true, rst := true, wantReset := false, stopNext := false })
        (fun _ => rfl) fun _ => rfl) rfl
    obtain ⟨y, hy, _, hst⟩ := hfenced.ends
    have hclaims : y.st ≠ .claimant := by rcases hst with hst | hst <;> simp [hst]
    refine JobOver.congr ?_ (coreLossReported_sch _ c)
    rw [coreLeaves_of_job hfenced.job hy hclaims]
    exact hfenced.jobStop _ _ _ _

theorem JobOver.arrayFault (h : JobOver s c j code ps a) : JobOver (arrayFault s c) c j code ps a := by
  unfold Machine.arrayFault
  have hcounted := h.updCore c (f := fun k => { k with faults := faultAdd s k.faults }) (fun _ => rfl) fun _ => rfl
  dsimp only
  split
  · exact hcounted.failCore 2
  · exact hcounted

/-- A started job that is stopped ends with the code. -/
theorem jobOver_jobStop_started {x : Job} (hc : (getCore s c).job = some j) (hx : getJob s j = some x) (hst : x.st = .started)
    (code : Code) (expired : Bool) (core : Nat) (keep : Option Nat) :
    JobOver (jobStop s j code expired core keep) c j code (getCore s c).passes s.sch.acct := by
  simp only [Machine.jobStop, hx, hst]
  refine JobOver.forEach (fun s d h => ?_) _ ?_
  · split
    · exact h
    · exact h.freezeSoon d
  · exact ⟨rfl, hc, rfl, { x with code := code, expired := expired, core := core, st := .ending }, by simp [hx], rfl, .inl rfl⟩
end

/-! Passes that fail their job (R333, R334). -/

/-- The code of a job whose pass ends with `status`; 0xFF is the watchdog's. -/
def passCode (status : Nat) : Code :=
  if status = 0xFF then qsSchPassTimeout else if status = 2 then qsSchPassPoisoned else qsSchPassFault

theorem jobOver_passFault {s : State} {c j : Nat} {x : Job} (hc : (getCore s c).job = some j) (hx : getJob s j = some x)
    (hst : x.st = .started) (status tag : Nat) :
    JobOver (passFault s j c status tag) c j (passCode status) (getCore s c).passes s.sch.acct := by
  have hsch : ∀ r, (raise s r).sch = s.sch := fun r => obs_sch (K := { Keep.none with sch := true }) (raise_frame s r rfl rfl)
  have heq : passFault s j c status tag =
      let u := jobStop (raise s (coreRec s (passCode status) 2 c status tag 0)) j (passCode status) false c
        (if status = 0xFF then none else some c)
      if status = 2 then u else arrayFault u c := by
    simp only [passFault, hx]
    rfl
  rw [heq]
  dsimp only
  have hstopped : ∀ r keep, JobOver (jobStop (raise s r) j (passCode status) false c keep) c j (passCode status)
      (getCore s c).passes s.sch.acct := fun r keep => by
    rw [← getCore_congr (hsch r), ← hsch r]
    exact jobOver_jobStop_started (by rw [getCore_congr (hsch r), hc]) (by rw [getJob_congr (hsch r), hx]) hst _ _ _ _
  by_cases h2 : status = 2
  · rw [if_pos h2]
    exact hstopped _ _
  · rw [if_neg h2]
    exact (hstopped _ _).arrayFault

/-! The end of a pass (R329). -/

/-- The pass at `tag` on a core ends at `now`. -/
def passEnds (now tag : Nat) (drained : Bool) (k : Core) : Core := { k with
  drained := drained, passes := k.passes.map fun p => if p.pos = tag then { p with ended := some now } else p }

/-- The pass at `tag` on core `c` has ended and is counted to the context of job `x`. -/
def passEnded (s : State) (c tag : Nat) (drained : Bool) (x : Job) : State :=
  updAcct (updCore s c (passEnds (nowCclk s) tag drained)) x.ctx fun a => { a with passes := a.passes + 1 }

/-- A pass of a fixed clearing that outlasts its bound is an overrun (R329). -/
def overrunNoted (s : State) (c tag : Nat) (x : Job) (r : PassRun) : State :=
  let bound := arrayStart s x r + (match passOf s x r.pos with
    | some p => p.wcet
    | none => 0)
  if (getClr s x.n).cfg.fixed && bound < nowCclk s then overrunRec s x.n c tag (nowCclk s - bound) else s

theorem passDone_eq {s : State} {c j tag : Nat} {x : Job} {r : PassRun} (hf : coreFailed s c = false) (hc : (getCore s c).job = some j)
    (hx : getJob s j = some x) (hr : ((getCore s c).passes.find? fun p => p.pos == tag && p.ended.isNone) = some r)
    (status : Nat) (drained : Bool) : passDone s c tag status drained =
    let u := overrunNoted (passEnded s c tag drained x) c tag x r
    jobSettle (if status = 0 then u
      else if (getCore s c).rst then (if status = 1 || 3 < status then arrayFault u c else u)
      else passFault u j c status tag) j := by
  simp only [passDone, hf, hc, hx, hr]
  rfl

theorem overrunNoted_frame {K : Keep} (s : State) (c tag : Nat) (x : Job) (r : PassRun) (_ : K.err = false) (_ : K.rings = false)
    (_ : K.swin = false) : obs K (overrunNoted s c tag x r) = obs K s := by
  simp [overrunNoted, *]

theorem overrunNoted_sch (s : State) (c tag : Nat) (x : Job) (r : PassRun) : (overrunNoted s c tag x r).sch = s.sch :=
  obs_sch (K := { Keep.none with sch := true }) (overrunNoted_frame s c tag x r rfl rfl rfl)

theorem getCore_passEnded (s : State) (c tag : Nat) (drained : Bool) (x : Job) (b : Nat) : getCore (passEnded s c tag drained x) b =
    if b = c then passEnds (nowCclk s) tag drained (getCore s c) else getCore s b := getCore_updCore s c b _

theorem acct_passEnded (s : State) (c tag : Nat) (drained : Bool) (x : Job) :
    (tabGet ctxAcct0 (passEnded s c tag drained x).sch.acct x.ctx).passes = (tabGet ctxAcct0 s.sch.acct x.ctx).passes + 1 := by
  simp [passEnded, updAcct, updSch, updCore]

theorem ended_of_mem_passEnded {s : State} {c tag : Nat} {drained : Bool} {x : Job} {p : PassRun}
    (hp : p ∈ (getCore (passEnded s c tag drained x) c).passes) (ht : p.pos = tag) : p.ended = some (nowCclk s) := by
  rw [getCore_passEnded, if_pos rfl] at hp
  obtain ⟨q, _, rfl⟩ := List.mem_map.1 hp
  split at ht
  next hq => rw [if_pos hq]
  next hq => exact absurd ht hq

/-! The issue of a pass (R321, R327). -/

/-- The pass at the core's next position may be issued now: its barrier is met, or its time has come. -/
def passDue (s : State) (c : Nat) (x : Job) (p : PassInfo) : Bool :=
  if (getClr s x.n).cfg.fixed then
    (match issueCclk s x c (getCore s c).passes.length p with
      | some t => decide (t ≤ nowCclk s)
      | none => false)
  else !p.barrier || (getCore s c).passes.length == 0 || (allEnded s x ((getCore s c).passes.length - 1)).isSome

theorem passDue_iff {s : State} {c : Nat} {x : Job} {p : PassInfo} : passDue s c x p = true ↔
    ((getClr s x.n).cfg.fixed = false ∧ (p.barrier = false ∨ (getCore s c).passes.length = 0 ∨
      (allEnded s x ((getCore s c).passes.length - 1)).isSome = true)) ∨
    ((getClr s x.n).cfg.fixed = true ∧ ∃ a, issueCclk s x c (getCore s c).passes.length p = some a ∧ a ≤ nowCclk s) := by
  unfold passDue
  cases (getClr s x.n).cfg.fixed
  · simp [or_assoc]
  · cases issueCclk s x c (getCore s c).passes.length p <;> simp

/-- The pass described by `p` is the first of core `c`. -/
def passIssued (s : State) (c : Nat) (x : Job) (p : PassInfo) : State :=
  let pos := (getCore s c).passes.length
  emit (updCore s c fun k => { k with passes := ⟨pos, nowCclk s, none, 0⟩ :: k.passes, started := k.started + 1 })
    (.pass c pos (passAddr s x p) p.fence)

/-- More passes than the clearing's work allows are an overrun. -/
def peakNoted (s : State) (c pos n : Nat) : State :=
  match (getClr s n).cfg.work with
  | some w => if (getClr s n).cfg.fixed && w.passesPeak < (getCore s c).started then overrunRec s n c pos 0 else s
  | none => s

theorem peakNoted_frame {K : Keep} (s : State) (c pos n : Nat) (_ : K.err = false) (_ : K.rings = false)
    (_ : K.swin = false) : obs K (peakNoted s c pos n) = obs K s := by
  unfold peakNoted
  split
  · simp [*]
  · rfl

theorem passIssue_eq {s : State} {c j : Nat} {x : Job} {p : PassInfo} (hc : (getCore s c).job = some j) (hx : getJob s j = some x)
    (hp : passOf s x (getCore s c).passes.length = some p) (hst : x.st = .started) (hmore : (getCore s c).passes.length < x.count)
    (hfreeze : (getCore s c).freeze = false) (hfrozen : (getCore s c).frozen = false) (hrst : (getCore s c).rst = false)
    (hf : coreFailed s c = false) (hon : domainOn s (c / 2) = true) (hls : lsFrozen s x.n = false)
    (htwo : ((getCore s c).passes.filter fun r => r.ended.isNone).length < 2) (hdue : passDue s c x p = true) :
    passIssue s c = peakNoted (passIssued s c x p) c (getCore s c).passes.length x.n := by
  unfold passDue at hdue
  simp only [passIssue, hc, hx, hp]
  have hready : (x.st == .started && decide ((getCore s c).passes.length < x.count) && !(getCore s c).freeze && !(getCore s c).frozen &&
      !(getCore s c).rst && !coreFailed s c && domainOn s (c / 2) && !lsFrozen s x.n &&
      decide (((getCore s c).passes.filter fun r => r.ended.isNone).length < 2)) = true := by
    simp [hst, hmore, hfreeze, hfrozen, hrst, hf, hon, hls, htwo]
  exact if_pos (Bool.and_eq_true_iff.2 ⟨hready, hdue⟩)

theorem getCore_peakNoted (s : State) (c pos n b : Nat) : getCore (peakNoted s c pos n) b = getCore s b :=
  getCore_congr (obs_sch (K := { Keep.none with sch := true }) (peakNoted_frame s c pos n rfl rfl rfl)) b

/-- A pass that ends well, of a job that may settle with it. -/
def passWell (s : State) (c j tag : Nat) (drained : Bool) (x : Job) (r : PassRun) : State :=
  jobSettle (overrunNoted (passEnded s c tag drained x) c tag x r) j

theorem getCore_passWell (s : State) (c j tag : Nat) (drained : Bool) (x : Job) (r : PassRun) (b : Nat) :
    getCore (passWell s c j tag drained x r) b = getCore (passEnded s c tag drained x) b := by
  rw [passWell, getCore_jobSettle, getCore_congr (overrunNoted_sch _ c tag x r)]

theorem acct_passWell (s : State) (c j tag : Nat) (drained : Bool) (x : Job) (r : PassRun) :
    (passWell s c j tag drained x r).sch.acct = (passEnded s c tag drained x).sch.acct := by
  rw [passWell, jobSettle_acct, overrunNoted_sch]

theorem passWell_frame {K : Keep} (s : State) (c j tag : Nat) (drained : Bool) (x : Job) (r : PassRun) (_ : K.err = false)
    (_ : K.rings = false) (_ : K.queues = false) (_ : K.tasks = false) (_ : K.sch = false) (_ : K.qwin = false)
    (_ : K.swin = false) : obs K (passWell s c j tag drained x r) = obs K s := by
  rw [passWell, jobSettle_frame, overrunNoted_frame _ _ _ _ _ ‹_› ‹_› ‹_›]
  simp [passEnded, *]

/-- The parts beside the pass engine that a pass at fault leaves as they are. -/
def keepsUnits : Keep := { Keep.none with img := true, cal := true, ctx := true, xlt := true, key := true, mbx := true }

theorem units_of_obs {s t : State} (h : obs keepsUnits t = obs keepsUnits s) :
    t.img = s.img ∧ t.cal = s.cal ∧ t.ctx = s.ctx ∧ t.xlt = s.xlt ∧ t.key = s.key ∧ t.mbx = s.mbx :=
  ⟨obs_img h, obs_cal h, obs_ctx h, obs_xlt h, obs_key h, obs_mbx h⟩

theorem passFault_units (s : State) (j c status tag : Nat) : obs keepsUnits (passFault s j c status tag) = obs keepsUnits s := by
  simp [keepsUnits, Keep.none]

theorem passDone_units (s : State) (c tag status : Nat) (drained : Bool) :
    obs keepsUnits (passDone s c tag status drained) = obs keepsUnits s := by
  simp [keepsUnits, Keep.none]

/-- Settles O50: a pass is issued, ends, and stops its job, which keeps the code through the core's failure and through
its own end. -/
theorem passesIssueAndEnd : Obligations.PassesIssueAndEnd := by
  refine ⟨?_, ?_, ?_⟩
  · intro s c j x p hc hx hp hst hmore hfreeze hfrozen hrst hf hon hls htwo hdue
    have hissue := passIssue_eq hc hx hp hst hmore hfreeze hfrozen hrst hf hon hls htwo (passDue_iff.2 hdue)
    refine ⟨_, rfl, ?_⟩
    rw [hissue]
    refine ⟨?_, ?_, fun d hd => ?_, fun i => ?_, ?_⟩
    · rw [getCore_peakNoted]
      exact (getCore_updCore s c c _).trans (if_pos rfl)
    · exact (obs_out (K := { Keep.none with out := true }) (peakNoted_frame (passIssued s c x p) _ _ _ rfl rfl rfl) :)
    · rw [getCore_peakNoted]
      exact (getCore_updCore s c d _).trans (if_neg hd)
    · exact getJob_congr (s := passIssued s c x p)
        (obs_sch (K := { Keep.none with sch := true }) (peakNoted_frame _ _ _ _ rfl rfl rfl)) i
    · exact eq_mergeKept (K := { Keep.all with sch := false, out := false, err := false, rings := false, swin := false })
        (peakNoted_frame (passIssued s c x p) c _ x.n rfl rfl rfl)
  · intro s c j tag st d x r hi hf hc hx hr
    have hdone := passDone_eq hf hc hx hr
    refine ⟨fun hz => ?_, fun hz h16 hrst hst => ?_⟩
    · refine ⟨passWell s c j tag d x r, ?_, ?_, fun p hp ht => ?_, ?_, ?_, fun b hb => ?_, ?_⟩
      · show Host.Outcome.next (heard s fun s => passDone s c tag st d) = _
        rw [heard_eq hi, hdone, hz]
        rfl
      · rw [getCore_passWell, getCore_passEnded, if_pos rfl]
        rfl
      · rw [getCore_passWell] at hp
        exact ended_of_mem_passEnded hp ht
      · rw [getCore_passWell, getCore_passEnded, if_pos rfl]
        exact List.length_map _
      · rw [acct_passWell, acct_passEnded]
      · rw [getCore_passWell, getCore_passEnded, if_neg hb]
      · exact eq_mergeKept (K := { Keep.all with
          sch := false, err := false, rings := false, queues := false, tasks := false, qwin := false, swin := false })
          (passWell_frame s c j tag d x r rfl rfl rfl rfl rfl rfl rfl)
    · have hnoted := overrunNoted_sch (passEnded s c tag d x) c tag x r
      have hover := (jobOver_passFault (s := overrunNoted (passEnded s c tag d x) c tag x r) (c := c) (j := j) (x := x)
        (by rw [getCore_congr hnoted, getCore_passEnded, if_pos rfl]; exact hc) (by rw [getJob_congr hnoted]; exact hx) hst
        st tag).jobSettle
      rw [getCore_congr hnoted, hnoted] at hover
      obtain ⟨hpasses, -, hacct, y, hy, hcode, hends⟩ := hover
      have hfault : passDone s c tag st d = jobSettle (passFault (overrunNoted (passEnded s c tag d x) c tag x r) j c st tag) j := by
        rw [hdone]
        simp only [hz, hrst, if_false, Bool.false_eq_true]
      rw [← hfault] at hpasses hacct hy
      have hnext : exec (.passDone c tag st d) s = .next (passDone s c tag st d) :=
        congrArg Host.Outcome.next (heard_eq hi fun s => passDone s c tag st d)
      refine ⟨_, y, hnext, hy, ?_, hends, fun p hp ht => ?_, ?_, units_of_obs (passDone_units s c tag st d)⟩
      · rw [hcode, passCode, if_neg (by omega)]
      · rw [hpasses] at hp
        exact ended_of_mem_passEnded hp ht
      · rw [hacct, acct_passEnded]
  · intro s c j x r hf hc hx hst hr
    obtain ⟨-, -, -, y, hy, hcode, hends⟩ := jobOver_passFault hc hx hst 0xFF r.pos
    have hnext : exec (.passWatchdog c) s = .next (passFault s j c 0xFF r.pos) := by
      show Host.Outcome.next (passWatchdog s c) = _
      simp only [passWatchdog, hc, hr, hf]
      rfl
    exact ⟨_, y, hnext, hy, hcode, hends, units_of_obs (passFault_units s j c 0xFF r.pos)⟩

end Sys2Proof.Machine
end

section
/-! PROOFS. Cores and engines fenced as failed, and the commands that fail them (R468, R469). -/

namespace Sys2Proof.Machine

/-! A core. -/

theorem coreLeaves_frame {K : Keep} (s : State) (c : Nat) (_ : K.queues = false) (_ : K.tasks = false) (_ : K.sch = false)
    (_ : K.qwin = false) (_ : K.swin = false) : obs K (coreLeaves s c) = obs K s := by
  unfold coreLeaves
  split
  · rfl
  · split
    · rfl
    · split <;> simp [*]

theorem coreLossReported_frame {K : Keep} (s : State) (c : Nat) (_ : K.clr = false) : obs K (coreLossReported s c) = obs K s := by
  unfold coreLossReported
  split
  · simp [*]
  · rfl

theorem raise_failedCores (s : State) (r : ErrRec) : (raise s r).err.failedCores = s.err.failedCores :=
  (congrArg ErrUnit.failedCores (raise_errLatches s r) :)

theorem raise_failedEngines (s : State) (r : ErrRec) : (raise s r).err.failedEngines = s.err.failedEngines :=
  (congrArg ErrUnit.failedEngines (raise_errLatches s r) :)

theorem failCore_err {s : State} {c : Nat} (h : coreFailed s c = false) (reason : Nat) :
    (failCore s c reason).err = (coreMarked s c reason).err := by
  have hleft : ∀ u, (coreLossReported (coreLeaves u c) c).err = u.err := fun u =>
    obs_err (K := { Keep.none with err := true })
      ((coreLossReported_frame _ c rfl).trans (coreLeaves_frame u c rfl rfl rfl rfl rfl))
  rw [failCore_eq, h, if_neg Bool.false_ne_true, hleft]
  rfl

theorem failedCores_failCore {s : State} {c : Nat} (h : coreFailed s c = false) (reason : Nat) :
    (failCore s c reason).err.failedCores = setBit s.err.failedCores c true := by
  rw [failCore_err h, coreMarked]
  exact congrArg (setBit · c true) (raise_failedCores s _)

theorem coreFailed_failCore {s : State} {c : Nat} (hc : c < 128) (reason b : Nat) :
    coreFailed (failCore s c reason) b = (coreFailed s b || decide (b = c)) := by
  cases h : coreFailed s c with
  | false =>
    rw [coreFailed, failedCores_failCore h, getLsbD_setBit _ _ _ hc, Bool.or_comm]
    rfl
  | true =>
    rw [failCore_eq, if_pos h]
    by_cases hb : b = c
    · rw [hb, h, Bool.true_or]
    · simp [hb]

theorem failCore_failedEngines (s : State) (c reason : Nat) : (failCore s c reason).err.failedEngines = s.err.failedEngines := by
  cases h : coreFailed s c with
  | false => rw [failCore_err h, coreMarked, raise_failedEngines]
  | true => rw [failCore_eq, if_pos h]

/-! An engine. -/

/-- Engine `g` is recorded as failed for `reason`. -/
def engineMarked (s : State) (g reason : Nat) : State :=
  let s := raise s (engineRec s qsErrEngineFailed 1 g reason)
  { s with err := { s.err with failedEngines := setBit s.err.failedEngines g true } }

/-- Its envelopes leave it, and the manifest of the clearing that owns it tells of the loss. -/
def engineLeft (s : State) (g : Nat) : State :=
  let s := leaveEngine (updEngine s g fun x => { x with resetting := false, resetTicks := 0 }) g qsErrEngineFailed
  match engineOwner s g with
  | some n => issueManifest (degrade (noEngineLeft s n) n) n
  | none => s

theorem failEngine_eq (s : State) (g reason : Nat) : failEngine s g reason =
    if engineFailed s g || 64 ≤ g then s else engineLeft (engineMarked s g reason) g := rfl

theorem engineLeft_err (s : State) (g : Nat) : (engineLeft s g).err = s.err := by
  refine obs_err (K := { Keep.none with err := true }) ?_
  unfold engineLeft
  dsimp only
  split <;> simp [Keep.none]

theorem failEngine_err {s : State} {g : Nat} (h : engineFailed s g = false) (hg : g < 64) (reason : Nat) :
    (failEngine s g reason).err = (engineMarked s g reason).err := by
  rw [failEngine_eq, if_neg (by simp [h, hg]), engineLeft_err]

theorem engineFailed_failEngine {s : State} {g : Nat} (hg : g < 64) (reason e : Nat) :
    engineFailed (failEngine s g reason) e = (engineFailed s e || decide (e = g)) := by
  cases h : engineFailed s g with
  | false =>
    rw [engineFailed, failEngine_err h hg, Bool.or_comm]
    refine (congrArg (fun m : BitVec 64 => (setBit m g true).getLsbD e) (raise_failedEngines s _)).trans ?_
    exact getLsbD_setBit _ _ _ hg
  | true =>
    rw [failEngine_eq, h, Bool.true_or, if_pos rfl]
    by_cases he : e = g
    · rw [he, h, Bool.true_or]
    · simp [he]

theorem failEngine_failedCores (s : State) (g reason : Nat) : (failEngine s g reason).err.failedCores = s.err.failedCores := by
  by_cases h : (engineFailed s g || decide (64 ≤ g)) = true
  · rw [failEngine_eq, if_pos h]
  · rw [failEngine_eq, if_neg h, engineLeft_err, engineMarked]
    exact raise_failedCores s _

/-! FAIL_CORE and FAIL_ENGINE. -/

/-- The operation that a command of ERR_CMD writes leaves the other fields and the reserved bits as they were. -/
theorem errCommand_word {w : Word} {op : Nat} (hop : op < 16) (hb : noBits w (bitsFrom 4 7 ||| bitsFrom 15 31 ||| bitsFrom 48 63) = true) :
    field (putField w 0 4 op) 0 4 = op ∧ field (putField w 0 4 op) 8 7 = field w 8 7 ∧
      field (putField w 0 4 op) 32 16 = field w 32 16 ∧
      noBits (putField w 0 4 op) (bitsFrom 4 7 ||| bitsFrom 15 31 ||| bitsFrom 48 63) = true := by
  refine ⟨?_, field_putField_other w op 8 7 (by decide) (by decide) (by decide),
    field_putField_other w op 32 16 (by decide) (by decide) (by decide), ?_⟩
  · rw [field_putField w op (by decide) (by decide)]
    exact Nat.mod_eq_of_lt hop
  · refine noBits_putField op (by decide) (by decide) hb fun i _ hi => ?_
    have : i < 4 := hi
    interval_cases i <;> decide

/-- ERR_RESULT of a command that is done. -/
def errFinished (u : State) : State := { u with err := { u.err with resDone := true, resCode := qsOk } }

section
variable {s : State} {q : Requester} {w : Word}

theorem errFailCore_ready (hq : reachesGlobal s q) (hb : noBits w (bitsFrom 4 7 ||| bitsFrom 15 31 ||| bitsFrom 48 63) = true)
    (hg : field w 32 16 = 0) (hf : coreFailed s (field w 8 7) = false) :
    exec (.errFailCore q w) s = .next (recordStatus (errFinished (failCore s (field w 8 7) 4)) none q qsOk) := by
  obtain ⟨hop, hunit, hgroup, hbits⟩ := errCommand_word (op := 4) (by decide) hb
  rw [exec, execErrFailCore, errCommand, globalCmd_run hq]
  simp only [hop, hunit, hgroup]
  rw [checked_ok (by simp [firstBad_cons, firstBad_nil, hbits, hg, hf])]
  rfl

theorem errFailEngine_ready (hq : reachesGlobal s q) (hb : noBits w (bitsFrom 4 7 ||| bitsFrom 15 31 ||| bitsFrom 48 63) = true)
    (hg : field w 32 16 = 0) (hu : field w 8 7 < 64) (hf : engineFailed s (field w 8 7) = false) :
    exec (.errFailEngine q w) s = .next (recordStatus (errFinished (failEngine s (field w 8 7) 4)) none q qsOk) := by
  obtain ⟨hop, hunit, hgroup, hbits⟩ := errCommand_word (op := 5) (by decide) hb
  rw [exec, execErrFailEngine, errCommand, globalCmd_run hq]
  simp only [hop, hunit, hgroup]
  rw [checked_ok (by simp [firstBad_cons, firstBad_nil, hbits, hg, hu, hf])]
  rfl
end

/-- What a command that fails a unit leaves of the units that own contexts, time and keys. -/
def keepsOwners : Keep :=
  { Keep.none with ctx := true, cal := true, img := true, xlt := true, key := true, clk := true }

theorem owners_of_obs {s t : State} (h : obs keepsOwners t = obs keepsOwners s) :
    t.ctx = s.ctx ∧ t.cal = s.cal ∧ t.img = s.img ∧ t.xlt = s.xlt ∧ t.key = s.key ∧ t.clk = s.clk :=
  ⟨obs_ctx h, obs_cal h, obs_img h, obs_xlt h, obs_key h, obs_clk h⟩

theorem errFinished_owners (u : State) (q : Requester) :
    obs keepsOwners (recordStatus (errFinished u) none q qsOk) = obs keepsOwners u :=
  (recordStatus_frame _ none q qsOk rfl rfl).trans (obs_set_err _ _ rfl)

end Sys2Proof.Machine
end

section
/-! PROOFS. A halted device: the latch and its cause stand through all that the halt brings about (R483). -/

namespace Sys2Proof.Machine

/-- The latch of a halted device and its cause. -/
def haltLatch (s : State) : Bool × Code := (s.err.halted, s.err.cause)

theorem haltLatch_of_errLatches {s t : State} (h : errLatches t = errLatches s) : haltLatch t = haltLatch s :=
  (congrArg (fun u : ErrUnit => (u.halted, u.cause)) h :)

theorem haltLatch_of_obs {s t : State} (h : obs { Keep.none with err := true } t = obs { Keep.none with err := true } s) :
    haltLatch t = haltLatch s := haltLatch_of_errLatches (errLatches_of_obs h)

theorem withdraw_errLatches (s : State) (x : Nat × MemReq) : errLatches (withdraw s x) = errLatches s := by
  have h : errLatches (countOutstanding (takeReq s x.1 x.2) x.2 false) = errLatches s :=
    errLatches_of_obs (by simp [Keep.none])
  unfold withdraw
  dsimp only
  split
  · refine (errLatches_of_obs (coreRespond_frame _ _ _ _ _ rfl rfl)).trans ((refusalRec_errLatches ..).trans (Eq.trans (errLatches_of_obs ?_) h))
    split <;> simp [Keep.none]
  · exact (refusalRec_errLatches _ _ _ _ _ _ _ _ _ _).trans h
  · refine (answerAcc_errLatches _ _ _).trans (Eq.trans (errLatches_of_obs ?_) h)
    split <;> simp [Keep.none]
  all_goals exact h

theorem leaveLive_errLatches (s : State) (c : Nat) (st : CtxState) : errLatches (leaveLive s c st) = errLatches s := by
  have hleft : ∀ u : State, errLatches (ctxLeft u c (getCtx s c).gen) = errLatches u := fun u =>
    Eq.trans (errLatches_of_obs ((updAcct_frame _ c _ rfl).trans (xltCtxLeft_frame _ c rfl rfl)))
      (forEach_view withdraw_errLatches (enteredNow u c (getCtx s c).gen) u)
  exact (hleft _).trans (errLatches_of_obs (updCtx_frame s c _ rfl))

theorem sendAbort_errLatches (s : State) (n g : Nat) (ended : Option Nat) : errLatches (sendAbort s n g ended) = errLatches s := by
  unfold sendAbort
  split
  · rfl
  · split
    · dsimp only
      split
      · exact raise_errLatches _ _
      · rfl
    · exact raise_errLatches _ _

theorem raiseWide_errLatches (s : State) (r : ErrRec) (ns : List Nat) : errLatches (raiseWide s r ns) = errLatches s := by
  unfold raiseWide
  split
  · unfold holdRec
    split <;> rfl
  · exact errLatches_of_obs (by simp [Keep.none])

theorem fenceMarked_haltLatch (s : State) (n cause : Nat) : haltLatch (fenceMarked s n cause) = haltLatch s := by
  have hleft : haltLatch (livesLeft s n) = haltLatch s :=
    haltLatch_of_errLatches (forEach_view (fun s c => leaveLive_errLatches s c .draining) _ s)
  have hset : ∀ u : State, haltLatch (setClrState u n .fenced) = haltLatch u := fun u => haltLatch_of_obs (by simp [Keep.none])
  rw [fenceMarked, hset]
  exact hleft

theorem beginFence_haltLatch (s : State) (n cause : Nat) : haltLatch (beginFence s n cause) = haltLatch s := by
  have habort : ∀ u : State, haltLatch (fenceAbort u n) = haltLatch u := fun u => by
    unfold fenceAbort
    dsimp only
    split
    · exact haltLatch_of_errLatches (sendAbort_errLatches _ _ _ _)
    · rfl
  have hshared : ∀ u : State, haltLatch (fenceShared u n) = haltLatch u := fun u => haltLatch_of_obs (by simp [Keep.none])
  have htasks : ∀ u : State, haltLatch (endTasks u n) = haltLatch u := fun u => haltLatch_of_obs (by simp [Keep.none])
  rw [beginFence_eq, hshared, htasks, fenceRecorded,
    haltLatch_of_errLatches (raise_errLatches _ _), habort, fenceMarked_haltLatch]

theorem triggerDump_haltLatch (s : State) (c : Code) : haltLatch (triggerDump s c) = haltLatch s := by
  unfold triggerDump
  split
  · rfl
  · split <;> rfl

/-! The parts of a halt. -/

/-- The device is halted for `c`, which is recorded for every defined clearing. -/
def haltNoted (s : State) (c : Code) : State :=
  raiseWide { s with err := { s.err with halted := true, cause := c } } (newRec s qsErrHalted 3 0 0 c.toNat 1 0) (definedClearings s)

/-- The fences that it begins. -/
def haltFencing (s : State) (fenced : List Nat) : State := forEach fenced s fun s n => beginFence s n 4

/-- The aborts that it sends for the clearings that were fenced before. -/
def haltAborts (s : State) (fenced : List Nat) : State :=
  forEach (allClearings.filter fun n => !fenced.contains n && wbit (tabGet 0 s.err.group n) 16) s fun s n =>
    sendAbort s n (field (tabGet 0 s.err.group n) 0 16) (some 0)

theorem halt_eq (s : State) (c : Code) : halt s c =
    haltAborts (triggerDump (haltFencing (haltNoted s c) (haltFences (haltNoted s c))) c) (haltFences (haltNoted s c)) := rfl

theorem halt_latched (s : State) (c : Code) : haltLatch (halt s c) = (true, c) := by
  have haborts : ∀ u ns, haltLatch (haltAborts u ns) = haltLatch u := fun u ns =>
    haltLatch_of_errLatches (forEach_view (fun s n => sendAbort_errLatches s n _ _) _ u)
  have hfencing : ∀ u ns, haltLatch (haltFencing u ns) = haltLatch u := fun u ns =>
    forEach_view (fun s n => beginFence_haltLatch s n 4) ns u
  rw [halt_eq, haborts, triggerDump_haltLatch, hfencing, haltNoted, haltLatch_of_errLatches (raiseWide_errLatches _ _ _)]
  rfl

theorem haltNoted_frame {K : Keep} (s : State) (c : Code) (_ : K.err = false) (_ : K.rings = false) :
    obs K (haltNoted s c) = obs K s := by
  rw [haltNoted, raiseWide_frame]
  exact obs_set_err _ _ ‹_›

theorem haltTail_cal (s : State) (c : Code) (ns : List Nat) : (haltAborts (triggerDump s c) ns).cal = s.cal :=
  obs_cal (K := { Keep.none with cal := true }) (by simp [Keep.none, haltAborts])

theorem halt_cal_map (s : State) (c : Code) : (halt s c).cal.map = s.cal.map := by
  have hfencing : ∀ u ns, (haltFencing u ns).cal.map = u.cal.map := fun u ns =>
    forEach_view (view := fun u => u.cal.map) (fun s n => beginFence_map s n 4) ns u
  rw [halt_eq, haltTail_cal, hfencing, obs_cal (K := { Keep.none with cal := true }) (haltNoted_frame s c rfl rfl)]

theorem noneEntered_congr {s t : State} (h : NoneEntered s) (hcal : t.cal = s.cal) (hclk : t.clk = s.clk) (hctx : t.ctx = s.ctx) :
    NoneEntered t :=
  noneEntered_of_lives h hcal hclk fun c _ => by simp only [ctxLives, getCtx, hctx]

theorem beginFence_cal {s : State} (h : NoneEntered s) (n cause : Nat) : (beginFence s n cause).cal = s.cal := by
  have hbegun : obs { Keep.none with cal := true } (beginFence s n cause) = obs { Keep.none with cal := true } (livesLeft s n) := by
    simp [Keep.none, beginFence_marked_frame, fenceMarked_frame]
  have hleft : obs { Keep.none with cal := true } (livesLeft s n) = obs { Keep.none with cal := true } s :=
    livesLeft_frame h n rfl rfl rfl rfl
  exact obs_cal (hbegun.trans hleft)

theorem haltFencing_cal : ∀ (ns : List Nat) {s : State}, NoneEntered s → (haltFencing s ns).cal = s.cal
  | [], _, _ => rfl
  | n :: ns, s, h => by
    rw [haltFencing, forEach, List.foldl_cons]
    have hrest := haltFencing_cal ns (beginFence_noneEntered h n 4)
    rw [haltFencing, forEach] at hrest
    rw [hrest, beginFence_cal h]

/-- Where no request of a Live context has entered a store, a halt withdraws none. -/
theorem halt_cal {s : State} (h : NoneEntered s) (c : Code) : (halt s c).cal = s.cal := by
  have hnoted : obs { Keep.none with cal := true, clk := true, ctx := true } (haltNoted s c) =
      obs { Keep.none with cal := true, clk := true, ctx := true } s := haltNoted_frame s c rfl rfl
  rw [halt_eq, haltTail_cal, haltFencing_cal _ (noneEntered_congr h (obs_cal hnoted) (obs_clk hnoted) (obs_ctx hnoted)),
    obs_cal hnoted]

end Sys2Proof.Machine
end

section
/-! PROOFS. Power domains that fault, and what goes with each (R112, R430, R438, R471, R473). -/

namespace Sys2Proof.Machine

/-! The mailboxes of a requester that is gone (R430). -/

theorem tabGet_unlisted {α : Type} (d : α) : ∀ (t : Tab α) {i : Nat}, i ∉ t.map (·.1) → tabGet d t i = d
  | [], _, _ => rfl
  | (k, v) :: r, i, h => by
    rw [List.map_cons, List.mem_cons, not_or] at h
    rw [tabGet, if_neg (Ne.symm h.1), tabGet_unlisted d r h.2]

/-- Each act clears a requester where it is `q`, at its own place: at the end it is cleared where its place is listed. -/
theorem forEach_cleared {v : State → Requester} {q : Requester} {m : Nat} {f : State → Nat → State}
    (h : ∀ s x, v (f s x) = if m = x ∧ v s = q then 0 else v s) :
    ∀ (xs : List Nat) (s : State), v (forEach xs s f) = if m ∈ xs ∧ v s = q then 0 else v s
  | [], s => by simp [forEach]
  | x :: xs, s => by
    have hrest := forEach_cleared h xs (f s x)
    rw [forEach, List.foldl_cons, ← forEach, hrest, h]
    by_cases hx : m = x <;> by_cases hv : v s = q <;> simp [hx, hv]

/-- The requesters that a mailbox serves: its receiver and the holder of its lock. -/
def served (y : Mailbox) : Requester × Requester := (y.receiver, y.holder)

theorem served_updMbx {f : Mailbox → Mailbox} (hf : ∀ y, served (f y) = served y) (s : State) (x m : Nat) :
    served (getMbx (updMbx s x f) m) = served (getMbx s m) := by
  rw [getMbx_updMbx]
  split
  next hm => rw [hf, hm]
  · rfl

theorem notify_mbx (s : State) (q : Requester) (v : Nat) : (notify s q v).mbx = s.mbx :=
  obs_mbx (K := { Keep.none with mbx := true }) (by simp [Keep.none])

theorem ackMsg_served (s : State) (x m : Nat) (g : MbxMsg) (k : Nat) (c : Code) :
    served (getMbx (ackMsg s x g k c) m) = served (getMbx s m) := by
  have hmsg : ∀ y : Mailbox, served (updMsg y k fun g => { g with code := c, seq := k, done := true }) = served y := fun y => by
    unfold updMsg
    split <;> rfl
  unfold ackMsg
  dsimp only
  split
  · rw [getMbx, notify_mbx, ← getMbx]
    exact served_updMbx hmsg s x m
  · exact served_updMbx hmsg s x m

theorem ackTaken_served (s : State) (x m : Nat) (c : Code) : served (getMbx (ackTaken s x c) m) = served (getMbx s m) := by
  rw [ackTaken, served_updMbx fun _ => by rfl, ackMsg_served]

/-- What a receiver that goes away has taken is acknowledged. -/
def takenAnswered (s : State) (x : Nat) : State := if (getMbx s x).taken then ackTaken s x qsMbxReceiverGone else s

theorem removeRecv_eq (s : State) (x : Nat) : removeRecv s x = updMbx (takenAnswered s x) x fun y =>
    { y with receiver := 0, irq := false, vector := 0, wakeValid := false, wakeDomain := 0 } := rfl

theorem takenAnswered_served (s : State) (x m : Nat) : served (getMbx (takenAnswered s x) m) = served (getMbx s m) := by
  unfold takenAnswered
  split
  · exact ackTaken_served s x m _
  · rfl

theorem removeRecv_receiver (s : State) (x m : Nat) : (getMbx (removeRecv s x) m).receiver =
    if m = x then 0 else (getMbx s m).receiver := by
  rw [removeRecv_eq, getMbx_updMbx]
  split
  · rfl
  · exact congrArg Prod.fst (takenAnswered_served s x m)

theorem removeRecv_holder (s : State) (x m : Nat) : (getMbx (removeRecv s x) m).holder = (getMbx s m).holder := by
  refine Eq.trans ?_ (congrArg Prod.snd (takenAnswered_served s x m))
  rw [removeRecv_eq, getMbx_updMbx]
  split
  next hm => rw [hm]; rfl
  · rfl

/-- The receiver `q` of mailbox `x` is gone. -/
def dropReceiver (q : Requester) (s : State) (x : Nat) : State := if (getMbx s x).receiver = q then removeRecv s x else s

theorem requesterGone_eq (s : State) (q : Requester) : requesterGone s q = freeLocks (forEach (s.mbx.map (·.1)) s (dropReceiver q)) q := rfl

theorem dropReceiver_receiver (q : Requester) (m : Nat) (s : State) (x : Nat) : (getMbx (dropReceiver q s x) m).receiver =
    if m = x ∧ (getMbx s m).receiver = q then 0 else (getMbx s m).receiver := by
  unfold dropReceiver
  by_cases hm : m = x
  · subst hm
    by_cases hq : (getMbx s m).receiver = q <;> simp [hq, removeRecv_receiver]
  · simp only [hm, false_and, if_false]
    split
    · rw [removeRecv_receiver, if_neg hm]
    · rfl

theorem dropReceiver_holder (q : Requester) (m : Nat) (s : State) (x : Nat) :
    (getMbx (dropReceiver q s x) m).holder = (getMbx s m).holder := by
  unfold dropReceiver
  split
  · exact removeRecv_holder s x m
  · rfl

/-- What a lock of `q` on mailbox `x` leaves. -/
def freeLock (q : Requester) (s : State) (x : Nat) : State := updMbx s x fun y => if y.holder = q then { y with holder := 0 } else y

theorem freeLocks_eq (s : State) (q : Requester) : freeLocks s q = forEach (s.mbx.map (·.1)) s (freeLock q) := rfl

theorem freeLock_holder (q : Requester) (m : Nat) (s : State) (x : Nat) : (getMbx (freeLock q s x) m).holder =
    if m = x ∧ (getMbx s m).holder = q then 0 else (getMbx s m).holder := by
  rw [freeLock, getMbx_updMbx]
  by_cases hm : m = x
  · subst hm
    by_cases hq : (getMbx s m).holder = q <;> simp [hq]
  · simp [hm]

theorem freeLock_receiver (q : Requester) (m : Nat) (s : State) (x : Nat) :
    (getMbx (freeLock q s x) m).receiver = (getMbx s m).receiver := by
  rw [freeLock, getMbx_updMbx]
  split
  next hm =>
    rw [hm]
    split <;> rfl
  next => rfl

theorem getMbx_unlisted {s : State} {m : Nat} (h : m ∉ s.mbx.map (·.1)) : getMbx s m = mailbox0 := tabGet_unlisted _ _ h

/-- Requester `r`, or none once it is gone as `q`. -/
def unlessGone (q r : Requester) : Requester := if r = q then 0 else r

theorem unlessGone_ne {q : Requester} (hq : q ≠ 0) (r : Requester) : unlessGone q r ≠ q := by
  unfold unlessGone
  split
  · exact hq.symm
  · assumption

theorem unlessGone_ne_of_ne {p r : Requester} (hp : p ≠ 0) (h : r ≠ p) (q : Requester) : unlessGone q r ≠ p := by
  unfold unlessGone
  split
  · exact hp.symm
  · exact h

theorem requesterGone_receiver (s : State) (q : Requester) (m : Nat) : (getMbx (requesterGone s q) m).receiver =
    unlessGone q (getMbx s m).receiver := by
  rw [requesterGone_eq, freeLocks_eq, forEach_view (view := fun u => (getMbx u m).receiver) (freeLock_receiver q m),
    forEach_cleared (v := fun u => (getMbx u m).receiver) (dropReceiver_receiver q m)]
  by_cases hm : m ∈ s.mbx.map (·.1)
  · simp only [hm, true_and, unlessGone]
  · rw [if_neg fun h => hm h.1, getMbx_unlisted hm]
    exact (ite_self 0).symm

theorem requesterGone_holder (s : State) (q : Requester) (m : Nat) : (getMbx (requesterGone s q) m).holder =
    unlessGone q (getMbx s m).holder := by
  have hkept := forEach_view (view := fun u => (getMbx u m).holder) (dropReceiver_holder q m) (s.mbx.map (·.1)) s
  rw [requesterGone_eq, freeLocks_eq, forEach_cleared (v := fun u => (getMbx u m).holder) (freeLock_holder q m), hkept]
  generalize hu : forEach (s.mbx.map (·.1)) s (dropReceiver q) = u at hkept ⊢
  by_cases hm : m ∈ u.mbx.map (·.1)
  · simp only [hm, true_and, unlessGone]
  · rw [if_neg fun h => hm h.1, ← hkept, getMbx_unlisted hm]
    exact (ite_self 0).symm

end Sys2Proof.Machine
end

section
/-! PROOFS. What a power domain that faults takes with it (R112, R438, R468, R473, R483). -/

namespace Sys2Proof.Machine

/-- A domain that faults is Off, with no request. -/
def domainDies (x : Domain) : Domain := { x with fault := true, st := .off, req := none, cycle := false }

/-- Domain `d` is recorded as faulted, in the way `how`, and is Off. -/
def domainMarked (s : State) (d how : Nat) : State :=
  let sev := if (72 ≤ d && d ≤ 76) || d = 78 then 3 else 1
  let st := if how = 1 then 3 else powerNum (getDom s d).st
  let s := raise s (newRec s qsErrPowerFault sev 6 d st how 0)
  let s := updCc s fun v => { v with faultSet := setBit v.faultSet d true }
  updDom s d domainDies

/-- Its units are out of their resets, and nothing has followed yet. -/
def domainDark (s : State) (d how : Nat) : State := domainDown (domainMarked s d how) d

theorem domainFault_eq (s : State) (d how : Nat) : domainFault s d how = faultEffect (domainDark s d how) d := rfl

/-- What the fault leaves before its effect. -/
def keepsDark : Keep :=
  { Keep.none with clk := true, boot := true, img := true, cal := true, ctx := true, key := true, tap := true, mbx := true }

theorem domainDark_obs (s : State) (d how : Nat) : obs keepsDark (domainDark s d how) = obs keepsDark s := by
  simp [domainDark, domainMarked, keepsDark, Keep.none]

/-- What the fault and its effect leave. -/
def keepsFault : Keep := { Keep.none with clk := true, img := true, key := true, tap := true }

theorem domainFault_obs (s : State) (d how : Nat) : obs keepsFault (domainFault s d how) = obs keepsFault s := by
  simp [domainFault_eq, domainDark, domainMarked, keepsFault, Keep.none]

theorem getDom_domainFault (s : State) (d how e : Nat) : getDom (domainFault s d how) e =
    if e = d then domainDies (getDom s d) else getDom s e := by
  have hpwr : (domainFault s d how).pwr = (domainMarked s d how).pwr := by
    rw [domainFault_eq, domainDark]
    exact obs_pwr (K := { Keep.none with pwr := true }) (by simp [Keep.none])
  have hraised : ∀ r i, getDom (raise s r) i = getDom s i := fun r =>
    getDom_congr (congrArg Power.domains (obs_pwr (K := { Keep.none with pwr := true }) (raise_frame s r rfl rfl)))
  rw [getDom_congr (congrArg Power.domains hpwr), domainMarked]
  refine (getDom_updDom _ d e _).trans ?_
  split
  · exact congrArg domainDies (hraised _ d)
  · exact hraised _ e

/-! The effect, by the kind of domain. -/

section
variable {u : State} {d : Nat}

theorem faultEffect_pair (h : d < 64) : faultEffect u d = failCore (failCore u (2 * d) 3) (2 * d + 1) 3 := if_pos h

theorem faultEffect_group (h : 64 ≤ d) (hd : d < 72) : faultEffect u d = forEach (groupEngines d) u fun s e => failEngine s e 3 := by
  rw [faultEffect, if_neg (by omega), if_pos hd]

theorem faultEffect_link (hr : u.boot.phase = .running) :
    faultEffect u 79 = updBoot (trailOff u) fun b => { b with solitary := true } := by
  have hboot : (trailOff u).boot = u.boot := obs_boot (K := { Keep.none with boot := true }) (by simp [Keep.none])
  simp [faultEffect, hboot, hr, running]

theorem faultEffect_core (hr : u.boot.phase = .running) : faultEffect u 77 = requesterGone (requesterGone u 0x82) 0x83 := by
  simp [faultEffect, hr]

theorem faultEffect_halt (h72 : 72 ≤ d) (h79 : d < 79) (h77 : d ≠ 77) (hr : u.boot.phase = .running) :
    faultEffect u d = halt u qsErrPowerFault := by
  rw [faultEffect, if_neg (by omega), if_neg (by omega), if_neg (by omega), if_neg (by simp [hr]), if_neg h77]

/-- Only a halt touches the calendar. -/
theorem faultEffect_halts_or_cal (u : State) (d : Nat) :
    faultEffect u d = halt u qsErrPowerFault ∨ (faultEffect u d).cal = u.cal := by
  have hkeeps : ∀ {t : State}, obs { Keep.none with cal := true } t = obs { Keep.none with cal := true } u →
      t = halt u qsErrPowerFault ∨ t.cal = u.cal := fun h => .inr (obs_cal h)
  unfold faultEffect
  split
  · exact hkeeps (by simp [Keep.none])
  split
  · exact hkeeps (by simp [Keep.none])
  split
  · exact hkeeps (by simp [Keep.none])
  split
  · exact hkeeps (by simp [Keep.none])
  split
  · exact hkeeps (by simp [Keep.none])
  · exact .inl rfl
end

theorem engineFailed_forEach (reason e : Nat) : ∀ (es : List Nat) (s : State), (∀ g ∈ es, g < 64) →
    engineFailed (forEach es s fun s g => failEngine s g reason) e = (engineFailed s e || decide (e ∈ es))
  | [], s, _ => by simp [forEach]
  | g :: es, s, h => by
    have hrest := engineFailed_forEach reason e es (failEngine s g reason) fun x hx => h x (List.mem_cons_of_mem g hx)
    rw [forEach, List.foldl_cons, ← forEach, hrest, engineFailed_failEngine (h g List.mem_cons_self)]
    simp [Bool.or_assoc]

theorem mem_groupEngines {d e : Nat} : e ∈ groupEngines d ↔ ∃ i, i < 8 ∧ i + 8 * (d - 64) = e := by
  simp [groupEngines]

theorem trailOff_up (s : State) : (trailOff s).trl.up = false := by
  have hlost : ∀ b u, (linkLost b u).trl = u.trl := fun b u => obs_trl (K := { Keep.none with trl := true }) (by simp [Keep.none])
  rw [trailOff, hlost]
  rfl

/-- A fault, or an acknowledgement that is missing, runs the fault's effect. -/
theorem domainFault_runs {s : State} {d : Nat} {c : Instr} (hd : d < 80) (h1 : s.boot.phase ≠ .reset) (h2 : s.boot.phase ≠ .stopped)
    (hc : c = .powerFault d true ∨ c = .powerFault d false ∨ (c = .powerAckTimeout d ∧ (getDom s d).req ≠ none)) :
    ∃ how, exec c s = .next (domainFault s d how) := by
  have hrun := heard_eq (inert_eq_false h1 h2)
  rcases hc with rfl | rfl | ⟨rfl, hreq⟩
  · exact ⟨1, congrArg Host.Outcome.next ((hrun _).trans (if_pos hd))⟩
  · exact ⟨2, congrArg Host.Outcome.next ((hrun _).trans (if_pos hd))⟩
  · refine ⟨3, congrArg Host.Outcome.next ((hrun _).trans (if_pos ?_))⟩
    simp [hd, Option.isSome_iff_ne_none, hreq]

/-- Settles O38: a unit that fails sets its own bit of the failed ones, and a domain that faults is followed through its
effect: the units of a pair or group, the mailboxes of core 2 and 3, the link, or the halt. -/
theorem failedUnitsAndPowerFaults : Obligations.FailedUnitsAndPowerFaults := by
  refine ⟨fun s q w hq hb hg => ⟨fun hf => ?core, fun hu hf => ?engine⟩, fun s d c hd h1 h2 hc => ?fault⟩
  case core =>
    have hunit : field w 8 7 < 128 := field_lt w 8 7
    refine ⟨_, errFailCore_ready hq hb hg hf, rfl, by rw [recordStatus_err]; rfl, by rw [recordStatus_err]; rfl, fun c hc => ?_, ?_, ?_⟩
    · rw [coreFailed_congr (recordStatus_err ..)]
      exact Eq.to_iff (congrArg (· = true) (coreFailed_failCore hunit 4 c)) |>.trans (by simp)
    · rw [recordStatus_err]
      exact failCore_failedEngines s _ 4
    · exact owners_of_obs ((errFinished_owners _ q).trans (by simp [keepsOwners, Keep.none]))
  case engine =>
    refine ⟨_, errFailEngine_ready hq hb hg hu hf, rfl, by rw [recordStatus_err]; rfl, by rw [recordStatus_err]; rfl, fun e he => ?_,
      ?_, ?_⟩
    · rw [engineFailed, recordStatus_err]
      exact Eq.to_iff (congrArg (· = true) (engineFailed_failEngine hu 4 e)) |>.trans (by simp)
    · rw [recordStatus_err]
      exact failEngine_failedCores s _ 4
    · exact owners_of_obs ((errFinished_owners _ q).trans (by simp [keepsOwners, Keep.none]))
  case fault =>
    obtain ⟨how, hstep⟩ := domainFault_runs hd h1 h2 hc
    have hdark := domainDark_obs s d how
    have hkept := domainFault_obs s d how
    have hself := (getDom_domainFault s d how d).trans (if_pos rfl)
    have hrun : s.boot.phase = .running → (domainDark s d how).boot.phase = .running := fun h => by rw [obs_boot hdark, h]
    refine ⟨_, hstep, by rw [hself]; rfl, by rw [hself]; rfl, by rw [hself]; rfl, fun e he => ?_, fun h => ?_, fun h64 h72 i hi => ?_, fun h hr m => ?_,
      fun h hr => ?_, fun h72 h79 h77 hr => ?_, obs_clk hkept, obs_img hkept, ?_, fun hnone => ?_, obs_key hkept, obs_tap hkept⟩
    · rw [getDom_domainFault, if_neg he]
      exact ⟨rfl, rfl⟩
    · rw [domainFault_eq, faultEffect_pair h]
      simp [coreFailed_failCore (c := 2 * d) (by omega), coreFailed_failCore (c := 2 * d + 1) (by omega)]
    · have hmem : 8 * (d - 64) + i ∈ groupEngines d := mem_groupEngines.2 ⟨i, hi, by omega⟩
      rw [domainFault_eq, faultEffect_group h64 h72, engineFailed_forEach]
      · simp [hmem]
      · intro g hg
        obtain ⟨j, hj, rfl⟩ := mem_groupEngines.1 hg
        omega
    · subst h
      rw [domainFault_eq, faultEffect_core (hrun hr)]
      simp only [requesterGone_receiver, requesterGone_holder]
      have hgone : ∀ r : Requester, unlessGone 0x83 (unlessGone 0x82 r) ≠ 0x82 ∧ unlessGone 0x83 (unlessGone 0x82 r) ≠ 0x83 := fun r =>
        ⟨unlessGone_ne_of_ne (by decide) (unlessGone_ne (by decide) r) _, unlessGone_ne (by decide) _⟩
      exact ⟨(hgone _).1, (hgone _).2, hgone _⟩
    · subst h
      rw [domainFault_eq, faultEffect_link (hrun hr)]
      exact ⟨trailOff_up _, rfl⟩
    · have hlatch := halt_latched (domainDark s d how) qsErrPowerFault
      rw [domainFault_eq, faultEffect_halt h72 h79 h77 (hrun hr)]
      exact Prod.mk.inj hlatch
    · rw [domainFault_eq]
      rcases faultEffect_halts_or_cal (domainDark s d how) d with h | h
      · rw [h, halt_cal_map, obs_cal hdark]
      · rw [h, obs_cal hdark]
    · rw [domainFault_eq]
      have hdarkNone : NoneEntered (domainDark s d how) :=
        noneEntered_congr (fun c _ => hnone c) (obs_cal hdark) (obs_clk hdark) (obs_ctx hdark)
      rcases faultEffect_halts_or_cal (domainDark s d how) d with h | h
      · rw [h, halt_cal hdarkNone, obs_cal hdark]
      · rw [h, obs_cal hdark]

end Sys2Proof.Machine
end

section
/-! PROOFS. The start-up's phases: what begins and ends phases 1, 5 and 6, the start-up wheel, and the bounds that stop it. -/

namespace Sys2Proof.Machine

-- The check's memory holds no more threads, so proofs are elaborated in place; nothing runs the helper states, so
-- they are noncomputable.
set_option Elab.async false

theorem next_of_pos {c : Prop} [Decidable c] (h : c) (t s : State) : (.next (if c then t else s) : Result) = .next t :=
  congrArg Host.Outcome.next (if_pos h)

/-! Power requests (R112, R135). -/

@[simp] theorem getDom_powerRequest (s : State) (d : Nat) (t : PowerSt) (e : Nat) : getDom (powerRequest s d t) e =
    if e = d then { getDom s d with req := some t, top := higher (getDom s d).top (higher (getDom s d).st t) } else getDom s e :=
  getDom_updDom s d e _

theorem getDom_forEach_powerRequest_other (t : PowerSt) {e : Nat} {ds : List Nat} (h : e ∉ ds) (s : State) :
    getDom (forEach ds s fun s d => powerRequest s d t) e = getDom s e := by
  induction ds generalizing s with
  | nil => rfl
  | cons d ds ih =>
    exact (ih (List.not_mem_of_not_mem_cons h) _).trans
      ((getDom_powerRequest s d t e).trans (if_neg (List.ne_of_not_mem_cons h)))

theorem req_forEach_powerRequest (t : PowerSt) {e : Nat} {ds : List Nat} (h : e ∈ ds) (s : State) :
    (getDom (forEach ds s fun s d => powerRequest s d t) e).req = some t := by
  induction ds generalizing s with
  | nil => exact absurd h List.not_mem_nil
  | cons d ds ih =>
    by_cases hds : e ∈ ds
    · exact ih hds _
    · have hself := (getDom_powerRequest s d t e).trans (if_pos ((List.mem_cons.1 h).resolve_right hds))
      exact congrArg Domain.req ((getDom_forEach_powerRequest_other t hds _).trans hself)

/-! Phase 6 begins (R123, R135). -/

/-- The domains that phase 6 requests On. -/
noncomputable def domainsWanted (s : State) : List Nat := ((List.range 8).map (· + 72)).filter (wantsOn s)

theorem wantsOn_iff {s : State} {d : Nat} :
    wantsOn s d = true ↔ (getDom s d).st ≠ .on ∧ (getDom s d).req = none ∧ (getDom s d).fault = false := by
  simp [wantsOn, and_assoc]

theorem mem_domainsWanted {s : State} {d : Nat} (h1 : 72 ≤ d) (h2 : d < 80) (hw : wantsOn s d = true) : d ∈ domainsWanted s :=
  List.mem_filter.2 ⟨List.mem_map.2 ⟨d - 72, List.mem_range.2 (Nat.sub_lt_left_of_lt_add h1 h2), Nat.sub_add_cancel h1⟩, hw⟩

theorem of_mem_domainsWanted {s : State} {d : Nat} (h : d ∈ domainsWanted s) : 72 ≤ d ∧ d < 80 ∧ wantsOn s d = true := by
  obtain ⟨hd, hw⟩ := List.mem_filter.1 h
  obtain ⟨i, hi, rfl⟩ := List.mem_map.1 hd
  exact ⟨Nat.le_add_left 72 i, Nat.add_lt_add_right (List.mem_range.1 hi) 72, hw⟩

/-- Phase 6 has begun, with its requests. -/
noncomputable def powerBegun (s : State) : State :=
  forEach (domainsWanted s) (updBoot s fun b => { b with phase := .power }) fun s d => powerRequest s d .on

theorem powerBegun_boot (s : State) : (powerBegun s).boot = { s.boot with phase := .power } :=
  obs_boot (K := { Keep.none with boot := true })
    (forEach_frame (domainsWanted s) (updBoot s fun b => { b with phase := .power }) _ fun u d => powerRequest_frame u d .on rfl rfl)

theorem powerBegun_frame {K : Keep} (s : State) (hb : K.boot = false) (hp : K.pwr = false) (ho : K.out = false) :
    obs K (powerBegun s) = obs K s :=
  (forEach_frame _ _ _ fun u d => powerRequest_frame u d .on hp ho).trans (updBoot_frame s _ hb)

theorem execStartupScrubDone_scrub {s : State} (h : s.boot.phase = .scrub) :
    exec .startupScrubDone s = .next (if scrubComplete s = true then powerBegun s else s) :=
  congrArg Host.Outcome.next (if_congr (by simp [h]) rfl rfl)

/-! The bounds (R123, R145). -/

theorem execPhaseTimeout_late {s : State} {k : Nat}
    (h : (s.boot.phase = .rom ∧ k = 1) ∨ (s.boot.phase = .root ∧ k = 2) ∨ (s.boot.phase = .scrub ∧ k = 5)) :
    exec .phaseTimeout s = .next (stopLate s k) := by
  refine congrArg Host.Outcome.next ?_
  unfold phaseTimeout
  rcases h with ⟨h, rfl⟩ | ⟨h, rfl⟩ | ⟨h, rfl⟩ <;> rw [h]

/-- A cause noted before stays with its detail (R145). -/
theorem stopBoot_noted_boot (s : State) : (stopBoot s s.boot.cause s.boot.detail.toNat s.boot.where').boot =
    { s.boot with phase := .stopped, wheelOn := false, delivery := none } :=
  congrArg (fun d => { s.boot with phase := .stopped, detail := d, wheelOn := false, delivery := none })
    ((BitVec.ofNat_toNat 16 s.boot.detail).trans (BitVec.setWidth_eq _))

theorem stopLate_unnoted {s : State} (h : s.boot.cause = 0) (k : Nat) : stopLate s k = stopBoot s 8 0 k := if_pos h

theorem stopLate_noted {s : State} (h : s.boot.cause ≠ 0) (k : Nat) :
    stopLate s k = stopBoot s s.boot.cause s.boot.detail.toNat s.boot.where' := if_neg h

theorem stopLate_held (s : State) (k : Nat) : (stopLate s k).err = { s.err with held := [] } :=
  (apply_ite State.err _ _ _).trans (ite_self _)

/-- Settles O8: each command in its phase is one of the steps above. -/
theorem startupPhasesFollow : Obligations.StartupPhasesFollow := by
  refine ⟨fun s puf hp hr => ⟨_, next_of_pos (by simp [hp, hr]) _ s, rfl,
      congrArg Domain.req ((getDom_powerRequest _ 76 .on 76).trans (if_pos rfl)),
      fun d hd => (getDom_powerRequest _ 76 .on d).trans (if_neg hd), rfl, rfl⟩,
    fun s hp => congrArg Host.Outcome.next (if_congr (by simp [hp]) rfl rfl),
    fun s hp => ⟨_, execStartupScrubDone_scrub hp, fun hc => if_neg (Bool.eq_false_iff.1 hc), fun hc => ?scrubbed⟩,
    fun s hw => ⟨_, next_of_pos hw _ s, rfl, rfl⟩, fun s k hp => next_of_pos (by rw [hp]; rfl) (stopBoot s 6 0 k) s,
    fun s k hk => ⟨stopLate s k, execPhaseTimeout_late hk, fun hc => congrArg State.boot (stopLate_unnoted hc k),
      fun hc => (congrArg State.boot (stopLate_noted hc k)).trans (stopBoot_noted_boot s), ?late⟩⟩
  case scrubbed =>
    have hbegun : (if scrubComplete s = true then powerBegun s else s) = powerBegun s := if_pos hc
    refine ⟨(congrArg State.boot hbegun).trans (powerBegun_boot s), fun d h1 h2 hon hreq hf => ?_, fun d hd => ?_,
      eq_mergeKept (K := { Keep.all with boot := false, pwr := false, out := false })
        ((congrArg (obs _) hbegun).trans (powerBegun_frame s rfl rfl rfl))⟩
    · exact (congrArg (fun u => (getDom u d).req) hbegun).trans
        (req_forEach_powerRequest .on (mem_domainsWanted h1 h2 (wantsOn_iff.2 ⟨hon, hreq, hf⟩)) _)
    · refine (congrArg (getDom · d) hbegun).trans (getDom_forEach_powerRequest_other .on (fun hmem => ?_) _)
      obtain ⟨h1, h2, hw⟩ := of_mem_domainsWanted hmem
      obtain ⟨hon, hreq, hf⟩ := wantsOn_iff.1 hw
      rcases hd with h | h | h | h | h
      · exact Nat.not_lt.2 h1 h
      · exact Nat.not_lt.2 h h2
      · exact hon h
      · exact h hreq
      · exact Bool.false_ne_true (hf.symm.trans h)
  case late =>
    exact (eq_mergeKept (K := { Keep.all with boot := false, err := false }) (stopLate_frame s k rfl rfl)).trans
      (congrArg (fun e => { s with boot := (stopLate s k).boot, err := e }) (stopLate_held s k))

end Sys2Proof.Machine
end

section
/-! PROOFS. The ends of phases 3 and 4: the memory, and the image of the flash. -/

namespace Sys2Proof.Machine

set_option Elab.async false

/-! The read latencies (R130). -/

/-- The first stack whose read latency lies outside 40 to 400. -/
noncomputable def badLatency (i : MemoryInputs) : Option Nat :=
  (List.range 20).find? fun k => !(40 ≤ i.rdLat.getD k 0 && i.rdLat.getD k 0 ≤ 400)

theorem badLatency_none_iff {i : MemoryInputs} :
    badLatency i = none ↔ ∀ k, k < 20 → 40 ≤ i.rdLat.getD k 0 ∧ i.rdLat.getD k 0 ≤ 400 :=
  List.find?_eq_none.trans (forall_congr' fun _ => imp_congr List.mem_range
    (Bool.not_not_eq.trans (Bool.and_eq_true_iff.trans (and_congr decide_eq_true_iff decide_eq_true_iff))))

theorem badLatency_of_bad {i : MemoryInputs} (h : ∃ k, k < 20 ∧ ¬ (40 ≤ i.rdLat.getD k 0 ∧ i.rdLat.getD k 0 ≤ 400)) :
    ∃ k, badLatency i = some k :=
  Option.ne_none_iff_exists'.1 fun hnone => h.elim fun k hbad => hbad.2 (badLatency_none_iff.1 hnone k hbad.1)

/-- Phase 3 has ended well (R130, R132): the latencies and the failed pseudo-channels are known, and the wheel starts. -/
noncomputable def memoryReady (s : State) (i : MemoryInputs) : State :=
  let t := forEach i.failed (updBoot s fun b => { b with
    rdLat := i.rdLat, failed := i.failed.map fun p => (p, 1), wheelOn := true, phase := .image })
    fun s p => updPch s p fun k => { k with failLevel := true }
  { t with clk := { t.clk with tickStart := nowCclk t, refTick := nowRef t, cclk := 0, phase := 0 } }

theorem memoryReady_boot (s : State) (i : MemoryInputs) : (memoryReady s i).boot = { s.boot with
    rdLat := i.rdLat, failed := i.failed.map fun p => (p, 1), wheelOn := true, phase := .image } :=
  forEach_view (view := State.boot) (f := fun s p => updPch s p fun k => { k with failLevel := true }) (fun _ _ => rfl) i.failed _

theorem memoryEnd_bad {s : State} {i : MemoryInputs} {k : Nat} (h : badLatency i = some k) : memoryEnd s i = stopBoot s 6 0 k := by
  unfold badLatency at h
  unfold memoryEnd
  rw [h]

theorem memoryEnd_good {s : State} {i : MemoryInputs} (h : badLatency i = none) : memoryEnd s i =
    if s.boot.flashPresent = true then memoryReady s i else enterBare (memoryReady s i) := by
  unfold badLatency at h
  unfold memoryEnd
  rw [h]
  have hflash : (memoryReady s i).boot.flashPresent = s.boot.flashPresent := (congrArg Boot.flashPresent (memoryReady_boot s i) :)
  exact if_congr (iff_of_eq (congrArg (· = true) hflash)) rfl rfl

/-- What Bare leaves as it is, the end of phase 3 has of the memory that is ready. -/
theorem memoryEnd_good_view {V : Type} {view : State → V} (hview : ∀ u, view (enterBare u) = view u) {s : State} {i : MemoryInputs}
    (h : badLatency i = none) : view (memoryEnd s i) = view (memoryReady s i) :=
  (congrArg view (memoryEnd_good h)).trans ((apply_ite view _ _ _).trans ((congrArg (ite _ _) (hview _)).trans (ite_self _)))

theorem memoryEnd_good_phase {s : State} {i : MemoryInputs} (h : badLatency i = none) :
    (memoryEnd s i).boot.phase = if s.boot.flashPresent = true then .image else .bare :=
  (congrArg (fun u : State => u.boot.phase) (memoryEnd_good h)).trans ((apply_ite (fun u : State => u.boot.phase) _ _ _).trans
    (congrArg (fun p => if s.boot.flashPresent = true then p else .bare) (congrArg Boot.phase (memoryReady_boot s i))))

/-! Bare (R133, R145). -/

/-- Bare is entered with a cause, where none was noted before. -/
theorem enterBare_noteCause_boot (s : State) (cause : Nat) (detail : Code) : (enterBare (noteCause s cause detail)).boot =
    if s.boot.cause = 0 then { s.boot with phase := .bare, cause := cause, detail := detail } else { s.boot with phase := .bare } :=
  apply_ite (fun u => (enterBare u).boot) _ _ _

theorem enterBare_noteCause_frame {K : Keep} (s : State) (cause : Nat) (detail : Code) (hb : K.boot = false) (hm : K.mbx = false) :
    obs K (enterBare (noteCause s cause detail)) = obs K s :=
  (enterBare_frame _ hb hm).trans (noteCause_frame s cause detail hb)

theorem getMbx_enterBare (s : State) (m : Nat) :
    getMbx (enterBare s) m = if m = 0 then { getMbx s 0 with receiver := 0x80 } else getMbx s m :=
  getMbx_updMbx (updBoot s fun b => { b with phase := .bare }) 0 m _

/-! An image in force (R131, R134). -/

theorem acceptImage_trouble {s : State} {im : Image} {p : Nat} (h : guestTrouble s im = some p) (inFlash : Bool) :
    acceptImage s im inFlash = stopBoot s 6 0 p := by
  unfold acceptImage
  rw [h]

/-- An image is in force, its sections are applied, and what has failed is remapped (R131). -/
noncomputable def imageApplied (s : State) (im : Image) (inFlash : Bool) : State :=
  let t := updCal (updImg s fun i => { i with
    force := some im, code := qsOk, flashImage := if inFlash then some im.bytes else i.flashImage }) fun c => { c with map := im.map }
  let t := forEach im.clearings t fun t g => defineClearing t g.number g im.digest false
  forEach t.boot.failed t fun t f => failPch t f.1 f.2

theorem acceptImage_untroubled {s : State} {im : Image} (h : guestTrouble s im = none) (inFlash : Bool) :
    acceptImage s im inFlash = updBoot (imageApplied s im inFlash) fun b => { b with phase := .scrub, scrubPos := [] } := by
  unfold acceptImage
  rw [h]
  rfl

theorem imageApplied_boot (s : State) (im : Image) (inFlash : Bool) : (imageApplied s im inFlash).boot = s.boot :=
  obs_boot (K := { Keep.none with boot := true }) (by simp [imageApplied, Keep.none])

theorem imageApplied_force (s : State) (im : Image) (inFlash : Bool) : (imageApplied s im inFlash).img.force = some im := by
  have himg : ∀ (gs : List ClearingCfg) (u : State),
      (forEach gs u fun u g => defineClearing u g.number g im.digest false).img = u.img := fun gs u =>
    obs_img (K := { Keep.none with img := true }) (by simp [Keep.none])
  have hfail : ∀ (fs : List (Nat × Nat)) (u : State), planOf (forEach fs u fun u f => failPch u f.1 f.2) = planOf u :=
    forEach_view fun u f => failPch_plan u f.1 f.2
  exact (congrArg Plan.force (hfail _ _)).trans (congrArg Img.force (himg im.clearings _))

/-- A failed pseudo-channel without a guest stops the start-up (R131). -/
theorem acceptImage_stopped {t u : State} {im : Image} {inFlash : Bool} {p : Nat} (ht : t = acceptImage u im inFlash)
    (h : guestTrouble u im = some p) : t.boot.phase = .stopped ∧ t.boot.cause = 6 ∧ t.boot.where' = p :=
  have hstop := congrArg State.boot (ht.trans (acceptImage_trouble h inFlash))
  ⟨congrArg Boot.phase hstop, congrArg Boot.cause hstop, congrArg Boot.where' hstop⟩

/-- Phase 5 follows an image that is in force (R131). -/
theorem acceptImage_force {t u : State} {im : Image} {inFlash : Bool} (ht : t = acceptImage u im inFlash)
    (h : guestTrouble u im = none) : t.boot.phase = .scrub ∧ t.img.force = some im :=
  have hforce := ht.trans (acceptImage_untroubled h inFlash)
  ⟨congrArg (fun u : State => u.boot.phase) hforce, (congrArg (fun u : State => u.img.force) hforce).trans (imageApplied_force u im inFlash)⟩

/-! Phase 4 (R133). -/

theorem flashImageRead_ok {s : State} {bs : List Byte} {im : Image}
    (h : validateImage bs none s.boot.lc s.boot.settings.minSvn s.boot.settings.signers = .ok im) :
    flashImageRead s bs = acceptImage (stageTraffic s bs) im true := by
  unfold flashImageRead startImage
  simp only [stageTraffic_boot, h]

/-- The image of the flash fails R62: IMG_STATUS names the fault (R133). -/
noncomputable def imageRefused (s : State) (bs : List Byte) (f : ImageFault) : State :=
  updImg (stageTraffic s bs) fun i => { i with code := f.code, errSection := f.sect, errOffset := f.offset }

theorem flashImageRead_error {s : State} {bs : List Byte} {f : ImageFault}
    (h : validateImage bs none s.boot.lc s.boot.settings.minSvn s.boot.settings.signers = .error f) :
    flashImageRead s bs = enterBare (noteCause (imageRefused s bs f) 2 f.code) := by
  unfold flashImageRead startImage
  simp only [stageTraffic_boot, h]
  rfl

/-- Settles O10: phase 3 by its latencies, phase 4 by the outcome of R62 and of the guests of failed pseudo-channels. -/
theorem memoryAndImagePhases : Obligations.MemoryAndImagePhases := by
  refine ⟨fun s i hp => ⟨memoryEnd s i, next_of_pos (by rw [hp]; rfl) _ s, fun hall => ?good, fun hbad => ?bad, ?frame⟩,
    fun s bs hp => ⟨flashImageRead s bs, next_of_pos (by rw [hp]; rfl) _ s, ?image⟩,
    fun s hp => ⟨enterBare (noteCause s 2 qsImgFlash), next_of_pos (by rw [hp]; rfl) _ s, enterBare_noteCause_boot s _ _,
      congrArg Mailbox.receiver (getMbx_enterBare _ 0), fun m hm => ?mailbox, ?bare⟩⟩
  case good =>
    have hready := badLatency_none_iff.2 hall
    have hboot := memoryReady_boot s i
    exact ⟨(memoryEnd_good_view (view := (·.boot.wheelOn)) (fun _ => rfl) hready).trans (congrArg Boot.wheelOn hboot),
      memoryEnd_good_view (view := (·.clk.cclk)) (fun _ => rfl) hready, memoryEnd_good_view (view := (·.clk.phase)) (fun _ => rfl) hready,
      (memoryEnd_good_view (view := (·.boot.rdLat)) (fun _ => rfl) hready).trans (congrArg Boot.rdLat hboot),
      (memoryEnd_good_view (view := (·.boot.failed)) (fun _ => rfl) hready).trans (congrArg Boot.failed hboot),
      memoryEnd_good_phase hready⟩
  case bad =>
    obtain ⟨k, hk⟩ := badLatency_of_bad hbad
    have hstop := congrArg State.boot (memoryEnd_bad (s := s) hk)
    exact ⟨congrArg Boot.phase hstop, congrArg Boot.cause hstop⟩
  case frame =>
    exact eq_mergeKept (K := { Keep.all with boot := false, clk := false, cal := false, mbx := false, err := false })
      (memoryEnd_frame s i rfl rfl rfl rfl rfl)
  case image =>
    cases hv : validateImage bs none s.boot.lc s.boot.settings.minSvn s.boot.settings.signers with
    | error f =>
      have hread := flashImageRead_error hv
      have hboot := (congrArg State.boot hread).trans (enterBare_noteCause_boot _ _ _)
      have himg := (congrArg State.img hread).trans
        (obs_img (enterBare_noteCause_frame (K := { Keep.none with img := true }) (imageRefused s bs f) 2 f.code rfl rfl))
      exact ⟨congrArg (fun u : State => u.boot.phase) hread, congrArg Img.code himg,
        fun hc => ⟨congrArg Boot.cause (hboot.trans (if_pos hc)), congrArg Boot.detail (hboot.trans (if_pos hc))⟩,
        fun hc => (congrArg Boot.cause (hboot.trans (if_neg hc)) :),
        congrArg Img.errSection himg, congrArg Img.errOffset himg, (congrArg Img.force himg :)⟩
    | ok im =>
      dsimp only
      cases hg : guestTrouble s im with
      | some p => exact acceptImage_stopped (flashImageRead_ok hv) hg
      | none => exact acceptImage_force (flashImageRead_ok hv) hg
  case mailbox =>
    exact ((getMbx_enterBare _ m).trans (if_neg hm)).trans
      (congrArg (tabGet mailbox0 · m) (obs_mbx (noteCause_frame (K := { Keep.none with mbx := true }) s 2 qsImgFlash rfl)))
  case bare => exact eq_mergeKept (K := { Keep.all with boot := false, mbx := false }) (enterBare_noteCause_frame s _ _ rfl rfl)

end Sys2Proof.Machine
end

section
/-! PROOFS. Phase 7 of the start-up: the training of the link or a solitary start, and the first tick. -/

namespace Sys2Proof.Machine

set_option Elab.async false

/-! The end of phase 6 (R135, R136). -/

theorem execPowerPhaseEnd_settled {s : State} (hp : s.boot.phase = .power) (h : ∀ d, 72 ≤ d → d < 80 → (getDom s d).req = none) :
    exec .powerPhaseEnd s = .next (trailPhase s) := by
  have hall : (List.range 8).all (fun i => (getDom s (72 + i)).req.isNone) = true := List.all_eq_true.2 fun i hi =>
    Option.isNone_iff_eq_none.2 (h (72 + i) (Nat.le_add_right 72 i) (Nat.add_lt_add_left (List.mem_range.1 hi) 72))
  exact next_of_pos (by rw [hp, hall]; rfl) _ s

/-- Phase 7 begins with every lane untrained; its count of errors stays (R504). -/
noncomputable def untrained (s : State) : State := { s with
  boot := { s.boot with phase := .trail }
  trl := { s.trl with
    training := true, lost := s.trl.up || (s.trl.training && s.trl.lost), up := false
    lanes := s.trl.lanes.map fun x => (x.1, { trlLane0 with errors := x.2.errors }) } }

section
variable {s : State}

theorem trailPhase_solo (h : s.trl.soloNext = true) : trailPhase s =
    startSolitary (updTrl (updBoot s fun b => { b with phase := .trail }) fun t => { t with solo := true }) 4 := if_pos h

theorem trailPhase_faulted (h : s.trl.soloNext ≠ true) (hf : (getDom s 79).fault = true) :
    trailPhase s = startSolitary (updBoot s fun b => { b with phase := .trail }) 4 := (if_neg h).trans (if_pos hf)

theorem trailPhase_trains (h : s.trl.soloNext = false) (hf : (getDom s 79).fault = false) : trailPhase s = sendSets (untrained s) :=
  (if_neg (Bool.eq_false_iff.1 h)).trans (if_neg (Bool.eq_false_iff.1 hf))

/-- The chip starts solitary by TRL_CTRL.solo_next or a fault of domain 79 (R136). -/
theorem trailPhase_alone (h : s.trl.soloNext = true ∨ (getDom s 79).fault = true) :
    ∃ u, trailPhase s = startSolitary u 4 ∧ u.boot.phase = .trail ∧ u.out = s.out := by
  by_cases hsolo : s.trl.soloNext = true
  · exact ⟨_, trailPhase_solo hsolo, rfl, rfl⟩
  · exact ⟨_, trailPhase_faulted hsolo (h.resolve_left hsolo), rfl, rfl⟩

end

theorem tabGet_mapValues {α : Type} (d : α) (f : α → α) (hd : f d = d) (t : Tab α) (i : Nat) :
    tabGet d (t.map fun x => (x.1, f x.2)) i = f (tabGet d t i) := by
  induction t with
  | nil => exact hd.symm
  | cons x r ih => exact (if_congr Iff.rfl rfl ih).trans (apply_ite f _ _ _).symm

theorem getLane_untrained (s : State) (l : Nat) : getLane (untrained s) l = { trlLane0 with errors := (getLane s l).errors } :=
  tabGet_mapValues trlLane0 (fun x => { trlLane0 with errors := x.errors }) rfl s.trl.lanes l

theorem sendSets_boot (s : State) : (sendSets s).boot = s.boot := obs_boot (K := { Keep.none with boot := true }) (sendSets_frame s rfl)

theorem sendSets_trl (s : State) : (sendSets s).trl = s.trl := obs_trl (K := { Keep.none with trl := true }) (sendSets_frame s rfl)

/-- What a lane sends does not depend on what the lanes before it sent. -/
theorem forEach_trainingSet {s : State} (ls : List Nat) {u : State} (h : trainingChars u = trainingChars s) :
    (forEach ls u fun u l => emit u (.trainingSet l (trainingChars u l))) =
      forEach ls u fun u l => emit u (.trainingSet l (trainingChars s l)) := by
  induction ls generalizing u with
  | nil => rfl
  | cons l ls ih =>
    have hhead := congrArg (fun c : Nat → List TrlChar => emit u (.trainingSet l (c l))) h
    exact (ih (u := emit u (.trainingSet l (trainingChars u l))) h).trans
      (congrArg (forEach ls · fun u l => emit u (.trainingSet l (trainingChars s l))) hhead)

theorem trailPhase_phase (s : State) : (trailPhase s).boot.phase = .trail := by
  by_cases h : s.trl.soloNext = true ∨ (getDom s 79).fault = true
  · obtain ⟨u, hu, hphase, _⟩ := trailPhase_alone h
    exact (congrArg (fun t : State => t.boot.phase) hu).trans hphase
  · obtain ⟨hsolo, hf⟩ := not_or.1 h
    have hsets := trailPhase_trains (Bool.eq_false_iff.2 hsolo) (Bool.eq_false_iff.2 hf)
    exact congrArg Boot.phase ((congrArg State.boot hsets).trans (sendSets_boot _))

theorem mem_sendSets {s t : State} (ht : t = sendSets s) {l : Nat} (hl : l < 4) (hst : (getLane s l).st ≠ 1) :
    .trainingSet l (trainingChars t l) ∈ t.out := by
  subst ht
  have hchars : trainingChars (sendSets s) = trainingChars s :=
    forEach_view (view := trainingChars) (f := fun s l => emit s (.trainingSet l (trainingChars s l))) (fun _ _ => rfl) _ s
  rw [hchars]
  unfold sendSets
  rw [forEach_trainingSet _ rfl]
  exact forEach_emit_out (fun l => .trainingSet l (trainingChars s l)) _ s _ (.inr ⟨l, by simp [hl, hst], rfl⟩)

/-! The first tick (R137 to R139). -/

theorem firstTickDue_early {s : State} {at' : Nat} (hsolo : s.boot.solitary = false) (hat : s.trl.startAt = some at')
    (h : now16 s < at') : firstTickDue s = false := by
  simp [firstTickDue, hsolo, hat, h]

theorem firstTickDue_true {s : State} (hp : s.boot.phase = .trail)
    (h : s.boot.solitary = true ∨ (s.boot.launch ≠ none ∧ ∀ at', s.trl.startAt = some at' → at' ≤ now16 s)) :
    firstTickDue s = true := by
  refine Bool.and_eq_true_iff.2 ⟨beq_iff_eq.2 hp, Bool.or_eq_true_iff.2 (h.imp_right fun hagreed => ?_)⟩
  exact Bool.and_eq_true_iff.2 ⟨Option.isSome_iff_ne_none.2 hagreed.1,
    (Option.all_eq_true _ _).2 fun at' hat => decide_eq_true (hagreed.2 at' hat)⟩

/-- The contexts' generations have advanced, as the first tick of a warm start finds them (R138). -/
noncomputable def gensReady (s : State) : State := if s.boot.warm then advanceGens (openCclk s) else openCclk s

/-- Time as the first tick begins (R137, R138). -/
noncomputable def firstClk (s : State) : Clk :=
  { s.clk with postmark := firstPostmark s, tickStart := nextCclk s, refTick := nowRef s, cclk := 0, phase := 0 }

/-- The device runs, at cclk 0 of its first tick, and no record is held (R137, R139). -/
noncomputable def tickBegun (s : State) (us : Nat) : State := { s with
  clk := firstClk s, boot := { s.boot with phase := .running, bootUs := us, wheelOn := false }, err := { s.err with held := [] } }

/-- The records held go to the global ring, and the boot service goes (R139, R144). -/
noncomputable def heldStaged (s : State) (held : List ErrRec) : State :=
  let s := forEach held (standingCauses (updCal s fun c => { c with poisoned := [] })) fun s r => stageIn s globalRing r
  heartbeatSend (if (getMbx s 0).receiver = 0 then s else freeLocks (removeRecv s 0) 0x80)

/-- How the chip started is recorded (R518). -/
noncomputable def launchTold (s : State) (pm : Nat) : State :=
  if s.trl.how ≤ 3 then trailRec s qsTrlLaunched 0 pm s.trl.how (if s.trl.how ≤ 1 then s.trl.who else 0) else s

/-- Time, the start-up fields and the errors: what a first tick settles before all else. -/
noncomputable def Keep.settled : Keep := { Keep.none with clk := true, boot := true, err := true }

theorem raise_running {s : State} (h : s.boot.phase = .running) (r : ErrRec) : obs Keep.settled (raise s r) = obs Keep.settled s := by
  have hrun : running s = true := beq_iff_eq.2 h
  have hstage : ∀ (u : State) (k : Nat), obs Keep.settled (stageIn u k r) = obs Keep.settled u := fun u k => stageIn_frame u k r rfl
  unfold raise
  rw [if_neg (by simp [hrun])]
  dsimp only
  split
  · exact hstage _ _
  · exact (hstage _ _).trans (hstage _ _)

theorem launchTold_running {s : State} (h : s.boot.phase = .running) (pm : Nat) :
    obs Keep.settled (launchTold s pm) = obs Keep.settled s := by
  unfold launchTold
  split
  · exact raise_running h _
  · rfl

theorem heldStaged_settled (s : State) (held : List ErrRec) : obs Keep.settled (heldStaged s held) = obs Keep.settled s := by
  simp [heldStaged, Keep.settled, Keep.none]

/-- The rest of a first tick leaves what it has settled (R138, R139). -/
theorem firstTick_settled (s : State) :
    obs Keep.settled (firstTick s) = obs Keep.settled (tickBegun (gensReady s) (holdAt 32 (nowRef s / 100))) := by
  have hstaged := heldStaged_settled (tickBegun (gensReady s) (holdAt 32 (nowRef s / 100))) s.err.held
  have htold := launchTold_running (congrArg Boot.phase (obs_boot hstaged)) (firstPostmark (gensReady s))
  have hrest : ∀ u : State, obs Keep.settled (firstTickTrust (driveUrgency (overcommitNow (issueAll u)))) = obs Keep.settled u :=
    fun u => by simp [Keep.settled, Keep.none]
  have hparts : firstTick s = firstTickTrust (driveUrgency (overcommitNow (issueAll (launchTold
    (heldStaged (tickBegun (gensReady s) (holdAt 32 (nowRef s / 100))) s.err.held) (firstPostmark (gensReady s)))))) := rfl
  rw [hparts, hrest, htold, hstaged]

theorem gensReady_eq (s : State) : gensReady s = { s with ctx := (gensReady s).ctx, cc := (gensReady s).cc } :=
  eq_mergeKept (K := { Keep.all with ctx := false, cc := false }) (by simp [gensReady, Keep.all])

theorem firstTick_clk (s : State) : (firstTick s).clk = firstClk s :=
  (obs_clk (firstTick_settled s)).trans (congrArg firstClk (gensReady_eq s) :)

theorem firstPostmark_agreed {s : State} {p : Nat} (hs : s.boot.solitary = false) (hl : s.boot.launch = some p) :
    firstPostmark s = p := by
  unfold firstPostmark
  rw [hs, hl]

theorem firstPostmark_cold {s : State} (hs : s.boot.solitary = true) (hw : s.boot.warm = false) : firstPostmark s = 0 := by
  unfold firstPostmark
  rw [hs, hw]
  cases s.boot.launch <;> rfl

theorem firstPostmark_warm {s : State} {p : Nat} (hs : s.boot.solitary = true) (hw : s.boot.warm = true)
    (hl : s.clk.lastPostmark = some p) : firstPostmark s = p + 1 := by
  unfold firstPostmark
  rw [hs, hw, hl]
  cases s.boot.launch <;> rfl

/-- Settles O11: phase 7 by what training meets, and the first tick by what it settles first. -/
theorem trailPhaseAndFirstTick : Obligations.TrailPhaseAndFirstTick := by
  refine ⟨fun s hp hreq => ⟨trailPhase s, execPowerPhaseEnd_settled hp hreq, trailPhase_phase s, fun hsolo hf => ?trains,
      fun h => ?alone, eq_mergeKept (K := { Keep.all with boot := false, trl := false, out := false }) (trailPhase_frame s rfl rfl rfl)⟩,
    fun s hp hs hup hl => ?untrained, fun s hp hs hup hl => ?unlaunched,
    fun s p at' _ hs _ hat hlt => congrArg Host.Outcome.next (if_neg (by simp [firstTickDue_early hs hat hlt])), fun s hp h => ?first⟩
  case trains =>
    have hsets := trailPhase_trains hsolo hf
    have htrl := (congrArg State.trl hsets).trans (sendSets_trl _)
    have hboot := (congrArg State.boot hsets).trans (sendSets_boot _)
    have hlane := getLane_untrained s
    exact ⟨congrArg Trail.training htrl, congrArg Trail.up htrl,
      fun l => (congrArg (fun t : Trail => tabGet trlLane0 t.lanes l) htrl).trans (hlane l),
      fun l hl => mem_sendSets hsets hl ((congrArg TrlLane.st (hlane l)).trans_ne (by decide : trlLane0.st ≠ 1)),
      (congrArg Boot.solitary hboot :)⟩
  case alone =>
    obtain ⟨u, hu, _, hout⟩ := trailPhase_alone h
    exact ⟨congrArg (fun t : State => t.boot.solitary) hu, congrArg (fun t : State => t.trl.training) hu,
      (congrArg State.out hu).trans hout⟩
  case untrained => exact next_of_pos (by simp [hp, hs, hup, hl]) _ s
  case unlaunched => exact next_of_pos (by simp [hp, hs, hup, hl]) _ s
  case first =>
    have hclk := firstTick_clk s
    have hset := firstTick_settled s
    exact ⟨firstTick s, next_of_pos (firstTickDue_true hp h) _ s, congrArg Boot.phase (obs_boot hset), congrArg Boot.wheelOn (obs_boot hset),
      congrArg Clk.cclk hclk, congrArg Clk.phase hclk, congrArg Clk.tickStart hclk, congrArg ErrUnit.held (obs_err hset),
      fun p hs hl => (congrArg Clk.postmark hclk).trans (firstPostmark_agreed hs hl),
      fun hs hw => (congrArg Clk.postmark hclk).trans (firstPostmark_cold hs hw),
      fun p hs hw hl => (congrArg Clk.postmark hclk).trans (firstPostmark_warm hs hw hl)⟩

end Sys2Proof.Machine
end

section
/-! PROOFS. Bare: the boot service takes a message, and answers its delivery. -/

namespace Sys2Proof.Machine

set_option Elab.async false

/-! The acknowledgement of a taken message (R427). -/

/-- Mailbox `x` once its taken message has been acknowledged with a code. -/
noncomputable def answered (x : Mailbox) (c : Code) : Mailbox :=
  { updMsg x x.takenSeq fun g => { g with code := c, seq := x.takenSeq, done := true } with taken := false }

theorem updMsg_posted (x : Mailbox) (seq : Nat) (f : MbxMsg → MbxMsg) : (updMsg x seq f).posted = x.posted :=
  (apply_ite Mailbox.posted _ _ _).trans (ite_self _)

theorem updMsg_takenSeq (x : Mailbox) (seq : Nat) (f : MbxMsg → MbxMsg) : (updMsg x seq f).takenSeq = x.takenSeq :=
  (apply_ite Mailbox.takenSeq _ _ _).trans (ite_self _)

theorem msgOf_updMsg (x : Mailbox) (seq : Nat) (f : MbxMsg → MbxMsg) : msgOf (updMsg x seq f) seq = f (msgOf x seq) := by
  by_cases h : seq % 2 = 0
  · exact (if_pos h).trans ((congrArg Mailbox.even (if_pos h)).trans (congrArg f (if_pos h).symm))
  · exact (if_neg h).trans ((congrArg Mailbox.odd (if_neg h)).trans (congrArg f (if_neg h).symm))

theorem ackMsg_mbx (s : State) (m : Nat) (g : MbxMsg) (seq : Nat) (c : Code) : (ackMsg s m g seq c).mbx =
    (updMbx s m fun x => updMsg x seq fun g => { g with code := c, seq := seq, done := true }).mbx := by
  unfold ackMsg
  dsimp only
  split
  · exact notify_mbx _ _ _
  · rfl

theorem getMbx_bootAck (s : State) (c : Code) : getMbx (bootAck s c) 0 = answered (getMbx s 0) c :=
  (getMbx_updMbx _ 0 0 _).trans (congrArg (fun x : Mailbox => { x with taken := false })
    ((congrArg (tabGet mailbox0 · 0) (ackMsg_mbx s 0 _ _ c)).trans (getMbx_updMbx s 0 0 _)))

theorem getMbx_bootAck_other (s : State) (c : Code) {m : Nat} (h : m ≠ 0) : getMbx (bootAck s c) m = getMbx s m :=
  ((getMbx_updMbx _ 0 m _).trans (if_neg h)).trans
    ((congrArg (tabGet mailbox0 · m) (ackMsg_mbx s 0 _ _ c)).trans ((getMbx_updMbx s 0 m _).trans (if_neg h)))

section
variable {s t : State} {c : Code} (ht : t = bootAck s c)
include ht

theorem boot_of_bootAck : t.boot = s.boot :=
  (congrArg State.boot ht).trans (obs_boot (K := { Keep.none with boot := true }) (bootAck_frame s c rfl rfl))

theorem img_of_bootAck : t.img = s.img :=
  (congrArg State.img ht).trans (obs_img (K := { Keep.none with img := true }) (bootAck_frame s c rfl rfl))

theorem getMbx_of_bootAck : getMbx t 0 = answered (getMbx s 0) c := (congrArg (getMbx · 0) ht).trans (getMbx_bootAck s c)

theorem taken_of_bootAck : (getMbx t 0).taken = false := congrArg Mailbox.taken (getMbx_of_bootAck ht)

theorem msgOf_of_bootAck {n : Nat} (hn : (getMbx s 0).takenSeq = n) :
    msgOf (getMbx t 0) n = { msgOf (getMbx s 0) n with code := c, seq := n, done := true } := by
  subst hn
  exact (congrArg (msgOf · (getMbx s 0).takenSeq) (getMbx_of_bootAck ht)).trans (msgOf_updMsg (getMbx s 0) _ _)

theorem code_of_bootAck {n : Nat} (hn : (getMbx s 0).takenSeq = n) : (msgOf (getMbx t 0) n).code = c :=
  congrArg MbxMsg.code (msgOf_of_bootAck ht hn)

end

/-! A message is taken (R143). -/

/-- Mailbox `x` once its posted message has been taken. -/
noncomputable def taking (x : Mailbox) : Mailbox := { x with posted := false, taken := true, takenSeq := x.seq, takenMsg := msgOf x x.seq }

theorem getMbx_takeMsg (s : State) : getMbx (takeMsg s 0) 0 = taking (getMbx s 0) := getMbx_updMbx s 0 0 _

theorem getMbx_takeMsg_other (s : State) {m : Nat} (h : m ≠ 0) : getMbx (takeMsg s 0) m = getMbx s m :=
  (getMbx_updMbx s 0 m _).trans (if_neg h)

theorem bootChecks_takeMsg (s : State) : bootChecks (takeMsg s 0) = bootChecks s := by
  unfold bootChecks
  rw [getMbx_takeMsg]
  rfl

/-- The delivery of the message posted in mailbox 0: its op, its flash bit and its length (R142). -/
noncomputable def deliveryOf (ws : List Word) : Nat × Bool × Nat := (bootOp ws, wbit (ws.getD 0 0) 8, field (ws.getD 2 0) 0 25)

section
variable {s : State}

theorem bootMessage_refused {c : Code} (h : bootChecks s = some c) : bootMessage s = bootAck (takeMsg s 0) c := by
  unfold bootMessage
  dsimp only
  rw [bootChecks_takeMsg, h]
  rfl

theorem bootMessage_runs (h : bootChecks s = none) : ∃ n a l, bootMessage s =
    hostReadSpan n (updBoot (takeMsg s 0) fun b => { b with delivery := some (deliveryOf (getMbx (takeMsg s 0) 0).data) }) a l := by
  unfold bootMessage
  dsimp only
  rw [bootChecks_takeMsg, h]
  exact ⟨_, _, _, rfl⟩

theorem bootMessage_runs_mbx (h : bootChecks s = none) (m : Nat) : getMbx (bootMessage s) m = getMbx (takeMsg s 0) m := by
  obtain ⟨n, a, l, hrun⟩ := bootMessage_runs h
  have hmbx := obs_mbx (K := { Keep.none with mbx := true }) (hostReadSpan_frame n (updBoot (takeMsg s 0) fun b =>
    { b with delivery := some (deliveryOf (getMbx (takeMsg s 0) 0).data) }) a l rfl)
  exact congrArg (tabGet mailbox0 · m) ((congrArg State.mbx hrun).trans hmbx)

theorem bootMessage_runs_delivery (h : bootChecks s = none) :
    (bootMessage s).boot.delivery = some (deliveryOf (getMbx s 0).data) := by
  obtain ⟨n, a, l, hrun⟩ := bootMessage_runs h
  have hboot := obs_boot (K := { Keep.none with boot := true }) (hostReadSpan_frame n (updBoot (takeMsg s 0) fun b =>
    { b with delivery := some (deliveryOf (getMbx (takeMsg s 0) 0).data) }) a l rfl)
  exact (congrArg (fun u : State => u.boot.delivery) hrun).trans ((congrArg Boot.delivery hboot).trans
    (congrArg (fun x : Mailbox => some (deliveryOf x.data)) (getMbx_takeMsg s) :))

theorem getMbx_bootMessage (s : State) :
    getMbx (bootMessage s) 0 = (bootChecks s).elim (taking (getMbx s 0)) (answered (taking (getMbx s 0))) := by
  cases h : bootChecks s with
  | none => exact (bootMessage_runs_mbx h 0).trans (getMbx_takeMsg s)
  | some c => exact (getMbx_of_bootAck (bootMessage_refused h)).trans (congrArg (answered · c) (getMbx_takeMsg s))

theorem getMbx_bootMessage_other (s : State) {m : Nat} (hm : m ≠ 0) : getMbx (bootMessage s) m = getMbx s m := by
  refine Eq.trans ?_ (getMbx_takeMsg_other s hm)
  cases h : bootChecks s with
  | none => exact bootMessage_runs_mbx h m
  | some c => exact (congrArg (getMbx · m) (bootMessage_refused h)).trans (getMbx_bootAck_other _ c hm)

theorem bootMessage_posted (s : State) : (getMbx (bootMessage s) 0).posted = false := by
  refine (congrArg Mailbox.posted (getMbx_bootMessage s)).trans ?_
  cases bootChecks s with
  | none => rfl
  | some c => exact updMsg_posted _ _ _

/-- Whatever the checks find, the message of mailbox 0 is the one taken (R142). -/
theorem bootMessage_takenSeq (s : State) : (getMbx (bootMessage s) 0).takenSeq = (getMbx s 0).seq := by
  refine (congrArg Mailbox.takenSeq (getMbx_bootMessage s)).trans ?_
  cases bootChecks s with
  | none => rfl
  | some c => exact updMsg_takenSeq _ _ _

theorem execBoot_ready {c : Instr} (hp : s.boot.phase = .bare) (hposted : (getMbx s 0).posted = true) (hd : s.boot.delivery = none)
    (hf : s.img.flashing = none)
    (hc : (c = .bootImage ∧ bootOp (getMbx s 0).data ≠ 2) ∨ (c = .bootSettings ∧ bootOp (getMbx s 0).data = 2)) :
    exec c s = .next (bootMessage s) := by
  have hready : bootReady s = true := by
    unfold bootReady
    rw [hp, hposted, hd, hf]
    rfl
  rcases hc with ⟨rfl, hop⟩ | ⟨rfl, hop⟩
  · exact next_of_pos (Bool.and_eq_true_iff.2 ⟨hready, bne_iff_ne.2 hop⟩) _ s
  · exact next_of_pos (Bool.and_eq_true_iff.2 ⟨hready, beq_iff_eq.2 hop⟩) _ s

end

/-! The delivery ends (R143). -/

/-- No delivery is under way any more. -/
noncomputable def delivered (s : State) : State := updBoot s fun b => { b with delivery := none }

section
variable {s : State} {d : Nat × Bool × Nat} (hd : s.boot.delivery = some d)
include hd

theorem bootDelivery_failed : bootDelivery s .failed = bootAck (delivered s) qsImgHostRead := by
  unfold bootDelivery
  rw [hd]
  rfl

theorem bootDelivery_bytes (bs : List Byte) : bootDelivery s (.bytes bs) =
    if d.1 = 1 then bootImageRead (delivered s) d.2.1 d.2.2 bs else bootSettingsRead (delivered s) bs := by
  unfold bootDelivery
  rw [hd]
  rfl

theorem bootDelivery_image (hop : d.1 = 1) (bs : List Byte) :
    bootDelivery s (.bytes bs) = bootImageRead (delivered s) d.2.1 d.2.2 bs := (bootDelivery_bytes hd bs).trans (if_pos hop)

theorem bootDelivery_settings (hop : d.1 ≠ 1) (bs : List Byte) :
    bootDelivery s (.bytes bs) = bootSettingsRead (delivered s) bs := (bootDelivery_bytes hd bs).trans (if_neg hop)

end

/-! An image is delivered (R143, steps 5 and 6). -/

theorem guestTrouble_congr {s t : State} (h : t.boot.failed = s.boot.failed) (im : Image) : guestTrouble t im = guestTrouble s im := by
  unfold guestTrouble
  rw [h]

theorem getMbx_acceptImage (s : State) (im : Image) (inFlash : Bool) (m : Nat) : getMbx (acceptImage s im inFlash) m = getMbx s m :=
  congrArg (tabGet mailbox0 · m) (obs_mbx (K := { Keep.none with mbx := true })
    (acceptImage_frame s im inFlash rfl rfl rfl rfl rfl rfl rfl rfl rfl rfl rfl rfl rfl rfl))

/-- The message of an image that does not go to the flash is answered (R143). -/
noncomputable def imageAnswered (s : State) (flash : Bool) (bs : List Byte) : State :=
  bootAck (stageTraffic s bs) (if flash = true then qsImgFlash else qsOk)

theorem imageAnswered_boot (s : State) (flash : Bool) (bs : List Byte) : (imageAnswered s flash bs).boot = s.boot :=
  boot_of_bootAck (s := stageTraffic s bs) rfl

section
variable {s : State} {flash : Bool} {len : Nat} {bs : List Byte}

theorem bootImageRead_error {f : ImageFault}
    (h : validateImage (bs.take len) (some len) s.boot.lc s.boot.settings.minSvn s.boot.settings.signers = .error f) :
    bootImageRead s flash len bs = bootAck (imageRefused s (bs.take len) f) f.code := by
  unfold bootImageRead startImage
  simp only [stageTraffic_boot, h]
  rfl

variable {im : Image}
  (h : validateImage (bs.take len) (some len) s.boot.lc s.boot.settings.minSvn s.boot.settings.signers = .ok im)
include h

theorem bootImageRead_ok : bootImageRead s flash len bs =
    if flash = true ∧ s.boot.flashPresent = true then
      emit (updImg (stageTraffic s (bs.take len)) fun i =>
        { i with flashing := some (.image im.bytes), flashImage := none, staged := some im }) (.flashWrite 0x00100000 im.bytes)
    else acceptImage (imageAnswered s flash (bs.take len)) im false := by
  unfold bootImageRead startImage
  simp only [stageTraffic_boot, h]
  cases flash with
  | true => exact (if_pos rfl).trans (if_congr (and_iff_right rfl).symm rfl rfl)
  | false => rfl

theorem bootImageRead_flashed (hflash : flash = true) (hpresent : s.boot.flashPresent = true) :
    (bootImageRead s flash len bs).boot.phase = s.boot.phase ∧ (bootImageRead s flash len bs).img.flashing = some (.image im.bytes) := by
  have hwrite := (bootImageRead_ok h).trans (if_pos ⟨hflash, hpresent⟩)
  exact ⟨(congrArg (fun u : State => u.boot.phase) hwrite :), congrArg (fun u : State => u.img.flashing) hwrite⟩

theorem bootImageRead_accepted (hf : flash = false ∨ s.boot.flashPresent = false) : bootImageRead s flash len bs =
    acceptImage (imageAnswered s flash (bs.take len)) im false :=
  (bootImageRead_ok h).trans (if_neg fun hboth => hf.elim (fun hflash => Bool.false_ne_true (hflash.symm.trans hboth.1))
    fun habsent => Bool.false_ne_true (habsent.symm.trans hboth.2))

end

theorem acceptImage_delivery {s : State} (h : s.boot.delivery = none) (im : Image) (inFlash : Bool) :
    (acceptImage s im inFlash).boot.delivery = none := by
  cases hg : guestTrouble s im with
  | some p => exact congrArg (fun u : State => u.boot.delivery) (acceptImage_trouble hg inFlash)
  | none =>
    have hforce := acceptImage_untroubled hg inFlash
    exact (congrArg (fun u : State => u.boot.delivery) hforce).trans ((congrArg Boot.delivery (imageApplied_boot s im inFlash)).trans h)

theorem bootImageRead_delivery {s : State} (hd : s.boot.delivery = none) (flash : Bool) (len : Nat) (bs : List Byte) :
    (bootImageRead s flash len bs).boot.delivery = none := by
  cases hv : validateImage (bs.take len) (some len) s.boot.lc s.boot.settings.minSvn s.boot.settings.signers with
  | error f => exact (congrArg Boot.delivery (boot_of_bootAck (bootImageRead_error hv))).trans hd
  | ok im =>
    refine (congrArg (fun u : State => u.boot.delivery) (bootImageRead_ok hv)).trans ?_
    split
    · exact hd
    · exact acceptImage_delivery ((congrArg Boot.delivery (imageAnswered_boot s flash _)).trans hd) im false

/-! A settings record is delivered (R79, R143). -/

theorem bootSettingsRead_boot (s : State) (bs : List Byte) : (bootSettingsRead s bs).boot = s.boot :=
  obs_boot (K := { Keep.none with boot := true }) (bootSettingsRead_frame s bs rfl rfl rfl)

theorem bootSettingsRead_noFlash {s : State} (h : s.boot.flashPresent = false) (bs : List Byte) :
    bootSettingsRead s bs = bootAck s qsImgFlash := if_pos (by rw [h]; rfl)

theorem bootSettingsRead_refused {s : State} {bs : List Byte} (h : s.boot.flashPresent = true) (ha : settingsAllowed s bs none = false) :
    bootSettingsRead s bs = bootAck s qsImgSettings := (if_neg (by rw [h]; decide)).trans (if_pos (by rw [ha]; rfl))

theorem bootSettingsRead_written {s : State} {bs : List Byte} (h : s.boot.flashPresent = true) (ha : settingsAllowed s bs none = true) :
    bootSettingsRead s bs = settingsBegin (updImg s fun i => { i with busy := false }) (readSettings bs) :=
  (if_neg (by rw [h]; decide)).trans (if_neg (by rw [ha]; decide))

theorem bootDelivery_delivery {s : State} {d : Nat × Bool × Nat} (hd : s.boot.delivery = some d) (bs : List Byte) :
    (bootDelivery s (.bytes bs)).boot.delivery = none := by
  by_cases hop : d.1 = 1
  · exact (congrArg (fun u : State => u.boot.delivery) (bootDelivery_image hd hop bs)).trans (bootImageRead_delivery rfl _ _ _)
  · exact congrArg Boot.delivery ((congrArg State.boot (bootDelivery_settings hd hop bs)).trans (bootSettingsRead_boot _ bs))

/-- Settles O12: a message is taken and checked, and a delivery ends by what was read. -/
theorem bootServiceMessages : Obligations.BootServiceMessages := by
  refine ⟨fun s c hp hposted hd hf hc => ⟨bootMessage s, execBoot_ready hp hposted hd hf hc, bootMessage_posted s,
      fun m hm => getMbx_bootMessage_other s hm, ?checks, ?message⟩,
    fun s hp hposted hd hf => ⟨fun hop => ⟨_, execBoot_ready hp hposted hd hf (.inl ⟨rfl, hop⟩), bootMessage_takenSeq s⟩,
      fun hop => ⟨_, execBoot_ready hp hposted hd hf (.inr ⟨rfl, hop⟩), bootMessage_takenSeq s⟩⟩,
    fun s d hp hd => ⟨⟨bootDelivery s .failed, next_of_pos (by rw [hp]; rfl) _ s, ?failed⟩,
      fun bs => ⟨bootDelivery s (.bytes bs), next_of_pos (by rw [hp]; rfl) _ s, bootDelivery_delivery hd bs,
        fun hop => ?image, fun hop => ?settings⟩⟩⟩
  case checks =>
    cases hchecks : bootChecks s with
    | none => exact ⟨(congrArg Mailbox.taken (bootMessage_runs_mbx hchecks 0)).trans (congrArg Mailbox.taken (getMbx_takeMsg s)),
        bootMessage_runs_delivery hchecks⟩
    | some code =>
      have hack := bootMessage_refused hchecks
      have hmsg := msgOf_of_bootAck hack (congrArg Mailbox.takenSeq (getMbx_takeMsg s))
      exact ⟨taken_of_bootAck hack, (congrArg Boot.delivery (boot_of_bootAck hack)).trans hd,
        congrArg MbxMsg.done hmsg, congrArg MbxMsg.code hmsg⟩
  case message =>
    exact eq_mergeKept (K := { Keep.all with boot := false, mbx := false, out := false }) (bootMessage_frame s rfl rfl rfl)
  case failed =>
    have hack := bootDelivery_failed hd
    exact ⟨boot_of_bootAck hack, taken_of_bootAck hack, code_of_bootAck hack rfl,
      eq_mergeKept (K := { Keep.all with boot := false, mbx := false, out := false }) ((congrArg (obs _) hack).trans
        ((bootAck_frame (delivered s) _ rfl rfl).trans (updBoot_frame s _ rfl)))⟩
  case image =>
    have hread := bootDelivery_image hd hop bs
    cases hv : validateImage (bs.take d.2.2) (some d.2.2) s.boot.lc s.boot.settings.minSvn s.boot.settings.signers with
    | error f =>
      have hack := hread.trans (bootImageRead_error (s := delivered s) hv)
      exact ⟨(congrArg Boot.phase (boot_of_bootAck hack)).trans hp, (congrArg Img.force (img_of_bootAck hack) :),
        taken_of_bootAck hack, code_of_bootAck hack rfl⟩
    | ok im =>
      refine ⟨fun hflash hpresent => ?_, fun hf => ?_⟩
      · obtain ⟨hphase, hflashing⟩ := bootImageRead_flashed (s := delivered s) hv hflash hpresent
        exact ⟨(congrArg (fun u : State => u.boot.phase) hread).trans (hphase.trans hp),
          (congrArg (fun u : State => u.img.flashing) hread).trans hflashing⟩
      · have haccept := hread.trans (bootImageRead_accepted (s := delivered s) hv hf)
        have hmbx := (congrArg (getMbx · 0) haccept).trans (getMbx_acceptImage _ im false 0)
        have hguest := guestTrouble_congr (congrArg Boot.failed (imageAnswered_boot (delivered s) d.2.1 (bs.take d.2.2))) im
        refine ⟨(congrArg Mailbox.taken hmbx).trans (taken_of_bootAck rfl),
          (congrArg (fun x : Mailbox => (msgOf x _).code) hmbx).trans (code_of_bootAck rfl rfl), ?_⟩
        cases hg : guestTrouble s im with
        | some p => exact acceptImage_stopped haccept (hguest.trans hg)
        | none => exact acceptImage_force haccept (hguest.trans hg)
  case settings =>
    have hread := bootDelivery_settings hd hop bs
    refine ⟨(congrArg Boot.phase ((congrArg State.boot hread).trans (bootSettingsRead_boot _ bs))).trans hp, fun hf => ?_,
      fun hf ha => ?_, fun hf ha => ?_⟩
    · exact code_of_bootAck (hread.trans (bootSettingsRead_noFlash (s := delivered s) hf bs)) rfl
    · exact code_of_bootAck (hread.trans (bootSettingsRead_refused (s := delivered s) hf ha)) rfl
    · have hwritten := hread.trans (bootSettingsRead_written (s := delivered s) hf ha)
      exact ⟨congrArg (fun u : State => u.img.flashing.isSome) hwritten, (congrArg State.mbx hwritten :)⟩

end Sys2Proof.Machine
end

section
/-! PROOFS. Queues: what an operation on one leaves of the others, and dead letters (R227, R229, R241). -/

namespace Sys2Proof.Machine

/-- From `s` to `t` no queue but `q` has changed, and no field of `K`. -/
structure QueueAlone (K : Keep) (q : Nat) (s t : State) : Prop where
  others : ∀ k, k ≠ q → getQueue t k = getQueue s k
  rest : obs K t = obs K s

theorem getQueue_of_queues {s t : State} (h : t.queues = s.queues) (k : Nat) : getQueue t k = getQueue s k :=
  congrArg (tabGet queue0 · k) h

theorem getQueue_of_obs {s t : State} (h : obs { Keep.none with queues := true } t = obs { Keep.none with queues := true } s)
    (k : Nat) : getQueue t k = getQueue s k := getQueue_of_queues (obs_queues h) k

section
variable {K : Keep} {q : Nat} {s t u : State}

theorem QueueAlone.refl (K : Keep) (q : Nat) (s : State) : QueueAlone K q s s := ⟨fun _ _ => rfl, rfl⟩

theorem QueueAlone.trans (h1 : QueueAlone K q s t) (h2 : QueueAlone K q t u) : QueueAlone K q s u :=
  ⟨fun k hk => (h2.others k hk).trans (h1.others k hk), h2.rest.trans h1.rest⟩

theorem QueueAlone.of_queues (h : t.queues = s.queues) (hrest : obs K t = obs K s) : QueueAlone K q s t :=
  ⟨fun k _ => getQueue_of_queues h k, hrest⟩

theorem QueueAlone.updQueue (s : State) (f : Queue → Queue) (hq : K.queues = false) : QueueAlone K q s (updQueue s q f) :=
  ⟨fun k hk => (getQueue_updQueue s q k f).trans (if_neg hk), updQueue_frame s q f hq⟩

theorem QueueAlone.dropClient (s : State) (c : Client) (ha : K.acc = false) : QueueAlone K q s (dropClient s c) :=
  .of_queues rfl (dropClient_frame s c ha)

theorem QueueAlone.updQue (s : State) (f : QueUnit → QueUnit) (hu : K.que = false) : QueueAlone K q s (updQue s f) :=
  .of_queues rfl (updQue_frame s f hu)

theorem QueueAlone.updQwin (s : State) (n : Nat) (f : QueWin → QueWin) (hw : K.qwin = false) :
    QueueAlone K q s (updQwin s n f) := .of_queues rfl (updQwin_frame s n f hw)

end

theorem countLost_queues (s : State) (q k : Nat) : (countLost s q k).queues = s.queues :=
  obs_queues (K := { Keep.none with queues := true }) (countLost_frame s q k rfl)

/-! Dead letters (R229, R234). -/

/-- Queue `k` once the dead letters `xs` have been returned: behind its completions, but discarded once its ring has failed. -/
def deadBehind (k : Queue) (xs : List CplItem) : Queue :=
  if k.cplLost then k else { k with items := k.items ++ xs, owed := k.owed + xs.length }

@[simp] theorem deadBehind_st (k : Queue) (xs : List CplItem) : (deadBehind k xs).st = k.st :=
  (apply_ite Queue.st _ _ _).trans (ite_self _)
@[simp] theorem deadBehind_fetch (k : Queue) (xs : List CplItem) : (deadBehind k xs).fetch = k.fetch :=
  (apply_ite Queue.fetch _ _ _).trans (ite_self _)
@[simp] theorem deadBehind_buffered (k : Queue) (xs : List CplItem) : (deadBehind k xs).buffered = k.buffered :=
  (apply_ite Queue.buffered _ _ _).trans (ite_self _)
@[simp] theorem deadBehind_head (k : Queue) (xs : List CplItem) : (deadBehind k xs).head = k.head :=
  (apply_ite Queue.head _ _ _).trans (ite_self _)

theorem deadBehind_items {k : Queue} (h : k.cplLost = false) (xs : List CplItem) : (deadBehind k xs).items = k.items ++ xs :=
  congrArg Queue.items (if_neg (by rw [h]; decide) : deadBehind k xs = _)

theorem deadBehind_nil (k : Queue) : deadBehind k [] = k := by simp [deadBehind]

theorem deadBehind_append (k : Queue) (xs ys : List CplItem) : deadBehind (deadBehind k xs) ys = deadBehind k (xs ++ ys) := by
  by_cases h : k.cplLost = true <;> simp [deadBehind, h, Nat.add_assoc]

/-- A dead letter that has no entry reserved waits for one. -/
theorem deadWaits_deadBehind {k : Queue} (h : k.cplLost = false) {xs : List CplItem} {x : CplItem} (hx : x ∈ xs)
    (hkept : x.kept = false) : deadWaits (deadBehind k xs) = true := by
  unfold deadWaits
  rw [deadBehind_items h]
  exact List.any_eq_true.2 ⟨x, List.mem_append_right _ hx, by rw [hkept]; rfl⟩

/-- The dead letter of a returned envelope: its code, its tag and its end flag. -/
def deadOf (s : State) (d : Code × Nat × Bool) : CplItem := deadItem s d.1 d.2.1 d.2.2

/-- One envelope of queue `q` is returned. -/
def returnOne (q : Nat) (s : State) (d : Code × Nat × Bool) : State :=
  addItem (updQueue s q fun k => { k with owed := k.owed + 1 }) q (deadOf s d)

theorem returnDead_eq (s : State) (q : Nat) (ds : List (Code × Nat × Bool)) : returnDead s q ds = forEach ds s (returnOne q) := rfl

/-- An envelope that is no task's is returned: its queue alone changes, and the count of lost completions (R241). -/
theorem returnOne_alone {K : Keep} (hq : K.queues = false) (hw : K.qwin = false) (q : Nat) (s : State) (d : Code × Nat × Bool) :
    QueueAlone K q s (returnOne q s d) := by
  unfold returnOne addItem
  split
  · exact ((QueueAlone.updQueue s _ hq).trans (.updQueue _ _ hq)).trans
      (.of_queues (countLost_queues _ _ _) (countLost_frame _ _ _ hw))
  · exact (QueueAlone.updQueue s _ hq).trans (.updQueue _ _ hq)

theorem getQueue_returnOne (q : Nat) (s : State) (d : Code × Nat × Bool) :
    getQueue (returnOne q s d) q = deadBehind (getQueue s q) [deadOf s d] := by
  unfold returnOne addItem
  simp only [getQueue_updQueue, if_true]
  split
  next h =>
    refine (getQueue_of_queues (countLost_queues _ q _) q).trans ?_
    simp only [getQueue_updQueue, if_true]
    exact (if_pos h : deadBehind (getQueue s q) [deadOf s d] = _).symm
  next h => simp [deadBehind, h]

theorem returnDead_alone {K : Keep} (hq : K.queues = false) (hw : K.qwin = false) (q : Nat) :
    ∀ (ds : List (Code × Nat × Bool)) (s : State), QueueAlone K q s (returnDead s q ds)
  | [], s => .refl K q s
  | d :: ds, s => (returnOne_alone hq hw q s d).trans (returnDead_alone hq hw q ds (returnOne q s d))

theorem deadOf_congr {s t : State} (h : t.clk = s.clk) : deadOf t = deadOf s := by
  funext d
  unfold deadOf deadItem
  rw [h]

theorem getQueue_returnDead (q : Nat) : ∀ (ds : List (Code × Nat × Bool)) (s : State),
    getQueue (returnDead s q ds) q = deadBehind (getQueue s q) (ds.map (deadOf s))
  | [], s => (deadBehind_nil _).symm
  | d :: ds, s => by
    have hclk : (returnOne q s d).clk = s.clk :=
      obs_clk (returnOne_alone (K := { Keep.none with clk := true }) rfl rfl q s d).rest
    calc getQueue (returnDead s q (d :: ds)) q
        = deadBehind (getQueue (returnOne q s d) q) (ds.map (deadOf (returnOne q s d))) := getQueue_returnDead q ds _
      _ = deadBehind (getQueue s q) ([deadOf s d] ++ ds.map (deadOf s)) := by
          rw [getQueue_returnOne, deadOf_congr hclk, deadBehind_append]

/-! Envelopes refused at the head of a queue (R227, R232). -/

/-- Queue `k` once its head has passed `n` fetched envelopes: its head batch waits no more. -/
def headPast (k : Queue) (n : Nat) : Queue :=
  { k with
    waiting := false, tried := [], claimOrder := 0, claimTicks := 0, claimScratch := 0
    buffered := k.buffered.drop n, head := (k.head + n) % 2 ^ 32 }

/-- The envelopes `bs` with their codes, as they are returned. -/
def deadLetters (s : State) (codes : List Code) (bs : List (List Byte)) : List CplItem :=
  ((codes.zip bs).zip (endFlags bs)).map fun d => deadItem s d.1.1 (envTag d.1.2) d.2

theorem refuseHead_alone {K : Keep} (hq : K.queues = false) (hw : K.qwin = false) (s : State) (q : Nat) (codes : List Code) :
    QueueAlone K q s (refuseHead s q codes) :=
  ((QueueAlone.updQueue s _ hq).trans (.updQueue _ _ hq)).trans (returnDead_alone hq hw q _ _)

theorem getQueue_refuseHead (s : State) (q : Nat) (codes : List Code) : getQueue (refuseHead s q codes) q =
    deadBehind (headPast (getQueue s q) codes.length) (deadLetters s codes ((getQueue s q).buffered.take codes.length)) := by
  refine (getQueue_returnDead q _ _).trans ?_
  rw [getQueue_updQueue, if_pos rfl, stopWaiting, getQueue_updQueue, if_pos rfl, List.map_map]
  rfl

/-- The batch at the head of queue `k` is longer than its ring, and no dead letter waits for an entry (R227). -/
def Oversize (k : Queue) : Prop :=
  k.st = .enabled ∧ deadWaits k = false ∧ ∃ b, k.buffered.head? = some b ∧ envFlag b 3 = true ∧ k.depth < envBatchLen b

theorem oversizeHead_of {s : State} {q : Nat} (h : Oversize (getQueue s q)) : oversizeHead s q = refuseHead s q [qsStmTooBig] := by
  obtain ⟨hst, hdead, b, hb, hflag, hlen⟩ := h
  obtain ⟨r, hr⟩ := List.head?_eq_some_iff.1 hb
  unfold oversizeHead
  simp only [hr]
  exact if_pos (by simp [hst, hdead, hflag, hlen])

theorem oversizeHead_not {s : State} {q : Nat} (h : ¬ Oversize (getQueue s q)) : oversizeHead s q = s := by
  unfold oversizeHead
  dsimp only
  split
  next b r hr =>
    refine if_neg fun hc => h ?_
    simp only [Bool.and_eq_true, beq_iff_eq, decide_eq_true_eq, Bool.not_eq_true'] at hc
    obtain ⟨⟨⟨hst, hflag⟩, hlen⟩, hdead⟩ := hc
    exact ⟨hst, hdead, b, by rw [hr]; rfl, hflag, hlen⟩
  next => rfl

theorem oversizeHead_alone {K : Keep} (hq : K.queues = false) (hw : K.qwin = false) (s : State) (q : Nat) :
    QueueAlone K q s (oversizeHead s q) := by
  by_cases h : Oversize (getQueue s q)
  · rw [oversizeHead_of h]
    exact refuseHead_alone hq hw s q _
  · rw [oversizeHead_not h]
    exact .refl K q s

/-- A batch that is returned leaves the queue's state and its fetch. -/
theorem getQueue_oversizeHead (s : State) (q : Nat) : (getQueue (oversizeHead s q) q).st = (getQueue s q).st ∧
    (getQueue (oversizeHead s q) q).fetch = (getQueue s q).fetch := by
  by_cases h : Oversize (getQueue s q)
  · rw [oversizeHead_of h, getQueue_refuseHead]
    exact ⟨deadBehind_st _ _, deadBehind_fetch _ _⟩
  · rw [oversizeHead_not h]
    exact ⟨rfl, rfl⟩

end Sys2Proof.Machine
end

section
/-! PROOFS. Doorbells: their writes, and those that are applied later. -/

namespace Sys2Proof.Machine

/-! A doorbell write at the port (R93, R218). -/

theorem placeAt_doorbell (s : State) {page d : Nat} (hp : page < 2048) (hd : d < 512) :
    placeAt s (0x02000000 + page * 0x1000 + 8 * d) = .doorbell page d := by
  have hoff : (0x02000000 + page * 0x1000 + 8 * d) / 8 * 8 = 0x02000000 + page * 0x1000 + 8 * d := by omega
  have hpage : (0x02000000 + page * 0x1000 + 8 * d - 0x02000000) / 0x1000 = page := by omega
  have hbell : (0x02000000 + page * 0x1000 + 8 * d) % 0x1000 / 8 = d := by omega
  unfold placeAt
  simp only [hoff]
  rw [if_neg (by omega), if_neg (by omega), if_neg (by omega), if_pos (by omega), hpage, hbell]

/-- Doorbell `d` of page `p` of virtual function f + 1 is that of the clearing's page `p`. -/
theorem accessReach_doorbell {s : State} {f p d : Nat} (hf : f < 64) (hn : f < s.glob.numVfs) (hdef : defined s f = true)
    (hp : p < (getClr s f).cfg.dbCount) (hd : d < 512) (tag : Nat) :
    accessReach s (.host (f + 1) 2 (0x1000 * p + 8 * d) 0xFF tag) =
      .space (0x02000000 + ((getClr s f).cfg.dbBase + p) * 0x1000 + 8 * d) := by
  have hpage : (0x1000 * p + 8 * d) / 0x1000 = p := by omega
  have hbell : (0x1000 * p + 8 * d) % 0x1000 = 8 * d := by omega
  have hvf : f + 1 ≤ s.glob.numVfs ∧ f + 1 ≤ 64 := by omega
  have hown : defined s f = true ∧ p < (getClr s f).cfg.dbCount := ⟨hdef, hp⟩
  simp [accessReach, vfReach, hvf, hpage, hbell, hown]

theorem accessReq_tenant {f : Nat} (hf : f < 64) (bar addr : Nat) (be : BitVec 8) (tag : Nat) :
    accessReq (.host (f + 1) bar addr be tag) = reqTenant f := by
  have h : f + 1 ≤ 64 := hf
  simp [accessReq, h]

/-- A 64-bit write of a doorbell of an Open clearing that is served (R218). -/
theorem exec_doorbell {s : State} {f p d tag : Nat} (w : Word) (hrun : s.boot.phase = .running) (hf : f < 64) (hn : f < s.glob.numVfs)
    (hst : (getClr s f).st = .opened) (hp : p < (getClr s f).cfg.dbCount) (hd : d < 512)
    (hpage : (getClr s f).cfg.dbBase + p < 2048) :
    exec (.doorbell (.host (f + 1) 2 (0x1000 * p + 8 * d) 0xFF tag) w) s =
      .next (doorbellWrite (reqTenant f) ((getClr s f).cfg.dbBase + p) d w s) := by
  have hdef : defined s f = true := by
    unfold defined
    rw [hst]
    rfl
  have hwidth : accessWidth (.host (f + 1) 2 (0x1000 * p + 8 * d) 0xFF tag) = some .whole := if_pos ⟨rfl, by omega⟩
  refine congrArg Host.Outcome.next ?_
  rw [portWrite_place (accessOpen_running hrun (by simp)) w .failed (accessReach_doorbell hf hn hdef hp hd tag) hwidth
    (by rw [placeAt_doorbell s hpage hd]; rfl), placeAt_doorbell s hpage hd, accessReq_tenant hf]
  exact if_neg (by simp [running, hrun])

/-! Its word (R219, R221). -/

/-- Queue `k` with the pointers of a doorbell word; completion entries that it hands back are counted. -/
def pointersTaken (w : Word) (k : Queue) : Queue :=
  { k with
    tail := field w 0 32, cplHead := field w 32 32
    freed := if field w 32 32 = k.cplHead then k.freed else k.freed + 1 }

/-- A word that passes db_check is applied to an Enabled queue. -/
theorem dbApply_enabled {s : State} {q : Nat} {w : Word} (hst : (getQueue s q).st = .enabled)
    (hc : dbCheck (getQueue s q) w = true) : ∃ f : Queue → Queue, dbApply s q w = updQueue s q f ∧
      f (getQueue s q) = pointersTaken w (getQueue s q) ∧ ∀ k, (f k).spilled = k.spilled := by
  refine ⟨fun k => { pointersTaken w k with freed := (pointersTaken w (getQueue s q)).freed }, ?_, rfl, fun _ => rfl⟩
  unfold dbApply
  dsimp only
  rw [if_neg (by rw [hst]; decide), if_neg (by rw [hc]; decide), if_pos (by rw [hst]; rfl)]
  rfl

theorem doorbellWrite_served {s : State} {rq : Requester} {page d f : Nat} (w : Word) (ho : dbPageOwner s page = some f)
    (hst : (getClr s f).st = .opened) (hserve : (getClr s f).serveFrom ≤ s.clk.postmark) : doorbellWrite rq page d w s =
      if s.que.hot.contains (512 * page + d) then
        dbApply (touchQueue (updQue (recordStatus s (some f) rq qsOk) fun u => { u with hits := u.hits + 1 }) (512 * page + d))
          (512 * page + d) w
      else fifoPut (recordStatus s (some f) rq qsOk) (512 * page + d) w := by
  unfold doorbellWrite
  simp only [ho]
  exact if_neg (by simp [hst, hserve])

/-- A word that does not wait yet waits, and its queue's descriptor is asked for. -/
theorem fifoPut_room {s : State} {q : Nat} (w : Word) (hnew : ∀ e ∈ s.que.fifo, e.1 ≠ q) (hroom : s.que.fifo.length < 8192) :
    fifoPut s q w = pushOwn (updQue s fun u =>
      { u with fifo := u.fifo ++ [(q, w)], arrived := u.arrived.erase q, misses := u.misses + 1 })
        (ownReq (.own (q + 1)) false (descAddr q) (zeroBytes 64)) := by
  have hany : (s.que.fifo.any fun e => e.1 == q) = false := List.any_eq_false.2 fun e he => by simpa using hnew e he
  unfold fifoPut
  rw [if_neg (by rw [hany]; decide), if_pos hroom]

/-! DOORBELL_APPLY (R221). -/

theorem mem_tabPut {α : Type} {t : Tab α} {i : Nat} {v : α} {kv : Nat × α} (h : kv ∈ tabPut t i v) : kv = (i, v) ∨ kv ∈ t := by
  induction t with
  | nil => exact .inl (List.mem_singleton.1 h)
  | cons x r ih =>
    obtain ⟨k, w⟩ := x
    unfold tabPut at h
    split at h
    · exact List.mem_cons.1 h
    · split at h
      · exact (List.mem_cons.1 h).imp_right (List.mem_cons_of_mem _)
      · rcases List.mem_cons.1 h with h | h
        · exact .inr (h ▸ List.mem_cons_self)
        · exact (ih h).imp_right (List.mem_cons_of_mem _)

theorem mem_tabSet {α : Type} [DecidableEq α] {d : α} {t : Tab α} {i : Nat} {v : α} {kv : Nat × α} (h : kv ∈ tabSet d t i v) :
    kv = (i, v) ∨ kv ∈ t := by
  unfold tabSet at h
  split at h
  · exact .inr (List.mem_filter.1 h).1
  · exact mem_tabPut h

theorem tabGet_eq_or_mem {α : Type} (d : α) (t : Tab α) (i : Nat) : tabGet d t i = d ∨ ∃ k, (k, tabGet d t i) ∈ t := by
  induction t with
  | nil => exact .inl rfl
  | cons x r ih =>
    obtain ⟨k, w⟩ := x
    unfold tabGet
    split
    · exact .inr ⟨k, List.mem_cons_self⟩
    · exact ih.imp_right fun ⟨j, hj⟩ => ⟨j, List.mem_cons_of_mem _ hj⟩

/-- No doorbell word is spilled (R222). -/
def NoneSpilled (s : State) : Prop := ∀ kv ∈ s.queues, kv.2.spilled = false

theorem NoneSpilled.getQueue {s : State} (h : NoneSpilled s) (q : Nat) : (getQueue s q).spilled = false := by
  rcases tabGet_eq_or_mem queue0 s.queues q with hd | ⟨k, hk⟩
  · exact congrArg Queue.spilled hd
  · exact h _ hk

theorem NoneSpilled.updQueue {s : State} (h : NoneSpilled s) (q : Nat) {f : Queue → Queue} (hf : ∀ k, (f k).spilled = k.spilled) :
    NoneSpilled (updQueue s q f) := by
  intro kv hkv
  rcases mem_tabSet hkv with rfl | hold
  · exact (hf _).trans (h.getQueue q)
  · exact h kv hold

theorem NoneSpilled.unspillAll {s : State} (h : NoneSpilled s) : unspillAll s = s := by
  have hnone : (s.queues.filter fun kv => kv.2.spilled) = [] :=
    List.filter_eq_nil_iff.2 fun kv hkv => by rw [h kv hkv]; decide
  unfold Machine.unspillAll
  rw [hnone]
  rfl

/-- Queue `q`, which is cached, is the most recently used, and its word leaves the FIFO. -/
def wordTaken (s : State) (q : Nat) : State :=
  updQue (touchQueue s q) fun u => { u with fifo := u.fifo.filter (fun e => e.1 != q), arrived := u.arrived.erase q }

theorem doorbellApply_cached {s : State} {q : Nat} {w : Word} (hf : s.que.fifo.find? (fun e => e.1 == q) = some (q, w))
    (hot : s.que.hot.contains q = true) (ha : s.que.arrived.contains q = true) :
    doorbellApply s q = unspillAll (dbApply (wordTaken s q) q w) := by
  have hcache : enterCache s q = some (touchQueue s q) := if_pos hot
  unfold doorbellApply
  simp only [hf]
  rw [if_neg (by rw [ha]; decide), hcache]
  simp only [hot, if_true]
  rfl

/-- Settles O30: a doorbell reaches its queue at the port, and its word is applied at once, waits, or is applied later. -/
theorem doorbellsMoveQueuePointers : Obligations.DoorbellsMoveQueuePointers := by
  refine ⟨fun s f p d tag w hrun hf hn hst hserve hp hd hpage howner => ⟨_, exec_doorbell w hrun hf hn hst hp hd hpage, ?_⟩,
    fun s q w hfifo hot harr hst hcheck hspill => ?apply⟩
  · generalize (getClr s f).cfg.dbBase + p = page at hpage howner ⊢
    rw [doorbellWrite_served w howner hst hserve]
    generalize 512 * page + d = q
    have hcode : ∀ t, obs { Keep.none with win := true } t =
        obs { Keep.none with win := true } (recordStatus s (some f) (reqTenant f) qsOk) → (getWin t f).code = qsOk := fun t ht =>
      (congrArg (fun win => (tabGet win0 win f).code) (obs_win ht)).trans (getWin_recordStatus s f (reqTenant f) qsOk)
    cases hot : s.que.hot.contains q with
    | true =>
      refine ⟨hcode _ (dbApply_frame _ q w rfl rfl), fun _ hen hcheck => ?_, fun h => absurd h (by decide)⟩
      obtain ⟨g, hg, hpointers, -⟩ := dbApply_enabled
        (s := touchQueue (updQue (recordStatus s (some f) (reqTenant f) qsOk) fun u => { u with hits := u.hits + 1 }) q) hen hcheck
      have hq := (getQueue_updQueue (touchQueue (updQue (recordStatus s (some f) (reqTenant f) qsOk) fun u =>
        { u with hits := u.hits + 1 }) q) q q g).trans ((if_pos rfl).trans hpointers)
      rw [if_pos rfl, hg]
      refine ⟨?_, fun k hk => (getQueue_updQueue _ q k g).trans (if_neg hk), rfl⟩
      rw [hq]
      rfl
    | false =>
      refine ⟨hcode _ (fifoPut_frame _ q w rfl rfl), fun h => absurd h (by decide), fun _ hroom hnew => ?_⟩
      rw [if_neg (by decide), fifoPut_room (s := recordStatus s (some f) (reqTenant f) qsOk) w hnew hroom]
      exact ⟨rfl, ⟨_, rfl, rfl, rfl⟩, rfl, rfl⟩
  case apply =>
    obtain ⟨g, hg, hpointers, hkeep⟩ := dbApply_enabled (s := wordTaken s q) hst hcheck
    have hnone : NoneSpilled (updQueue (wordTaken s q) q g) := NoneSpilled.updQueue (s := wordTaken s q) hspill q hkeep
    have hq : getQueue (updQueue (wordTaken s q) q g) q = pointersTaken w (getQueue s q) :=
      (getQueue_updQueue _ q q g).trans ((if_pos rfl).trans hpointers)
    refine ⟨updQueue (wordTaken s q) q g, congrArg Host.Outcome.next ?_, congrArg Queue.tail hq, congrArg Queue.cplHead hq,
      fun e he => ?_, fun k hk => (getQueue_updQueue _ q k g).trans (if_neg hk), rfl⟩
    · rw [doorbellApply_cached hfifo hot harr, hg, hnone.unspillAll]
    · simpa using (List.mem_filter.1 he).2

end Sys2Proof.Machine
end

section
/-! PROOFS. The commands of a queue, and the write of a stream quota. -/

namespace Sys2Proof.Machine

/-! QUE_WCMD (R217, R244, R245). -/

/-- What an operation of QUE_WCMD does to queue `q` for window `n` (R217). -/
def queOperation (s : State) (n q op : Nat) : State :=
  match op with
  | 1 => configQueue s n q
  | 2 => enableQueue s q
  | 3 => disableQueue s q
  | _ => updQwin s n fun v => { v with desc := queueWords (getQueue s q) }

/-- The window's result of an operation that has been accepted (R245). -/
def queResult (u : State) (q op : Nat) (v : QueWin) : QueWin :=
  { v with code := qsOk, queue := q, st := (getQueue u q).st, done := op != 3 || (getQueue u q).st == .disabled }

theorem queResult_st (u : State) (q op : Nat) (v : QueWin) : (queResult u q op v).st = (getQueue u q).st := rfl

/-- Only a DISABLE is not done at once, where its queue is not Disabled yet. -/
theorem queResult_done {u : State} {q op : Nat} (h : op ≠ 3 ∨ (getQueue u q).st = .disabled) (v : QueWin) :
    (queResult u q op v).done = true := by
  rcases h with h | h <;> simp [queResult, h]

/-- An operation of queue `q` by a requester that reaches window `n`, of a clearing that may command its queues. -/
structure QueAllowed (s : State) (rq : Requester) (n q op : Nat) (w : Word) : Prop where
  reach : reachesOwn s rq n
  bits : noBits w (bitsFrom 4 15 ||| bitsFrom 36 63) = true
  clr : (getClr s n).st = .closed ∨ (getClr s n).st = .opened ∨ (getClr s n).st = .quiet
  queue : field w 16 20 = q
  owner : queueOwner s q = some n
  low : 1 ≤ op
  high : op ≤ 4
  allows : queueAllows op (getQueue s q).st = true
  config : op = 1 → firstBad (configChecks s n) = none

theorem firstBad_append {α : Type} {xs : List (Bool × α)} (ys : List (Bool × α)) (h : firstBad xs = none) :
    firstBad (xs ++ ys) = firstBad ys := by
  induction xs with
  | nil => rfl
  | cons x xs ih =>
    obtain ⟨b, a⟩ := x
    cases b with
    | true => exact ih h
    | false => exact absurd h (by simp)

/-- A QUE_WCMD whose checks pass. -/
theorem queCommand_accepted {s : State} {rq : Requester} {n q op : Nat} {w : Word} (h : QueAllowed s rq n q op w) :
    queCommand rq n (putField w 0 4 op) s =
      recordStatus (updQwin (queOperation s n q op) n (queResult (queOperation s n q op) q op)) (some n) rq qsOk := by
  have hop : field (putField w 0 4 op) 0 4 = op := by
    rw [field_putField w op (by decide) (by decide)]
    have := h.high
    omega
  have hqueue : field (putField w 0 4 op) 16 20 = q :=
    (field_putField_other w op 16 20 (by decide) (by decide) (by decide)).trans h.queue
  have hbits : noBits (putField w 0 4 op) (bitsFrom 4 15 ||| bitsFrom 36 63) = true := by
    refine noBits_putField op (by decide) (by decide) h.bits fun i _ hi => ?_
    have : i < 4 := hi
    interval_cases i <;> decide
  have hst : ((getClr s n).st == .closed || (getClr s n).st == .opened || (getClr s n).st == .quiet) = true := by
    rcases h.clr with h | h | h <;> rw [h] <;> rfl
  have hdef : defined s n = true := by
    rcases h.clr with h | h | h <;> unfold defined <;> rw [h] <;> rfl
  rw [queCommand, windowCmd_run h.reach]
  simp only [hop, hqueue]
  rw [checked_ok]
  · rfl
  · have hbase : firstBad [(noBits (putField w 0 4 op) (bitsFrom 4 15 ||| bitsFrom 36 63), qsReservedNonzero),
        (decide (1 ≤ op) && decide (op ≤ 4), qsIllegalValue), (defined s n, qsClrAbsent),
        ((getClr s n).st == .closed || (getClr s n).st == .opened || (getClr s n).st == .quiet, qsClrBadState),
        (queueOwner s q == some n, qsNotOwner), (queueAllows op (getQueue s q).st, qsQBadState)] = none := by
      simp only [firstBad_cons, firstBad_nil, hbits, hst, hdef, h.owner, h.allows, h.low, h.high]
      simp
    split
    next h1 => exact (firstBad_append _ hbase).trans (h.config h1)
    next => exact hbase

/-- What an accepted command leaves: the operation's own effect, and its window's result beside it (R245). -/
theorem queCommand_outcome {s : State} {rq : Requester} {n q op : Nat} {w : Word} (h : QueAllowed s rq n q op w) :
    ∃ t, queCommand rq n (putField w 0 4 op) s = t ∧ (∀ k, getQueue t k = getQueue (queOperation s n q op) k) ∧
      getQwin t n = queResult (queOperation s n q op) q op (getQwin (queOperation s n q op) n) ∧
      ∀ K : Keep, K.qwin = false → K.win = false → obs K t = obs K (queOperation s n q op) := by
  refine ⟨_, queCommand_accepted h, fun k => getQueue_recordStatus _ _ _ _ k, ?_, fun K hq hw =>
    (recordStatus_window_frame _ n rq qsOk hw).trans (updQwin_frame _ n _ hq)⟩
  rw [getQwin_recordStatus, getQwin_updQwin, if_pos rfl]

/-! DISABLE of a queue with nothing in it (R217). -/

theorem tasksOfQueue_of_tasks {s u : State} (h : u.tasks = s.tasks) (q : Nat) : tasksOfQueue u q = tasksOfQueue s q := by
  unfold tasksOfQueue taskList
  rw [h]

theorem disableDone_queues (s : State) (q : Nat) : (disableDone s q).queues = s.queues :=
  obs_queues (K := { Keep.none with queues := true }) (disableDone_frame s q rfl)

theorem queueSettle_others (s : State) (q k : Nat) (hk : k ≠ q) : getQueue (queueSettle s q) k = getQueue s k := by
  unfold queueSettle
  dsimp only
  split
  · split
    · exact (getQueue_of_queues (disableDone_queues _ q) k).trans ((getQueue_updQueue s q k _).trans (if_neg hk))
    · exact (getQueue_updQueue s q k _).trans (if_neg hk)
  · rfl

/-- A Disabling queue with nothing in it is Disabled. -/
theorem getQueue_queueSettle {s : State} {q : Nat} (hst : (getQueue s q).st = .disabling) (ht : tasksOfQueue s q = [])
    (hi : (getQueue s q).items = []) (hw : (getQueue s q).writing = false) :
    getQueue (queueSettle s q) q = { getQueue s q with st := .disabled, disableSeen := false } := by
  have hsettled : getQueue (updQueue s q fun k => { k with st := .disabled, disableSeen := false }) q =
      { getQueue s q with st := .disabled, disableSeen := false } := (getQueue_updQueue s q q _).trans (if_pos rfl)
  unfold queueSettle
  dsimp only
  rw [if_pos (by simp [hst, ht, hi, hw])]
  split
  · exact (getQueue_of_queues (disableDone_queues _ q) q).trans hsettled
  · exact hsettled

/-- Queue `q` stops fetching, and a window waits for its end. -/
def disableBegun (s : State) (q : Nat) : State :=
  updQueue (dropClient s (.fetch q)) q fun k => { k with fetch := none, fetchGot := [], disableSeen := true }

/-- Its fetched envelopes are returned, and it is Disabling. -/
def disableReturned (s : State) (q : Nat) : State :=
  updQueue (refuseHead (disableBegun s q) q ((getQueue (disableBegun s q) q).buffered.map fun _ => qsQDisabled)) q
    fun k => { k with st := .disabling }

theorem disableQueue_eq (s : State) (q : Nat) : disableQueue s q = queueSettle (disableReturned s q) q := rfl

theorem disableReturned_alone {K : Keep} (hq : K.queues = false) (hw : K.qwin = false) (ha : K.acc = false) (s : State) (q : Nat) :
    QueueAlone K q s (disableReturned s q) :=
  (((QueueAlone.dropClient s _ ha).trans (.updQueue _ _ hq)).trans (refuseHead_alone hq hw _ q _)).trans
    (.updQueue _ _ hq)

theorem getQueue_disableBegun (s : State) (q : Nat) : getQueue (disableBegun s q) q =
    { getQueue s q with fetch := none, fetchGot := [], disableSeen := true } := (getQueue_updQueue _ q q _).trans (if_pos rfl)

theorem getQueue_disableReturned {s : State} {q : Nat} (h : (getQueue s q).buffered = []) : getQueue (disableReturned s q) q =
    { headPast (getQueue s q) 0 with fetch := none, fetchGot := [], disableSeen := true, st := .disabling } := by
  refine (getQueue_updQueue _ q q _).trans ((if_pos rfl).trans ?_)
  rw [getQueue_refuseHead, getQueue_disableBegun, h]
  exact congrArg (fun k : Queue => { k with st := .disabling }) (deadBehind_nil _)

theorem getQueue_disableQueue {s : State} {q : Nat} (hb : (getQueue s q).buffered = []) (hi : (getQueue s q).items = [])
    (hw : (getQueue s q).writing = false) (ht : tasksOfQueue s q = []) :
    (getQueue (disableQueue s q) q).st = .disabled ∧ (getQueue (disableQueue s q) q).fetch = none := by
  have hq := getQueue_disableReturned hb
  have htasks := obs_tasks (disableReturned_alone (K := { Keep.none with tasks := true }) rfl rfl rfl s q).rest
  rw [disableQueue_eq, getQueue_queueSettle (by rw [hq]) ((tasksOfQueue_of_tasks htasks q).trans ht) (by rw [hq]; exact hi)
    (by rw [hq]; exact hw), hq]
  exact ⟨rfl, rfl⟩

theorem getQueue_disableQueue_other (s : State) {q k : Nat} (hk : k ≠ q) : getQueue (disableQueue s q) k = getQueue s k := by
  rw [disableQueue_eq, queueSettle_others _ _ _ hk]
  exact (disableReturned_alone (K := Keep.none) rfl rfl rfl s q).others k hk

/-! STM_QUOTA (R243). -/

theorem stmQuota_accepted {s : State} {q : Requester} {n : Nat} {w : Word} (h : reachesGlobal s q)
    (hb : noBits w (bitsFrom 32 63) = true) (hd : (getClr s n).st ≠ .absent)
    (hr : field w 0 32 ≤ plotsTotal (getClr s n).cfg * 256) : stmQuota q n w s =
      recordStatus (updQue s fun u => { u with quota := tabSet 0 u.quota n (field w 0 32) }) none q qsOk := by
  rw [stmQuota, globalCmd_run h]
  rw [checked_ok (by
    have hdef : defined s n = true := by simpa [defined] using hd
    simp only [firstBad_cons, firstBad_nil, hb, hdef, hr, decide_true, if_true])]

/-- Settles O31: each operation is accepted, and its effect is read off its queue and its window. -/
theorem queueCommands : Obligations.QueueCommands := by
  refine ⟨fun s rq n w hreach hbits hclr howner => ⟨fun hst hcfg => ?config, fun hst => ?enable,
    fun hst hbuf hitems hwriting htasks => ?disable, ?read⟩, fun s q n w hreach hbits hdef hr => ?quota⟩
  case config =>
    obtain ⟨t, hrun, hqueue, hwin, hrest⟩ := queCommand_outcome (q := field w 16 20) (op := 1)
      ⟨hreach, hbits, hclr, rfl, howner, by decide, by decide, by rw [hst]; rfl, fun _ => hcfg⟩
    have hone : getQueue (configQueue s n (field w 16 20)) (field w 16 20) = _ := (getQueue_updQueue s _ _ _).trans (if_pos rfl)
    have hq := (hqueue (field w 16 20)).trans hone
    have hcst : (getQueue (configQueue s n (field w 16 20)) (field w 16 20)).st = .disabled := (congrArg Queue.st hone :).trans hst
    exact ⟨t, congrArg Host.Outcome.next hrun, hqueue _, (congrArg Queue.depth hq :), (congrArg Queue.ringBase hq :),
      (congrArg Queue.ctx hq :), congrArg QueWin.code hwin, congrArg QueWin.queue hwin, (congrArg QueWin.st hwin).trans hcst,
      (congrArg QueWin.done hwin).trans (queResult_done (.inl (by decide)) _),
      fun k hk => (hqueue k).trans ((getQueue_updQueue s _ k _).trans (if_neg hk)),
      eq_mergeKept (K := { Keep.all with queues := false, qwin := false, win := false })
        ((hrest _ rfl rfl).trans (configQueue_frame s n _ rfl))⟩
  case enable =>
    obtain ⟨t, hrun, hqueue, hwin, hrest⟩ := queCommand_outcome (q := field w 16 20) (op := 2)
      ⟨hreach, hbits, hclr, rfl, howner, by decide, by decide, by rw [hst]; rfl, fun h => absurd h (by decide)⟩
    have hone : getQueue (enableQueue s (field w 16 20)) (field w 16 20) = _ := (getQueue_updQueue s _ _ _).trans (if_pos rfl)
    have hq := (hqueue (field w 16 20)).trans hone
    exact ⟨t, congrArg Host.Outcome.next hrun, (congrArg Queue.st hq :), (congrArg Queue.tail hq :), (congrArg Queue.head hq :),
      (congrArg Queue.cplTail hq :), (congrArg Queue.cplHead hq :), (congrArg Queue.depth hq :), congrArg QueWin.code hwin,
      congrArg QueWin.queue hwin, (congrArg QueWin.st hwin).trans (congrArg Queue.st hone :),
      (congrArg QueWin.done hwin).trans (queResult_done (.inl (by decide)) _),
      fun k hk => (hqueue k).trans ((getQueue_updQueue s _ k _).trans (if_neg hk)),
      eq_mergeKept (K := { Keep.all with queues := false, qwin := false, win := false })
        ((hrest _ rfl rfl).trans (enableQueue_frame s _ rfl))⟩
  case disable =>
    obtain ⟨t, hrun, hqueue, hwin, -⟩ := queCommand_outcome (q := field w 16 20) (op := 3)
      ⟨hreach, hbits, hclr, rfl, howner, by decide, by decide, by rw [hst]; rfl, fun h => absurd h (by decide)⟩
    rw [show queOperation s n (field w 16 20) 3 = disableQueue s (field w 16 20) from rfl] at hqueue hwin
    obtain ⟨hdisabled, hfetch⟩ := getQueue_disableQueue hbuf hitems hwriting htasks
    exact ⟨t, congrArg Host.Outcome.next hrun, (congrArg Queue.st (hqueue _)).trans hdisabled,
      (congrArg Queue.fetch (hqueue _)).trans hfetch, congrArg QueWin.code hwin, congrArg QueWin.queue hwin,
      (congrArg QueWin.st hwin).trans ((queResult_st _ _ _ _).trans hdisabled),
      (congrArg QueWin.done hwin).trans (queResult_done (.inr hdisabled) _),
      fun k hk => (hqueue k).trans (getQueue_disableQueue_other s hk)⟩
  case read =>
    obtain ⟨t, hrun, -, hwin, hrest⟩ := queCommand_outcome (q := field w 16 20) (op := 4)
      ⟨hreach, hbits, hclr, rfl, howner, by decide, by decide, by cases (getQueue s (field w 16 20)).st <;> rfl,
        fun h => absurd h (by decide)⟩
    have hdesc : (getQwin (queOperation s n (field w 16 20) 4) n).desc = queueWords (getQueue s (field w 16 20)) :=
      congrArg QueWin.desc ((getQwin_updQwin s n n _).trans (if_pos rfl))
    have hkept := (hrest { Keep.all with qwin := false, win := false } rfl rfl).trans (updQwin_frame s n _ rfl)
    exact ⟨t, congrArg Host.Outcome.next hrun, (congrArg QueWin.desc hwin).trans hdesc, congrArg QueWin.code hwin,
      congrArg QueWin.queue hwin, congrArg QueWin.st hwin, obs_queues hkept, eq_mergeKept hkept⟩
  case quota =>
    have hquota : ∀ m, quotaOf (recordStatus (updQue s fun u => { u with quota := tabSet 0 u.quota n (field w 0 32) }) none q qsOk) m =
        if m = n then field w 0 32 else quotaOf s m := fun m => tabGet_tabSet 0 s.que.quota n m _
    exact ⟨_, congrArg Host.Outcome.next (stmQuota_accepted hreach hbits hdef hr), rfl, (hquota n).trans (if_pos rfl),
      fun m hm => (hquota m).trans (if_neg hm), rfl⟩

end Sys2Proof.Machine
end

section
/-! PROOFS. The envelopes of tasks: what a completion changes of them, and the commands that start one. -/

namespace Sys2Proof.Machine

/-! An envelope after a change of its task. -/

theorem getEnv_of_tasks {s u : State} (h : u.tasks = s.tasks) (t e : Nat) : getEnv u t e = getEnv s t e := by
  unfold getEnv getTask
  rw [h]

/-- A change of a task that leaves its envelopes as they are. -/
theorem getEnv_updTask (s : State) (i t e : Nat) (f : Task → Task) (h : ∀ k, (f k).envs = k.envs) :
    getEnv (updTask s i f) t e = getEnv s t e := by
  unfold getEnv
  rw [getTask_updTask]
  split
  next hi =>
    subst hi
    cases getTask s t with
    | none => rfl
    | some k => exact congrArg (·[e]?) (h k)
  next => rfl

/-- A read of an envelope after a change of one. -/
theorem getEnv_updEnv (s : State) (i j t e : Nat) (f : EnvRun → EnvRun) :
    getEnv (updEnv s i j f) t e = if t = i ∧ e = j then (getEnv s t e).map f else getEnv s t e := by
  unfold getEnv updEnv
  rw [getTask_updTask]
  by_cases hi : t = i
  · subst hi
    cases getTask s t with
    | none => simp
    | some k =>
      by_cases hj : e = j
      · simp [hj]
      · simp [hj, Ne.symm hj]
  · simp [hi]

theorem getEnv_updEnv_same {s : State} {t e : Nat} {v : EnvRun} (h : getEnv s t e = some v) (f : EnvRun → EnvRun) :
    getEnv (updEnv s t e f) t e = some (f v) := by
  rw [getEnv_updEnv, if_pos ⟨rfl, rfl⟩, h]
  rfl

theorem getEnv_updEnv_other {s : State} {i j t e : Nat} (h : ¬ (t = i ∧ e = j)) (f : EnvRun → EnvRun) :
    getEnv (updEnv s i j f) t e = getEnv s t e := by
  rw [getEnv_updEnv, if_neg h]

theorem getTask_updTask_other {s : State} {i r : Nat} (h : r ≠ i) (f : Task → Task) : getTask (updTask s i f) r = getTask s r :=
  (getTask_updTask s i r f).trans (if_neg h)

/-- The task and the place among its envelopes of an envelope that stands. -/
theorem getEnv_eq_some {s : State} {t e : Nat} {v : EnvRun} (h : getEnv s t e = some v) :
    ∃ k, getTask s t = some k ∧ k.envs[e]? = some v := Option.bind_eq_some_iff.1 h

/-! A completion (R229, R239). -/

/-- Envelope `e` of task `t` has its outcome; its completion is still to be produced. -/
def envDone (s : State) (t e : Nat) (code : Code) : State :=
  updTask s t fun k =>
    { k with
      status := if k.status = qsOk then code else k.status
      envs := k.envs.modify e fun v =>
        { v with
          st := .done, code := code, ran := v.engine, engine := none, got := [], block := [], picks := [], key := none
          look := look0 } }

/-- A completion of task `t` is produced: held where it is the last, discarded where the task is fenced (R239, R464). -/
def produce (s : State) (t : Nat) (item : CplItem) : State :=
  match getTask s t with
  | none => s
  | some k =>
    if k.fenced then s
    else if allDone k then updTask s t fun k => { k with held := some item }
    else addItem s k.queue item

theorem completeEnv_eq {s : State} {t e : Nat} {v : EnvRun} (h : getEnv s t e = some v) (hd : v.st ≠ .done) (code : Code)
    (dead expired : Bool) : ∃ k, completeEnv s t e code dead expired =
      produce (envDone s t e code) t (envItem s t e k v code dead expired) := by
  obtain ⟨k, hk, hv⟩ := getEnv_eq_some h
  refine ⟨k, ?_⟩
  simp only [completeEnv, hk, hv]
  exact if_neg (by simp [hd])

theorem completeEnv_done {s : State} {t e : Nat} {v : EnvRun} (h : getEnv s t e = some v) (hd : v.st = .done) (code : Code)
    (dead expired : Bool) : completeEnv s t e code dead expired = s := by
  obtain ⟨k, hk, hv⟩ := getEnv_eq_some h
  simp only [completeEnv, hk, hv]
  exact if_pos (by simp [hd])

theorem completeEnv_none {s : State} {t e : Nat} (h : getEnv s t e = none) (code : Code) (dead expired : Bool) :
    completeEnv s t e code dead expired = s := by
  unfold completeEnv
  split
  · rfl
  next k hk =>
    have hv : k.envs[e]? = none := by simpa [getEnv, hk] using h
    rw [hv]

/-- The outcome of an envelope. -/
theorem getEnv_envDone {s : State} {t e : Nat} {v : EnvRun} (h : getEnv s t e = some v) (code : Code) :
    ∃ w, getEnv (envDone s t e code) t e = some w ∧ w.st = .done ∧ w.code = code ∧ w.started = v.started := by
  obtain ⟨k, hk, hv⟩ := getEnv_eq_some h
  simp [getEnv, envDone, hk, hv]

theorem getEnv_envDone_other {s : State} {i j t e : Nat} (h : ¬ (t = i ∧ e = j)) (code : Code) :
    getEnv (envDone s i j code) t e = getEnv s t e := by
  unfold getEnv envDone
  rw [getTask_updTask]
  by_cases hi : t = i
  · have hj : e ≠ j := fun hj => h ⟨hi, hj⟩
    subst hi
    rw [if_pos rfl]
    cases getTask s t with
    | none => rfl
    | some k => simp [Ne.symm hj]
  · rw [if_neg hi]

theorem addItem_tasks (s : State) (q : Nat) {x : CplItem} {t e : Nat} (hx : x.env = some (t, e)) :
    (addItem s q x).tasks = s.tasks ∨ (addItem s q x).tasks = (updEnv s t e fun v => { v with written := true }).tasks := by
  unfold addItem
  split
  · have hlost : (countLost (updQueue s q fun k => { k with owed := k.owed - 1 }) q (itemSize x)).tasks = s.tasks :=
      obs_tasks (K := { Keep.none with tasks := true }) ((countLost_frame _ _ _ rfl).trans (updQueue_frame _ _ _ rfl))
    refine .inr ?_
    unfold envWritten updEnv updTask
    rw [hx]
    exact congrArg (tabUpd none · t _) hlost
  · exact .inl rfl

/-- Producing a completion marks its own envelope as written, if any (R296). -/
theorem getEnv_produce (s : State) {t e : Nat} {x : CplItem} (hx : x.env = some (t, e)) (i j : Nat) :
    getEnv (produce s t x) i j = getEnv s i j ∨
      getEnv (produce s t x) i j = getEnv (updEnv s t e fun v => { v with written := true }) i j := by
  unfold produce
  split
  · exact .inl rfl
  next k hk =>
    split
    · exact .inl rfl
    · split
      · exact .inl (getEnv_updTask _ _ _ _ _ fun _ => rfl)
      · exact (addItem_tasks s k.queue hx).imp (getEnv_of_tasks · i j) (getEnv_of_tasks · i j)

theorem getTask_produce_other (s : State) {t e r : Nat} {x : CplItem} (hx : x.env = some (t, e)) (hr : r ≠ t) :
    getTask (produce s t x) r = getTask s r := by
  have hwritten : getTask (updEnv s t e fun v => { v with written := true }) r = getTask s r := getTask_updTask_other hr _
  unfold produce
  split
  · rfl
  · split
    · rfl
    · split
      · exact getTask_updTask_other hr _
      · rcases addItem_tasks s _ hx with h | h
        · exact congrArg (tabGet none · r) h
        · exact (congrArg (tabGet none · r) h).trans hwritten

/-- An envelope that completes. -/
theorem getEnv_completeEnv {s : State} {t e : Nat} {v : EnvRun} (h : getEnv s t e = some v) (hd : v.st ≠ .done) (code : Code)
    (dead expired : Bool) : ∃ w, getEnv (completeEnv s t e code dead expired) t e = some w ∧ w.st = .done ∧ w.code = code ∧
      w.started = v.started := by
  obtain ⟨k, hc⟩ := completeEnv_eq h hd code dead expired
  obtain ⟨w, hw, hst, hcode, hstart⟩ := getEnv_envDone h code
  rw [hc]
  rcases getEnv_produce (envDone s t e code) (x := envItem s t e k v code dead expired) rfl t e with hp | hp
  · exact ⟨w, hp.trans hw, hst, hcode, hstart⟩
  · exact ⟨_, hp.trans (getEnv_updEnv_same hw _), hst, hcode, hstart⟩

theorem getEnv_completeEnv_other {s : State} {i j t e : Nat} (h : ¬ (t = i ∧ e = j)) (code : Code) (dead expired : Bool) :
    getEnv (completeEnv s i j code dead expired) t e = getEnv s t e := by
  cases hv : getEnv s i j with
  | none => rw [completeEnv_none hv]
  | some v =>
    by_cases hd : v.st = .done
    · rw [completeEnv_done hv hd]
    · obtain ⟨k, hc⟩ := completeEnv_eq hv hd code dead expired
      rw [hc]
      rcases getEnv_produce (envDone s i j code) (x := envItem s i j k v code dead expired) rfl t e with hp | hp
      · exact hp.trans (getEnv_envDone_other h code)
      · exact hp.trans ((getEnv_updEnv_other h _).trans (getEnv_envDone_other h code))

theorem getTask_completeEnv_other (s : State) {t e r : Nat} (hr : r ≠ t) (code : Code) (dead expired : Bool) :
    getTask (completeEnv s t e code dead expired) r = getTask s r := by
  cases hv : getEnv s t e with
  | none => rw [completeEnv_none hv]
  | some v =>
    by_cases hd : v.st = .done
    · rw [completeEnv_done hv hd]
    · obtain ⟨k, hc⟩ := completeEnv_eq hv hd code dead expired
      rw [hc]
      exact (getTask_produce_other _ rfl hr).trans (getTask_updTask_other hr _)

/-! The start of an envelope. -/

/-- Envelope `e` of task `t` is marked as started in cclk `c`. -/
def Begun (s : State) (t e c : Nat) : Prop := ∃ v, getEnv s t e = some v ∧ v.started = c

/-- It does not wait any more. -/
def Started (s : State) (t e c : Nat) : Prop := ∃ v, getEnv s t e = some v ∧ v.st ≠ .waiting ∧ v.started = c

section
variable {s u : State} {t e c : Nat}

theorem Begun.of_tasks (h : Begun s t e c) (hu : u.tasks = s.tasks) : Begun u t e c :=
  h.imp fun _ hv => ⟨(getEnv_of_tasks hu t e).trans hv.1, hv.2⟩

theorem Started.of_tasks (h : Started s t e c) (hu : u.tasks = s.tasks) : Started u t e c :=
  h.imp fun _ hv => ⟨(getEnv_of_tasks hu t e).trans hv.1, hv.2⟩

theorem Begun.of_obs (h : Begun s t e c) (hu : obs { Keep.none with tasks := true } u = obs { Keep.none with tasks := true } s) :
    Begun u t e c := h.of_tasks (obs_tasks hu)

theorem Started.of_obs (h : Started s t e c)
    (hu : obs { Keep.none with tasks := true } u = obs { Keep.none with tasks := true } s) : Started u t e c :=
  h.of_tasks (obs_tasks hu)

theorem updEnv_begun (h : Begun s t e c) {f : EnvRun → EnvRun} (hf : ∀ v, (f v).started = v.started) :
    Begun (updEnv s t e f) t e c := by
  obtain ⟨v, hv, hc⟩ := h
  exact ⟨f v, getEnv_updEnv_same hv f, (hf v).trans hc⟩

/-- It takes a state other than waiting. -/
theorem Begun.starts (h : Begun s t e c) {f : EnvRun → EnvRun} (hst : ∀ v, (f v).st ≠ .waiting)
    (hf : ∀ v, (f v).started = v.started) : Started (updEnv s t e f) t e c := by
  obtain ⟨v, hv, hc⟩ := h
  exact ⟨f v, getEnv_updEnv_same hv f, hst v, (hf v).trans hc⟩

theorem Begun.completes (h : Begun s t e c) (code : Code) (dead expired : Bool) :
    Started (completeEnv s t e code dead expired) t e c := by
  obtain ⟨v, hv, hc⟩ := h
  by_cases hd : v.st = .done
  · rw [completeEnv_done hv hd]
    exact ⟨v, hv, by rw [hd]; decide, hc⟩
  · obtain ⟨w, hw, hst, -, hstart⟩ := getEnv_completeEnv hv hd code dead expired
    exact ⟨w, hw, by rw [hst]; decide, hstart.trans hc⟩

theorem Begun.ends (h : Begun s t e c) (code : Code) : Started (endEnv s t e code) t e c := h.completes code false false

theorem Started.begun (h : Started s t e c) : Begun s t e c := h.imp fun _ hv => ⟨hv.1, hv.2.2⟩

/-- No completion makes an envelope wait again. -/
theorem completeEnv_keeps_started (h : Started s t e c) (i j : Nat) (code : Code) (dead expired : Bool) :
    Started (completeEnv s i j code dead expired) t e c := by
  by_cases hij : t = i ∧ e = j
  · obtain ⟨rfl, rfl⟩ := hij
    exact h.begun.completes code dead expired
  · exact h.imp fun v hv => ⟨(getEnv_completeEnv_other hij code dead expired).trans hv.1, hv.2⟩

theorem updTask_keeps_started (h : Started s t e c) (i : Nat) {f : Task → Task} (hf : ∀ k, (f k).envs = k.envs) :
    Started (updTask s i f) t e c := h.imp fun _ hv => ⟨(getEnv_updTask s i t e f hf).trans hv.1, hv.2⟩

theorem forEach_keeps_started {α : Type} {f : State → α → State} (hf : ∀ s x, Started s t e c → Started (f s x) t e c) :
    ∀ (xs : List α) {s : State}, Started s t e c → Started (forEach xs s f) t e c
  | [], _, h => h
  | x :: xs, s, h => forEach_keeps_started hf xs (hf s x h)

/-! The acts that start an envelope. -/

theorem assignTo_started (h : Begun s t e c) (g : Nat) : Started (assignTo s t e g) t e c := by
  have hrun : Started (updEnv (countWait s t g) t e fun v =>
      { v with st := .running, engine := some g, assigned := (countWait s t g).tbl.assigns + 1 }) t e c :=
    (h.of_obs (countWait_frame s t g rfl rfl)).starts (by simp) (by simp)
  exact hrun.of_tasks rfl

theorem assignEnv_started (h : Begun s t e c) (n : Nat) : Started (assignEnv s t e n) t e c := by
  unfold assignEnv
  split
  · exact assignTo_started h _
  · exact h.starts (by simp) (by simp)

theorem lookupStart_started (h : Begun s t e c) (k : Task) (v : EnvRun) : Started (lookupStart t e k v s) t e c := by
  unfold lookupStart
  dsimp only
  split
  · exact h.ends _
  · split
    · exact h.ends _
    · split
      · exact h.ends _
      · split
        · exact (h.of_tasks (by rfl)).ends _
        · exact assignEnv_started (updEnv_begun h (by simp)) _

theorem tblStart_started (h : Begun s t e c) (k : Task) (v : EnvRun) : Started (tblStart t e k v s) t e c := by
  unfold tblStart
  split
  · exact h.ends _
  · split
    · exact h.ends _
    · split
      · exact h.ends _
      · exact assignEnv_started h _

theorem xferStart_started (h : Begun s t e c) (k : Task) (v : EnvRun) : Started (xferStart t e k v s) t e c := by
  unfold xferStart
  split
  · exact h.ends _
  · split
    · exact h.ends _
    · split
      · exact h.ends _
      · exact assignEnv_started h _

theorem unsealStart_started (h : Begun s t e c) (k : Task) (v : EnvRun) : Started (unsealStart t e k v s) t e c := by
  unfold unsealStart
  dsimp only
  split
  · split
    · exact (h.of_obs (noteTag_frame s k v.bytes rfl rfl rfl)).ends _
    · exact h.ends _
  · split
    · exact h.ends _
    · split
      · exact h.ends _
      · exact assignEnv_started (updEnv_begun h (by simp)) _

theorem loadStart_started (h : Begun s t e c) (k : Task) (v : EnvRun) : Started (loadStart t e k v s) t e c := by
  have hrun : ∀ p, Started (updEnv s t e fun v => { v with st := .running, phase := p }) t e c :=
    fun _ => h.starts (by simp) (by simp)
  unfold loadStart
  dsimp only
  split
  · exact h.ends _
  · split
    · split
      · exact (h.of_obs (useModel_frame s k.n _ rfl)).ends _
      · exact hrun 9
    · exact hrun 0

theorem evictStart_started (h : Begun s t e c) (k : Task) (v : EnvRun) : Started (evictStart t e k v s) t e c := by
  unfold evictStart
  split
  · exact h.ends _
  · split
    · exact h.ends _
    · split
      · exact h.ends _
      · exact (h.of_obs (dropModel_frame s k.n _ rfl)).ends _

theorem waitStart_started (h : Begun s t e c) (k : Task) (v : EnvRun) : Started (waitStart t e k v s) t e c := by
  have hrun : Started (updEnv s t e fun v => { v with st := .running }) t e c :=
    h.starts (by simp) (by simp)
  unfold waitStart
  dsimp only
  split
  · exact h.ends _
  · split
    · exact h.ends _
    · split
      · split
        · exact h.completes _ _ _
        · exact hrun
      · split
        · split
          · exact h.ends _
          · exact hrun
        · exact hrun

theorem Started.ite {p : Prop} [Decidable p] (hs : Started s t e c) (hu : Started u t e c) : Started (if p then s else u) t e c := by
  split
  · exact hs
  · exact hu

end

/-! The end of a job, which an envelope that has started outlives (R320, R321). -/

/-- Envelope `e` of a task has no outcome yet. -/
def openEnv (k : Task) (e : Nat) : Bool :=
  match k.envs[e]? with
  | some v => v.st != .done
  | none => false

/-- The JOB_WAITs of a job that ends learn of it. -/
def reportWaits (s : State) (t e : Nat) (k : Task) (code : Code) (expired : Bool) : State :=
  forEach (waitsFor k e) s fun s w => match getEnv s t w with
    | some v => if v.st == .running then completeEnv s t w code false expired else s
    | none => s

theorem jobReport_eq {s : State} {t e : Nat} {k : Task} (hk : getTask s t = some k) (code : Code) (expired : Bool) :
    ∃ b : Bool, ∃ f : Task → Task, (∀ x, (f x).envs = x.envs) ∧ jobReport s t e code expired =
      if b then updTask (reportWaits (if openEnv k e then completeEnv s t e code false expired else s) t e k code expired) t f
      else reportWaits (if openEnv k e then completeEnv s t e code false expired else s) t e k code expired := by
  refine ⟨!openEnv k e && (waitsFor k e).isEmpty, fun k => { k with status := if k.status = qsOk then code else k.status },
    fun _ => rfl, ?_⟩
  unfold jobReport
  rw [hk]
  rfl

section
variable {s : State} {t e c : Nat}

theorem reportWaits_keeps_started (h : Started s t e c) (i j : Nat) (k : Task) (code : Code) (expired : Bool) :
    Started (reportWaits s i j k code expired) t e c := by
  refine forEach_keeps_started (fun u w hu => ?_) _ h
  split
  · exact .ite (completeEnv_keeps_started hu i w code false expired) hu
  · exact hu

/-- What a job's end reports beyond its own envelope. -/
theorem jobReport_started_of {i j : Nat} {k : Task} (hk : getTask s i = some k) {code : Code} {expired : Bool}
    (h : Started (if openEnv k j then completeEnv s i j code false expired else s) t e c) :
    Started (jobReport s i j code expired) t e c := by
  obtain ⟨b, f, hf, heq⟩ := jobReport_eq hk code expired
  have hwaits := reportWaits_keeps_started h i j k code expired
  rw [heq]
  exact .ite (updTask_keeps_started hwaits i hf) hwaits

theorem jobReport_keeps_started (h : Started s t e c) (i j : Nat) (code : Code) (expired : Bool) :
    Started (jobReport s i j code expired) t e c := by
  cases hk : getTask s i with
  | none =>
    unfold jobReport
    rw [hk]
    exact h
  | some k => exact jobReport_started_of hk (.ite (completeEnv_keeps_started h i j code false expired) h)

/-- The report of a JOB that fails at its start ends it (R319). -/
theorem jobReport_started (h : Begun s t e c) (code : Code) (expired : Bool) : Started (jobReport s t e code expired) t e c := by
  obtain ⟨v, hv, hc⟩ := h
  obtain ⟨k, hk, he⟩ := getEnv_eq_some hv
  refine jobReport_started_of hk ?_
  cases hopen : openEnv k e with
  | true => exact Begun.completes ⟨v, hv, hc⟩ code false expired
  | false =>
    have hdone : v.st = .done := by simpa [openEnv, he] using hopen
    exact ⟨v, hv, by rw [hdone]; decide, hc⟩

theorem jobEnd_keeps_started (h : Started s t e c) (j : Nat) : Started (jobEnd s j) t e c := by
  unfold jobEnd
  split
  · exact h
  · exact jobReport_keeps_started (.ite (h.of_tasks (by rfl)) (h.of_tasks (by rfl))) _ _ _ _

theorem jobStop_keeps_started (h : Started s t e c) (j : Nat) (code : Code) (expired : Bool) (core : Nat) (keep : Option Nat) :
    Started (jobStop s j code expired core keep) t e c := by
  have hmark : Started (updJob s j fun x => { x with code := code, expired := expired, core := core }) t e c := h.of_tasks (by rfl)
  have hfreeze : ∀ (u : State) (d : Nat), Started u t e c → Started (freezeSoon u d) t e c :=
    fun u d hu => hu.of_obs (freezeSoon_frame u d rfl)
  unfold jobStop
  split
  · exact h
  · dsimp only
    split
    · exact jobEnd_keeps_started hmark j
    · exact jobEnd_keeps_started hmark j
    · exact jobEnd_keeps_started hmark j
    · exact forEach_keeps_started (fun u d hu => .ite hu (hfreeze u d hu)) _ (h.of_tasks (by rfl))
    · exact .ite (forEach_keeps_started (fun u d hu => .ite hu (hfreeze u d hu)) _ h) h
    · exact h

theorem jobAdmit_keeps_started (h : Started s t e c) (j : Nat) : Started (jobAdmit s j) t e c := by
  have huse : ∀ n i, Started (useModel s n i) t e c := fun n i => h.of_obs (useModel_frame s n i rfl)
  unfold jobAdmit
  split
  · exact h
  · dsimp only
    split
    · exact jobStop_keeps_started h _ _ _ _ _
    · refine .ite h (.ite (jobStop_keeps_started (huse _ _) _ _ _ _ _) (.ite (jobStop_keeps_started (huse _ _) _ _ _ _ _) ?_))
      exact Started.of_tasks ((huse _ _).of_obs (enterCtx_frame _ _ _ rfl)) (by rfl)

theorem jobStart_started (h : Begun s t e c) (k : Task) (v : EnvRun) : Started (jobStart t e k v s) t e c := by
  have hrun : Started (updEnv s t e fun v => { v with st := .running }) t e c := h.starts (by simp) (by simp)
  unfold jobStart
  dsimp only
  split
  · exact jobReport_started h _ _
  · split
    · exact jobReport_started h _ _
    · exact jobAdmit_keeps_started (hrun.of_tasks (by rfl)) _

end

/-! The commands (R226, R290). -/

/-- Where envelope `e` of task `t` starts: the cclk is noted. -/
def startNoted (s : State) (t e : Nat) : State := updEnv s t e fun v => { v with started := nowCclk s, begun := true }

/-- An act that starts envelope `e` of task `t`. -/
def Starts (t e : Nat) (body : Task → EnvRun → State → State) : Prop :=
  ∀ k v s c, Begun s t e c → Started (body k v s) t e c

theorem startEnv_blocked {s : State} {t e op : Nat} (h : startable s t e op = false) (body : Task → EnvRun → State → State) :
    startEnv s t e op body = s := if_neg (by rw [h]; decide)

theorem startable_waiting {s : State} {t e op : Nat} (h : startable s t e op = true) :
    ∃ k v, getTask s t = some k ∧ getEnv s t e = some v ∧ v.st = .waiting := by
  unfold startable at h
  split at h
  next k v hk hv =>
    simp only [Bool.and_eq_true, beq_iff_eq] at h
    obtain ⟨⟨⟨⟨⟨⟨hst, -⟩, -⟩, -⟩, -⟩, -⟩, -⟩ := h
    exact ⟨k, v, hk, hv, hst⟩
  next => exact absurd h (by decide)

theorem startEnv_runs {s : State} {t e op : Nat} (h : startable s t e op = true) {k : Task} {v : EnvRun} (hk : getTask s t = some k)
    (hv : getEnv s t e = some v) (body : Task → EnvRun → State → State) :
    startEnv s t e op body = body k v (startNoted s t e) := by
  unfold startEnv
  rw [if_pos h, hk, hv]
  rfl

theorem getEnv_startNoted {s : State} {t e : Nat} {v : EnvRun} (hv : getEnv s t e = some v) :
    getEnv (startNoted s t e) t e = some { v with started := nowCclk s, begun := true } := getEnv_updEnv_same hv _

theorem startEnv_started {s : State} {t e op : Nat} (h : startable s t e op = true) {body : Task → EnvRun → State → State}
    (hb : Starts t e body) : Started (startEnv s t e op body) t e (nowCclk s) := by
  obtain ⟨k, v, hk, hv, -⟩ := startable_waiting h
  rw [startEnv_runs h hk hv]
  exact hb k v _ _ ⟨_, getEnv_startNoted hv, rfl⟩

/-- Every command that starts an envelope has an act of its own that starts it. -/
theorem exec_envelopeStart {i : Instr} {t e op : Nat} (h : i.envelopeStart = some (t, e, op)) :
    ∃ body, Starts t e body ∧ ∀ s, exec i s = .next (startEnv s t e op body) := by
  have hlookup : Starts t e (lookupStart t e) := fun k v _ _ hb => lookupStart_started hb k v
  have htbl : Starts t e (tblStart t e) := fun k v _ _ hb => tblStart_started hb k v
  have hxfer : Starts t e (xferStart t e) := fun k v _ _ hb => xferStart_started hb k v
  have hend : Starts t e fun _ _ s => endEnv s t e qsOk := fun _ _ _ _ hb => hb.ends qsOk
  unfold Instr.envelopeStart at h
  split at h
  case h_1 | h_2 => cases h; exact ⟨_, hend, fun _ => rfl⟩
  case h_3 | h_4 | h_5 => cases h; exact ⟨_, hlookup, fun _ => rfl⟩
  case h_6 | h_7 | h_8 | h_9 | h_10 => cases h; exact ⟨_, htbl, fun _ => rfl⟩
  case h_11 => cases h; exact ⟨_, fun k v _ _ hb => jobStart_started hb k v, fun _ => rfl⟩
  case h_12 => cases h; exact ⟨_, fun k v _ _ hb => waitStart_started hb k v, fun _ => rfl⟩
  case h_13 => cases h; exact ⟨_, fun k v _ _ hb => loadStart_started hb k v, fun _ => rfl⟩
  case h_14 => cases h; exact ⟨_, fun k v _ _ hb => evictStart_started hb k v, fun _ => rfl⟩
  case h_15 | h_16 | h_17 | h_18 => cases h; exact ⟨_, hxfer, fun _ => rfl⟩
  case h_19 => cases h; exact ⟨_, fun k v _ _ hb => unsealStart_started hb k v, fun _ => rfl⟩
  case h_20 => cases h

/-- NOP and FENCE: what starts is done (R226). -/
theorem startEnv_ends {s : State} {t e op : Nat} (h : startable s t e op = true) :
    ∃ u v, startEnv s t e op (fun _ _ s => endEnv s t e qsOk) = u ∧ getEnv u t e = some v ∧ v.st = .done ∧ v.code = qsOk ∧
      (∀ r, r ≠ t → getTask u r = getTask s r) ∧ u = { s with tasks := u.tasks, queues := u.queues, qwin := u.qwin } := by
  obtain ⟨k, v, hk, hv, hst⟩ := startable_waiting h
  obtain ⟨w, hw, hdone, hcode, -⟩ := getEnv_completeEnv (getEnv_startNoted hv) (by rw [hst]; decide) qsOk false false
  refine ⟨_, w, startEnv_runs h hk hv _, hw, hdone, hcode, fun r hr => ?_, ?_⟩
  · exact (getTask_completeEnv_other _ hr _ _ _).trans (getTask_updTask_other hr _)
  · exact eq_mergeKept (K := { Keep.all with tasks := false, queues := false, qwin := false })
      ((completeEnv_frame _ t e qsOk false false rfl rfl rfl).trans (updEnv_frame s t e _ rfl))

/-- Settles O32: each command is the start of its envelope with an act that makes it wait no more. -/
theorem envelopesStart : Obligations.EnvelopesStart := by
  refine ⟨fun i s t e op hi => ?_, fun s t e => ⟨fun h => ?_, fun h => ?_⟩⟩
  · obtain ⟨body, hbody, hexec⟩ := exec_envelopeStart hi
    refine ⟨fun h => ?_, fun h => ⟨_, hexec s, startEnv_started h hbody⟩⟩
    rw [hexec, startEnv_blocked h]
  · obtain ⟨u, v, hu, hrest⟩ := startEnv_ends h
    exact ⟨u, v, congrArg Host.Outcome.next hu, hrest⟩
  · obtain ⟨u, v, hu, hrest⟩ := startEnv_ends h
    exact ⟨u, v, congrArg Host.Outcome.next hu, hrest⟩

end Sys2Proof.Machine
end

section
/-! PROOFS. The fetch of envelopes, the admission of batches, and the timer of a queue's interrupt. -/

namespace Sys2Proof.Machine

/-! ENVELOPE_FETCH (R228, R241). -/

/-- Queue `q`'s fetch has failed, and nothing more has come of it yet. -/
def fetchStopped (s : State) (q : Nat) : State :=
  updQueue (dropClient s (.fetch q)) q fun k => { k with fetch := none, fetchGot := [] }

theorem getQueue_fetchStopped (s : State) (q : Nat) :
    getQueue (fetchStopped s q) q = { getQueue s q with fetch := none, fetchGot := [] } :=
  (getQueue_updQueue _ q q _).trans (if_pos rfl)

theorem fetchStopped_alone {K : Keep} (hq : K.queues = false) (ha : K.acc = false) (s : State) (q : Nat) :
    QueueAlone K q s (fetchStopped s q) :=
  (QueueAlone.dropClient s _ ha).trans (.updQueue _ _ hq)

/-- What a failed read makes of an Enabled queue (R241). -/
def fetchError (s : State) (q addr : Nat) : State :=
  returnDead (ringRec (updQueue (stopWaiting (fetchStopped s q) q) q fun k => { k with st := .error }) qsQRingRead q addr) q
    [(qsQRingRead, 0, false)]

theorem fetchError_alone {K : Keep} (hq : K.queues = false) (hw : K.qwin = false) (ha : K.acc = false) (he : K.err = false)
    (hr : K.rings = false) (s : State) (q addr : Nat) : QueueAlone K q s (fetchError s q addr) := by
  refine QueueAlone.trans ?_ (returnDead_alone hq hw q _ _)
  refine QueueAlone.trans ?_ (.of_queues (obs_queues (K := { Keep.none with queues := true }) (ringRec_frame _ _ q addr rfl rfl))
    (ringRec_frame _ _ q addr he hr))
  exact ((fetchStopped_alone hq ha s q).trans (.updQueue _ _ hq)).trans (.updQueue _ _ hq)

theorem getQueue_fetchError (s : State) (q addr : Nat) :
    (getQueue (fetchError s q addr) q).st = .error ∧ (getQueue (fetchError s q addr) q).fetch = none := by
  unfold fetchError
  rw [getQueue_returnDead, deadBehind_st, deadBehind_fetch, getQueue_of_obs (ringRec_frame _ _ q addr rfl rfl),
    getQueue_updQueue, if_pos rfl, stopWaiting, getQueue_updQueue, if_pos rfl, getQueue_fetchStopped]
  exact ⟨rfl, rfl⟩

theorem fetchArrive_failed {s : State} {q c : Nat} (h : (getQueue s q).fetch = some c) : fetchArrive s q .failed =
    if (getQueue s q).st = .enabled then fetchError s q (getQueue s q).ringBase else fetchStopped s q := by
  unfold fetchArrive
  simp only [h]
  exact if_congr beq_iff_eq rfl rfl

/-- Envelopes that were read stand behind those already fetched. -/
def fetchedBehind (s : State) (q : Nat) (bs : List (List Byte)) : State :=
  updQueue (dropClient s (.fetch q)) q fun k => { k with fetch := none, fetchGot := [], buffered := k.buffered ++ bs }

theorem getQueue_fetchedBehind (s : State) (q : Nat) (bs : List (List Byte)) : getQueue (fetchedBehind s q bs) q =
    { getQueue s q with fetch := none, fetchGot := [], buffered := (getQueue s q).buffered ++ bs } :=
  (getQueue_updQueue _ q q _).trans (if_pos rfl)

theorem fetchArrive_bytes {s : State} {q c : Nat} (h : (getQueue s q).fetch = some c) (bs : List Byte) :
    fetchArrive s q (.bytes bs) = oversizeHead (fetchedBehind s q (chunk64 c bs)) q := by
  unfold fetchArrive
  simp only [h]
  rfl

theorem fetchArrive_bytes_alone {K : Keep} (hq : K.queues = false) (hw : K.qwin = false) (ha : K.acc = false) (s : State) (q : Nat)
    (bs : List (List Byte)) : QueueAlone K q s (oversizeHead (fetchedBehind s q bs) q) :=
  ((QueueAlone.dropClient s _ ha).trans (.updQueue _ _ hq)).trans (oversizeHead_alone hq hw _ q)

/-! BATCH_ADMIT: the batch at the head (R227, R232). -/

/-- The envelopes of the batch that `b` begins: one where it begins none (R227). -/
def headLen (b : List Byte) : Nat := if envFlag b 3 && 1 ≤ envBatchLen b && envBatchLen b ≤ 1024 then envBatchLen b else 1

theorem headLen_pos (b : List Byte) : 0 < headLen b := by
  unfold headLen
  split
  next h =>
    simp only [Bool.and_eq_true, decide_eq_true_eq] at h
    exact h.1.2
  next => exact Nat.one_pos

theorem headBatch_cons {k : Queue} {b : List Byte} {r : List (List Byte)} (hk : k.buffered = b :: r) :
    headBatch k = if headLen b ≤ k.buffered.length then some (k.buffered.take (headLen b)) else none := by
  unfold headBatch
  rw [hk]
  rfl

/-- A batch at the head is not empty, and stands at the front of what is fetched. -/
theorem headBatch_front {k : Queue} {bs : List (List Byte)} (h : headBatch k = some bs) : bs ≠ [] ∧ k.buffered.take bs.length = bs := by
  cases hk : k.buffered with
  | nil =>
    unfold headBatch at h
    rw [hk] at h
    exact nomatch h
  | cons b r =>
    rw [headBatch_cons hk] at h
    obtain ⟨hlen, hbs⟩ := Option.ite_none_right_eq_some.1 h
    obtain rfl := Option.some.inj hbs
    have hcount : (k.buffered.take (headLen b)).length = headLen b := List.length_take_of_le hlen
    refine ⟨List.ne_nil_of_length_pos (by rw [hcount]; exact headLen_pos b), ?_⟩
    rw [hcount, hk]

theorem endFlags_length : ∀ bs : List (List Byte), (endFlags bs).length = bs.length
  | [] => rfl
  | [_] => rfl
  | _ :: b :: r => congrArg (· + 1) (endFlags_length (b :: r))

/-- The codes of a batch refused with `c` at envelope `i` (R232). -/
def batchCodes (bs : List (List Byte)) (c : Code) (i : Nat) : List Code :=
  (List.range bs.length).map fun j => if j = i then c else qsStmBatchRefused

theorem batchCodes_length (bs : List (List Byte)) (c : Code) (i : Nat) : (batchCodes bs c i).length = bs.length := by
  simp [batchCodes]

theorem deadLetters_batch (s : State) (bs : List (List Byte)) (c : Code) (i : Nat) :
    (deadLetters s (batchCodes bs c i) bs).map (fun x => (x.status, x.tag)) =
      bs.zipIdx.map fun b => (if b.2 = i then c else qsStmBatchRefused, envTag b.1) := by
  refine List.ext_getElem ?_ fun j _ _ => ?_
  · simp [deadLetters, batchCodes_length, endFlags_length]
  · simp [deadLetters, batchCodes, deadItem]

theorem deadLetters_dead {s : State} {codes : List Code} {bs : List (List Byte)} {x : CplItem} (h : x ∈ deadLetters s codes bs) :
    x.dead = true ∧ x.kept = false := by
  obtain ⟨d, -, rfl⟩ := List.mem_map.1 h
  exact ⟨rfl, rfl⟩

/-- Some dead letter stands for a batch that is not empty. -/
theorem deadLetters_ne_nil (s : State) {codes : List Code} {bs : List (List Byte)} (hlen : codes.length = bs.length) (h : bs ≠ []) :
    ∃ x, x ∈ deadLetters s codes bs := by
  refine List.exists_mem_of_length_pos ?_
  simpa [deadLetters, endFlags_length, hlen] using List.length_pos_iff.2 h

/-- A batch of queue `q` is tried now: it is at the head, whole, no longer than the ring, and has not been tried since the last
boundary or release (R227, R232, R233). -/
structure BatchTried (s : State) (q n : Nat) (bs : List (List Byte)) : Prop where
  owner : queueOwner s q = some n
  batch : headBatch (getQueue s q) = some bs
  st : (getQueue s q).st = .enabled
  dead : deadWaits (getQueue s q) = false
  again : notAgain s n q = false
  fits : ∀ b, (getQueue s q).buffered.head? = some b → envFlag b 3 = true → envBatchLen b ≤ (getQueue s q).depth

theorem BatchTried.notOversize {s : State} {q n : Nat} {bs : List (List Byte)} (h : BatchTried s q n bs) :
    ¬ Oversize (getQueue s q) := by
  rintro ⟨-, -, b, hb, hflag, hlen⟩
  exact absurd (h.fits b hb hflag) (by omega)

theorem batchAdmit_tried {s : State} {q n : Nat} {bs : List (List Byte)} (h : BatchTried s q n bs) : batchAdmit s q =
    match admitRefusal s n (getQueue s q) bs with
    | some (c, i) => oversizeHead (refuseBatch s q n bs c i) q
    | none =>
      if !mayAdmit s n bs then s
      else if !freeNow s n q bs then waitBatch s q n bs
      else if turnQueue s == some q && s.que.admitAt != some (nowCclk s) then oversizeHead (admitBatch s q n bs) q
      else s := by
  unfold batchAdmit
  simp only [oversizeHead_not h.notOversize, h.owner, h.batch]
  exact if_neg (by simp [h.st, h.dead, h.again])

/-! A batch that is refused (R232). -/

theorem refuseBatch_eq (s : State) (q n : Nat) (bs : List (List Byte)) (c : Code) (i : Nat) :
    ∃ u, refuseBatch s q n bs c i = refuseHead u q (batchCodes bs c i) ∧ u.clk = s.clk ∧ u.queues = s.queues ∧
      ∀ K : Keep, K.qwin = false → obs K u = obs K s := by
  refine ⟨if c = qsDetVariantRefused then updQwin s n fun w =>
    { w with variantRefused := w.variantRefused + (bs.filter fun b => envFlag b 4).length } else s, rfl, ?_⟩
  split
  · exact ⟨rfl, rfl, fun K hw => updQwin_frame s n _ hw⟩
  · exact ⟨rfl, rfl, fun _ _ => rfl⟩

theorem refuseBatch_alone {K : Keep} (hq : K.queues = false) (hw : K.qwin = false) (s : State) (q n : Nat) (bs : List (List Byte))
    (c : Code) (i : Nat) : QueueAlone K q s (refuseBatch s q n bs c i) := by
  obtain ⟨u, hu, -, hqueues, hrest⟩ := refuseBatch_eq s q n bs c i
  rw [hu]
  exact (QueueAlone.of_queues hqueues (hrest K hw)).trans (refuseHead_alone hq hw u q _)

theorem getQueue_refuseBatch {s : State} {q : Nat} {bs : List (List Byte)} (hbs : (getQueue s q).buffered.take bs.length = bs)
    (n : Nat) (c : Code) (i : Nat) : getQueue (refuseBatch s q n bs c i) q =
      deadBehind (headPast (getQueue s q) bs.length) (deadLetters s (batchCodes bs c i) bs) := by
  obtain ⟨u, hu, hclk, hqueues, -⟩ := refuseBatch_eq s q n bs c i
  have hdead : deadItem u = deadItem s := by
    funext c t l
    unfold deadItem
    rw [hclk]
  rw [hu, getQueue_refuseHead, getQueue_of_queues hqueues, batchCodes_length, hbs, deadLetters, hdead]
  rfl

theorem batchAdmit_refused {s : State} {q n : Nat} {bs : List (List Byte)} (h : BatchTried s q n bs) {c : Code} {i : Nat}
    (href : admitRefusal s n (getQueue s q) bs = some (c, i)) (hlost : (getQueue s q).cplLost = false) :
    batchAdmit s q = refuseBatch s q n bs c i := by
  obtain ⟨hne, hfront⟩ := headBatch_front h.batch
  obtain ⟨x, hx⟩ := deadLetters_ne_nil s (batchCodes_length bs c i) hne
  have hwaits : deadWaits (getQueue (refuseBatch s q n bs c i) q) = true := by
    rw [getQueue_refuseBatch hfront]
    exact deadWaits_deadBehind (k := headPast _ _) hlost hx (deadLetters_dead hx).2
  rw [batchAdmit_tried h, href]
  refine oversizeHead_not ?_
  rintro ⟨-, hnone, -⟩
  exact absurd (hwaits.symm.trans hnone) (by decide)

/-! A batch longer than the ring (R227). -/

theorem getQueue_refuseHead_one {s : State} {q : Nat} {b : List Byte} (hb : (getQueue s q).buffered.head? = some b) (c : Code) :
    getQueue (refuseHead s q [c]) q = deadBehind (headPast (getQueue s q) 1) [deadItem s c (envTag b) true] := by
  obtain ⟨r, hr⟩ := List.head?_eq_some_iff.1 hb
  rw [getQueue_refuseHead, hr]
  rfl

/-- It is returned, and nothing else is tried while its dead letter waits for an entry. -/
theorem batchAdmit_oversize {s : State} {q : Nat} (h : Oversize (getQueue s q)) (hlost : (getQueue s q).cplLost = false) :
    batchAdmit s q = refuseHead s q [qsStmTooBig] := by
  have hwaits : deadWaits (getQueue (refuseHead s q [qsStmTooBig]) q) = true := by
    obtain ⟨-, -, b, hb, -, -⟩ := h
    rw [getQueue_refuseHead_one hb]
    exact deadWaits_deadBehind (k := headPast _ _) hlost (List.mem_singleton.2 rfl) rfl
  unfold batchAdmit
  simp only [oversizeHead_of h, hwaits]
  split
  · exact if_pos (by simp)
  · rfl

/-! A batch that is admitted (R236). -/

/-- Queue `k` once `n` envelopes at its head have been admitted: a completion is owed to each (R234). -/
def admittedPast (n : Nat) (k : Queue) : Queue :=
  { k with head := (k.head + n) % 2 ^ 32, buffered := k.buffered.drop n, owed := k.owed + n, served := true }

/-- The head of queue `q` has passed an admitted batch of clearing `n`, and its variants are counted. -/
def headTaken (s : State) (q n : Nat) (bs : List (List Byte)) : State :=
  updQwin (updQueue (stopWaiting s q) q (admittedPast bs.length)) n fun w =>
    { w with variantAdmitted := w.variantAdmitted + (bs.filter fun b => envFlag b 4).length }

/-- The queue is the last served, in this cclk; the batch's tasks are still to be made (R233). -/
def batchTaken (s : State) (q n : Nat) (bs : List (List Byte)) : State :=
  updQue (headTaken s q n bs) fun u =>
    { u with admitAt := some (nowCclk s), lastClr := n, lastQueue := tabSet (2 ^ 20) u.lastQueue n q }

/-- A group of envelopes becomes a task. -/
def taskMade (q n : Nat) (k : Queue) (s : State) (es : List (List Byte)) : State :=
  updQue { s with tasks := tabSet none s.tasks (leastFree (s.tasks.map (·.1)) 65536) (some (newTask s q n k es)) }
    fun u => { u with admitted := u.admitted + 1 }

theorem admitBatch_eq (s : State) (q n : Nat) (bs : List (List Byte)) :
    admitBatch s q n bs = forEach (batchTasks bs) (batchTaken s q n bs) (taskMade q n (getQueue s q)) := by
  unfold admitBatch batchTaken headTaken
  rfl

theorem headTaken_alone {K : Keep} (hq : K.queues = false) (hw : K.qwin = false) (s : State) (q n : Nat)
    (bs : List (List Byte)) : QueueAlone K q s (headTaken s q n bs) :=
  ((QueueAlone.updQueue s _ hq).trans (.updQueue (stopWaiting s q) _ hq)).trans (.updQwin _ n _ hw)

theorem batchTaken_alone {K : Keep} (hq : K.queues = false) (hw : K.qwin = false) (hu : K.que = false) (s : State) (q n : Nat)
    (bs : List (List Byte)) : QueueAlone K q s (batchTaken s q n bs) :=
  (headTaken_alone hq hw s q n bs).trans (.updQue (headTaken s q n bs) _ hu)

theorem getQueue_batchTaken (s : State) (q n : Nat) (bs : List (List Byte)) : getQueue (batchTaken s q n bs) q =
    admittedPast bs.length (getQueue (stopWaiting s q) q) := by
  have hqueues : (batchTaken s q n bs).queues = (updQueue (stopWaiting s q) q (admittedPast bs.length)).queues := rfl
  rw [getQueue_of_queues hqueues, getQueue_updQueue, if_pos rfl]

theorem tasksMade_alone {K : Keep} (hu : K.que = false) (ht : K.tasks = false) (q n : Nat) (k : Queue)
    (gs : List (List (List Byte))) (s : State) : QueueAlone K q s (forEach gs s (taskMade q n k)) :=
  .of_queues (obs_queues (K := { Keep.none with queues := true }) (forEach_frame gs s _ fun _ _ => rfl))
    (forEach_frame gs s _ fun s es => (updQue_frame _ _ hu).trans (obs_set_tasks s _ ht))

/-- Each task that is made is counted. -/
theorem tasksMade_que (q n : Nat) (k : Queue) : ∀ (gs : List (List (List Byte))) (s : State),
    (forEach gs s (taskMade q n k)).que = { s.que with admitted := s.que.admitted + gs.length }
  | [], _ => rfl
  | g :: gs, s => by
    refine (tasksMade_que q n k gs (taskMade q n k s g)).trans ?_
    simp [taskMade, updQue, Nat.add_assoc, Nat.add_comm 1]

theorem getTask_taskMade (q n : Nat) (k : Queue) (s : State) (es : List (List Byte)) :
    ∃ r, getTask (taskMade q n k s es) r = some (newTask s q n k es) :=
  ⟨leastFree (s.tasks.map Prod.fst) 65536,
    (tabGet_tabSet none s.tasks _ _ (some (newTask s q n k es))).trans (if_pos rfl)⟩

theorem newTask_envs (s : State) (q n : Nat) (k : Queue) (es : List (List Byte)) : (newTask s q n k es).envs.map (·.bytes) = es := by
  simp [newTask, Function.comp_def, envRun0]

theorem admitBatch_alone {K : Keep} (hq : K.queues = false) (hw : K.qwin = false) (hu : K.que = false) (ht : K.tasks = false)
    (s : State) (q n : Nat) (bs : List (List Byte)) : QueueAlone K q s (admitBatch s q n bs) := by
  rw [admitBatch_eq]
  exact (batchTaken_alone hq hw hu s q n bs).trans (tasksMade_alone hu ht q n _ _ _)

theorem getQueue_admitBatch (s : State) (q n : Nat) (bs : List (List Byte)) :
    (getQueue (admitBatch s q n bs) q).head = ((getQueue s q).head + bs.length) % 2 ^ 32 ∧
      (getQueue (admitBatch s q n bs) q).buffered = (getQueue s q).buffered.drop bs.length := by
  have hmade := (tasksMade_alone (K := { Keep.none with queues := true }) rfl rfl q n (getQueue s q) (batchTasks bs)
    (batchTaken s q n bs)).rest
  have hstop : getQueue (stopWaiting s q) q = _ := (getQueue_updQueue s q q _).trans (if_pos rfl)
  rw [admitBatch_eq, getQueue_of_obs hmade, getQueue_batchTaken, hstop]
  exact ⟨rfl, rfl⟩

theorem admitBatch_que (s : State) (q n : Nat) (bs : List (List Byte)) : (admitBatch s q n bs).que =
    { s.que with
      admitAt := some (nowCclk s), lastClr := n, lastQueue := tabSet (2 ^ 20) s.que.lastQueue n q
      admitted := s.que.admitted + (batchTasks bs).length } := by
  rw [admitBatch_eq, tasksMade_que]
  rfl

theorem batchAdmit_admitted {s : State} {q n : Nat} {bs : List (List Byte)} (h : BatchTried s q n bs)
    (href : admitRefusal s n (getQueue s q) bs = none) (hmay : mayAdmit s n bs = true) (hfree : freeNow s n q bs = true)
    (hturn : turnQueue s = some q) (hat : s.que.admitAt ≠ some (nowCclk s)) :
    batchAdmit s q = oversizeHead (admitBatch s q n bs) q := by
  rw [batchAdmit_tried h, href]
  dsimp only
  rw [if_neg (by simp [hmay]), if_neg (by simp [hfree]), if_pos (by simp [hturn, hat])]

/-- A batch of one task: the task stands in the stream table. -/
theorem getTask_admitBatch (s : State) (q n : Nat) {bs es : List (List Byte)} (h : batchTasks bs = [es]) :
    ∃ r, getTask (admitBatch s q n bs) r = some (newTask (batchTaken s q n bs) q n (getQueue s q) es) := by
  rw [admitBatch_eq, h]
  exact getTask_taskMade q n (getQueue s q) (batchTaken s q n bs) es

/-! COALESCE_TIMEOUT (R231). -/

/-- Queue `q` counts completions afresh. -/
def countAfresh (s : State) (q : Nat) : State := updQueue s q fun k => { k with irqCount := 0, irqSince := none }

theorem queueInterrupt_of {s : State} {q n : Nat} (ho : queueOwner s q = some n) (hn : n < s.glob.numVfs) :
    queueInterrupt s q = msix (countAfresh s q) (n + 1) (getQueue s q).vector := by
  have ho' : queueOwner (countAfresh s q) q = some n := ho
  unfold queueInterrupt
  rw [← countAfresh]
  simp only [ho']
  exact if_pos hn

theorem queueInterrupt_queues (s : State) (q : Nat) : (queueInterrupt s q).queues = (countAfresh s q).queues := by
  unfold queueInterrupt
  dsimp only
  split
  · split <;> rfl
  · rfl

theorem coalesceTimeout_due {s : State} {q : Nat} (hi : (getQueue s q).irq = true) (hs : (getQueue s q).irqSince ≠ none)
    (hu : (getQueue s q).coalesceUs ≠ 0) : exec (.coalesceTimeout q) s = .next (queueInterrupt s q) :=
  next_of_pos (by simp [hi, hu, Option.isSome_iff_ne_none.2 hs]) _ s

theorem coalesceTimeout_idle {s : State} {q : Nat}
    (h : (getQueue s q).irq = false ∨ (getQueue s q).irqSince = none ∨ (getQueue s q).coalesceUs = 0) :
    exec (.coalesceTimeout q) s = .next s := by
  refine congrArg Host.Outcome.next (if_neg ?_)
  rcases h with h | h | h <;> simp [h]

/-- Settles O34: a fetch ends in its queue, a batch that is tried is refused or admitted, and the timer counts afresh. -/
theorem batchesAreFetchedAndAdmitted : Obligations.BatchesAreFetchedAndAdmitted := by
  refine ⟨fun s q c hc => ⟨?failed, fun bs => ?bytes⟩, fun s q n bs ho hb hst hdead hagain hfits => ?tried,
    fun s q b hb hst hflag hlen hdead hlost => ?oversize, fun s q h => coalesceTimeout_idle h, fun s q hi hs hu => ?timer⟩
  case failed =>
    refine ⟨_, congrArg Host.Outcome.next (fetchArrive_failed hc), ?_⟩
    split
    next hst =>
      have hone := fetchError_alone (K := { Keep.none with tasks := true }) rfl rfl rfl rfl rfl s q (getQueue s q).ringBase
      obtain ⟨herror, hfetch⟩ := getQueue_fetchError s q (getQueue s q).ringBase
      exact ⟨hfetch, fun _ => herror, hone.others, obs_tasks hone.rest⟩
    next hst =>
      have hone := fetchStopped_alone (K := { Keep.none with tasks := true }) rfl rfl s q
      exact ⟨(congrArg Queue.fetch (getQueue_fetchStopped s q) :), fun h => absurd h hst, hone.others, obs_tasks hone.rest⟩
  case bytes =>
    have hone := fetchArrive_bytes_alone (K := { Keep.none with tasks := true }) rfl rfl rfl s q (chunk64 c bs)
    have hq := getQueue_fetchedBehind s q (chunk64 c bs)
    obtain ⟨hst, hfetch⟩ := getQueue_oversizeHead (fetchedBehind s q (chunk64 c bs)) q
    refine ⟨_, congrArg Host.Outcome.next (fetchArrive_bytes hc bs), hfetch.trans (congrArg Queue.fetch hq :), fun h => ?_,
      hst.trans (congrArg Queue.st hq :), hone.others, obs_tasks hone.rest⟩
    rw [oversizeHead_not, hq]
    rw [hq]
    rintro ⟨hen, -, b, hhead, hflag, -⟩
    rcases h with h | h
    · exact h hen
    · exact absurd hflag (by rw [h b hhead]; decide)
  case tried =>
    have htried : BatchTried s q n bs := ⟨ho, hb, hst, hdead, hagain, hfits⟩
    refine ⟨fun c i href hlost => ?refused, fun href hmay hfree hturn hat => ?admitted⟩
    case refused =>
      have hone := refuseBatch_alone (K := { Keep.all with queues := false, qwin := false }) rfl rfl s q n bs c i
      have hq := getQueue_refuseBatch (headBatch_front hb).2 n c i
      refine ⟨_, deadLetters s (batchCodes bs c i) bs, congrArg Host.Outcome.next (batchAdmit_refused htried href hlost),
        obs_tasks hone.rest, obs_que hone.rest, hone.others, ?_, ?_, ?_, deadLetters_batch s bs c i,
        fun x hx => (deadLetters_dead hx).1, eq_mergeKept hone.rest⟩
      · rw [hq, deadBehind_head]
        rfl
      · rw [hq, deadBehind_buffered]
        rfl
      · rw [hq, deadBehind_items (k := headPast _ _) hlost]
        rfl
    case admitted =>
      have hover := oversizeHead_alone (K := { Keep.all with queues := false, qwin := false }) rfl rfl (admitBatch s q n bs) q
      have hone := (admitBatch_alone (K := { Keep.all with queues := false, qwin := false, que := false, tasks := false })
        rfl rfl rfl rfl s q n bs).trans (oversizeHead_alone rfl rfl _ q)
      have hque := (obs_que hover.rest).trans (admitBatch_que s q n bs)
      obtain ⟨hhead, hbuf⟩ := getQueue_admitBatch s q n bs
      refine ⟨_, congrArg Host.Outcome.next (batchAdmit_admitted htried href hmay hfree hturn hat), congrArg QueUnit.admitAt hque,
        congrArg QueUnit.lastClr hque, congrArg QueUnit.admitted hque, fun es hes => ?_, fun hall => ?_, hone.others,
        eq_mergeKept hone.rest⟩
      · obtain ⟨r, hr⟩ := getTask_admitBatch s q n hes
        exact ⟨r, _, (congrArg (tabGet none · r) (obs_tasks hover.rest)).trans hr, rfl, rfl, rfl, newTask_envs _ _ _ _ _⟩
      · rw [oversizeHead_not, hhead]
        rintro ⟨-, -, b, hb, -⟩
        rw [hbuf, hall, List.drop_length] at hb
        exact nomatch hb
  case oversize =>
    refine ⟨_, congrArg Host.Outcome.next (batchAdmit_oversize ⟨hst, hdead, b, hb, hflag, hlen⟩ hlost),
      deadItem s qsStmTooBig (envTag b) true, ?_, rfl, rfl, rfl⟩
    rw [getQueue_refuseHead_one hb, deadBehind_items (k := headPast _ _) hlost]
    exact List.mem_append_right _ (List.mem_singleton.2 rfl)
  case timer =>
    have hqueues := queueInterrupt_queues s q
    refine ⟨_, coalesceTimeout_due hi hs hu, ?_, fun n ho hn => ?_, fun k hk => ?_, ?_⟩
    · exact (getQueue_of_queues hqueues q).trans ((getQueue_updQueue s q q _).trans (if_pos rfl))
    · rw [queueInterrupt_of ho hn]
      rfl
    · exact (getQueue_of_queues hqueues k).trans ((getQueue_updQueue s q k _).trans (if_neg hk))
    · exact eq_mergeKept (K := { Keep.all with queues := false, out := false }) (queueInterrupt_frame s q rfl rfl)

end Sys2Proof.Machine
end

section
/-! WITNESSES. What the model answers where the statements on doorbells, queue commands, envelopes and batches apply. -/

namespace Sys2Proof.Machine

/-- Command `i` on `s` answers a next state of which `p` holds. -/
def answers (i : Instr) (s : State) (p : State → Bool) : Bool :=
  match exec i s with
  | .next t => p t
  | _ => false

/-! Doorbells of clearing 5, whose page 2 holds queues 1,024 to 1,535 (R218, R219, R221). -/

/-- A doorbell `d` of clearing 5, rung by its virtual function. -/
def ring (d w : Nat) : Instr := .doorbell (.host 6 2 (8 * d) 0xFF 0) (word w)

/-- The word of queue 1,024 waits, its descriptor READ answered. -/
def wordWaits (w : Nat) : State :=
  updQue (queueState .enabled) fun u => { u with fifo := [(1024, word w)], arrived := [1024] }

theorem ring_cached_moves_tail :
    answers (ring 0 2) (queueState .enabled) (fun t => (getQueue t 1024).tail == 2 && t.que.hits == 1) = true := by
  decide +kernel

theorem ring_uncached_waits : answers (ring 9 2) (queueState .enabled)
    (fun t => t.que.fifo == [(1033, word 2)] && t.que.ownWait.length == 1 && (getQueue t 1033).tail == 0) = true := by
  decide +kernel

theorem ring_past_depth_is_refused :
    answers (ring 0 5) (queueState .enabled)
      (fun t => (getQueue t 1024).tail == 0 && (getQwin t 5).dbRefused == 1 && (getQwin t 5).dbCode == qsDbTail) = true := by
  decide +kernel

theorem doorbellApply_moves_tail :
    answers (.doorbellApply 1024) (wordWaits 3) (fun t => (getQueue t 1024).tail == 3 && t.que.fifo == []) = true := by
  decide +kernel

/-! Commands of queue 1,024 through window 5 (R216, R217, R243). -/

/-- Queue 1,024 named in a command word. -/
def named : Word := word (1024 * 2 ^ 16)

theorem queConfig_copies_descriptor : answers (.queConfig (reqTenant 5) 5 named) configState
    (fun t => (getQueue t 1024).depth == 64 && (getQueue t 1024).ctx == 40 && (getQwin t 5).code == qsOk) = true := by
  decide +kernel

theorem queConfig_of_enabled_is_refused : answers (.queConfig (reqTenant 5) 5 named) (queueState .enabled)
    (fun t => (getQueue t 1024).depth == 4 && (getWin t 5).code == qsQBadState) = true := by
  decide +kernel

theorem queEnable_enables : answers (.queEnable (reqTenant 5) 5 named) (queueState .disabled)
    (fun t => (getQueue t 1024).st == .enabled && (getQwin t 5).st == .enabled && (getQwin t 5).done) = true := by
  decide +kernel

theorem queDisable_of_empty_ends : answers (.queDisable (reqTenant 5) 5 named) (queueState .enabled)
    (fun t => (getQueue t 1024).st == .disabled && (getQwin t 5).done) = true := by
  decide +kernel

theorem queDisable_returns_fetched : answers (.queDisable (reqTenant 5) 5 named) batchState
    (fun t => (getQueue t 1024).st == .disabling && (getQueue t 1024).items.map (·.status) == [qsQDisabled] &&
      !(getQwin t 5).done) = true := by
  decide +kernel

theorem queRead_stages_descriptor : answers (.queRead (reqTenant 5) 5 named) (queueState .enabled)
    (fun t => stagedDesc t 5 3 == word (4 + 4 * 2 ^ 32) && (getQwin t 5).queue == 1024) = true := by
  decide +kernel

theorem stmQuotaWrite_sets_quota :
    answers (.stmQuotaWrite reqRanger 5 (word 1024)) (queueState .enabled)
      (fun t => quotaOf t 5 == 1024 && t.glob.code == qsOk) = true := by
  decide +kernel

theorem stmQuotaWrite_past_plots_is_refused :
    answers (.stmQuotaWrite reqRanger 5 (word 1025)) (queueState .enabled)
      (fun t => quotaOf t 5 == quotaOf (queueState .enabled) 5 && t.glob.code != qsOk) = true := by
  decide +kernel

/-! Envelope 0 of task 0 (R226, R237, R240). -/

/-- What the envelope has come to. -/
def cameTo (st : EnvSt) (c : Code) (t : State) : Bool :=
  (getEnv t 0 0).any fun v => v.st == st && v.code == c

theorem nop_is_done : answers (.nop 0 0) (taskState 0) (cameTo .done qsOk) = true := by
  decide +kernel

theorem fence_is_done : answers (.fence 0 0) (taskState 1) (cameTo .done qsOk) = true := by
  decide +kernel

theorem nop_of_fence_waits : answers (.nop 0 0) (taskState 1) (cameTo .waiting 0) = true := by
  decide +kernel

theorem fence_behind_nop_waits :
    answers (.fence 0 1) (withEnvs liveState [envOf 0, envOf 1]) (fun t => (getEnv t 0 1).any (·.st == .waiting)) = true := by
  decide +kernel

theorem gather_of_bad_operands_is_done : answers (.gather 0 0) (taskState 0x11) (cameTo .done qsGpeOperand) = true := by
  decide +kernel

theorem gather_of_no_rows_is_done :
    answers (.gather 0 0) (withTable (withEnvs liveState [gatherEnv 0])) (cameTo .done qsOk) = true := by
  decide +kernel

/-! The head batch of queue 1,024 (R227, R228, R231, R232, R236). -/

/-- Queue 1,024 Enabled, with `b` fetched. -/
def headState (b : List Byte) : State := updQueue (queueState .enabled) 1024 fun k => { k with buffered := [b] }

/-- Its READ of one envelope is under way. -/
def fetchState : State := updQueue (queueState .enabled) 1024 fun k => { k with fetch := some 1 }

/-- A completion has started its coalescing timer. -/
def timerState : State :=
  updQueue (queueState .enabled) 1024 fun k => { k with irq := true, irqCount := 2, irqSince := some 3, coalesceUs := 5 }

theorem envelopeFetch_failed_is_error :
    answers (.envelopeFetch 1024 .failed) fetchState
      (fun t => (getQueue t 1024).st == .error && (getQueue t 1024).fetch == none) = true := by
  decide +kernel

theorem envelopeFetch_buffers :
    answers (.envelopeFetch 1024 (.bytes soloNop)) fetchState (fun t => (getQueue t 1024).buffered == [soloNop]) = true := by
  decide +kernel

theorem batchAdmit_makes_task : answers (.batchAdmit 1024) batchState
    (fun t => (getQueue t 1024).head == 1 && t.que.admitted == 1 && (getTask t 0).any (·.queue == 1024)) = true := by
  decide +kernel

theorem batchAdmit_refuses_reserved : answers (.batchAdmit 1024) (headState (List.replicate 64 0xFF))
    (fun t => (getQueue t 1024).head == 1 && (getQueue t 1024).items.length == 1 && t.tasks == []) = true := by
  decide +kernel

theorem batchAdmit_refuses_oversize : answers (.batchAdmit 1024) (headState [0, 8, 0, 0, 0, 0, 0, 0, 5, 0])
    (fun t => (getQueue t 1024).items.map (·.status) == [qsStmTooBig]) = true := by
  decide +kernel

theorem coalesceTimeout_interrupts :
    answers (.coalesceTimeout 1024) timerState (fun t => (getQueue t 1024).irqCount == 0 && t.out == [.msix 6 0]) = true := by
  decide +kernel

theorem coalesceTimeout_idle_keeps_count : answers (.coalesceTimeout 1024) (updQueue timerState 1024 fun k => { k with irq := false })
    (fun t => (getQueue t 1024).irqCount == 2 && t.out == []) = true := by
  decide +kernel

end Sys2Proof.Machine
end
